-- ==== Sys2Proof/Word.lean ====
section
/-! DEFINITION. The word types of the model: what the spec counts as bits. -/

namespace Sys2Proof

/-- One byte of memory. -/
abbrev Byte := BitVec 8

/-- A register of a unit window, or one instruction word. -/
abbrev Word := BitVec 32

/-- A scalar register of a core, or a 64-bit structure word. -/
abbrev DWord := BitVec 64

end Sys2Proof
end

