-- ==== Sys2Proof/Syntax.lean ====
section
/-! DEFINITION. The commands the module takes, one constructor for each row of the opcode table, and the types of their
operands. -/

namespace Sys2Proof

/-- What the host answered to a read of its memory by the module (R247). -/
inductive HostRead where
  /-- Successful completion with these bytes. -/
  | data (bytes : List Byte)
  /-- Unsupported Request, Completer Abort or a timeout. -/
  | denied
  /-- A completion with its poisoned bit set. -/
  | poisoned
  deriving DecidableEq, Repr

/-- What a request does at its target (R34). -/
inductive ReqKind where
  | read
  | write
  | fetch
  /-- An atomic of R149: its *op*, its operand in the request's data, and the new value of AMOCAS. -/
  | atomic (op : Nat) (new : BitVec 64)
  deriving DecidableEq, Repr

/-- A request of a master to a device physical address (R24, R33, R34). -/
structure Request where
  master : Nat
  dpa : Nat
  len : Nat
  kind : ReqKind
  data : List Byte
  /-- The request came through a STREAM window (R85). -/
  stream : Bool
  deriving DecidableEq, Repr

/-- A report of a unit to Guard, in the fields of a record (R43). -/
structure Report where
  status : Nat
  target : Nat
  severity : Nat
  master : Nat
  address : Nat
  tag : Nat
  detail : Nat
  deriving DecidableEq, Repr

/-- The units that own work rings (R277). -/
inductive RingUnit where
  | dma | stp | prf | plt | hat
  deriving DecidableEq, Repr

/-- One work ring: its unit and number. -/
structure Ring where
  unit : RingUnit
  n : Nat
  deriving DecidableEq, Repr

/-- What one 64-byte read of an HBM array meets on the wire (R327), or the check of a packet's payload finds (R359). -/
inductive Ecc where
  /-- No error. -/
  | clean
  /-- One symbol corrected. -/
  | corrected
  /-- Uncorrectable, then read without an uncorrectable error on retry 1 or 2. -/
  | transient
  /-- Uncorrectable on all three attempts. -/
  | uncorrectable
  deriving DecidableEq, Repr

/-- What the arrays of a system cache slice show at a lookup (R344). -/
inductive CacheErr where
  | none
  /-- A single-bit error in data word `w` (0–15) of the line. -/
  | single (w : Nat)
  /-- A double error in data word `w` (0–15) of the line. -/
  | double (w : Nat)
  /-- A double error in the tag or state of way `way`. -/
  | tag (way : Nat)
  deriving DecidableEq, Repr

/-- A Hatch packet (R381): its header fields, its payload without padding, and what its checks find: a wrong ECRC, or a
nonzero reserved field. -/
structure Packet where
  op : Nat
  vc : Nat
  poison : Bool
  hops : Nat
  src : Nat
  dst : Nat
  tag : Nat
  len : Nat
  status : Nat
  aux : Nat
  addr : Nat
  aux2 : Nat
  payload : List Byte
  badEcrc : Bool
  reserved : Bool
  deriving DecidableEq, Repr

/-- A part of a spanning RUN that a coordinator has submitted to this node (R171): the coordinator's fabric ID, the image's DIGEST, and
the RUN's entry. -/
structure RunPart where
  src : Nat
  digest : List Byte
  entry : List Byte
  deriving DecidableEq, Repr

/-- What a command of a pair's FRONT makes of the Gauge of its BACK (R190): a unit row of one of its banks, with its shadow record, or the
registers CFG, BANKS and ACL of a table. -/
inductive GaugeFar where
  | row (bank row : Nat) (record : List Byte)
  | table (t : Nat) (cfg banks acl : Word)
  deriving DecidableEq, Repr

/-- What a message of a stream channel carries. -/
inductive NocBody where
  /-- Elements, whether they are the last of their VSEND, and whether they are poisoned. -/
  | elems (es : List Nat) (last bad : Bool)
  | endMark
  | credit (n : Nat)
  deriving DecidableEq, Repr

/-- A message of a stream channel in flight on the mesh (R144, R162, R163): the KIND of its channel, the core key and channel
of its sender (128 for none), the receiving pair tile and channel (or sink number), its sender's generation and element bytes,
and what it carries. -/
structure NocMsg where
  kind : Nat
  sender : Nat
  sendCh : Nat
  tile : Nat
  ch : Nat
  gen : Nat
  eb : Nat
  body : NocBody
  deriving DecidableEq, Repr

/-- Where Headstock puts the storage a command builds: column data, INS and DEL columns, and catalog arrays (R62, R157,
R413). -/
structure Room where
  data : Nat
  epochs : Nat
  catalog : Nat
  deriving DecidableEq, Repr

/-- A JTAG instruction and the data it shifts (R504, R508). -/
inductive JtagInsn where
  | bypass
  | idcode
  /-- Any boundary-scan instruction other than BYPASS and IDCODE. -/
  | boundary
  /-- The debug access to the register at a BAR0 offset: a read, or a write of a value. -/
  | debug (off : Nat) (value : Option Word)
  /-- TRST#, or five TCK cycles with TMS high. -/
  | tapReset
  deriving DecidableEq, Repr

/-- The read of host memory that has had no completion in time (R247). -/
inductive HostWait where
  /-- A read of the command of a tag. -/
  | command (tag : Nat)
  /-- The fetch of a pair's entry, by the tag it would take. -/
  | fetch (q tag : Nat)
  /-- A read of a DMA channel. -/
  | dma (ch : Nat)
  deriving DecidableEq, Repr

/-- How a lane's FEC decoder leaves a codeword (R366, R393): as it came, with its errors corrected, or uncorrectable. -/
inductive Fec where
  | clean
  | corrected
  | uncorrectable
  deriving DecidableEq, Repr

/-- The message of one FEC codeword of a Hatch port (R367): the lane it came on, its 20-bit marker, its piece of 640 bytes of the
port's byte stream, and how the decoder leaves it. -/
structure Codeword where
  lane : Nat
  marker : BitVec 20
  piece : List Byte
  fec : Fec
  deriving DecidableEq, Repr

/-- The commands: one constructor for each row of the opcode table. -/
inductive Instr where
  /-- A write to a register that has no row of its own takes effect according to the field's access code. (R5) -/
  | registerWrite (m : Nat) (a : Nat) (v : Word)
  /-- A read of NAME_LO returns the current LO and captures the current HI for the reading master. (R7) -/
  | pairLoRead (m : Nat) (a : Nat)
  /-- A read of NAME_HI returns the captured HI to the capturing master and clears the capture, or returns the current HI to any other master. (R7) -/
  | pairHiRead (m : Nat) (a : Nat)
  /-- A write to NAME_LO becomes the held LO tagged with the writer and replaces any held LO. (R7) -/
  | pairLoWrite (m : Nat) (a : Nat) (v : Word)
  /-- A write to NAME_HI takes effect together with the writer's held LO, or with the current LO. (R7) -/
  | pairHiWrite (m : Nat) (a : Nat) (v : Word)
  /-- A narrow or misaligned register read returns bytes without side effect, and such a write is discarded and recorded. (R8) -/
  | unalignedRegisterAccess (m : Nat) (a : Nat) (len : Nat) (wr : Option (List Byte))
  /-- A request from a master arrives at a target and is judged and served; `payload` is what the consumer's check of the payload that
  the mesh has carried finds: a double error is `uncorrectable` (R34, R359) -/
  | targetRequest (r : Request) (payload : Ecc)
  /-- A host BAR4 access is translated by its map entry and checked at table 0x08 and at the reached target. (R32) -/
  | bar4Access (fn : Nat) (off : Nat) (len : Nat) (wr : Option (List Byte))
  /-- A host BAR0 access is checked at table 0x06 and at the register's own table. (R32) -/
  | bar0Access (fn : Nat) (off : Nat) (len : Nat) (wr : Option (List Byte))
  /-- A host BAR2 access is checked at table 0x07. (R32) -/
  | bar2Access (fn : Nat) (off : Nat) (len : Nat) (wr : Option (List Byte))
  /-- A write to GLB_AFFn is taken only in Bring-up and enables a block only when its range is valid. (R29) -/
  | affinityWrite (m : Nat) (n : Nat) (v : Word)
  /-- A write to a grant slot takes effect for lookups that begin after it completes. (R37) -/
  | grantWrite (m : Nat) (t : Nat) (g : Nat) (k : Nat) (v : Word)
  /-- A unit's report enters Guard and is merged, stored as a new record or counted as lost. (R44) -/
  | guardReport (r : Report)
  /-- Headstock reclaims segments and table IDs below G once no command with an older snapshot is in flight. (R60) -/
  | storageReclaim
  /-- The runtime seals, compresses or replaces a segment's stored form while no Clamp covers it. (R61) -/
  | segmentReplace (table : Nat) (col : Nat) (seg : Nat) (codec : BitVec 64) (stored : List Byte) (at' : Nat)
  /-- A register-register integer instruction computes XD and sets SFLAGS. (R77) -/
  | alu (c : Nat) (pfx : Option Word) (w : Word)
  /-- A register-immediate integer instruction computes XD. (R79) -/
  | alui (c : Nat) (pfx : Option Word) (w : Word)
  /-- LDB to LDWU load from the effective address into XD after window and table checks. (R80) -/
  | scalarLoad (c : Nat) (pfx : Option Word) (w : Word)
  /-- STB to STD write the low bytes of XD to the effective address. (R80) -/
  | scalarStore (c : Nat) (pfx : Option Word) (w : Word)
  /-- A compare-and-branch instruction branches when its condition holds. (R81) -/
  | br (c : Nat) (pfx : Option Word) (w : Word)
  /-- CALL writes the return address to X30 and jumps. (R81) -/
  | call (c : Nat) (pfx : Option Word) (w : Word)
  /-- CALLR writes the return address to XD and jumps to a register target. (R81) -/
  | callr (c : Nat) (pfx : Option Word) (w : Word)
  /-- JUMP jumps by its offset without writing a register. (R81) -/
  | jump (c : Nat) (pfx : Option Word) (w : Word)
  /-- FENCE waits for earlier accesses to perform and discards L1 data lines. (R91) -/
  | fence (c : Nat) (pfx : Option Word) (w : Word)
  /-- FENCE.W orders earlier stores before later stores. (R91) -/
  | fenceW (c : Nat) (pfx : Option Word) (w : Word)
  /-- FENCE.X waits as FENCE and discards the instruction cache and fetch buffer. (R91) -/
  | fenceX (c : Nat) (pfx : Option Word) (w : Word)
  /-- RTCALL raises RUNTIME_CALL to ask the runtime for a service. (R95) -/
  | rtcall (c : Nat) (pfx : Option Word) (w : Word)
  /-- DBGSTOP raises DEBUG_STOP. (R82) -/
  | dbgstop (c : Nat) (pfx : Option Word) (w : Word)
  /-- END waits for the tile's stores and VSENDs to perform and stops the tile with STOP = 2. (R82) -/
  | endProgram (c : Nat) (pfx : Option Word) (w : Word)
  /-- TRAPRET returns from a trap, restoring PC, MODE and IE. (R97) -/
  | trapret (c : Nat) (pfx : Option Word) (w : Word)
  /-- SRR reads a system register into XD. (R83) -/
  | srr (c : Nat) (pfx : Option Word) (w : Word)
  /-- SRW writes XA to a system register and returns its prior value. (R83) -/
  | srw (c : Nat) (pfx : Option Word) (w : Word)
  /-- SRS ORs XA into a system register and returns its prior value. (R83) -/
  | srs (c : Nat) (pfx : Option Word) (w : Word)
  /-- SRC clears the bits of XA in a system register and returns its prior value. (R83) -/
  | src (c : Nat) (pfx : Option Word) (w : Word)
  /-- A non-OK answer to a store arrives and the core stops at the next instruction boundary. (R93) -/
  | impreciseException (c : Nat)
  /-- A write of RUN = 1 starts or resumes the tile at TILn_PC. (R95) -/
  | tileRun (m : Nat) (t : Nat)
  /-- A write of RUN = 0 requests a halt at the next instruction boundary. (R96) -/
  | tileHalt (m : Nat) (t : Nat)
  /-- Once every store and VSEND has performed, STOP changes and the tile is halted. (R96) -/
  | tileHalted (t : Nat)
  /-- A write of STEP = 1 to a halted tile executes one instruction and stops with STOP = 4. (R96) -/
  | tileStep (m : Nat) (t : Nat)
  /-- A write to a window word takes effect only for a halted tile and is refused if it makes a valid window inconsistent. (R85) -/
  | windowWrite (m : Nat) (t : Nat) (w : Nat) (k : Nat) (v : Word)
  /-- VSETCFG sets element type, grouping and scale, sets VL and returns the remaining count. (R105) -/
  | vsetcfg (c : Nat) (pfx : Option Word) (w : Word)
  /-- An integer or decimal vector instruction of majors 0x20 and 0x21 computes each active element. (R112) -/
  | vintegerOp (c : Nat) (pfx : Option Word) (w : Word)
  /-- A floating-point vector instruction of majors 0x22 and 0x23 computes each active element. (R116) -/
  | vfloatOp (c : Nat) (pfx : Option Word) (w : Word)
  /-- A vector compare writes a predicate result. (R117) -/
  | vcompare (c : Nat) (pfx : Option Word) (w : Word)
  /-- A predicate operation of major 0x26 computes a predicate or a scalar count. (R118) -/
  | predicateOp (c : Nat) (pfx : Option Word) (w : Word)
  /-- A move of major 0x27 copies, selects, broadcasts, extracts, inserts or slides elements. (R119) -/
  | vectorMove (c : Nat) (pfx : Option Word) (w : Word)
  /-- VCVT converts elements between types. (R120) -/
  | vcvt (c : Nat) (pfx : Option Word) (w : Word)
  /-- VLD loads contiguous elements. (R121) -/
  | vld (c : Nat) (pfx : Option Word) (w : Word)
  /-- VST stores contiguous elements. (R121) -/
  | vst (c : Nat) (pfx : Option Word) (w : Word)
  /-- VLDS loads strided elements. (R121) -/
  | vlds (c : Nat) (pfx : Option Word) (w : Word)
  /-- VSTS stores strided elements. (R121) -/
  | vsts (c : Nat) (pfx : Option Word) (w : Word)
  /-- GATHER loads indexed elements and faults element-precisely. (R123) -/
  | gather (c : Nat) (pfx : Option Word) (w : Word)
  /-- SCATTER stores indexed elements in increasing element order. (R121) -/
  | scatter (c : Nat) (pfx : Option Word) (w : Word)
  /-- GATHER.F loads indexed elements and clears the predicate from the first faulting element. (R124) -/
  | gatherF (c : Nat) (pfx : Option Word) (w : Word)
  /-- LD2 to LD4 load interleaved records into several groups. (R122) -/
  | ldf (c : Nat) (pfx : Option Word) (w : Word)
  /-- ST2 to ST4 store several groups interleaved. (R122) -/
  | stf (c : Nat) (pfx : Option Word) (w : Word)
  /-- VCOMPRESS packs the active elements to the low end of VD. (R131) -/
  | vcompress (c : Nat) (pfx : Option Word) (w : Word)
  /-- VEXPAND spreads consecutive elements to the active positions of VD. (R131) -/
  | vexpand (c : Nat) (pfx : Option Word) (w : Word)
  /-- VHASH and VHASH.X apply the Clatan mix hash to each active element. (R132) -/
  | vhash (c : Nat) (pfx : Option Word) (w : Word)
  /-- VSORT sorts the active elements. (R133) -/
  | vsort (c : Nat) (pfx : Option Word) (w : Word)
  /-- VSORTKV sorts keys stably and moves their payloads with them. (R133) -/
  | vsortkv (c : Nat) (pfx : Option Word) (w : Word)
  /-- VMERGE merges the active elements of two groups into a double group. (R134) -/
  | vmerge (c : Nat) (pfx : Option Word) (w : Word)
  /-- VRED reduces the active elements into VD[0]. (R135) -/
  | vred (c : Nat) (pfx : Option Word) (w : Word)
  /-- VSRED reduces the active elements within segments. (R136) -/
  | vsred (c : Nat) (pfx : Option Word) (w : Word)
  /-- VPACK writes the low bits of the active elements into a dense bit string. (R137) -/
  | vpack (c : Nat) (pfx : Option Word) (w : Word)
  /-- VUNPACK reads elements from a dense bit string. (R137) -/
  | vunpack (c : Nat) (pfx : Option Word) (w : Word)
  /-- VSTRCMP compares 16-byte chunks and writes order and first difference. (R138) -/
  | vstrcmp (c : Nat) (pfx : Option Word) (w : Word)
  /-- VSTRCMP.C continues a chunked string comparison. (R138) -/
  | vstrcmpC (c : Nat) (pfx : Option Word) (w : Word)
  /-- VSTRCMP.EQ to .GE write a predicate from a chunk comparison. (R138) -/
  | vstrcmpPredicate (c : Nat) (pfx : Option Word) (w : Word)
  /-- VHIST32 and VHIST64 add 1 to a bench counter per active element. (R139) -/
  | vhist (c : Nat) (pfx : Option Word) (w : Word)
  /-- VHISTADD64 adds each element's weight to a bench counter. (R139) -/
  | vhistadd64 (c : Nat) (pfx : Option Word) (w : Word)
  /-- VGAUGE searches a Gauge logical table with keys from VA. (R140) -/
  | vgauge (c : Nat) (pfx : Option Word) (w : Word)
  /-- VSEND appends active elements to an outbound channel, stalling on credit. (R142) -/
  | vsend (c : Nat) (pfx : Option Word) (w : Word)
  /-- VRECV reads up to VL elements from an inbound channel once enough are buffered or the end marker is reached. (R143) -/
  | vrecv (c : Nat) (pfx : Option Word) (w : Word)
  /-- SCLOSE places the end marker on an outbound channel and marks it closed. (R144) -/
  | sclose (c : Nat) (pfx : Option Word) (w : Word)
  /-- SSTAT.OUT returns an outbound channel's state. (R144) -/
  | sstatOut (c : Nat) (pfx : Option Word) (w : Word)
  /-- SSTAT.IN returns an inbound channel's state. (R144) -/
  | sstatIn (c : Nat) (pfx : Option Word) (w : Word)
  /-- VDOPEN opens a decoder context on stored column data. (R145) -/
  | vdopen (c : Nat) (pfx : Option Word) (w : Word)
  /-- VDECODE consumes the next elements of a decoder context. (R146) -/
  | vdecode (c : Nat) (pfx : Option Word) (w : Word)
  /-- VDSTAT returns a decoder context's state. (R146) -/
  | vdstat (c : Nat) (pfx : Option Word) (w : Word)
  /-- VDCLOSE returns a decoder context to closed. (R146) -/
  | vdclose (c : Nat) (pfx : Option Word) (w : Word)
  /-- VAMO performs an atomic per active element in turn, faulting element-precisely. (R151) -/
  | vamo (c : Nat) (pfx : Option Word) (w : Word)
  /-- AMO performs one scalar atomic read-modify-write. (R149) -/
  | amo (c : Nat) (pfx : Option Word) (w : Word)
  /-- Stream elements or an end marker arrive at an inbound channel and are buffered or discarded by GEN. (R163) -/
  | streamElementArrive (t : Nat) (ch : Nat) (far : Option NocMsg) (payload : Ecc)
  /-- Credits arrive at an outbound channel and a stalled VSEND may proceed. (R162) -/
  | streamCreditReturn (t : Nat) (ch : Nat) (far : Option NocMsg)
  /-- A write of RESET = 1 discards a channel's state and ends a waiting VSEND or VRECV with STREAM_RESET. (R165) -/
  | channelReset (m : Nat) (t : Nat) (inbound : Bool) (ch : Nat) (v : Word)
  /-- INSTALL_PROGRAM checks an image in order and installs it. (R155) -/
  | installProgram (tag : Nat) (image : HostRead) (at' : Nat)
  /-- INSTALL_PROGRAM with REMOVE makes a handle unusable. (R273) -/
  | programRemove (tag : Nat)
  /-- RUN starts an installed pipeline against a snapshot. (R272) -/
  | run (tag : Nat) (params : HostRead) (room : Option Nat) (part : Option RunPart)
  /-- A waiting stage is placed on free tiles in the order stages began to wait. (R159) -/
  | stagePlace (tag : Nat) (tiles : List Nat) (before : List (Nat × List (Nat × Nat))) (after : List (Nat × List (Nat × Nat)))
  /-- Once every instance of a stage has ended, Headstock starts the next stage's instances. (R160) -/
  | stageStart (tag : Nat) (gen : Nat)
  /-- Headstock ends a RUN after an instance stops with an exception or a sink fails. (R168) -/
  | runEnd (tag : Nat) (status : BitVec 16) (node : Option Nat)
  /-- The RUN's time limit expires and Headstock ends it with PROGRAM_TIMEOUT. (R169) -/
  | runTimeLimit (tag : Nat)
  /-- A host sink receives a VSEND's elements and writes them to the host buffer. (R166) -/
  | hostSinkWrite (t : Nat) (ch : Nat) (far : Option NocMsg) (sent : Bool) (payload : Ecc)
  /-- A column sink appends elements to an output column. (R167) -/
  | columnSinkWrite (t : Nat) (ch : Nat) (far : Option NocMsg) (payload : Ecc)
  /-- When the last instance has ended and every sink has written, the RUN reaches its commit point and completes or publishes its output table. (R170) -/
  | runCommit (tag : Nat) (room : Option Room)
  /-- A search request arrives at a Gauge table and returns the rank-n result. (R179) -/
  | gaugeSearch (m : Nat) (table : Nat) (rank : Nat) (key : List (BitVec 64)) (parity : Bool)
  /-- CREATE makes a logical table on the given banks with empty entries. (R177) -/
  | gaugeCreate (m : Nat) (slot : Nat) (v : Word) (back : BitVec 16)
  /-- DESTROY invalidates a table's rows and frees its banks. (R189) -/
  | gaugeDestroy (m : Nat) (slot : Nat) (v : Word)
  /-- SET_ACL changes a table's search master range. (R178) -/
  | gaugeSetAcl (m : Nat) (slot : Nat) (v : Word)
  /-- WRITE writes the shadow rows and then the array entry. (R184) -/
  | gaugeWrite (m : Nat) (slot : Nat) (v : Word) (back : BitVec 16) (far : Option GaugeFar)
  /-- SEARCH through a slot returns the rank-n result and its position. (R179) -/
  | gaugeSlotSearch (m : Nat) (slot : Nat) (v : Word)
  /-- NEXT returns the first match ordered after the last one the slot returned. (R189) -/
  | gaugeNext (m : Nat) (slot : Nat) (v : Word)
  /-- RELOAD loads a table's entries from their shadow records. (R185) -/
  | gaugeReload (m : Nat) (slot : Nat) (v : Word) (back : BitVec 16)
  /-- MOVE_BANK copies a bank to a free bank and switches the table to it. (R188) -/
  | moveBank (m : Nat) (slot : Nat) (v : Word)
  /-- READ copies an array entry into the slot. (R189) -/
  | gaugeRead (m : Nat) (slot : Nat) (v : Word)
  /-- The scrub interval expires and each bank's next row is compared with its shadow and repaired. (R186) -/
  | gaugeScrubStep (bad : List Nat)
  /-- A write of GAU_BANK_RETIRED retires a bank owned by no table. (R188) -/
  | gaugeBankRetire (m : Nat) (v : Word)
  /-- A write of GAU_SHADOW_BASE is taken only while no table exists. (R192) -/
  | gaugeShadowBaseWrite (m : Nat) (hi : Bool) (v : Word)
  /-- A Stipple COMPRESS job compresses and verifies one frame. (R205) -/
  | stippleCompress (e : Nat) (frame : List Byte)
  /-- A Stipple DECOMPRESS job decodes one frame. (R205) -/
  | stippleDecompress (e : Nat)
  /-- A write of STP_ENG_RETIRED retires an engine once its job completes. (R209) -/
  | stippleEngineRetire (m : Nat) (v : Word)
  /-- UPDATE absorbs whole blocks into a stream's slot, optionally starting or finishing it. (R217) -/
  | proofUpdate (e : Nat) (slot : Nat)
  /-- READ writes a stream's digest. (R217) -/
  | proofRead (e : Nat) (slot : Nat)
  /-- COMPARE compares a value with a stream's digest. (R217) -/
  | proofCompare (e : Nat) (slot : Nat)
  /-- SAVE writes a slot's 256-byte context image. (R219) -/
  | proofSave (e : Nat) (slot : Nat)
  /-- RESTORE loads a context image into a new slot. (R219) -/
  | proofRestore (e : Nat) (slot : Nat)
  /-- RELEASE frees a stream's slot. (R217) -/
  | proofRelease (e : Nat) (slot : Nat)
  /-- A slot's 16-block quantum ends and the engine switches to the next slot with a job. (R215) -/
  | proofQuantumEnd (e : Nat)
  /-- A write to a ring's DOORBELL marks it pending. (R282) -/
  | ringDoorbell (m : Nat) (r : Ring) (v : Word)
  /-- An engine that can take a job reads the context and fetches the owned entry at its head. (R282) -/
  | ringFetch (r : Ring) (again : Bool)
  /-- An engine posts a finished job's completion and signals its event. (R283) -/
  | ringCompletionPost (r : Ring) (tag : BitVec 16)
  /-- A write of a ring's completion head releases completion entries. (R283) -/
  | ringCheadWrite (m : Nat) (r : Ring) (v : Word)
  /-- A write of RESET = 1 ends a ring's jobs with ABORTED and clears its state. (R285) -/
  | ringReset (m : Nat) (r : Ring)
  /-- A DMA RUN_LIST job moves the bytes of a descriptor list. (R290) -/
  | dmaRunList (ch : Nat) (host : List HostRead)
  /-- A write that changes DMA_CTL.MODE is taken only when no channel is busy and the mode allows it. (R287) -/
  | dmaModeWrite (m : Nat) (v : Word)
  /-- A DMA timer expires and delivers a trigger to each bound channel. (R294) -/
  | dmaTimerExpire (t : Nat)
  /-- A channel that has waited 10 µs for a burst is served next at top priority. (R295) -/
  | dmaBurstPromote (ch : Nat)
  /-- A write of GO = 1 starts a register-mode transfer. (R296) -/
  | dmaRegGo (m : Nat) (ch : Nat) (v : Word)
  /-- A register-mode transfer ends and sets STATUS, DONE and REG_DONE. (R296) -/
  | dmaRegDone (ch : Nat) (host : HostRead)
  /-- SPAWN creates a thread from an image and makes it READY. (R310) -/
  | spawn (m : Nat) (slot : Nat) (v : Word)
  /-- WAIT consumes an event count or makes the running thread WAITING. (R311) -/
  | wait (m : Nat) (slot : Nat) (v : Word)
  /-- YIELD moves the running thread to the tail of its level. (R308) -/
  | yield (m : Nat) (slot : Nat) (v : Word)
  /-- EXIT frees the running thread. (R308) -/
  | exit (m : Nat) (slot : Nat) (v : Word)
  /-- SIGNAL wakes the first waiting thread of an event or increments its count. (R311) -/
  | signal (m : Nat) (slot : Nat) (v : Word)
  /-- KILL frees a thread, taking it from its core or event. (R308) -/
  | kill (m : Nat) (slot : Nat) (v : Word)
  /-- SETPRIO changes a thread's priority. (R308) -/
  | setprio (m : Nat) (slot : Nat) (v : Word)
  /-- RESUME makes a STOPPED thread READY after reloading its image. (R308) -/
  | resume (m : Nat) (slot : Nat) (v : Word)
  /-- A hardware source signals a dispatcher event. (R311) -/
  | hardwareEvent (e : Nat)
  /-- An idle core takes the head of the highest nonempty ready list. (R304) -/
  | threadPlace (n : Nat)
  /-- A higher-priority READY thread takes the lowest-priority preemptible core. (R305) -/
  | preempt (n : Nat)
  /-- A write of RESTART = 1 saves a stopped core's thread and returns the core to dispatch. (R312) -/
  | coreRestart (m : Nat) (n : Nat)
  /-- A read at an HBM controller is served, corrected, retried or freezes the controller. (R327) -/
  | hbmRead (m : Nat) (dpa : Nat) (found : Ecc)
  /-- A write at an HBM controller is performed, merging partial bursts. (R329) -/
  | hbmWrite (m : Nat) (dpa : Nat) (data : List Byte) (found : Ecc)
  /-- A request that has waited 2 µs is promoted to class 0. (R321) -/
  | requestAgePromote (mc : Nat)
  /-- Every 100 µs a stack's temperature is read and its refresh rate set. (R324) -/
  | stackTempRead (k : Nat) (temp : BitVec 8)
  /-- A write of SWITCH = 1 starts a frequency switch of a stack. (R325) -/
  | stackSwitch (m : Nat) (k : Nat)
  /-- A frequency switch completes and requests resume. (R325) -/
  | stackSwitchDone (k : Nat)
  /-- A write of THAW = 1 returns a frozen controller to service, optionally marking the captured burst. (R330) -/
  | mcThaw (m : Nat) (mc : Nat) (v : Word)
  /-- A write of GO = 1 to MCn_PPR starts a post-package repair on a frozen controller. (R331) -/
  | ppr (m : Nat) (mc : Nat) (v : Word)
  /-- A repair ends and RESULT is set. (R331) -/
  | pprDone (mc : Nat) (result : BitVec 2)
  /-- A write of GO = 1 to GLB_HBM_RETIRE_CMD starts a channel retirement. (R332) -/
  | channelRetire (m : Nat) (v : Word)
  /-- The rehomed storage has been poisoned and the new map takes effect. (R333) -/
  | channelRetireDone
  /-- A write of EN = 1 to GLB_MIRm_CFG enables a mirror window when valid. (R335) -/
  | mirrorEnable (m : Nat) (n : Nat) (v : Word)
  /-- A write of SYNC = 1 resynchronises a mirror window pair by pair. (R337) -/
  | mirrorSync (m : Nat) (n : Nat)
  /-- A resynchronisation pass ends and channels leave the degraded mask. (R337) -/
  | mirrorSyncDone (n : Nat)
  /-- A controller's scrub interval expires and it reads and corrects its next granule. (R338) -/
  | patrolScrubStep (mc : Nat) (found : Ecc)
  /-- A request to local HBM is judged and looked up at its home slice. (R343) -/
  | cacheRequest (r : Request) (err : CacheErr)
  /-- A write of INV = 1 while disabled invalidates every line and sets INV_DONE. (R347) -/
  | scInvalidate (m : Nat)
  /-- A write of EN = 1 enables the system cache once INV_DONE is 1. (R347) -/
  | scEnable (m : Nat)
  /-- A write of EN = 0 starts cleaning and invalidating every slice. (R347) -/
  | scDisable (m : Nat)
  /-- The last write-back performs and EN and BUSY become 0. (R347) -/
  | scDisableDone
  /-- A range operation INVALIDATE discards the lines of the range. (R352) -/
  | scRangeInvalidate (m : Nat)
  /-- A range operation CLEAN writes back dirty lines of the range. (R352) -/
  | scRangeClean (m : Nat)
  /-- A range operation CLEAN_INVALIDATE writes back and invalidates lines of the range. (R352) -/
  | scRangeCleanInvalidate (m : Nat)
  /-- A range operation LOCK_FILL moves lines of the range into locked ways. (R352) -/
  | scRangeLockFill (m : Nat)
  /-- A range operation ends and BUSY returns to 0. (R352) -/
  | scRangeDone
  /-- A write of INV = 1 to TILn_L1_CTL discards both caches of a halted tile. (R349) -/
  | l1Invalidate (m : Nat) (t : Nat)
  /-- A write of EN = 1 enables the tile caches once INV_DONE is 1. (R349) -/
  | l1Enable (m : Nat) (t : Nat)
  /-- A flit with a header error or no acknowledgement within 200 ns is resent. (R357) -/
  | flitRetransmit (r : Nat) (port : Nat) (control : Bool)
  /-- A link that acknowledges nothing for 100 µs becomes DEAD. (R358) -/
  | linkDead (r : Nat) (port : Nat)
  /-- A write of FREEZE = 1 stops a router's output arbiters from granting new packets. (R360) -/
  | routerFreeze (m : Nat) (r : Nat)
  /-- A write of FREEZE = 0 ends a router freeze. (R360) -/
  | routerUnfreeze (m : Nat) (r : Nat)
  /-- A router freeze ends 2 µs after it was set and EXPIRED is set. (R360) -/
  | routerFreezeExpire (r : Nat)
  /-- A write to MSHr_ROUTEd is taken only while the router is frozen and the mode is allowed. (R355) -/
  | routeWrite (m : Nat) (r : Nat) (d : Nat) (v : Word)
  /-- A Hatch link flit is received, checked and acknowledged or NAKed. (R368) -/
  | linkFlitReceive (port : Nat) (c : Codeword)
  /-- A received NAK makes the sender replay from ACK + 1. (R369) -/
  | nak (port : Nat) (ack : BitVec 12)
  /-- 2 µs without an advancing ACK makes the sender replay. (R369) -/
  | replayTimeout (port : Nat)
  /-- A port that loses alignment, replays too often or receives nothing for 100 µs retrains. (R371) -/
  | portRetrain (port : Nat)
  /-- A training attempt ends and the port comes UP, degrades or retires. (R371) -/
  | trainingAttemptEnd (port : Nat) (lanes : BitVec 4)
  /-- A write of RESTORE = 1 trains a port again from x4. (R371) -/
  | portRestore (m : Nat) (port : Nat)
  /-- A write of RETIRE = 1 retires a port. (R372) -/
  | portRetire (m : Nat) (port : Nat)
  /-- A port that is UP sends a HELLO every 10 ms. (R374) -/
  | helloSend (port : Nat)
  /-- A received HELLO records the neighbour and floods warden knowledge. (R374) -/
  | hello (port : Nat) (k : Packet)
  /-- A neighbour silent for 35 ms is dropped from NBR. (R374) -/
  | neighbourTimeout (port : Nat)
  /-- The group settles its warden and the warden assigns member numbers. (R375) -/
  | wardenElect (warden : Option Nat) (self : Bool)
  /-- A MGMT_READ packet reads HAT registers and is answered with MGMT_RSP. (R377) -/
  | mgmtRead (port : Nat) (k : Packet)
  /-- A MGMT_WRITE packet from an allowed source writes HAT registers. (R377) -/
  | mgmtWrite (port : Nat) (k : Packet)
  /-- A MGMT_RSP answers an outstanding management request. (R383) -/
  | mgmtRsp (port : Nat) (k : Packet)
  /-- A LINK_EVENT reports a port change to the warden or fabric manager. (R377) -/
  | linkEvent (port : Nat)
  /-- A write of SWAP = 1 exchanges the route banks between two lookups. (R380) -/
  | routeSwap (m : Nat)
  /-- A transit packet arrives and is forwarded, answered unreachable or discarded. (R379) -/
  | hatchPacketForward (port : Nat) (k : Packet)
  /-- A packet that has waited 1 ms at an output port is discarded. (R379) -/
  | packetPortTimeout (port : Nat) (k : Packet)
  /-- An arriving READ is judged at ingress and answered with READ_DATA. (R385) -/
  | hatchRead (port : Nat) (k : Packet)
  /-- An arriving WRITE is judged at ingress, performed and ACKed. (R385) -/
  | hatchWrite (port : Nat) (k : Packet)
  /-- An arriving SUBMIT is written into a landing queue. (R387) -/
  | hatchSubmit (port : Nat) (k : Packet)
  /-- An arriving NOTIFY is written into a landing queue. (R387) -/
  | hatchNotify (port : Nat) (k : Packet)
  /-- An arriving STREAM packet delivers elements to an inbound channel. (R389) -/
  | hatchStream (port : Nat) (k : Packet)
  /-- An arriving STREAM_END delivers an end marker to an inbound channel. (R389) -/
  | hatchStreamEnd (port : Nat) (k : Packet)
  /-- A READ_DATA response completes an outstanding remote load or job packet. (R384) -/
  | readData (port : Nat) (k : Packet)
  /-- An ACK response completes an outstanding write, submission or stream packet. (R384) -/
  | hatchAck (port : Nat) (k : Packet)
  /-- A STREAM_CREDIT packet returns credit to a remote outbound channel. (R389) -/
  | streamCredit (port : Nat) (k : Packet)
  /-- A local request to the remote aperture is checked and sent as a READ or WRITE. (R384) -/
  | remoteApertureRequest (r : Request)
  /-- A Hatch job READ fetches remote bytes into local HBM. (R386) -/
  | hatchJobRead (ring : Nat) (tag : BitVec 16)
  /-- A Hatch job WRITE sends local bytes to a peer's window. (R386) -/
  | hatchJobWrite (ring : Nat) (tag : BitVec 16)
  /-- A Hatch job SUBMIT sends a 64-byte submission to a peer's landing queue. (R386) -/
  | hatchJobSubmit (ring : Nat) (tag : BitVec 16)
  /-- A Hatch job NOTIFY sends a value to a peer's landing queue. (R386) -/
  | hatchJobNotify (ring : Nat) (tag : BitVec 16)
  /-- A transaction unanswered for 1 ms completes with FABRIC_TIMEOUT. (R388) -/
  | transactionTimeout (tag : Nat)
  /-- A write of RESET = 1 empties a landing queue. (R394) -/
  | landingQueueReset (m : Nat) (q : Nat)
  /-- A write of HAT_LQq_HEAD returns landing queue entries. (R387) -/
  | landingQueueHeadWrite (m : Nat) (q : Nat) (v : Word)
  /-- A write of COMMIT = 1 trains the hinge and queries the peer to form a pair. (R396) -/
  | pairCommit (m : Nat)
  /-- Every 10 ms a PAIR_QUERY is sent again until replies arrive. (R396) -/
  | pairQueryRepeat (port : Nat)
  /-- 1 s after COMMIT without a complete exchange the COMMIT completes with a failure status. (R396) -/
  | pairCommitTimeout
  /-- A received PAIR_QUERY is answered with a PAIR_REPLY. (R397) -/
  | pairQuery (port : Nat) (k : Packet)
  /-- A received PAIR_REPLY gives the peer's pair record and may complete a COMMIT or pair formation. (R397) -/
  | pairReply (port : Nat) (k : Packet)
  /-- A POWER_FAIL notice makes the receiver declare the peer lost. (R406) -/
  | pairNoticePowerFail (port : Nat)
  /-- A FREEZE notice gives the BACK its freeze epoch and is answered. (R421) -/
  | pairNoticeFreeze (port : Nat) (epoch : BitVec 64) (tag : Nat)
  /-- A write of UNPAIR = 1 erases the pair configuration. (R410) -/
  | pairUnpair (m : Nat)
  /-- After a print, a configured module exchanges records and enters Diptych when every condition holds. (R399) -/
  | pairForm
  /-- 10 s after its print without forming, the module enters Solo. (R399) -/
  | pairFormTimeout
  /-- 10 ms without an intact hinge flit declares the peer lost and the survivor leaves Diptych. (R406) -/
  | halfLost
  /-- A BACK survivor trains its host link and presents the PF. (R406) -/
  | backHostLinkPresent
  /-- A write of GO = 1 to PLT_REGION_CMD loads a region set. (R412) -/
  | regionLoad (m : Nat) (v : Word)
  /-- Plate copies a dirty chunk to a free location. (R419) -/
  | backgroundCopy (chunk : Nat) (loc : Nat) (comp : Option (List Byte))
  /-- On the supply-failure signal Plate starts the power-fail etch. (R420) -/
  | powerFailEtch (worn : List (Bool × List Byte))
  /-- A write of PLT_ETCH_GO ends step 3 of a power-fail etch or starts a commanded etch. (R424) -/
  | etchGo (m : Nat) (worn : List (Bool × List Byte))
  /-- PLT_ETCH_GO not written within 10 ms abandons the etch. (R422) -/
  | etchGoTimeout
  /-- A dirty chunk remaining at T − 10 ms abandons the etch. (R422) -/
  | etchDeadline
  /-- The bank falling to its 40 J reserve abandons the etch. (R422) -/
  | bankReserveReached
  /-- The manifest, flush and headers are written and the etch ends. (R420) -/
  | etchComplete
  /-- At boot Plate prints the newest image back into HBM. (R425) -/
  | print (bad : List Nat) (worn : List (Bool × List Byte))
  /-- A Plate REPRINT job restores poisoned granules from their copies. (R429) -/
  | reprint (ring : Nat) (tag : BitVec 16) (bad : List Nat)
  /-- A Plate VERIFY job checks the copies of the chunks a range touches. (R429) -/
  | verify (ring : Nat) (tag : BitVec 16) (bad : List Nat)
  /-- An NVMe command completes or fails and is retried once. (R431) -/
  | nvmeCommandComplete (d : Nat) (ok : Bool)
  /-- An NVMe command not completed within 1 s is retried or fails the device. (R431) -/
  | nvmeCommandTimeout (d : Nat)
  /-- Every 60 s Plate reads each device's SMART log. (R431) -/
  | smartPoll (d : Nat) (warn : BitVec 8) (used : BitVec 8) (spare : BitVec 8) (units : BitVec 128) (errors : BitVec 128)
  /-- 60 s after power good and every 24 h the bank is health-tested. (R433) -/
  | bankTestTimer
  /-- A bank test ends and its result updates the record and the limit. (R433) -/
  | bankTestDone (usable : Nat) (esr : Nat)
  /-- A write of OFF = 1 fences, drains, saves and powers down a domain. (R441) -/
  | domainPowerDown (m : Nat) (d : Nat) (drained : Bool)
  /-- A drain not finished 10 µs after fencing refuses the power-down or forces it during an etch. (R441) -/
  | drainTimeout (d : Nat) (holder : BitVec 8)
  /-- A write of ON = 1, or an auto-wake, powers a domain up. (R443) -/
  | domainPowerUp (m : Nat) (d : Nat) (wake : Bool)
  /-- A domain's save list is restored and its fence is lifted. (R443) -/
  | domainPowerUpDone (d : Nat)
  /-- A request to an OFF domain completes with DOMAIN_POWERED_DOWN or is held for auto-wake. (R442) -/
  | domainRequestHeld (r : Request)
  /-- A tile idle for 10 µs has its clock gated. (R446) -/
  | tileClockGate (t : Nat)
  /-- A quadrant whose tiles have been gated for 1 ms stops its PLL. (R447) -/
  | quadrantPllStop (k : Nat)
  /-- A stopped quadrant PLL relocks and the waiting packet is delivered. (R447) -/
  | quadrantPllRelock (k : Nat)
  /-- A write of ENTER = 1 checks the conditions and takes the module into Vigil. (R449) -/
  | vigilEnter (m : Nat)
  /-- An enabled wake source takes the module out of Vigil. (R450) -/
  | vigilExit
  /-- A wake source sets its cause bit and ends Vigil or starts the boot. (R451) -/
  | wakeSource (b : Nat)
  /-- A Hatch wake pattern burst is received and its reason accepted. (R452) -/
  | wakePattern (port : Nat) (words : List Word)
  /-- An ASLEEP port sends a KEEPALIVE burst every 10 ms. (R453) -/
  | keepaliveSend (port : Nat)
  /-- A write of STY_WAKE_SEND sends a reason on the named ports. (R453) -/
  | wakeSend (m : Nat) (v : Word)
  /-- The timebase reaches STY_ALARM and wake source 6 fires. (R451) -/
  | alarm
  /-- Steady raises the supply-failure signal on low input, open presence or critical temperature. (R454) -/
  | supplyFailure
  /-- Every 100 µs Steady reads the die and other sensors. (R455) -/
  | thermalSample (temps : List (BitVec 8)) (power : BitVec 16) (input : BitVec 16)
  /-- A quadrant's imposed point steps down each 1 ms while hot, or up each 10 ms once cool. (R455) -/
  | throttleStep (k : Nat)
  /-- A quadrant PLL moves to a new frequency point between instructions. (R448) -/
  | frequencyPointChange (k : Nat)
  /-- GLB_RESET with KIND 1 runs the etch and then a die reset. (R460) -/
  | orderlyReset (m : Nat)
  /-- GLB_RESET with KIND 2 performs a die reset at once. (R460) -/
  | immediateReset (m : Nat)
  /-- Loss of all three supplies resets Steady as well. (R437) -/
  | coldReset
  /-- After a die reset the ROM chooses, copies, checks and starts a firmware image. (R467) -/
  | boot
  /-- The watchdog period passes without a kick and the die resets. (R466) -/
  | watchdogExpire
  /-- A write of GLB_WDOG_KICK restarts the watchdog period. (R466) -/
  | watchdogKick (m : Nat) (v : Word)
  /-- A write of GLB_BOOT_OK makes a pending slot active and may raise MIN_SVN. (R465) -/
  | bootOk (m : Nat) (v : Word)
  /-- A write of GLB_MODE_CTL enters the mode that the boot allows. (R468) -/
  | modeEnter (m : Nat) (v : Word)
  /-- A write of GLB_BOOT_CTL with GO = 1 in ROM recovery checks and starts a recovery image. (R471) -/
  | recoveryGo (m : Nat) (v : Word)
  /-- PERST# resets the host link domain and deletes every pair as DL_Down. (R461) -/
  | perst (asserted : Bool)
  /-- A Function Level Reset deletes every pair of the functions it concerns. (R246) -/
  | flr (fn : Nat)
  /-- A hot reset deletes every pair and clears MSI-X tables and admin registers. (R246) -/
  | hotReset
  /-- Loss of the link deletes every pair of every function. (R246) -/
  | linkDown
  /-- A write to SQ_KICK marks a queue pair pending after the ownership check. (R235) -/
  | sqKick (m : Nat) (q : Nat)
  /-- A write to CQ_HEAD returns completion queue space. (R228) -/
  | cqHead (m : Nat) (q : Nat) (v : Word)
  /-- The arbiter grants a pending pair and the QE fetches and checks the entry at its head. (R235) -/
  | sqFetch (q : Nat) (entry : HostRead) (block : HostRead) (again : Bool) (tag : Nat)
  /-- The collector posts a filled completion slot to its CQ and releases tag and Clamps. (R276) -/
  | completionPost (tag : Nat)
  /-- COAL_TIME passes since the first unsignalled entry and the pair's MSI-X message is sent. (R249) -/
  | coalesceTimeout (q : Nat)
  /-- A write of QE_FN_AQ_CTL.EN = 1 creates the function's admin pair. (R229) -/
  | adminPairCreate (fn : Nat)
  /-- A write of QE_FN_AQ_CTL.EN = 0 deletes the function's admin pair. (R246) -/
  | adminPairDelete (fn : Nat)
  /-- A command's last waiting range is granted and the command passes to Headstock. (R258) -/
  | clampGrant (tag : Nat)
  /-- The Clamp limit expires with ranges ungranted and the command completes with CLAMP_TIMEOUT. (R259) -/
  | clampTimeout (tag : Nat)
  /-- IDENTIFY writes the device, queue, table space or fabric data structure. (R261) -/
  | identify (tag : Nat)
  /-- GET_LOG returns bytes of a named log. (R262) -/
  | getLog (tag : Nat)
  /-- SET_FEATURE sets a feature value. (R263) -/
  | setFeature (tag : Nat)
  /-- GET_FEATURE returns a feature value. (R263) -/
  | getFeature (tag : Nat)
  /-- CREATE_QP creates an I/O queue pair and returns its number. (R261) -/
  | createQp (tag : Nat)
  /-- DELETE_QP deletes an I/O queue pair. (R246) -/
  | deleteQp (tag : Nat)
  /-- FW_DOWNLOAD copies image bytes into the staging buffer. (R264) -/
  | fwDownload (tag : Nat) (data : HostRead)
  /-- FW_COMMIT writes and activates a firmware slot. (R264) -/
  | fwCommit (tag : Nat) (store : BitVec 16)
  /-- FW_COMMIT ACTION 3 activates new firmware while the device stays in service. (R487) -/
  | liveFirmwareUpdate (tag : Nat) (taken : Bool) (store : BitVec 16)
  /-- ABORT stops its target if the target has not passed its commit point. (R275) -/
  | abort (tag : Nat)
  /-- TILE_SERVICE takes a tile offline or returns it to service. (R265) -/
  | tileService (tag : Nat)
  /-- PLATE_CONTROL ETCH etches plate-resident tables into the older slot. (R424) -/
  | plateEtch (tag : Nat) (worn : List (Bool × List Byte))
  /-- PLATE_CONTROL BANK_TEST runs the hold-up bank test now. (R433) -/
  | plateBankTest (tag : Nat)
  /-- PLATE_CONTROL INVALIDATE marks an image slot invalid. (R266) -/
  | plateInvalidate (tag : Nat)
  /-- PLATE_CONTROL SANITIZE erases all four plate devices in Bring-up. (R266) -/
  | plateSanitize (tag : Nat)
  /-- LOAD appends rows to a table at a write epoch. (R269) -/
  | load (tag : Nat) (dir : HostRead) (cols : List HostRead) (room : Option Room)
  /-- A LOAD or PATCH that has staged reaches its commit point and links its changes at W. (R54) -/
  | loadPublishPhase (tag : Nat)
  /-- PATCH inserts and deletes rows, or drops a table, at a write epoch. (R270) -/
  | patch (tag : Nat) (dir : HostRead) (cols : List HostRead) (room : Option Room)
  /-- EXPORT writes visible rows of a table to the host. (R271) -/
  | exportRows (tag : Nat)
  /-- PUBLISH_EPOCH waits for earlier writers and writes P. (R56) -/
  | publishEpoch (tag : Nat)
  /-- Once earlier writers have completed and the bank is ready, P is written and G raised. (R56) -/
  | publishCommit (tag : Nat)
  /-- PUBLISH_EPOCH with WITHDRAW reverses every change linked at an unpublished epoch. (R57) -/
  | epochWithdraw (tag : Nat)
  /-- PLATE_MARK sets, clears or inherits plate residency. (R274) -/
  | plateMark (tag : Nat)
  /-- A write of GLB_TILE_RETIRED retires a halted tile held by no RUN. (R486) -/
  | tileRetire (m : Nat) (hi : Bool) (v : Word) (back : Bool)
  /-- Both presence contacts close and the hot-swap switch ramps the internal bus. (R497) -/
  | insertion
  /-- The bus holds 39.0 V for 10 ms and 48 V power good is declared. (R497) -/
  | powerGood
  /-- A presence contact opens and the module raises supply failure and opens its switch. (R498) -/
  | removal
  /-- Overvoltage or overcurrent opens the hot-swap switch. (R496) -/
  | overcurrentCutoff
  /-- A change of CBL_PRSNT# holds a port DOWN or lets it train. (R495) -/
  | cablePresence (port : Nat) (present : Bool)
  /-- SHED# going low caps the power limit at 300 W. (R496) -/
  | shed (low : Bool)
  /-- An MCTP control message is answered by the management endpoint. (R504) -/
  | mctpControl (req : List Byte)
  /-- The vendor STATUS command returns mode, health word and supply. (R505) -/
  | mctpStatus (req : List Byte)
  /-- SENSOR_READ returns one sensor's value. (R506) -/
  | sensorRead (req : List Byte)
  /-- FRU_READ returns bytes of the FRU store. (R507) -/
  | fruRead (req : List Byte)
  /-- LOG_READ returns bytes of a log. (R505) -/
  | logRead (req : List Byte)
  /-- REG_READ reads a register as master 0x301. (R505) -/
  | regRead (req : List Byte)
  /-- REG_WRITE writes a register as master 0x301. (R505) -/
  | regWrite (req : List Byte)
  /-- The vendor RESET command with the key requests an orderly reset. (R505) -/
  | mctpReset (req : List Byte)
  /-- An I3C common command code addressed to the target is served. (R503) -/
  | i3cCcc (ccc : BitVec 8) (data : List Byte)
  /-- A JTAG instruction is loaded and acts as boundary scan only in Bring-up. (R508) -/
  | jtagInstruction (insn : JtagInsn)
  /-- A DEAD mesh link acknowledges again and the traffic held for it is released. (R358) -/
  | deadLinkAcknowledge (r : Nat) (port : Nat)
  /-- A non-posted read to host memory gets no completion in time and ends its command, fetch or DMA job with ACCESS_DENIED. (R247) -/
  | hostCompletionTimeout (what : HostWait)
  /-- Every 100 µs the FRONT sends the FREEZE notice again on both hinge ports until a MGMT_RSP arrives or the hinge is lost. (R397) -/
  | freezeNoticeRepeat
  /-- The hold-up bank's stored energy crosses the READY threshold, or the charger finishes, and PLT_BANK_STATUS READY and CHARGING change. (R432) -/
  | bankReady (joules : Nat) (charging : Bool)
  /-- The 3.3 V auxiliary input appears or is lost, moving Steady's supply and AUX_OK, and may bring Steady out of reset with no good 48 V. (R437) -/
  | auxiliaryInputChange (present : Bool)
  /-- HREFCLK is lost or returns, holding every Hatch port DOWN or letting the ports train, and HREF_OK changes. (R500) -/
  | hrefclkChange (present : Bool)
  /-- The invalidation of every system cache line ends and INV_DONE is set. (R347) -/
  | scInvalidateDone
  /-- The discard of a tile's L1 caches ends within 600 ns and INV_DONE is set. (R349) -/
  | l1InvalidateDone (t : Nat)
  /-- Vigil entry finishes its sequence, DEV_MODE becomes Vigil, STATUS becomes OK and BUSY returns to 0. (R449) -/
  | vigilEntryDone (refused : Bool)
  /-- Once the target bank is loaded, MOVE_BANK switches the table to it between two searches, frees the source bank and releases the waiting WRITEs. (R188) -/
  | moveBankSwitch (slot : Nat)
  deriving DecidableEq, Repr

end Sys2Proof
end

