-- ==== Sys2Proof/Decode.lean ====
section
/-! DEFINITION. The words that spell commands.  The spec gives no row of its command table any bits:
the commands come over buses, packets, pins and the host's queues, so no word spells one. -/
namespace Sys2Proof

/-- The command a word spells by the table's bits: none, since no row has bits. -/
def decodeTableWord (_nbits _w : Nat) : Option Instr := none

end Sys2Proof
end

