-- ==== Sys2Proof/Config.lean ====
section
/-! DEFINITION. What the spec leaves free, and what an implementation fixes without publishing it: constants without a body,
so that no proof can rest on a value of theirs. -/

namespace Sys2Proof.Config

/-- A fresh value of `w` bits for each index: every result the spec leaves open is one (notes/assumptions). -/
opaque free (w : Nat) : Nat → BitVec w

/-- The bytes of the boot ROM (R24), which the spec does not publish. -/
opaque bootRom : Nat → Byte

/-- The location of a burst in its controller: SID, pseudo-channel, bank and row in the layout of MCn_CAP_LOC (R318: the
mapping is not published). -/
opaque burstLocation : Nat → BitVec 23

/-- The DPA of the granule at a storage location of a controller (R338; the inverse mapping, not published). -/
opaque scrubGranule : Nat → Nat → Nat

/-- The bursts, by storage address / 64, of a row of a controller named in the layout of MCn_PPR (R331; not published). -/
opaque rowBursts : Nat → BitVec 23 → List Nat

/-- A byte whose contents the spec leaves undefined, by the number of the event that left it so and its address (R29). -/
opaque haze : Nat → Nat → Byte

/-- The syndrome a failed burst leaves (R318: nonzero, without published meaning), less one. -/
opaque syndrome : Nat → BitVec 15

/-- Whether tininess is detected before rounding; IEEE 754 leaves it to the implementation (R116). -/
opaque tinyBefore : Bool

/-- Whether a fused multiply-add of zero by infinity with a quiet NaN addend raises invalid; IEEE 754 leaves it to the
implementation (R116). -/
opaque fmaInvalidNan : Bool

/-- The golden image of boot slot 0 (R462), written at manufacture. -/
opaque goldenImage : List Byte

/-- The SHA-384 digest that fuse key `k` holds (R464), and which keys are programmed and revoked as the fuses leave
manufacture. -/
opaque fuseKey : Nat → List Byte
opaque fusesProgrammed : BitVec 4
opaque fusesRevoked : BitVec 4

/-- MIN_SVN as the fuses leave manufacture (R464). -/
opaque fuseSvn : BitVec 6

/-- The module's serial number, and the 16 ASCII bytes IDENTIFY gives for it (R261). -/
opaque serial : BitVec 64
opaque serialText : Nat → Byte

/-- The 64 bytes that the runtimes of a spanning RUN's nodes submit to each other, whose form is the runtime's own (R171, R387): KIND 0 a
part, 1 its end, 2 its answer, with the image's DIGEST and two numbers; and the landing queue they go to. -/
opaque partByte (kind : Nat) (digest : List Byte) (a b : Nat) : Nat → Byte
opaque partQueue : BitVec 6

/-- The straps: ADDR3 to ADDR0, and CLKMODE left open (R491, R500). -/
opaque addrStraps : BitVec 4
opaque clkModeOpen : Bool

/-- The FRU store (R507), and what GETPID, GETBCR, GETDCR and GETSTATUS return beyond the serial number (R503). -/
opaque fru : Nat → Byte
opaque i3cPid : BitVec 16
opaque i3cBcr : Byte
opaque i3cDcr : Byte

/-- The endpoint's UUID, and the version word with which it answers Get MCTP Version Support (R504). -/
opaque mctpUuid : Nat → Byte
opaque mctpVersion : BitVec 32

/-- The IDCODE of the TAP (R508). -/
opaque jtagIdcode : BitVec 32

end Sys2Proof.Config
end

