-- ==== Sys2Proof/Machine/Bits.lean ====
section
/-! DEFINITION. Bit fields, sign extension and byte order (R3, R4), and the shape of a register-table row (R5). -/

namespace Sys2Proof.Machine

/-- `bits n hi lo`: bits `hi` to `lo` of `n`, both included (R3). -/
def bits (n hi lo : Nat) : Nat := (n >>> lo) % 2 ^ (hi + 1 - lo)

/-- `n` with bits `hi` to `lo` replaced by the low bits of `v`. -/
def setBits (n hi lo v : Nat) : Nat :=
  n - (bits n hi lo <<< lo) + ((v % 2 ^ (hi + 1 - lo)) <<< lo)

/-- Bit `i` of `n` as 0 or 1. -/
def bit01 (b : Bool) : Nat := if b then 1 else 0

/-- The low `w` bits of `n`, sign-extended to an integer. -/
def sext (w n : Nat) : Int := (BitVec.ofNat w n).toInt

/-- Little-endian value of a byte list (R4). -/
def leNat : List Byte → Nat
  | [] => 0
  | b :: bs => b.toNat + 256 * leNat bs

/-- The low `k` bytes of `n`, least significant first (R4). -/
def natLE : Nat → Nat → List Byte
  | 0, _ => []
  | k + 1, n => BitVec.ofNat 8 n :: natLE k (n / 256)

/-- `k` bytes of `bs` from offset `o`, short at the end of the list. -/
def subBytes (bs : List Byte) (o k : Nat) : List Byte := (bs.drop o).take k

/-- Bytes that are all zero. -/
def zeroAt (bs : List Byte) (o k : Nat) : Bool := (subBytes bs o k).all (· = 0)

/-- The little-endian field of `k` bytes at offset `o`. -/
def fieldLE (bs : List Byte) (o k : Nat) : Nat := leNat (subBytes bs o k)

/-- A CP32 slot is intact when value and complement XOR to all ones (R39). -/
def cp32Ok (n : Nat) : Bool := bits n 31 0 ^^^ bits n 63 32 == 0xFFFFFFFF

/-- A CP64 slot is intact when value and complement XOR to all ones (R39). -/
def cp64Ok (n : Nat) : Bool := bits n 63 0 ^^^ bits n 127 64 == 0xFFFFFFFFFFFFFFFF

/-- The CP32 slot of a value (R39). -/
def cp32 (v : Nat) : Nat := v % 2 ^ 32 + (0xFFFFFFFF - v % 2 ^ 32) * 2 ^ 32

/-- The CP64 slot of a value (R39). -/
def cp64 (v : Nat) : Nat := v % 2 ^ 64 + (0xFFFFFFFFFFFFFFFF - v % 2 ^ 64) * 2 ^ 64

/-- Saturating sum below `2 ^ w`. -/
def satAdd (w a b : Nat) : Nat := if a + b < 2 ^ w then a + b else 2 ^ w - 1

/-- All `n` numbers from `a`. -/
def rangeFrom (a n : Nat) : List Nat := (List.range n).map (a + ·)

/-- The access codes of R5; a reserved bit has no field. -/
inductive Access where
  | rw | ro | wo | w1c | w1s
  deriving DecidableEq, Repr

/-- One field of a register: its bits, access code and reset value (R5, R9). -/
structure RegField where
  hi : Nat
  lo : Nat
  acc : Access
  rst : Nat
  deriving DecidableEq, Repr

/-- One row of a register table: the BAR0 offset of its first instance, the instance counts and strides (widest first),
the fields, and whether a write needs the A right beside W (R34). -/
structure RegRow where
  base : Nat
  dims : List (Nat × Nat)
  fields : List RegField
  admin : Bool
  deriving DecidableEq, Repr

/-- Whether offset `d` from the base is that of an instance. -/
def inDims : List (Nat × Nat) → Nat → Bool
  | [], d => d == 0
  | (n, st) :: ds, d =>
    d / st < n && inDims ds (d % st)

/-- The row names the register at BAR0 offset `off`. -/
def RegRow.covers (r : RegRow) (off : Nat) : Bool := r.base ≤ off && inDims r.dims (off - r.base)

/-- The reset word of a row (R9): its fields' reset values in place, other bits 0; a write-only field reads 0 (R5). -/
def RegRow.resetWord (r : RegRow) : Nat :=
  r.fields.foldl (fun w f => if f.acc = .wo then w else setBits w f.hi f.lo f.rst) 0

/-- What one field becomes when `v` is written over the word `old` (R5). -/
def RegField.write (f : RegField) (old v w : Nat) : Nat :=
  let o := bits old f.hi f.lo
  let n := bits v f.hi f.lo
  match f.acc with
  | .rw => setBits w f.hi f.lo n
  | .ro | .wo => setBits w f.hi f.lo o
  | .w1c => setBits w f.hi f.lo (o ^^^ (o &&& n))
  | .w1s => setBits w f.hi f.lo (o ||| n)

/-- The word left by a software write of `v` over `old`: every field by its access code, reserved bits 0 (R5). -/
def RegRow.write (r : RegRow) (old v : Nat) : Nat := r.fields.foldl (fun w f => f.write old v w) 0

end Sys2Proof.Machine
end

