-- ==== Sys2Proof/Machine/RegTable.lean ====
section
/-! DEFINITION. The register map: the BAR0 offset of every register (R225, R512) and, for each, the fields, access codes
(R5), reset values (R9) and the rights its writes need (R34), as the register tables of the chapters of spec/ give them.
Offsets of a replicated register take its instance numbers in the order of its name. -/

namespace Sys2Proof.Machine

namespace Reg

/-- GRD_ELOG_WR, R44. -/
def GRD_ELOG_WR : Nat := 0x2000
/-- GRD_ELOG_RD, R44. -/
def GRD_ELOG_RD : Nat := 0x2004
/-- GRD_ELOG_LOST, R44. -/
def GRD_ELOG_LOST : Nat := 0x2008
/-- GRD_INT_STATUS, R44. -/
def GRD_INT_STATUS : Nat := 0x200C
/-- GRD_INT_ENABLE, R44. -/
def GRD_INT_ENABLE : Nat := 0x2010
/-- GRD_INT_ROUTE, R489. -/
def GRD_INT_ROUTE : Nat := 0x2014
/-- GRD_UNIT_INT, R489. -/
def GRD_UNIT_INT : Nat := 0x2018
/-- GRD_GRANTtg_CONTROL_LO, R34. -/
def GRD_GRANT_CONTROL_LO (t g : Nat) : Nat := 0x5000 + 0xC00 * t + 0x18 * g
/-- GRD_GRANTtg_CONTROL_HI, R34. -/
def GRD_GRANT_CONTROL_HI (t g : Nat) : Nat := 0x5004 + 0xC00 * t + 0x18 * g
/-- GRD_GRANTtg_BASE_LO, R34. -/
def GRD_GRANT_BASE_LO (t g : Nat) : Nat := 0x5008 + 0xC00 * t + 0x18 * g
/-- GRD_GRANTtg_BASE_HI, R34. -/
def GRD_GRANT_BASE_HI (t g : Nat) : Nat := 0x500C + 0xC00 * t + 0x18 * g
/-- GRD_GRANTtg_LIMIT_LO, R34. -/
def GRD_GRANT_LIMIT_LO (t g : Nat) : Nat := 0x5010 + 0xC00 * t + 0x18 * g
/-- GRD_GRANTtg_LIMIT_HI, R34. -/
def GRD_GRANT_LIMIT_HI (t g : Nat) : Nat := 0x5014 + 0xC00 * t + 0x18 * g
/-- GRD_ELOGi_W0, R43. -/
def GRD_ELOG_W0 (i : Nat) : Nat := 0x3000 + 0x20 * i
/-- GRD_ELOGi_W1, R43. -/
def GRD_ELOG_W1 (i : Nat) : Nat := 0x3004 + 0x20 * i
/-- GRD_ELOGi_W2, R43. -/
def GRD_ELOG_W2 (i : Nat) : Nat := 0x3008 + 0x20 * i
/-- GRD_ELOGi_W3, R43. -/
def GRD_ELOG_W3 (i : Nat) : Nat := 0x300C + 0x20 * i
/-- GRD_ELOGi_W4, R43. -/
def GRD_ELOG_W4 (i : Nat) : Nat := 0x3010 + 0x20 * i
/-- GRD_ELOGi_W5, R43. -/
def GRD_ELOG_W5 (i : Nat) : Nat := 0x3014 + 0x20 * i
/-- GRD_ELOGi_W6, R43. -/
def GRD_ELOG_W6 (i : Nat) : Nat := 0x3018 + 0x20 * i
/-- GRD_ELOGi_W7, R43. -/
def GRD_ELOG_W7 (i : Nat) : Nat := 0x301C + 0x20 * i
/-- TILn_CTL, R100. -/
def TIL_CTL (n : Nat) : Nat := 0x800000 + 0x10000 * n
/-- TILn_STATUS, R100. -/
def TIL_STATUS (n : Nat) : Nat := 0x800004 + 0x10000 * n
/-- TILn_EXC_PC_LO, R100. -/
def TIL_EXC_PC_LO (n : Nat) : Nat := 0x800008 + 0x10000 * n
/-- TILn_EXC_PC_HI, R100. -/
def TIL_EXC_PC_HI (n : Nat) : Nat := 0x80000C + 0x10000 * n
/-- TILn_EXC_ADDR_LO, R100. -/
def TIL_EXC_ADDR_LO (n : Nat) : Nat := 0x800010 + 0x10000 * n
/-- TILn_EXC_ADDR_HI, R100. -/
def TIL_EXC_ADDR_HI (n : Nat) : Nat := 0x800014 + 0x10000 * n
/-- TILn_EXC_DETAIL, R100. -/
def TIL_EXC_DETAIL (n : Nat) : Nat := 0x800018 + 0x10000 * n
/-- TILn_PC_LO, R100. -/
def TIL_PC_LO (n : Nat) : Nat := 0x800020 + 0x10000 * n
/-- TILn_PC_HI, R100. -/
def TIL_PC_HI (n : Nat) : Nat := 0x800024 + 0x10000 * n
/-- TILn_Xx_LO, R100. -/
def TIL_X_LO (n x : Nat) : Nat := 0x800100 + 0x10000 * n + 8 * x
/-- TILn_Xx_HI, R100. -/
def TIL_X_HI (n x : Nat) : Nat := 0x800104 + 0x10000 * n + 8 * x
/-- TILn_SFLAGS, R100. -/
def TIL_SFLAGS (n : Nat) : Nat := 0x800200 + 0x10000 * n
/-- TILn_WINw_PBASE_LO, R100. -/
def TIL_WIN_PBASE_LO (n w : Nat) : Nat := 0x801000 + 0x10000 * n + 0x20 * w
/-- TILn_WINw_PBASE_HI, R100. -/
def TIL_WIN_PBASE_HI (n w : Nat) : Nat := 0x801004 + 0x10000 * n + 0x20 * w
/-- TILn_WINw_PLIM_LO, R100. -/
def TIL_WIN_PLIM_LO (n w : Nat) : Nat := 0x801008 + 0x10000 * n + 0x20 * w
/-- TILn_WINw_PLIM_HI, R100. -/
def TIL_WIN_PLIM_HI (n w : Nat) : Nat := 0x80100C + 0x10000 * n + 0x20 * w
/-- TILn_WINw_DBASE_LO, R100. -/
def TIL_WIN_DBASE_LO (n w : Nat) : Nat := 0x801010 + 0x10000 * n + 0x20 * w
/-- TILn_WINw_DBASE_HI, R100. -/
def TIL_WIN_DBASE_HI (n w : Nat) : Nat := 0x801014 + 0x10000 * n + 0x20 * w
/-- TILn_WINw_CTRL, R100. -/
def TIL_WIN_CTRL (n w : Nat) : Nat := 0x801018 + 0x10000 * n + 0x20 * w
/-- TILn_VCFG_LO, R127. -/
def TIL_VCFG_LO (n : Nat) : Nat := 0x800300 + 0x10000 * n
/-- TILn_VCFG_HI, R127. -/
def TIL_VCFG_HI (n : Nat) : Nat := 0x800304 + 0x10000 * n
/-- TILn_Pp_Ww, R127. -/
def TIL_P_W (n p w : Nat) : Nat := 0x800400 + 0x10000 * n + 0x40 * p + 4 * w
/-- TILn_Vv_Ww, R127. -/
def TIL_V_W (n v w : Nat) : Nat := 0x804000 + 0x10000 * n + 0x200 * v + 4 * w
/-- TILn_OCHc_CFG, R165. -/
def TIL_OCH_CFG (n c : Nat) : Nat := 0x808000 + 0x10000 * n + 0x10 * c
/-- TILn_OCHc_DEST, R165. -/
def TIL_OCH_DEST (n c : Nat) : Nat := 0x808004 + 0x10000 * n + 0x10 * c
/-- TILn_OCHc_CREDIT, R165. -/
def TIL_OCH_CREDIT (n c : Nat) : Nat := 0x808008 + 0x10000 * n + 0x10 * c
/-- TILn_OCHc_CTL, R165. -/
def TIL_OCH_CTL (n c : Nat) : Nat := 0x80800C + 0x10000 * n + 0x10 * c
/-- TILn_ICHc_CFG, R165. -/
def TIL_ICH_CFG (n c : Nat) : Nat := 0x808400 + 0x10000 * n + 0x20 * c
/-- TILn_ICHc_SRC, R165. -/
def TIL_ICH_SRC (n c : Nat) : Nat := 0x808404 + 0x10000 * n + 0x20 * c
/-- TILn_ICHc_BUF, R165. -/
def TIL_ICH_BUF (n c : Nat) : Nat := 0x808408 + 0x10000 * n + 0x20 * c
/-- TILn_ICHc_COUNT, R165. -/
def TIL_ICH_COUNT (n c : Nat) : Nat := 0x80840C + 0x10000 * n + 0x20 * c
/-- TILn_ICHc_CTL, R165. -/
def TIL_ICH_CTL (n c : Nat) : Nat := 0x808410 + 0x10000 * n + 0x20 * c
/-- TILn_L1_CTL, R365. -/
def TIL_L1_CTL (n : Nat) : Nat := 0x800030 + 0x10000 * n
/-- GAU_CTL, R192. -/
def GAU_CTL : Nat := 0x330000
/-- GAU_STATUS, R192. -/
def GAU_STATUS : Nat := 0x330004
/-- GAU_SHADOW_BASE_LO, R192. -/
def GAU_SHADOW_BASE_LO : Nat := 0x330008
/-- GAU_SHADOW_BASE_HI, R192. -/
def GAU_SHADOW_BASE_HI : Nat := 0x33000C
/-- GAU_SCRUB_INTERVAL, R192. -/
def GAU_SCRUB_INTERVAL : Nat := 0x330010
/-- GAU_SCRUB_REPAIRS, R192. -/
def GAU_SCRUB_REPAIRS : Nat := 0x330014
/-- GAU_SCRUB_PASSES, R192. -/
def GAU_SCRUB_PASSES : Nat := 0x330018
/-- GAU_BANK_FREE, R192. -/
def GAU_BANK_FREE : Nat := 0x330020
/-- GAU_BANK_FAILING, R192. -/
def GAU_BANK_FAILING : Nat := 0x330024
/-- GAU_BANK_RETIRED, R192. -/
def GAU_BANK_RETIRED : Nat := 0x330028
/-- GAU_INT_STATUS, R192. -/
def GAU_INT_STATUS : Nat := 0x330030
/-- GAU_INT_ENABLE, R192. -/
def GAU_INT_ENABLE : Nat := 0x330034
/-- GAU_TBLt_CFG, R192. -/
def GAU_TBL_CFG (t : Nat) : Nat := 0x330100 + 0x10 * t
/-- GAU_TBLt_BANKS, R192. -/
def GAU_TBL_BANKS (t : Nat) : Nat := 0x330104 + 0x10 * t
/-- GAU_TBLt_ACL, R192. -/
def GAU_TBL_ACL (t : Nat) : Nat := 0x330108 + 0x10 * t
/-- GAU_TBLt_SEARCHES, R192. -/
def GAU_TBL_SEARCHES (t : Nat) : Nat := 0x33010C + 0x10 * t
/-- GAU_SLOTs_CMD, R193. -/
def GAU_SLOT_CMD (s : Nat) : Nat := 0x340000 + 0x100 * s
/-- GAU_SLOTs_STATUS, R193. -/
def GAU_SLOT_STATUS (s : Nat) : Nat := 0x340004 + 0x100 * s
/-- GAU_SLOTs_ENTRY, R193. -/
def GAU_SLOT_ENTRY (s : Nat) : Nat := 0x340008 + 0x100 * s
/-- GAU_SLOTs_BANKS, R193. -/
def GAU_SLOT_BANKS (s : Nat) : Nat := 0x34000C + 0x100 * s
/-- GAU_SLOTs_ACL, R193. -/
def GAU_SLOT_ACL (s : Nat) : Nat := 0x340010 + 0x100 * s
/-- GAU_SLOTs_META, R193. -/
def GAU_SLOT_META (s : Nat) : Nat := 0x340014 + 0x100 * s
/-- GAU_SLOTs_DATA, R193. -/
def GAU_SLOT_DATA (s : Nat) : Nat := 0x340018 + 0x100 * s
/-- GAU_SLOTs_MOVE, R193. -/
def GAU_SLOT_MOVE (s : Nat) : Nat := 0x34001C + 0x100 * s
/-- GAU_SLOTs_RESULT_LO, R193. -/
def GAU_SLOT_RESULT_LO (s : Nat) : Nat := 0x340020 + 0x100 * s
/-- GAU_SLOTs_RESULT_HI, R193. -/
def GAU_SLOT_RESULT_HI (s : Nat) : Nat := 0x340024 + 0x100 * s
/-- GAU_SLOTs_RPOS, R193. -/
def GAU_SLOT_RPOS (s : Nat) : Nat := 0x340028 + 0x100 * s
/-- GAU_SLOTs_Uu_VALUE_LO, R193. -/
def GAU_SLOT_U_VALUE_LO (s u : Nat) : Nat := 0x340040 + 0x100 * s + 0x10 * u
/-- GAU_SLOTs_Uu_VALUE_HI, R193. -/
def GAU_SLOT_U_VALUE_HI (s u : Nat) : Nat := 0x340044 + 0x100 * s + 0x10 * u
/-- GAU_SLOTs_Uu_CARE_LO, R193. -/
def GAU_SLOT_U_CARE_LO (s u : Nat) : Nat := 0x340048 + 0x100 * s + 0x10 * u
/-- GAU_SLOTs_Uu_CARE_HI, R193. -/
def GAU_SLOT_U_CARE_HI (s u : Nat) : Nat := 0x34004C + 0x100 * s + 0x10 * u
/-- STP_CTL, R209. -/
def STP_CTL : Nat := 0x310000
/-- STP_STATUS, R209. -/
def STP_STATUS : Nat := 0x310004
/-- STP_ENG_RETIRED, R209. -/
def STP_ENG_RETIRED : Nat := 0x310008
/-- STP_INT_STATUS, R209. -/
def STP_INT_STATUS : Nat := 0x31000C
/-- STP_INT_ENABLE, R209. -/
def STP_INT_ENABLE : Nat := 0x310010
/-- STP_ENGe_JOBS, R209. -/
def STP_ENG_JOBS (e : Nat) : Nat := 0x310100 + 0x10 * e
/-- STP_ENGe_VFAIL, R209. -/
def STP_ENG_VFAIL (e : Nat) : Nat := 0x310104 + 0x10 * e
/-- STP_ENGe_BYTES_LO, R209. -/
def STP_ENG_BYTES_LO (e : Nat) : Nat := 0x310108 + 0x10 * e
/-- STP_ENGe_BYTES_HI, R209. -/
def STP_ENG_BYTES_HI (e : Nat) : Nat := 0x31010C + 0x10 * e
/-- STP_RINGr_CTX_LO, R209. -/
def STP_RING_CTX_LO (r : Nat) : Nat := 0x311000 + 0x20 * r
/-- STP_RINGr_CTX_HI, R209. -/
def STP_RING_CTX_HI (r : Nat) : Nat := 0x311004 + 0x20 * r
/-- STP_RINGr_DOORBELL, R209. -/
def STP_RING_DOORBELL (r : Nat) : Nat := 0x311008 + 0x20 * r
/-- STP_RINGr_CHEAD, R209. -/
def STP_RING_CHEAD (r : Nat) : Nat := 0x31100C + 0x20 * r
/-- STP_RINGr_CTL, R209. -/
def STP_RING_CTL (r : Nat) : Nat := 0x311010 + 0x20 * r
/-- STP_RINGr_STATUS, R209. -/
def STP_RING_STATUS (r : Nat) : Nat := 0x311014 + 0x20 * r
/-- PRF_CTL, R221. -/
def PRF_CTL : Nat := 0x320000
/-- PRF_STATUS, R221. -/
def PRF_STATUS : Nat := 0x320004
/-- PRF_INT_STATUS, R221. -/
def PRF_INT_STATUS : Nat := 0x320008
/-- PRF_INT_ENABLE, R221. -/
def PRF_INT_ENABLE : Nat := 0x32000C
/-- PRF_ENGe_SLOTS, R221. -/
def PRF_ENG_SLOTS (e : Nat) : Nat := 0x320100 + 0x10 * e
/-- PRF_ENGe_WAIT, R221. -/
def PRF_ENG_WAIT (e : Nat) : Nat := 0x320104 + 0x10 * e
/-- PRF_ENGe_BLOCKS_LO, R221. -/
def PRF_ENG_BLOCKS_LO (e : Nat) : Nat := 0x320108 + 0x10 * e
/-- PRF_ENGe_BLOCKS_HI, R221. -/
def PRF_ENG_BLOCKS_HI (e : Nat) : Nat := 0x32010C + 0x10 * e
/-- PRF_RINGr_CTX_LO, R221. -/
def PRF_RING_CTX_LO (r : Nat) : Nat := 0x321000 + 0x20 * r
/-- PRF_RINGr_CTX_HI, R221. -/
def PRF_RING_CTX_HI (r : Nat) : Nat := 0x321004 + 0x20 * r
/-- PRF_RINGr_DOORBELL, R221. -/
def PRF_RING_DOORBELL (r : Nat) : Nat := 0x321008 + 0x20 * r
/-- PRF_RINGr_CHEAD, R221. -/
def PRF_RING_CHEAD (r : Nat) : Nat := 0x32100C + 0x20 * r
/-- PRF_RINGr_CTL, R221. -/
def PRF_RING_CTL (r : Nat) : Nat := 0x321010 + 0x20 * r
/-- PRF_RINGr_STATUS, R221. -/
def PRF_RING_STATUS (r : Nat) : Nat := 0x321014 + 0x20 * r
/-- QE_FN_AQ_CTL, R250. -/
def QE_FN_AQ_CTL : Nat := 0x10000
/-- QE_FN_AQ_STATE, R250. -/
def QE_FN_AQ_STATE : Nat := 0x10004
/-- QE_FN_AQ_DEPTH, R250. -/
def QE_FN_AQ_DEPTH : Nat := 0x10008
/-- QE_FN_AQ_VECTOR, R250. -/
def QE_FN_AQ_VECTOR : Nat := 0x1000C
/-- QE_FN_AQ_SQ_BASE_LO, R250. -/
def QE_FN_AQ_SQ_BASE_LO : Nat := 0x10010
/-- QE_FN_AQ_SQ_BASE_HI, R250. -/
def QE_FN_AQ_SQ_BASE_HI : Nat := 0x10014
/-- QE_FN_AQ_CQ_BASE_LO, R250. -/
def QE_FN_AQ_CQ_BASE_LO : Nat := 0x10018
/-- QE_FN_AQ_CQ_BASE_HI, R250. -/
def QE_FN_AQ_CQ_BASE_HI : Nat := 0x1001C
/-- QE_FN_QUOTA, R250. -/
def QE_FN_QUOTA : Nat := 0x10020
/-- QE_FN_PAIRS, R250. -/
def QE_FN_PAIRS : Nat := 0x10024
/-- QE_CTL, R251. -/
def QE_CTL : Nat := 0x30000
/-- QE_CTX_BASE_LO, R251. -/
def QE_CTX_BASE_LO : Nat := 0x30004
/-- QE_CTX_BASE_HI, R251. -/
def QE_CTX_BASE_HI : Nat := 0x30008
/-- QE_ARB_WEIGHT, R251. -/
def QE_ARB_WEIGHT : Nat := 0x3000C
/-- QE_TAG_INUSE, R251. -/
def QE_TAG_INUSE : Nat := 0x30010
/-- QE_TAG_PEAK, R251. -/
def QE_TAG_PEAK : Nat := 0x30014
/-- QE_TAG_WAITS, R251. -/
def QE_TAG_WAITS : Nat := 0x30018
/-- QE_INT_STATUS, R251. -/
def QE_INT_STATUS : Nat := 0x3001C
/-- QE_INT_ENABLE, R251. -/
def QE_INT_ENABLE : Nat := 0x30020
/-- QE_QSEL, R251. -/
def QE_QSEL : Nat := 0x30024
/-- QE_QSTATE, R251. -/
def QE_QSTATE : Nat := 0x30028
/-- QE_QHEADS, R251. -/
def QE_QHEADS : Nat := 0x3002C
/-- QE_QCQ_TAIL, R251. -/
def QE_QCQ_TAIL : Nat := 0x30030
/-- QE_QERR_INDEX, R251. -/
def QE_QERR_INDEX : Nat := 0x30034
/-- QE_FN_MSIX_W, R248. -/
def QE_FN_MSIX_W (v w : Nat) : Nat := 0x18000 + 0x10 * v + 4 * w
/-- QE_FN_PBA_W, R248. -/
def QE_FN_PBA_W (w : Nat) : Nat := 0x20000 + 4 * w
/-- DMA_CTL, R297. -/
def DMA_CTL : Nat := 0x300000
/-- DMA_BUSY_LO, R297. -/
def DMA_BUSY_LO : Nat := 0x300004
/-- DMA_BUSY_HI, R297. -/
def DMA_BUSY_HI : Nat := 0x300008
/-- DMA_INT_STATUS, R297. -/
def DMA_INT_STATUS : Nat := 0x30000C
/-- DMA_INT_ENABLE, R297. -/
def DMA_INT_ENABLE : Nat := 0x300010
/-- DMA_TMRt_CTL, R297. -/
def DMA_TMR_CTL (t : Nat) : Nat := 0x300100 + 0x10 * t
/-- DMA_TMRt_PERIOD, R297. -/
def DMA_TMR_PERIOD (t : Nat) : Nat := 0x300104 + 0x10 * t
/-- DMA_TMRt_LEFT, R297. -/
def DMA_TMR_LEFT (t : Nat) : Nat := 0x300108 + 0x10 * t
/-- DMA_CHc_CTX_LO, R298. -/
def DMA_CH_CTX_LO (c : Nat) : Nat := 0x301000 + 0x40 * c
/-- DMA_CHc_CTX_HI, R298. -/
def DMA_CH_CTX_HI (c : Nat) : Nat := 0x301004 + 0x40 * c
/-- DMA_CHc_DOORBELL, R298. -/
def DMA_CH_DOORBELL (c : Nat) : Nat := 0x301008 + 0x40 * c
/-- DMA_CHc_CHEAD, R298. -/
def DMA_CH_CHEAD (c : Nat) : Nat := 0x30100C + 0x40 * c
/-- DMA_CHc_CTL, R298. -/
def DMA_CH_CTL (c : Nat) : Nat := 0x301010 + 0x40 * c
/-- DMA_CHc_STATUS, R298. -/
def DMA_CH_STATUS (c : Nat) : Nat := 0x301014 + 0x40 * c
/-- DMA_CHc_CFG, R298. -/
def DMA_CH_CFG (c : Nat) : Nat := 0x301018 + 0x40 * c
/-- DMA_CHc_TRIGS, R298. -/
def DMA_CH_TRIGS (c : Nat) : Nat := 0x30101C + 0x40 * c
/-- DMA_CHc_BYTES_LO, R298. -/
def DMA_CH_BYTES_LO (c : Nat) : Nat := 0x301020 + 0x40 * c
/-- DMA_CHc_BYTES_HI, R298. -/
def DMA_CH_BYTES_HI (c : Nat) : Nat := 0x301024 + 0x40 * c
/-- DMA_CHc_REG_SRC_LO, R299. -/
def DMA_CH_REG_SRC_LO (c : Nat) : Nat := 0x302000 + 0x20 * c
/-- DMA_CHc_REG_SRC_HI, R299. -/
def DMA_CH_REG_SRC_HI (c : Nat) : Nat := 0x302004 + 0x20 * c
/-- DMA_CHc_REG_DST_LO, R299. -/
def DMA_CH_REG_DST_LO (c : Nat) : Nat := 0x302008 + 0x20 * c
/-- DMA_CHc_REG_DST_HI, R299. -/
def DMA_CH_REG_DST_HI (c : Nat) : Nat := 0x30200C + 0x20 * c
/-- DMA_CHc_REG_COUNT, R299. -/
def DMA_CH_REG_COUNT (c : Nat) : Nat := 0x302010 + 0x20 * c
/-- DMA_CHc_REG_CTL, R299. -/
def DMA_CH_REG_CTL (c : Nat) : Nat := 0x302014 + 0x20 * c
/-- DMA_CHc_REG_STATUS, R299. -/
def DMA_CH_REG_STATUS (c : Nat) : Nat := 0x302018 + 0x20 * c
/-- HDS_CTL, R316. -/
def HDS_CTL : Nat := 0x200000
/-- HDS_STATUS, R316. -/
def HDS_STATUS : Nat := 0x200004
/-- HDS_THR_BASE_LO, R316. -/
def HDS_THR_BASE_LO : Nat := 0x200008
/-- HDS_THR_BASE_HI, R316. -/
def HDS_THR_BASE_HI : Nat := 0x20000C
/-- HDS_INBOX_BASE_LO, R316. -/
def HDS_INBOX_BASE_LO : Nat := 0x200010
/-- HDS_INBOX_BASE_HI, R316. -/
def HDS_INBOX_BASE_HI : Nat := 0x200014
/-- HDS_SVC_PRIO, R316. -/
def HDS_SVC_PRIO : Nat := 0x200018
/-- HDS_SPAWN_FULL, R316. -/
def HDS_SPAWN_FULL : Nat := 0x20001C
/-- HDS_INT_STATUS, R316. -/
def HDS_INT_STATUS : Nat := 0x200020
/-- HDS_INT_ENABLE, R316. -/
def HDS_INT_ENABLE : Nat := 0x200024
/-- HDS_COREc_STATUS, R316. -/
def HDS_CORE_STATUS (c : Nat) : Nat := 0x200040 + 8 * c
/-- HDS_COREc_CTL, R316. -/
def HDS_CORE_CTL (c : Nat) : Nat := 0x200044 + 8 * c
/-- HDS_SLOTs_CMD, R316. -/
def HDS_SLOT_CMD (s : Nat) : Nat := 0x201000 + 0x20 * s
/-- HDS_SLOTs_ARG_LO, R316. -/
def HDS_SLOT_ARG_LO (s : Nat) : Nat := 0x201004 + 0x20 * s
/-- HDS_SLOTs_ARG_HI, R316. -/
def HDS_SLOT_ARG_HI (s : Nat) : Nat := 0x201008 + 0x20 * s
/-- HDS_SLOTs_STATUS, R316. -/
def HDS_SLOT_STATUS (s : Nat) : Nat := 0x20100C + 0x20 * s
/-- HDS_EVTe, R316. -/
def HDS_EVT (e : Nat) : Nat := 0x202000 + 4 * e
/-- HDS_INBOX_PENDi, R316. -/
def HDS_INBOX_PEND (i : Nat) : Nat := 0x203000 + 4 * i
/-- HDS_THRt_STATE, R316. -/
def HDS_THR_STATE (t : Nat) : Nat := 0x204000 + 4 * t
/-- HDS_WSETs_WINw_PBASE_LO, R314. -/
def HDS_WSET_WIN_PBASE_LO (s w : Nat) : Nat := 0x208000 + 0x200 * s + 0x20 * w
/-- HDS_WSETs_WINw_PBASE_HI, R314. -/
def HDS_WSET_WIN_PBASE_HI (s w : Nat) : Nat := 0x208004 + 0x200 * s + 0x20 * w
/-- HDS_WSETs_WINw_PLIM_LO, R314. -/
def HDS_WSET_WIN_PLIM_LO (s w : Nat) : Nat := 0x208008 + 0x200 * s + 0x20 * w
/-- HDS_WSETs_WINw_PLIM_HI, R314. -/
def HDS_WSET_WIN_PLIM_HI (s w : Nat) : Nat := 0x20800C + 0x200 * s + 0x20 * w
/-- HDS_WSETs_WINw_DBASE_LO, R314. -/
def HDS_WSET_WIN_DBASE_LO (s w : Nat) : Nat := 0x208010 + 0x200 * s + 0x20 * w
/-- HDS_WSETs_WINw_DBASE_HI, R314. -/
def HDS_WSET_WIN_DBASE_HI (s w : Nat) : Nat := 0x208014 + 0x200 * s + 0x20 * w
/-- HDS_WSETs_WINw_CTRL, R314. -/
def HDS_WSET_WIN_CTRL (s w : Nat) : Nat := 0x208018 + 0x200 * s + 0x20 * w
/-- GLB_HBM_RETIRE_CMD, R339. -/
def GLB_HBM_RETIRE_CMD : Nat := 0xD00
/-- GLB_HBM_RETIRED_LO, R339. -/
def GLB_HBM_RETIRED_LO : Nat := 0xD04
/-- GLB_HBM_RETIRED_HI, R339. -/
def GLB_HBM_RETIRED_HI : Nat := 0xD08
/-- GLB_HBM_LIMIT, R339. -/
def GLB_HBM_LIMIT : Nat := 0xD0C
/-- GLB_HBM_CLASS, R339. -/
def GLB_HBM_CLASS : Nat := 0xD10
/-- GLB_MIRm_CFG, R339. -/
def GLB_MIR_CFG (m : Nat) : Nat := 0xD40 + 0x10 * m
/-- GLB_MIRm_CTL, R339. -/
def GLB_MIR_CTL (m : Nat) : Nat := 0xD44 + 0x10 * m
/-- GLB_MIRm_DEG_LO, R339. -/
def GLB_MIR_DEG_LO (m : Nat) : Nat := 0xD48 + 0x10 * m
/-- GLB_MIRm_DEG_HI, R339. -/
def GLB_MIR_DEG_HI (m : Nat) : Nat := 0xD4C + 0x10 * m
/-- GLB_ARB_FREEZE, R365. -/
def GLB_ARB_FREEZE : Nat := 0xE00
/-- GLB_ARB_IDLE, R365. -/
def GLB_ARB_IDLE : Nat := 0xE04
/-- GLB_PAIR_CTL, R411. -/
def GLB_PAIR_CTL : Nat := 0xF00
/-- GLB_PAIR_STATUS, R411. -/
def GLB_PAIR_STATUS : Nat := 0xF04
/-- GLB_PAIR_PEER_LO, R411. -/
def GLB_PAIR_PEER_LO : Nat := 0xF08
/-- GLB_PAIR_PEER_HI, R411. -/
def GLB_PAIR_PEER_HI : Nat := 0xF0C
/-- GLB_PAIR_GEN, R411. -/
def GLB_PAIR_GEN : Nat := 0xF10
/-- GLB_IDENT_LO, R477. -/
def GLB_IDENT_LO : Nat := 0x0
/-- GLB_IDENT_HI, R477. -/
def GLB_IDENT_HI : Nat := 0x4
/-- GLB_RESET, R477. -/
def GLB_RESET : Nat := 0x10
/-- GLB_RESET_CAUSE, R477. -/
def GLB_RESET_CAUSE : Nat := 0x14
/-- GLB_BOOT_CTL, R477. -/
def GLB_BOOT_CTL : Nat := 0x18
/-- GLB_BOOT_STATUS, R477. -/
def GLB_BOOT_STATUS : Nat := 0x1C
/-- GLB_WDOG_CTL, R477. -/
def GLB_WDOG_CTL : Nat := 0x20
/-- GLB_WDOG_KICK, R477. -/
def GLB_WDOG_KICK : Nat := 0x24
/-- GLB_BOOT_OK, R477. -/
def GLB_BOOT_OK : Nat := 0x28
/-- GLB_FUSE, R477. -/
def GLB_FUSE : Nat := 0x2C
/-- GLB_MODE_CTL, R477. -/
def GLB_MODE_CTL : Nat := 0x30
/-- GLB_TILE_FAILING_LO, R490. -/
def GLB_TILE_FAILING_LO : Nat := 0xC80
/-- GLB_TILE_FAILING_HI, R490. -/
def GLB_TILE_FAILING_HI : Nat := 0xC84
/-- GLB_TILE_RETIRED_LO, R490. -/
def GLB_TILE_RETIRED_LO : Nat := 0xC88
/-- GLB_TILE_RETIRED_HI, R490. -/
def GLB_TILE_RETIRED_HI : Nat := 0xC8C
/-- GLB_AFFn, R29. -/
def GLB_AFF (n : Nat) : Nat := 0x400 + 4 * n
/-- GLB_B4MAPn_LO, R31. -/
def GLB_B4MAP_LO (n : Nat) : Nat := 0x800 + 8 * n
/-- GLB_B4MAPn_HI, R31. -/
def GLB_B4MAP_HI (n : Nat) : Nat := 0x804 + 8 * n
/-- MCn_STATUS, R340. -/
def MC_STATUS (n : Nat) : Nat := 0x400000 + 0x1000 * n
/-- MCn_CTL, R340. -/
def MC_CTL (n : Nat) : Nat := 0x400004 + 0x1000 * n
/-- MCn_INT_STATUS, R340. -/
def MC_INT_STATUS (n : Nat) : Nat := 0x400008 + 0x1000 * n
/-- MCn_INT_ENABLE, R340. -/
def MC_INT_ENABLE (n : Nat) : Nat := 0x40000C + 0x1000 * n
/-- MCn_CE_COUNT, R340. -/
def MC_CE_COUNT (n : Nat) : Nat := 0x400010 + 0x1000 * n
/-- MCn_TRANSIENT_COUNT, R340. -/
def MC_TRANSIENT_COUNT (n : Nat) : Nat := 0x400014 + 0x1000 * n
/-- MCn_UE_COUNT, R340. -/
def MC_UE_COUNT (n : Nat) : Nat := 0x400018 + 0x1000 * n
/-- MCn_TEMP, R340. -/
def MC_TEMP (n : Nat) : Nat := 0x40001C + 0x1000 * n
/-- MCn_SCRUB_INTERVAL, R340. -/
def MC_SCRUB_INTERVAL (n : Nat) : Nat := 0x400020 + 0x1000 * n
/-- MCn_SCRUB_POS, R340. -/
def MC_SCRUB_POS (n : Nat) : Nat := 0x400024 + 0x1000 * n
/-- MCn_SCRUB_PASSES, R340. -/
def MC_SCRUB_PASSES (n : Nat) : Nat := 0x400028 + 0x1000 * n
/-- MCn_TIMb0, R340. -/
def MC_TIM0 (n b : Nat) : Nat := 0x400040 + 0x1000 * n + 0x20 * b
/-- MCn_TIMb1, R340. -/
def MC_TIM1 (n b : Nat) : Nat := 0x400044 + 0x1000 * n + 0x20 * b
/-- MCn_TIMb2, R340. -/
def MC_TIM2 (n b : Nat) : Nat := 0x400048 + 0x1000 * n + 0x20 * b
/-- MCn_TIMb3, R340. -/
def MC_TIM3 (n b : Nat) : Nat := 0x40004C + 0x1000 * n + 0x20 * b
/-- MCn_CAP_DPA_LO, R340. -/
def MC_CAP_DPA_LO (n : Nat) : Nat := 0x400080 + 0x1000 * n
/-- MCn_CAP_DPA_HI, R340. -/
def MC_CAP_DPA_HI (n : Nat) : Nat := 0x400084 + 0x1000 * n
/-- MCn_CAP_LOC, R340. -/
def MC_CAP_LOC (n : Nat) : Nat := 0x400088 + 0x1000 * n
/-- MCn_CAP_INFO, R340. -/
def MC_CAP_INFO (n : Nat) : Nat := 0x40008C + 0x1000 * n
/-- MCn_PPR, R340. -/
def MC_PPR (n : Nat) : Nat := 0x400090 + 0x1000 * n
/-- MCn_PPR_STATUS, R340. -/
def MC_PPR_STATUS (n : Nat) : Nat := 0x400094 + 0x1000 * n
/-- MCn_STACK_CTL, R340. -/
def MC_STACK_CTL (n : Nat) : Nat := 0x4000C0 + 0x1000 * n
/-- SC_CTL, R362. -/
def SC_CTL : Nat := 0x540000
/-- SC_WAYLOCK, R362. -/
def SC_WAYLOCK : Nat := 0x540004
/-- SC_RANGE_BASE_LO, R362. -/
def SC_RANGE_BASE_LO : Nat := 0x540008
/-- SC_RANGE_BASE_HI, R362. -/
def SC_RANGE_BASE_HI : Nat := 0x54000C
/-- SC_RANGE_LEN_LO, R362. -/
def SC_RANGE_LEN_LO : Nat := 0x540010
/-- SC_RANGE_LEN_HI, R362. -/
def SC_RANGE_LEN_HI : Nat := 0x540014
/-- SC_RANGE_CMD, R362. -/
def SC_RANGE_CMD : Nat := 0x540018
/-- SC_LOCK_INVAL_COUNT, R362. -/
def SC_LOCK_INVAL_COUNT : Nat := 0x54001C
/-- SC_LOCK_FILL_SKIPPED, R362. -/
def SC_LOCK_FILL_SKIPPED : Nat := 0x540020
/-- SCs_CTL, R363. -/
def SCS_CTL (s : Nat) : Nat := 0x500000 + 0x1000 * s
/-- SCs_STATUS, R363. -/
def SCS_STATUS (s : Nat) : Nat := 0x500004 + 0x1000 * s
/-- SCs_HITS, R363. -/
def SCS_HITS (s : Nat) : Nat := 0x500008 + 0x1000 * s
/-- SCs_MISSES, R363. -/
def SCS_MISSES (s : Nat) : Nat := 0x50000C + 0x1000 * s
/-- SCs_CE_COUNT, R363. -/
def SCS_CE_COUNT (s : Nat) : Nat := 0x500010 + 0x1000 * s
/-- SCs_UE_COUNT, R363. -/
def SCS_UE_COUNT (s : Nat) : Nat := 0x500014 + 0x1000 * s
/-- SCs_WB_WAITS, R363. -/
def SCS_WB_WAITS (s : Nat) : Nat := 0x500018 + 0x1000 * s
/-- MSHr_CTL, R364. -/
def MSH_CTL (r : Nat) : Nat := 0x600000 + 0x400 * r
/-- MSHr_STATUS, R364. -/
def MSH_STATUS (r : Nat) : Nat := 0x600004 + 0x400 * r
/-- MSHr_LINK, R364. -/
def MSH_LINK (r : Nat) : Nat := 0x600008 + 0x400 * r
/-- MSHr_INT_STATUS, R364. -/
def MSH_INT_STATUS (r : Nat) : Nat := 0x60000C + 0x400 * r
/-- MSHr_INT_ENABLE, R364. -/
def MSH_INT_ENABLE (r : Nat) : Nat := 0x600010 + 0x400 * r
/-- MSHr_RETXp, R364. -/
def MSH_RETX (r p : Nat) : Nat := 0x600020 + 0x400 * r + 4 * p
/-- MSHr_ROUTEd, R364. -/
def MSH_ROUTE (r d : Nat) : Nat := 0x600100 + 0x400 * r + 4 * d
/-- HAT_CTL, R393. -/
def HAT_CTL : Nat := 0x700000
/-- HAT_FID, R393. -/
def HAT_FID : Nat := 0x700004
/-- HAT_GROUP_CFG, R393. -/
def HAT_GROUP_CFG : Nat := 0x700008
/-- HAT_WARDEN, R393. -/
def HAT_WARDEN : Nat := 0x70000C
/-- HAT_ROUTE_CTL, R393. -/
def HAT_ROUTE_CTL : Nat := 0x700010
/-- HAT_INT_STATUS, R393. -/
def HAT_INT_STATUS : Nat := 0x700014
/-- HAT_INT_ENABLE, R393. -/
def HAT_INT_ENABLE : Nat := 0x700018
/-- HAT_TAGS, R393. -/
def HAT_TAGS : Nat := 0x70001C
/-- HAT_TIMEOUTS, R393. -/
def HAT_TIMEOUTS : Nat := 0x700020
/-- HAT_RX_DISCARDS, R393. -/
def HAT_RX_DISCARDS : Nat := 0x700024
/-- HAT_FMi, R393. -/
def HAT_FM (i : Nat) : Nat := 0x700040 + 4 * i
/-- HAT_PORTp_STATE, R393. -/
def HAT_PORT_STATE (p : Nat) : Nat := 0x700100 + 0x40 * p
/-- HAT_PORTp_NBR, R393. -/
def HAT_PORT_NBR (p : Nat) : Nat := 0x700104 + 0x40 * p
/-- HAT_PORTp_CTL, R393. -/
def HAT_PORT_CTL (p : Nat) : Nat := 0x700108 + 0x40 * p
/-- HAT_PORTp_REPLAYS, R393. -/
def HAT_PORT_REPLAYS (p : Nat) : Nat := 0x70010C + 0x40 * p
/-- HAT_PORTp_RETRAINS, R393. -/
def HAT_PORT_RETRAINS (p : Nat) : Nat := 0x700110 + 0x40 * p
/-- HAT_PORTp_FEC_CORR, R393. -/
def HAT_PORT_FEC_CORR (p : Nat) : Nat := 0x700114 + 0x40 * p
/-- HAT_PORTp_FEC_UNCORR, R393. -/
def HAT_PORT_FEC_UNCORR (p : Nat) : Nat := 0x700118 + 0x40 * p
/-- HAT_PORTp_DROPS, R393. -/
def HAT_PORT_DROPS (p : Nat) : Nat := 0x70011C + 0x40 * p
/-- HAT_RAPn_TGT_LO, R393. -/
def HAT_RAP_TGT_LO (n : Nat) : Nat := 0x701000 + 0x10 * n
/-- HAT_RAPn_TGT_HI, R393. -/
def HAT_RAP_TGT_HI (n : Nat) : Nat := 0x701004 + 0x10 * n
/-- HAT_RAPn_ACL_LO, R393. -/
def HAT_RAP_ACL_LO (n : Nat) : Nat := 0x701008 + 0x10 * n
/-- HAT_RAPn_ACL_HI, R393. -/
def HAT_RAP_ACL_HI (n : Nat) : Nat := 0x70100C + 0x10 * n
/-- HAT_EXPw_BASE_LO, R393. -/
def HAT_EXP_BASE_LO (w : Nat) : Nat := 0x702000 + 0x10 * w
/-- HAT_EXPw_BASE_HI, R393. -/
def HAT_EXP_BASE_HI (w : Nat) : Nat := 0x702004 + 0x10 * w
/-- HAT_EXPw_SIZE, R393. -/
def HAT_EXP_SIZE (w : Nat) : Nat := 0x702008 + 0x10 * w
/-- HAT_JRr_CTX_LO, R394. -/
def HAT_JR_CTX_LO (r : Nat) : Nat := 0x703000 + 0x20 * r
/-- HAT_JRr_CTX_HI, R394. -/
def HAT_JR_CTX_HI (r : Nat) : Nat := 0x703004 + 0x20 * r
/-- HAT_JRr_DOORBELL, R394. -/
def HAT_JR_DOORBELL (r : Nat) : Nat := 0x703008 + 0x20 * r
/-- HAT_JRr_CHEAD, R394. -/
def HAT_JR_CHEAD (r : Nat) : Nat := 0x70300C + 0x20 * r
/-- HAT_JRr_CTL, R394. -/
def HAT_JR_CTL (r : Nat) : Nat := 0x703010 + 0x20 * r
/-- HAT_JRr_STATUS, R394. -/
def HAT_JR_STATUS (r : Nat) : Nat := 0x703014 + 0x20 * r
/-- HAT_LQq_CTX_LO, R394. -/
def HAT_LQ_CTX_LO (q : Nat) : Nat := 0x703800 + 0x20 * q
/-- HAT_LQq_CTX_HI, R394. -/
def HAT_LQ_CTX_HI (q : Nat) : Nat := 0x703804 + 0x20 * q
/-- HAT_LQq_HEAD, R394. -/
def HAT_LQ_HEAD (q : Nat) : Nat := 0x703808 + 0x20 * q
/-- HAT_LQq_CTL, R394. -/
def HAT_LQ_CTL (q : Nat) : Nat := 0x70380C + 0x20 * q
/-- HAT_LQq_STATUS, R394. -/
def HAT_LQ_STATUS (q : Nat) : Nat := 0x703810 + 0x20 * q
/-- HAT_BANKb_GRPg_LO, R394. -/
def HAT_BANK_GRP_LO (b g : Nat) : Nat := 0x710000 + 0x8000 * b + 8 * g
/-- HAT_BANKb_GRPg_HI, R394. -/
def HAT_BANK_GRP_HI (b g : Nat) : Nat := 0x710004 + 0x8000 * b + 8 * g
/-- HAT_BANKb_MBRm_LO, R394. -/
def HAT_BANK_MBR_LO (b m : Nat) : Nat := 0x712000 + 0x8000 * b + 8 * m
/-- HAT_BANKb_MBRm_HI, R394. -/
def HAT_BANK_MBR_HI (b m : Nat) : Nat := 0x712004 + 0x8000 * b + 8 * m
/-- PLT_CTL, R435. -/
def PLT_CTL : Nat := 0x780000
/-- PLT_STATUS, R435. -/
def PLT_STATUS : Nat := 0x780004
/-- PLT_ETCH_DEADLINE, R435. -/
def PLT_ETCH_DEADLINE : Nat := 0x780008
/-- PLT_BG_RATE, R435. -/
def PLT_BG_RATE : Nat := 0x78000C
/-- PLT_FREEZE_EPOCH_LO, R435. -/
def PLT_FREEZE_EPOCH_LO : Nat := 0x780010
/-- PLT_FREEZE_EPOCH_HI, R435. -/
def PLT_FREEZE_EPOCH_HI : Nat := 0x780014
/-- PLT_ETCH_GO, R435. -/
def PLT_ETCH_GO : Nat := 0x780018
/-- PLT_REGION_BASE_LO, R435. -/
def PLT_REGION_BASE_LO : Nat := 0x780020
/-- PLT_REGION_BASE_HI, R435. -/
def PLT_REGION_BASE_HI : Nat := 0x780024
/-- PLT_REGION_CMD, R435. -/
def PLT_REGION_CMD : Nat := 0x780028
/-- PLT_WORK_BASE_LO, R435. -/
def PLT_WORK_BASE_LO : Nat := 0x780030
/-- PLT_WORK_BASE_HI, R435. -/
def PLT_WORK_BASE_HI : Nat := 0x780034
/-- PLT_LIMIT, R435. -/
def PLT_LIMIT : Nat := 0x780038
/-- PLT_RESIDENT, R435. -/
def PLT_RESIDENT : Nat := 0x78003C
/-- PLT_DIRTY, R435. -/
def PLT_DIRTY : Nat := 0x780040
/-- PLT_BANK_ENERGY, R435. -/
def PLT_BANK_ENERGY : Nat := 0x780044
/-- PLT_BANK_USABLE, R435. -/
def PLT_BANK_USABLE : Nat := 0x780048
/-- PLT_BANK_STATUS, R435. -/
def PLT_BANK_STATUS : Nat := 0x78004C
/-- PLT_INT_STATUS, R435. -/
def PLT_INT_STATUS : Nat := 0x780050
/-- PLT_INT_ENABLE, R435. -/
def PLT_INT_ENABLE : Nat := 0x780054
/-- PLT_DEVd_STATUS, R435. -/
def PLT_DEV_STATUS (d : Nat) : Nat := 0x780060 + 4 * d
/-- PLT_RINGr_CTX_LO, R436. -/
def PLT_RING_CTX_LO (r : Nat) : Nat := 0x781000 + 0x20 * r
/-- PLT_RINGr_CTX_HI, R436. -/
def PLT_RING_CTX_HI (r : Nat) : Nat := 0x781004 + 0x20 * r
/-- PLT_RINGr_DOORBELL, R436. -/
def PLT_RING_DOORBELL (r : Nat) : Nat := 0x781008 + 0x20 * r
/-- PLT_RINGr_CHEAD, R436. -/
def PLT_RING_CHEAD (r : Nat) : Nat := 0x78100C + 0x20 * r
/-- PLT_RINGr_CTL, R436. -/
def PLT_RING_CTL (r : Nat) : Nat := 0x781010 + 0x20 * r
/-- PLT_RINGr_STATUS, R436. -/
def PLT_RING_STATUS (r : Nat) : Nat := 0x781014 + 0x20 * r
/-- STY_DEV_MODE, R458. -/
def STY_DEV_MODE : Nat := 0x1000
/-- STY_VIGIL_CTL, R458. -/
def STY_VIGIL_CTL : Nat := 0x1004
/-- STY_WAKE_EN, R458. -/
def STY_WAKE_EN : Nat := 0x1008
/-- STY_WAKE_CAUSE, R458. -/
def STY_WAKE_CAUSE : Nat := 0x100C
/-- STY_TIME_LO, R458. -/
def STY_TIME_LO : Nat := 0x1010
/-- STY_TIME_HI, R458. -/
def STY_TIME_HI : Nat := 0x1014
/-- STY_ALARM_LO, R458. -/
def STY_ALARM_LO : Nat := 0x1018
/-- STY_ALARM_HI, R458. -/
def STY_ALARM_HI : Nat := 0x101C
/-- STY_SUPPLY, R458. -/
def STY_SUPPLY : Nat := 0x1020
/-- STY_POWER, R458. -/
def STY_POWER : Nat := 0x1024
/-- STY_PWR_LIMIT, R458. -/
def STY_PWR_LIMIT : Nat := 0x1028
/-- STY_THERM_CTL, R458. -/
def STY_THERM_CTL : Nat := 0x102C
/-- STY_THERM_STATUS, R458. -/
def STY_THERM_STATUS : Nat := 0x1030
/-- STY_INT_STATUS, R458. -/
def STY_INT_STATUS : Nat := 0x1034
/-- STY_INT_ENABLE, R458. -/
def STY_INT_ENABLE : Nat := 0x1038
/-- STY_SAVE_SKIPS, R458. -/
def STY_SAVE_SKIPS : Nat := 0x103C
/-- STY_QPLLk, R458. -/
def STY_QPLL (k : Nat) : Nat := 0x1040 + 4 * k
/-- STY_WAKE_SEND, R458. -/
def STY_WAKE_SEND : Nat := 0x1050
/-- STY_TSENSs, R458. -/
def STY_TSENS (s : Nat) : Nat := 0x1060 + 4 * s
/-- STY_DOMd_CTL, R458. -/
def STY_DOM_CTL (d : Nat) : Nat := 0x1100 + 8 * d
/-- STY_DOMd_STATUS, R458. -/
def STY_DOM_STATUS (d : Nat) : Nat := 0x1104 + 8 * d
/-- STY_RLOG_WR, R458. -/
def STY_RLOG_WR : Nat := 0x1200
/-- STY_RLOGi_INFO, R458. -/
def STY_RLOG_INFO (i : Nat) : Nat := 0x1300 + 0x10 * i
/-- STY_RLOGi_TIME_LO, R458. -/
def STY_RLOG_TIME_LO (i : Nat) : Nat := 0x1308 + 0x10 * i
/-- STY_RLOGi_TIME_HI, R458. -/
def STY_RLOG_TIME_HI (i : Nat) : Nat := 0x130C + 0x10 * i
/-- MGT_CTL, R511. -/
def MGT_CTL : Nat := 0x7C0000
/-- MGT_STATUS, R511. -/
def MGT_STATUS : Nat := 0x7C0004
/-- MGT_I3C, R511. -/
def MGT_I3C : Nat := 0x7C0008
/-- MGT_EID, R511. -/
def MGT_EID : Nat := 0x7C000C
/-- MGT_BUS_ERRORS, R511. -/
def MGT_BUS_ERRORS : Nat := 0x7C0010

end Reg

/-- Registers of the GRD window. -/
def regsGrd : List RegRow :=
  [ ⟨0x2000, [], [⟨8, 0, .ro, 0⟩], false⟩, -- GRD_ELOG_WR
    ⟨0x2004, [], [⟨8, 0, .rw, 0⟩], false⟩, -- GRD_ELOG_RD
    ⟨0x2008, [], [⟨31, 0, .w1c, 0⟩], false⟩, -- GRD_ELOG_LOST
    ⟨0x200C, [], [⟨2, 2, .w1c, 0⟩, ⟨1, 1, .w1c, 0⟩, ⟨0, 0, .w1c, 0⟩], false⟩, -- GRD_INT_STATUS
    ⟨0x2010, [], [⟨2, 0, .rw, 0⟩], false⟩, -- GRD_INT_ENABLE
    ⟨0x2014, [], [⟨31, 31, .rw, 0⟩, ⟨30, 30, .rw, 1⟩, ⟨10, 0, .rw, 0⟩], true⟩, -- GRD_INT_ROUTE
    ⟨0x2018, [], [⟨13, 13, .ro, 0⟩, ⟨12, 12, .ro, 0⟩, ⟨11, 11, .ro, 0⟩, ⟨10, 10, .ro, 0⟩, ⟨9, 9, .ro, 0⟩, ⟨8, 8, .ro, 0⟩, ⟨7, 7, .ro, 0⟩, ⟨6, 6, .ro, 0⟩, ⟨5, 5, .ro, 0⟩, ⟨4, 4, .ro, 0⟩, ⟨3, 3, .ro, 0⟩, ⟨2, 2, .ro, 0⟩, ⟨1, 1, .ro, 0⟩], true⟩, -- GRD_UNIT_INT
    ⟨0x5000, [(12, 0xC00), (128, 0x18)], [⟨31, 0, .rw, 0⟩], true⟩, -- GRD_GRANTtg_CONTROL_LO
    ⟨0x5004, [(12, 0xC00), (128, 0x18)], [⟨31, 0, .rw, 0xFFFFFFFF⟩], true⟩, -- GRD_GRANTtg_CONTROL_HI
    ⟨0x5008, [(12, 0xC00), (128, 0x18)], [⟨31, 0, .rw, 0⟩], true⟩, -- GRD_GRANTtg_BASE_LO
    ⟨0x500C, [(12, 0xC00), (128, 0x18)], [⟨31, 0, .rw, 0xFFFFFFFF⟩], true⟩, -- GRD_GRANTtg_BASE_HI
    ⟨0x5010, [(12, 0xC00), (128, 0x18)], [⟨31, 0, .rw, 0⟩], true⟩, -- GRD_GRANTtg_LIMIT_LO
    ⟨0x5014, [(12, 0xC00), (128, 0x18)], [⟨31, 0, .rw, 0xFFFFFFFF⟩], true⟩, -- GRD_GRANTtg_LIMIT_HI
    ⟨0x3000, [(256, 0x20)], [⟨31, 0, .ro, 0⟩], true⟩, -- GRD_ELOGi_W0
    ⟨0x3004, [(256, 0x20)], [⟨31, 0, .ro, 0⟩], true⟩, -- GRD_ELOGi_W1
    ⟨0x3008, [(256, 0x20)], [⟨31, 0, .ro, 0⟩], true⟩, -- GRD_ELOGi_W2
    ⟨0x300C, [(256, 0x20)], [⟨31, 0, .ro, 0⟩], true⟩, -- GRD_ELOGi_W3
    ⟨0x3010, [(256, 0x20)], [⟨31, 0, .ro, 0⟩], true⟩, -- GRD_ELOGi_W4
    ⟨0x3014, [(256, 0x20)], [⟨31, 0, .ro, 0⟩], true⟩, -- GRD_ELOGi_W5
    ⟨0x3018, [(256, 0x20)], [⟨31, 0, .ro, 0⟩], true⟩, -- GRD_ELOGi_W6
    ⟨0x301C, [(256, 0x20)], [⟨31, 0, .ro, 0⟩], true⟩] -- GRD_ELOGi_W7

/-- Registers of the TIL window (part 0). -/
def regsTil0 : List RegRow :=
  [ ⟨0x800000, [(64, 0x10000)], [⟨1, 1, .wo, 0⟩, ⟨0, 0, .rw, 0⟩], false⟩, -- TILn_CTL
    ⟨0x800004, [(64, 0x10000)], [⟨15, 8, .ro, 0⟩, ⟨4, 4, .ro, 0⟩, ⟨3, 0, .ro, 1⟩], false⟩, -- TILn_STATUS
    ⟨0x800008, [(64, 0x10000)], [⟨31, 2, .ro, 0⟩], false⟩, -- TILn_EXC_PC_LO
    ⟨0x80000C, [(64, 0x10000)], [⟨15, 0, .ro, 0⟩], false⟩, -- TILn_EXC_PC_HI
    ⟨0x800010, [(64, 0x10000)], [⟨31, 0, .ro, 0⟩], false⟩, -- TILn_EXC_ADDR_LO
    ⟨0x800014, [(64, 0x10000)], [⟨31, 0, .ro, 0⟩], false⟩, -- TILn_EXC_ADDR_HI
    ⟨0x800018, [(64, 0x10000)], [⟨31, 16, .ro, 0⟩, ⟨15, 0, .ro, 0⟩], false⟩, -- TILn_EXC_DETAIL
    ⟨0x800020, [(64, 0x10000)], [⟨31, 2, .rw, 0⟩], false⟩, -- TILn_PC_LO
    ⟨0x800024, [(64, 0x10000)], [⟨15, 0, .rw, 0⟩], false⟩, -- TILn_PC_HI
    ⟨0x800100, [(64, 0x10000), (32, 8)], [⟨31, 0, .rw, 0⟩], false⟩, -- TILn_Xx_LO
    ⟨0x800104, [(64, 0x10000), (32, 8)], [⟨31, 0, .rw, 0⟩], false⟩, -- TILn_Xx_HI
    ⟨0x800200, [(64, 0x10000)], [⟨2, 0, .rw, 0⟩], false⟩, -- TILn_SFLAGS
    ⟨0x801000, [(64, 0x10000), (16, 0x20)], [⟨31, 12, .rw, 0⟩], false⟩, -- TILn_WINw_PBASE_LO
    ⟨0x801004, [(64, 0x10000), (16, 0x20)], [⟨15, 0, .rw, 0⟩], false⟩, -- TILn_WINw_PBASE_HI
    ⟨0x801008, [(64, 0x10000), (16, 0x20)], [⟨31, 12, .rw, 0⟩], false⟩, -- TILn_WINw_PLIM_LO
    ⟨0x80100C, [(64, 0x10000), (16, 0x20)], [⟨15, 0, .rw, 0⟩], false⟩, -- TILn_WINw_PLIM_HI
    ⟨0x801010, [(64, 0x10000), (16, 0x20)], [⟨31, 12, .rw, 0⟩], false⟩, -- TILn_WINw_DBASE_LO
    ⟨0x801014, [(64, 0x10000), (16, 0x20)], [⟨15, 0, .rw, 0⟩], false⟩, -- TILn_WINw_DBASE_HI
    ⟨0x801018, [(64, 0x10000), (16, 0x20)], [⟨4, 4, .rw, 0⟩, ⟨3, 3, .rw, 0⟩, ⟨2, 2, .rw, 0⟩, ⟨1, 1, .rw, 0⟩, ⟨0, 0, .rw, 0⟩], false⟩, -- TILn_WINw_CTRL
    ⟨0x800300, [(64, 0x10000)], [⟨28, 16, .rw, 0⟩, ⟨12, 8, .rw, 0⟩, ⟨5, 4, .rw, 0⟩, ⟨3, 0, .rw, 0⟩], false⟩, -- TILn_VCFG_LO
    ⟨0x800304, [(64, 0x10000)], [⟨23, 16, .rw, 0⟩, ⟨12, 0, .rw, 0⟩], false⟩, -- TILn_VCFG_HI
    ⟨0x800400, [(64, 0x10000), (16, 0x40), (16, 4)], [⟨31, 0, .rw, 0⟩], false⟩, -- TILn_Pp_Ww
    ⟨0x804000, [(64, 0x10000), (32, 0x200), (128, 4)], [⟨31, 0, .rw, 0⟩], false⟩, -- TILn_Vv_Ww
    ⟨0x808000, [(64, 0x10000), (32, 0x10)], [⟨31, 31, .rw, 0⟩, ⟨30, 27, .rw, 0⟩, ⟨26, 24, .rw, 0⟩, ⟨22, 20, .rw, 0⟩], false⟩, -- TILn_OCHc_CFG
    ⟨0x808004, [(64, 0x10000), (32, 0x10)], [⟨29, 12, .rw, 0⟩, ⟨11, 5, .rw, 0⟩, ⟨4, 0, .rw, 0⟩], false⟩] -- TILn_OCHc_DEST

/-- Registers of the TIL window (part 1). -/
def regsTil1 : List RegRow :=
  [ ⟨0x808008, [(64, 0x10000), (32, 0x10)], [⟨31, 0, .rw, 0⟩], false⟩, -- TILn_OCHc_CREDIT
    ⟨0x80800C, [(64, 0x10000), (32, 0x10)], [⟨31, 16, .wo, 0⟩, ⟨1, 1, .ro, 0⟩, ⟨0, 0, .wo, 0⟩], false⟩, -- TILn_OCHc_CTL
    ⟨0x808400, [(64, 0x10000), (32, 0x20)], [⟨31, 31, .rw, 0⟩, ⟨30, 27, .rw, 0⟩, ⟨24, 24, .rw, 0⟩, ⟨22, 20, .rw, 0⟩], false⟩, -- TILn_ICHc_CFG
    ⟨0x808404, [(64, 0x10000), (32, 0x20)], [⟨29, 12, .rw, 0⟩, ⟨11, 5, .rw, 0⟩, ⟨4, 0, .rw, 0⟩], false⟩, -- TILn_ICHc_SRC
    ⟨0x808408, [(64, 0x10000), (32, 0x20)], [⟨29, 16, .rw, 0⟩, ⟨12, 0, .rw, 0⟩], false⟩, -- TILn_ICHc_BUF
    ⟨0x80840C, [(64, 0x10000), (32, 0x20)], [⟨31, 0, .ro, 0⟩], false⟩, -- TILn_ICHc_COUNT
    ⟨0x808410, [(64, 0x10000), (32, 0x20)], [⟨31, 16, .wo, 0⟩, ⟨1, 1, .ro, 0⟩, ⟨0, 0, .wo, 0⟩], false⟩, -- TILn_ICHc_CTL
    ⟨0x800030, [(64, 0x10000)], [⟨3, 3, .ro, 0⟩, ⟨2, 2, .wo, 0⟩, ⟨1, 1, .rw, 1⟩, ⟨0, 0, .rw, 0⟩], false⟩] -- TILn_L1_CTL

/-- Registers of the GAU window (part 0). -/
def regsGau0 : List RegRow :=
  [ ⟨0x330000, [], [⟨0, 0, .rw, 1⟩], false⟩, -- GAU_CTL
    ⟨0x330004, [], [⟨15, 0, .ro, 0⟩], false⟩, -- GAU_STATUS
    ⟨0x330008, [], [⟨31, 23, .rw, 0⟩], false⟩, -- GAU_SHADOW_BASE_LO
    ⟨0x33000C, [], [⟨15, 0, .rw, 0⟩], false⟩, -- GAU_SHADOW_BASE_HI
    ⟨0x330010, [], [⟨15, 0, .rw, 0x400⟩], false⟩, -- GAU_SCRUB_INTERVAL
    ⟨0x330014, [], [⟨31, 0, .w1c, 0⟩], false⟩, -- GAU_SCRUB_REPAIRS
    ⟨0x330018, [], [⟨31, 0, .ro, 0⟩], false⟩, -- GAU_SCRUB_PASSES
    ⟨0x330020, [], [⟨15, 0, .ro, 0xFFFF⟩], false⟩, -- GAU_BANK_FREE
    ⟨0x330024, [], [⟨15, 0, .w1c, 0⟩], false⟩, -- GAU_BANK_FAILING
    ⟨0x330028, [], [⟨15, 0, .w1s, 0⟩], true⟩, -- GAU_BANK_RETIRED
    ⟨0x330030, [], [⟨1, 1, .w1c, 0⟩, ⟨0, 0, .w1c, 0⟩], false⟩, -- GAU_INT_STATUS
    ⟨0x330034, [], [⟨1, 0, .rw, 0⟩], false⟩, -- GAU_INT_ENABLE
    ⟨0x330100, [(16, 0x10)], [⟨31, 31, .ro, 0⟩, ⟨30, 30, .ro, 0⟩, ⟨17, 16, .ro, 0⟩, ⟨15, 0, .ro, 0⟩], false⟩, -- GAU_TBLt_CFG
    ⟨0x330104, [(16, 0x10)], [⟨31, 0, .ro, 0⟩], false⟩, -- GAU_TBLt_BANKS
    ⟨0x330108, [(16, 0x10)], [⟨23, 12, .ro, 0⟩, ⟨11, 0, .ro, 0⟩], false⟩, -- GAU_TBLt_ACL
    ⟨0x33010C, [(16, 0x10)], [⟨31, 0, .ro, 0⟩], false⟩, -- GAU_TBLt_SEARCHES
    ⟨0x340000, [(16, 0x100)], [⟨31, 31, .wo, 0⟩, ⟨23, 16, .rw, 0⟩, ⟨11, 8, .rw, 0⟩, ⟨7, 0, .rw, 0⟩], false⟩, -- GAU_SLOTs_CMD
    ⟨0x340004, [(16, 0x100)], [⟨31, 31, .ro, 0⟩, ⟨15, 0, .ro, 0⟩], false⟩, -- GAU_SLOTs_STATUS
    ⟨0x340008, [(16, 0x100)], [⟨17, 0, .rw, 0⟩], false⟩, -- GAU_SLOTs_ENTRY
    ⟨0x34000C, [(16, 0x100)], [⟨31, 0, .rw, 0⟩], false⟩, -- GAU_SLOTs_BANKS
    ⟨0x340010, [(16, 0x100)], [⟨23, 12, .rw, 0⟩, ⟨11, 0, .rw, 0⟩], false⟩, -- GAU_SLOTs_ACL
    ⟨0x340014, [(16, 0x100)], [⟨31, 31, .rw, 0⟩, ⟨15, 0, .rw, 0⟩], false⟩, -- GAU_SLOTs_META
    ⟨0x340018, [(16, 0x100)], [⟨31, 0, .rw, 0⟩], false⟩, -- GAU_SLOTs_DATA
    ⟨0x34001C, [(16, 0x100)], [⟨12, 8, .rw, 0⟩, ⟨4, 0, .rw, 0⟩], false⟩, -- GAU_SLOTs_MOVE
    ⟨0x340020, [(16, 0x100)], [⟨31, 0, .ro, 0⟩], false⟩] -- GAU_SLOTs_RESULT_LO

/-- Registers of the GAU window (part 1). -/
def regsGau1 : List RegRow :=
  [ ⟨0x340024, [(16, 0x100)], [⟨31, 31, .ro, 0⟩, ⟨30, 30, .ro, 0⟩, ⟨29, 22, .ro, 0⟩, ⟨15, 0, .ro, 0⟩], false⟩, -- GAU_SLOTs_RESULT_HI
    ⟨0x340028, [(16, 0x100)], [⟨20, 16, .ro, 0⟩, ⟨12, 0, .ro, 0⟩], false⟩, -- GAU_SLOTs_RPOS
    ⟨0x340040, [(16, 0x100), (4, 0x10)], [⟨31, 0, .rw, 0⟩], false⟩, -- GAU_SLOTs_Uu_VALUE_LO
    ⟨0x340044, [(16, 0x100), (4, 0x10)], [⟨31, 0, .rw, 0⟩], false⟩, -- GAU_SLOTs_Uu_VALUE_HI
    ⟨0x340048, [(16, 0x100), (4, 0x10)], [⟨31, 0, .rw, 0⟩], false⟩, -- GAU_SLOTs_Uu_CARE_LO
    ⟨0x34004C, [(16, 0x100), (4, 0x10)], [⟨31, 0, .rw, 0⟩], false⟩] -- GAU_SLOTs_Uu_CARE_HI

/-- Registers of the STP window. -/
def regsStp : List RegRow :=
  [ ⟨0x310000, [], [⟨0, 0, .rw, 1⟩], true⟩, -- STP_CTL
    ⟨0x310004, [], [⟨15, 0, .ro, 0⟩], false⟩, -- STP_STATUS
    ⟨0x310008, [], [⟨15, 0, .w1s, 0⟩], true⟩, -- STP_ENG_RETIRED
    ⟨0x31000C, [], [⟨2, 2, .w1c, 0⟩, ⟨1, 1, .w1c, 0⟩, ⟨0, 0, .w1c, 0⟩], false⟩, -- STP_INT_STATUS
    ⟨0x310010, [], [⟨2, 0, .rw, 0⟩], false⟩, -- STP_INT_ENABLE
    ⟨0x310100, [(16, 0x10)], [⟨31, 0, .ro, 0⟩], false⟩, -- STP_ENGe_JOBS
    ⟨0x310104, [(16, 0x10)], [⟨17, 16, .ro, 0⟩, ⟨15, 0, .ro, 0⟩], false⟩, -- STP_ENGe_VFAIL
    ⟨0x310108, [(16, 0x10)], [⟨31, 0, .ro, 0⟩], false⟩, -- STP_ENGe_BYTES_LO
    ⟨0x31010C, [(16, 0x10)], [⟨31, 0, .ro, 0⟩], false⟩, -- STP_ENGe_BYTES_HI
    ⟨0x311000, [(16, 0x20)], [⟨31, 6, .rw, 0⟩], true⟩, -- STP_RINGr_CTX_LO
    ⟨0x311004, [(16, 0x20)], [⟨15, 0, .rw, 0⟩], true⟩, -- STP_RINGr_CTX_HI
    ⟨0x311008, [(16, 0x20)], [⟨31, 0, .wo, 0⟩], false⟩, -- STP_RINGr_DOORBELL
    ⟨0x31100C, [(16, 0x20)], [⟨15, 0, .rw, 0⟩], false⟩, -- STP_RINGr_CHEAD
    ⟨0x311010, [(16, 0x20)], [⟨1, 1, .wo, 0⟩, ⟨0, 0, .rw, 0⟩], true⟩, -- STP_RINGr_CTL
    ⟨0x311014, [(16, 0x20)], [⟨31, 31, .ro, 0⟩, ⟨15, 0, .ro, 0⟩], false⟩] -- STP_RINGr_STATUS

/-- Registers of the PRF window. -/
def regsPrf : List RegRow :=
  [ ⟨0x320000, [], [⟨0, 0, .rw, 1⟩], true⟩, -- PRF_CTL
    ⟨0x320004, [], [⟨7, 0, .ro, 0⟩], false⟩, -- PRF_STATUS
    ⟨0x320008, [], [⟨0, 0, .w1c, 0⟩], false⟩, -- PRF_INT_STATUS
    ⟨0x32000C, [], [⟨0, 0, .rw, 0⟩], false⟩, -- PRF_INT_ENABLE
    ⟨0x320100, [(8, 0x10)], [⟨23, 16, .ro, 0⟩, ⟨15, 8, .ro, 0⟩, ⟨7, 0, .ro, 0⟩], false⟩, -- PRF_ENGe_SLOTS
    ⟨0x320104, [(8, 0x10)], [⟨31, 0, .ro, 0⟩], false⟩, -- PRF_ENGe_WAIT
    ⟨0x320108, [(8, 0x10)], [⟨31, 0, .ro, 0⟩], false⟩, -- PRF_ENGe_BLOCKS_LO
    ⟨0x32010C, [(8, 0x10)], [⟨31, 0, .ro, 0⟩], false⟩, -- PRF_ENGe_BLOCKS_HI
    ⟨0x321000, [(32, 0x20)], [⟨31, 6, .rw, 0⟩], true⟩, -- PRF_RINGr_CTX_LO
    ⟨0x321004, [(32, 0x20)], [⟨15, 0, .rw, 0⟩], true⟩, -- PRF_RINGr_CTX_HI
    ⟨0x321008, [(32, 0x20)], [⟨31, 0, .wo, 0⟩], false⟩, -- PRF_RINGr_DOORBELL
    ⟨0x32100C, [(32, 0x20)], [⟨15, 0, .rw, 0⟩], false⟩, -- PRF_RINGr_CHEAD
    ⟨0x321010, [(32, 0x20)], [⟨6, 4, .rw, 0⟩, ⟨1, 1, .wo, 0⟩, ⟨0, 0, .rw, 0⟩], true⟩, -- PRF_RINGr_CTL
    ⟨0x321014, [(32, 0x20)], [⟨31, 31, .ro, 0⟩, ⟨15, 0, .ro, 0⟩], false⟩] -- PRF_RINGr_STATUS

/-- Registers of the QE window (part 0). -/
def regsQe0 : List RegRow :=
  [ ⟨0x10000, [], [⟨0, 0, .rw, 0⟩], true⟩, -- QE_FN_AQ_CTL
    ⟨0x10004, [], [⟨1, 0, .ro, 0⟩], true⟩, -- QE_FN_AQ_STATE
    ⟨0x10008, [], [⟨31, 16, .rw, 0⟩, ⟨15, 0, .rw, 0⟩], true⟩, -- QE_FN_AQ_DEPTH
    ⟨0x1000C, [], [⟨10, 0, .rw, 0⟩], true⟩, -- QE_FN_AQ_VECTOR
    ⟨0x10010, [], [⟨31, 12, .rw, 0⟩], true⟩, -- QE_FN_AQ_SQ_BASE_LO
    ⟨0x10014, [], [⟨31, 0, .rw, 0⟩], true⟩, -- QE_FN_AQ_SQ_BASE_HI
    ⟨0x10018, [], [⟨31, 12, .rw, 0⟩], true⟩, -- QE_FN_AQ_CQ_BASE_LO
    ⟨0x1001C, [], [⟨31, 0, .rw, 0⟩], true⟩, -- QE_FN_AQ_CQ_BASE_HI
    ⟨0x10020, [], [⟨12, 0, .ro, 0⟩], false⟩, -- QE_FN_QUOTA
    ⟨0x10024, [], [⟨12, 0, .ro, 0⟩], false⟩, -- QE_FN_PAIRS
    ⟨0x30000, [], [⟨0, 0, .rw, 0⟩], true⟩, -- QE_CTL
    ⟨0x30004, [], [⟨31, 19, .rw, 0⟩], true⟩, -- QE_CTX_BASE_LO
    ⟨0x30008, [], [⟨15, 0, .rw, 0⟩], true⟩, -- QE_CTX_BASE_HI
    ⟨0x3000C, [], [⟨31, 24, .rw, 0⟩, ⟨23, 16, .rw, 1⟩, ⟨15, 8, .rw, 3⟩, ⟨7, 0, .rw, 7⟩], true⟩, -- QE_ARB_WEIGHT
    ⟨0x30010, [], [⟨13, 0, .ro, 0⟩], false⟩, -- QE_TAG_INUSE
    ⟨0x30014, [], [⟨13, 0, .rw, 0⟩], false⟩, -- QE_TAG_PEAK
    ⟨0x30018, [], [⟨31, 0, .w1c, 0⟩], false⟩, -- QE_TAG_WAITS
    ⟨0x3001C, [], [⟨0, 0, .w1c, 0⟩], false⟩, -- QE_INT_STATUS
    ⟨0x30020, [], [⟨0, 0, .rw, 0⟩], false⟩, -- QE_INT_ENABLE
    ⟨0x30024, [], [⟨12, 0, .rw, 0⟩], false⟩, -- QE_QSEL
    ⟨0x30028, [], [⟨31, 30, .ro, 0⟩, ⟨29, 29, .ro, 0⟩, ⟨28, 28, .ro, 0⟩, ⟨12, 0, .ro, 0⟩], false⟩, -- QE_QSTATE
    ⟨0x3002C, [], [⟨31, 16, .ro, 0⟩, ⟨15, 0, .ro, 0⟩], false⟩, -- QE_QHEADS
    ⟨0x30030, [], [⟨15, 0, .ro, 0⟩], false⟩, -- QE_QCQ_TAIL
    ⟨0x30034, [], [⟨18, 16, .ro, 0⟩, ⟨15, 0, .ro, 0⟩], false⟩, -- QE_QERR_INDEX
    ⟨0x18000, [(2048, 0x10), (4, 4)], [⟨31, 0, .rw, 0⟩], false⟩] -- QE_FN_MSIX_W

/-- Registers of the QE window (part 1). -/
def regsQe1 : List RegRow :=
  [ ⟨0x20000, [(64, 4)], [⟨31, 0, .ro, 0⟩], false⟩] -- QE_FN_PBA_W

/-- Registers of the DMA window. -/
def regsDma : List RegRow :=
  [ ⟨0x300000, [], [⟨1, 1, .rw, 1⟩, ⟨0, 0, .rw, 1⟩], true⟩, -- DMA_CTL
    ⟨0x300004, [], [⟨31, 0, .ro, 0⟩], false⟩, -- DMA_BUSY_LO
    ⟨0x300008, [], [⟨31, 0, .ro, 0⟩], false⟩, -- DMA_BUSY_HI
    ⟨0x30000C, [], [⟨1, 1, .w1c, 0⟩, ⟨0, 0, .w1c, 0⟩], false⟩, -- DMA_INT_STATUS
    ⟨0x300010, [], [⟨1, 0, .rw, 0⟩], false⟩, -- DMA_INT_ENABLE
    ⟨0x300100, [(16, 0x10)], [⟨1, 1, .rw, 0⟩, ⟨0, 0, .rw, 0⟩], false⟩, -- DMA_TMRt_CTL
    ⟨0x300104, [(16, 0x10)], [⟨31, 0, .rw, 0x3E8⟩], false⟩, -- DMA_TMRt_PERIOD
    ⟨0x300108, [(16, 0x10)], [⟨31, 0, .ro, 0⟩], false⟩, -- DMA_TMRt_LEFT
    ⟨0x301000, [(64, 0x40)], [⟨31, 6, .rw, 0⟩], true⟩, -- DMA_CHc_CTX_LO
    ⟨0x301004, [(64, 0x40)], [⟨15, 0, .rw, 0⟩], true⟩, -- DMA_CHc_CTX_HI
    ⟨0x301008, [(64, 0x40)], [⟨31, 0, .wo, 0⟩], false⟩, -- DMA_CHc_DOORBELL
    ⟨0x30100C, [(64, 0x40)], [⟨15, 0, .rw, 0⟩], false⟩, -- DMA_CHc_CHEAD
    ⟨0x301010, [(64, 0x40)], [⟨1, 1, .wo, 0⟩, ⟨0, 0, .rw, 0⟩], true⟩, -- DMA_CHc_CTL
    ⟨0x301014, [(64, 0x40)], [⟨31, 31, .ro, 0⟩, ⟨15, 0, .ro, 0⟩], false⟩, -- DMA_CHc_STATUS
    ⟨0x301018, [(64, 0x40)], [⟨13, 8, .rw, 0⟩, ⟨5, 4, .rw, 0⟩, ⟨1, 0, .rw, 0⟩], true⟩, -- DMA_CHc_CFG
    ⟨0x30101C, [(64, 0x40)], [⟨31, 31, .w1c, 0⟩, ⟨7, 0, .ro, 0⟩], false⟩, -- DMA_CHc_TRIGS
    ⟨0x301020, [(64, 0x40)], [⟨31, 0, .ro, 0⟩], false⟩, -- DMA_CHc_BYTES_LO
    ⟨0x301024, [(64, 0x40)], [⟨31, 0, .ro, 0⟩], false⟩, -- DMA_CHc_BYTES_HI
    ⟨0x302000, [(64, 0x20)], [⟨31, 0, .rw, 0⟩], false⟩, -- DMA_CHc_REG_SRC_LO
    ⟨0x302004, [(64, 0x20)], [⟨31, 0, .rw, 0⟩], false⟩, -- DMA_CHc_REG_SRC_HI
    ⟨0x302008, [(64, 0x20)], [⟨31, 0, .rw, 0⟩], false⟩, -- DMA_CHc_REG_DST_LO
    ⟨0x30200C, [(64, 0x20)], [⟨31, 0, .rw, 0⟩], false⟩, -- DMA_CHc_REG_DST_HI
    ⟨0x302010, [(64, 0x20)], [⟨31, 0, .rw, 0⟩], false⟩, -- DMA_CHc_REG_COUNT
    ⟨0x302014, [(64, 0x20)], [⟨31, 31, .wo, 0⟩, ⟨22, 16, .rw, 0⟩, ⟨1, 1, .rw, 0⟩, ⟨0, 0, .rw, 0⟩], false⟩, -- DMA_CHc_REG_CTL
    ⟨0x302018, [(64, 0x20)], [⟨31, 31, .ro, 0⟩, ⟨30, 30, .w1c, 0⟩, ⟨15, 0, .ro, 0⟩], false⟩] -- DMA_CHc_REG_STATUS

/-- Registers of the HDS window (part 0). -/
def regsHds0 : List RegRow :=
  [ ⟨0x200000, [], [⟨0, 0, .rw, 0⟩], true⟩, -- HDS_CTL
    ⟨0x200004, [], [⟨31, 31, .w1c, 0⟩, ⟨10, 0, .ro, 0⟩], false⟩, -- HDS_STATUS
    ⟨0x200008, [], [⟨31, 19, .rw, 0⟩], true⟩, -- HDS_THR_BASE_LO
    ⟨0x20000C, [], [⟨15, 0, .rw, 0⟩], true⟩, -- HDS_THR_BASE_HI
    ⟨0x200010, [], [⟨31, 20, .rw, 0⟩], true⟩, -- HDS_INBOX_BASE_LO
    ⟨0x200014, [], [⟨15, 0, .rw, 0⟩], true⟩, -- HDS_INBOX_BASE_HI
    ⟨0x200018, [], [⟨4, 0, .rw, 0x10⟩], true⟩, -- HDS_SVC_PRIO
    ⟨0x20001C, [], [⟨31, 0, .w1c, 0⟩], false⟩, -- HDS_SPAWN_FULL
    ⟨0x200020, [], [⟨0, 0, .w1c, 0⟩], false⟩, -- HDS_INT_STATUS
    ⟨0x200024, [], [⟨0, 0, .rw, 0⟩], false⟩, -- HDS_INT_ENABLE
    ⟨0x200040, [(16, 8)], [⟨31, 30, .ro, 0⟩, ⟨25, 16, .ro, 0⟩, ⟨5, 5, .ro, 0⟩, ⟨4, 0, .ro, 0⟩], false⟩, -- HDS_COREc_STATUS
    ⟨0x200044, [(16, 8)], [⟨0, 0, .wo, 0⟩], true⟩, -- HDS_COREc_CTL
    ⟨0x201000, [(17, 0x20)], [⟨31, 31, .wo, 0⟩, ⟨25, 16, .rw, 0⟩, ⟨12, 8, .rw, 0⟩, ⟨3, 0, .rw, 0⟩], false⟩, -- HDS_SLOTs_CMD
    ⟨0x201004, [(17, 0x20)], [⟨31, 0, .rw, 0⟩], false⟩, -- HDS_SLOTs_ARG_LO
    ⟨0x201008, [(17, 0x20)], [⟨31, 0, .rw, 0⟩], false⟩, -- HDS_SLOTs_ARG_HI
    ⟨0x20100C, [(17, 0x20)], [⟨31, 31, .ro, 0⟩, ⟨15, 0, .ro, 0⟩], false⟩, -- HDS_SLOTs_STATUS
    ⟨0x202000, [(1024, 4)], [⟨15, 0, .ro, 0⟩], false⟩, -- HDS_EVTe
    ⟨0x203000, [(256, 4)], [⟨31, 0, .w1c, 0⟩], false⟩, -- HDS_INBOX_PENDi
    ⟨0x204000, [(1024, 4)], [⟨31, 29, .ro, 0⟩, ⟨25, 16, .ro, 0⟩, ⟨4, 0, .ro, 0⟩], false⟩, -- HDS_THRt_STATE
    ⟨0x208000, [(64, 0x200), (16, 0x20)], [⟨31, 12, .rw, 0⟩], true⟩, -- HDS_WSETs_WINw_PBASE_LO
    ⟨0x208004, [(64, 0x200), (16, 0x20)], [⟨15, 0, .rw, 0⟩], true⟩, -- HDS_WSETs_WINw_PBASE_HI
    ⟨0x208008, [(64, 0x200), (16, 0x20)], [⟨31, 12, .rw, 0⟩], true⟩, -- HDS_WSETs_WINw_PLIM_LO
    ⟨0x20800C, [(64, 0x200), (16, 0x20)], [⟨15, 0, .rw, 0⟩], true⟩, -- HDS_WSETs_WINw_PLIM_HI
    ⟨0x208010, [(64, 0x200), (16, 0x20)], [⟨31, 12, .rw, 0⟩], true⟩, -- HDS_WSETs_WINw_DBASE_LO
    ⟨0x208014, [(64, 0x200), (16, 0x20)], [⟨15, 0, .rw, 0⟩], true⟩] -- HDS_WSETs_WINw_DBASE_HI

/-- Registers of the HDS window (part 1). -/
def regsHds1 : List RegRow :=
  [ ⟨0x208018, [(64, 0x200), (16, 0x20)], [⟨4, 0, .rw, 0⟩], true⟩] -- HDS_WSETs_WINw_CTRL

/-- Registers of the GLB window (part 0). -/
def regsGlb0 : List RegRow :=
  [ ⟨0xD00, [], [⟨31, 31, .wo, 0⟩, ⟨30, 30, .ro, 0⟩, ⟨21, 16, .rw, 0⟩, ⟨15, 0, .ro, 0⟩], true⟩, -- GLB_HBM_RETIRE_CMD
    ⟨0xD04, [], [⟨31, 0, .ro, 0⟩], true⟩, -- GLB_HBM_RETIRED_LO
    ⟨0xD08, [], [⟨31, 0, .ro, 0⟩], true⟩, -- GLB_HBM_RETIRED_HI
    ⟨0xD0C, [], [⟨7, 0, .ro, 0xC0⟩], true⟩, -- GLB_HBM_LIMIT
    ⟨0xD10, [], [⟨15, 14, .rw, 2⟩, ⟨13, 12, .rw, 0⟩, ⟨11, 10, .rw, 1⟩, ⟨9, 8, .rw, 2⟩, ⟨7, 6, .rw, 3⟩, ⟨5, 4, .rw, 0⟩, ⟨3, 2, .rw, 2⟩, ⟨1, 0, .rw, 1⟩], true⟩, -- GLB_HBM_CLASS
    ⟨0xD40, [(8, 0x10)], [⟨31, 31, .rw, 0⟩, ⟨23, 16, .rw, 0⟩, ⟨15, 8, .rw, 0⟩, ⟨7, 0, .rw, 0⟩], true⟩, -- GLB_MIRm_CFG
    ⟨0xD44, [(8, 0x10)], [⟨31, 31, .wo, 0⟩, ⟨30, 30, .ro, 0⟩, ⟨0, 0, .ro, 0⟩], true⟩, -- GLB_MIRm_CTL
    ⟨0xD48, [(8, 0x10)], [⟨31, 0, .ro, 0⟩], true⟩, -- GLB_MIRm_DEG_LO
    ⟨0xD4C, [(8, 0x10)], [⟨31, 0, .ro, 0⟩], true⟩, -- GLB_MIRm_DEG_HI
    ⟨0xE00, [], [⟨5, 5, .rw, 0⟩, ⟨4, 4, .rw, 0⟩, ⟨3, 3, .rw, 0⟩, ⟨2, 2, .rw, 0⟩, ⟨1, 1, .rw, 0⟩, ⟨0, 0, .rw, 0⟩], true⟩, -- GLB_ARB_FREEZE
    ⟨0xE04, [], [⟨5, 0, .ro, 0x3F⟩], false⟩, -- GLB_ARB_IDLE
    ⟨0xF00, [], [⟨31, 31, .wo, 0⟩, ⟨30, 30, .wo, 0⟩, ⟨1, 0, .rw, 0⟩], true⟩, -- GLB_PAIR_CTL
    ⟨0xF04, [], [⟨31, 30, .ro, 0⟩, ⟨27, 26, .ro, 0⟩, ⟨25, 25, .ro, 0⟩, ⟨15, 0, .ro, 0⟩], true⟩, -- GLB_PAIR_STATUS
    ⟨0xF08, [], [⟨31, 0, .ro, 0⟩], true⟩, -- GLB_PAIR_PEER_LO
    ⟨0xF0C, [], [⟨31, 0, .ro, 0⟩], true⟩, -- GLB_PAIR_PEER_HI
    ⟨0xF10, [], [⟨31, 0, .ro, 0⟩], true⟩, -- GLB_PAIR_GEN
    ⟨0x0, [], [⟨31, 16, .ro, 0x9440⟩, ⟨15, 0, .ro, 0xC1A⟩], true⟩, -- GLB_IDENT_LO
    ⟨0x4, [], [⟨11, 8, .ro, 0⟩, ⟨7, 4, .ro, 1⟩, ⟨3, 0, .ro, 2⟩], true⟩, -- GLB_IDENT_HI
    ⟨0x10, [], [⟨31, 16, .wo, 0⟩, ⟨1, 0, .wo, 0⟩], true⟩, -- GLB_RESET
    ⟨0x14, [], [⟨3, 0, .ro, 0⟩], true⟩, -- GLB_RESET_CAUSE
    ⟨0x18, [], [⟨31, 31, .wo, 0⟩, ⟨30, 30, .rw, 0⟩, ⟨25, 0, .rw, 0⟩], true⟩, -- GLB_BOOT_CTL
    ⟨0x1C, [], [⟨31, 28, .ro, 0⟩, ⟨27, 26, .ro, 0⟩, ⟨15, 0, .ro, 0⟩], true⟩, -- GLB_BOOT_STATUS
    ⟨0x20, [], [⟨31, 31, .w1s, 0⟩, ⟨15, 0, .rw, 0xEA60⟩], true⟩, -- GLB_WDOG_CTL
    ⟨0x24, [], [⟨31, 0, .wo, 0⟩], true⟩, -- GLB_WDOG_KICK
    ⟨0x28, [], [⟨0, 0, .w1s, 0⟩], true⟩] -- GLB_BOOT_OK

/-- Registers of the GLB window (part 1). -/
def regsGlb1 : List RegRow :=
  [ ⟨0x2C, [], [⟨13, 8, .ro, 0⟩, ⟨7, 4, .ro, 0⟩, ⟨3, 0, .ro, 0⟩], true⟩, -- GLB_FUSE
    ⟨0x30, [], [⟨2, 0, .wo, 0⟩], true⟩, -- GLB_MODE_CTL
    ⟨0xC80, [], [⟨31, 0, .w1c, 0⟩], true⟩, -- GLB_TILE_FAILING_LO
    ⟨0xC84, [], [⟨31, 0, .w1c, 0⟩], true⟩, -- GLB_TILE_FAILING_HI
    ⟨0xC88, [], [⟨31, 0, .w1s, 0⟩], true⟩, -- GLB_TILE_RETIRED_LO
    ⟨0xC8C, [], [⟨31, 0, .w1s, 0⟩], true⟩, -- GLB_TILE_RETIRED_HI
    ⟨0x400, [(8, 4)], [⟨31, 31, .rw, 0⟩, ⟨15, 8, .rw, 0⟩, ⟨7, 0, .rw, 0⟩], false⟩, -- GLB_AFFn
    ⟨0x800, [(143, 8)], [⟨31, 31, .rw, 0⟩, ⟨17, 0, .rw, 0⟩], true⟩, -- GLB_B4MAPn_LO
    ⟨0x804, [(143, 8)], [⟨31, 0, .rw, 0xFFFFFFFF⟩], true⟩] -- GLB_B4MAPn_HI

/-- Registers of the MC window. -/
def regsMc : List RegRow :=
  [ ⟨0x400000, [(64, 0x1000)], [⟨31, 30, .ro, 0⟩, ⟨8, 8, .ro, 0⟩, ⟨7, 7, .ro, 0⟩], true⟩, -- MCn_STATUS
    ⟨0x400004, [(64, 0x1000)], [⟨1, 1, .wo, 0⟩, ⟨0, 0, .wo, 0⟩], true⟩, -- MCn_CTL
    ⟨0x400008, [(64, 0x1000)], [⟨1, 1, .w1c, 0⟩, ⟨0, 0, .w1c, 0⟩], true⟩, -- MCn_INT_STATUS
    ⟨0x40000C, [(64, 0x1000)], [⟨1, 0, .rw, 0⟩], true⟩, -- MCn_INT_ENABLE
    ⟨0x400010, [(64, 0x1000)], [⟨31, 0, .w1c, 0⟩], true⟩, -- MCn_CE_COUNT
    ⟨0x400014, [(64, 0x1000)], [⟨31, 0, .w1c, 0⟩], true⟩, -- MCn_TRANSIENT_COUNT
    ⟨0x400018, [(64, 0x1000)], [⟨31, 0, .w1c, 0⟩], true⟩, -- MCn_UE_COUNT
    ⟨0x40001C, [(64, 0x1000)], [⟨7, 0, .ro, 0⟩], true⟩, -- MCn_TEMP
    ⟨0x400020, [(64, 0x1000)], [⟨23, 0, .rw, 0x3584⟩], true⟩, -- MCn_SCRUB_INTERVAL
    ⟨0x400024, [(64, 0x1000)], [⟨22, 0, .ro, 0⟩], true⟩, -- MCn_SCRUB_POS
    ⟨0x400028, [(64, 0x1000)], [⟨31, 0, .ro, 0⟩], true⟩, -- MCn_SCRUB_PASSES
    ⟨0x400040, [(64, 0x1000), (2, 0x20)], [⟨31, 24, .rw, 0⟩, ⟨23, 16, .rw, 0⟩, ⟨15, 8, .rw, 0⟩, ⟨7, 0, .rw, 0⟩], true⟩, -- MCn_TIMb0
    ⟨0x400044, [(64, 0x1000), (2, 0x20)], [⟨31, 24, .rw, 0⟩, ⟨23, 16, .rw, 0⟩, ⟨15, 8, .rw, 0⟩, ⟨7, 0, .rw, 0⟩], true⟩, -- MCn_TIMb1
    ⟨0x400048, [(64, 0x1000), (2, 0x20)], [⟨31, 16, .rw, 0⟩, ⟨15, 0, .rw, 0⟩], true⟩, -- MCn_TIMb2
    ⟨0x40004C, [(64, 0x1000), (2, 0x20)], [⟨2, 0, .rw, 0⟩], true⟩, -- MCn_TIMb3
    ⟨0x400080, [(64, 0x1000)], [⟨31, 0, .ro, 0⟩], true⟩, -- MCn_CAP_DPA_LO
    ⟨0x400084, [(64, 0x1000)], [⟨15, 0, .ro, 0⟩], true⟩, -- MCn_CAP_DPA_HI
    ⟨0x400088, [(64, 0x1000)], [⟨22, 21, .ro, 0⟩, ⟨20, 20, .ro, 0⟩, ⟨19, 16, .ro, 0⟩, ⟨14, 0, .ro, 0⟩], true⟩, -- MCn_CAP_LOC
    ⟨0x40008C, [(64, 0x1000)], [⟨31, 20, .ro, 0⟩, ⟨19, 18, .ro, 0⟩, ⟨17, 16, .ro, 0⟩, ⟨15, 0, .ro, 0⟩], true⟩, -- MCn_CAP_INFO
    ⟨0x400090, [(64, 0x1000)], [⟨31, 31, .wo, 0⟩, ⟨30, 30, .rw, 0⟩, ⟨22, 21, .rw, 0⟩, ⟨20, 20, .rw, 0⟩, ⟨19, 16, .rw, 0⟩, ⟨14, 0, .rw, 0⟩], true⟩, -- MCn_PPR
    ⟨0x400094, [(64, 0x1000)], [⟨31, 31, .ro, 0⟩, ⟨1, 0, .ro, 0⟩], true⟩, -- MCn_PPR_STATUS
    ⟨0x4000C0, [(64, 0x1000)], [⟨31, 31, .wo, 0⟩, ⟨30, 30, .ro, 0⟩], true⟩] -- MCn_STACK_CTL

/-- Registers of the SC window. -/
def regsSc : List RegRow :=
  [ ⟨0x540000, [], [⟨4, 4, .ro, 0⟩, ⟨3, 3, .ro, 0⟩, ⟨2, 2, .wo, 0⟩, ⟨1, 1, .rw, 1⟩, ⟨0, 0, .rw, 0⟩], true⟩, -- SC_CTL
    ⟨0x540004, [], [⟨14, 0, .rw, 0⟩], true⟩, -- SC_WAYLOCK
    ⟨0x540008, [], [⟨31, 7, .rw, 0⟩], true⟩, -- SC_RANGE_BASE_LO
    ⟨0x54000C, [], [⟨15, 0, .rw, 0⟩], true⟩, -- SC_RANGE_BASE_HI
    ⟨0x540010, [], [⟨31, 0, .rw, 0⟩], true⟩, -- SC_RANGE_LEN_LO
    ⟨0x540014, [], [⟨15, 0, .rw, 0⟩], true⟩, -- SC_RANGE_LEN_HI
    ⟨0x540018, [], [⟨31, 31, .wo, 0⟩, ⟨30, 30, .ro, 0⟩, ⟨18, 16, .rw, 0⟩, ⟨15, 0, .ro, 0⟩], true⟩, -- SC_RANGE_CMD
    ⟨0x54001C, [], [⟨31, 0, .w1c, 0⟩], true⟩, -- SC_LOCK_INVAL_COUNT
    ⟨0x540020, [], [⟨31, 0, .w1c, 0⟩], true⟩, -- SC_LOCK_FILL_SKIPPED
    ⟨0x500000, [(64, 0x1000)], [⟨0, 0, .rw, 0⟩], true⟩, -- SCs_CTL
    ⟨0x500004, [(64, 0x1000)], [⟨1, 1, .ro, 0⟩, ⟨0, 0, .ro, 1⟩], false⟩, -- SCs_STATUS
    ⟨0x500008, [(64, 0x1000)], [⟨31, 0, .ro, 0⟩], false⟩, -- SCs_HITS
    ⟨0x50000C, [(64, 0x1000)], [⟨31, 0, .ro, 0⟩], false⟩, -- SCs_MISSES
    ⟨0x500010, [(64, 0x1000)], [⟨31, 0, .w1c, 0⟩], false⟩, -- SCs_CE_COUNT
    ⟨0x500014, [(64, 0x1000)], [⟨31, 0, .w1c, 0⟩], false⟩, -- SCs_UE_COUNT
    ⟨0x500018, [(64, 0x1000)], [⟨31, 0, .w1c, 0⟩], false⟩] -- SCs_WB_WAITS

/-- Registers of the MSH window. -/
def regsMsh : List RegRow :=
  [ ⟨0x600000, [(64, 0x400)], [⟨0, 0, .rw, 0⟩], true⟩, -- MSHr_CTL
    ⟨0x600004, [(64, 0x400)], [⟨1, 1, .w1c, 0⟩, ⟨0, 0, .ro, 0⟩], true⟩, -- MSHr_STATUS
    ⟨0x600008, [(64, 0x400)], [⟨7, 4, .ro, 0⟩, ⟨3, 0, .ro, 0⟩], true⟩, -- MSHr_LINK
    ⟨0x60000C, [(64, 0x400)], [⟨1, 1, .w1c, 0⟩, ⟨0, 0, .w1c, 0⟩], true⟩, -- MSHr_INT_STATUS
    ⟨0x600010, [(64, 0x400)], [⟨1, 0, .rw, 0⟩], true⟩, -- MSHr_INT_ENABLE
    ⟨0x600020, [(64, 0x400), (4, 4)], [⟨31, 16, .w1c, 0⟩, ⟨15, 0, .w1c, 0⟩], true⟩, -- MSHr_RETXp
    ⟨0x600100, [(64, 0x400), (64, 4)], [⟨15, 14, .rw, 0⟩, ⟨5, 0, .rw, 0⟩], true⟩] -- MSHr_ROUTEd

/-- Registers of the HAT window (part 0). -/
def regsHat0 : List RegRow :=
  [ ⟨0x700000, [], [⟨0, 0, .rw, 0⟩], true⟩, -- HAT_CTL
    ⟨0x700004, [], [⟨31, 31, .rw, 0⟩, ⟨17, 0, .rw, 0⟩], true⟩, -- HAT_FID
    ⟨0x700008, [], [⟨25, 16, .rw, 0⟩, ⟨7, 0, .rw, 0⟩], true⟩, -- HAT_GROUP_CFG
    ⟨0x70000C, [], [⟨31, 31, .ro, 0⟩, ⟨30, 30, .ro, 0⟩, ⟨17, 0, .ro, 0⟩], true⟩, -- HAT_WARDEN
    ⟨0x700010, [], [⟨31, 31, .wo, 0⟩, ⟨30, 30, .ro, 0⟩, ⟨0, 0, .ro, 0⟩], true⟩, -- HAT_ROUTE_CTL
    ⟨0x700014, [], [⟨6, 6, .w1c, 0⟩, ⟨5, 5, .w1c, 0⟩, ⟨4, 4, .w1c, 0⟩, ⟨3, 3, .w1c, 0⟩, ⟨2, 2, .w1c, 0⟩, ⟨1, 1, .w1c, 0⟩, ⟨0, 0, .w1c, 0⟩], true⟩, -- HAT_INT_STATUS
    ⟨0x700018, [], [⟨6, 0, .rw, 0⟩], true⟩, -- HAT_INT_ENABLE
    ⟨0x70001C, [], [⟨12, 0, .ro, 0⟩], true⟩, -- HAT_TAGS
    ⟨0x700020, [], [⟨31, 0, .w1c, 0⟩], true⟩, -- HAT_TIMEOUTS
    ⟨0x700024, [], [⟨31, 0, .w1c, 0⟩], true⟩, -- HAT_RX_DISCARDS
    ⟨0x700040, [(4, 4)], [⟨31, 31, .rw, 0⟩, ⟨17, 0, .rw, 0⟩], true⟩, -- HAT_FMi
    ⟨0x700100, [(8, 0x40)], [⟨11, 8, .ro, 0⟩, ⟨5, 4, .ro, 0⟩, ⟨2, 0, .ro, 0⟩], true⟩, -- HAT_PORTp_STATE
    ⟨0x700104, [(8, 0x40)], [⟨31, 31, .ro, 0⟩, ⟨20, 18, .ro, 0⟩, ⟨17, 0, .ro, 0⟩], true⟩, -- HAT_PORTp_NBR
    ⟨0x700108, [(8, 0x40)], [⟨2, 2, .wo, 0⟩, ⟨1, 1, .wo, 0⟩, ⟨0, 0, .rw, 0⟩], true⟩, -- HAT_PORTp_CTL
    ⟨0x70010C, [(8, 0x40)], [⟨31, 0, .w1c, 0⟩], true⟩, -- HAT_PORTp_REPLAYS
    ⟨0x700110, [(8, 0x40)], [⟨31, 0, .w1c, 0⟩], true⟩, -- HAT_PORTp_RETRAINS
    ⟨0x700114, [(8, 0x40)], [⟨31, 0, .w1c, 0⟩], true⟩, -- HAT_PORTp_FEC_CORR
    ⟨0x700118, [(8, 0x40)], [⟨31, 0, .w1c, 0⟩], true⟩, -- HAT_PORTp_FEC_UNCORR
    ⟨0x70011C, [(8, 0x40)], [⟨31, 0, .w1c, 0⟩], true⟩, -- HAT_PORTp_DROPS
    ⟨0x701000, [(128, 0x10)], [⟨31, 0, .rw, 0⟩], true⟩, -- HAT_RAPn_TGT_LO
    ⟨0x701004, [(128, 0x10)], [⟨31, 0, .rw, 0⟩], true⟩, -- HAT_RAPn_TGT_HI
    ⟨0x701008, [(128, 0x10)], [⟨31, 0, .rw, 0⟩], true⟩, -- HAT_RAPn_ACL_LO
    ⟨0x70100C, [(128, 0x10)], [⟨31, 0, .rw, 0⟩], true⟩, -- HAT_RAPn_ACL_HI
    ⟨0x702000, [(128, 0x10)], [⟨31, 16, .rw, 0⟩], true⟩, -- HAT_EXPw_BASE_LO
    ⟨0x702004, [(128, 0x10)], [⟨15, 0, .rw, 0⟩], true⟩] -- HAT_EXPw_BASE_HI

/-- Registers of the HAT window (part 1). -/
def regsHat1 : List RegRow :=
  [ ⟨0x702008, [(128, 0x10)], [⟨31, 31, .rw, 0⟩, ⟨23, 0, .rw, 0⟩], true⟩, -- HAT_EXPw_SIZE
    ⟨0x703000, [(32, 0x20)], [⟨31, 6, .rw, 0⟩], true⟩, -- HAT_JRr_CTX_LO
    ⟨0x703004, [(32, 0x20)], [⟨15, 0, .rw, 0⟩], true⟩, -- HAT_JRr_CTX_HI
    ⟨0x703008, [(32, 0x20)], [⟨31, 0, .wo, 0⟩], false⟩, -- HAT_JRr_DOORBELL
    ⟨0x70300C, [(32, 0x20)], [⟨15, 0, .rw, 0⟩], false⟩, -- HAT_JRr_CHEAD
    ⟨0x703010, [(32, 0x20)], [⟨1, 1, .wo, 0⟩, ⟨0, 0, .rw, 0⟩], true⟩, -- HAT_JRr_CTL
    ⟨0x703014, [(32, 0x20)], [⟨31, 31, .ro, 0⟩, ⟨15, 0, .ro, 0⟩], true⟩, -- HAT_JRr_STATUS
    ⟨0x703800, [(64, 0x20)], [⟨31, 6, .rw, 0⟩], true⟩, -- HAT_LQq_CTX_LO
    ⟨0x703804, [(64, 0x20)], [⟨15, 0, .rw, 0⟩], true⟩, -- HAT_LQq_CTX_HI
    ⟨0x703808, [(64, 0x20)], [⟨15, 0, .rw, 0⟩], false⟩, -- HAT_LQq_HEAD
    ⟨0x70380C, [(64, 0x20)], [⟨1, 1, .wo, 0⟩, ⟨0, 0, .rw, 0⟩], true⟩, -- HAT_LQq_CTL
    ⟨0x703810, [(64, 0x20)], [⟨31, 31, .ro, 0⟩, ⟨15, 0, .ro, 0⟩], true⟩, -- HAT_LQq_STATUS
    ⟨0x710000, [(2, 0x8000), (1024, 8)], [⟨31, 0, .rw, 0⟩], true⟩, -- HAT_BANKb_GRPg_LO
    ⟨0x710004, [(2, 0x8000), (1024, 8)], [⟨31, 0, .rw, 0⟩], true⟩, -- HAT_BANKb_GRPg_HI
    ⟨0x712000, [(2, 0x8000), (256, 8)], [⟨31, 0, .rw, 0⟩], true⟩, -- HAT_BANKb_MBRm_LO
    ⟨0x712004, [(2, 0x8000), (256, 8)], [⟨31, 0, .rw, 0⟩], true⟩] -- HAT_BANKb_MBRm_HI

/-- Registers of the PLT window (part 0). -/
def regsPlt0 : List RegRow :=
  [ ⟨0x780000, [], [⟨2, 2, .rw, 0⟩, ⟨1, 1, .rw, 0⟩, ⟨0, 0, .rw, 0⟩], true⟩, -- PLT_CTL
    ⟨0x780004, [], [⟨31, 29, .ro, 0⟩, ⟨28, 28, .ro, 0⟩, ⟨27, 27, .ro, 0⟩, ⟨26, 25, .ro, 0⟩, ⟨24, 24, .ro, 0⟩, ⟨15, 0, .ro, 0⟩], true⟩, -- PLT_STATUS
    ⟨0x780008, [], [⟨12, 0, .rw, 0xFA0⟩], true⟩, -- PLT_ETCH_DEADLINE
    ⟨0x78000C, [], [⟨15, 0, .rw, 0x1F40⟩], true⟩, -- PLT_BG_RATE
    ⟨0x780010, [], [⟨31, 0, .wo, 0⟩], true⟩, -- PLT_FREEZE_EPOCH_LO
    ⟨0x780014, [], [⟨31, 0, .wo, 0⟩], true⟩, -- PLT_FREEZE_EPOCH_HI
    ⟨0x780018, [], [⟨0, 0, .wo, 0⟩], true⟩, -- PLT_ETCH_GO
    ⟨0x780020, [], [⟨31, 5, .rw, 0⟩], true⟩, -- PLT_REGION_BASE_LO
    ⟨0x780024, [], [⟨15, 0, .rw, 0⟩], true⟩, -- PLT_REGION_BASE_HI
    ⟨0x780028, [], [⟨31, 31, .wo, 0⟩, ⟨30, 30, .ro, 0⟩, ⟨24, 16, .rw, 0⟩, ⟨15, 0, .ro, 0⟩], true⟩, -- PLT_REGION_CMD
    ⟨0x780030, [], [⟨31, 23, .rw, 0⟩], true⟩, -- PLT_WORK_BASE_LO
    ⟨0x780034, [], [⟨15, 0, .rw, 0⟩], true⟩, -- PLT_WORK_BASE_HI
    ⟨0x780038, [], [⟨16, 0, .ro, 0⟩], true⟩, -- PLT_LIMIT
    ⟨0x78003C, [], [⟨16, 0, .ro, 0⟩], true⟩, -- PLT_RESIDENT
    ⟨0x780040, [], [⟨16, 0, .ro, 0⟩], true⟩, -- PLT_DIRTY
    ⟨0x780044, [], [⟨15, 0, .ro, 0⟩], true⟩, -- PLT_BANK_ENERGY
    ⟨0x780048, [], [⟨15, 0, .ro, 0⟩], true⟩, -- PLT_BANK_USABLE
    ⟨0x78004C, [], [⟨31, 16, .ro, 0⟩, ⟨3, 3, .ro, 0⟩, ⟨2, 2, .ro, 0⟩, ⟨1, 1, .ro, 0⟩, ⟨0, 0, .ro, 0⟩], true⟩, -- PLT_BANK_STATUS
    ⟨0x780050, [], [⟨5, 5, .w1c, 0⟩, ⟨4, 4, .w1c, 0⟩, ⟨3, 3, .w1c, 0⟩, ⟨2, 2, .w1c, 0⟩, ⟨1, 1, .w1c, 0⟩, ⟨0, 0, .w1c, 0⟩], true⟩, -- PLT_INT_STATUS
    ⟨0x780054, [], [⟨5, 0, .rw, 0⟩], true⟩, -- PLT_INT_ENABLE
    ⟨0x780060, [(4, 4)], [⟨31, 30, .ro, 0⟩, ⟨15, 8, .ro, 0⟩, ⟨7, 0, .ro, 0⟩], true⟩, -- PLT_DEVd_STATUS
    ⟨0x781000, [(4, 0x20)], [⟨31, 6, .rw, 0⟩], true⟩, -- PLT_RINGr_CTX_LO
    ⟨0x781004, [(4, 0x20)], [⟨15, 0, .rw, 0⟩], true⟩, -- PLT_RINGr_CTX_HI
    ⟨0x781008, [(4, 0x20)], [⟨31, 0, .wo, 0⟩], false⟩, -- PLT_RINGr_DOORBELL
    ⟨0x78100C, [(4, 0x20)], [⟨15, 0, .rw, 0⟩], false⟩] -- PLT_RINGr_CHEAD

/-- Registers of the PLT window (part 1). -/
def regsPlt1 : List RegRow :=
  [ ⟨0x781010, [(4, 0x20)], [⟨1, 1, .wo, 0⟩, ⟨0, 0, .rw, 0⟩], true⟩, -- PLT_RINGr_CTL
    ⟨0x781014, [(4, 0x20)], [⟨31, 31, .ro, 0⟩, ⟨15, 0, .ro, 0⟩], true⟩] -- PLT_RINGr_STATUS

/-- Registers of the STY window. -/
def regsSty : List RegRow :=
  [ ⟨0x1000, [], [⟨2, 0, .ro, 0⟩], true⟩, -- STY_DEV_MODE
    ⟨0x1004, [], [⟨31, 31, .wo, 0⟩, ⟨30, 30, .ro, 0⟩, ⟨15, 0, .ro, 0⟩], true⟩, -- STY_VIGIL_CTL
    ⟨0x1008, [], [⟨7, 7, .ro, 1⟩, ⟨6, 0, .rw, 0x7F⟩], true⟩, -- STY_WAKE_EN
    ⟨0x100C, [], [⟨18, 16, .ro, 0⟩, ⟨15, 8, .ro, 0⟩, ⟨7, 0, .w1c, 0⟩], true⟩, -- STY_WAKE_CAUSE
    ⟨0x1010, [], [⟨31, 0, .ro, 0⟩], true⟩, -- STY_TIME_LO
    ⟨0x1014, [], [⟨31, 0, .ro, 0⟩], true⟩, -- STY_TIME_HI
    ⟨0x1018, [], [⟨31, 0, .rw, 0⟩], true⟩, -- STY_ALARM_LO
    ⟨0x101C, [], [⟨31, 0, .rw, 0xFFFFFFFF⟩], true⟩, -- STY_ALARM_HI
    ⟨0x1020, [], [⟨31, 31, .ro, 0⟩, ⟨15, 0, .ro, 0⟩], true⟩, -- STY_SUPPLY
    ⟨0x1024, [], [⟨31, 16, .ro, 0⟩, ⟨15, 0, .ro, 0⟩], true⟩, -- STY_POWER
    ⟨0x1028, [], [⟨9, 0, .rw, 0x28A⟩], true⟩, -- STY_PWR_LIMIT
    ⟨0x102C, [], [⟨15, 8, .rw, 0x6E⟩, ⟨7, 0, .rw, 0x64⟩], true⟩, -- STY_THERM_CTL
    ⟨0x1030, [], [⟨31, 24, .ro, 0⟩, ⟨11, 0, .ro, 0⟩], true⟩, -- STY_THERM_STATUS
    ⟨0x1034, [], [⟨3, 3, .w1c, 0⟩, ⟨2, 2, .w1c, 0⟩, ⟨1, 1, .w1c, 0⟩, ⟨0, 0, .w1c, 0⟩], true⟩, -- STY_INT_STATUS
    ⟨0x1038, [], [⟨3, 0, .rw, 0⟩], true⟩, -- STY_INT_ENABLE
    ⟨0x103C, [], [⟨31, 0, .w1c, 0⟩], true⟩, -- STY_SAVE_SKIPS
    ⟨0x1040, [(4, 4)], [⟨31, 31, .ro, 0⟩, ⟨30, 30, .ro, 0⟩, ⟨6, 4, .ro, 0⟩, ⟨3, 3, .rw, 0⟩, ⟨2, 0, .rw, 1⟩], true⟩, -- STY_QPLLk
    ⟨0x1050, [], [⟨15, 8, .wo, 0⟩, ⟨7, 0, .wo, 0⟩], true⟩, -- STY_WAKE_SEND
    ⟨0x1060, [(16, 4)], [⟨7, 0, .ro, 0⟩], true⟩, -- STY_TSENSs
    ⟨0x1100, [(17, 8)], [⟨31, 31, .wo, 0⟩, ⟨30, 30, .wo, 0⟩, ⟨0, 0, .rw, 0⟩], true⟩, -- STY_DOMd_CTL
    ⟨0x1104, [(17, 8)], [⟨31, 30, .ro, 2⟩, ⟨15, 0, .ro, 0⟩], true⟩, -- STY_DOMd_STATUS
    ⟨0x1200, [], [⟨4, 0, .ro, 0⟩], true⟩, -- STY_RLOG_WR
    ⟨0x1300, [(32, 0x10)], [⟨31, 24, .ro, 0⟩, ⟨23, 16, .ro, 0⟩, ⟨15, 8, .ro, 0⟩], true⟩, -- STY_RLOGi_INFO
    ⟨0x1308, [(32, 0x10)], [⟨31, 0, .ro, 0⟩], true⟩, -- STY_RLOGi_TIME_LO
    ⟨0x130C, [(32, 0x10)], [⟨31, 0, .ro, 0⟩], true⟩] -- STY_RLOGi_TIME_HI

/-- Registers of the MGT window. -/
def regsMgt : List RegRow :=
  [ ⟨0x7C0000, [], [⟨2, 2, .rw, 1⟩, ⟨1, 1, .rw, 1⟩, ⟨0, 0, .rw, 1⟩], true⟩, -- MGT_CTL
    ⟨0x7C0004, [], [⟨15, 15, .ro, 0⟩, ⟨14, 14, .ro, 0⟩, ⟨13, 13, .ro, 0⟩, ⟨12, 12, .ro, 0⟩, ⟨3, 0, .ro, 0⟩], true⟩, -- MGT_STATUS
    ⟨0x7C0008, [], [⟨31, 31, .ro, 0⟩, ⟨6, 0, .ro, 0⟩], true⟩, -- MGT_I3C
    ⟨0x7C000C, [], [⟨7, 0, .ro, 0⟩], true⟩, -- MGT_EID
    ⟨0x7C0010, [], [⟨31, 16, .w1c, 0⟩, ⟨15, 0, .w1c, 0⟩], true⟩] -- MGT_BUS_ERRORS

/-- The registers of the unit window an offset lies in (R225). -/
def regRowsOf (off : Nat) : List RegRow :=
  if off < 0x1000 then regsGlb0 ++ regsGlb1
  else if off < 0x2000 then regsSty
  else if off < 0x10000 then regsGrd
  else if off < 0x200000 then regsQe0 ++ regsQe1
  else if off < 0x300000 then regsHds0 ++ regsHds1
  else if off < 0x310000 then regsDma
  else if off < 0x320000 then regsStp
  else if off < 0x330000 then regsPrf
  else if off < 0x400000 then regsGau0 ++ regsGau1
  else if off < 0x500000 then regsMc
  else if off < 0x600000 then regsSc
  else if off < 0x700000 then regsMsh
  else if off < 0x780000 then regsHat0 ++ regsHat1
  else if off < 0x7C0000 then regsPlt0 ++ regsPlt1
  else if off < 0x800000 then regsMgt
  else if off < 0xC00000 then regsTil0 ++ regsTil1
  else []

/-- The register row an offset names, if any (R512). -/
def regRow? (off : Nat) : Option RegRow := (regRowsOf off).find? (fun r => r.covers off)

/-- The register pairs of R7 (part 0): the BAR0 offset of the LO word, instance counts and strides. -/
def pairRows0 : List (Nat × List (Nat × Nat)) :=
  [(0x800008, [(64, 0x10000)]), -- TILn_EXC_PC
   (0x800010, [(64, 0x10000)]), -- TILn_EXC_ADDR
   (0x800020, [(64, 0x10000)]), -- TILn_PC
   (0x800100, [(64, 0x10000), (32, 8)]), -- TILn_Xx
   (0x801000, [(64, 0x10000), (16, 0x20)]), -- TILn_WINw_PBASE
   (0x801008, [(64, 0x10000), (16, 0x20)]), -- TILn_WINw_PLIM
   (0x801010, [(64, 0x10000), (16, 0x20)]), -- TILn_WINw_DBASE
   (0x800300, [(64, 0x10000)]), -- TILn_VCFG
   (0x330008, []), -- GAU_SHADOW_BASE
   (0x340020, [(16, 0x100)]), -- GAU_SLOTs_RESULT
   (0x340040, [(16, 0x100), (4, 0x10)]), -- GAU_SLOTs_Uu_VALUE
   (0x340048, [(16, 0x100), (4, 0x10)]), -- GAU_SLOTs_Uu_CARE
   (0x310108, [(16, 0x10)]), -- STP_ENGe_BYTES
   (0x311000, [(16, 0x20)]), -- STP_RINGr_CTX
   (0x320108, [(8, 0x10)]), -- PRF_ENGe_BLOCKS
   (0x321000, [(32, 0x20)]), -- PRF_RINGr_CTX
   (0x10010, []), -- QE_FN_AQ_SQ_BASE
   (0x10018, []), -- QE_FN_AQ_CQ_BASE
   (0x30004, []), -- QE_CTX_BASE
   (0x300004, []), -- DMA_BUSY
   (0x301000, [(64, 0x40)]), -- DMA_CHc_CTX
   (0x301020, [(64, 0x40)]), -- DMA_CHc_BYTES
   (0x302000, [(64, 0x20)]), -- DMA_CHc_REG_SRC
   (0x302008, [(64, 0x20)]), -- DMA_CHc_REG_DST
   (0x200008, [])] -- HDS_THR_BASE

/-- The register pairs of R7 (part 1): the BAR0 offset of the LO word, instance counts and strides. -/
def pairRows1 : List (Nat × List (Nat × Nat)) :=
  [(0x200010, []), -- HDS_INBOX_BASE
   (0x201004, [(17, 0x20)]), -- HDS_SLOTs_ARG
   (0xD04, []), -- GLB_HBM_RETIRED
   (0xD48, [(8, 0x10)]), -- GLB_MIRm_DEG
   (0x400080, [(64, 0x1000)]), -- MCn_CAP_DPA
   (0x540008, []), -- SC_RANGE_BASE
   (0x540010, []), -- SC_RANGE_LEN
   (0x701000, [(128, 0x10)]), -- HAT_RAPn_TGT
   (0x701008, [(128, 0x10)]), -- HAT_RAPn_ACL
   (0x702000, [(128, 0x10)]), -- HAT_EXPw_BASE
   (0x703000, [(32, 0x20)]), -- HAT_JRr_CTX
   (0x703800, [(64, 0x20)]), -- HAT_LQq_CTX
   (0x710000, [(2, 0x8000), (1024, 8)]), -- HAT_BANKb_GRPg
   (0x712000, [(2, 0x8000), (256, 8)]), -- HAT_BANKb_MBRm
   (0xF08, []), -- GLB_PAIR_PEER
   (0x780010, []), -- PLT_FREEZE_EPOCH
   (0x780020, []), -- PLT_REGION_BASE
   (0x780030, []), -- PLT_WORK_BASE
   (0x781000, [(4, 0x20)]), -- PLT_RINGr_CTX
   (0x1010, []), -- STY_TIME
   (0x1018, []), -- STY_ALARM
   (0x1308, [(32, 0x10)]), -- STY_RLOGi_TIME
   (0x0, []), -- GLB_IDENT
   (0xC80, []), -- GLB_TILE_FAILING
   (0xC88, [])] -- GLB_TILE_RETIRED

/-- The register pairs of R7 (part 2): the BAR0 offset of the LO word, instance counts and strides. -/
def pairRows2 : List (Nat × List (Nat × Nat)) :=
  [(0x800, [(143, 8)]), -- GLB_B4MAPn
   (0x208000, [(64, 0x200), (16, 0x20)]), -- HDS_WSETs_WINw_PBASE
   (0x208008, [(64, 0x200), (16, 0x20)]), -- HDS_WSETs_WINw_PLIM
   (0x208010, [(64, 0x200), (16, 0x20)]), -- HDS_WSETs_WINw_DBASE
   (0x5000, [(12, 0xC00), (128, 0x18)]), -- GRD_GRANTtg_CONTROL
   (0x5008, [(12, 0xC00), (128, 0x18)]), -- GRD_GRANTtg_BASE
   (0x5010, [(12, 0xC00), (128, 0x18)])] -- GRD_GRANTtg_LIMIT

/-- The offset is the LO word of a register pair (R7). -/
def isPairLo (off : Nat) : Bool := (pairRows0 ++ pairRows1 ++ pairRows2).any (fun r => r.1 ≤ off && inDims r.2 (off - r.1))

end Sys2Proof.Machine
end

