-- ==== Sys2Proof/Machine/Map.lean ====
section
/-! DEFINITION. Sparse maps from numbers, the one canonical form in which memory, registers and every other large store of
the machine are held: keys strictly rising, and no entry equal to what an unlisted key reads as. -/

namespace Sys2Proof.Machine

/-- A sparse map; a `List Host.Cell` is one whose values are bytes. -/
abbrev FMap (α : Type) := List (Nat × α)

variable {α : Type}

/-- What key `k` reads as, `d` giving the unlisted keys. -/
def FMap.get (d : Nat → α) : FMap α → Nat → α
  | [], k => d k
  | (k', v) :: m, k => if k' = k then v else FMap.get d m k

/-- One entry put in front of a map, or left out where it is the default. -/
def FMap.cons [DecidableEq α] (d : Nat → α) (k : Nat) (v : α) (m : FMap α) : FMap α :=
  if v = d k then m else (k, v) :: m

/-- The map without the entries of `k`. -/
def FMap.erase (m : FMap α) (k : Nat) : FMap α := m.filter (fun e => e.1 != k)

/-- The map with `k` set to `v`, in canonical form where it was; an entry of `k` that stands out of order goes too. -/
def FMap.set [DecidableEq α] (d : Nat → α) : FMap α → Nat → α → FMap α
  | [], k, v => FMap.cons d k v []
  | (k', v') :: m, k, v =>
    if k < k' then FMap.cons d k v ((k', v') :: FMap.erase m k)
    else if k = k' then FMap.cons d k v (FMap.erase m k)
    else (k', v') :: FMap.set d m k v

/-- Every listed key is above `b`, keys rise, and no entry is the default. -/
def FMap.wfFrom [DecidableEq α] (d : Nat → α) : Nat → FMap α → Bool
  | _, [] => true
  | b, (k, v) :: m => decide (b ≤ k) && decide (v ≠ d k) && FMap.wfFrom d (k + 1) m

/-- The canonical form. -/
def FMap.wf [DecidableEq α] (d : Nat → α) (m : FMap α) : Bool := FMap.wfFrom d 0 m

/-- A map whose unlisted keys all read as the type's plain value. -/
def FMap.getD [Inhabited α] (m : FMap α) (k : Nat) : α := FMap.get (fun _ => default) m k

/-- Setting in a map whose unlisted keys read as the plain value. -/
def FMap.setD [Inhabited α] [DecidableEq α] (m : FMap α) (k : Nat) (v : α) : FMap α := FMap.set (fun _ => default) m k v

/-- The listed keys for which `p` holds, in order. -/
def FMap.keysWhere (m : FMap α) (p : Nat → α → Bool) : List Nat := (m.filter (fun e => p e.1 e.2)).map (·.1)

/-- The entries for which `p` holds. -/
def FMap.keep (m : FMap α) (p : Nat → α → Bool) : FMap α := m.filter (fun e => p e.1 e.2)

/-- `x` put into a sorted list, before every element it does not follow. -/
def sortInsert (le : α → α → Bool) (x : α) : List α → List α
  | [] => [x]
  | y :: ys => if le x y then x :: y :: ys else y :: sortInsert le x ys

/-- The stable sort of a list. -/
def sortBy (le : α → α → Bool) (xs : List α) : List α := xs.foldr (sortInsert le) []

/-- `k` bytes of a byte map from address `a`. -/
def FMap.bytes (d : Nat → Byte) (m : FMap Byte) (a : Nat) : Nat → List Byte
  | 0 => []
  | k + 1 => FMap.get d m a :: FMap.bytes d m (a + 1) k

/-- Bytes stored from address `a` up. -/
def FMap.store (d : Nat → Byte) (m : FMap Byte) (a : Nat) : List Byte → FMap Byte
  | [] => m
  | b :: bs => FMap.store d (FMap.set d m a b) (a + 1) bs

end Sys2Proof.Machine
end

