-- ==== Sys2Proof/Machine/State.lean ====
section
/-! DEFINITION. The state of the block as plain data. -/

namespace Sys2Proof.Machine

/-- A 64-bit register pair's held LO or captured HI, with the master it is tagged with (R7). -/
structure Tagged where
  master : Nat
  value : Word
  deriving DecidableEq, Repr

/-- A line of a cache: tag, dirty mark, bytes, and the poison mark of each 64-byte granule (R41, R344). -/
structure Line where
  tag : Nat
  dirty : Bool
  data : List Byte
  poison : List Bool
  deriving DecidableEq, Repr

/-- A set-associative cache: valid lines keyed `set * ways + way`, and the tree bits of each set (R345). -/
structure Cache where
  lines : FMap (Option Line)
  plru : FMap Nat
  deriving DecidableEq, Repr

/-- An empty cache. -/
def Cache.empty : Cache := ⟨[], []⟩

/-- VCFG: element type, group, scale, vector length, sticky flags and restart element (R102, R103). -/
structure VCfg where
  et : BitVec 4
  glog : BitVec 2
  scale : BitVec 5
  vl : BitVec 13
  vflags : BitVec 8
  vbegin : BitVec 13
  deriving DecidableEq, Repr

/-- The first answer other than OK to a store, not yet raised (R93). -/
structure Imprecise where
  ea : BitVec 64
  status : Nat
  deriving DecidableEq, Repr

/-- A row of the Gauge array (R173, R183): the META, DATA, VALUE and CARE words of its record, whether its parity is bad, and
whether the entry whose first row it is has been faulted (R187). -/
structure GRow where
  hdr : Word
  data : Word
  value : DWord
  care : DWord
  bad : Bool
  faulted : Bool
  deriving DecidableEq, Repr

/-- An empty row. -/
def GRow.empty : GRow := ⟨0, 0, 0, 0, false, false⟩

/-- A context of a tile decoder (R145 to R148). -/
structure Decoder where
  /-- VDOPEN has opened it. -/
  opened : Bool
  /-- It is in its error state, with this status. -/
  error : Option Nat
  /-- XA, E, the stored length and the CODEC word. -/
  base : DWord
  count : Nat
  length : Nat
  codec : DWord
  /-- Elements VDECODE has consumed. -/
  delivered : Nat
  /-- The elements decoded so far, from element 0. -/
  values : List Nat
  /-- Offset of the next frame. -/
  next : Nat
  /-- The error that stops decoding after `values`: its status and the address it is charged to. -/
  fail : Option (Nat × Nat)
  deriving DecidableEq, Repr

/-- A closed context. -/
def Decoder.closed : Decoder := ⟨false, none, 0, 0, 0, 0, 0, [], 0, none⟩

/-- A core: a tile or a Headstock core (R72, R83, R302). -/
structure Core where
  /-- X0 to X30. -/
  x : FMap DWord
  pc : BitVec 48
  /-- DZ, OVU, OVS. -/
  sflags : BitVec 3
  /-- Window words, keyed `4 * w + k` (R85). -/
  win : FMap DWord
  vcfg : VCfg
  /-- V0 to V31, byte 0 lowest. -/
  v : FMap (BitVec 4096)
  /-- P0 to P15. -/
  p : FMap (BitVec 512)
  hstatus : DWord
  htvec : DWord
  hepc : DWord
  hecause : DWord
  headdr : DWord
  hscratch : DWord
  imprecise : Option Imprecise
  l1d : Cache
  l1i : Cache
  /-- The two decoder contexts of a tile (R145). -/
  dec0 : Decoder
  dec1 : Decoder
  /-- Elements already sent by a VSEND that waits for credit (R142). -/
  vsent : Nat
  /-- The channel on which a VSEND (`false`) or VRECV (`true`) waits (R165). -/
  chWait : Option (Bool × Nat)
  /-- A tile that a write of STEP has started and whose instruction has not completed (R96). -/
  stepping : Bool
  /-- The window set of the thread on a Headstock core (R302). -/
  winset : Nat
  /-- When the thread on a Headstock core was placed, in placements (R305). -/
  placed : Nat
  /-- The thread on a Headstock core was placed from an image with HSTATUS.MODE = 0 (R313). -/
  user : Bool
  deriving DecidableEq, Repr

/-- A core as die reset leaves it (R72). -/
def Core.reset : Core where
  x := []
  pc := 0
  sflags := 0
  win := []
  vcfg := ⟨0, 0, 0, 0, 0, 0⟩
  v := []
  p := []
  hstatus := 0
  htvec := 0
  hepc := 0
  hecause := 0
  headdr := 0
  hscratch := 0
  imprecise := none
  l1d := Cache.empty
  l1i := Cache.empty
  dec0 := Decoder.closed
  dec1 := Decoder.closed
  vsent := 0
  chWait := none
  stepping := false
  winset := 0
  placed := 0
  user := false

/-- The status and data with which the last access of a command was answered; `abort` is Completer Abort on the host
link (R35), `ep` the poisoned bit of a TLP (R42). -/
structure Answer where
  status : Nat
  data : List Byte
  abort : Bool
  ep : Bool
  deriving DecidableEq, Repr

/-- The engine's side of a work ring (R281 to R285): submission head and expected phase, completion tail and phase, whether a
doorbell is pending, the context read when EN was set, its ATTR at the last scan, and whether its error has cause 5. -/
structure RingState where
  head : Nat
  phase : Bool
  ctail : Nat
  cphase : Bool
  pending : Bool
  ctx : Option (List Byte)
  attr : Nat
  cause5 : Bool
  deriving DecidableEq, Repr

/-- A ring after reset (R285). -/
def RingState.reset : RingState := ⟨0, true, 0, true, false, none, 0, false⟩

/-- How far a DMA list or transfer has come (R290 to R292): the descriptor's number and DPA, the bytes of it already moved,
the bytes of the descriptors before it, whether poisoned data has reached host memory, and the destination ranges of earlier
descriptors with ORDER = 0; the descriptor in hand, as it was fetched, and the local destinations of the descriptors before it
(R285, R290). -/
structure Progress where
  desc : Nat
  next : Nat
  off : Nat
  moved : Nat
  sullied : Bool
  loose : List (Nat × Nat)
  cur : Option (List Byte)
  dests : List (Nat × Nat)
  deriving DecidableEq, Repr

/-- Nothing moved. -/
def Progress.start : Progress := ⟨0, 0, 0, 0, false, [], none, []⟩

/-- A job fetched from a ring and not yet posted: its ring's key, tag and index, its entry, the engine, or engine and slot,
that holds it, the progress of a DMA, Hatch or Proof job, its status and result once it has ended, and what a Stipple job has read
of its inputs and has made of them (R205). -/
structure Job where
  ring : Nat
  tag : Nat
  index : Nat
  entry : List Byte
  engine : Nat
  prog : Progress
  done : Option (Nat × Nat)
  got : List (List Byte) := []
  out : Option (List Byte) := none
  deriving DecidableEq, Repr

/-- A frame that a Stipple engine has made (R208): the revision, the codec's fields, the input and sibling bytes, and the frame. -/
structure Coded where
  rev21 : Bool
  codec : Nat
  src : List Byte
  sib : List Byte
  frame : List Byte
  deriving DecidableEq, Repr

/-- A context slot of a Proof engine (R213, R217): its stream's ring and number, ALG, whether it is FINAL, FAILED or sealed,
the blocks absorbed and the state words. -/
structure Slot where
  ring : Nat
  stream : Nat
  alg : Nat
  final : Bool
  failed : Bool
  sealed : Bool
  blocks : Nat
  words : List Nat
  deriving DecidableEq, Repr

/-- One column's part of a segment (R65): where its stored data lies, its bytes, the null count, the bounds of its written
values, CODEC (0 while raw) and the digest (zeros until sealed). -/
structure ColSeg where
  dpa : Nat
  len : Nat
  nulls : Nat
  bounds : Option (Nat × Nat)
  codec : Nat
  digest : List Byte
  deriving DecidableEq, Repr

/-- A segment of a table (R47, R54, R65): its link epoch once linked, its written rows, whether it is sealed, and its parts:
INS, DEL, then the user columns. -/
structure Seg where
  link : Option Nat
  written : Nat
  sealed : Bool
  cols : List ColSeg
  deriving DecidableEq, Repr

/-- A table (R45 to R69): the FORMAT values of its user columns, its epochs, its rows and their INS and DEL, and the DPAs of
its descriptor, column array and segment arrays. `maker` is the tag of the command that is making it. -/
structure Table where
  fmts : List Nat
  create : Nat
  drop : Nat
  nextRow : Nat
  limit : Nat
  mirrored : Bool
  plate : Option Bool
  emptied : Bool
  maker : Option Nat
  at' : Nat
  colsAt : Nat
  segsAt : List Nat
  segs : FMap (Option Seg)
  ins : FMap Nat
  del : FMap Nat
  deriving DecidableEq, Repr

/-- A table space (R45, R67, R68). -/
structure Space where
  mirrored : Bool
  plate : Bool
  deriving DecidableEq, Repr

/-- An installed image (R155, R156): its slot's generation, its bytes, where they lie, and whether its handle has been removed. -/
structure Image where
  gen : Nat
  bytes : List Byte
  dpa : Nat
  removed : Bool
  deriving DecidableEq, Repr

/-- One range of a Clamp entry (R257): its three slots as stored, whether it is granted, and whether a broken pair has widened
it to its whole table (R40). -/
structure ClampRange where
  table : Nat
  first : Nat
  last : Nat
  granted : Bool
  widened : Bool
  deriving DecidableEq, Repr

/-- How far a fetched command has come: waiting for its Clamps, passed to Headstock, staged, past its commit point. -/
inductive Stage where
  | waiting | passed | staged | committed
  deriving DecidableEq, Repr

/-- A command that holds a tag (R243, R256): its pair, CID and function, its place in the fetch order, its entry, the snapshot
epoch, the first row ID and number of rows allocated, the range part of its parameter block, its Clamps and when their limit
expires, the table an EXPORT and the descriptor DPAs of the tables a RUN resolved at its fetch (R52), where it staged its catalog
arrays, and its status and result once they fill its collector slot; `after` is the place of the command whose entry must be posted
first (R275). A part of another node's spanning RUN (R171) stands here too, with a number from 8192 up, pair 8192, function 128 and the
coordinator's fabric ID as its CID. -/
structure Cmd where
  pair : Nat
  cid : Nat
  fn : Nat
  order : Nat
  entry : List Byte
  epoch : Nat
  first : Nat
  count : Nat
  block : List Byte
  clamps : List ClampRange
  due : Nat
  stage : Stage
  snap : Option Table
  descs : List Nat
  room : Nat
  done : Option (Nat × Nat)
  after : Option Nat
  deriving DecidableEq, Repr

/-- A queue pair (R229 to R249): STATE, pending mark, submission head and expected phase, completion tail and phase, the last
accepted CQ_HEAD, ERROR cause and index, the context as last read, the Clamp limit, the entries posted since the last message
and when the first was, and whether its held-back fetch has been counted. -/
structure Pair where
  state : Nat
  pending : Bool
  head : Nat
  phase : Bool
  ctail : Nat
  cphase : Bool
  chead : Nat
  cause : Nat
  index : Nat
  ctx : List Byte
  clampMs : Nat
  unsent : Nat
  firstAt : Nat
  counted : Bool
  deriving DecidableEq, Repr

/-- An instance of a RUN: its fragment, global index, tile and, on another node, fabric ID, and whether it has ended. -/
structure Inst where
  frag : Nat
  index : Nat
  tile : Nat
  fid : Option Nat
  ended : Bool
  deriving DecidableEq, Repr

/-- Where a RUN stands: its stage waits for tiles, is placed, runs, or is being ended with a status. -/
inductive RunPhase where
  | waiting | placed | running | ending (status : Nat)
  deriving DecidableEq, Repr

/-- A RUN that Headstock has taken (R157 to R171): its image slot, the parameter block, where its areas lie, how many tiles
were in service when they were allocated, the stage, its place in the order of waiting and when it began to wait, the instances
of the stage, when the time limit expires, the bytes each host sink has taken, the sender in the middle of a VSEND to each sink,
and the values of each output column; then the nodes that have reported their tiles of the stage over (R171), the other half's tiles
seen to halt while the RUN ends (R168), and the nodes that have been told of its end. -/
structure Run where
  image : Nat
  block : List Byte
  room : Nat
  tiles : Nat
  stage : Nat
  since : Nat
  waitFrom : Nat
  phase : RunPhase
  insts : List Inst
  deadline : Option Nat
  sinks : FMap Nat
  owner : FMap (Option Nat)
  columns : FMap (List Nat)
  heard : List Nat
  halted : List Nat
  told : List Nat
  deriving DecidableEq, Repr

/-- A region of the loaded set (R412): its first chunk, its chunks, and EPOCH. -/
structure PltRegion where
  first : Nat
  chunks : Nat
  epoch : Bool
  deriving DecidableEq, Repr

/-- A manifest entry that is PRESENT (R416): location, whether the chunk is compressed, stored bytes, its poison map if it has
poisoned granules, and its digest. -/
structure ChunkCopy where
  loc : Nat
  compressed : Bool
  stored : Nat
  map : Option (List Byte)
  digest : List Byte
  deriving DecidableEq, Repr

/-- The part of an image that the catalog region holds (R68): table spaces, tables and installed images. -/
structure Catalog where
  spaces : FMap (Option Space)
  tables : FMap (Option Table)
  images : FMap (Option Image)
  imageGens : FMap Nat
  members : List (Nat × Nat)
  deriving DecidableEq, Repr

/-- A valid image slot (R416, R417): GEN, EPOCH, CHUNKS, TIME, the manifest, the regions it was etched under and the catalog
its chunks hold. -/
structure PltSlot where
  gen : Nat
  epoch : Nat
  mib : Nat
  time : Nat
  chunks : FMap (Option ChunkCopy)
  regions : List PltRegion
  catalog : Catalog
  deriving DecidableEq, Repr

/-- An etch that runs (R420, R424): when it began, the chunks a commanded one has still to copy, and the bytes written. -/
structure EtchRun where
  start : Nat
  todo : List Nat
  bytes : Nat
  deriving DecidableEq, Repr

/-- The last etch in the plate log (R434): kind, status, cause of abandonment, bytes, duration and Steady time in ns. -/
structure EtchLog where
  kind : Nat
  status : Nat
  cause : Nat
  bytes : Nat
  span : Nat
  time : Nat
  deriving DecidableEq, Repr

/-- The last print in the plate log (R434): slot, status and chunks printed. -/
structure PrintLog where
  slot : Nat
  status : Nat
  chunks : Nat
  deriving DecidableEq, Repr

/-- A plate device in the plate log (R434). -/
structure DevLog where
  spare : Nat
  units : Nat
  errors : Nat
  deriving DecidableEq, Repr

/-- The configuration record (R418): retired channels in the order of their retirements, the usable energy of the last bank
test, the Hatch configuration (R378): GROUP, WARDEN_PRIO, the HAT_FM list and the last FID, and the pair configuration (R398): role (0
none, 1 FRONT, 2 BACK), the peer's serial number and the pair generation. -/
structure Record where
  retired : List Nat
  usable : Option Nat
  group : Nat
  prio : Nat
  fms : List Nat
  fid : Option Nat
  role : Nat
  peer : Nat
  pairGen : Nat
  deriving DecidableEq, Repr

/-- The record of a module as manufactured. -/
def Record.new : Record := ⟨[], none, 0, 0, [], none, 0, 0, 0⟩

/-- Plate (R412 to R436). -/
structure Plate where
  /-- The loaded region set. -/
  regions : List PltRegion
  /-- Dirty bits, by 64 KiB piece of local HBM (R414). -/
  dirty : FMap Bool
  /-- The working set (R419). -/
  work : FMap (Option ChunkCopy)
  /-- The store's locations (R415). -/
  store : FMap (List Byte)
  slotA : Option PltSlot
  slotB : Option PltSlot
  etch : Option EtchRun
  etchLog : EtchLog
  printLog : PrintLog
  devs : FMap (Option DevLog)
  /-- The chunk copied last (R419). -/
  copied : Nat
  /-- Devices whose command has failed once and been retried, as a mask (R431). -/
  retried : Nat
  /-- F as last written to PLT_FREEZE_EPOCH (R421). -/
  freeze : Nat
  /-- PLT_ETCH_GO has been written in STATE 2. -/
  go : Bool
  /-- Region writes are refused (R421). -/
  shut : Bool
  /-- When the next bank test is due, and when the last one ended (R433). -/
  testDue : Nat
  testAt : Nat
  record : Record
  deriving DecidableEq, Repr

/-- Plate after a die reset with an empty store. -/
def Plate.new : Plate where
  regions := []
  dirty := []
  work := []
  store := []
  slotA := none
  slotB := none
  etch := none
  etchLog := ⟨0, 0, 0, 0, 0, 0⟩
  printLog := ⟨0xFFFF, 0, 0⟩
  devs := []
  copied := 0
  retried := 0
  freeze := 0
  go := false
  shut := false
  testDue := 0
  testAt := 0
  record := Record.new

/-- Steady and the module's edges (R437 to R457, R491 to R511). -/
structure Steady where
  /-- Both presence contacts are closed, the hot-swap switch is on, and 48 V power good has been declared (R497). -/
  present : Bool
  switchOn : Bool
  good : Bool
  /-- The 3.3 V auxiliary input is present (R437). -/
  aux : Bool
  /-- HREFCLK is present (R500). -/
  href : Bool
  /-- Ports whose CBL_PRSNT# is low, as a mask (R495). -/
  cables : Nat
  /-- SHED# is low (R496). -/
  shed : Bool
  /-- CLKMODE at the last deassertion of PERST#, and whether PERST# is asserted (R500). -/
  sris : Bool
  perst : Bool
  /-- The mode Vigil was entered from, and whether an enabled wake source has fired since its entry began (R450). -/
  vigilFrom : Nat
  waking : Bool
  /-- Domains whose ON was written while FENCING, as a mask (R444). -/
  onLater : Nat
  /-- Tiles whose clock is gated, as a mask (R446). -/
  gated : Nat
  /-- STY_ALARM has fired for its present value (R451). -/
  alarmed : Bool
  /-- When the watchdog expires (R466). -/
  wdogDue : Nat
  /-- Inlet air, bank and plate device temperatures (R455, R506), which no register shows. -/
  inlet : Int
  bankTemp : Int
  devTemp : FMap Nat
  /-- I3C events are enabled, and the reset action last named by RSTACT (R503). -/
  i3cEvents : Bool
  i3cReset : Nat
  /-- The TAP's instruction: 0 after its reset, 1 BYPASS, 2 IDCODE, 3 boundary scan, 4 debug access (R508). -/
  tap : Nat
  deriving DecidableEq, Repr

/-- Steady after a cold reset of a module outside any chassis. -/
def Steady.reset : Steady where
  present := false
  switchOn := false
  good := false
  aux := false
  href := false
  cables := 0
  shed := false
  sris := false
  perst := true
  vigilFrom := 0
  waking := false
  onLater := 0
  gated := 0
  alarmed := false
  wdogDue := 0
  inlet := 0
  bankTemp := 0
  devTemp := []
  i3cEvents := true
  i3cReset := 0
  tap := 0

/-- A slot's entry of the firmware slot log (R476): whether it was accepted, the check it failed, IMAGE_LEN, VERSION, SECURITY
and the SHA-384 of the image. -/
structure FwLog where
  accepted : Bool
  failed : Nat
  len : Nat
  version : Nat
  security : Nat
  digest : List Byte
  deriving DecidableEq, Repr

/-- A live firmware update (R487): the command's tag, its slot, when step 1 began, and where it stands: 0 draining, 1 etching, 2
with the new runtime started. -/
structure LiveUpdate where
  tag : Nat
  slot : Nat
  start : Nat
  phase : Nat
  deriving DecidableEq, Repr

/-- The boot store, the boot record and the boot (R459 to R476). -/
structure Boot where
  /-- A die reset has been made and the boot has not run. -/
  due : Bool
  /-- Firmware slots 1 and 2; empty when the slot holds no valid image. -/
  slot1 : List Byte
  slot2 : List Byte
  /-- The staging buffer (R264) and how many of its bytes have been downloaded contiguously, as ranges. -/
  buf : FMap Byte
  ranges : List (Nat × Nat)
  /-- ACTIVE, PENDING, TRIALS and the generation of the boot record (R462). -/
  active : Nat
  waiting : Nat
  trials : Nat
  gen : Nat
  /-- The highest SVN that MIN_SVN has been raised to (R464). -/
  svn : Nat
  /-- The slot booted, the VERSION of the firmware started, the SVN its RAISE_SVN asks for, and HOLD as it stood at the die reset. -/
  slot : Nat
  running : Nat
  raise : Nat
  hold : Bool
  /-- The boot's print, once made: whether it succeeded (R426). -/
  printed : Option Bool
  /-- When that print ended (R399). -/
  printedAt : Nat
  /-- The reason for Bring-up or a reset request (R484). -/
  reason : Nat
  /-- The cause of an orderly reset that waits for its etch, and whether the etch has been started (R459, R460). -/
  orderly : Option Nat
  wdogs : Nat
  drops : Nat
  log : FMap (Option FwLog)
  live : Option LiveUpdate
  /-- Times of the uncorrectable bench errors of each tile within 24 h (R480). -/
  benchErrors : FMap (List Nat)
  deriving DecidableEq, Repr

/-- The boot store as manufactured: slots 1 and 2 empty. -/
def Boot.new : Boot where
  due := false
  slot1 := []
  slot2 := []
  buf := []
  ranges := []
  active := 0
  waiting := 0
  trials := 0
  gen := 0
  svn := 0
  slot := 0
  running := 0
  raise := 0
  hold := false
  printed := none
  printedAt := 0
  reason := 0
  orderly := none
  wdogs := 0
  drops := 0
  log := []
  live := none
  benchErrors := []

/-- An element buffered at an inbound channel: its value, whether the receiver's own stores have overwritten it (R162), and whether it
is poisoned (R41). -/
structure Buffered where
  value : Nat
  lost : Bool
  bad : Bool
  deriving DecidableEq, Repr

/-- A search that the Gauge has accepted (R181): its table, master and key, its rank (none for a NEXT), and the slot that made it. -/
structure GSearch where
  table : Nat
  master : Nat
  rank : Option Nat
  key : List DWord
  slot : Option Nat
  deriving DecidableEq, Repr

/-- What an outstanding Hatch transaction of this node's own origin belongs to (R388). -/
inductive TxKind where
  /-- A request of a master to the remote aperture or the other half. -/
  | access
  /-- A packet of a job: ring, job tag, the local DPA of its bytes, their count, and whether it reads. -/
  | job (ring tag dpa len : Nat) (read : Bool)
  /-- A STREAM or STREAM_END packet of a core's outbound channel. -/
  | stream (core ch : Nat)
  /-- Headstock's read of the STATUS of tile `t` of the other half, or then of its EXC_DETAIL (R168, R403). -/
  | stop (t : Nat) (detail : Bool)
  /-- A submission of a spanning RUN's coordinator to a node that has a part (R171). -/
  | part (tag : Nat)
  /-- The write of the catalog's copy that the PUBLISH_EPOCH of a tag waits for (R402). -/
  | copy (tag : Nat)
  deriving DecidableEq, Repr

/-- An outstanding transaction: its tag, when it was sent, and the port that took its packet. -/
structure Tx where
  tag : Nat
  sentAt : Nat
  port : Nat
  kind : TxKind
  deriving DecidableEq, Repr

/-- A request of a master that has left for another module or a fenced domain, the effective address of a core's store (R93), and its
answer once it has come. -/
structure Far where
  req : Request
  ea : BitVec 64
  tag : Nat
  done : Option (Nat × List Byte × Bool)
  deriving DecidableEq, Repr

/-- A read or write that waits in its controller for the end of a frequency switch (R321, R326): the controller, its service
class, when it arrived, the request and what the array shows. -/
structure McWait where
  mc : Nat
  cls : Nat
  since : Nat
  req : Request
  found : Ecc
  deriving DecidableEq, Repr

/-- A neighbour as its last HELLO gave it (R374): serial number, the words FID, GROUP with WARDEN_PRIO, and warden, its port, and
when that HELLO came. -/
structure Neighbour where
  serial : Nat
  fid : Nat
  group : Nat
  warden : Nat
  port : Nat
  heard : Nat
  deriving DecidableEq, Repr

/-- A Hatch port (R368 to R374): the SEQ last received in order, whether a NAK has been sent and its flit not yet come, the SEQ sent
next and the one last acknowledged, the credits held for each VC, when replays were made within the last 1 ms, the width being
trained, the lanes it may use and the attempts failed at it, the neighbour, whether a change has not been reported, and the receiver's
side of R367: the number of the codeword next in order, the pieces that came before it, and the bytes of a flit not yet whole. -/
structure HatPort where
  rxLast : Nat
  rxBad : Bool
  txNext : Nat
  txAcked : Nat
  credits : List Nat
  replays : List Nat
  width : Nat
  lanes : Nat
  fails : Nat
  nbr : Option Neighbour
  eventDue : Bool
  rxNext : Nat
  rxHeld : List (Nat × List Byte)
  rxBytes : List Byte
  deriving DecidableEq, Repr

/-- A port that has never trained. -/
def HatPort.new : HatPort := ⟨4095, false, 0, 4095, [64, 64, 16, 256], [], 3, 15, 0, none, false, 0, [], []⟩

/-- A proxy request sent out of a port for another node (R376): the port, its tag and the node that asked. -/
structure Proxy where
  port : Nat
  tag : Nat
  src : Nat
  deriving DecidableEq, Repr

/-- The pair record of a peer, in the fields of R397: serial number, GLB_IDENT, the word at 0x10, ROLE, generation, the peer serial
it has recorded, and the P of its newest image. -/
structure PairRec where
  serial : Nat
  ident : Nat
  word : Nat
  role : Nat
  gen : Nat
  peer : Nat
  published : Nat
  deriving DecidableEq, Repr

/-- Data that a READ job's answer brought and whose local write is held on its way (R23, R386): the job's ring and tag, the DPA, the
bytes and their poison mark. -/
structure LateData where
  ring : Nat
  tag : Nat
  dpa : Nat
  data : List Byte
  poison : Bool
  deriving DecidableEq, Repr

/-- Hatch and the hinge beyond their registers (R366 to R411). -/
structure Hat where
  ports : FMap HatPort
  /-- The phase of each landing queue, and its depth at the last delivery (R387). -/
  lqPhase : FMap Bool
  lqDepth : FMap Nat
  proxies : List Proxy
  /-- Records held from PAIR_REPLYs on ports 6 and 7, and when the COMMIT that runs was written (R396). -/
  replies : FMap (Option PairRec)
  commitAt : Option Nat
  /-- When each hinge port last delivered an intact flit (R406). -/
  hingeAt : FMap Nat
  /-- A FREEZE notice that no MGMT_RSP has answered: its epoch (R397). -/
  freeze : Option Nat
  /-- Answers to READ jobs whose local writes are held, oldest first (R23). -/
  late : List LateData
  deriving DecidableEq, Repr

/-- Hatch after a reset. -/
def Hat.reset : Hat := ⟨[], [], [], [], [], none, [], none, []⟩

/-- An error that PCIe reports through AER: a request this module aborts (R35), or a completion of its own data read that is
Unsupported Request or Completer Abort, has timed out or is poisoned (R247). -/
inductive AerError where
  | completerAbort
  | readRefused
  | readTimeout
  | readPoisoned
  deriving DecidableEq, Repr

/-- The host link and the settings of each function that PCIe gives the host, and that no command of the table shows (R222): the rate in
GT/s, the lanes, Max Payload Size, Max Read Request Size and, by function, the power state: 0 D0, 1 D3hot, 2 D3cold. -/
structure Pcie where
  rate : Nat
  width : Nat
  maxPayload : Nat
  maxRead : Nat
  power : FMap Nat
  deriving DecidableEq, Repr

/-- The host link as PCIe resets it, trained to its full rate and width. -/
def Pcie.reset : Pcie := ⟨64, 16, 128, 512, []⟩

/-- What the module sends out, oldest first, in link order. -/
inductive Sent where
  /-- A memory write to a function's host memory: bus address, bytes, relaxed ordering, poisoned. -/
  | hostWrite (fn : Nat) (addr : Nat) (bytes : List Byte) (relaxed ep : Bool)
  /-- An MSI-X message: function, vector, address and data of its table entry. -/
  | msix (fn vector : Nat) (addr : Nat) (data : Word)
  /-- A Hatch packet, by port; 8 to 13 name the other half's ports (R379), 16 the hinge itself, 17 this node. -/
  | packet (port : Nat) (k : Packet)
  /-- A wake pattern with a reason code on a port (R373, R452). -/
  | wake (port code : Nat)
  /-- A link flit of TYPE 2 (NAK) or 0 carrying ACK and returned credits of a VC, or a replay from a SEQ (R368, R369). -/
  | linkAck (port : Nat) (nak : Bool) (ack cvc credits : Nat)
  | linkReplay (port seq : Nat)
  /-- A stream message that crosses the hinge, with its transaction tag; 0 for credit (R172). -/
  | stream (tag : Nat) (m : NocMsg)
  /-- A request that crosses the hinge, with its transaction tag and whether its data are poisoned (R41, R400, R403). -/
  | hinge (tag : Nat) (req : Request) (poison : Bool)
  /-- What the FRONT's Gauge has a command make of the other half's Gauge (R190). -/
  | gauge (m : GaugeFar)
  /-- The write of the changed catalog to its copy in BACK spans, with its transaction tag, P and G (R402). How the catalog lies in HBM is
  not published. -/
  | catalogCopy (tag published floor : Nat) (c : Catalog)
  /-- An error that a function reports through AER (R35, R247). -/
  | aer (fn : Nat) (e : AerError)
  /-- A response of the management endpoint (R504, R505). -/
  | mctp (bytes : List Byte)
  /-- The bytes an I3C common command code returns (R503). -/
  | ccc (bytes : List Byte)
  deriving DecidableEq, Repr

/-- The whole state of the block. -/
structure State where
  /-- Every register of every unit window, keyed by BAR0 offset; each function's view lies at its own key. -/
  regs : FMap Word
  /-- The held LO of each register pair, keyed by the LO offset (R7). -/
  held : FMap (Option Tagged)
  /-- The captured HI of each register pair, keyed by the LO offset (R7). -/
  captured : FMap (Option Tagged)
  /-- HBM by storage address, benches and the keep store, by DPA. -/
  mem : List Host.Cell
  /-- Ranges of the flat store whose unlisted bytes are undefined, newest first: start, end and the number of the free value
  (R29). -/
  haze : List (Nat × Nat × Nat)
  /-- The poison mark of each 64-byte granule, keyed by storage address / 64 (R41). -/
  poison : FMap Bool
  /-- The first HBM granule whose unlisted marks are set: those of the band that retirements have poisoned (R333). -/
  poisonFrom : Nat
  /-- The condition of each HBM burst's array cells, keyed by storage address / 64 (R327). -/
  array : FMap Ecc
  /-- Stacks whose SWITCH waits for a retirement, as a mask, and whether a retirement waits for a switch (R326). -/
  switchWaits : Nat
  retireWaits : Bool
  /-- Requests that wait for the end of a switch, oldest first (R326). -/
  mcWaiting : List McWait
  /-- The module's own tiles 0–63, and Headstock core `n` at 128 + n. -/
  cores : FMap Core
  /-- The system cache slices 0–63 (R341). -/
  slices : FMap Cache
  /-- Lines being written back by each slice, as (DPA / 128, line), oldest first (R346). -/
  writeBacks : FMap (List (Nat × Line))
  /-- An invalidation of the whole system cache runs; and, as a mask, those of tiles' caches (R347, R349). -/
  scInv : Bool
  l1Inv : Nat
  /-- When each mesh link made its retransmissions within the last 1 ms, keyed `4 * router + port` (R357). -/
  meshRetx : FMap (List Nat)
  /-- When each router's freeze was set (R360). -/
  meshFroze : FMap Nat
  /-- Grants found with a broken pair, keyed `128 * table + grant` (R36). -/
  grantFaulted : FMap Bool
  /-- Whether Guard's interrupt condition held when last evaluated (R483). -/
  guardRaised : Bool
  /-- Requests that wait for another module (R384, R400) or at a fence (R442). -/
  far : List Far
  /-- Stream messages in flight, oldest first. -/
  noc : List NocMsg
  /-- Elements buffered at each inbound channel, keyed `32 * tile + channel`, oldest first (R162). -/
  inbound : FMap (List Buffered)
  /-- Hatch transactions outstanding (R388). -/
  txs : List Tx
  /-- Tags of transactions that timed out, with the time they did; not reused for 2 ms (R388). -/
  txDead : List (Nat × Nat)
  /-- Packets held at each output port, oldest first (R373, R379). -/
  portQueue : FMap (List Packet)
  hat : Hat
  /-- The warden's map from serial number to member number (R375). -/
  members : List (Nat × Nat)
  /-- Gauge rows, keyed `8192 * bank + row`; banks 16 to 31 are the back half's of a pair (R173, R190). -/
  gauge : FMap GRow
  /-- The row the Gauge scrubber visits next (R186). -/
  gaugeScrub : Nat
  /-- When each bank was repaired, within the last 24 h (R188). -/
  gaugeRepairs : FMap (List Nat)
  /-- The last command each Gauge slot completed (R189). -/
  gaugeLast : FMap Nat
  /-- Slots that are BUSY waiting, oldest first: a WRITE for a bank move (R188), a DESTROY for the searches accepted before it
  (R189). -/
  gaugeWaits : List Nat
  /-- Searches that the Gauge has accepted and not begun, oldest first: at most 64 of a table from the mesh, and its slots' own (R181) -/
  gaugeQueue : List GSearch
  /-- Queued searches that have been made and not yet fetched by their master: status and result word -/
  gaugeDone : List (GSearch × Nat × Nat)
  /-- The work rings, keyed by unit and number (R277). -/
  rings : FMap RingState
  /-- Where the next ring pick of Stipple (key 0) and of each Proof engine (key 1 + engine) starts (R208, R214, R361). -/
  ringNext : FMap Nat
  /-- Jobs fetched and not yet posted, oldest first (R282). -/
  jobs : List Job
  /-- DMA channels that have waited 10 µs and are served next (R295). -/
  dmaTop : List Nat
  /-- The DMA channel that was last granted a burst (R295, R361). -/
  dmaLast : Nat
  /-- The DMA channels whose granted burst waits for an answer (R295, R361). -/
  dmaStalled : List Nat
  /-- How far each channel's register-mode transfer has come (R296). -/
  dmaReg : FMap (Option Progress)
  /-- When each DMA timer expires next (R294). -/
  timerDue : FMap Nat
  /-- When each Stipple engine failed verification, within the last 24 h (R207). -/
  stpFails : FMap (List Nat)
  /-- Stipple engines to be retired when their job completes (R209). -/
  stpRetire : Nat
  /-- The frames that the engines have made, by what they were made of: equal jobs give equal bytes (R208). -/
  stpMade : List Coded
  /-- Proof slots, keyed `8 * engine + slot` (R213). -/
  slots : FMap (Option Slot)
  /-- The slot each Proof engine serves (R215). -/
  prfTurn : FMap Nat
  /-- The blocks that each Proof engine has absorbed in its present quantum (R215). -/
  prfUsed : FMap Nat
  /-- Waiting threads of each event, in their order (R311). -/
  waiters : FMap (List Nat)
  /-- The WAITING threads in the order in which they began to wait (R311). -/
  waitOrder : List Nat
  /-- The ready list of each priority (R304). -/
  ready : FMap (List Nat)
  /-- The prefetch slot of each Headstock core: a READY thread, the status of the read of its image, and the image (R306). -/
  headSlots : FMap (Option (Nat × Nat × List Byte))
  /-- The WAIT, YIELD or EXIT of each core slot that takes effect at the next FENCE: its opcode and event (R309). -/
  slotWaits : FMap (Option (Nat × Nat))
  /-- The threads off their core whose priority SETPRIO has set since their image was written (R302, R308). -/
  prioSet : List Nat
  /-- Placements made so far (R305). -/
  placements : Nat
  /-- Steady time in ns (R438). -/
  time : BitVec 64
  /-- The model's own counter of free values taken so far. -/
  fresh : Nat
  /-- The queue pairs that exist (R229). -/
  pairs : FMap (Option Pair)
  /-- The commands that hold tags (R243). -/
  cmds : FMap (Option Cmd)
  /-- Fetches made so far: the one order of R258. -/
  fetches : Nat
  /-- The class the fetch arbiter stands at, each class's credit, and the pair last served of each class, 4 being urgent
  (R242). -/
  arbClass : Nat
  arbCredit : FMap Nat
  arbLast : FMap Nat
  /-- The QE has stopped granting fetches for Vigil or a live update (R449, R487). -/
  fetchHold : Bool
  /-- When a fetch was last held back, the commands that waited for a Clamp, and CLAMP_TIMEOUT completions (R262). -/
  lastWait : Nat
  clampWaits : Nat
  clampTimeouts : Nat
  /-- The slot the collector posted last (R276). -/
  collector : Nat
  /-- Queue error notices not yet posted to a full admin queue: pair of the notice, its SQ_ID, status and result (R244). -/
  notices : List (Nat × Nat × Nat × Nat)
  /-- The I/O pairs each function may create (R229, R263). -/
  quotas : FMap Nat
  /-- P, G, EPOCH_RETAIN (R51, R60) and the largest epoch a publishing PUBLISH_EPOCH has named (R53). -/
  published : Nat
  floor : Nat
  retain : Nat
  named : Nat
  spaces : FMap (Option Space)
  tables : FMap (Option Table)
  /-- The image slots (R273). -/
  images : FMap (Option Image)
  /-- The generation each image slot was last given. -/
  imageGens : FMap Nat
  runs : FMap (Option Run)
  /-- Stages that have begun to wait (R159). -/
  waits : Nat
  /-- Tiles taken offline by TILE_SERVICE (R265). -/
  offline : Nat
  /-- On a FRONT, the retired tiles of the other half, as a mask of its tiles 0 to 63 (R159, R486) -/
  peerRetired : Nat
  /-- The generation that this FRONT's Headstock last gave each channel of the other half's tiles, keyed `64 * tile + channel`, inbound
  ones 32 up (R163) -/
  peerGens : FMap Nat
  /-- How many host functions are enabled: the PF and the VFs 1 to `functions - 1` (R222, R289). -/
  functions : Nat
  /-- The functions whose Relaxed Ordering Enable bit is set, as a mask (R249). -/
  relaxed : Nat
  /-- The host link and the functions' settings (R222). -/
  pcie : Pcie
  plate : Plate
  steady : Steady
  boot : Boot
  /-- What the module has sent, oldest first. -/
  sent : List Sent
  /-- The answer to the last access. -/
  answer : Answer
  /-- The commands that wait, first in first out. -/
  pending : List Instr
  deriving DecidableEq, Repr

/-- What stops the machine: nothing does. Every command of the opcode table has an effect or changes nothing. -/
inductive Fault where
  deriving DecidableEq, Repr

/-- Why a command is turned away. -/
inductive Refusal where
  /-- The command has no meaning in this model yet; raised by its arm of the dispatch. Safe: no run goes on from it. -/
  | notModelled (mnemonic : String)
  deriving DecidableEq, Repr

/-- The machine right after a cold reset (R437, R459), its boot store and plate store as manufactured. -/
def State.reset : State where
  regs := []
  held := []
  captured := []
  mem := []
  haze := []
  poison := []
  poisonFrom := 0x60000000
  array := []
  switchWaits := 0
  retireWaits := false
  mcWaiting := []
  cores := []
  slices := []
  writeBacks := []
  scInv := false
  l1Inv := 0
  meshRetx := []
  meshFroze := []
  grantFaulted := []
  guardRaised := false
  far := []
  noc := []
  inbound := []
  txs := []
  txDead := []
  portQueue := []
  hat := Hat.reset
  members := []
  gauge := []
  gaugeScrub := 0
  gaugeRepairs := []
  gaugeLast := []
  gaugeWaits := []
  gaugeQueue := []
  gaugeDone := []
  rings := []
  ringNext := []
  jobs := []
  dmaTop := []
  dmaLast := 63
  dmaStalled := []
  dmaReg := []
  timerDue := []
  stpFails := []
  stpRetire := 0
  stpMade := []
  slots := []
  prfTurn := []
  prfUsed := []
  waiters := []
  waitOrder := []
  ready := []
  headSlots := []
  slotWaits := []
  prioSet := []
  placements := 0
  time := 0
  fresh := 0
  pairs := []
  cmds := []
  fetches := 0
  arbClass := 0
  arbCredit := []
  arbLast := []
  fetchHold := false
  lastWait := 0
  clampWaits := 0
  clampTimeouts := 0
  collector := 0
  notices := []
  quotas := []
  published := 0
  floor := 0
  retain := 16
  named := 0
  spaces := []
  tables := []
  images := []
  imageGens := []
  runs := []
  waits := 0
  offline := 0
  peerRetired := 0
  peerGens := []
  functions := 128
  relaxed := 2 ^ 128 - 1
  pcie := Pcie.reset
  plate := Plate.new
  steady := Steady.reset
  boot := Boot.new
  sent := []
  answer := ⟨0, [], false, false⟩
  pending := []

end Sys2Proof.Machine
end

