-- ==== Sys2Proof/Machine/Status.lean ====
section
/-! DEFINITION. The status codes of R478. -/

namespace Sys2Proof.Machine

namespace St

abbrev ok : Nat := 0x0000
abbrev invalidOpcode : Nat := 0x0101
abbrev invalidField : Nat := 0x0102
abbrev malformedEntry : Nat := 0x0103
abbrev lengthMismatch : Nat := 0x0104
abbrev bufferOverflow : Nat := 0x0105
abbrev aborted : Nat := 0x0106
abbrev clampTimeout : Nat := 0x0107
abbrev accessDenied : Nat := 0x0201
abbrev complementMismatch : Nat := 0x0202
abbrev poisonedData : Nat := 0x0301
abbrev channelFrozen : Nat := 0x0302
abbrev channelRetired : Nat := 0x0303
abbrev codecIllegalCode : Nat := 0x0401
abbrev codecDistance : Nat := 0x0402
abbrev codecOverrun : Nat := 0x0403
abbrev codecNoGain : Nat := 0x0404
abbrev codecVerifyFail : Nat := 0x0405
abbrev digestNotReady : Nat := 0x0501
abbrev digestClosed : Nat := 0x0502
abbrev fabricUnreachable : Nat := 0x0601
abbrev fabricPortRetired : Nat := 0x0602
abbrev fabricTimeout : Nat := 0x0603
abbrev halfLost : Nat := 0x0604
abbrev domainPoweredDown : Nat := 0x0701
abbrev programFault : Nat := 0x0801
abbrev programTimeout : Nat := 0x0802
abbrev plateInvalid : Nat := 0x0901
abbrev plateDigestMismatch : Nat := 0x0902
abbrev tableFull : Nat := 0x0A01
abbrev threadTableFull : Nat := 0x0A02

/-- No status of the device: the model's mark of a request that is still held at a fence or on its way to another module, so
that the requester waits. -/
abbrev held : Nat := 0x10000

end St

/-! The master IDs of R33 that hardware uses for itself. -/

namespace Mid

abbrev tile (t : Nat) : Nat := 0x100 + t
abbrev headstock (n : Nat) : Nat := 0x140 + n
abbrev dma : Nat := 0x150
abbrev stipple : Nat := 0x151
abbrev proof : Nat := 0x152
abbrev gauge : Nat := 0x153
abbrev plate : Nat := 0x154
abbrev qe : Nat := 0x155
abbrev hlu : Nat := 0x156
abbrev steady : Nat := 0x300
abbrev debug : Nat := 0x301
/-- No master: the scrubber's records (R327). -/
abbrev none : Nat := 0xFFF

end Mid

/-! The TARGET codes of R43 beyond the access tables. -/

namespace Tgt

abbrev channel (c : Nat) : Nat := 0x10 + c
/-- Tile by pair tile number (R26). -/
abbrev tile (t : Nat) : Nat := if t < 64 then 0x50 + t else 0xA0 + (t - 64)
abbrev qe : Nat := 0x90
abbrev headstock : Nat := 0x91
abbrev dma : Nat := 0x92
abbrev stipple : Nat := 0x93
abbrev proof : Nat := 0x94
abbrev gauge : Nat := 0x95
abbrev plate : Nat := 0x96
abbrev hatch : Nat := 0x97
abbrev mesh : Nat := 0x98
abbrev cache : Nat := 0x99
abbrev steady : Nat := 0x9A
abbrev hlu : Nat := 0x9B
abbrev mgt : Nat := 0x9C
abbrev global : Nat := 0x9D
abbrev none : Nat := 0xFF

end Tgt

end Sys2Proof.Machine
end

