-- ==== Sys2Proof/Machine/RegOps.lean ====
section
/-! DEFINITION. Register words as the hardware holds them: their reset values (R9), the raw reads and updates of words,
fields and pairs that every unit uses, and the taking of a free value. -/

namespace Sys2Proof.Machine

/-- The BAR0 offset at which function `fn`'s own copy of QE function-view offset `o` is held (R226). -/
def fnView (fn o : Nat) : Nat := 0x1000000 + 0x20000 * fn + o

/-- The register offset of the function view a held copy stands for, or the offset itself. -/
def viewOffset (off : Nat) : Nat := if off < 0x1000000 then off else 0x10000 + (off - 0x1000000) % 0x20000

/-- The reset grants of R38: grant `g` of table `t`, word `k` of its six. -/
def grantReset (t g k : Nat) : Nat :=
  let control : Nat :=
    if g = 0 then 0x8F14F140
    else if g = 1 && ((1 ≤ t && t ≤ 6) || t = 0xA) then 0x8B000000
    else if g = 2 && t = 0xA then 0x83300300
    else 0
  match k with
  | 0 => control
  | 1 => 0xFFFFFFFF - control
  | 2 => 0
  | 3 => 0xFFFFFFFF
  | 4 => if control = 0 then 0 else 0xFFFFFFFF
  | _ => if control = 0 then 0xFFFFFFFF else 0

/-- The timing banks as the boot ROM loads them (R340): bank A at RATE 0, bank B at RATE 2; the timing fields, which the
spec does not state, 1 (DESIGN CHOICE, see assumption 5). -/
def timingReset (off : Nat) : Nat :=
  let o := off % 0x1000 - 0x40
  match o % 0x20 / 4 with
  | 0 | 1 => 0x01010101
  | 2 => 0x00010001
  | _ => if o / 0x20 = 1 then 2 else 0

/-- The word a register holds after the reset of its unit (R9). -/
def regReset (off : Nat) : Word :=
  let o := viewOffset off
  if 0x5000 ≤ o && o < 0xE000 then
    BitVec.ofNat 32 (grantReset ((o - 0x5000) / 0xC00) ((o - 0x5000) % 0xC00 / 24) ((o - 0x5000) % 24 / 4))
  else if 0x18000 ≤ o && o < 0x20000 then (if o % 16 = 12 then 1 else 0)
  else if o = Reg.STY_DOM_STATUS 0 then 0
  else if 0x400000 ≤ o && o < 0x440000 && 0x40 ≤ o % 0x1000 && o % 0x1000 < 0x80 && o % 0x20 < 0x10 then
    BitVec.ofNat 32 (timingReset o)
  else
    match regRow? o with
    | some r => BitVec.ofNat 32 r.resetWord
    | none => 0

/-- The word at a BAR0 offset. -/
def State.rd (s : State) (off : Nat) : Word := FMap.get regReset s.regs off

/-- The hardware's own update of a register word. -/
def State.wr (s : State) (off : Nat) (v : Word) : State := { s with regs := FMap.set regReset s.regs off v }

/-- Field `hi..lo` of a register. -/
def State.fld (s : State) (off hi lo : Nat) : Nat := bits (s.rd off).toNat hi lo

/-- The hardware's own update of a field. -/
def State.setFld (s : State) (off hi lo v : Nat) : State :=
  s.wr off (BitVec.ofNat 32 (setBits (s.rd off).toNat hi lo v))

/-- One bit of a register. -/
def State.bit (s : State) (off i : Nat) : Bool := (s.rd off).toNat.testBit i

/-- The value of a register pair whose LO lies at `off` (R7). -/
def State.rd64 (s : State) (off : Nat) : Nat := (s.rd off).toNat + 2 ^ 32 * (s.rd (off + 4)).toNat

/-- The hardware's own update of a register pair. -/
def State.wr64 (s : State) (off v : Nat) : State :=
  (s.wr off (BitVec.ofNat 32 v)).wr (off + 4) (BitVec.ofNat 32 (v / 2 ^ 32))

/-- A saturating count in field `hi..lo` goes up by `n`. -/
def State.count (s : State) (off hi lo n : Nat) : State :=
  s.setFld off hi lo (satAdd (hi + 1 - lo) (s.fld off hi lo) n)

/-- A wrapping 32-bit count goes up by one. -/
def State.countWrap (s : State) (off : Nat) : State := s.wr off (s.rd off + 1)

/-- A wrapping 64-bit count in a pair goes up by `n`. -/
def State.count64 (s : State) (off n : Nat) : State := s.wr64 off ((s.rd64 off + n) % 2 ^ 64)

/-- A fresh value of `w` bits that nothing constrains, and the state that has taken it. -/
def State.free (s : State) (w : Nat) : BitVec w × State := (Config.free w s.fresh, { s with fresh := s.fresh + 1 })

/-- The words from `lo` to below `hi` return to their reset values, and held LO and captured HI values are dropped. R7 says so of
a held LO only; that a captured HI goes with it is a DESIGN CHOICE (assumption 103). -/
def State.resetRegs (s : State) (lo hi : Nat) : State :=
  { s with
    regs := FMap.keep s.regs (fun k _ => !(lo ≤ k && k < hi))
    held := FMap.keep s.held (fun k _ => !(lo ≤ k && k < hi))
    captured := FMap.keep s.captured (fun k _ => !(lo ≤ k && k < hi)) }

/-- The mode STY_DEV_MODE reports (R18). -/
inductive Mode where
  | dormant | vigil | bringUp | solo | fabric | diptych
  deriving DecidableEq, Repr

/-- The code of a mode (R458). -/
def Mode.code : Mode → Nat
  | .dormant => 0
  | .vigil => 1
  | .bringUp => 2
  | .solo => 3
  | .fabric => 4
  | .diptych => 5

/-- The mode of a code; codes 6 and 7 are reserved and never held. -/
def Mode.ofCode : Nat → Mode
  | 0 => .dormant
  | 1 => .vigil
  | 2 => .bringUp
  | 3 => .solo
  | 4 => .fabric
  | _ => .diptych

/-- The current mode. -/
def State.mode (s : State) : Mode := Mode.ofCode (s.fld Reg.STY_DEV_MODE 2 0)

/-- The mode becomes `m` (R18). -/
def State.setMode (s : State) (m : Mode) : State := s.setFld Reg.STY_DEV_MODE 2 0 m.code

/-- {MAJOR, MINOR} of GLB_IDENT as MAJOR * 16 + MINOR (R2). -/
def State.revision (s : State) : Nat := 16 * s.fld Reg.GLB_IDENT_HI 3 0 + s.fld Reg.GLB_IDENT_HI 7 4

/-- Unit arbiter `i` of GLB_ARB_FREEZE grants nothing new (R361, R365). -/
def State.arbFrozen (s : State) (i : Nat) : Bool := s.bit Reg.GLB_ARB_FREEZE i

/-- Firmware runs and has not yet written GLB_MODE_CTL (R468): STAGE reads 2 or 4 while DEV_MODE reads Dormant. -/
def State.firmwareStage (s : State) : Bool :=
  s.mode = .dormant && (s.fld Reg.GLB_BOOT_STATUS 31 28 = 2 || s.fld Reg.GLB_BOOT_STATUS 31 28 = 4)

/-- A rule that admits a write only in Bring-up admits one of master `m` now (R29, R335, R411, R468). -/
def State.bringUpAdmits (s : State) (m : Nat) : Bool :=
  if s.firmwareStage then decide (0x140 ≤ m) && decide (m ≤ 0x14F) else s.mode = .bringUp

/-- Host function `f` is enabled. -/
def State.fnEnabled (s : State) (f : Nat) : Bool := decide (f < s.functions)

/-- Host data written by function `f` carries Relaxed Ordering (R249). -/
def State.fnRelaxed (s : State) (f : Nat) : Bool := s.relaxed.testBit f

/-- The event happens at steady time `t` or, if that has passed, now. -/
def State.atTime (s : State) (t : Nat) : State :=
  if s.time.toNat < t then { s with time := BitVec.ofNat 64 t } else s

/-- This module is a half of a formed pair: in Diptych, or in the Vigil entered from it, whose hinge stays up (R449), until it has
declared its peer lost (R406). -/
def State.inPair (s : State) : Bool :=
  (s.mode = .diptych || (s.mode = .vigil && s.steady.vigilFrom = Mode.code .diptych)) && s.fld Reg.GLB_PAIR_STATUS 31 30 ≠ 3

/-- The role of this half in a formed pair: `some false` FRONT, `some true` BACK (R400). -/
def State.role (s : State) : Option Bool :=
  if s.inPair then some (s.fld Reg.GLB_PAIR_CTL 1 0 = 2) else none

/-- The half of the pair whose spans this module holds: of a formed pair, and of one that has lost its other half, which keeps its
own spans and answers for the lost ones (R21, R400, R408). -/
def State.mapRole (s : State) : Option Bool :=
  if s.inPair || (s.fld Reg.GLB_PAIR_STATUS 31 30 = 3 && s.fld Reg.GLB_PAIR_STATUS 15 0 = 0) then
    some (s.fld Reg.GLB_PAIR_CTL 1 0 = 2)
  else none

/-- The local number of a pair tile this module holds (R26, R172). -/
def State.localTile (s : State) (t : Nat) : Option Nat :=
  match s.role with
  | none => if t < 64 then some t else none
  | some false => if t < 64 then some t else none
  | some true => if 64 ≤ t && t < 128 then some (t - 64) else none

/-- The pair tile number of local tile `n`. -/
def State.pairTile (s : State) (n : Nat) : Nat := if s.role = some true then n + 64 else n

end Sys2Proof.Machine
end

