-- ==== Sys2Proof/Machine/Guard.lean ====
section
/-! DEFINITION. What every unit shares: Headstock events (R311), MSI-X messages (R248), Guard's interrupt (R483), its error
log (R43, R44) and the access tables (R34 to R36). -/

namespace Sys2Proof.Machine

/-- Thread `t` becomes READY at the tail of its level (R304); a thread's number has ten bits (R301). -/
def State.makeReady (s : State) (t : Nat) : State :=
  let t := t % 1024
  let prio := s.fld (Reg.HDS_THR_STATE t) 4 0
  let s := s.wr (Reg.HDS_THR_STATE t) (BitVec.ofNat 32 (2 ^ 29 + prio))
  { s with ready := FMap.setD s.ready prio (FMap.getD s.ready prio ++ [t]) }

/-- SIGNAL of event `e` (R311). -/
def State.signal (s : State) (e : Nat) : State :=
  match FMap.getD s.waiters e with
  | t :: rest => State.makeReady { s with waiters := FMap.setD s.waiters e rest, waitOrder := s.waitOrder.erase t } t
  | [] =>
    if s.fld (Reg.HDS_EVT e) 15 0 = 0xFFFF then s.setFld Reg.HDS_STATUS 31 31 1
    else s.setFld (Reg.HDS_EVT e) 15 0 (s.fld (Reg.HDS_EVT e) 15 0 + 1)

/-- The held word `w` (0–3) of MSI-X table entry `v` of function `fn` (R248). -/
def msixWord (fn v w : Nat) : Nat := fnView fn (0x8000 + 16 * v + 4 * w)

/-- The held PBA word of vector `v` of function `fn` (R248). -/
def pbaWord (fn v : Nat) : Nat := fnView fn (0x10000 + 4 * (v / 32))

/-- Function `fn` signals vector `v`: a masked vector sets its pending bit, any other sends its message (R248). -/
def State.msix (s : State) (fn v : Nat) : State :=
  if s.bit (msixWord fn v 3) 0 then
    s.setFld (pbaWord fn v) (v % 32) (v % 32) 1
  else
    { s with sent := s.sent ++ [.msix fn v (s.rd64 (msixWord fn v 0)) (s.rd (msixWord fn v 2))] }

/-- Function `fn` reports an error through AER (R35, R247). -/
def State.aer (s : State) (fn : Nat) (e : AerError) : State := { s with sent := s.sent ++ [.aer fn e] }

/-- A read of host memory that ends its command with `st` is reported through AER (R247); a timeout is reported with the status of a
refusal. -/
def State.aerStatus (s : State) (fn st : Nat) : State :=
  if st = St.accessDenied then s.aer fn .readRefused
  else if st = St.poisonedData then s.aer fn .readPoisoned
  else s

/-- Some enabled bit of an interrupt status register is set. -/
def State.intOn (s : State) (st en : Nat) : Bool := (s.rd st &&& s.rd en) != 0

/-- The word GRD_UNIT_INT reads (R483, R489). -/
def State.unitInt (s : State) : Nat :=
  let any64 (p : Nat → Bool) : Bool := (List.range 64).any p
  [ s.intOn Reg.QE_INT_STATUS Reg.QE_INT_ENABLE,
    s.intOn Reg.HDS_INT_STATUS Reg.HDS_INT_ENABLE,
    s.intOn Reg.DMA_INT_STATUS Reg.DMA_INT_ENABLE,
    s.intOn Reg.STP_INT_STATUS Reg.STP_INT_ENABLE,
    s.intOn Reg.PRF_INT_STATUS Reg.PRF_INT_ENABLE,
    s.intOn Reg.GAU_INT_STATUS Reg.GAU_INT_ENABLE,
    s.intOn Reg.PLT_INT_STATUS Reg.PLT_INT_ENABLE,
    s.intOn Reg.HAT_INT_STATUS Reg.HAT_INT_ENABLE,
    any64 (fun r => s.intOn (Reg.MSH_INT_STATUS r) (Reg.MSH_INT_ENABLE r)),
    s.intOn Reg.STY_INT_STATUS Reg.STY_INT_ENABLE,
    any64 (fun n => s.intOn (Reg.MC_INT_STATUS n) (Reg.MC_INT_ENABLE n)),
    s.rd64 Reg.GLB_TILE_FAILING_LO != 0,
    any64 (fun n => s.bit (Reg.SCS_STATUS n) 1) ].foldr (fun b n => 2 * (bit01 b + n)) 0

/-- Guard's interrupt condition (R483). -/
def State.guardCondition (s : State) : Bool :=
  s.intOn Reg.GRD_INT_STATUS Reg.GRD_INT_ENABLE || s.unitInt != 0

/-- Guard sends and signals as GRD_INT_ROUTE says (R483). -/
def State.guardSend (s : State) : State :=
  let s := if s.bit Reg.GRD_INT_ROUTE 31 then s.msix 0 (s.fld Reg.GRD_INT_ROUTE 10 0) else s
  if s.bit Reg.GRD_INT_ROUTE 30 then s.signal 130 else s

/-- Guard looks at its condition after an event: a turn from false to true sends (R483). -/
def State.guardEdge (s : State) : State :=
  let now := s.guardCondition
  let was := s.guardRaised
  let s := { s with guardRaised := now }
  if now && !was then s.guardSend else s

/-- Guard looks at its condition after a write to a W1C bit that feeds it: one that still holds sends again (R483). -/
def State.guardAgain (s : State) : State :=
  let now := s.guardCondition
  let s := { s with guardRaised := now }
  if now then s.guardSend else s

/-- Bit `b` of interrupt status register `st` is set by the hardware. -/
def State.raise (s : State) (st b : Nat) : State := (s.setFld st b b 1).guardEdge

/-- Word 0 of a Guard record (R43). -/
def reportWord0 (r : Report) : Nat :=
  2 ^ 16 * (r.status % 2 ^ 16) + 2 ^ 8 * (r.target % 2 ^ 8) + 2 ^ 4 * (r.severity % 16)

/-- The eight words of a fresh record of `r` at time `t` (R43). -/
def reportWords (r : Report) (t : Nat) : List Nat :=
  [ reportWord0 r, r.master % 2 ^ 12, r.address % 2 ^ 32, r.address / 2 ^ 32 % 2 ^ 16, t % 2 ^ 32, t / 2 ^ 32,
    2 ^ 16 + r.tag % 2 ^ 16, r.detail % 2 ^ 32 ]

/-- Whether `r` merges with the record whose words 0 and 1 are given (R44). -/
def reportMatches (r : Report) (w0 w1 : Word) : Bool :=
  bits w0.toNat 31 8 = bits (reportWord0 r) 31 8 && w1.toNat = r.master % 2 ^ 12

/-- Words stored at consecutive registers. -/
def State.wrWords (s : State) (off : Nat) : List Nat → State
  | [] => s
  | w :: ws => (s.wr off (BitVec.ofNat 32 w)).wrWords (off + 4) ws

/-- A report that is not merged is stored, or counted as lost while the log is full (R44). -/
def State.storeReport (s : State) (r : Report) : State :=
  let w := s.fld Reg.GRD_ELOG_WR 8 0
  if (w + 512 - s.fld Reg.GRD_ELOG_RD 8 0) % 512 ≥ 256 then
    (s.count Reg.GRD_ELOG_LOST 31 0 1).setFld Reg.GRD_INT_STATUS 2 2 1
  else
    let s := s.wrWords (Reg.GRD_ELOG_W0 (w % 256)) (reportWords r s.time.toNat)
    let s := s.setFld Reg.GRD_ELOG_WR 8 0 ((w + 1) % 512)
    let s := s.setFld Reg.GRD_INT_STATUS 0 0 1
    if r.severity = 3 || r.severity = 4 then s.setFld Reg.GRD_INT_STATUS 1 1 1 else s

/-- The register of word 0 of the newest record. -/
def State.newestRecord (s : State) : Nat := Reg.GRD_ELOG_W0 ((s.fld Reg.GRD_ELOG_WR 8 0 + 511) % 256)

/-- A report enters Guard: merged with the newest unread record, stored, or counted as lost (R44). -/
def State.report (s : State) (r : Report) : State :=
  let newest := s.newestRecord
  let s' :=
    if s.fld Reg.GRD_ELOG_WR 8 0 ≠ s.fld Reg.GRD_ELOG_RD 8 0 && reportMatches r (s.rd newest) (s.rd (newest + 4)) then
      ((s.count (newest + 0x18) 31 16 1).wr64 (newest + 0x10) s.time.toNat).setFld Reg.GRD_INT_STATUS 0 0 1
    else s.storeReport r
  s'.guardEdge

/-- A report that is to have a record of its own (R36). -/
def State.reportOwn (s : State) (r : Report) : State := (s.storeReport r).guardEdge

/-- The unit whose window holds a register, as R513 names it. -/
def windowTarget (s : State) (off : Nat) : Nat :=
  let o := viewOffset off
  if o < 0x1000 then Tgt.global
  else if o < 0x2000 then Tgt.steady
  else if o < 0x10000 then Tgt.global
  else if o < 0x200000 then Tgt.qe
  else if o < 0x300000 then Tgt.headstock
  else if o < 0x310000 then Tgt.dma
  else if o < 0x320000 then Tgt.stipple
  else if o < 0x330000 then Tgt.proof
  else if o < 0x400000 then Tgt.gauge
  else if o < 0x500000 then Tgt.channel ((o - 0x400000) / 0x1000)
  else if o < 0x600000 then Tgt.cache
  else if o < 0x700000 then Tgt.mesh
  else if o < 0x780000 then Tgt.hatch
  else if o < 0x7C0000 then Tgt.plate
  else if o < 0x800000 then Tgt.mgt
  else Tgt.tile (s.pairTile ((o - 0x800000) / 0x10000))

/-- The DPA of a register (R24, R30). -/
def regDpa (off : Nat) : Nat := 0x20000000000 + viewOffset off

/-- A register write that the register's own unit refuses is recorded with `status` (R513). -/
def State.refuseDetail (s : State) (m off status detail : Nat) : State :=
  s.report
    { status := status, target := windowTarget s off, severity := 2, master := m, address := regDpa off, tag := 0xFFFF,
      detail := detail }

/-- `refuseDetail` where the rule gives no DETAIL (R513). -/
def State.refuse (s : State) (m off status : Nat) : State := s.refuseDetail m off status 0

/-- The rights a request needs: R, W, X, A (R34). -/
structure Rights where
  r : Bool
  w : Bool
  x : Bool
  a : Bool
  deriving DecidableEq, Repr

def Rights.read : Rights := ⟨true, false, false, false⟩
def Rights.write : Rights := ⟨false, true, false, false⟩
def Rights.fetch : Rights := ⟨false, false, true, false⟩
def Rights.atomic : Rights := ⟨true, true, false, false⟩
def Rights.admin : Rights := ⟨false, true, false, true⟩

/-- The register offset of grant `g` of table `t`. -/
def grantAt (t g : Nat) : Nat := Reg.GRD_GRANT_CONTROL_LO t g

/-- All three slots of a grant are intact (R36, R39). -/
def State.grantIntact (s : State) (t g : Nat) : Bool :=
  let at' := grantAt t g
  cp32Ok (s.rd64 at') && cp32Ok (s.rd64 (at' + 8)) && cp32Ok (s.rd64 (at' + 16))

/-- A grant admits the request, judged by the values its slots hold (R34). -/
def State.grantMatches (s : State) (t g m addr len : Nat) (n : Rights) : Bool :=
  let at' := grantAt t g
  let c := (s.rd at').toNat
  let base := (s.rd (at' + 8)).toNat
  let limit := (s.rd (at' + 16)).toNat
  c.testBit 31 && decide (bits c 11 0 ≤ m) && decide (m ≤ bits c 23 12)
    && decide (base ≤ addr / 65536) && decide ((addr + len - 1) / 65536 ≤ limit)
    && (!n.r || c.testBit 24) && (!n.w || c.testBit 25) && (!n.x || c.testBit 26) && (!n.a || c.testBit 27)

/-- A grant is faulted: marked so, or found broken now (R36). -/
def State.isFaulted (s : State) (t g : Nat) : Bool :=
  FMap.getD s.grantFaulted (128 * t + g) || !s.grantIntact t g

/-- The grants of a table a lookup newly finds broken (R36). -/
def State.newlyBroken (s : State) (t : Nat) : List Nat :=
  (List.range 128).filter (fun g => !FMap.getD s.grantFaulted (128 * t + g) && !s.grantIntact t g)

/-- The status with which table `t` answers a request: OK, ACCESS_DENIED or COMPLEMENT_MISMATCH (R34, R36). -/
def State.verdict (s : State) (t m addr len : Nat) (n : Rights) : Nat :=
  if (List.range 128).any (fun g => !s.isFaulted t g && s.grantMatches t g m addr len n) then St.ok
  else if (List.range 128).any (fun g => s.isFaulted t g && s.grantMatches t g m addr len n) then St.complementMismatch
  else St.accessDenied

/-- A grant found broken is marked faulted and recorded, each in a record of its own (R36; DEDUCED over R44, assumption
104). -/
def State.markFaulted (s : State) (t m addr g : Nat) : State :=
  State.reportOwn { s with grantFaulted := FMap.setD s.grantFaulted (128 * t + g) true }
    { status := St.complementMismatch, target := t, severity := 3, master := m, address := addr, tag := 0xFFFF,
      detail := g }

/-- The record of a denied request (R35), never merged with the record of a broken grant (R36; DEDUCED over R44, assumption
104). -/
def State.reportDenied (s : State) (r : Report) : State :=
  if s.fld s.newestRecord 7 4 = 3 then s.reportOwn r else s.report r

/-- A lookup in table `t` (R34 to R36): the status, with newly broken grants recorded and a denial recorded. -/
def State.judge (s : State) (t m addr len : Nat) (n : Rights) : Nat × State :=
  let v := s.verdict t m addr len n
  let s := (s.newlyBroken t).foldl (fun s g => s.markFaulted t m addr g) s
  if v = St.ok then (v, s)
  else
    (v, s.reportDenied { status := v, target := t, severity := 2, master := m, address := addr, tag := 0xFFFF, detail := 0 })

/-- A prefetch is judged like a read and leaves no record of its denial (R35, R350). -/
def State.judgeQuiet (s : State) (t m addr len : Nat) (n : Rights) : Nat × State :=
  (s.verdict t m addr len n, (s.newlyBroken t).foldl (fun s g => s.markFaulted t m addr g) s)

/-- A request to an unmapped DPA (R25). -/
def State.unmapped (s : State) (m dpa : Nat) : State :=
  s.report
    { status := St.accessDenied, target := Tgt.none, severity := 2, master := m, address := dpa, tag := 0xFFFF,
      detail := 0 }

end Sys2Proof.Machine
end

