-- ==== Sys2Proof/Machine/Fabric.lean ====
section
/-! DEFINITION. How Hatch sends: route lookup and output ports (R379), transactions of the node's own origin (R388), and the
remote aperture's entries (R384). -/

namespace Sys2Proof.Machine

/-- The STATE of port `p` (R393): 0 DOWN, 1 TRAINING, 2 UP, 3 ASLEEP, 4 RETIRED, 5 HINGE. -/
def State.portState (s : State) (p : Nat) : Nat := s.fld (Reg.HAT_PORT_STATE p) 2 0

/-- This node's FID, if it has one. -/
def State.ownFid (s : State) : Option Nat := if s.bit Reg.HAT_FID 31 then some (s.fld Reg.HAT_FID 17 0) else none

/-- The FID packets of this node carry as their source: 0x3FFFF while it has none (R397). -/
def State.srcFid (s : State) : Nat := s.ownFid.getD 0x3FFFF

/-- The register of the route entry a destination uses in bank `b` (R379). -/
def State.routeAt (s : State) (b d : Nat) : Nat :=
  if bits d 17 8 = bits (s.srcFid) 17 8 then Reg.HAT_BANK_MBR_LO b (d % 256) else Reg.HAT_BANK_GRP_LO b (bits d 17 8)

/-- The active route bank. -/
def State.activeBank (s : State) : Nat := s.fld Reg.HAT_ROUTE_CTL 0 0

/-- The value of an intact route entry for a destination; a broken pair faults it (R39, R379). -/
def State.routeEntry (s : State) (d : Nat) : Option Nat × State :=
  let n := s.rd64 (s.routeAt s.activeBank d)
  if cp32Ok n then (some (n % 2 ^ 32), s)
  else
    (none,
      (s.raise Reg.HAT_INT_STATUS 2).report
        { status := St.complementMismatch, target := Tgt.hatch, severity := 2, master := 0x200,
          address := regDpa (s.routeAt s.activeBank d), tag := 0xFFFF, detail := d })

/-- Where a packet goes (R379). -/
inductive RouteTo where
  /-- The packet is for this node. -/
  | here
  | unreachable
  | port (p : Nat)
  /-- Held at a port that trains. -/
  | hold (p : Nat)
  deriving DecidableEq, Repr

/-- Port value `p` takes packets now: UP or ASLEEP; the other half's ports lie beyond the hinge. -/
def State.portTakes (s : State) (p : Nat) : Bool :=
  if p < 8 then s.portState p = 2 || s.portState p = 3 else p < 14 && s.inPair

/-- Port value `p` trains. -/
def State.portTrains (s : State) (p : Nat) : Bool := p < 8 && s.portState p = 1

/-- The route of a packet for `d` (R379). -/
def State.route (s : State) (d : Nat) : RouteTo × State :=
  if s.ownFid = some d then (.here, s)
  else
    let (e, s) := s.routeEntry d
    match e with
    | none => (.unreachable, s)
    | some v =>
      let p := bits v 3 0
      let a := bits v 7 4
      let alt := v.testBit 30
      if !v.testBit 31 then (.unreachable, s)
      else if s.portTakes p then (.port p, s)
      else if alt && s.portTakes a then (.port a, s)
      else if s.portTrains p then (.hold p, s)
      else if alt && s.portTrains a then (.hold a, s)
      else (.unreachable, s)

/-- The link state of port `p`. -/
def State.hatPort (s : State) (p : Nat) : HatPort := FMap.get (fun _ => HatPort.new) s.hat.ports p

/-- The link state of port `p` becomes `v`. -/
def State.setHatPort (s : State) (p : Nat) (v : HatPort) : State :=
  { s with hat := { s.hat with ports := FMap.set (fun _ => HatPort.new) s.hat.ports p v } }

/-- The flit bodies a packet fills: header, padded payload and trailer (R381). -/
def packetFlits (k : Packet) : Nat := (48 + (k.payload.length + 15) / 16 * 16 + 127) / 128

/-- DATA flits sent and not acknowledged. -/
def HatPort.unacked (h : HatPort) : Nat := (h.txNext + 4096 - h.txAcked - 1) % 4096

/-- A port may send a packet's flits now: credits of its VC and room in the replay buffer (R369, R370). -/
def HatPort.maySend (h : HatPort) (k : Packet) : Bool :=
  decide (packetFlits k ≤ h.credits.getD (k.vc % 4) 0) && decide (h.unacked + packetFlits k ≤ 512)

/-- The packets queued at an UP port leave in order, those of a VC without credits waiting for their own (R370, R379). -/
def State.flushPort (s : State) (p : Nat) : State :=
  if s.portState p ≠ 2 && s.portState p ≠ 5 then s
  else
    let step (acc : HatPort × List Packet × List Packet) (k : Packet) : HatPort × List Packet × List Packet :=
      let (h, out, left) := acc
      if !left.any (fun q => q.vc % 4 = k.vc % 4) && h.maySend k then
        ({ h with
            txNext := (h.txNext + packetFlits k) % 4096
            credits := h.credits.set (k.vc % 4) (h.credits.getD (k.vc % 4) 0 - packetFlits k) }, out ++ [k], left)
      else (h, out, left ++ [k])
    let (h, out, left) := (FMap.getD s.portQueue p).foldl step (s.hatPort p, [], [])
    State.setHatPort { s with sent := s.sent ++ out.map (Sent.packet p), portQueue := FMap.setD s.portQueue p left } p h

/-- A packet is put on a port: sent when the port is UP and holds credit, else held there; an ASLEEP link is woken first
(R370, R373). -/
def State.putPacket (s : State) (p : Nat) (k : Packet) : State :=
  if 8 ≤ p then { s with sent := s.sent ++ [.packet p k] }
  else
    let s := if s.portState p = 3 then { s with sent := s.sent ++ [.wake p 1] } else s
    State.flushPort { s with portQueue := FMap.setD s.portQueue p (FMap.getD s.portQueue p ++ [k]) } p

/-- A packet of this node's own origin is routed: the port that takes it, or FABRIC_UNREACHABLE (R379). -/
def State.sendPacket (s : State) (k : Packet) : Except Nat Nat × State :=
  match s.route k.dst with
  | (.here, s) => (.ok 17, s.putPacket 17 k)
  | (.unreachable, s) => (.error 0x0601, s)
  | (.port p, s) => (.ok p, s.putPacket p k)
  | (.hold p, s) => (.ok p, s.putPacket p k)

/-- A packet without payload or status. -/
def Packet.plain (op vc src dst tag len : Nat) : Packet where
  op := op
  vc := vc
  poison := false
  hops := 32
  src := src
  dst := dst
  tag := tag
  len := len
  status := 0
  aux := 0
  addr := 0
  aux2 := 0
  payload := []
  badEcrc := false
  reserved := false

/-- The lowest transaction tag that is neither outstanding nor within 2 ms of a timeout; none while 4,096 are outstanding
(R388). -/
def State.freeTag (s : State) : Option Nat :=
  if s.txs.length ≥ 4096 then none
  else
    (List.range 65536).find? (fun t =>
      !s.txs.any (fun x => x.tag = t) && !s.txDead.any (fun d => d.1 = t && decide (s.time.toNat < d.2 + 2000000)))

/-- INUSE follows the outstanding transactions. -/
def State.countTags (s : State) : State := s.setFld Reg.HAT_TAGS 12 0 s.txs.length

/-- A transaction starts. -/
def State.openTx (s : State) (tag port : Nat) (kind : TxKind) : State :=
  State.countTags { s with txs := s.txs ++ [⟨tag, s.time.toNat, port, kind⟩] }

/-- A transaction ends. -/
def State.closeTx (s : State) (tag : Nat) : State :=
  State.countTags { s with txs := s.txs.filter (fun x => x.tag ≠ tag) }

/-- What an aperture request meets at its entry (R384): the status, and the FID and window of an admitted one. -/
def State.apertureCheck (s : State) (n m : Nat) (read write : Bool) : Nat × Nat × Nat :=
  let tgt := s.rd64 (Reg.HAT_RAP_TGT_LO n)
  let acl := s.rd64 (Reg.HAT_RAP_ACL_LO n)
  if !cp32Ok tgt || !cp32Ok acl then (St.complementMismatch, 0, 0)
  else if tgt.testBit 31 && decide (bits acl 11 0 ≤ m) && decide (m ≤ bits acl 23 12) && (!read || acl.testBit 24)
      && (!write || acl.testBit 25) then (St.ok, bits tgt 17 0, bits tgt 24 18)
  else (St.accessDenied, 0, 0)

end Sys2Proof.Machine
end

