-- ==== Sys2Proof/Machine/MeshPath.lean ====
section
/-! DEFINITION. The way of a packet over the mesh (R353, R355): the routers it crosses, and whether one of its links is DEAD or
one of its routers frozen (R358, R360). -/

namespace Sys2Proof.Machine

/-- One hop along a row towards column `x`: the port. -/
def hopX (r x : Nat) : Option Nat := if r % 8 < x then some 1 else if x < r % 8 then some 3 else none

/-- One hop along a column towards row `y`: the port. -/
def hopY (r y : Nat) : Option Nat := if r / 8 < y then some 2 else if y < r / 8 then some 0 else none

/-- The router beyond port `p`: 0 N, 1 E, 2 S, 3 W; none at the edge (R364). -/
def beyond (r p : Nat) : Option Nat :=
  match p with
  | 0 => if r < 8 then none else some (r - 8)
  | 1 => if r % 8 = 7 then none else some (r + 1)
  | 2 => if 56 ≤ r then none else some (r + 8)
  | _ => if r % 8 = 0 then none else some (r - 1)

/-- The hops from `r` to `d`, as router and output port, X first or Y first (R355). -/
def hops (xFirst : Bool) (d : Nat) : Nat → Nat → List (Nat × Nat)
  | 0, _ => []
  | fuel + 1, r =>
    let x := hopX r (d % 8)
    let y := hopY r (d / 8)
    match if xFirst then x.orElse (fun _ => y) else y.orElse (fun _ => x) with
    | none => []
    | some p => (r, p) :: hops xFirst d fuel ((beyond r p).getD r)

/-- The hops of a packet stamped at router `a` for router `d` (R355). -/
def State.meshHops (s : State) (a d : Nat) : List (Nat × Nat) :=
  let e := s.rd (Reg.MSH_ROUTE a d)
  match bits e.toNat 15 14 with
  | 0 => hops true d 15 a
  | 1 => hops false d 15 a
  | _ =>
    let via := bits e.toNat 5 0
    hops false via 15 a ++ hops true d 15 via

/-- A packet from router `a` to router `d` meets a DEAD link or a frozen router, and is held (R358, R360). -/
def State.wayBlocked (s : State) (a d : Nat) : Bool :=
  let hs := s.meshHops a d
  hs.any (fun h => s.bit (Reg.MSH_LINK h.1) (4 + h.2)) || (d :: hs.map (·.1)).any (fun r => s.bit (Reg.MSH_STATUS r) 0)

/-- A request from router `a` to router `d`, or its response, is held. While no mesh register has left its reset value, nothing
is. -/
def State.meshHolds (s : State) (a d : Nat) : Bool :=
  s.regs.any (fun e => decide (0x600000 ≤ e.1) && decide (e.1 < 0x610000)) && (s.wayBlocked a d || s.wayBlocked d a)

/-- The router a master's requests enter at (R353). -/
def masterRouter (m : Nat) : Nat :=
  if 0x100 ≤ m && m < 0x140 then m - 0x100
  else if 0x140 ≤ m && m < 0x148 then 16
  else if 0x148 ≤ m && m < 0x150 then 24
  else if m = Mid.dma then 31
  else if m = Mid.stipple then 39
  else if m = Mid.proof then 47
  else if m = Mid.gauge then 55
  else if m = Mid.plate then 23
  else if m = Mid.qe then 8
  else if 0x200 ≤ m && m < 0x300 then 7
  else if m = Mid.steady then 32
  else if m = Mid.debug then 40
  else 0

/-- The router of controller `n` (R353). -/
def controllerRouter (n : Nat) : Nat := if n < 32 then n / 4 else 56 + (n - 32) / 4

/-- The router of the unit whose window holds a register (R353). -/
def registerRouter (off : Nat) : Nat :=
  if off < 0x10000 then 32
  else if off < 0x200000 then 8
  else if off < 0x300000 then 16
  else if off < 0x310000 then 31
  else if off < 0x320000 then 39
  else if off < 0x330000 then 47
  else if off < 0x400000 then 55
  else if off < 0x500000 then controllerRouter ((off - 0x400000) / 0x1000 % 64)
  else if off < 0x600000 then (off - 0x500000) / 0x1000 % 64
  else if off < 0x700000 then (off - 0x600000) / 0x400 % 64
  else if off < 0x780000 then 7
  else if off < 0x7C0000 then 23
  else if off < 0x800000 then 40
  else (off - 0x800000) / 0x10000 % 64

end Sys2Proof.Machine
end

