-- ==== Sys2Proof/Machine/Cache.lean ====
section
/-! DEFINITION. Set-associative caches with tree pseudo-LRU replacement (R345), shared by the system cache slices and the
caches of the cores. -/

namespace Sys2Proof.Machine

/-- The number of tree levels over `ways` ways. -/
def plruLevels (ways : Nat) : Nat := Nat.log2 ways

/-- The tree bits with every node on the path to the leaf `i`, `lev` levels up, pointing away from it (R345). -/
def plruTouchFrom : Nat → Nat → Nat → Nat
  | 0, _, b => b
  | lev + 1, i, b => plruTouchFrom lev (i / 2) (setBits b (i / 2) (i / 2) (if i % 2 = 0 then 1 else 0))

/-- The tree bits after a hit or a fill of way `w` (R345). -/
def plruTouch (ways w b : Nat) : Nat := plruTouchFrom (plruLevels ways) (ways + w) b

/-- The walk from node `i` with `lev` levels below it, never entering a subtree of locked ways only (R345). -/
def plruWalk (ways : Nat) (locked : Nat → Bool) (b : Nat) : Nat → Nat → Nat
  | 0, i => i - ways
  | lev + 1, i =>
    let c := 2 * i + bit01 (b.testBit i)
    let shut := (List.range (2 ^ lev)).all (fun j => locked (c * 2 ^ lev + j - ways))
    plruWalk ways locked b lev (if shut then (if c % 2 = 0 then c + 1 else c - 1) else c)

/-- The valid line in way `w` of `set`. -/
def Cache.at (c : Cache) (ways set w : Nat) : Option Line := FMap.getD c.lines (set * ways + w)

/-- The way of `set` that holds `tag`. -/
def Cache.find (c : Cache) (ways set tag : Nat) : Option Nat :=
  (List.range ways).find? (fun w => match c.at ways set w with | some l => l.tag = tag | none => false)

/-- The way of `set` to fill: the lowest invalid unlocked way, else the walk's victim (R345). -/
def Cache.victim (c : Cache) (ways set : Nat) (locked : Nat → Bool) : Nat :=
  match (List.range ways).find? (fun w => !locked w && (c.at ways set w).isNone) with
  | some w => w
  | none => plruWalk ways locked (FMap.getD c.plru set) (plruLevels ways) 1

/-- Way `w` of `set` becomes `l`. -/
def Cache.put (c : Cache) (ways set w : Nat) (l : Option Line) : Cache :=
  { c with lines := FMap.setD c.lines (set * ways + w) l }

/-- The tree of `set` after a use of way `w`. -/
def Cache.touch (c : Cache) (ways set w : Nat) : Cache :=
  { c with plru := FMap.setD c.plru set (plruTouch ways w (FMap.getD c.plru set)) }

/-- Bytes written into a list at offset `o`. -/
def overlay (old : List Byte) (o : Nat) (new : List Byte) : List Byte :=
  old.take o ++ new ++ old.drop (o + new.length)

/-- The poison mark of a 64-byte granule after `k` of its bytes are written with data marked `p`: a whole granule takes the
data's mark, a part leaves a mark in place (R41). -/
def poisonAfter (old : Bool) (k : Nat) (p : Bool) : Bool := if k ≥ 64 then p else old || p

end Sys2Proof.Machine
end

