-- ==== Sys2Proof/Machine/Hbm.lean ====
section
/-! DEFINITION. Local HBM below the system cache: where a granule lives (R27, R28, R318 to R320), and what a controller does
with a read or write of a burst (R327 to R329), with mirror windows around it (R335, R336). -/

namespace Sys2Proof.Machine

/-- 1 GiB. -/
def gib : Nat := 2 ^ 30

/-- The channel of R27. -/
def r27Channel (dpa : Nat) : Nat := bits dpa 13 8 ^^^ bits dpa 19 14

/-- Enabled affinity block `n` holds the DPA (R28). -/
def State.inAffinity (s : State) (n dpa : Nat) : Bool :=
  let w := Reg.GLB_AFF n
  s.bit w 31 && decide (4 * gib * s.fld w 7 0 ≤ dpa) && decide (dpa < 4 * gib * (s.fld w 7 0 + s.fld w 15 8))

/-- The stack an enabled affinity block keeps the DPA on (R28). -/
def State.affinityStack (s : State) (dpa : Nat) : Option Nat :=
  match (List.range 8).find? (fun n => s.inAffinity n dpa) with
  | some n => some ((dpa - 4 * gib * s.fld (Reg.GLB_AFF n) 7 0) / (gib * s.fld (Reg.GLB_AFF n) 15 8))
  | none => none

/-- The channel of R28 inside quarter `k`. -/
def r28Channel (k dpa : Nat) : Nat := 16 * k + (bits dpa 11 8 ^^^ bits dpa 15 12)

/-- Enabled mirror window `m` has the DPA in the range that starts at field `hi..lo` of its CFG (R319). -/
def State.inMirror (s : State) (m hi lo dpa : Nat) : Bool :=
  let w := Reg.GLB_MIR_CFG m
  s.bit w 31 && decide (gib * s.fld w hi lo ≤ dpa) && decide (dpa < gib * (s.fld w hi lo + s.fld w 23 16))

/-- The mirror window whose primary range holds the DPA. -/
def State.primaryWindow (s : State) (dpa : Nat) : Option Nat := (List.range 8).find? (fun m => s.inMirror m 7 0 dpa)

/-- The mirror window whose copy range holds the DPA. -/
def State.copyWindow (s : State) (dpa : Nat) : Option Nat := (List.range 8).find? (fun m => s.inMirror m 15 8 dpa)

/-- The home channel by rules 1 and 2 of R318. -/
def State.plainHome (s : State) (dpa : Nat) : Nat :=
  match s.affinityStack dpa with
  | some k => r28Channel k dpa
  | none => r27Channel dpa

/-- The primary address a copy address of window `m` mirrors (R319). -/
def State.primaryOf (s : State) (m dpa : Nat) : Nat :=
  gib * s.fld (Reg.GLB_MIR_CFG m) 7 0 + (dpa - gib * s.fld (Reg.GLB_MIR_CFG m) 15 8)

/-- The copy address of a primary address of window `m` (R319). -/
def State.copyOf (s : State) (m dpa : Nat) : Nat :=
  gib * s.fld (Reg.GLB_MIR_CFG m) 15 8 + (dpa - gib * s.fld (Reg.GLB_MIR_CFG m) 7 0)

/-- The home channel h(y) of R318. -/
def State.home (s : State) (dpa : Nat) : Nat :=
  match s.copyWindow dpa with
  | some m => s.plainHome (s.primaryOf m dpa) ^^^ 0x20
  | none => s.plainHome dpa

/-- Channel `c` is retired (R339). -/
def State.retired (s : State) (c : Nat) : Bool := (s.rd64 Reg.GLB_HBM_RETIRED_LO).testBit c

/-- The number of retired channels among those from `a` on, `n` of them. -/
def State.retiredCount (s : State) (a n : Nat) : Nat := ((rangeFrom a n).filter s.retired).length

/-- The limit L of R320 in bytes. -/
def State.hbmLimit (s : State) : Nat := 2 ^ 29 * s.fld Reg.GLB_HBM_LIMIT 7 0

/-- The granules of the 1 GiB span `g` whose home channel is retired: every 4 KiB of an affinity quarter and every 16 KiB of
any other span holds each of its channels once (R320). -/
def State.retiredInSpan (s : State) (g : Nat) : Nat :=
  match s.affinityStack (gib * g) with
  | some k => 2 ^ 18 * s.retiredCount (16 * k) 16
  | none => 2 ^ 16 * s.retiredCount 0 64

/-- The granules below `dpa` inside its own span whose home channel is retired. -/
def State.retiredInPart (s : State) (dpa : Nat) : Nat :=
  let o := dpa % gib
  let (group, per) : Nat × Nat :=
    match s.affinityStack dpa with
    | some k => (4096, s.retiredCount (16 * k) 16)
    | none => (16384, s.retiredCount 0 64)
  let start := dpa - o % group
  o / group * per
    + ((List.range (o % group / 256)).filter (fun j => s.retired (s.home (start + 256 * j)))).length

/-- The number of granules below `dpa` whose home channel is retired (R320). -/
def State.retiredBelow (s : State) (dpa : Nat) : Nat :=
  ((List.range (dpa / gib)).map s.retiredInSpan).foldl (· + ·) 0 + s.retiredInPart dpa

/-- The `n`-th granule, in ascending order, of the range from L up whose R27 channel is in service (R320). -/
def State.bandGranule (s : State) (n : Nat) : Nat :=
  let per := 64 - s.retiredCount 0 64
  let start := s.hbmLimit + 16384 * (n / per)
  let inService := (List.range 64).filter (fun j => !s.retired (r27Channel (start + 256 * j)))
  start + 256 * inService.getD (n % per) 0

/-- The storage address of a byte of local HBM: its own while its home channel is in service, else the one R320 gives. -/
def State.storage (s : State) (dpa : Nat) : Nat :=
  if s.retired (s.home dpa) then s.bandGranule (s.retiredBelow (dpa - dpa % 256)) + dpa % 256 else dpa

/-- The controller that stores a byte of local HBM. -/
def State.controller (s : State) (dpa : Nat) : Nat :=
  if s.retired (s.home dpa) then r27Channel (s.storage dpa) else s.home dpa

/-- What unlisted memory reads as: a byte of the newest undefined range that covers it, else 0 (DESIGN CHOICE, see
assumption 2). -/
def memDefault : List (Nat × Nat × Nat) → Nat → Byte
  | [], _ => 0
  | (lo, hi, n) :: r, a => if lo ≤ a && a < hi then Config.haze n a else memDefault r a

/-- Bytes of the flat store of HBM storage, benches and keep store. -/
def State.bytes (s : State) (a k : Nat) : List Byte := FMap.bytes (memDefault s.haze) s.mem a k

/-- Bytes put into the flat store. -/
def State.putBytes (s : State) (a : Nat) (bs : List Byte) : State :=
  { s with mem := FMap.store (memDefault s.haze) s.mem a bs }

/-- The stored bytes of the flat store from `a` to below `b` become undefined. -/
def State.blur (s : State) (a b : Nat) : State :=
  { s with
    mem := FMap.keep s.mem (fun k _ => !(decide (a ≤ k) && decide (k < b)))
    haze := (a, b, s.fresh) :: s.haze
    fresh := s.fresh + 1 }

/-- What unlisted poison marks read as: set in the band of local HBM that retirements have poisoned (R333). -/
def markDefault (start g : Nat) : Bool := decide (start ≤ g) && decide (g < 0x60000000)

/-- The poison mark of granule `g`. -/
def State.mark (s : State) (g : Nat) : Bool := FMap.get (markDefault s.poisonFrom) s.poison g

/-- The poison mark of granule `g` becomes `p`. -/
def State.setMark (s : State) (g : Nat) (p : Bool) : State :=
  { s with poison := FMap.set (markDefault s.poisonFrom) s.poison g p }

/-- The poison mark of the granule of address `a`. -/
def State.poisoned (s : State) (a : Nat) : Bool := s.mark (a / 64)

/-- The poison mark of the granule of address `a` becomes `p`. -/
def State.setPoison (s : State) (a : Nat) (p : Bool) : State := s.setMark (a / 64) p

/-- The condition of the array cells of a burst. -/
def State.cells (s : State) (a : Nat) : Ecc := FMap.get (fun _ => Ecc.clean) s.array (a / 64)

/-- The condition of the array cells of a burst becomes `e`. -/
def State.setCells (s : State) (a : Nat) (e : Ecc) : State :=
  { s with array := FMap.set (fun _ => Ecc.clean) s.array (a / 64) e }

/-- The state of controller `n`: 0 in service, 1 frozen, 2 retired (R340). -/
def State.mcState (s : State) (n : Nat) : Nat := s.fld (Reg.MC_STATUS n) 31 30

/-- What a read or write of memory answers: status, bytes, and whether they are poisoned. -/
structure MemAnswer where
  status : Nat
  data : List Byte
  poison : Bool
  deriving DecidableEq, Repr

/-- An answer without data. -/
def MemAnswer.stop (st : Nat) : MemAnswer := ⟨st, [], false⟩

/-- A report of controller `n` on the burst at `dpa` (R327). -/
def State.mcReport (s : State) (n m dpa status sev : Nat) : State :=
  s.report
    { status := status, target := Tgt.channel n, severity := sev, master := m, address := dpa, tag := 0xFFFF,
      detail := (Config.burstLocation (s.storage dpa / 64)).toNat }

/-- A report of the request of master `m` that finds controller `n` frozen (R328). -/
def State.frozenReport (s : State) (n m dpa : Nat) : State := s.mcReport n m dpa St.channelFrozen 2

/-- The requests queued at controller `n` complete with CHANNEL_FROZEN and are not performed; those of a mirror window wait for its
other side (R328, R336). -/
def State.failWaiting (s : State) (n : Nat) : State :=
  let gone (w : McWait) : Bool := w.mc = n && (s.primaryWindow w.req.dpa).isNone
  (s.mcWaiting.filter gone).foldl (fun s w => s.frozenReport n w.req.master w.req.dpa)
    { s with mcWaiting := s.mcWaiting.filter (fun w => !gone w) }

/-- Controller `n` freezes on the burst at `dpa` (R328); `kind` is 0 read, 1 partial-write read, 2 scrub. -/
def State.freezeController (s : State) (n m dpa kind : Nat) : State :=
  let loc := (Config.burstLocation (s.storage dpa / 64)).toNat
  let s := s.count (Reg.MC_UE_COUNT n) 31 0 1
  let s := s.wr64 (Reg.MC_CAP_DPA_LO n) dpa
  let s := s.wr (Reg.MC_CAP_LOC n) (BitVec.ofNat 32 loc)
  let s := s.wr (Reg.MC_CAP_INFO n)
    (BitVec.ofNat 32 (2 ^ 20 * m + 2 ^ 18 * kind + 2 ^ 17 + ((Config.syndrome s.fresh).toNat + 1)))
  let s := { s with fresh := s.fresh + 1 }
  let s := s.setFld (Reg.MC_STATUS n) 31 30 1
  let s := s.raise (Reg.MC_INT_STATUS n) 1
  (s.mcReport n m dpa St.poisonedData 4).failWaiting n

/-- A request answered by a frozen controller (R328). -/
def State.frozenAnswer (s : State) (n m dpa : Nat) : MemAnswer × State :=
  (MemAnswer.stop St.channelFrozen, s.frozenReport n m dpa)

/-- Controller `n` reads the burst at `dpa` (64-byte aligned) for master `m` (R327). -/
def State.mcRead (s : State) (n m dpa kind : Nat) : MemAnswer × State :=
  if s.mcState n = 1 then s.frozenAnswer n m dpa
  else
    let a := s.storage dpa
    if s.poisoned a then (⟨St.ok, s.bytes a 64, true⟩, s)
    else
      match s.cells a with
      | .clean => (⟨St.ok, s.bytes a 64, false⟩, s)
      | .corrected => (⟨St.ok, s.bytes a 64, false⟩, (s.count (Reg.MC_CE_COUNT n) 31 0 1).mcReport n m dpa St.ok 0)
      | .transient =>
        let s := s.setCells a .clean
        let s := s.count (Reg.MC_TRANSIENT_COUNT n) 31 0 1
        let s := s.raise (Reg.MC_INT_STATUS n) 0
        (⟨St.ok, s.bytes a 64, false⟩, s.mcReport n m dpa St.ok 1)
      | .uncorrectable => (⟨St.ok, s.bytes a 64, true⟩, s.freezeController n m dpa kind)

/-- Controller `n` writes `data` at offset `o` of the burst at `dpa`, marked poisoned by `p` (R329, R41). -/
def State.mcWrite (s : State) (n m dpa o : Nat) (data : List Byte) (p : Bool) : Nat × State :=
  if s.mcState n = 1 then
    let (a, s) := s.frozenAnswer n m dpa
    (a.status, s)
  else
    let a := s.storage dpa
    if o = 0 && data.length ≥ 64 then
      (St.ok, ((s.putBytes a (data.take 64)).setPoison a p).setCells a .clean)
    else
      let (r, s) := s.mcRead n m dpa 1
      if s.mcState n = 1 then
        let (a, s) := s.frozenAnswer n m dpa
        (a.status, s)
      else
        (St.ok, ((s.putBytes (a + o) data).setPoison a (r.poison || p)).setCells a .clean)

/-- A request meets a granule whose storage a running retirement changes (R333). -/
def State.moving (s : State) (dpa : Nat) : Bool :=
  s.bit Reg.GLB_HBM_RETIRE_CMD 30 && !s.retireWaits &&
    (s.retired (s.home dpa) || s.home dpa == s.fld Reg.GLB_HBM_RETIRE_CMD 21 16
      || decide (s.hbmLimit ≤ dpa + 3 * 2 ^ 29))

/-- The channel of a mirror side is frozen or in the window's degraded mask (R336), or its storage is just being moved. -/
def State.sideOut (s : State) (m dpa : Nat) : Bool :=
  s.moving dpa || s.mcState (s.controller dpa) = 1 || (s.rd64 (Reg.GLB_MIR_DEG_LO m)).testBit (s.home dpa)

/-- A channel joins the window's degraded mask (R336). -/
def State.degrade (s : State) (m dpa : Nat) : State :=
  let mask := s.rd64 (Reg.GLB_MIR_DEG_LO m)
  (s.wr64 (Reg.GLB_MIR_DEG_LO m) (setBits mask (s.home dpa) (s.home dpa) 1)).setFld (Reg.GLB_MIR_CTL m) 0 0 1

/-- A read of one side of a mirror window that fails takes the other; good data found there also mends the failed side
(R336). -/
def State.mirrorRead (s : State) (w m first other : Nat) (kind : Nat) : MemAnswer × State :=
  let (a, s) :=
    if s.sideOut w first then (⟨St.ok, [], true⟩, s) else s.mcRead (s.controller first) m first kind
  if a.status = St.ok && !a.poison then (a, s)
  else if s.sideOut w other then (⟨St.ok, List.replicate 64 0, true⟩, s)
  else
    let (b, s) := s.mcRead (s.controller other) m other kind
    if b.status = St.ok && !b.poison then
      (b, if s.sideOut w first then s else (s.mcWrite (s.controller first) m first 0 b.data false).2)
    else (⟨St.ok, List.replicate 64 0, true⟩, s)

/-- A write of one side of a mirror window: performed, or skipped with its channel added to the mask (R336). -/
def State.mirrorWriteSide (s : State) (w m dpa o : Nat) (data : List Byte) (p : Bool) : Bool × State :=
  if s.moving dpa then (false, s)
  else if s.sideOut w dpa then (false, s.degrade w dpa)
  else
    let (st, s) := s.mcWrite (s.controller dpa) m dpa o data p
    if st = St.ok then (true, s) else (false, s.degrade w dpa)

/-- A read of the burst at `dpa` below the system cache; past the limit there is none (R25, R320). -/
def State.burstRead (s : State) (m dpa : Nat) : MemAnswer × State :=
  if s.hbmLimit ≤ dpa then (MemAnswer.stop St.accessDenied, s.unmapped m dpa)
  else if s.moving dpa then (MemAnswer.stop St.channelRetired, s)
  else
    match s.primaryWindow dpa with
    | some w => s.mirrorRead w m dpa (s.copyOf w dpa) 0
    | none => s.mcRead (s.controller dpa) m dpa 0

/-- A write into the burst at `dpa` below the system cache; past the limit, as that of a line which a retirement has left above it, it is
refused (R25, R320). -/
def State.burstWrite (s : State) (m dpa o : Nat) (data : List Byte) (p : Bool) : Nat × State :=
  if s.hbmLimit ≤ dpa then (St.accessDenied, s.unmapped m dpa)
  else if s.moving dpa then (St.channelRetired, s)
  else
    match s.primaryWindow dpa with
    | some w =>
      let (a, s) := s.mirrorWriteSide w m dpa o data p
      let (b, s) := s.mirrorWriteSide w m (s.copyOf w dpa) o data p
      (if a || b then St.ok else St.channelFrozen, s)
    | none => s.mcWrite (s.controller dpa) m dpa o data p

end Sys2Proof.Machine
end

