-- ==== Sys2Proof/Machine/SysCache.lean ====
section
/-! DEFINITION. The system cache in front of local HBM (R341 to R346, R350, R351): 64 slices of 512 sets, 16 ways, 128-byte
lines, and the whole path of a request to local HBM below the access table. -/

namespace Sys2Proof.Machine

/-- The home slice of a DPA (R341). -/
def homeSlice (dpa : Nat) : Nat := bits dpa 12 7 ^^^ bits dpa 18 13

/-- The set of a DPA within its slice (R341). -/
def cacheSet (dpa : Nat) : Nat := bits dpa 21 13

/-- The line number of a DPA. R341 names DPA[47:13] the tag; within one slice and set the line number DPA[47:7] is one to
one with it, and the model keeps the number. -/
def lineNo (dpa : Nat) : Nat := dpa / 128

def State.slice (s : State) (i : Nat) : Cache := FMap.get (fun _ => Cache.empty) s.slices i

def State.setSlice (s : State) (i : Nat) (c : Cache) : State :=
  { s with slices := FMap.set (fun _ => Cache.empty) s.slices i c }

/-- Way `w` of the system cache is locked (R351). -/
def State.wayLocked (s : State) (w : Nat) : Bool := w < 15 && s.bit Reg.SC_WAYLOCK w

/-- A slice looks up and allocates: the cache is enabled, is not being cleaned, and the slice has not FAILED (R344, R347). -/
def State.sliceServes (s : State) (i : Nat) : Bool :=
  s.bit Reg.SC_CTL 0 && !s.bit Reg.SC_CTL 4 && !s.bit (Reg.SCS_STATUS i) 1

/-- A dirty line is written to HBM, each 64-byte granule with its own poison mark (R344). -/
def State.writeLine (s : State) (m ln : Nat) (l : Line) : State :=
  let (_, s) := s.burstWrite m (128 * ln) 0 (l.data.take 64) (l.poison.getD 0 false)
  (s.burstWrite m (128 * ln + 64) 0 (l.data.drop 64) (l.poison.getD 1 false)).2

/-- The oldest line of a slice's write-back buffer is written (R346). -/
def State.drainOne (s : State) (m i : Nat) : State :=
  match FMap.getD s.writeBacks i with
  | [] => s
  | (ln, l) :: rest => State.writeLine { s with writeBacks := FMap.setD s.writeBacks i rest } m ln l

/-- Every line of a slice's write-back buffer is written, oldest first. -/
def State.drainAll (s : State) (m i : Nat) : State :=
  let q := FMap.getD s.writeBacks i
  q.foldl (fun s e => s.writeLine m e.1 e.2) { s with writeBacks := FMap.setD s.writeBacks i [] }

/-- A victim enters the write-back buffer of eight lines if dirty; a full buffer first writes its oldest line (R346). -/
def State.evict (s : State) (m i : Nat) (l : Line) : State :=
  if l.dirty then
    let s := if (FMap.getD s.writeBacks i).length ≥ 8 then s.drainOne m i else s
    { s with writeBacks := FMap.setD s.writeBacks i (FMap.getD s.writeBacks i ++ [(l.tag, l)]) }
  else s

/-- A line is allocated in its slice, never in a locked way (R343, R345, R351). -/
def State.allocate (s : State) (m : Nat) (l : Line) : State :=
  let dpa := 128 * l.tag
  let i := homeSlice dpa
  let set := cacheSet dpa
  let c := s.slice i
  let w := c.victim 16 set s.wayLocked
  let old := c.at 16 set w
  let s := s.setSlice i ((c.put 16 set w (some l)).touch 16 set w)
  match old with
  | some v => s.evict m i v
  | none => s

/-- Both bursts of a line are read from HBM: the status of the first that fails, else the line. -/
def State.fetchLine (s : State) (m ln : Nat) : Nat × Line × State :=
  let (a, s) := s.burstRead m (128 * ln)
  if a.status ≠ St.ok then (a.status, ⟨ln, false, [], []⟩, s)
  else
    let (b, s) := s.burstRead m (128 * ln + 64)
    (b.status, ⟨ln, false, a.data ++ b.data, [a.poison, b.poison]⟩, s)

/-- The line a slice is writing back, if any (R346). -/
def State.inWriteBack (s : State) (i ln : Nat) : Option Line :=
  ((FMap.getD s.writeBacks i).find? (fun e => e.1 = ln)).map (·.2)

/-- The slice fetches the line after a demand read miss (R350): judged like a read of that master, dropped on any denial or
status. -/
def State.prefetch (s : State) (m ln : Nat) : State :=
  let dpa := 128 * (ln + 1)
  if s.bit Reg.SC_CTL 1 && dpa / 4096 = 128 * ln / 4096 && s.sliceServes (homeSlice dpa)
      && ((s.slice (homeSlice dpa)).find 16 (cacheSet dpa) (ln + 1)).isNone
      && (s.inWriteBack (homeSlice dpa) (ln + 1)).isNone then
    let (v, s) := s.judgeQuiet 0x00 m dpa 128 Rights.read
    if v ≠ St.ok then s
    else
      let (st, l, s) := s.fetchLine m (ln + 1)
      if st ≠ St.ok then s else s.allocate m l
  else s

/-- The answer to a read of `k` bytes at offset `o` of a line. -/
def lineAnswer (l : Line) (o k : Nat) : MemAnswer :=
  ⟨St.ok, subBytes l.data o k,
    (decide (o < 64) && l.poison.getD 0 false) || (decide (o + k > 64) && l.poison.getD 1 false)⟩

/-- A read within one line at its home slice (R343, R346, R350). -/
def State.lineRead (s : State) (m ln o k : Nat) (stream : Bool) : MemAnswer × State :=
  let dpa := 128 * ln
  let i := homeSlice dpa
  let set := cacheSet dpa
  match (s.slice i).find 16 set ln with
  | some w =>
    let s := s.countWrap (Reg.SCS_HITS i)
    let l := ((s.slice i).at 16 set w).getD ⟨ln, false, [], []⟩
    (lineAnswer l o k, s.setSlice i ((s.slice i).touch 16 set w))
  | none =>
    let s := s.countWrap (Reg.SCS_MISSES i)
    match s.inWriteBack i ln with
    | some l => (lineAnswer l o k, s)
    | none =>
      let (st, l, s) := s.fetchLine m ln
      if st ≠ St.ok then (MemAnswer.stop st, s)
      else if stream then (lineAnswer l o k, s)
      else (lineAnswer l o k, (s.allocate m l).prefetch m ln)

/-- A line with `data` written at offset `o`, marked by `p` (R41). -/
def Line.merge (l : Line) (o : Nat) (data : List Byte) (p : Bool) : Line :=
  let lowBytes := min (o + data.length) 64 - min o 64
  let highBytes := data.length - lowBytes
  { l with
    dirty := true
    data := overlay l.data o data
    poison :=
      [ if lowBytes = 0 then l.poison.getD 0 false else poisonAfter (l.poison.getD 0 false) lowBytes p,
        if highBytes = 0 then l.poison.getD 1 false else poisonAfter (l.poison.getD 1 false) highBytes p ] }

/-- Bytes written straight to HBM, burst by burst: the first status other than OK, else OK. -/
def State.straightWrite (s : State) (m dpa : Nat) (data : List Byte) (p : Bool) : Nat × State :=
  let o := dpa % 64
  let first := data.take (64 - o)
  let rest := data.drop (64 - o)
  let (a, s) := if first.isEmpty then (St.ok, s) else s.burstWrite m (dpa - o) o first p
  let (b, s) := if rest.isEmpty then (St.ok, s) else s.burstWrite m (dpa - o + 64) 0 rest p
  (if a ≠ St.ok then a else b, s)

/-- A write within one line at its home slice (R343, R346). -/
def State.lineWrite (s : State) (m ln o : Nat) (data : List Byte) (p stream : Bool) : Nat × State :=
  let dpa := 128 * ln
  let i := homeSlice dpa
  let set := cacheSet dpa
  match (s.slice i).find 16 set ln with
  | some w =>
    let s := s.countWrap (Reg.SCS_HITS i)
    let l := ((s.slice i).at 16 set w).getD ⟨ln, false, [], []⟩
    (St.ok, s.setSlice i (((s.slice i).put 16 set w (some (l.merge o data p))).touch 16 set w))
  | none =>
    let s := s.countWrap (Reg.SCS_MISSES i)
    let s := if (s.inWriteBack i ln).isSome then (s.count (Reg.SCS_WB_WAITS i) 31 0 1).drainAll m i else s
    if stream then s.straightWrite m (dpa + o) data p
    else if data.length ≥ 128 then
      (St.ok, s.allocate m (Line.merge ⟨ln, true, List.replicate 128 0, [false, false]⟩ 0 data p))
    else
      let (st, l, s) := s.fetchLine m ln
      if st ≠ St.ok then (st, s) else (St.ok, s.allocate m (l.merge o data p))

/-- Bytes read straight from HBM within one line. -/
def State.straightRead (s : State) (m dpa k : Nat) : MemAnswer × State :=
  let o := dpa % 64
  let (a, s) := s.burstRead m (dpa - o)
  if a.status ≠ St.ok then (a, s)
  else if o + k ≤ 64 then (⟨St.ok, subBytes a.data o k, a.poison⟩, s)
  else
    let (b, s) := s.burstRead m (dpa - o + 64)
    if b.status ≠ St.ok then (b, s)
    else (⟨St.ok, subBytes (a.data ++ b.data) o k, a.poison || b.poison⟩, s)

/-- A read of local HBM within one line, through the slice when it serves (R341, R347). -/
def State.hbmReadLine (s : State) (m dpa k : Nat) (stream : Bool) : MemAnswer × State :=
  if s.sliceServes (homeSlice dpa) then s.lineRead m (lineNo dpa) (dpa % 128) k stream
  else s.straightRead m dpa k

/-- A write of local HBM within one line, through the slice when it serves. -/
def State.hbmWriteLine (s : State) (m dpa : Nat) (data : List Byte) (p stream : Bool) : Nat × State :=
  if s.sliceServes (homeSlice dpa) then s.lineWrite m (lineNo dpa) (dpa % 128) data p stream
  else s.straightWrite m dpa data p

/-- The pieces of a byte range that lie within one line each: offset and length, at most `fuel` of them. -/
def linePieces : Nat → Nat → Nat → List (Nat × Nat)
  | 0, _, _ => []
  | fuel + 1, dpa, k =>
    if k = 0 then []
    else
      let n := min k (128 - dpa % 128)
      (dpa, n) :: linePieces fuel (dpa + n) (k - n)

/-- A read of `k` bytes of local HBM: the first status other than OK, else all bytes. -/
def State.hbmRead (s : State) (m dpa k : Nat) (stream : Bool) : MemAnswer × State :=
  (linePieces (k / 128 + 2) dpa k).foldl
    (fun (acc : MemAnswer × State) pc =>
      if acc.1.status ≠ St.ok then acc
      else
        let (b, s) := acc.2.hbmReadLine m pc.1 pc.2 stream
        if b.status ≠ St.ok then (b, s)
        else (⟨St.ok, acc.1.data ++ b.data, acc.1.poison || b.poison⟩, s))
    (⟨St.ok, [], false⟩, s)

/-- The 64 KiB pieces of local HBM that `k` bytes at `dpa` touch are dirty (R414). -/
def State.soil (s : State) (dpa k : Nat) : State :=
  if k = 0 then s
  else
    { s with
      plate :=
        { s.plate with
          dirty :=
            (rangeFrom (dpa / 65536) ((dpa + k - 1) / 65536 - dpa / 65536 + 1)).foldl (fun d g => FMap.setD d g true)
              s.plate.dirty } }

/-- A write of local HBM: every piece is tried, and the first status other than OK is answered. -/
def State.hbmWrite (s : State) (m dpa : Nat) (data : List Byte) (p stream : Bool) : Nat × State :=
  (linePieces (data.length / 128 + 2) dpa data.length).foldl
    (fun (acc : Nat × State) pc =>
      let (st, s) := acc.2.hbmWriteLine m pc.1 (subBytes data (pc.1 - dpa) pc.2) p stream
      (if acc.1 ≠ St.ok then acc.1 else st, s))
    (St.ok, s.soil dpa data.length)

end Sys2Proof.Machine
end

