-- ==== Sys2Proof/Machine/RegView.lean ====
section
/-! DEFINITION. What a register reads as: the held words, the registers that are views of a unit's own state, and the capture
of a pair's HI (R5, R7, R8, R226). -/

namespace Sys2Proof.Machine

/-- The core kept at key `c`: the module's tile `c`, or Headstock core `c - 128`. -/
def State.core (s : State) (c : Nat) : Core := FMap.get (fun _ => Core.reset) s.cores c

/-- The core at key `c` becomes `k`. -/
def State.setCore (s : State) (c : Nat) (k : Core) : State :=
  { s with cores := FMap.set (fun _ => Core.reset) s.cores c k }

/-- Local tile `n` is halted: RUN = 0 and STOP is not 0 (R87). -/
def State.halted (s : State) (n : Nat) : Bool := !s.bit (Reg.TIL_CTL n) 0 && s.fld (Reg.TIL_STATUS n) 3 0 != 0

/-- The value of X register `i`; X31 reads 0. -/
def Core.xreg (k : Core) (i : Nat) : DWord := if i = 31 then 0 else FMap.getD k.x i

/-- X register `i` becomes `v`; a write of X31 is ignored. -/
def Core.setX (k : Core) (i : Nat) (v : DWord) : Core := if i = 31 then k else { k with x := FMap.setD k.x i v }

/-- The fixed words of a tile's window 15 (R86). -/
def window15 (k : Nat) : DWord :=
  match k with
  | 0 => 0xFFFFFFE00000
  | 1 => 0xFFFFFFFFF000
  | 2 => 0
  | _ => 7

/-- Word `i` of window `w` of the core at key `c` (R85, R86). -/
def State.winWord (s : State) (c w i : Nat) : DWord :=
  if c < 128 && w = 15 then window15 i else FMap.getD (s.core c).win (4 * w + i)

/-- VCFG as one 64-bit word, in the layout of R127. -/
def VCfg.word (v : VCfg) : Nat :=
  v.et.toNat + 2 ^ 4 * v.glog.toNat + 2 ^ 8 * v.scale.toNat + 2 ^ 16 * v.vl.toNat + 2 ^ 32 * v.vbegin.toNat
    + 2 ^ 48 * v.vflags.toNat

/-- The fields of a VCFG word (R127). -/
def VCfg.ofWord (n : Nat) : VCfg :=
  ⟨BitVec.ofNat 4 n, BitVec.ofNat 2 (n / 2 ^ 4), BitVec.ofNat 5 (n / 2 ^ 8), BitVec.ofNat 13 (n / 2 ^ 16),
    BitVec.ofNat 8 (n / 2 ^ 48), BitVec.ofNat 13 (n / 2 ^ 32)⟩

/-- The half of a 64-bit value that a word at offset `o` shows. -/
def half (n o : Nat) : Word := BitVec.ofNat 32 (if o % 8 < 4 then n else n / 2 ^ 32)

/-- The TIL registers that show a core's own state, read 0 while the tile is not halted (R96, R100, R127). -/
def State.tileView (s : State) (n o : Nat) : Option Word :=
  let k := s.core n
  let shut (w : Word) : Option Word := some (if s.halted n then w else 0)
  if o = 0x20 || o = 0x24 then shut (half k.pc.toNat o)
  else if 0x100 ≤ o && o < 0x200 then shut (half (k.xreg ((o - 0x100) / 8)).toNat o)
  else if o = 0x200 then shut (k.sflags.setWidth 32)
  else if o = 0x300 || o = 0x304 then shut (half k.vcfg.word o)
  else if 0x400 ≤ o && o < 0x800 then
    shut (BitVec.ofNat 32 ((FMap.getD k.p ((o - 0x400) / 0x40)).toNat / 2 ^ (8 * (o % 0x40))))
  else if 0x1000 ≤ o && o < 0x1200 then
    some (if o % 0x20 < 0x1C then half (s.winWord n ((o - 0x1000) / 0x20) (o % 0x20 / 8)).toNat o else 0)
  else if 0x4000 ≤ o && o < 0x8000 then
    shut (BitVec.ofNat 32 ((FMap.getD k.v ((o - 0x4000) / 0x200)).toNat / 2 ^ (8 * (o % 0x200))))
  else none

/-- The key at which the register a master means is held: its own copy for a function in the function view (R226). -/
def regKey (m off : Nat) : Nat := if 0x10000 ≤ off && off < 0x30000 && m < 128 then fnView m (off - 0x10000) else off

/-- What DMA_TMRt_LEFT reads (R297). -/
def State.timerLeft (s : State) (t : Nat) : Nat :=
  if s.bit (Reg.DMA_TMR_CTL t) 0 then FMap.getD s.timerDue t - s.time.toNat else 0

/-- A chunk lies in the loaded set. -/
def Plate.inSet (p : Plate) (k : Nat) : Bool := p.regions.any (fun r => decide (r.first ≤ k) && decide (k < r.first + r.chunks))

/-- A chunk is dirty while any of its bits is set (R414). -/
def Plate.chunkDirty (p : Plate) (k : Nat) : Bool := (List.range 16).any (fun i => FMap.getD p.dirty (16 * k + i))

/-- The dirty chunks of the loaded set, ascending. -/
def Plate.dirtyChunks (p : Plate) : List Nat :=
  ((p.dirty.map (fun e => e.1 / 16)).eraseDups).filter (fun k => p.inSet k && p.chunkDirty k)

/-- The pair that the queue-state registers report (R251). -/
def State.selectedPair (s : State) : Option Pair := FMap.getD s.pairs (s.fld Reg.QE_QSEL 12 0)

/-- The FUNCTION a pair's context names (R232). -/
def Pair.owner (p : Pair) : Nat := bits (fieldLE p.ctx 0x30 4) 6 0

/-- QE_QSTATE to QE_QERR_INDEX (R251). -/
def State.queueView (s : State) (off : Nat) : Nat :=
  match s.selectedPair with
  | none => 0
  | some p =>
    if off = Reg.QE_QSTATE then
      let q := s.fld Reg.QE_QSEL 12 0
      let n := (s.cmds.filter (fun e => match e.2 with | some c => c.pair = q | none => false)).length
      2 ^ 30 * p.state + 2 ^ 29 * bit01 p.phase + 2 ^ 28 * bit01 p.cphase + n
    else if off = Reg.QE_QHEADS then 2 ^ 16 * p.chead + p.head
    else if off = Reg.QE_QCQ_TAIL then p.ctail
    else 2 ^ 16 * p.cause + p.index

/-- A function's own registers that show the queue engine's state (R250). -/
def State.fnOwnView (s : State) (fn off : Nat) : Option Nat :=
  if off = Reg.QE_FN_AQ_STATE then some ((FMap.getD s.pairs fn).map (·.state) |>.getD 0)
  else if off = Reg.QE_FN_QUOTA then some (FMap.getD s.quotas fn)
  else if off = Reg.QE_FN_PAIRS then
    some (s.pairs.filter (fun e => 128 ≤ e.1 && (match e.2 with | some p => p.owner = fn | none => false))).length
  else none

/-- GLB_FUSE (R464, R477): MIN_SVN and the keys. -/
def State.fuseView (s : State) : Nat :=
  2 ^ 8 * max Config.fuseSvn.toNat s.boot.svn + 2 ^ 4 * Config.fusesProgrammed.toNat + Config.fusesRevoked.toNat

/-- MGT_STATUS (R511). -/
def State.mgtView (s : State) : Nat :=
  2 ^ 15 * bit01 s.steady.aux + 2 ^ 14 * bit01 s.steady.href + 2 ^ 13 * bit01 s.steady.sris + 2 ^ 12 * bit01 s.steady.shed
    + Config.addrStraps.toNat

/-- The verification failures of Stipple engine `e` within the last 24 h, at most 2 (R209). -/
def State.stpRecent (s : State) (e : Nat) : Nat :=
  min 2 ((FMap.getD s.stpFails e).filter (fun t => decide (s.time.toNat < t + 86400000000000))).length

/-- What the register at `off` reads as for master `m`, without any effect. The one arbiter whose grant can outlast a command is that of
DMA (R361, R365). -/
def State.view (s : State) (m off : Nat) : Word :=
  if 0x10000 ≤ off && off < 0x30000 then
    (if m < 128 then (match s.fnOwnView m off with | some n => BitVec.ofNat 32 n | none => s.rd (regKey m off)) else 0)
  else if off = Reg.GRD_UNIT_INT then BitVec.ofNat 32 s.unitInt
  else if off = Reg.STY_TIME_LO then s.time.setWidth 32
  else if off = Reg.STY_TIME_HI then (s.time >>> 32).setWidth 32
  else if Reg.QE_QSTATE ≤ off && off ≤ Reg.QE_QERR_INDEX then BitVec.ofNat 32 (s.queueView off)
  else if off = Reg.GLB_FUSE then BitVec.ofNat 32 s.fuseView
  else if off = Reg.MGT_STATUS then BitVec.ofNat 32 s.mgtView
  else if off = Reg.GLB_ARB_IDLE then BitVec.ofNat 32 (0x3E + bit01 s.dmaStalled.isEmpty)
  else if off = Reg.PLT_DIRTY then BitVec.ofNat 32 s.plate.dirtyChunks.length
  else if 0x300100 ≤ off && off < 0x300200 && off % 16 = 8 then BitVec.ofNat 32 (s.timerLeft ((off - 0x300100) / 16))
  else if 0x310100 ≤ off && off < 0x310200 && off % 16 = 4 then
    BitVec.ofNat 32 (setBits (s.rd off).toNat 17 16 (s.stpRecent ((off - 0x310100) / 16)))
  else if 0x800000 ≤ off && off < 0xC00000 then
    match s.tileView ((off - 0x800000) / 0x10000) (off % 0x10000) with
    | some w => w
    | none => s.rd off
  else s.rd off

/-- An aligned 32-bit read by master `m`: LO of a pair captures HI, HI answers the reader's own capture (R7). -/
def State.regRead (s : State) (m off : Nat) : Word × State :=
  let k := regKey m off
  if isPairLo off then
    (s.view m off, { s with captured := FMap.setD s.captured k (some ⟨m, s.view m (off + 4)⟩) })
  else if 4 ≤ off && isPairLo (off - 4) then
    match FMap.getD s.captured (k - 4) with
    | some t =>
      if t.master = m then (t.value, { s with captured := FMap.setD s.captured (k - 4) none }) else (s.view m off, s)
    | none => (s.view m off, s)
  else (s.view m off, s)

/-- The bytes of the registers a narrow or misaligned read covers, without side effect (R8). -/
def State.regPeek (s : State) (m off k : Nat) : List Byte :=
  (rangeFrom off k).map (fun a => BitVec.ofNat 8 ((s.view m (a - a % 4)).toNat / 2 ^ (8 * (a % 4))))

/-- A read of register space by master `m` (R7, R8). -/
def State.regReadBytes (s : State) (m off k : Nat) : List Byte × State :=
  if k = 4 && off % 4 = 0 then
    let (w, s) := s.regRead m off
    (natLE 4 w.toNat, s)
  else if k = 8 && off % 8 = 0 then
    let (a, s) := s.regRead m off
    let (b, s) := s.regRead m (off + 4)
    (natLE 4 a.toNat ++ natLE 4 b.toNat, s)
  else (s.regPeek m off k, s)

end Sys2Proof.Machine
end

