-- ==== Sys2Proof/Machine/Target.lean ====
section
/-! DEFINITION. A request of a master to a device physical address: where it goes (R24 to R26, R400), what judges it (R32,
R34), what a domain that is not on does with it (R442), and how it is served. -/

namespace Sys2Proof.Machine

/-- Where a DPA leads. -/
inductive Region where
  /-- This module's own HBM, at its local DPA. -/
  | hbm (dpa : Nat)
  /-- The other half's HBM, at its local DPA (R400). -/
  | peerHbm (dpa : Nat)
  /-- The bench of local tile `n` at an offset. -/
  | bench (n off : Nat)
  /-- The bench of a tile of the other half (R26). -/
  | peerBench
  | reg (off : Nat)
  /-- The TIL windows of the other half's tiles (R403). -/
  | peerTil (off : Nat)
  | door (off : Nat)
  | rom (off : Nat)
  | keep (off : Nat)
  /-- Remote aperture entry and offset. -/
  | remote (n off : Nat)
  /-- A span, tile or TIL window of a half that has been lost (R21). -/
  | lost
  | unmapped
  deriving DecidableEq, Repr

/-- The local DPA and half of a pair DPA (R400): `true` is the BACK's. -/
def spanOf (dpa : Nat) : Bool × Nat := (dpa / gib % 2 = 1, dpa / gib / 2 * gib + dpa % gib)

/-- The DPA at which this module's own HBM at a local DPA is found (R400, R412). -/
def State.ownDpa (s : State) (l : Nat) : Nat :=
  match s.mapRole with
  | none => l
  | some back => (2 * (l / gib) + bit01 back) * gib + l % gib

/-- Where the range of `k` bytes at `dpa` leads in the current mode (R24 to R26). One request reaches one target: a range that
leaves its 1 GiB span of a pair, its bench or its aperture entry leads nowhere. The spec does not say how such a request ends
(DESIGN CHOICE, assumption 105); the units cut their own longer runs into requests with `State.cutRun`. -/
def State.region (s : State) (dpa k : Nat) : Region :=
  let last := dpa + k - 1
  if last < 0x3000000000 then
    match s.mapRole with
    | none => if last < s.hbmLimit then .hbm dpa else .unmapped
    | some back =>
      if dpa / gib ≠ last / gib then .unmapped
      else
        let (half, l) := spanOf dpa
        if half = back then (if l + (last - dpa) < s.hbmLimit then .hbm l else .unmapped)
        else if s.role.isSome then .peerHbm l
        else .lost
  else if 0x10000000000 ≤ dpa && last < 0x10010000000 then
    let t := (dpa - 0x10000000000) / 0x200000
    if t ≠ (last - 0x10000000000) / 0x200000 then .unmapped
    else
      match s.localTile t with
      | some n => .bench n (dpa % 0x200000)
      | none =>
        if t < 64 || s.role.isSome then .peerBench
        else if s.mapRole = some false then .lost
        else .unmapped
  else if 0x20000000000 ≤ dpa && last < 0x20001000000 then
    let off := dpa - 0x20000000000
    if 0xC00000 ≤ off && s.role = some false then .peerTil off
    else if 0xC00000 ≤ off && s.mapRole = some false then .lost
    else if 0xC00000 ≤ off && s.role = some true then .reg (off - 0x400000)
    else .reg off
  else if 0x20001000000 ≤ dpa && last < 0x20001080000 then .door (dpa - 0x20001000000)
  else if 0x20010000000 ≤ dpa && last < 0x20010040000 then .rom (dpa - 0x20010000000)
  else if 0x20020000000 ≤ dpa && last < 0x20020010000 then .keep (dpa - 0x20020000000)
  else if 0x800000000000 ≤ dpa && last < 0x1000000000000 && dpa / 2 ^ 40 = last / 2 ^ 40 then
    .remote (bits dpa 46 40) (bits dpa 39 0)
  else .unmapped

/-- The table that judges any master's access to a register (R32). -/
def regTarget (off : Nat) : Nat :=
  if 0x330000 ≤ off && off < 0x400000 then 0x01
  else if 0x300000 ≤ off && off < 0x310000 then 0x02
  else if 0x310000 ≤ off && off < 0x320000 then 0x03
  else if 0x320000 ≤ off && off < 0x330000 then 0x04
  else if 0x780000 ≤ off && off < 0x7C0000 then 0x05
  else 0x0A

/-- The table that judges a region (R34); 0x97 and 0xFF name targets without one. -/
def Region.table : Region → Nat
  | .hbm _ | .peerHbm _ => 0x00
  | .bench _ _ | .peerBench => 0x0B
  | .reg off => regTarget off
  | .peerTil _ | .rom _ | .keep _ => 0x0A
  | .door _ => 0x07
  | .remote _ _ => Tgt.hatch
  | .lost | .unmapped => Tgt.none

/-- A write of `v` to the register at `off` needs A beside W (R34 and the register chapters). -/
def needsAdmin (off : Nat) (v : Word) : Bool :=
  let go := v.toNat.testBit 31
  if 0x201000 ≤ off && off < 0x201220 && off % 0x20 = 0 then go
  else if 0x340000 ≤ off && off < 0x341000 && off % 0x100 = 0 then
    go && [1, 2, 3, 7, 8].contains (v.toNat % 256)
  else
    match regRow? off with
    | some r => r.admin
    | none => false

/-- The word of a write's data that falls on the register at `off`. -/
def writeWord (data : List Byte) (o : Nat) : Word := BitVec.ofNat 32 (fieldLE data o 4)

/-- The rights a request needs at a region (R34). -/
def Region.rights (g : Region) (r : Request) : Rights :=
  match r.kind with
  | .read => Rights.read
  | .fetch => Rights.fetch
  | .atomic _ _ => Rights.atomic
  | .write =>
    match g with
    | .reg off =>
      if (rangeFrom 0 ((r.len + 3) / 4)).any (fun i => needsAdmin (off + 4 * i) (writeWord r.data (4 * i))) then
        Rights.admin
      else Rights.write
    | _ => Rights.write

/-- The power domain of the unit a region lies in (R439). -/
def State.domainOf (s : State) : Region → Nat
  | .hbm dpa => 13 + s.controller dpa / 16
  | .bench n _ => 4 + (2 * (n / 32) + n % 8 / 4)
  | .reg off =>
    if off < 0x1000 then (if off = 0x14 || off = 0x18 || off = 0x2C then 0 else 1)
    else if off < 0x2000 then 0
    else if off < 0x310000 then 1
    else if off < 0x330000 then 10
    else if off < 0x400000 then 9
    else if off < 0x500000 then 13 + (off - 0x400000) / 0x10000
    else if off < 0x600000 then 8
    else if off < 0x700000 then 1
    else if off < 0x780000 then 12
    else if off < 0x7C0000 then 11
    else if off < 0x800000 then 1
    else
      let n := (off - 0x800000) / 0x10000
      4 + (2 * (n / 32) + n % 8 / 4)
  | .remote _ _ => 12
  | .peerHbm _ | .peerBench | .peerTil _ => 12
  | .keep _ => 0
  | .door _ | .rom _ | .lost | .unmapped => 1

/-- The state of a domain: 0 ON, 1 FENCING, 2 OFF, 3 WAKING (R458). -/
def State.domState (s : State) (d : Nat) : Nat := s.fld (Reg.STY_DOM_STATUS d) 31 30

/-- The unit a region addresses, in the TARGET codes of R43. -/
def State.regionUnit (s : State) : Region → Nat
  | .hbm dpa => Tgt.channel (s.controller dpa)
  | .bench n _ => Tgt.tile (s.pairTile n)
  | .reg off => windowTarget s off
  | .door _ => Tgt.qe
  | .keep _ => Tgt.steady
  | .rom _ => Tgt.headstock
  | .remote _ _ | .peerHbm _ | .peerBench | .peerTil _ => Tgt.hatch
  | .lost | .unmapped => Tgt.none

/-- The quadrant of a local tile (before R28). -/
def tileQuadrant (n : Nat) : Nat := 2 * (n / 32) + n % 8 / 4

/-- The local tile that a request to a region reaches. -/
def Region.localTile : Region → Option Nat
  | .bench n _ => some n
  | .reg off => if 0x800000 ≤ off then some ((off - 0x800000) / 0x10000) else none
  | _ => none

/-- The PLL of tile `n`'s quadrant is stopped: a packet for the tile waits for it to relock (R447). -/
def State.pllStopped (s : State) (n : Nat) : Bool := s.bit (Reg.STY_QPLL (tileQuadrant n)) 30

/-- A tile's clock runs again: something has arrived for it (R446). -/
def State.ungate (s : State) (n : Nat) : State :=
  if s.steady.gated.testBit n then { s with steady := { s.steady with gated := setBits s.steady.gated n n 0 } } else s

/-- The local tiles of quadrant `k`. -/
def quadrantTiles (k : Nat) : List Nat := (List.range 64).filter (fun n => tileQuadrant n = k)

/-- The PLL of quadrant `k` has relocked, and the clocks of its tiles run (R447). -/
def State.relockPll (s : State) (k : Nat) : State :=
  let s := (s.setFld (Reg.STY_QPLL k) 30 30 0).setFld (Reg.STY_QPLL k) 31 31 1
  (quadrantTiles k).foldl (fun s n => s.ungate n) s

/-- A request reaches the tile of its region, if it has one. -/
def State.wakeTile (s : State) (g : Region) : State :=
  match g.localTile with
  | some n => s.ungate n
  | none => s

/-- What a request meets at its domain: `none` when it is on; DOMAIN_POWERED_DOWN when it is off and does not wake by
itself; else the request is held, and an off domain begins to wake (R441 to R443). -/
def State.domainGate (s : State) (g : Region) (m dpa : Nat) : Option (Nat × State) :=
  let d := s.domainOf g
  match s.domState d with
  | 0 => (match g.localTile with | some n => if s.pllStopped n then some (St.held, s) else none | none => none)
  | 2 =>
    if s.bit (Reg.STY_DOM_CTL d) 0 && !s.plate.shut then some (St.held, s.setFld (Reg.STY_DOM_STATUS d) 31 30 3)
    else
      some (St.domainPoweredDown,
        s.report
          { status := St.domainPoweredDown, target := s.regionUnit g, severity := 2, master := m, address := dpa,
            tag := 0xFFFF, detail := 0 })
  | _ => some (St.held, s)

/-- The router at which a region's unit attaches (R353); local HBM is reached at its home slice (R341). -/
def Region.router : Region → Nat
  | .hbm dpa => homeSlice dpa
  | .bench n _ => n
  | .reg off => registerRouter off
  | .door _ => 8
  | .rom _ => 16
  | .keep _ => 32
  | .remote _ _ | .peerHbm _ | .peerBench | .peerTil _ | .lost => 7
  | .unmapped => 32

/-- A request is held on its way: by the mesh (R358, R360), by the frozen arbiter of a home slice (R361), or between a slice
that must go to HBM and its controller. -/
def State.wayHolds (s : State) (g : Region) (m k : Nat) : Bool :=
  s.meshHolds (masterRouter m) g.router ||
    (match g with
    | .hbm dpa =>
      let i := homeSlice dpa
      (linePieces (k / 128 + 2) dpa k).any (fun pc => s.bit (Reg.SCS_CTL (homeSlice pc.1)) 0)
        || ((!s.sliceServes i || ((s.slice i).find 16 (cacheSet dpa) (lineNo dpa)).isNone)
            && s.meshHolds i (controllerRouter (s.controller dpa)))
    | _ => false)

/-- Two byte ranges meet. -/
def meets (a n b m : Nat) : Bool := decide (a < b + m) && decide (b < a + n)

/-- How writes to registers and doorbells act: given by the units that own them. -/
structure Bus where
  reg : State → Nat → Nat → Word → State
  door : State → Nat → Nat → List Byte → State

/-- A register write by access codes alone (R5); an offset that names no register takes none (R512). -/
def State.plainWrite (s : State) (m off : Nat) (v : Word) : State :=
  match regRow? off with
  | some r => s.wr (regKey m off) (BitVec.ofNat 32 (r.write (s.rd (regKey m off)).toNat v.toNat))
  | none => s

/-- A write into the doorbell space that is not one naturally aligned word of 32 or 64 bits (R8). -/
def doorOdd (off : Nat) (data : List Byte) : Bool :=
  !((data.length = 4 && off % 4 = 0) || (data.length = 8 && off % 8 = 0))

/-- A discarded doorbell write is recorded (R8, R513). -/
def State.doorRefuse (s : State) (m off : Nat) : State :=
  s.report
    { status := St.accessDenied, target := Tgt.qe, severity := 2, master := m, address := 0x20001000000 + off, tag := 0xFFFF,
      detail := 0 }

/-- The bus of a unit that writes no words of 32 or 64 bits but to memory (log entry 102). -/
def memoryBus : Bus := ⟨State.plainWrite, fun s m off data => if doorOdd off data then s.doorRefuse m off else s⟩

/-- The flat-store address of bench byte `off` of local tile `n`. -/
def benchAt (n off : Nat) : Nat := 0x10000000000 + 0x200000 * n + off

/-- The flat-store address of keep-store byte `off`. -/
def keepAt (off : Nat) : Nat := 0x20020000000 + off

/-- Some granule of the `k` bytes at a flat-store address is poisoned. -/
def State.anyPoison (s : State) (a k : Nat) : Bool :=
  (rangeFrom (a / 64) ((a + k - 1) / 64 - a / 64 + 1)).any s.mark

/-- The poison marks after `k` bytes at `a` are written with data marked `p` (R41). -/
def State.markWrite (s : State) (a k : Nat) (p : Bool) : State :=
  (rangeFrom (a / 64) ((a + k - 1) / 64 - a / 64 + 1)).foldl
    (fun s g =>
      let lo := max a (64 * g)
      let hi := min (a + k) (64 * g + 64)
      s.setMark g (poisonAfter (s.mark g) (hi - lo) p)) s

/-- Bytes read from a bench or the keep store. -/
def State.storeRead (s : State) (a k : Nat) : MemAnswer := ⟨St.ok, s.bytes a k, s.anyPoison a k⟩

/-- Bytes written to a bench or the keep store. -/
def State.storeWrite (s : State) (a : Nat) (data : List Byte) (p : Bool) : State :=
  if data.isEmpty then s else (s.putBytes a data).markWrite a data.length p

/-- Bytes written to the bench of local tile `n`: elements buffered in the range are overwritten, with an effect the spec
leaves undefined (R162). -/
def State.benchStore (s : State) (n off : Nat) (data : List Byte) (p : Bool) : State :=
  let hit (key : Nat) : Bool :=
    let w := s.rd (Reg.TIL_ICH_BUF n (key % 32))
    key / 32 = n && meets off data.length (256 * bits w.toNat 12 0) (256 * bits w.toNat 29 16)
  State.storeWrite
    { s with inbound := s.inbound.map (fun e => if hit e.1 then (e.1, e.2.map (fun x => { x with lost := true })) else e) }
    (benchAt n off) data p

/-- The new value of an atomic on `w` bits (R149). -/
def amoResult (op w : Nat) (old operand new : Nat) : Nat :=
  let m := 2 ^ w
  let (o, b) := (old % m, operand % m)
  match op with
  | 0 => (o + b) % m
  | 1 => b
  | 2 => if sext w o ≤ sext w b then o else b
  | 3 => if sext w o ≥ sext w b then o else b
  | 4 => min o b
  | 5 => max o b
  | 6 => if o = b then new % m else o
  | _ => o

/-- A register write of a naturally aligned word or pair of words, LO before HI; any other is discarded and recorded (R7,
R8). -/
def State.regWriteBytes (s : State) (bus : Bus) (m off : Nat) (data : List Byte) : State :=
  if data.length = 4 && off % 4 = 0 then bus.reg s m off (writeWord data 0)
  else if data.length = 8 && off % 8 = 0 then
    bus.reg (bus.reg s m off (writeWord data 0)) m (off + 4) (writeWord data 4)
  else s.refuse m off St.accessDenied

/-- An earlier request of the same master that overlaps this one, or is this one, is unanswered (R384). -/
def State.farBusy (s : State) (r : Request) : Bool :=
  s.far.any (fun f => f.done.isNone && f.req.master = r.master && meets f.req.dpa f.req.len r.dpa r.len)

/-- A request leaves with a transaction tag; a core's store is then sent and goes on, any other request waits (R384). -/
def State.farLeave (s : State) (r : Request) (tag port : Nat) : MemAnswer × State :=
  let s := State.openTx { s with far := s.far ++ [⟨r, BitVec.ofNat 64 r.dpa, tag, none⟩] } tag port .access
  (MemAnswer.stop (if r.kind = .write && 0x100 ≤ r.master && r.master < 0x150 then St.ok else St.held), s)

/-- The READ or WRITE packet of an aperture request (R384); a write of poisoned data carries the mark (R41). -/
def aperturePacket (src fid win off tag : Nat) (r : Request) (p : Bool) : Packet :=
  let k := if r.kind = .write then Packet.plain 2 3 src fid tag r.len else Packet.plain 1 0 src fid tag r.len
  { k with addr := 2 ^ 40 * win + off, payload := r.data, poison := p }

/-- A request that leaves for another module: an answer that has come is taken, else the request is sent or waits (R384,
R400). -/
def State.farRequest (s : State) (g : Region) (r : Request) (p : Bool) : MemAnswer × State :=
  match (s.far.find? (fun f => f.req = r && f.done.isSome)).bind (·.done) with
  | some (st, d, q) => (⟨st, d, q⟩, s)
  | none =>
    if s.farBusy r then (MemAnswer.stop St.held, s)
    else
      match g with
      | .remote n off =>
        match s.apertureCheck n r.master (r.kind ≠ .write) (r.kind = .write) with
        | (0, fid, win) =>
          match s.freeTag with
          | none => (MemAnswer.stop St.held, s)
          | some tag =>
            match s.sendPacket (aperturePacket s.srcFid fid win off tag r p) with
            | (.error st, s) => (MemAnswer.stop st, s)
            | (.ok port, s) => s.farLeave r tag port
        | (st, _, _) =>
          (MemAnswer.stop st,
            s.report
              { status := st, target := Tgt.hatch, severity := 2, master := r.master, address := r.dpa, tag := 0xFFFF,
                detail := n })
      | _ =>
        match s.freeTag with
        | none => (MemAnswer.stop St.held, s)
        | some tag => State.farLeave { s with sent := s.sent ++ [.hinge tag r p] } r tag 16

/-- Host function `fn` can reach the module: it is enabled, the host link is on, and PERST# is high (R222, R461). -/
def State.hostUp (s : State) (fn : Nat) : Bool := s.fnEnabled fn && s.domState 2 = 0 && !s.steady.perst

/-- Master `m` gives up the reads and searches it still waits for, as at a halt (R96); the stores it has sent stay under way. -/
def State.dropReads (s : State) (m : Nat) : State :=
  { s with
    far := s.far.filter (fun f => f.req.master ≠ m || f.req.kind = .write)
    gaugeQueue := s.gaugeQueue.filter (fun q => q.master ≠ m || q.slot.isSome)
    gaugeDone := s.gaugeDone.filter (fun d => d.1.master ≠ m) }

/-- The answers that master `m` has taken are dropped once its instruction or job is over. -/
def State.purgeFar (s : State) (m : Nat) : State :=
  { s with far := s.far.filter (fun f => f.done.isNone || f.req.master ≠ m) }

/-- An admitted request is served by its region. A register or doorbell is the consumer of what is written to it, and does not use
poisoned data (R42). How a write to the read-only boot ROM ends is not stated: it is denied and recorded under table 0x0A (DESIGN
CHOICE, assumption 106). -/
def State.serve (s : State) (bus : Bus) (g : Region) (r : Request) (p : Bool) : MemAnswer × State :=
  match r.kind with
  | .read | .fetch =>
    match g with
    | .hbm dpa => s.hbmRead r.master dpa r.len r.stream
    | .bench n off => (s.storeRead (benchAt n off) r.len, s)
    | .reg off =>
      let (d, s) := s.regReadBytes r.master off r.len
      (⟨St.ok, d, false⟩, s)
    | .door _ => (⟨St.ok, List.replicate r.len 0, false⟩, s)
    | .rom off => (⟨St.ok, (rangeFrom off r.len).map Config.bootRom, false⟩, s)
    | .keep off => (s.storeRead (keepAt off) r.len, s)
    | .peerHbm _ | .peerBench | .peerTil _ | .remote _ _ => s.farRequest g r false
    | .lost => (MemAnswer.stop St.halfLost, s)
    | .unmapped => (MemAnswer.stop St.accessDenied, s)
  | .write =>
    match g with
    | .hbm dpa =>
      let (st, s) := s.hbmWrite r.master dpa r.data p r.stream
      (MemAnswer.stop st, s)
    | .bench n off => (MemAnswer.stop St.ok, s.benchStore n off r.data p)
    | .reg off =>
      if p then (MemAnswer.stop St.poisonedData, s)
      else (MemAnswer.stop St.ok, s.regWriteBytes bus r.master off r.data)
    | .door off =>
      if p then (MemAnswer.stop St.poisonedData, s) else (MemAnswer.stop St.ok, bus.door s r.master off r.data)
    | .rom _ =>
      (MemAnswer.stop St.accessDenied,
        s.report
          { status := St.accessDenied, target := 0x0A, severity := 2, master := r.master, address := r.dpa,
            tag := 0xFFFF, detail := 0 })
    | .keep off => (MemAnswer.stop St.ok, s.storeWrite (keepAt off) r.data p)
    | .peerHbm _ | .peerBench | .peerTil _ | .remote _ _ => s.farRequest g r p
    | .lost => (MemAnswer.stop St.halfLost, s)
    | .unmapped => (MemAnswer.stop St.accessDenied, s)
  | .atomic op new =>
    let act (a : MemAnswer) : List Byte :=
      natLE r.len (amoResult op (8 * r.len) (leNat a.data) (leNat r.data) new.toNat)
    match g with
    | .hbm dpa =>
      let (a, s) := s.hbmRead r.master dpa r.len false
      if a.status ≠ St.ok || a.poison then (a, s)
      else
        let (st, s) := s.hbmWrite r.master dpa (act a) false false
        (⟨st, a.data, false⟩, s)
    | .bench n off =>
      let a := s.storeRead (benchAt n off) r.len
      if a.poison then (a, s) else (a, s.benchStore n off (act a) false)
    | _ => s.farRequest g r p

/-- A byte range of local HBM meets a loaded region (R412). -/
def State.inRegions (s : State) (dpa k : Nat) : Bool :=
  s.plate.regions.any (fun r => meets dpa k (2 ^ 20 * r.first) (2 ^ 20 * r.chunks))

/-- An atomic outside HBM and the benches is denied without a look at any grant (R150). -/
def Region.takesAtomic : Region → Bool
  | .hbm _ | .peerHbm _ | .bench _ _ | .peerBench | .lost => true
  | _ => false

/-- A denial that no table gave. -/
def State.denyAt (s : State) (t m dpa : Nat) : MemAnswer × State :=
  (MemAnswer.stop St.accessDenied,
    s.report
      { status := St.accessDenied, target := t, severity := 2, master := m, address := dpa, tag := 0xFFFF, detail := 0 })

/-- A request that nothing holds on its way is judged and served at its target (R21, R25, R34, R335, R421, R442); `p` marks its data
poisoned. -/
def State.atTarget (s : State) (bus : Bus) (r : Request) (p : Bool) : MemAnswer × State :=
  let g := s.region r.dpa r.len
  match g with
  | .unmapped => (MemAnswer.stop St.accessDenied, s.unmapped r.master r.dpa)
  | .lost => (MemAnswer.stop St.halfLost, s)
  | .remote _ _ | .peerHbm _ | .peerBench =>
    match s.domainGate g r.master r.dpa with
    | some (st, s) => (MemAnswer.stop st, s)
    | none => s.serve bus g r p
  | _ =>
    match s.domainGate g r.master r.dpa with
    | some (st, s) => (MemAnswer.stop st, s)
    | none =>
      let (v, s) := s.judge g.table r.master r.dpa r.len (g.rights r)
      if v ≠ St.ok then (MemAnswer.stop v, s)
      else
        let s := s.wakeTile g
        match g with
        | .hbm dpa =>
          if (s.copyWindow dpa).isSome || (s.copyWindow (dpa + r.len - 1)).isSome then s.denyAt 0x00 r.master r.dpa
          else if s.plate.shut && r.kind ≠ .read && r.kind ≠ .fetch && r.master ≠ Mid.plate && s.inRegions dpa r.len then
            s.denyAt Tgt.plate r.master r.dpa
          else s.serve bus g r p
        | _ => s.serve bus g r p

/-- What a unit's read of its data comes to. -/
def dataStatus (a : MemAnswer) : Nat :=
  if a.status ≠ St.ok then a.status else if a.poison then St.poisonedData else St.ok

/-- A request arrives at its target, unless the mesh holds it on its way (R150, R358, R360). -/
def State.request (s : State) (bus : Bus) (r : Request) (p : Bool) : MemAnswer × State :=
  let g := s.region r.dpa r.len
  let isAtomic := match r.kind with | .atomic _ _ => true | _ => false
  if isAtomic && !g.takesAtomic then s.denyAt g.table r.master r.dpa
  else if s.wayHolds g r.master r.len then (MemAnswer.stop St.held, s)
  else s.atTarget bus r p

/-- The size of the spans, benches or aperture entries that requests at `dpa` do not leave; 0 where nothing cuts a run. -/
def State.spanAt (s : State) (dpa : Nat) : Nat :=
  if dpa < 0x3000000000 then (if s.mapRole.isSome then gib else 0)
  else if 0x10000000000 ≤ dpa && dpa < 0x10010000000 then 0x200000
  else if 0x800000000000 ≤ dpa && dpa < 0x1000000000000 then 2 ^ 40
  else 0

/-- The ranges of `k` bytes from `dpa` that are requests of their own, `n + 1` at most (R25). -/
def State.cutRun (s : State) : Nat → Nat → Nat → List (Nat × Nat)
  | 0, dpa, k => [(dpa, k)]
  | n + 1, dpa, k =>
    let u := s.spanAt dpa
    if dpa % u + k ≤ u || u = 0 then [(dpa, k)]
    else (dpa, u - dpa % u) :: State.cutRun s n (dpa + (u - dpa % u)) (k - (u - dpa % u))

/-- A unit's run of bytes, with `act` for each request: one range that is mapped nowhere denies the whole run (R25), and the first
answer other than OK ends it. -/
def State.runOf (s : State) (r : Request) (act : State → Request → MemAnswer × State) : MemAnswer × State :=
  match s.cutRun (r.len / 0x200000 + 1) r.dpa r.len with
  | [] | [_] => act s r
  | ps =>
    if ps.any (fun q => s.region q.1 q.2 = .unmapped) then act s r
    else
      ps.foldl
        (fun (x : MemAnswer × State) q =>
          if x.1.status ≠ St.ok then x
          else
            let (b, t) := act x.2 { r with dpa := q.1, len := q.2, data := (r.data.drop (q.1 - r.dpa)).take q.2 }
            (⟨b.status, x.1.data ++ b.data, x.1.poison || b.poison⟩, t))
        (MemAnswer.stop St.ok, s)

/-- An engine reads memory with its own master ID. -/
def State.readMem (s : State) (m dpa k : Nat) : MemAnswer × State :=
  s.runOf { master := m, dpa := dpa, len := k, kind := .read, data := [], stream := false }
    (fun s r => s.request memoryBus r false)

/-- An engine writes on a bus with its own master ID, data marked `p` (R41). -/
def State.putOn (s : State) (bus : Bus) (m dpa : Nat) (data : List Byte) (p : Bool) : Nat × State :=
  let (a, s) :=
    s.runOf { master := m, dpa := dpa, len := data.length, kind := .write, data := data, stream := false }
      (fun s r => s.request bus r p)
  (a.status, s)

/-- An engine writes good data on a bus with its own master ID. -/
def State.writeOn (s : State) (bus : Bus) (m dpa : Nat) (data : List Byte) : Nat × State := s.putOn bus m dpa data false

/-- An engine writes memory with its own master ID. -/
def State.writeMem (s : State) (m dpa : Nat) (data : List Byte) : Nat × State := s.writeOn memoryBus m dpa data

/-- A read that a unit makes inside one command and waits for: no hold of the mesh outlasts the command. -/
def State.readNow (s : State) (m dpa k : Nat) : MemAnswer × State :=
  s.runOf { master := m, dpa := dpa, len := k, kind := .read, data := [], stream := false }
    (fun s r => s.atTarget memoryBus r false)

/-- A write that a unit makes inside one command and waits for: no hold of the mesh outlasts the command. -/
def State.writeNow (s : State) (m dpa : Nat) (data : List Byte) : Nat × State :=
  let (a, s) :=
    s.runOf { master := m, dpa := dpa, len := data.length, kind := .write, data := data, stream := false }
      (fun s r => s.atTarget memoryBus r false)
  (a.status, s)

end Sys2Proof.Machine
end

