-- ==== Sys2Proof/Machine/Gauge.lean ====
section
/-! DEFINITION. The Gauge (R173 to R193): its array and shadow records, searches, the commands of its slots, and the
scrubber. -/

namespace Sys2Proof.Machine

/-- Row `j` of bank `b`. -/
def State.gRow (s : State) (b j : Nat) : GRow := FMap.get (fun _ => GRow.empty) s.gauge (8192 * b + j)

/-- Row `j` of bank `b` becomes `r`. -/
def State.setGRow (s : State) (b j : Nat) (r : GRow) : State :=
  { s with gauge := FMap.set (fun _ => GRow.empty) s.gauge (8192 * b + j) r }

/-- Table `t` exists. -/
def State.gTable (s : State) (t : Nat) : Bool := s.bit (Reg.GAU_TBL_CFG t) 31

/-- The width W of table `t`. -/
def State.gWidth (s : State) (t : Nat) : Nat := 2 ^ s.fld (Reg.GAU_TBL_CFG t) 17 16

/-- The banks of table `t`, ascending. -/
def State.gBanks (s : State) (t : Nat) : List Nat :=
  (List.range 32).filter (fun b => (s.rd (Reg.GAU_TBL_BANKS t)).toNat.testBit b)

/-- This half's Gauge is that of the back module of a pair, or of one that has survived it (R190, R191). -/
def State.gBack (s : State) : Bool := s.mapRole = some true

/-- Bank `b` is one of this half's own (R190). -/
def State.gOwns (s : State) (b : Nat) : Bool := if s.gBack then decide (16 ≤ b) else decide (b < 16)

/-- Table `t` owns a bank of a half that has been lost (R191). -/
def State.gLost (s : State) (t : Nat) : Bool := !s.inPair && (s.gBanks t).any (fun b => !s.gOwns b)

/-- Bank and index of entry `e` of table `t`; none beyond the table (R176). -/
def State.gEntry (s : State) (t e : Nat) : Option (Nat × Nat) :=
  let per := 8192 / s.gWidth t
  ((s.gBanks t)[e / per]?).map (fun b => (b, e % per))

/-- The DPA of the shadow record of row `j` of an own bank (R183). -/
def State.gShadow (s : State) (b j : Nat) : Nat := s.rd64 Reg.GAU_SHADOW_BASE_LO + 0x80000 * (b % 16) + 64 * j

/-- The 64 bytes of a shadow record (R183). -/
def GRow.bytes (r : GRow) : List Byte :=
  natLE 4 r.hdr.toNat ++ natLE 4 r.data.toNat ++ natLE 8 0 ++ natLE 8 r.value.toNat ++ natLE 8 r.care.toNat
    ++ List.replicate 32 0

/-- The row a shadow record describes (R183). -/
def GRow.ofBytes (bs : List Byte) : GRow :=
  ⟨BitVec.ofNat 32 (fieldLE bs 0 4), BitVec.ofNat 32 (fieldLE bs 4 4), BitVec.ofNat 64 (fieldLE bs 0x10 8),
    BitVec.ofNat 64 (fieldLE bs 0x18 8), false, false⟩

/-- The shadow record of a row is read by the Gauge. The rows of the other half's banks are kept there; this half holds them as its
commands have made them (R183, R190). -/
def State.gReadShadow (s : State) (b j : Nat) : MemAnswer × State :=
  if s.gOwns b then s.readNow Mid.gauge (s.gShadow b j) 64 else (⟨St.ok, (s.gRow b j).bytes, false⟩, s)

/-- The shadow record of a row is written by the Gauge; that of a bank of the other half is carried across the hinge (R190). -/
def State.gWriteShadow (s : State) (b j : Nat) (r : GRow) : Nat × State :=
  if s.gOwns b then s.writeNow Mid.gauge (s.gShadow b j) r.bytes
  else (St.ok, { s with sent := s.sent ++ [.gauge (.row b j r.bytes)] })

/-- The other half learns what table `t` is now (R190). -/
def State.gTell (s : State) (t : Nat) : State :=
  if s.role = some false then
    { s with
      sent := s.sent ++ [.gauge (.table t (s.rd (Reg.GAU_TBL_CFG t)) (s.rd (Reg.GAU_TBL_BANKS t)) (s.rd (Reg.GAU_TBL_ACL t)))] }
  else s

/-- NFAULT and FAULT of table `t` follow its faulted entries (R187, R192). -/
def State.gCountFaults (s : State) (t : Nat) : State :=
  let mask := (s.rd (Reg.GAU_TBL_BANKS t)).toNat
  let n := (s.gauge.filter (fun e => e.2.faulted && mask.testBit (e.1 / 8192))).length
  (s.setFld (Reg.GAU_TBL_CFG t) 15 0 (min n 0xFFFF)).setFld (Reg.GAU_TBL_CFG t) 30 30 (bit01 (n ≠ 0))

/-- A report of the Gauge on row `j` of bank `b`. -/
def State.gReport (s : State) (b j status sev : Nat) : State :=
  s.report
    { status := status, target := Tgt.gauge, severity := sev, master := Mid.gauge, address := s.gShadow b j,
      tag := 0xFFFF, detail := 2 ^ 16 * b + j }

/-- The entry whose first row is `j` of bank `b` is faulted (R187). -/
def State.gFault (s : State) (t b j : Nat) : State :=
  if (s.gRow b j).faulted then s
  else
    let s := (s.setGRow b j { s.gRow b j with faulted := true }).gCountFaults t
    (s.raise Reg.GAU_INT_STATUS 0).gReport b j St.poisonedData 3

/-- A match: priority, bank, index and first row. -/
structure GMatch where
  prio : Nat
  bank : Nat
  index : Nat
  row : GRow
  deriving DecidableEq, Repr

/-- The entry at row `j` of bank `b` matches a key of `w` units (R174). -/
def State.gHits (s : State) (w b j : Nat) (key : List DWord) : Bool :=
  (List.range w).all (fun u =>
    let r := s.gRow b (j + u)
    ((key.getD u 0 ^^^ r.value) &&& r.care) == 0)

/-- The matches of a key in table `t`, in the order of R175. -/
def State.gMatches (s : State) (t : Nat) (key : List DWord) : List GMatch :=
  let w := s.gWidth t
  let mask := (s.rd (Reg.GAU_TBL_BANKS t)).toNat
  sortBy (fun x y => x.prio ≤ y.prio)
    (s.gauge.filterMap (fun e =>
      let b := e.1 / 8192
      let j := e.1 % 8192
      if mask.testBit b && j % w = 0 && e.2.hdr.toNat.testBit 31 && s.gHits w b j key then
        some ⟨e.2.hdr.toNat % 2 ^ 16, b, j / w, e.2⟩
      else none))

/-- The result word of R140. -/
def gResult (found : Option GMatch) (count : Nat) : Nat :=
  let top := 2 ^ 62 * bit01 (2 ≤ count) + 2 ^ 54 * min count 255
  match found with
  | some m => 2 ^ 63 + top + 2 ^ 32 * m.prio + m.row.data.toNat
  | none => top

/-- What a search answers: its status, the result word, and the match it reports. -/
structure GAnswer where
  status : Nat
  word : Nat
  found : Option GMatch
  deriving DecidableEq, Repr

/-- The `w` rows of an entry from row `j` of bank `b` are loaded from their shadow records; the Bool says that one is poisoned or cannot be
read, and the array is then as before (R182). -/
def State.gRepairEntry (s : State) (b j w : Nat) : Bool × State :=
  let r :=
    (List.range w).foldl
      (fun (acc : Bool × List GRow × State) u =>
        let (a, s) := acc.2.2.gReadShadow b (j + u)
        (acc.1 || a.status ≠ St.ok || a.poison, acc.2.1 ++ [{ GRow.ofBytes a.data with faulted := (s.gRow b (j + u)).faulted }], s))
      (false, [], s)
  if r.1 then (true, r.2.2)
  else (false, r.2.1.zipIdx.foldl (fun s x => s.setGRow b (j + x.2) x.1) r.2.2)

/-- A search that selects its match with `pick`; a match whose readout parity is bad has its entry reloaded from its shadow and the
search repeated (R179, R182). -/
def State.gSearch (s : State) (t : Nat) (key : List DWord) (pick : List GMatch → Option GMatch) : Nat → GAnswer × State
  | 0 => (⟨St.poisonedData, 0, none⟩, s)
  | fuel + 1 =>
    let ms := s.gMatches t key
    let found := pick ms
    match found with
    | some m =>
      if m.row.bad then
        let j := m.index * s.gWidth t
        match s.gRepairEntry m.bank j (s.gWidth t) with
        | (true, s) => (⟨St.poisonedData, 0, none⟩, s.gFault t m.bank j)
        | (false, s) => s.gSearch t key pick fuel
      else (⟨St.ok, gResult found ms.length, found⟩, s)
    | none => (⟨St.ok, gResult none ms.length, none⟩, s)

/-- The DPA of the search granule (R178). -/
def searchGranule : Nat := 0x20000350000

/-- A search by master `m` of an existing table: admission, then the search (R178, R179, R187, R191). -/
def State.gLookup (s : State) (m t : Nat) (key : List DWord) (pick : List GMatch → Option GMatch) : GAnswer × State :=
  if s.gLost t then (⟨St.halfLost, 0, none⟩, s)
  else
    let (v, s) := s.judge 0x01 m searchGranule (8 * s.gWidth t) Rights.read
    if v ≠ St.ok then (⟨v, 0, none⟩, s)
    else if m < s.fld (Reg.GAU_TBL_ACL t) 11 0 || s.fld (Reg.GAU_TBL_ACL t) 23 12 < m then
      let (a, s) := s.denyAt 0x01 m searchGranule
      (⟨a.status, 0, none⟩, s)
    else if s.bit (Reg.GAU_TBL_CFG t) 30 then (⟨St.poisonedData, 0, none⟩, s)
    else
      let (a, s) := s.gSearch t key pick (s.gauge.length + 1)
      (a, if a.status = St.ok then s.countWrap (Reg.GAU_TBL_SEARCHES t) else s)

/-- A slot command ends: BUSY 0 with its status (R189). -/
def State.gDone (s : State) (slot st : Nat) : State := s.wr (Reg.GAU_SLOT_STATUS slot) (BitVec.ofNat 32 st)

/-- The slot's key or VALUE units. -/
def State.gUnits (s : State) (slot : Nat) : List DWord :=
  (List.range 4).map (fun u => BitVec.ofNat 64 (s.rd64 (Reg.GAU_SLOT_U_VALUE_LO slot u)))

/-- RESULT and RPOS take a search's answer (R179, R193). -/
def State.gStoreResult (s : State) (slot : Nat) (a : GAnswer) : State :=
  if a.status ≠ St.ok then s
  else
    let s := s.wr64 (Reg.GAU_SLOT_RESULT_LO slot) a.word
    let pos : Nat := match a.found with | some m => 2 ^ 16 * m.bank + m.index | none => 0
    s.wr (Reg.GAU_SLOT_RPOS slot) (BitVec.ofNat 32 pos)

/-- Every row of a bank written with `f` of its number to the shadow: the first bad status, else OK. -/
def State.gWriteBank (s : State) (b : Nat) (f : Nat → GRow) : Nat × State :=
  (List.range 8192).foldl
    (fun (acc : Nat × State) j =>
      if acc.1 ≠ St.ok then acc else acc.2.gWriteShadow b j (f j)) (St.ok, s)

/-- The rows of the banks in `mask` are empty in the array. -/
def State.gClear (s : State) (mask : Nat) : State :=
  { s with gauge := FMap.keep s.gauge (fun k _ => !mask.testBit (k / 8192)) }

/-- BANK_FREE follows the tables and the retired banks (R192). -/
def State.gFreeBanks (s : State) : State :=
  let owned := (List.range 16).foldl (fun m t => m ||| (s.rd (Reg.GAU_TBL_BANKS t)).toNat) 0
  let own := if s.gBack then owned / 2 ^ 16 else owned % 2 ^ 16
  let used := own ||| (s.rd Reg.GAU_BANK_RETIRED).toNat
  s.wr Reg.GAU_BANK_FREE (BitVec.ofNat 32 (0xFFFF - used % 2 ^ 16))

/-- An own bank is retired. -/
def State.gRetired (s : State) (b : Nat) : Bool := s.gOwns b && s.bit Reg.GAU_BANK_RETIRED (b % 16)

/-- Bank `b` belongs to a table. -/
def State.gOwned (s : State) (b : Nat) : Bool :=
  (List.range 16).any (fun t => s.gTable t && (s.rd (Reg.GAU_TBL_BANKS t)).toNat.testBit b)

/-- Bank `b` can join a table (R177). -/
def State.gUsable (s : State) (b : Nat) : Bool :=
  !s.gRetired b && !s.gOwned b && (s.inPair || s.gOwns b)

/-- The whole shadow region lies in local HBM (R177). -/
def State.gShadowOk (s : State) : Bool :=
  match s.region (s.rd64 Reg.GAU_SHADOW_BASE_LO) 0x800000 with
  | .hbm _ => true
  | _ => false

/-- The shadow records of all of a new table's banks are zeroed (R177). -/
def State.gZeroBanks (s : State) : List Nat → Nat × State
  | [] => (St.ok, s)
  | b :: bs =>
    match s.gWriteBank b (fun _ => GRow.empty) with
    | (0, s) => s.gZeroBanks bs
    | r => r

/-- A CREATE makes again a table that the printed image held: the runtime makes them after the boot's print and before a mode is entered,
when no new table can be asked for (R185, R425; DEDUCED, assumption 127). -/
def State.gRecreates (s : State) : Bool := s.firmwareStage && s.boot.printed = some true

/-- CREATE (R177); it zeroes the shadow only of a new table (R185). `back` is the status of the other half's share. -/
def State.gCreate (s : State) (slot back : Nat) : State :=
  let wlog := s.fld (Reg.GAU_SLOT_CMD slot) 17 16
  let mask := (s.rd (Reg.GAU_SLOT_BANKS slot)).toNat
  let banks := (List.range 32).filter mask.testBit
  match (List.range 16).find? (fun t => !s.gTable t) with
  | none => s.gDone slot St.tableFull
  | some t =>
    if s.fld (Reg.GAU_SLOT_CMD slot) 23 18 ≠ 0 || wlog = 3 || banks = [] || banks.any (fun b => !s.gUsable b)
        || !s.gShadowOk then s.gDone slot St.invalidField
    else
      let (st, s) := if s.gRecreates then (St.ok, s) else s.gZeroBanks banks
      let st := if st = St.ok && banks.any (fun b => !s.gOwns b) then back else st
      if st ≠ St.ok then s.gDone slot st
      else
        let s := s.gClear mask
        let s := s.wr (Reg.GAU_TBL_CFG t) (BitVec.ofNat 32 (2 ^ 31 + 2 ^ 16 * wlog))
        let s := s.wr (Reg.GAU_TBL_BANKS t) (BitVec.ofNat 32 mask)
        let s := s.wr (Reg.GAU_TBL_ACL t) (s.rd (Reg.GAU_SLOT_ACL slot))
        let s := s.wr (Reg.GAU_TBL_SEARCHES t) 0
        let s := (s.setFld Reg.GAU_STATUS t t 1).gFreeBanks
        ((s.gTell t).setFld (Reg.GAU_SLOT_CMD slot) 11 8 t).gDone slot St.ok

/-- A slot command stays BUSY and waits. -/
def State.gHold (s : State) (slot : Nat) : State := { s.gDone slot (2 ^ 31) with gaugeWaits := s.gaugeWaits ++ [slot] }

/-- DESTROY (R189, R191): it waits for the searches already accepted. -/
def State.gDestroy (s : State) (slot t : Nat) : State :=
  if s.gaugeQueue.any (fun q => q.table = t) then s.gHold slot
  else
    let s := s.gClear (s.rd (Reg.GAU_TBL_BANKS t)).toNat
    let s := ((s.wr (Reg.GAU_TBL_CFG t) 0).wr (Reg.GAU_TBL_BANKS t) 0).wr (Reg.GAU_TBL_ACL t) 0
    (((s.gTell t).setFld Reg.GAU_STATUS t t 0).gFreeBanks).gDone slot St.ok

/-- Row `u` of the entry a WRITE makes (R174, R183). -/
def State.gWriteRow (s : State) (slot wlog u : Nat) : GRow :=
  let care := BitVec.ofNat 64 (s.rd64 (Reg.GAU_SLOT_U_CARE_LO slot u))
  let value := BitVec.ofNat 64 (s.rd64 (Reg.GAU_SLOT_U_VALUE_LO slot u))
  let m := s.rd (Reg.GAU_SLOT_META slot)
  if u = 0 then ⟨m ||| BitVec.ofNat 32 (2 ^ 16 * wlog), s.rd (Reg.GAU_SLOT_DATA slot), value &&& care, care, false, false⟩
  else ⟨0, 0, value &&& care, care, false, false⟩

/-- WRITE, with no bank move in its way (R184, R187); `back` is the status of the other half where the bank is its own (R190). -/
def State.gWriteEntry (s : State) (slot t back : Nat) : State :=
  match s.gEntry t (s.fld (Reg.GAU_SLOT_ENTRY slot) 17 0) with
  | none => s.gDone slot St.invalidField
  | some (b, i) =>
    let w := s.gWidth t
    let wlog := s.fld (Reg.GAU_TBL_CFG t) 17 16
    let (st, s) :=
      (List.range w).foldl
        (fun (acc : Nat × State) u =>
          if acc.1 ≠ St.ok then acc else acc.2.gWriteShadow b (i * w + u) (acc.2.gWriteRow slot wlog u)) (St.ok, s)
    let st := if st = St.ok && !s.gOwns b then back else st
    if st ≠ St.ok then s.gDone slot st
    else
      let s := (List.range w).foldl (fun s u => s.setGRow b (i * w + u) (s.gWriteRow slot wlog u)) s
      (s.gCountFaults t).gDone slot St.ok

/-- A MOVE_BANK of table `t` runs in some slot (R188). -/
def State.gMoving (s : State) (t : Nat) : Bool :=
  (List.range 16).any (fun k =>
    s.bit (Reg.GAU_SLOT_STATUS k) 31 && s.fld (Reg.GAU_SLOT_CMD k) 7 0 = 8 && s.fld (Reg.GAU_SLOT_CMD k) 11 8 = t)

/-- The last opcode written to a slot. -/
def State.gSlotOp (s : State) (slot : Nat) : Nat := s.fld (Reg.GAU_SLOT_CMD slot) 7 0

/-- The first match ordered after the last one that the slot returned (R189). -/
def State.gAfter (s : State) (slot : Nat) (ms : List GMatch) : Option GMatch :=
  let hi := (s.rd (Reg.GAU_SLOT_RESULT_HI slot)).toNat
  let pos := (s.rd (Reg.GAU_SLOT_RPOS slot)).toNat
  let (p, b, i) := (hi % 2 ^ 16, bits pos 20 16, bits pos 12 0)
  ms.find? (fun x =>
    hi.testBit 31
      && (decide (p < x.prio) || (x.prio = p && (decide (b < x.bank) || (x.bank = b && decide (i < x.index))))))

/-- An accepted search is made (R179). -/
def State.gMake (s : State) (q : GSearch) : GAnswer × State :=
  s.gLookup q.master q.table q.key (fun ms => match q.rank with | some n => ms[n]? | none => s.gAfter (q.slot.getD 0) ms)

/-- The search of a slot is made, and the slot's command ends. -/
def State.gSlotMake (s : State) (q : GSearch) (slot : Nat) : State :=
  let (a, s) := s.gMake q
  (s.gStoreResult slot a).gDone slot a.status

/-- A queued search is made; the answer of a slot's is stored, any other waits for its master. -/
def State.gServeOne (s : State) (q : GSearch) : State :=
  match q.slot with
  | some k => s.gSlotMake q k
  | none =>
    let (a, s) := s.gMake q
    { s with gaugeDone := s.gaugeDone ++ [(q, a.status, a.word)] }

/-- The search of slot `slot`'s SEARCH or NEXT by master `m`. -/
def State.gSlotAsk (s : State) (m slot t : Nat) : GSearch :=
  ⟨t, m, if s.gSlotOp slot = 5 then some (s.fld (Reg.GAU_SLOT_CMD slot) 23 16) else none, s.gUnits slot, some slot⟩

/-- The queue of a table has room (R181). -/
def State.gRoom (s : State) (t : Nat) : Bool := decide ((s.gaugeQueue.filter (fun q => q.table = t)).length < 64)

/-- A search that the mesh delivers joins the queue of its table where it has room and is not in it (R181). -/
def State.gEnqueue (s : State) (q : GSearch) : State :=
  if s.gaugeQueue.contains q || !s.gRoom q.table then s else { s with gaugeQueue := s.gaugeQueue ++ [q] }

/-- Unless GLB_ARB_FREEZE holds the searches, those that are queued are made in the order of their arrival, and a DESTROY that waited for them
goes on (R181, R189, R361). -/
def State.gServe (s : State) : State :=
  if s.arbFrozen 3 then s
  else
    let s := s.gaugeQueue.foldl State.gServeOne { s with gaugeQueue := [] }
    let ready := s.gaugeWaits.filter (fun k => s.gSlotOp k ≠ 4)
    ready.foldl
      (fun s k =>
        s.gDestroy k (s.fld (Reg.GAU_SLOT_CMD k) 11 8))
      { s with gaugeWaits := s.gaugeWaits.filter (fun k => s.gSlotOp k = 4) }

/-- A master's search: an answer that has come is taken; else it is made now, or queued while the searches are frozen (R181). -/
def State.gAsk (s : State) (q : GSearch) : Nat × Nat × State :=
  let s := s.gServe
  match s.gaugeDone.find? (fun d => d.1 = q) with
  | some d => (d.2.1, d.2.2, { s with gaugeDone := s.gaugeDone.erase d })
  | none =>
    if s.arbFrozen 3 then (St.held, 0, s.gEnqueue q)
    else
      let (a, s) := s.gMake q
      (a.status, a.word, s)

/-- SEARCH or NEXT through a slot: made now, or BUSY while the searches are frozen (R179, R181). -/
def State.gSlotGo (s : State) (m slot t : Nat) : State :=
  let q := s.gSlotAsk m slot t
  if s.arbFrozen 3 then { s.gDone slot (2 ^ 31) with gaugeQueue := s.gaugeQueue ++ [q] } else s.gSlotMake q slot

/-- SEARCH through a slot (R179). -/
def State.gSlotSearch (s : State) (m slot t : Nat) : State :=
  if s.fld (Reg.GAU_SLOT_CMD slot) 23 16 = 255 then s.gDone slot St.invalidField else s.gSlotGo m slot t

/-- NEXT: the first match ordered after the last one returned (R189). -/
def State.gNext (s : State) (m slot t last : Nat) : State :=
  if last ≠ 5 && last ≠ 6 then s.gDone slot St.invalidField else s.gSlotGo m slot t

/-- The entry at index `i` of own bank `b` is loaded from its shadow: the status of R185 its record gives. The check of WLOG is of every
record but the all-zero one that CREATE writes for an entry that has not been written (DEDUCED, assumption 126). -/
def State.gLoadEntry (s : State) (t b i : Nat) : Nat × State :=
  let w := s.gWidth t
  let wlog := s.fld (Reg.GAU_TBL_CFG t) 17 16
  (List.range w).foldl
    (fun (acc : Nat × State) u =>
      let j := i * w + u
      let (a, s) := acc.2.gReadShadow b j
      if a.status ≠ St.ok || a.poison then (St.poisonedData, s.gFault t b (i * w))
      else
        let r := GRow.ofBytes a.data
        if u = 0 && r ≠ GRow.empty && bits r.hdr.toNat 17 16 ≠ wlog then
          (if acc.1 = St.ok then St.invalidField else acc.1, s.gFault t b (i * w))
        else (acc.1, s.setGRow b j { r with faulted := (s.gRow b j).faulted })) (St.ok, s)

/-- The first bad status of loads of all entries of the banks. -/
def State.gLoadBanks (s : State) (t : Nat) (banks : List Nat) : Nat × State :=
  banks.foldl
    (fun acc b =>
      (List.range (8192 / s.gWidth t)).foldl
        (fun (acc : Nat × State) i =>
          let (st, s) := acc.2.gLoadEntry t b i
          (if acc.1 = St.ok then st else acc.1, s)) acc) (St.ok, s)

/-- RELOAD (R185); `back` is the status of the other half's share of the entries. -/
def State.gReload (s : State) (slot t back : Nat) : State :=
  let (st, s) := s.gLoadBanks t (s.gBanks t)
  let st := if st = St.ok && (s.gBanks t).any (fun b => !s.gOwns b) then back else st
  (s.gCountFaults t).gDone slot st

/-- MOVE_BANK: the target bank is loaded from the source's shadow records, an entry whose record cannot be read becoming a faulted
one; the switch comes with its own command (R188). -/
def State.gMove (s : State) (slot t : Nat) : State :=
  let from' := s.fld (Reg.GAU_SLOT_MOVE slot) 4 0
  let dst := s.fld (Reg.GAU_SLOT_MOVE slot) 12 8
  if !(s.gBanks t).contains from' || !s.gUsable dst then s.gDone slot St.invalidField
  else
    let w := s.gWidth t
    let s :=
      (List.range 8192).foldl
        (fun s j =>
          let (a, s) := s.gReadShadow from' j
          if a.status ≠ St.ok || a.poison then
            let s := s.setGRow dst j (s.gRow from' j)
            s.setGRow dst (j / w * w) { s.gRow dst (j / w * w) with faulted := true }
          else
            let r := { GRow.ofBytes a.data with faulted := (s.gRow from' j).faulted }
            ((s.gWriteShadow dst j r).2).setGRow dst j r) s
    s.gDone slot (2 ^ 31)

/-- Rows of a moved bank that the move has faulted (R187, R188). -/
def State.gMoveFaults (s : State) (src dst : Nat) : List Nat :=
  (List.range 8192).filter (fun j => (s.gRow dst j).faulted && !(s.gRow src j).faulted)

/-- The switch of a MOVE_BANK between two searches; the entries that the move has faulted are recorded, and the waiting WRITEs
then run (R187, R188). A move that cannot be switched any more leaves no valid entry in its target (R173), and one whose table has
lost a half ends with that status (R191). -/
def State.gSwitch (s : State) (slot : Nat) : State :=
  let t := s.fld (Reg.GAU_SLOT_CMD slot) 11 8
  let from' := s.fld (Reg.GAU_SLOT_MOVE slot) 4 0
  let dst := s.fld (Reg.GAU_SLOT_MOVE slot) 12 8
  if !s.bit (Reg.GAU_SLOT_STATUS slot) 31 || s.fld (Reg.GAU_SLOT_CMD slot) 7 0 ≠ 8 then s
  else
    let s :=
      if s.gLost t then s.gDone slot St.halfLost
      else if s.gTable t && (s.gBanks t).contains from' && s.gUsable dst then
        let mask := setBits (setBits (s.rd (Reg.GAU_TBL_BANKS t)).toNat from' from' 0) dst dst 1
        let s := s.wr (Reg.GAU_TBL_BANKS t) (BitVec.ofNat 32 mask)
        let news := s.gMoveFaults from' dst
        let s := ((s.gClear (2 ^ from')).gCountFaults t).gFreeBanks
        (news.foldl (fun s j => (s.raise Reg.GAU_INT_STATUS 0).gReport dst j St.poisonedData 3) (s.gTell t)).gDone slot St.ok
      else s.gDone slot St.invalidField
    let s := if s.gOwned dst then s else s.gClear (2 ^ dst)
    let mine (k : Nat) : Bool := s.gSlotOp k = 4 && s.fld (Reg.GAU_SLOT_CMD k) 11 8 = t
    let ready := s.gaugeWaits.filter mine
    let s := { s with gaugeWaits := s.gaugeWaits.filter (fun k => !mine k) }
    ready.foldl (fun s k => if s.gLost t then s.gDone k St.halfLost else s.gWriteEntry k t St.ok) s

/-- READ (R189). -/
def State.gRead (s : State) (slot t : Nat) : State :=
  match s.gEntry t (s.fld (Reg.GAU_SLOT_ENTRY slot) 17 0) with
  | none => s.gDone slot St.invalidField
  | some (b, i) =>
    let w := s.gWidth t
    if (List.range w).any (fun u => (s.gRow b (i * w + u)).bad) then s.gDone slot St.poisonedData
    else
      let s := s.wr (Reg.GAU_SLOT_META slot) ((s.gRow b (i * w)).hdr &&& 0x8000FFFF)
      let s := s.wr (Reg.GAU_SLOT_DATA slot) (s.gRow b (i * w)).data
      ((List.range w).foldl
        (fun s u =>
          (s.wr64 (Reg.GAU_SLOT_U_VALUE_LO slot u) (s.gRow b (i * w + u)).value.toNat).wr64
            (Reg.GAU_SLOT_U_CARE_LO slot u) (s.gRow b (i * w + u)).care.toNat) s).gDone slot St.ok

/-- A slot register is written while BUSY = 0; while BUSY = 1 the write is discarded and recorded (R189). -/
def State.gSlotWrite (s : State) (m off : Nat) (v : Word) : State :=
  let slot := (off - 0x340000) / 0x100
  if s.bit (Reg.GAU_SLOT_STATUS slot) 31 then s.refuse m off St.accessDenied else s.plainWrite m off v

/-- A write of GAU_SLOTs_CMD by master `m` (R189); `back` is the status with which the other half answers its share (R190). -/
def State.gCommand (s : State) (m slot : Nat) (v : Word) (back : Nat) : State :=
  if s.bit (Reg.GAU_SLOT_STATUS slot) 31 then s.refuse m (Reg.GAU_SLOT_CMD slot) St.accessDenied
  else
    let s := s.plainWrite m (Reg.GAU_SLOT_CMD slot) v
    if !v.toNat.testBit 31 then s
    else
      let s := s.gServe
      let op := bits v.toNat 7 0
      let t := bits v.toNat 11 8
      let last := FMap.getD s.gaugeLast slot
      let s := { s with gaugeLast := FMap.setD s.gaugeLast slot op }
      if op = 0 || 9 < op then s.gDone slot St.invalidOpcode
      else if op = 1 then s.gCreate slot back
      else if !s.gTable t then s.gDone slot St.invalidField
      else if op = 2 then s.gDestroy slot t
      else if s.gLost t then s.gDone slot St.halfLost
      else if op = 3 then ((s.wr (Reg.GAU_TBL_ACL t) (s.rd (Reg.GAU_SLOT_ACL slot))).gTell t).gDone slot St.ok
      else if op = 4 then (if s.gMoving t then s.gHold slot else s.gWriteEntry slot t back)
      else if op = 5 then s.gSlotSearch m slot t
      else if op = 6 then s.gNext m slot t last
      else if op = 7 then s.gReload slot t back
      else if op = 8 then s.gMove slot t
      else s.gRead slot t

/-- 24 hours in ns. -/
def dayNs : Nat := 86400000000000

/-- A repair in bank `b` is counted, recorded, and marks the bank failing at 16 within 24 h (R186, R188). -/
def State.gRepaired (s : State) (b j : Nat) : State :=
  let now := s.time.toNat
  let recent := (FMap.getD s.gaugeRepairs b).filter (fun t => decide (now < t + dayNs)) ++ [now]
  let s := { s with gaugeRepairs := FMap.setD s.gaugeRepairs b recent }
  let s := (s.count Reg.GAU_SCRUB_REPAIRS 31 0 1).gReport b j St.ok 0
  if recent.length ≥ 16 && !s.bit Reg.GAU_BANK_FAILING (b % 16) then
    (s.setFld Reg.GAU_BANK_FAILING (b % 16) (b % 16) 1).raise Reg.GAU_INT_STATUS 1
  else s

/-- The scrubber visits row `j` of bank `b` of table `t` (R186, R187). -/
def State.gScrubRow (s : State) (t b j : Nat) : State :=
  let (a, s) := s.gReadShadow b j
  let r := s.gRow b j
  if a.status ≠ St.ok then s
  else if a.poison then
    if r.bad then s.gFault t b (j / s.gWidth t * s.gWidth t)
    else ((s.gWriteShadow b j r).2).gRepaired b j
  else if r.bad || r.bytes ≠ a.data then
    (s.setGRow b j { GRow.ofBytes a.data with faulted := r.faulted }).gRepaired b j
  else s

/-- The scrubber visits row `j` of an own bank `b` that no table holds: it keeps no valid entry (R173), so a row with bad parity is
repaired to an empty one, and a poisoned shadow row is rewritten from the array, but the records that a destroyed table has left are
not taken (R186; DEDUCED, assumption 128). -/
def State.gScrubFree (s : State) (b j : Nat) : State :=
  let (a, s) := s.gReadShadow b j
  if a.status ≠ St.ok then s
  else if a.poison then (s.gWriteShadow b j GRow.empty).2.gRepaired b j
  else if (s.gRow b j).bad then (s.setGRow b j GRow.empty).gRepaired b j
  else s

/-- One scrub step: the next row of every own bank, while the Gauge is powered; `bad` names the banks whose row shows bad parity
(R186). -/
def State.gScrubStep (s : State) (bad : List Nat) : State :=
  if !s.bit Reg.GAU_CTL 0 || s.domState 9 ≠ 0 then s
  else
    let j := s.gaugeScrub
    let s :=
      bad.foldl
        (fun s b => if s.gOwns b then s.setGRow b j { s.gRow b j with bad := true } else s) s
    let s :=
      (List.range 16).foldl
        (fun s t => if s.gTable t then (s.gBanks t).foldl (fun s b => if s.gOwns b then s.gScrubRow t b j else s) s else s) s
    let s := (List.range 32).foldl (fun s b => if s.gOwns b && !s.gOwned b then s.gScrubFree b j else s) s
    if j + 1 = 8192 then State.countWrap { s with gaugeScrub := 0 } Reg.GAU_SCRUB_PASSES
    else { s with gaugeScrub := j + 1 }

/-- A write of GAU_BANK_RETIRED (R188): discarded whole where a named bank belongs to a table. -/
def State.gRetire (s : State) (m : Nat) (v : Word) : State :=
  let asked := v.toNat % 2 ^ 16
  if (List.range 16).any (fun b => asked.testBit b && s.gOwned (if s.gBack then b + 16 else b)) then
    s.refuse m Reg.GAU_BANK_RETIRED St.invalidField
  else (s.plainWrite m Reg.GAU_BANK_RETIRED v).gFreeBanks

end Sys2Proof.Machine
end

