-- ==== Sys2Proof/Machine/Codec.lean ====
section
/-! DEFINITION. The Stipple bitstream (R195 to R203): CODEC words, frame headers, predictors and tokens, decoded in stream
order up to the first error. -/

namespace Sys2Proof.Machine

/-- The element bytes of a WIDTH code (R196); 0 for a reserved one. -/
def widthBytes (w : Nat) : Nat :=
  match w with
  | 1 | 5 => 1
  | 2 => 2
  | 3 => 4
  | 4 => 8
  | _ => 0

/-- A CODEC word or the same fields of a job's PARAM (R197). -/
structure Codec where
  width : Nat
  sibEn : Bool
  sibSigned : Bool
  sibWidth : Nat
  stride : Nat
  deriving DecidableEq, Repr

/-- The fields of a CODEC word (R197). -/
def Codec.ofWord (n : Nat) : Codec := ⟨bits n 2 0, n.testBit 3, n.testBit 4, bits n 7 5, bits n 16 8⟩

/-- STRIDE is 1 to 256 for a byte stream and 0 otherwise (R196). -/
def strideOk (width stride : Nat) : Bool :=
  if width = 5 then decide (1 ≤ stride) && decide (stride ≤ 256) else stride = 0

/-- The fields are as R197 allows them. -/
def Codec.ok (c : Codec) : Bool :=
  decide (1 ≤ c.width) && decide (c.width ≤ 5) && strideOk c.width c.stride && !(c.sibEn && c.width = 5)
    && (if c.sibEn then decide (1 ≤ c.sibWidth) && decide (c.sibWidth ≤ 4) else c.sibWidth = 0 && !c.sibSigned)

/-- The element bytes of a CODEC word. -/
def Codec.eb (c : Codec) : Nat := widthBytes c.width

/-- A decoding error: its status and the place it is charged to, an address for a tile and a frame offset for an engine. -/
abbrev CodecErr := Nat × Nat

/-- A frame header's fields. -/
structure FrameHead where
  stored : Bool
  sib : Bool
  raw : Nat
  coded : Nat
  deriving DecidableEq, Repr

/-- The checks of a frame header in offset order (R203): `hd` holds the header bytes within the stored length, `e` the
element count still allowed, `base` the place of its first byte. -/
def frameHead (c : Codec) (rev21 : Bool) (e base : Nat) (hd : List Byte) : Except CodecErr FrameHead :=
  let f (o k : Nat) : Nat := fieldLE hd o k
  let short (o k : Nat) : Bool := decide (hd.length < o + k)
  let fmt := f 1 1
  let bad (o : Nat) : Except CodecErr FrameHead := .error (0x0401, base + o)
  let out (o : Nat) : Except CodecErr FrameHead := .error (0x0104, base + o)
  if short 0 1 then out 0
  else if f 0 1 ≠ 0xD7 then bad 0
  else if short 1 1 then out 1
  else if fmt / 32 ≠ 0 || fmt % 8 ≠ c.width || (fmt.testBit 3 && (!c.sibEn || !rev21 || fmt.testBit 4)) then bad 1
  else if short 2 2 then out 2
  else if !strideOk c.width (f 2 2) || f 2 2 ≠ c.stride then bad 2
  else if short 4 4 then out 4
  else if f 4 4 = 0 || 65536 < f 4 4 || f 4 4 % c.eb ≠ 0 then bad 4
  else if e < f 4 4 / c.eb then .error (0x0403, base + 4)
  else if short 8 4 then out 8
  else if fmt.testBit 4 && f 8 4 ≠ f 4 4 then bad 8
  else if short 12 4 then out 12
  else if f 12 4 ≠ 0 then bad 12
  else .ok ⟨fmt.testBit 4, fmt.testBit 3, f 4 4, f 8 4⟩

/-- What decoding a frame's block data needs: the codec, the data as one number with the count of its bits that can be read,
what reading past them means for a field that starts at a bit, the element count, the sibling values, and the place of the
data's first byte. -/
structure Blocks where
  codec : Codec
  sib : Bool
  rev21 : Bool
  data : Nat
  limit : Nat
  out : Nat → CodecErr
  n : Nat
  sibling : Nat → Except CodecErr Nat
  base : Nat

/-- Value bits w (R196). -/
def Blocks.w (b : Blocks) : Nat := 8 * b.codec.eb

/-- The prediction distance s (R198). -/
def Blocks.s (b : Blocks) : Nat := if b.codec.width = 5 then b.codec.stride else 1

/-- `m` bits of the block data from bit `p` (R201). -/
def Blocks.take (b : Blocks) (p m : Nat) : Nat := (b.data >>> p) % 2 ^ m

/-- An error charged to the byte that holds bit `p` (R203). -/
def Blocks.err (b : Blocks) (st p : Nat) : CodecErr := (st, b.base + p / 8)

/-- The run of 1 bits from bit `p`, cut off at `k` (R202). -/
def Blocks.ones (b : Blocks) : Nat → Nat → Nat
  | 0, _ => 0
  | k + 1, p => if b.data.testBit p then b.ones k (p + 1) + 1 else 0

/-- The header of a block: PRED, K and OFFSET. -/
structure BlockHead where
  pred : Nat
  k : Nat
  off : Nat
  deriving DecidableEq, Repr

/-- The header at bit `p`, and the bit after it (R202, R203). -/
def Blocks.head (b : Blocks) (p : Nat) : Except CodecErr (BlockHead × Nat) :=
  let pred := b.take p 2
  let k := b.take (p + 2) 6
  if b.limit < p + 2 then .error (b.out p)
  else if pred = 3 && !(b.sib && b.rev21) then .error (b.err 0x0401 p)
  else if b.limit < p + 8 then .error (b.out (p + 2))
  else if b.w ≤ k then .error (b.err 0x0401 (p + 2))
  else if pred ≠ 3 then .ok (⟨pred, k, 0⟩, p + 8)
  else if b.limit < p + 8 + b.w then .error (b.out (p + 8))
  else .ok (⟨pred, k, b.take (p + 8) b.w⟩, p + 8 + b.w)

/-- The inverse zigzag of R198, as an integer. -/
def unzig (z : Nat) : Int := if z % 2 = 0 then (z / 2 : Nat) else -((z / 2 + 1 : Nat) : Int)

/-- pred(i) of R199; `rev` holds the elements before i, latest first. -/
def Blocks.predict (b : Blocks) (h : BlockHead) (i : Nat) (rev : List Nat) : Except CodecErr Int :=
  let s := b.s
  let x (d : Nat) : Int := (rev.getD (d - 1) 0 : Nat)
  match h.pred with
  | 0 => .ok 0
  | 1 => .ok (if i < s then 0 else x s)
  | 2 => .ok (if i < s then 0 else if i < 2 * s then x s else 2 * x s - x (2 * s))
  | _ =>
    match b.sibling i with
    | .error e => .error e
    | .ok v =>
      let sw := 8 * widthBytes b.codec.sibWidth
      .ok ((if b.codec.sibSigned then sext sw v else ((v % 2 ^ sw : Nat) : Int)) + (h.off : Nat))

/-- A value of w bits. -/
def Blocks.wrap (b : Blocks) (i : Int) : Nat := (i % (2 ^ b.w : Int)).toNat

/-- `l` elements copied from distance `d`, one by one (R202). -/
def copyBack (d : Nat) : Nat → List Nat → List Nat
  | 0, rev => rev
  | l + 1, rev => copyBack d l (rev.getD (d - 1) 0 :: rev)

/-- One token at bit `p` of element `i` (R202, R203): the elements with it, latest first, and the bit after it. -/
def Blocks.token (b : Blocks) (h : BlockHead) (i p : Nat) (rev : List Nat) : Except CodecErr (List Nat × Nat) :=
  let q := b.ones 15 p
  let residue (z p' : Nat) : Except CodecErr (List Nat × Nat) :=
    match b.predict h i rev with
    | .error e => .error e
    | .ok v => .ok (b.wrap (v + unzig z) :: rev, p')
  if q < 15 then
    if b.limit < p + q + 1 + h.k then .error (b.out p)
    else
      let z := (q <<< h.k) ||| b.take (p + q + 1) h.k
      if 2 ^ b.w ≤ z then .error (b.err 0x0401 p) else residue z (p + q + 1 + h.k)
  else if b.limit < p + 16 then .error (b.out p)
  else if !b.data.testBit (p + 15) then
    if b.limit < p + 16 + b.w then .error (b.out p) else residue (b.take (p + 16) b.w) (p + 16 + b.w)
  else if b.limit < p + 40 then .error (b.out p)
  else
    let d := b.take (p + 16) 12 + 1
    let l := b.take (p + 28) 12 + 1
    if i < d then .error (b.err 0x0402 p)
    else if b.n < i + l then .error (b.err 0x0403 p)
    else .ok (copyBack d l rev, p + 40)

/-- The tokens of a frame from element `i` (R202): the elements decoded, latest first, and the error that stopped it, or the bit
after the last token. -/
def Blocks.run (b : Blocks) : Nat → Nat → Nat → Option (Nat × BlockHead) → List Nat → List Nat × Except CodecErr Nat
  | 0, _, p, _, rev => (rev, .ok p)
  | fuel + 1, i, p, hd, rev =>
    if b.n ≤ i then (rev, .ok p)
    else
      let head : Except CodecErr (BlockHead × Nat) :=
        match hd with
        | some (k, h) => if k = i / 256 then .ok (h, p) else b.head p
        | none => b.head p
      match head with
      | .error e => (rev, .error e)
      | .ok (h, p) =>
        match b.token h i p rev with
        | .error e => (rev, .error e)
        | .ok (rev, p) => b.run fuel rev.length p (some (i / 256, h)) rev

/-- The elements of a stored frame whose bytes are there, in order (R196). -/
def storedElems (eb : Nat) (bs : List Byte) : Nat → List Nat
  | 0 => []
  | k + 1 =>
    if bs.length < eb then [] else leNat (bs.take eb) :: storedElems eb (bs.drop eb) k

/-- The elements of a frame's block data in order, and the error that stops it. -/
def Blocks.decode (b : Blocks) : List Nat × Option CodecErr :=
  let r := b.run b.n 0 0 none []
  (r.1.reverse, match r.2 with | .error e => some e | .ok _ => none)

/-- The bits of the block data that its elements take; all of them where it does not decode. -/
def Blocks.used (b : Blocks) : Nat := (b.run b.n 0 0 none []).2.toOption.getD b.limit

end Sys2Proof.Machine
end

