-- ==== Sys2Proof/Machine/Threads.lean ====
section
/-! DEFINITION. The thread dispatcher of Headstock (R300 to R316): thread images, placement and preemption, events, the
command slots and core restart. -/

namespace Sys2Proof.Machine

/-- The state code of thread `t` (R301): 0 FREE, 1 READY, 2 RUNNING, 3 WAITING, 4 STOPPED. -/
def State.thrState (s : State) (t : Nat) : Nat := s.fld (Reg.HDS_THR_STATE t) 31 29

/-- The priority of thread `t`. -/
def State.thrPrio (s : State) (t : Nat) : Nat := s.fld (Reg.HDS_THR_STATE t) 4 0

/-- Thread `t` takes state `st` with event `e`; HDS_STATUS.THREADS counts the threads that are not FREE. -/
def State.setThr (s : State) (t st e : Nat) : State :=
  let old := s.thrState t
  let s := s.wr (Reg.HDS_THR_STATE t) (BitVec.ofNat 32 (2 ^ 29 * st + 2 ^ 16 * e + s.thrPrio t))
  let n := s.fld Reg.HDS_STATUS 10 0
  if old = 0 && st ≠ 0 then s.setFld Reg.HDS_STATUS 10 0 (n + 1)
  else if old ≠ 0 && st = 0 then s.setFld Reg.HDS_STATUS 10 0 (n - 1)
  else s

/-- The state code of Headstock core `n`: 0 idle, 1 running, 2 stopped (R316). -/
def State.coreState (s : State) (n : Nat) : Nat := s.fld (Reg.HDS_CORE_STATUS n) 31 30

/-- The thread on core `n`. -/
def State.coreThread (s : State) (n : Nat) : Nat := s.fld (Reg.HDS_CORE_STATUS n) 25 16

/-- HDS_COREn_STATUS follows the core's thread and mode. -/
def State.setCoreStatus (s : State) (n st t : Nat) : State :=
  s.wr (Reg.HDS_CORE_STATUS n)
    (BitVec.ofNat 32
      (2 ^ 30 * st + 2 ^ 16 * t + 2 ^ 5 * ((s.core (128 + n)).hstatus.toNat % 2) + s.thrPrio t))

/-- The DPA of a thread's image (R302). -/
def State.imageAt (s : State) (t : Nat) : Nat := s.rd64 Reg.HDS_THR_BASE_LO + 512 * t

/-- The 512 bytes of a thread's image, from its core and priority (R302). -/
def imageOf (k : Core) (prio : Nat) : List Byte :=
  ((List.range 31).map (fun i => natLE 8 (k.xreg i).toNat)).flatten
    ++ natLE 8 k.pc.toNat ++ natLE 8 k.sflags.toNat ++ natLE 8 (k.hstatus.toNat % 16) ++ natLE 8 k.htvec.toNat
    ++ natLE 8 k.hepc.toNat ++ natLE 8 k.hecause.toNat ++ natLE 8 k.headdr.toNat ++ natLE 8 k.hscratch.toNat
    ++ List.replicate 184 0 ++ natLE 8 (cp32 (2 ^ 8 * k.winset + prio)) ++ List.replicate 8 0

/-- The check of CONTROL and HSTATUS of an image (R303). -/
def imageCheck (img : List Byte) : Nat :=
  let c := fieldLE img 0x1F0 8
  if !cp32Ok c then St.complementMismatch
  else if bits c 31 14 ≠ 0 || bits c 7 5 ≠ 0 || fieldLE img 0x108 8 / 16 ≠ 0 then St.invalidField
  else St.ok

/-- The words of window set `ws`, as window words of a core (R314). -/
def State.windowSet (s : State) (ws : Nat) : FMap DWord :=
  (List.range 64).foldl
    (fun m i =>
      let at' := Reg.HDS_WSET_WIN_PBASE_LO ws (i / 4) + 8 * (i % 4)
      let v := if i % 4 = 3 then (s.rd at').toNat else s.rd64 at'
      FMap.setD m i (BitVec.ofNat 64 v)) []

/-- The core an image makes, with the windows of its set and the fields R83 gives the trap registers; a user thread starts with IE = 1
(R302, R313). -/
def State.coreOfImage (s : State) (img : List Byte) (old : Core) : Core :=
  let q (o : Nat) : DWord := BitVec.ofNat 64 (fieldLE img o 8)
  let ws := bits (fieldLE img 0x1F0 4) 13 8
  let hs := fieldLE img 0x108 8 % 16
  let user := hs % 2 = 0
  { old with
    x := (List.range 31).foldl (fun m i => FMap.setD m i (q (8 * i))) []
    pc := BitVec.ofNat 48 (fieldLE img 0xF8 8 / 4 * 4)
    sflags := BitVec.ofNat 3 (fieldLE img 0x100 8)
    hstatus := BitVec.ofNat 64 (if user then hs ||| 4 else hs)
    htvec := q 0x110 &&& 0xFFFFFFFFFFFC
    hepc := q 0x118 &&& 0xFFFFFFFFFFFC
    hecause := q 0x120 &&& 0xFFFFFFFF00FF
    headdr := q 0x128
    hscratch := q 0x130
    win := s.windowSet ws
    winset := ws
    placed := s.placements
    user := user
    imprecise := none }

/-- A report of the dispatcher (R303). -/
def State.thrReport (s : State) (m status detail : Nat) : State :=
  s.report
    { status := status, target := Tgt.headstock, severity := 3, master := m, address := 0, tag := 0xFFFF,
      detail := detail }

/-- The status and bytes of thread `t`'s image for core `n`: what its prefetch slot holds, else what is read now (R306). -/
def State.imageFor (s : State) (n t : Nat) : (Nat × List Byte) × State :=
  let read : (Nat × List Byte) × State :=
    let (a, s) := s.readNow (Mid.headstock n) (s.imageAt t) 512
    ((dataStatus a, a.data), s)
  match FMap.getD s.headSlots n with
  | some (u, st, img) => if u = t && st ≠ St.held then ((st, img), { s with headSlots := FMap.setD s.headSlots n none }) else read
  | none => read

/-- The priority with which thread `t` starts from an image: CONTROL.PRIO, or what SETPRIO has set since the image was written; no
user thread's is above the floor (R302, R308, R313). -/
def State.startPrio (s : State) (t : Nat) (img : List Byte) : Nat :=
  let p := if s.prioSet.contains t then s.thrPrio t else bits (fieldLE img 0x1F0 4) 4 0
  if fieldLE img 0x108 8 % 2 = 0 then max p (s.fld Reg.HDS_SVC_PRIO 4 0) else p

/-- Core `n` loads thread `t`; a failed read or check stops the thread (R303). `some` says whether the core runs, `none` that the
image has not been read yet. -/
def State.loadThread (s : State) (n t : Nat) : Option Bool × State :=
  let ((st, img), s) := s.imageFor n t
  let st := if st ≠ St.ok then st else imageCheck img
  if st = St.held then (none, s)
  else if st ≠ St.ok then
    (some false, ((s.setThr t 4 0).signal 129).thrReport (Mid.headstock n) st t)
  else
    let s := s.setFld (Reg.HDS_THR_STATE t) 4 0 (s.startPrio t img)
    let s := { s with placements := s.placements + 1, prioSet := s.prioSet.erase t }
    let s := s.setCore (128 + n) (s.coreOfImage img (s.core (128 + n)))
    let s := s.setThr t 2 0
    (some true, s.setCoreStatus n 1 t)

/-- The highest nonempty level and its head (R304). -/
def State.headReady (s : State) : Option (Nat × Nat) :=
  ((List.range 32).filterMap (fun p => (FMap.getD s.ready p).head?.map (fun t => (p, t)))).head?

/-- The READY list of level `p` loses its head. -/
def State.dropHead (s : State) (p : Nat) : State :=
  { s with ready := FMap.setD s.ready p ((FMap.getD s.ready p).drop 1) }

/-- An idle core takes the head of the highest nonempty level, and the next where a load fails (R303, R304). -/
def State.takeThread (s : State) (n : Nat) : Nat → State
  | 0 => s
  | fuel + 1 =>
    match s.headReady with
    | none => s
    | some (p, t) =>
      match (s.dropHead p).loadThread n t with
      | (some true, s') => s'
      | (some false, s') => s'.takeThread n fuel
      | (none, s') => { s' with ready := s.ready }

/-- The idle core that takes the next thread (R304): the lowest-numbered one. -/
def State.idleCore (s : State) : Option Nat := (List.range 16).find? (fun n => s.coreState n = 0)

/-- A slot command ends with a status. -/
def State.slotEnd (s : State) (n st : Nat) : State := s.wr (Reg.HDS_SLOT_STATUS n) (BitVec.ofNat 32 st)

/-- A WAIT, YIELD or EXIT of core `n` that still awaits its FENCE loses its thread: the slot's core runs no such thread any more
(R308). -/
def State.slotDrop (s : State) (n : Nat) : State :=
  match FMap.getD s.slotWaits n with
  | none | some (1, _) => s
  | some _ => { s.slotEnd n St.invalidField with slotWaits := FMap.setD s.slotWaits n none }

/-- The whole image of thread `t`, which has left core `n`, is written (R302). -/
def State.putImage (s : State) (n t : Nat) (img : List Byte) : State :=
  (s.writeNow (Mid.headstock n) (s.imageAt t) img).2

/-- Core `n` is idle: its thread's reads in flight are dropped, and its slot command with them. -/
def State.leaveCore (s : State) (n : Nat) : State :=
  ((s.slotDrop n).dropReads (Mid.headstock n)).wr (Reg.HDS_CORE_STATUS n) 0

/-- The image of the thread on core `n`, with its current priority (R302). -/
def State.liveImage (s : State) (n : Nat) : List Byte := imageOf (s.core (128 + n)) (s.thrPrio (s.coreThread n))

/-- The thread on core `n` leaves it: its whole image is written, and the core is idle (R302). -/
def State.unload (s : State) (n : Nat) : State := (s.leaveCore n).putImage n (s.coreThread n) (s.liveImage n)

/-- Core `n` switches: its thread goes where `park` puts it, the next thread is loaded where the core takes one now, and only then is
the outgoing image written (R304, R306). While EN = 0 no other core takes a thread (R300). -/
def State.switchOut (s : State) (n : Nat) (park : State → State) : State :=
  let out (x : State) : State := x.putImage n (s.coreThread n) (s.liveImage n)
  let s' := park (s.leaveCore n)
  match s'.headReady with
  | some (p, u) =>
    if u ≠ s.coreThread n && s'.domState 3 = 0 && (!s'.bit Reg.HDS_CTL 0 || s'.idleCore = some n) then
      match (s'.dropHead p).loadThread n u with
      | (some true, x) => out x
      | (some false, x) => (out x).takeThread n 1024
      | (none, x) => out { x with ready := s'.ready }
    else out s'
  | none => out s'

/-- Thread `t` is before thread `u` in an event's list: by priority, and then by arrival (R311). -/
def State.waiterBefore (s : State) (t u : Nat) : Bool :=
  decide (s.thrPrio t < s.thrPrio u)
    || (s.thrPrio t = s.thrPrio u && decide (s.waitOrder.idxOf t < s.waitOrder.idxOf u))

/-- A thread joins the list of an event at its place in the order. -/
def insertWaiter (before : Nat → Nat → Bool) (t : Nat) : List Nat → List Nat
  | [] => [t]
  | u :: us => if before t u then t :: u :: us else u :: insertWaiter before t us

/-- Thread `t` takes its place in the list of event `e`. -/
def State.placeWaiter (s : State) (t e : Nat) : State :=
  { s with waiters := FMap.setD s.waiters e (insertWaiter s.waiterBefore t ((FMap.getD s.waiters e).erase t)) }

/-- Thread `t` begins to wait on event `e` (R311). -/
def State.beginWait (s : State) (t e : Nat) : State :=
  State.placeWaiter { s.setThr t 3 e with waitOrder := s.waitOrder.erase t ++ [t] } t e

/-- A pending WAIT, YIELD or EXIT of core `n` takes effect as its FENCE completes (R309); the caller has already moved the
thread's PC past the FENCE. -/
def State.slotFence (s : State) (n : Nat) : State :=
  match FMap.getD s.slotWaits n with
  | none | some (1, _) => s
  | some (op, e) =>
    let s := { s with slotWaits := FMap.setD s.slotWaits n none }
    let s := s.wr (Reg.HDS_SLOT_STATUS n) 0
    let t := s.coreThread n
    if op = 2 then
      if s.fld (Reg.HDS_EVT e) 15 0 ≠ 0 then
        s.setFld (Reg.HDS_EVT e) 15 0 (s.fld (Reg.HDS_EVT e) 15 0 - 1)
      else s.switchOut n (fun s => s.beginWait t e)
    else if op = 3 then s.switchOut n (fun s => s.makeReady t)
    else s.switchOut n (fun s => s.setThr t 0 0)

/-- An image of user mode asks for a priority above the floor (R313): numerically lower. -/
def State.aboveFloor (s : State) (user : Bool) (prio : Nat) : Bool :=
  user && decide (prio < s.fld Reg.HDS_SVC_PRIO 4 0)

/-- The lowest FREE thread number (R310). -/
def State.freeThread (s : State) : Option Nat := (List.range 1024).find? (fun t => s.thrState t = 0)

/-- The master a dispatcher slot's memory accesses carry: its core's, and core 0's for the host slot. -/
def slotMaster (n : Nat) : Nat := if n < 16 then Mid.headstock n else Mid.headstock 0

/-- What awaits a FENCE of core `n`'s slot, or a SPAWN tried again, becomes `w`. -/
def State.setWait (s : State) (n : Nat) (w : Option (Nat × Nat)) : State := { s with slotWaits := FMap.setD s.slotWaits n w }

/-- No SETPRIO of thread `t` outranks its image's priority. -/
def State.dropPrio (s : State) (t : Nat) : State := { s with prioSet := s.prioSet.erase t }

/-- The new thread `t` of slot `n`, whose image has been written, is READY with priority `prio` (R308). -/
def State.spawned (s : State) (n t prio : Nat) : State :=
  let s := (s.dropPrio t).setFld (Reg.HDS_THR_STATE t) 4 0 prio
  let s := (s.setThr t 1 0).makeReady t
  (s.setFld (Reg.HDS_SLOT_CMD n) 25 16 t).slotEnd n St.ok

/-- SPAWN (R308, R310, R313). While the read of its image is held on its way, the slot stays BUSY and the read is tried again. -/
def State.spawn (s : State) (n : Nat) : State :=
  match s.freeThread with
  | none => (s.count Reg.HDS_SPAWN_FULL 31 0 1).slotEnd n St.threadTableFull
  | some t =>
    let src := s.rd64 (Reg.HDS_SLOT_ARG_LO n)
    if src % 64 ≠ 0 then s.slotEnd n St.invalidField
    else
      let (a, s) := s.readNow (slotMaster n) src 512
      let s := s.setWait n none
      if a.status = St.held then (s.slotEnd n (2 ^ 31)).setWait n (some (1, 0))
      else if dataStatus a ≠ St.ok then s.slotEnd n (dataStatus a)
      else
        let st := imageCheck a.data
        let prio := bits (fieldLE a.data 0x1F0 4) 4 0
        if st ≠ St.ok then s.slotEnd n st
        else if s.aboveFloor (fieldLE a.data 0x108 8 % 2 = 0) prio then s.slotEnd n St.invalidField
        else
          let (w, s) := s.writeNow (slotMaster n) (s.imageAt t) a.data
          if w ≠ St.ok then s.slotEnd n w else s.spawned n t prio

/-- Whether core `n` runs thread `t` or has stopped with it. -/
def State.runsThread (s : State) (t n : Nat) : Bool := s.coreState n != 0 && s.coreThread n == t

/-- Thread `t` leaves the core it runs on, if any, as by preemption; a stopped core keeps its thread until RESTART (R312). -/
def State.takeOff (s : State) (t : Nat) : State :=
  match (List.range 16).find? (fun n => s.coreState n = 1 && s.coreThread n == t) with
  | some n => s.switchOut n id
  | none => s

/-- Thread `t` leaves the list of event `e`. -/
def State.dropWaiter (s : State) (t e : Nat) : State :=
  { s with waiters := FMap.setD s.waiters e ((FMap.getD s.waiters e).erase t), waitOrder := s.waitOrder.erase t }

/-- Thread `t` leaves the ready list of level `p`. -/
def State.dropReady (s : State) (t p : Nat) : State :=
  { s with ready := FMap.setD s.ready p ((FMap.getD s.ready p).erase t) }

/-- KILL (R308): a running thread is first taken from its core, a waiting one removed from its event. -/
def State.kill (s : State) (t : Nat) : State :=
  (((s.takeOff t).dropWaiter t (s.fld (Reg.HDS_THR_STATE t) 25 16)).dropReady t (s.thrPrio t)).setThr t 0 0

/-- Whether thread `t` is a user thread: the MODE of the image it was placed from while it runs, else its image's (R313). -/
def State.userThread (s : State) (n t : Nat) : Bool × State :=
  match (List.range 16).find? (fun n => s.runsThread t n) with
  | some c => ((s.core (128 + c)).user, s)
  | none =>
    let (a, s) := s.readNow (slotMaster n) (s.imageAt t + 0x108) 8
    (leNat a.data % 2 = 0, s)

/-- SETPRIO (R308, R313): a READY thread moves to the tail of its new level, a WAITING one to its place in its event's order. -/
def State.setPrio (s : State) (n t prio : Nat) : State :=
  let (user, s) := s.userThread n t
  if s.aboveFloor user prio then s.slotEnd n St.invalidField
  else
    let old := s.thrPrio t
    let st := s.thrState t
    let e := s.fld (Reg.HDS_THR_STATE t) 25 16
    let s := s.setFld (Reg.HDS_THR_STATE t) 4 0 prio
    let s :=
      if st = 1 then
        let s := { s with ready := FMap.setD s.ready old ((FMap.getD s.ready old).erase t) }
        { s with ready := FMap.setD s.ready prio (FMap.getD s.ready prio ++ [t]) }
      else if st = 3 then
        s.placeWaiter t e
      else s
    let s :=
      match (List.range 16).find? (fun c => s.runsThread t c) with
      | some c => s.setFld (Reg.HDS_CORE_STATUS c) 4 0 prio
      | none => { s with prioSet := s.prioSet.erase t ++ [t] }
    s.slotEnd n St.ok

/-- RESUME (R308): a STOPPED thread becomes READY; its image is read and checked again when it is placed (R303). -/
def State.resume (s : State) (n t : Nat) : State := (s.makeReady t).slotEnd n St.ok

/-- A write of HDS_SLOTn_CMD by master `m` (R308). -/
def State.slotCommand (s : State) (m n : Nat) (v : Word) : State :=
  if s.bit (Reg.HDS_SLOT_STATUS n) 31 then s.refuse m (Reg.HDS_SLOT_CMD n) St.accessDenied
  else
    let s := s.plainWrite m (Reg.HDS_SLOT_CMD n) v
    if !v.toNat.testBit 31 then s
    else
      let t := bits v.toNat 25 16
      let e := s.rd64 (Reg.HDS_SLOT_ARG_LO n) % 1024
      let running := n < 16 && s.coreState n = 1
      match v.toNat % 16 with
      | 1 => s.spawn n
      | 2 =>
        if !running then s.slotEnd n St.invalidField
        else (s.slotEnd n (2 ^ 31)).setWait n (some (2, e))
      | 3 =>
        if !running then s.slotEnd n St.invalidField
        else (s.slotEnd n (2 ^ 31)).setWait n (some (3, 0))
      | 4 =>
        if !running then s.slotEnd n St.invalidField
        else (s.slotEnd n (2 ^ 31)).setWait n (some (4, 0))
      | 5 => (s.signal e).slotEnd n St.ok
      | 6 => if s.thrState t = 0 then s.slotEnd n St.invalidField else (s.kill t).slotEnd n St.ok
      | 7 => if s.thrState t = 0 then s.slotEnd n St.invalidField else s.setPrio n t (bits v.toNat 12 8)
      | 8 => if s.thrState t ≠ 4 then s.slotEnd n St.invalidField else s.resume n t
      | _ => s.slotEnd n St.invalidOpcode

/-- Core `a` is a better victim of preemption than core `b`: lower priority, then placed earlier, then lower number (R305). -/
def State.worseCore (s : State) (a b : Nat) : Bool :=
  let pa := s.thrPrio (s.coreThread a)
  let pb := s.thrPrio (s.coreThread b)
  decide (pb < pa)
    || (pa = pb && (decide ((s.core (128 + a)).placed < (s.core (128 + b)).placed)
      || ((s.core (128 + a)).placed = (s.core (128 + b)).placed && decide (a ≤ b))))

/-- The core a READY thread of priority `p` preempts, if any (R305). -/
def State.victimCore (s : State) (p : Nat) : Option Nat :=
  let cands :=
    (List.range 16).filter
      (fun n => s.coreState n = 1 && (s.core (128 + n)).hstatus.toNat.testBit 2 && decide (p < s.thrPrio (s.coreThread n)))
  cands.find? (fun a => cands.all (fun b => s.worseCore a b))

/-- The thread on core `n` goes back to the head of its level, and the core takes the next (R304, R305). -/
def State.preempt (s : State) (n : Nat) : State :=
  let t := s.coreThread n
  s.switchOut n (fun s =>
    let s := s.setThr t 1 0
    { s with ready := FMap.setD s.ready (s.thrPrio t) (t :: FMap.getD s.ready (s.thrPrio t)) })

/-- The core that gives way to the head of the ready lists now, if any (R305). -/
def State.givesWay (s : State) : Option Nat :=
  match s.headReady with
  | some (p, _) => if s.domState 3 = 0 && s.idleCore.isNone then s.victimCore p else none
  | none => none

/-- PREEMPT: a READY thread above the lowest-priority running one takes its core (R305). A WAIT, YIELD or EXIT of that core that still
awaits its FENCE is applied first (R307): the thread then resumes at its FENCE. -/
def State.preemptCore (s : State) (n : Nat) : State :=
  if s.givesWay ≠ some n then s
  else
    let s := s.slotFence n
    if s.givesWay = some n then s.preempt n else s

/-! The prefetch slots (R306). -/

/-- Core `n` joins a list of cores in the order in which they give way. -/
def State.insertCore (s : State) (n : Nat) : List Nat → List Nat
  | [] => [n]
  | m :: ms => if s.worseCore n m then n :: m :: ms else m :: s.insertCore n ms

/-- The cores in the order in which they would take the next threads: the idle ones that may take one, then the running ones that can
be preempted, worst first, and then the others. Which core's slot holds which of several READY threads is a DESIGN CHOICE (assumption
58). -/
def State.takers (s : State) : List Nat :=
  let cores := List.range 16
  let free (n : Nat) : Bool := (s.core (128 + n)).hstatus.toNat.testBit 2
  let sort (l : List Nat) : List Nat := l.foldr s.insertCore []
  (if s.bit Reg.HDS_CTL 0 then cores.filter (fun n => s.coreState n = 0) else [])
    ++ sort (cores.filter (fun n => s.coreState n = 1 && free n)) ++ sort (cores.filter (fun n => s.coreState n = 1 && !free n))

/-- The READY threads in the order in which they are taken (R304). -/
def State.readyOrder (s : State) : List Nat := (List.range 32).flatMap (FMap.getD s.ready)

/-- Core `n`'s prefetch slot is to hold thread `t`: its image is read unless the slot has it. -/
def State.prefetchFor (s : State) (n t : Nat) : State :=
  let read : State :=
    let (a, s) := s.readNow (Mid.headstock n) (s.imageAt t) 512
    { s with headSlots := FMap.setD s.headSlots n (some (t, dataStatus a, a.data)) }
  match FMap.getD s.headSlots n with
  | some (u, st, _) => if u = t && st ≠ St.held then s else read
  | none => read

/-- Every prefetch slot holds the image of the thread that its core would take next. -/
def State.refill (s : State) : State :=
  let plan : List (Nat × Nat) := if s.domState 3 = 0 then s.takers.zip s.readyOrder else []
  (List.range 16).foldl
    (fun s n =>
      match plan.find? (fun q => q.1 = n) with
      | some (_, t) => s.prefetchFor n t
      | none => { s with headSlots := FMap.setD s.headSlots n none }) s

/-- What the dispatcher does at the end of every command: it tries again a SPAWN whose image has not been read, and refills the
prefetch slots. -/
def State.dispatcherTurn (s : State) : State :=
  if s.ready.isEmpty && s.headSlots.isEmpty && s.slotWaits.all (fun w => w.2.map (·.1) != some 1) then s
  else
    State.refill
      ((List.range 17).foldl (fun s n => if (FMap.getD s.slotWaits n).map (·.1) = some 1 then s.spawn n else s) s)

/-- The dispatcher places threads on idle cores (R300). -/
def State.dispatchOn (s : State) : Bool := s.bit Reg.HDS_CTL 0 && s.domState 3 = 0

/-- THREAD_PLACE: the idle core of lowest number takes the head of the highest nonempty list (R304). -/
def State.threadPlace (s : State) (n : Nat) : State :=
  if s.dispatchOn && s.idleCore = some n then s.takeThread n 1024 else s

/-- RESTART of a stopped core: its image is written, and it returns to dispatch (R312). -/
def State.coreRestart (s : State) (m n : Nat) : State :=
  if s.coreState n ≠ 2 then s.refuse m (Reg.HDS_CORE_CTL n) St.invalidField else s.unload n

end Sys2Proof.Machine
end

