-- ==== Sys2Proof/Machine/Operands.lean ====
section
/-! DEFINITION. The operand forms of LIS instruction words (R73 to R76), register operands, and program addresses through
windows (R84 to R87). -/

namespace Sys2Proof.Machine

/-- Field `hi..lo` of an instruction word. -/
def wf (w : Word) (hi lo : Nat) : Nat := bits w.toNat hi lo

/-- The major opcode (R73). -/
def major (w : Word) : Nat := wf w 6 0
/-- FN6 (R74). -/
def fn6 (w : Word) : Nat := wf w 31 26
/-- XB, VB, index, stride or source B (R74). -/
def fB (w : Word) : Nat := wf w 25 21
/-- XA, VA, base or source A (R74). -/
def fA (w : Word) : Nat := wf w 20 16
/-- XD, VD, data or destination (R74). -/
def fD (w : Word) : Nat := wf w 15 11
/-- FN4, COND or PG (R74). -/
def fn4 (w : Word) : Nat := wf w 10 7

/-- A 64-bit word from an integer, wrapping. -/
def dw (i : Int) : DWord := BitVec.ofInt 64 i

/-- The kinds of L prefix (R76). -/
inductive Prefix where
  | none
  /-- IMM with its 21-bit payload. -/
  | imm (payload : Nat)
  /-- OPERANDS with its third source register and second predicate. -/
  | operands (xc p2 : Nat)
  /-- A reserved KIND, or OPERANDS with a nonzero unused field. -/
  | illegal
  deriving DecidableEq, Repr

/-- The prefix a word is (R76). -/
def prefixOf (w : Word) : Prefix :=
  match fn4 w with
  | 0 => .imm (wf w 31 11)
  | 1 => if wf w 22 11 = 0 then .operands (wf w 31 27) (wf w 26 23) else .illegal
  | _ => .illegal

/-- The prefix of an instruction that may have none. -/
def prefixOf? : Option Word → Prefix
  | none => .none
  | some w => prefixOf w

/-- The prefix is absent or IMM. -/
def Prefix.immOk : Prefix → Bool
  | .none | .imm _ => true
  | _ => false

/-- The prefix is absent or OPERANDS. -/
def Prefix.operandsOk : Prefix → Bool
  | .none | .operands _ _ => true
  | _ => false

/-- The immediate or offset in bits 31:21 of the base word, extended by an IMM prefix (R75, R76). -/
def immediate (p : Prefix) (w : Word) : Int :=
  match p with
  | .imm pay => sext 32 (pay * 2 ^ 11 + wf w 31 21)
  | _ => sext 11 (wf w 31 21)

/-- The 21-bit offset of CALL and JUMP (R74). -/
def offset21 (w : Word) : Int := sext 21 (wf w 31 11)

/-- An exception: its cause, the status of R94, INFO, and the address EXC_ADDR or HEADDR takes. -/
structure Exc where
  cause : Nat
  status : Nat
  info : Nat
  addr : DWord
  deriving DecidableEq, Repr

/-- An exception of a cause whose status is PROGRAM_FAULT, with no INFO and no address. -/
def Exc.plain (cause : Nat) : Exc := ⟨cause, St.programFault, 0, 0⟩

def Exc.illegal : Exc := Exc.plain 0x01
def Exc.privileged : Exc := Exc.plain 0x02
def Exc.misaligned (ea : DWord) : Exc := ⟨0x03, St.programFault, 0, ea⟩
def Exc.windowMiss (ea : DWord) : Exc := ⟨0x04, St.programFault, 0, ea⟩
def Exc.windowRights (ea : DWord) (w : Nat) : Exc := ⟨0x05, St.programFault, w, ea⟩
def Exc.fetchFault (ea : DWord) : Exc := ⟨0x06, St.programFault, 0, ea⟩

/-- The exception a status answered by a target raises (R94). -/
def Exc.ofStatus (st : Nat) (ea : DWord) : Exc :=
  if st = St.accessDenied then ⟨0x07, st, 0, ea⟩
  else if st = St.poisonedData then ⟨0x08, st, 0, ea⟩
  else ⟨0x0B, st, 0, ea⟩

/-- A 64-bit address is canonical: bits 63:48 equal bit 47 (R84). -/
def canonical (ea : DWord) : Bool := decide ((sext 48 ea.toNat) = ea.toInt)

/-- A canonical address that is not aligned to `k` bytes. DEDUCED, log entry 97: an address that is neither canonical nor
aligned raises the cause of R84, in the order in which R123 names the two. -/
def misaligned (ea : DWord) (k : Nat) : Bool := canonical ea && decide (ea.toNat % k ≠ 0)

/-- A program address sign-extended from bit 47. -/
def paExtend (pc : BitVec 48) : DWord := pc.signExtend 64

/-- The core is a Headstock core in supervisor mode, whose DPA is the PA itself (R87). -/
def State.supervisor (s : State) (c : Nat) : Bool := c ≥ 128 && (s.core c).hstatus.toNat.testBit 0

/-- Window `w` of the core matches the PA (R85). -/
def State.winMatches (s : State) (c w pa : Nat) : Bool :=
  (s.winWord c w 3).toNat.testBit 0 && decide (bits (s.winWord c w 0).toNat 47 12 ≤ pa / 4096)
    && decide (pa / 4096 ≤ bits (s.winWord c w 1).toNat 47 12)

/-- What an access needs of a window. -/
inductive Need where
  | load | store | atomic | fetch
  deriving DecidableEq, Repr

/-- The CTRL bits an access needs: R is bit 1, W bit 2, X bit 3 (R85). -/
def Need.mask : Need → Nat
  | .load => 2
  | .store => 4
  | .atomic => 6
  | .fetch => 8

/-- Where a program address leads: a byte of the tile's own bench, or a DPA with the window's STREAM bit and number. -/
inductive Place where
  | bench (off : Nat)
  | dpa (a : Nat) (stream : Bool) (window : Nat)
  deriving DecidableEq, Repr

/-- The exception of a missing window, or of a missing right in window `w`. -/
def windowExc (n : Need) (ea : DWord) (right : Option Nat) : Exc :=
  match n, right with
  | .fetch, _ => Exc.fetchFault ea
  | _, none => Exc.windowMiss ea
  | _, some w => Exc.windowRights ea w

/-- A program address of `k` bytes through the windows of the core (R84 to R87). -/
def State.translate (s : State) (c : Nat) (ea : DWord) (k : Nat) (n : Need) : Except Exc Place :=
  if !canonical ea then .error (windowExc n ea none)
  else
    let pa := ea.toNat % 2 ^ 48
    if s.supervisor c then .ok (.dpa pa false 0)
    else if c < 128 && 0xFFFFFFE00000 ≤ pa then
      if n = .fetch then .error (Exc.fetchFault ea)
      else if pa + k ≤ 2 ^ 48 then .ok (.bench (pa - 0xFFFFFFE00000))
      else .error (Exc.windowMiss ea)
    else
      match (List.range (if c < 128 then 15 else 16)).find? (fun w => s.winMatches c w pa) with
      | none => .error (windowExc n ea none)
      | some w =>
        if bits (s.winWord c w 1).toNat 47 12 < (pa + k - 1) / 4096 then .error (windowExc n ea none)
        else if (s.winWord c w 3).toNat &&& n.mask ≠ n.mask then .error (windowExc n ea (some w))
        else
          .ok
            (.dpa (4096 * bits (s.winWord c w 2).toNat 47 12 + (pa - 4096 * bits (s.winWord c w 0).toNat 47 12))
              ((s.winWord c w 3).toNat.testBit 4) w)

end Sys2Proof.Machine
end

