-- ==== Sys2Proof/Machine/Flags.lean ====
section
/-! DEFINITION. Scalar integer arithmetic with its sticky flags (R77 to R79). -/

namespace Sys2Proof.Machine

/-- A scalar result with the flags it sets: OVS, OVU, DZ (R78). -/
structure AluResult where
  value : DWord
  ovs : Bool
  ovu : Bool
  dz : Bool
  deriving DecidableEq, Repr

/-- The width of an operation: 32 bits for FN4 = 1 (R77). -/
def aluWidth (narrow : Bool) : Nat := if narrow then 32 else 64

/-- A result of `w` bits, sign-extended to 64 (R77). -/
def widen (w n : Nat) : DWord := dw (sext w n)

/-- The signed integer fits `w` bits. -/
def fitsSigned (w : Nat) (i : Int) : Bool := decide (-(2 ^ (w - 1) : Int) ≤ i) && decide (i < 2 ^ (w - 1))

/-- A result without flags. -/
def AluResult.quiet (v : DWord) : AluResult := ⟨v, false, false, false⟩

/-- Sum of two `w`-bit operands with OVS and OVU (R78). -/
def addFlags (w a b : Nat) : AluResult :=
  ⟨widen w (a + b), !fitsSigned w (sext w a + sext w b), decide (2 ^ w ≤ a + b), false⟩

/-- Difference of two `w`-bit operands with OVS and OVU (R78). -/
def subFlags (w a b : Nat) : AluResult :=
  ⟨widen w (a + 2 ^ w - b), !fitsSigned w (sext w a - sext w b), decide (a < b), false⟩

/-- Low half of the product with OVS and OVU (R78). -/
def mulFlags (w a b : Nat) : AluResult :=
  ⟨widen w (a * b), !fitsSigned w (sext w a * sext w b), decide (2 ^ w ≤ a * b), false⟩

/-- Signed quotient or remainder; by zero the result is 0 with DZ; the most negative value by -1 sets OVS (R78). -/
def divFlags (w a b : Nat) (rem : Bool) : AluResult :=
  let (x, y) := (sext w a, sext w b)
  if b = 0 then ⟨0, false, false, true⟩
  else
    let r := if rem then x.tmod y else x.tdiv y
    ⟨widen w (r % (2 ^ w : Int)).toNat, !fitsSigned w (x.tdiv y), false, false⟩

/-- Unsigned quotient or remainder; by zero the result is 0 with DZ (R78). -/
def divuFlags (w a b : Nat) (rem : Bool) : AluResult :=
  if b = 0 then ⟨0, false, false, true⟩ else AluResult.quiet (widen w (if rem then a % b else a / b))

/-- The number of leading zeros of a 64-bit value. -/
def clz64 (n : Nat) : Nat := if n = 0 then 64 else 63 - Nat.log2 n

/-- The number of trailing zeros among the `k` bits from `i`. -/
def ctzFrom (n i : Nat) : Nat → Nat
  | 0 => i
  | k + 1 => if n.testBit i then i else ctzFrom n (i + 1) k

/-- The number of one bits of a value below `2 ^ k`. -/
def popCount (n : Nat) : Nat → Nat
  | 0 => 0
  | k + 1 => bit01 (n.testBit k) + popCount n k

/-- Rotation of `w` bits to the right. -/
def rotr (w a amount : Nat) : Nat := (a >>> amount) ||| ((a <<< (w - amount)) % 2 ^ w)

/-- The ALU operation FN6 on operands of 64 or 32 bits (R77); `none` where FN6 is reserved or takes no such FN4. -/
def aluOp (f : Nat) (narrow : Bool) (xa xb : DWord) : Option AluResult :=
  let w := aluWidth narrow
  let a := xa.toNat % 2 ^ w
  let b := xb.toNat % 2 ^ w
  let sh := b % w
  let q (n : Nat) : Option AluResult := some (AluResult.quiet (widen w n))
  match f with
  | 0x00 => some (addFlags w a b)
  | 0x01 => some (subFlags w a b)
  | 0x02 => q (a &&& b)
  | 0x03 => q (a ||| b)
  | 0x04 => q (a ^^^ b)
  | 0x05 => q (a &&& (2 ^ w - 1 - b))
  | 0x06 => q (a <<< sh)
  | 0x07 => q (a >>> sh)
  | 0x08 => q ((sext w a >>> sh) % (2 ^ w : Int)).toNat
  | 0x09 => q (rotr w a sh)
  | 0x0A => q (bit01 (decide (sext w a < sext w b)))
  | 0x0B => q (bit01 (decide (a < b)))
  | 0x0C => q (if sext w a ≤ sext w b then a else b)
  | 0x0D => q (if sext w a ≤ sext w b then b else a)
  | 0x0E => q (min a b)
  | 0x0F => q (max a b)
  | 0x10 => some (mulFlags w a b)
  | 0x11 => q ((sext w a * sext w b / 2 ^ w) % (2 ^ w : Int)).toNat
  | 0x12 => q (a * b / 2 ^ w)
  | 0x13 => some (divFlags w a b false)
  | 0x14 => some (divuFlags w a b false)
  | 0x15 => some (divFlags w a b true)
  | 0x16 => some (divuFlags w a b true)
  | _ =>
    if narrow then none
    else
      match f with
      | 0x18 => q (clz64 a)
      | 0x19 => q (ctzFrom a 0 64)
      | 0x1A => q (popCount a 64)
      | 0x1B => q (leNat (natLE 8 a).reverse)
      | 0x1C => some (AluResult.quiet (dw (sext (b % 64 + 1) a)))
      | 0x1D => q (a % 2 ^ (b % 64 + 1))
      | _ => none

/-- The ALUI operation FN4 (R79); `none` where reserved. `imm` is the immediate, sign-extended. -/
def aluiOp (f : Nat) (xa : DWord) (imm : Int) (pc : BitVec 48) : Option AluResult :=
  let i := dw imm
  match f with
  | 0x0 => aluOp 0x00 false xa i
  | 0x1 => aluOp 0x02 false xa i
  | 0x2 => aluOp 0x03 false xa i
  | 0x3 => aluOp 0x04 false xa i
  | 0x4 => aluOp 0x06 false xa i
  | 0x5 => aluOp 0x07 false xa i
  | 0x6 => aluOp 0x08 false xa i
  | 0x7 => aluOp 0x09 false xa i
  | 0x8 => aluOp 0x0A false xa i
  | 0x9 => aluOp 0x0B false xa i
  | 0xA => aluOp 0x00 true xa i
  | 0xB => some (AluResult.quiet (BitVec.ofNat 64 (2 ^ 32 * (i.toNat % 2 ^ 32) + xa.toNat % 2 ^ 32)))
  | 0xC => some (AluResult.quiet (paExtend (BitVec.ofInt 48 (pc.toNat + imm * 4096))))
  | _ => none

/-- The condition of BR (R81); `none` where reserved. -/
def brTaken (cond : Nat) (xa xb : DWord) : Option Bool :=
  let b := xa.toNat.testBit (xb.toNat % 64)
  match cond with
  | 0x0 => some (xa == xb)
  | 0x1 => some (xa != xb)
  | 0x2 => some (decide (xa.toInt < xb.toInt))
  | 0x3 => some (decide (xb.toInt ≤ xa.toInt))
  | 0x4 => some (decide (xa.toNat < xb.toNat))
  | 0x5 => some (decide (xb.toNat ≤ xa.toNat))
  | 0x6 => some b
  | 0x7 => some !b
  | _ => none

/-- SFLAGS after a result: [2] DZ, [1] OVU, [0] OVS stay set (R78, R83). -/
def stickyFlags (old : BitVec 3) (r : AluResult) : BitVec 3 :=
  old ||| BitVec.ofNat 3 (bit01 r.ovs + 2 * bit01 r.ovu + 4 * bit01 r.dz)

end Sys2Proof.Machine
end

