-- ==== Sys2Proof/Machine/LisOps.lean ====
section
/-! DEFINITION. What every LIS instruction shares: taking an exception (R92 to R98), loads and stores through windows, the
core's L1 cache and the targets (R80, R85, R89, R348), and the stepping of one instruction. -/

namespace Sys2Proof.Machine

/-- The master ID of the core at key `c` (R33). -/
def coreMaster (c : Nat) : Nat := if c < 128 then Mid.tile c else Mid.headstock (c - 128)

/-- The core executes instructions: a tile with RUN = 1, with a VSEND that has sent an element (R144) or with a step of R96 in
progress; a Headstock core that runs a thread or boots. -/
def State.running (s : State) (c : Nat) : Bool :=
  if c < 128 then
    (s.bit (Reg.TIL_CTL c) 0 || (s.core c).vsent ≠ 0 || (s.core c).stepping) && s.fld (Reg.TIL_STATUS c) 3 0 = 0
  else s.coreState (c - 128) = 1

/-- A tile stops with STOP = `stop` at `pc`: EXC_PC takes the address, Headstock's event of the tile is signalled (R95, R311), and an
instruction that still waited for data or a channel has no effect (R96, R144). -/
def State.tileStop (s : State) (n stop : Nat) (pc : BitVec 48) : State :=
  let s := s.setFld (Reg.TIL_STATUS n) 3 0 stop
  let s := s.setFld (Reg.TIL_CTL n) 0 0 0
  let s := s.setCore n { s.core n with stepping := false, chWait := none }
  ((s.dropReads (coreMaster n)).wr64 (Reg.TIL_EXC_PC_LO n) pc.toNat).signal n

/-- A tile stops with an exception at `pc` (R95); INFO bit 15 marks an imprecise one (R93). -/
def State.tileExcept (s : State) (n : Nat) (e : Exc) (pc : BitVec 48) : State :=
  let s := s.setFld (Reg.TIL_STATUS n) 15 8 e.cause
  let s := s.setFld (Reg.TIL_STATUS n) 4 4 (e.info / 2 ^ 15)
  let s := s.wr64 (Reg.TIL_EXC_ADDR_LO n) e.addr.toNat
  let s := s.wr (Reg.TIL_EXC_DETAIL n) (BitVec.ofNat 32 (2 ^ 16 * e.status + e.info))
  let s := s.setCore n { s.core n with pc := pc }
  s.tileStop n 3 pc

/-- HSTATUS after a trap entry: PIE := IE, IE := 0, PUM := MODE, MODE := 1 (R97). -/
def trapStatus (h : DWord) : DWord :=
  BitVec.ofNat 64 (1 + 2 * bit01 (h.toNat.testBit 0) + 8 * bit01 (h.toNat.testBit 2))

/-- HSTATUS after TRAPRET: MODE := PUM, IE := PIE (R97). -/
def trapretStatus (h : DWord) : DWord :=
  BitVec.ofNat 64
    (bit01 (h.toNat.testBit 1) + 2 * bit01 (h.toNat.testBit 1) + 4 * bit01 (h.toNat.testBit 3)
      + 8 * bit01 (h.toNat.testBit 3))

/-- The core a trap entry leaves (R97). -/
def Core.trap (k : Core) (e : Exc) : Core :=
  { k with
    hepc := k.pc.setWidth 64
    hecause := BitVec.ofNat 64 (2 ^ 32 * e.info + 2 ^ 16 * e.status + e.cause)
    headdr := e.addr
    hstatus := trapStatus k.hstatus
    pc := BitVec.ofNat 48 (k.htvec.toNat / 4 * 4) }

/-- A core that cannot take a second trap stops with its thread (R98, R312). -/
def State.coreStop (s : State) (n : Nat) (e : Exc) : State :=
  let pc := (s.core (128 + n)).pc
  let t := s.coreThread n
  let s :=
    s.report
      { status := St.programFault, target := Tgt.headstock, severity := 3, master := Mid.headstock n,
        address := pc.toNat, tag := 0xFFFF, detail := e.cause }
  let s := s.setFld (Reg.HDS_CORE_STATUS n) 31 30 2
  let s := s.setThr t 4 0
  (s.signal 129).raise Reg.HDS_INT_STATUS 0

/-- Taking an exception: a tile stops, a Headstock core traps or, with MODE = 1 and IE = 0, stops (R95, R97, R98). -/
def State.except (s : State) (c : Nat) (e : Exc) : State :=
  let k := s.core c
  if c < 128 then s.tileExcept c e k.pc
  else if k.hstatus.toNat.testBit 0 && !k.hstatus.toNat.testBit 2 then s.coreStop (c - 128) e
  else
    let s := s.setCore c (k.trap e)
    s.setFld (Reg.HDS_CORE_STATUS (c - 128)) 5 5 1

/-- The return from a trap (R97). -/
def Core.trapret (k : Core) : Core :=
  { k with pc := k.hepc.setWidth 48, hstatus := trapretStatus k.hstatus }

/-- What an instruction comes to. -/
inductive Out where
  /-- It completes; the PC moves past it. -/
  | next (k : Core) (s : State)
  /-- It completes and jumps. -/
  | goto (pc : BitVec 48) (k : Core) (s : State)
  /-- It raises an exception; the core given is what it leaves of the core (R92, R123). -/
  | trap (e : Exc) (k : Core) (s : State)
  /-- It waits and is tried again; nothing of the core has changed. -/
  | wait (s : State)
  /-- It completes, the PC moves past it, and the tile stops with STOP = 2 (R82). -/
  | stop (k : Core) (s : State)

/-- What an instruction sees: its core key, its core, its prefix and word, and the bus for register writes. -/
structure Ctx where
  c : Nat
  k : Core
  p : Prefix
  w : Word
  len : Nat
  bus : Bus

/-- The PC after the instruction. -/
def Ctx.nextPc (x : Ctx) : BitVec 48 := x.k.pc + BitVec.ofNat 48 x.len

/-- The operands XA, XB and XD of an S, I or M word. -/
def Ctx.xa (x : Ctx) : DWord := x.k.xreg (fA x.w)
def Ctx.xb (x : Ctx) : DWord := x.k.xreg (fB x.w)
def Ctx.xd (x : Ctx) : DWord := x.k.xreg (fD x.w)

/-- The instruction raises `e` and leaves the core as it was (R92). -/
def Ctx.raise (x : Ctx) (s : State) (e : Exc) : Out := .trap e (s.core x.c) s

/-- The state an outcome makes of an instruction of core `c`. -/
def Ctx.finish (x : Ctx) : Out → State
  | .next k s => (s.setCore x.c { k with pc := x.nextPc }).purgeFar (coreMaster x.c)
  | .goto pc k s => (s.setCore x.c { k with pc := pc }).purgeFar (coreMaster x.c)
  | .trap e k s => ((s.setCore x.c k).except x.c e).purgeFar (coreMaster x.c)
  | .wait s => s
  | .stop k s => ((s.setCore x.c { k with pc := x.nextPc }).tileStop x.c 2 x.k.pc).purgeFar (coreMaster x.c)

/-- The L1 caches of the core serve (R349): a tile's by TILn_L1_CTL.EN, a Headstock core's always. -/
def State.l1On (s : State) (c : Nat) : Bool := c ≥ 128 || s.bit (Reg.TIL_L1_CTL c) 0

/-- The sets of an L1 cache of 64-byte lines and 4 ways: 64 KiB in a tile, 32 KiB in a Headstock core (R348, R349). -/
def l1Sets (c : Nat) : Nat := if c < 128 then 256 else 128

/-- The DPA lies in this module's own HBM. -/
def State.isHbm (s : State) (a k : Nat) : Bool :=
  match s.region a k with
  | .hbm _ => true
  | _ => false

/-- The data or instruction cache of a core. -/
def Core.l1 (k : Core) (code : Bool) : Cache := if code then k.l1i else k.l1d

def Core.setL1 (k : Core) (code : Bool) (l : Cache) : Core := if code then { k with l1i := l } else { k with l1d := l }

/-- A line is put into an L1 cache of the core. -/
def State.l1Fill (s : State) (c : Nat) (code : Bool) (a : Nat) (data : List Byte) (p : Bool) : State :=
  let k := s.core c
  let set := a / 64 % l1Sets c
  let l := k.l1 code
  let w := l.victim 4 set (fun _ => false)
  s.setCore c (k.setL1 code ((l.put 4 set w (some ⟨a / 64, false, data, [p]⟩)).touch 4 set w))

/-- The next-line prefetch of an L1 cache after a demand miss (R350): only within the miss's 4 KiB of PA, judged like a read
of the core, dropped without record when denied and dropped on any status. -/
def State.l1Prefetch (s : State) (c : Nat) (code : Bool) (a : Nat) : State :=
  let b := a / 64 * 64 + 64
  if (c ≥ 128 || s.bit (Reg.TIL_L1_CTL c) 1) && b % 4096 ≠ 0 && s.isHbm b 64
      && (((s.core c).l1 code).find 4 (b / 64 % l1Sets c) (b / 64)).isNone then
    let (v, s) := s.judgeQuiet 0x00 (coreMaster c) b 64 Rights.read
    if v ≠ St.ok then s
    else
      match s.region b 64 with
      | .hbm dpa =>
        let (r, s) := s.hbmRead (coreMaster c) dpa 64 false
        if r.status = St.ok then s.l1Fill c code b r.data r.poison else s
      | _ => s
  else s

/-- A read request of the core. -/
def State.coreRead (s : State) (x : Ctx) (a k : Nat) (kind : ReqKind) (stream : Bool) : MemAnswer × State :=
  s.request x.bus { master := coreMaster x.c, dpa := a, len := k, kind := kind, data := [], stream := stream } false

/-- The caches may hold the bytes: they lie in one 64-byte line of HBM, and the window does not stream (R85, R89). -/
def State.l1Holds (s : State) (c a k : Nat) (stream : Bool) : Bool :=
  s.l1On c && !stream && decide (a / 64 = (a + k - 1) / 64) && s.isHbm a k

/-- A read of a DPA through the core's L1 (R89, R348): a hit answers from the line, a miss reads and keeps the whole line. -/
def State.cachedRead (s : State) (x : Ctx) (a k : Nat) (code stream : Bool) : MemAnswer × State :=
  let kind : ReqKind := if code then .fetch else .read
  if s.l1Holds x.c a k stream then
    let set := a / 64 % l1Sets x.c
    let kc := s.core x.c
    match (kc.l1 code).find 4 set (a / 64) with
    | some w =>
      let l := ((kc.l1 code).at 4 set w).getD ⟨0, false, [], []⟩
      (⟨St.ok, subBytes l.data (a % 64) k, l.poison.getD 0 false⟩,
        s.setCore x.c (kc.setL1 code ((kc.l1 code).touch 4 set w)))
    | none =>
      let (r, s) := s.coreRead x (a / 64 * 64) 64 kind stream
      if r.status ≠ St.ok then (r, s)
      else
        (⟨St.ok, subBytes r.data (a % 64) k, r.poison⟩,
          (s.l1Fill x.c code (a / 64 * 64) r.data r.poison).l1Prefetch x.c code a)
  else s.coreRead x a k kind stream

/-- A load of `k` bytes at a place. -/
def State.loadPlace (s : State) (x : Ctx) (pl : Place) (k : Nat) : MemAnswer × State :=
  match pl with
  | .bench off => (s.storeRead (benchAt x.c off) k, s)
  | .dpa a stream _ => s.cachedRead x a k false stream

/-- What a load comes to: data, an exception, or a wait for a held or far request. -/
inductive Loaded where
  | data (bytes : List Byte)
  | exc (e : Exc)
  | wait
  deriving DecidableEq, Repr

/-- The verdict of a read answer (R94). -/
def loadedOf (a : MemAnswer) (ea : DWord) : Loaded :=
  if a.status = St.held then .wait
  else if a.status ≠ St.ok then .exc (Exc.ofStatus a.status ea)
  else if a.poison then .exc (Exc.ofStatus St.poisonedData ea)
  else .data a.data

/-- A load of `k` bytes from an effective address (R80, R85). -/
def State.load (s : State) (x : Ctx) (ea : DWord) (k : Nat) : Loaded × State :=
  match s.translate x.c ea k .load with
  | .error e => (.exc e, s)
  | .ok pl =>
    let (a, s) := s.loadPlace x pl k
    (loadedOf a ea, s)

/-- A store updates any L1 copy as it is sent (R89). -/
def State.l1Update (s : State) (c a : Nat) (data : List Byte) : State :=
  let set := a / 64 % l1Sets c
  let k := s.core c
  match k.l1d.find 4 set (a / 64) with
  | some w =>
    let l := (k.l1d.at 4 set w).getD ⟨0, false, [], []⟩
    s.setCore c { k with l1d := k.l1d.put 4 set w (some { l with data := overlay l.data (a % 64) data }) }
  | none => s

/-- The first answer other than OK to a store is kept until it is raised (R93). -/
def State.noteStore (s : State) (c : Nat) (ea : DWord) (st : Nat) : State :=
  let k := s.core c
  if st ≠ St.ok && k.imprecise.isNone then s.setCore c { k with imprecise := some ⟨ea, st⟩ } else s

/-- A store of master `m` to DPA `a` that has left the module keeps its effective address (R93). -/
def State.noteEa (s : State) (m a : Nat) (ea : DWord) : State :=
  if s.far = [] then s
  else
    { s with
      far := s.far.map (fun f =>
        if f.req.master = m && f.req.dpa = a && f.req.kind = .write && f.done.isNone then { f with ea := ea } else f) }

/-- A store of bytes at a place; the answer's status (St.held where the request waits). -/
def State.storePlace (s : State) (x : Ctx) (pl : Place) (ea : DWord) (data : List Byte) : Nat × State :=
  match pl with
  | .bench off => (St.ok, s.benchStore x.c off data false)
  | .dpa a stream _ =>
    let s' := if s.l1On x.c then s.l1Update x.c a data else s
    let (r, t) :=
      s'.request x.bus
        { master := coreMaster x.c, dpa := a, len := data.length, kind := .write, data := data, stream := stream } false
    if r.status = St.held then (St.held, s) else (r.status, (t.noteEa (coreMaster x.c) a ea).noteStore x.c ea r.status)

/-- What a store comes to: it has been sent, an exception, or a wait. -/
inductive Stored where
  | done
  | exc (e : Exc)
  | wait
  deriving DecidableEq, Repr

/-- A store of bytes to an effective address (R80, R85, R93). -/
def State.store (s : State) (x : Ctx) (ea : DWord) (data : List Byte) : Stored × State :=
  match s.translate x.c ea data.length .store with
  | .error e => (.exc e, s)
  | .ok pl =>
    let (st, s) := s.storePlace x pl ea data
    (if st = St.held then .wait else .done, s)

/-- An atomic drops any L1 copy of its line (R150). -/
def State.l1Drop (s : State) (c a : Nat) : State :=
  let set := a / 64 % l1Sets c
  let k := s.core c
  match k.l1d.find 4 set (a / 64) with
  | some w => s.setCore c { k with l1d := k.l1d.put 4 set w none }
  | none => s

/-- An atomic of `k` bytes at an effective address (R149, R150): the prior bytes. -/
def State.atomic (s : State) (x : Ctx) (op : Nat) (ea : DWord) (k : Nat) (operand new : DWord) : Loaded × State :=
  match s.translate x.c ea k .atomic with
  | .error e => (.exc e, s)
  | .ok (.bench off) =>
    let a := s.storeRead (benchAt x.c off) k
    if a.poison then (.exc (Exc.ofStatus St.poisonedData ea), s)
    else
      (.data a.data,
        s.benchStore x.c off
          (natLE k (amoResult op (8 * k) (leNat a.data) operand.toNat new.toNat)) false)
  | .ok (.dpa a _ _) =>
    let (r, s) :=
      (s.l1Drop x.c a).request x.bus
        { master := coreMaster x.c, dpa := a, len := k, kind := .atomic op new, data := natLE k operand.toNat,
          stream := false } false
    (loadedOf r ea, s)

/-- A message whose VSEND or SCLOSE is performed only once it has been received (R142). -/
def nocPends (m : NocMsg) : Bool :=
  match m.body with
  | .credit _ => false
  | _ => true

/-- The answer of a request outside its half or module (R384, R407): a core's store performs or is noted, and any other request comes
again for it. -/
def State.endFar (s : State) (f : Far) (st : Nat) (data : List Byte) (poison : Bool) : State :=
  if f.req.kind = .write && 0x100 ≤ f.req.master && f.req.master < 0x150 then
    let s : State := { s with far := s.far.erase f }
    if st = St.ok then s
    else s.noteStore (if f.req.master < 0x140 then f.req.master - 0x100 else 128 + (f.req.master - 0x140)) f.ea st
  else { s with far := s.far.map (fun g => if g = f then { f with done := some (st, data, poison) } else g) }

/-- The core has stores or stream messages of its own that have not performed (R88, R91); its reads keep the instruction itself
waiting. -/
def State.unperformed (s : State) (c : Nat) : Bool :=
  s.far.any (fun f => f.req.master = coreMaster c && f.req.kind = .write) || s.noc.any (fun m => m.sender = c && nocPends m)
    || s.txs.any (fun t => match t.kind with | .stream core _ => core = c | _ => false)

/-- Core `c` drops the lines of its L1 instruction cache, or of its L1 data cache (R91). -/
def State.dropL1 (s : State) (c : Nat) (code : Bool) : State :=
  let k := s.core c
  s.setCore c (if code then { k with l1i := Cache.empty } else { k with l1d := Cache.empty })

/-- The imprecise exception of a kept store answer (R93, R94). -/
def Imprecise.exc (i : Imprecise) : Exc := { Exc.ofStatus i.status i.ea with info := 2 ^ 15 }

/-- The imprecise exception is raised at the core's present instruction boundary (R93). -/
def State.raiseImprecise (s : State) (c : Nat) (i : Imprecise) : State :=
  (s.setCore c { s.core c with imprecise := none }).except c i.exc

end Sys2Proof.Machine
end

