-- ==== Sys2Proof/Machine/Streams.lean ====
section
/-! DEFINITION. Stream channels (R142 to R144, R162 to R165, R389): sending elements, end markers and credit, their arrival,
configuration and reset. -/

namespace Sys2Proof.Machine

/-- The element bytes of an ESIZE code (R154). -/
def esizeBytes (e : Nat) : Nat := 2 ^ e

/-- Outbound channel `c` of tile `n` is configured. -/
def State.ochValid (s : State) (n c : Nat) : Bool := s.bit (Reg.TIL_OCH_CFG n c) 31
/-- Its generation, KIND, element bytes, credit and closed flag (R165). -/
def State.ochGen (s : State) (n c : Nat) : Nat := s.fld (Reg.TIL_OCH_CFG n c) 30 27
def State.ochKind (s : State) (n c : Nat) : Nat := s.fld (Reg.TIL_OCH_CFG n c) 26 24
def State.ochEb (s : State) (n c : Nat) : Nat := esizeBytes (s.fld (Reg.TIL_OCH_CFG n c) 22 20)
def State.ochCredit (s : State) (n c : Nat) : Nat := (s.rd (Reg.TIL_OCH_CREDIT n c)).toNat
def State.ochClosed (s : State) (n c : Nat) : Bool := s.bit (Reg.TIL_OCH_CTL n c) 1

/-- Inbound channel `c` of tile `n` is configured. -/
def State.ichValid (s : State) (n c : Nat) : Bool := s.bit (Reg.TIL_ICH_CFG n c) 31
def State.ichGen (s : State) (n c : Nat) : Nat := s.fld (Reg.TIL_ICH_CFG n c) 30 27
def State.ichEb (s : State) (n c : Nat) : Nat := esizeBytes (s.fld (Reg.TIL_ICH_CFG n c) 22 20)
/-- Its end marker is buffered. -/
def State.ichEnd (s : State) (n c : Nat) : Bool := s.bit (Reg.TIL_ICH_CTL n c) 1
/-- The elements it has buffered, oldest first. -/
def State.buffered (s : State) (n c : Nat) : List Buffered := FMap.getD s.inbound (32 * n + c)

/-- The buffer of an inbound channel becomes `l`, and COUNT follows it. -/
def State.setBuffered (s : State) (n c : Nat) (l : List Buffered) : State :=
  State.wr { s with inbound := FMap.setD s.inbound (32 * n + c) l } (Reg.TIL_ICH_COUNT n c) (BitVec.ofNat 32 l.length)

/-- What a message carries once its consumer has checked the payload: a double error poisons the elements (R41, R359). -/
def checkedBody (payload : Ecc) (b : NocBody) : NocBody :=
  match b with
  | .elems es last bad => .elems es last (bad || payload = .uncorrectable)
  | b => b

/-- The receiver of a message is a tile of the other half, or a sink, which the FRONT holds (R172). -/
def State.crosses (s : State) (m : NocMsg) : Bool :=
  if m.kind = 0 then (s.localTile m.tile).isNone else s.role = some true

/-- A stream message enters the mesh, or crosses the hinge to the other half's tile (R172). -/
def State.sendNoc (s : State) (m : NocMsg) : State :=
  if s.crosses m then { s with sent := s.sent ++ [.stream 0 m] } else { s with noc := s.noc ++ [m] }

/-- Elements or an end marker leave for the mesh or the hinge; the Bool is false while the hinge has no transaction tag. What crosses
the hinge has performed once the other half has answered its tag (R88, R142; DESIGN CHOICE, assumption 110). -/
def State.sendStream (s : State) (m : NocMsg) : Bool × State :=
  if s.crosses m then
    match s.freeTag with
    | none => (false, s)
    | some tag => (true, State.openTx { s with sent := s.sent ++ [.stream tag m] } tag 16 (.stream m.sender m.sendCh))
  else (true, s.sendNoc m)

/-- The message of channel `c` of tile `n` that carries `b` (R162, R165). -/
def State.ochMsg (s : State) (n c : Nat) (b : NocBody) : NocMsg where
  kind := s.ochKind n c
  sender := n
  sendCh := c
  tile := if s.ochKind n c = 0 then s.fld (Reg.TIL_OCH_DEST n c) 11 5 else s.fld (Reg.TIL_OCH_DEST n c) 11 0
  ch := s.fld (Reg.TIL_OCH_DEST n c) 4 0
  gen := s.ochGen n c
  eb := s.ochEb n c
  body := b

/-- The STREAM or STREAM_END packet of a remote channel (R383, R389). -/
def State.ochPacket (s : State) (n c tag : Nat) (es : Option (List Nat)) : Packet :=
  let eb := s.ochEb n c
  let data := (es.getD []).flatMap (natLE eb)
  { Packet.plain (if es.isSome then 5 else 6) 3 s.srcFid (s.fld (Reg.TIL_OCH_DEST n c) 29 12) tag data.length with
    aux := 2 ^ 9 * s.fld (Reg.TIL_OCH_DEST n c) 11 5 + 2 ^ 4 * s.fld (Reg.TIL_OCH_DEST n c) 4 0 + s.ochGen n c
    payload := data }

/-- A packet of a remote channel is sent as a transaction; the Bool says whether it has left the tile. A failed route is
reported to the tile under R93. -/
def State.sendRemote (s : State) (n c : Nat) (es : Option (List Nat)) : Bool × State :=
  match s.freeTag with
  | none => (false, s)
  | some tag =>
    match s.sendPacket (s.ochPacket n c tag es) with
    | (.error st, s) => (true, s.noteStore n 0 st)
    | (.ok port, s) => (true, s.openTx tag port (.stream n c))

/-- Elements leave on channel `c` of tile `n`, `last` marking the end of their VSEND: the number sent, at most the credit,
and for a remote channel at most a packet's 4,096 bytes. -/
def State.sendElems (s : State) (n c : Nat) (es : List Nat) : Nat × State :=
  let remote := s.ochKind n c = 1
  let room := if remote then min (s.ochCredit n c) (4096 / s.ochEb n c) else s.ochCredit n c
  let now := es.take room
  if now.isEmpty then (0, s)
  else
    let (left, s) :=
      if remote then s.sendRemote n c (some now)
      else s.sendStream (s.ochMsg n c (.elems now (now.length = es.length) false))
    if left then
      (now.length, s.wr (Reg.TIL_OCH_CREDIT n c) (BitVec.ofNat 32 (s.ochCredit n c - now.length)))
    else (0, s)

/-- The end marker leaves on channel `c` of tile `n`, and the channel is closed (R144); the Bool is false while a remote
channel has no transaction tag. -/
def State.closeChannel (s : State) (n c : Nat) : Bool × State :=
  let (left, s) :=
    if s.ochKind n c = 1 then s.sendRemote n c none else s.sendStream (s.ochMsg n c .endMark)
  if left then (true, s.setFld (Reg.TIL_OCH_CTL n c) 1 1 1) else (false, s)

/-- Headstock places an end marker on each configured channel that is not closed (R164); the Bool is false while one still waits
for a transaction tag. -/
def State.closeAll (s : State) (n : Nat) : Bool × State :=
  (List.range 32).foldl
    (fun a c =>
      if a.2.ochValid n c && !a.2.ochClosed n c then
        let (left, s) := a.2.closeChannel n c
        (a.1 && left, s)
      else a) (true, s)

/-- Credit for `k` elements returns to the sender bound to an inbound channel (R162, R389). -/
def State.returnCredit (s : State) (n c k : Nat) : State :=
  let src := Reg.TIL_ICH_SRC n c
  if k = 0 then s
  else if s.bit (Reg.TIL_ICH_CFG n c) 24 then
    (s.sendPacket
      { Packet.plain 0x12 1 s.srcFid (s.fld src 29 12) 0 0 with
        aux := 2 ^ 9 * s.fld src 11 5 + 2 ^ 4 * s.fld src 4 0 + s.ichGen n c
        aux2 := k }).2
  else
    s.sendNoc
      { kind := 0, sender := n, sendCh := c, tile := s.fld src 11 5, ch := s.fld src 4 0, gen := s.ichGen n c,
        eb := s.ichEb n c, body := .credit k }

/-- Elements or an end marker reach inbound channel `c` of local tile `n` (R163): discarded unless the channel is configured
with the same generation. -/
def State.streamArrive (s : State) (n c gen : Nat) (b : NocBody) : State :=
  let s := s.ungate n
  if !s.ichValid n c || s.ichGen n c ≠ gen then s
  else
    match b with
    | .elems es _ bad => s.setBuffered n c (s.buffered n c ++ es.map (fun e => ⟨e, false, bad⟩))
    | .endMark => s.setFld (Reg.TIL_ICH_CTL n c) 1 1 1
    | .credit _ => s

/-- Credit reaches outbound channel `c` of local tile `n` (R162, R163). -/
def State.creditArrive (s : State) (n c gen k : Nat) : State :=
  let s := s.ungate n
  if !s.ochValid n c || s.ochGen n c ≠ gen then s
  else s.wr (Reg.TIL_OCH_CREDIT n c) (BitVec.ofNat 32 (satAdd 32 (s.ochCredit n c) k))

/-- The first message for which `p` holds leaves the mesh. -/
def State.takeNoc (s : State) (p : NocMsg → Bool) : Option (NocMsg × State) :=
  match s.noc.find? p with
  | some m => some (m, { s with noc := s.noc.eraseP p })
  | none => none

/-- The message carries elements or an end marker, not credit. -/
def nocForward (m : NocMsg) : Bool :=
  match m.body with
  | .credit _ => false
  | _ => true

/-- STREAM_RESET of a VSEND or VRECV that waits on the channel, with the status written (R144, R165). -/
def State.wakeReset (s : State) (n c : Nat) (inbound : Bool) (rstatus : Nat) : State :=
  let k := s.core n
  if k.chWait = some (inbound, c) && s.running n then
    (s.setCore n { k with chWait := none, vsent := 0 }).except n ⟨0x26, rstatus, c, 0⟩
  else s

/-- RESET of a channel (R165). -/
def State.channelReset (s : State) (n c : Nat) (inbound : Bool) (rstatus : Nat) : State :=
  let s :=
    if inbound then (s.setBuffered n c []).setFld (Reg.TIL_ICH_CTL n c) 1 1 0
    else (s.wr (Reg.TIL_OCH_CREDIT n c) 0).setFld (Reg.TIL_OCH_CTL n c) 1 1 0
  s.wakeReset n c inbound rstatus

/-- A write of TILn_OCHc_CTL or TILn_ICHc_CTL (R165). -/
def State.channelCtl (s : State) (n c : Nat) (inbound : Bool) (v : Word) : State :=
  if v.toNat.testBit 0 then s.channelReset n c inbound (v.toNat / 2 ^ 16) else s

/-- Whether a write of VALID = 1 to a channel's CFG is refused (R165). -/
def State.channelBad (s : State) (n c : Nat) (inbound : Bool) (v : Word) : Bool :=
  let w := v.toNat
  let buf := s.rd (Reg.TIL_ICH_BUF n c)
  let size := bits buf.toNat 29 16
  decide (4 < bits w 22 20)
    || (if inbound then size = 0 || decide (8192 < size) || decide (8192 < bits buf.toNat 12 0 + size)
        else decide (3 < bits w 26 24))

/-- A write of CFG, DEST, CREDIT, SRC or BUF of a channel: only while the tile is halted (R87, R165). -/
def State.channelCfg (s : State) (m off n c : Nat) (inbound : Bool) (v : Word) : State :=
  let isCfg := off = (if inbound then Reg.TIL_ICH_CFG n c else Reg.TIL_OCH_CFG n c)
  if !s.halted n then s.refuse m off St.accessDenied
  else if isCfg && v.toNat.testBit 31 && s.channelBad n c inbound v then
    (s.plainWrite m off (v &&& 0x7FFFFFFF)).refuse m off St.invalidField
  else s.plainWrite m off v

end Sys2Proof.Machine
end

