-- ==== Sys2Proof/Machine/Float.lean ====
section
/-! DEFINITION. IEEE 754 arithmetic on F32 and F64 by exact integers and one rounding (R116, R117, R120). -/

namespace Sys2Proof.Machine

/-- A binary format: exponent and fraction widths. -/
structure FFmt where
  eb : Nat
  mb : Nat
  deriving DecidableEq, Repr

def FFmt.f32 : FFmt := ⟨8, 23⟩
def FFmt.f64 : FFmt := ⟨11, 52⟩

/-- The exponent bias. -/
def FFmt.bias (f : FFmt) : Int := 2 ^ (f.eb - 1) - 1

/-- The bit patterns of the format. -/
def FFmt.signBit (f : FFmt) (neg : Bool) : Nat := if neg then 2 ^ (f.eb + f.mb) else 0
def FFmt.inf (f : FFmt) (neg : Bool) : Nat := f.signBit neg + (2 ^ f.eb - 1) * 2 ^ f.mb
def FFmt.zero (f : FFmt) (neg : Bool) : Nat := f.signBit neg
/-- The canonical quiet NaN (R116). -/
def FFmt.nan (f : FFmt) : Nat := (2 ^ f.eb - 1) * 2 ^ f.mb + 2 ^ (f.mb - 1)

/-- A decoded number: NaN, infinity, or the exact finite value `±m * 2 ^ e`. -/
inductive FNum where
  | nan (signalling : Bool)
  | inf (neg : Bool)
  | fin (neg : Bool) (m : Nat) (e : Int)
  deriving DecidableEq, Repr

/-- The number a bit pattern stands for. -/
def FFmt.decode (f : FFmt) (n : Nat) : FNum :=
  let neg := n.testBit (f.eb + f.mb)
  let ex := bits n (f.eb + f.mb - 1) f.mb
  let fr := n % 2 ^ f.mb
  if ex = 2 ^ f.eb - 1 then (if fr = 0 then .inf neg else .nan (!fr.testBit (f.mb - 1)))
  else if ex = 0 then .fin neg fr (1 - f.bias - f.mb)
  else .fin neg (2 ^ f.mb + fr) (ex - f.bias - f.mb)

/-- The VFLAGS bits of R103. -/
def flFF : Nat := 0x80
def flNX : Nat := 0x40
def flUF : Nat := 0x20
def flOF : Nat := 0x10
def flNV : Nat := 0x08
def flDZ : Nat := 0x04
def flOVU : Nat := 0x02
def flOVS : Nat := 0x01

/-- The number of bits of `m`. -/
def bitLen (m : Nat) : Nat := if m = 0 then 0 else Nat.log2 m + 1

/-- `m * 2 ^ (e - q)` rounded to an integer, to nearest with ties to even; `sticky` marks a nonzero remainder below `m`. The
Bool says the result is inexact. -/
def roundAt (m : Nat) (e : Int) (sticky : Bool) (q : Int) : Nat × Bool :=
  if q ≤ e then (m * 2 ^ (e - q).toNat, sticky)
  else
    let sh := (q - e).toNat
    let t := m / 2 ^ sh
    let r := m % 2 ^ sh
    let h := 2 ^ (sh - 1)
    let up := decide (h < r) || (r = h && (sticky || t % 2 = 1))
    (if up then t + 1 else t, sticky || r != 0)

/-- The value `±(m + s) * 2 ^ e`, with `0 ≤ s < 1` and `s ≠ 0` exactly when `sticky`, rounded into the format: its bit
pattern and flags. A nonzero sticky value needs `m` of more bits than the format holds. -/
def FFmt.round (f : FFmt) (neg : Bool) (m : Nat) (e : Int) (sticky : Bool) : Nat × Nat :=
  if m = 0 && !sticky then (f.zero neg, 0)
  else
    let emin := 1 - f.bias
    let p := f.mb + 1
    let q0 := e + bitLen m - p
    let q := max q0 (emin - f.mb)
    let (t, inexact) := roundAt m e sticky q
    -- the rounding may carry into the next binade
    let (t, q) := if t = 2 ^ p then (2 ^ f.mb, q + 1) else (t, q)
    let (u, _) := roundAt m e sticky q0
    let tiny :=
      if Config.tinyBefore then decide (q0 + f.mb < emin)
      else decide (q0 + f.mb < emin) && !(u = 2 ^ p && q0 + 1 + f.mb = emin)
    let fl := (if inexact then flNX else 0) ||| (if inexact && tiny then flUF else 0)
    if f.bias < q + f.mb && 2 ^ f.mb ≤ t then (f.inf neg, flOF ||| flNX)
    else if t < 2 ^ f.mb then (f.signBit neg + t, fl)
    else (f.signBit neg + ((q + f.mb + f.bias).toNat * 2 ^ f.mb + (t - 2 ^ f.mb)), fl)

/-- A signed dyadic `i * 2 ^ e` rounded into the format; an exact zero takes `zneg`. -/
def FFmt.roundInt (f : FFmt) (i : Int) (e : Int) (zneg : Bool) : Nat × Nat :=
  if i = 0 then (f.zero zneg, 0) else f.round (decide (i < 0)) i.natAbs e false

/-- The integer mantissa of a finite number at exponent `q` at or below its own. -/
def alignTo (neg : Bool) (m : Nat) (e q : Int) : Int :=
  let v : Int := (m * 2 ^ (e - q).toNat : Nat)
  if neg then -v else v

/-- A result of invalid operands. -/
def FFmt.invalid (f : FFmt) : Nat × Nat := (f.nan, flNV)

/-- A NaN result of NaN operands: NV for a signalling one. -/
def FFmt.ofNan (f : FFmt) (signalling : Bool) : Nat × Nat := (f.nan, if signalling then flNV else 0)

/-- The number is a signalling NaN. -/
def FNum.signals : FNum → Bool
  | .nan s => s
  | _ => false

/-- The number is a NaN. -/
def FNum.isNan : FNum → Bool
  | .nan _ => true
  | _ => false

/-- The negated number. -/
def FNum.flip : FNum → FNum
  | .nan s => .nan s
  | .inf n => .inf !n
  | .fin n m e => .fin (!n) m e

/-- Sum of two numbers. -/
def FFmt.add (f : FFmt) (a b : FNum) : Nat × Nat :=
  match a, b with
  | .nan s, y => f.ofNan (s || y.signals)
  | x, .nan s => f.ofNan (s || x.signals)
  | .inf n, .inf m => if n = m then (f.inf n, 0) else f.invalid
  | .inf n, .fin _ _ _ => (f.inf n, 0)
  | .fin _ _ _, .inf n => (f.inf n, 0)
  | .fin n m e, .fin n' m' e' =>
    let q := min e e'
    let v := alignTo n m e q + alignTo n' m' e' q
    f.roundInt v q (if m = 0 && m' = 0 then n && n' else false)

/-- The exact product of two numbers, as a number of unbounded precision; `none` where invalid (zero by infinity). -/
def exactMul (a b : FNum) : Option FNum :=
  match a, b with
  | .nan s, y => some (.nan (s || y.signals))
  | x, .nan s => some (.nan (s || x.signals))
  | .inf n, .inf m => some (.inf (n != m))
  | .inf n, .fin m k _ => if k = 0 then none else some (.inf (n != m))
  | .fin m k _, .inf n => if k = 0 then none else some (.inf (n != m))
  | .fin n m e, .fin n' m' e' => some (.fin (n != n') (m * m') (e + e'))

/-- Product. -/
def FFmt.mul (f : FFmt) (a b : FNum) : Nat × Nat :=
  match exactMul a b with
  | none => f.invalid
  | some (.nan s) => f.ofNan s
  | some (.inf n) => (f.inf n, 0)
  | some (.fin n m e) => f.round n m e false

/-- `a * b + c`, rounded once (R116). -/
def FFmt.fma (f : FFmt) (a b c : FNum) : Nat × Nat :=
  match exactMul a b with
  | none =>
    match c with
    | .nan s => (f.nan, if s || Config.fmaInvalidNan then flNV else 0)
    | _ => f.invalid
  | some p => f.add p c

/-- Quotient. -/
def FFmt.div (f : FFmt) (a b : FNum) : Nat × Nat :=
  match a, b with
  | .nan s, y => f.ofNan (s || y.signals)
  | x, .nan s => f.ofNan (s || x.signals)
  | .inf _, .inf _ => f.invalid
  | .inf n, .fin m _ _ => (f.inf (n != m), 0)
  | .fin n _ _, .inf m => (f.zero (n != m), 0)
  | .fin n m e, .fin n' m' e' =>
    if m' = 0 then (if m = 0 then f.invalid else (f.inf (n != n'), flDZ))
    else
      -- enough bits that the quotient has more than the format holds
      let sh := bitLen m' + f.mb + 3
      let num := m * 2 ^ sh
      f.round (n != n') (num / m') (e - sh - e') (num % m' != 0)

/-- Integer square root by bits: the greatest `r` with `r * r ≤ n`, for `n < 4 ^ k`. -/
def isqrt (n : Nat) : Nat → Nat → Nat
  | 0, r => r
  | k + 1, r =>
    let t := r + 2 ^ k
    isqrt n k (if t * t ≤ n then t else r)

/-- Square root. -/
def FFmt.sqrt (f : FFmt) (a : FNum) : Nat × Nat :=
  match a with
  | .nan s => f.ofNan s
  | .inf n => if n then f.invalid else (f.inf false, 0)
  | .fin n m e =>
    if m = 0 then (f.zero n, 0)
    else if n then f.invalid
    else
      -- an even exponent, and enough bits
      let sh := 2 * f.mb + 6 + (if (e - (2 * f.mb + 6)) % 2 = 0 then 0 else 1)
      let v := m * 2 ^ sh
      let r := isqrt v (bitLen v / 2 + 1) 0
      f.round false r ((e - sh) / 2) (r * r != v)

/-- The order of two numbers that are not NaN: less, equal, greater as -1, 0, 1; the zeros are equal. -/
def FNum.cmp (a b : FNum) : Int :=
  match a, b with
  | .inf n, .inf m => if n = m then 0 else if n then -1 else 1
  | .inf n, _ => if n then -1 else 1
  | _, .inf m => if m then 1 else -1
  | .fin n m e, .fin n' m' e' =>
    let q := min e e'
    let d := alignTo n m e q - alignTo n' m' e' q
    if d < 0 then -1 else if d = 0 then 0 else 1
  | _, _ => 0

/-- The sign of a number. -/
def FNum.neg : FNum → Bool
  | .nan _ => false
  | .inf n => n
  | .fin n _ _ => n

/-- The lesser (or greater) of two operands, -0 below +0, a lone NaN giving the other operand (R116). -/
def FFmt.minmax (f : FFmt) (greater : Bool) (x y : Nat) : Nat × Nat :=
  let (a, b) := (f.decode x, f.decode y)
  let fl := if a.signals || b.signals then flNV else 0
  if a.isNan && b.isNan then (f.nan, fl)
  else if a.isNan then (y, fl)
  else if b.isNan then (x, fl)
  else
    let c := a.cmp b
    let less := decide (c < 0) || (c = 0 && a.neg && !b.neg)
    (if less != greater then x else y, fl)

/-- A comparison EQ, NE, LT, LE, GT or GE with its NV flag (R117). -/
def FFmt.compare (f : FFmt) (op : Nat) (x y : Nat) : Bool × Nat :=
  let (a, b) := (f.decode x, f.decode y)
  let nan := a.isNan || b.isNan
  let c := a.cmp b
  let fl := if a.signals || b.signals || (nan && 2 ≤ op) then flNV else 0
  if nan then (op = 1, fl)
  else
    (match op with
      | 0 => decide (c = 0)
      | 1 => decide (c ≠ 0)
      | 2 => decide (c < 0)
      | 3 => decide (c ≤ 0)
      | 4 => decide (0 < c)
      | _ => decide (0 ≤ c), 0)

/-- A number rounded toward zero to an integer; the Bool says it was inexact. -/
def truncToInt (n : Bool) (m : Nat) (e : Int) : Int × Bool :=
  let (v, inexact) : Nat × Bool :=
    if 0 ≤ e then (m * 2 ^ e.toNat, false) else (m / 2 ^ (-e).toNat, m % 2 ^ (-e).toNat != 0)
  (if n then -(v : Int) else v, inexact)

/-- The quotient of an integer by a positive one, rounded half away from zero (R114). -/
def divHalfAway (a : Int) (b : Nat) : Int :=
  let q := (2 * a.natAbs + b) / (2 * b)
  if a < 0 then -(q : Int) else q

/-- An integer over a positive one, rounded to nearest even to an integer; the Bool says it was inexact. -/
def divNearestEven (a : Int) (b : Nat) : Int × Bool :=
  let n := a.natAbs
  let (q, r) := (n / b, n % b)
  let up := decide (b < 2 * r) || (2 * r = b && q % 2 = 1)
  let v : Nat := if up then q + 1 else q
  (if a < 0 then -(v : Int) else v, r != 0)

/-- The value `i / d` rounded into the format. -/
def FFmt.ofRatio (f : FFmt) (i : Int) (d : Nat) : Nat × Nat :=
  if i = 0 then (f.zero false, 0)
  else
    let sh := bitLen d + f.mb + 3
    let num := i.natAbs * 2 ^ sh
    f.round (decide (i < 0)) (num / d) (-(sh : Int)) (num % d != 0)

end Sys2Proof.Machine
end

