-- ==== Sys2Proof/Machine/Scalar.lean ====
section
/-! DEFINITION. What each scalar LIS instruction does (R77 to R99), as a function of the instruction's context: one
definition for each row of the table. -/

namespace Sys2Proof.Machine

/-- ALU (R77, R78). -/
def aluInsn (x : Ctx) (s : State) : Out :=
  let f := fn6 x.w
  let narrow := fn4 x.w = 1
  if x.p ≠ .none || 1 < fn4 x.w || (0x18 ≤ f && f ≤ 0x1B && fB x.w ≠ 31) then x.raise s Exc.illegal
  else
    match aluOp f narrow x.xa x.xb with
    | none => x.raise s Exc.illegal
    | some r => .next { x.k.setX (fD x.w) r.value with sflags := stickyFlags x.k.sflags r } s

/-- A shift immediate holds only the amount: IMM[10:6] and any prefix payload are 0 (R79). -/
def shiftImmOk (p : Prefix) (w : Word) : Bool :=
  wf w 31 27 = 0 && (match p with | .imm pay => pay = 0 | _ => true)

/-- ALUI (R78, R79); PCHI does not use its XA field, which is 0 (R75). -/
def aluiInsn (x : Ctx) (s : State) : Out :=
  let f := fn4 x.w
  if !x.p.immOk || (f = 0xC && fA x.w ≠ 0) || (4 ≤ f && f ≤ 7 && !shiftImmOk x.p x.w) then x.raise s Exc.illegal
  else
    match aluiOp f x.xa (immediate x.p x.w) x.k.pc with
    | none => x.raise s Exc.illegal
    | some r => .next { x.k.setX (fD x.w) r.value with sflags := stickyFlags x.k.sflags r } s

/-- EA := XA + OFF (R80). -/
def Ctx.ea (x : Ctx) : DWord := x.xa + dw (immediate x.p x.w)

/-- The loaded bytes as a register value: FN4 0 to 3 sign-extend, 4 to 6 zero-extend (R80). -/
def loadValue (f : Nat) (d : List Byte) : DWord :=
  if f < 4 then dw (sext (8 * d.length) (leNat d)) else BitVec.ofNat 64 (leNat d)

/-- LOAD (R80). -/
def loadInsn (x : Ctx) (s : State) : Out :=
  let f := fn4 x.w
  let k := 2 ^ (f % 4)
  if !x.p.immOk || 6 < f then x.raise s Exc.illegal
  else if misaligned x.ea k then x.raise s (Exc.misaligned x.ea)
  else
    match s.load x x.ea k with
    | (.data d, s) => .next ((s.core x.c).setX (fD x.w) (loadValue f d)) s
    | (.exc e, s) => x.raise s e
    | (.wait, s) => .wait s

/-- STORE (R80, R93). -/
def storeInsn (x : Ctx) (s : State) : Out :=
  let f := fn4 x.w
  let k := 2 ^ f
  if !x.p.immOk || 3 < f then x.raise s Exc.illegal
  else if misaligned x.ea k then x.raise s (Exc.misaligned x.ea)
  else
    match s.store x x.ea (natLE k x.xd.toNat) with
    | (.done, s) => .next (s.core x.c) s
    | (.exc e, s) => x.raise s e
    | (.wait, s) => .wait s

/-- A jump to a 64-bit target: a target that is not canonical faults at the jump, with no register written (R81, R84). -/
def Ctx.jump (x : Ctx) (s : State) (target : DWord) (k : Core) : Out :=
  if canonical target then .goto (BitVec.ofNat 48 (target.toNat / 4 * 4)) k s else x.raise s (Exc.fetchFault target)

/-- The PC of the instruction, extended to 64 bits for target arithmetic (R81). -/
def Ctx.pc64 (x : Ctx) : DWord := paExtend x.k.pc

/-- BR (R81); the XB operand stands in bits 15:11 of a B word. -/
def brInsn (x : Ctx) (s : State) : Out :=
  if !x.p.immOk then x.raise s Exc.illegal
  else
    match brTaken (fn4 x.w) x.xa (x.k.xreg (fD x.w)) with
    | none => x.raise s Exc.illegal
    | some true => x.jump s (x.pc64 + dw (immediate x.p x.w * 4)) x.k
    | some false => .next x.k s

/-- Bits 10:7 of CALL and JUMP repeat bits 31:28 (R74, R75). -/
def jumpWordOk (x : Ctx) : Bool := x.p = .none && fn4 x.w = wf x.w 31 28

/-- The address of the next instruction, as CALL and CALLR write it (R81). -/
def Ctx.link (x : Ctx) : DWord := paExtend x.nextPc

/-- CALL (R81). -/
def callInsn (x : Ctx) (s : State) : Out :=
  if !jumpWordOk x then x.raise s Exc.illegal
  else x.jump s (x.pc64 + dw (offset21 x.w * 4)) (x.k.setX 30 x.link)

/-- JUMP (R81). -/
def jumpInsn (x : Ctx) (s : State) : Out :=
  if !jumpWordOk x then x.raise s Exc.illegal else x.jump s (x.pc64 + dw (offset21 x.w * 4)) x.k

/-- CALLR (R81). -/
def callrInsn (x : Ctx) (s : State) : Out :=
  if !x.p.immOk || fn4 x.w ≠ 0 then x.raise s Exc.illegal
  else
    let t := x.xa + dw (immediate x.p x.w)
    x.jump s (BitVec.ofNat 64 (t.toNat / 4 * 4)) (x.k.setX (fD x.w) x.link)

/-- A SYS word's other fields: XA, XB and XD are X31, FN4 is 0, and there is no prefix (R82). -/
def sysWordOk (x : Ctx) : Bool := x.p = .none && fA x.w = 31 && fB x.w = 31 && fD x.w = 31 && fn4 x.w = 0

/-- An instruction that first takes the answer of an earlier store, then waits for the core's accesses to perform (R91,
R93). -/
def Ctx.settled (x : Ctx) (s : State) (f : Unit → Out) : Out :=
  match (s.core x.c).imprecise with
  | some i => .trap i.exc { s.core x.c with imprecise := none } s
  | none => if s.unperformed x.c then .wait s else f ()

/-- A FENCE of a Headstock core lets its slot's WAIT, YIELD or EXIT take effect, the thread's PC already past the FENCE
(R309). -/
def Ctx.fenced (x : Ctx) (s : State) : Out :=
  if x.c < 128 then .next (s.core x.c) s
  else
    let s' := (s.setCore x.c { s.core x.c with pc := x.nextPc }).slotFence (x.c - 128)
    .goto (s'.core x.c).pc (s'.core x.c) s'

/-- FENCE (R91). -/
def fenceInsn (x : Ctx) (s : State) : Out :=
  if !sysWordOk x then x.raise s Exc.illegal else x.settled s (fun _ => x.fenced (s.dropL1 x.c false))

/-- FENCE.W (R91): stores of this model perform in program order; an earlier store's bad answer stops here (R93). -/
def fenceWInsn (x : Ctx) (s : State) : Out :=
  if !sysWordOk x then x.raise s Exc.illegal
  else
    match (s.core x.c).imprecise with
    | some i => .trap i.exc { s.core x.c with imprecise := none } s
    | none =>
      if s.far.any (fun f => f.req.master = coreMaster x.c && f.req.kind = .write) then .wait s
      else .next (s.core x.c) s

/-- FENCE.X (R91). -/
def fenceXInsn (x : Ctx) (s : State) : Out :=
  if !sysWordOk x then x.raise s Exc.illegal else x.settled s (fun _ =>
    .next ((s.dropL1 x.c true).core x.c) (s.dropL1 x.c true))

/-- RTCALL raises RUNTIME_CALL, with STATUS 0 (R82, R94). -/
def rtcallInsn (x : Ctx) (s : State) : Out :=
  if !sysWordOk x then x.raise s Exc.illegal else x.raise s ⟨0x0A, St.ok, 0, 0⟩

/-- DBGSTOP raises DEBUG_STOP (R82). -/
def dbgstopInsn (x : Ctx) (s : State) : Out :=
  if !sysWordOk x then x.raise s Exc.illegal else x.raise s (Exc.plain 0x09)

/-- END (R82): ILLEGAL_INSTRUCTION on Headstock. -/
def endInsn (x : Ctx) (s : State) : Out :=
  if !sysWordOk x || x.c ≥ 128 then x.raise s Exc.illegal else x.settled s (fun _ => .stop (s.core x.c) s)

/-- TRAPRET (R82, R97): PRIVILEGED outside Headstock supervisor mode. -/
def trapretInsn (x : Ctx) (s : State) : Out :=
  if !sysWordOk x then x.raise s Exc.illegal
  else if !s.supervisor x.c then x.raise s Exc.privileged
  else
    let k := x.k.trapret
    .goto k.pc k (s.setFld (Reg.HDS_CORE_STATUS (x.c - 128)) 5 5 (k.hstatus.toNat % 2))

/-- What system register `n` allows the core in its mode (R83, R104): `none` unlisted, else whether it can be read and
written; `some (false, _)` is PRIVILEGED. -/
def State.sysAccess (s : State) (c n : Nat) : Option (Bool × Bool) :=
  let head := s.supervisor c
  if n = 0x000 then some (true, true)
  else if n ≤ 0x003 then some (true, false)
  else if 0x010 ≤ n && n ≤ 0x012 then some (decide (c < 128), true)
  else if 0x013 ≤ n && n ≤ 0x01F then (if c < 128 then none else some (false, false))
  else if 0x100 ≤ n && n ≤ 0x105 then some (head, true)
  else if 0x120 ≤ n && n < 0x160 then some (c < 128 || head, decide (c ≥ 128))
  else none

/-- The value of system register `n`, and the state that has taken CYCLE's free value (R83, R104). -/
def State.sysRead (s : State) (c n : Nat) : DWord × State :=
  let k := s.core c
  if n = 0x000 then (k.sflags.setWidth 64, s)
  else if n = 0x001 then (BitVec.ofNat 64 (coreMaster c), s)
  else if n = 0x002 then s.free 64
  else if n = 0x003 then (s.time, s)
  else if n = 0x010 then (BitVec.ofNat 64 k.vcfg.word, s)
  else if n = 0x011 then (k.vcfg.vbegin.setWidth 64, s)
  else if n = 0x012 then (k.vcfg.vflags.setWidth 64, s)
  else if n = 0x100 then (k.hstatus, s)
  else if n = 0x101 then (k.htvec, s)
  else if n = 0x102 then (k.hepc, s)
  else if n = 0x103 then (k.hecause, s)
  else if n = 0x104 then (k.headdr, s)
  else if n = 0x105 then (k.hscratch, s)
  else (s.winWord c ((n - 0x120) / 4) ((n - 0x120) % 4), s)

/-- The element size of an element type code in bytes (R102). -/
def etBytes (et : Nat) : Nat :=
  match et with
  | 0 | 1 => 1
  | 2 | 3 => 2
  | 4 | 5 | 8 => 4
  | 6 | 7 | 9 | 0xA => 8
  | 0xB => 16
  | _ => 0

/-- VLMAX of an element type and GLOG (R102). -/
def vlmax (et glog : Nat) : Nat := 512 * 2 ^ glog / etBytes et

/-- A value VCFG takes (R103). -/
def vcfgOk (n : Nat) : Bool :=
  let v := VCfg.ofWord n
  v.word = n && decide (v.et.toNat ≤ 0xB) && decide (v.scale.toNat ≤ 18)
    && decide (v.vl.toNat ≤ vlmax v.et.toNat v.glog.toNat) && decide (v.vbegin.toNat ≤ v.vl.toNat)

/-- A window word with its unused bits 0 (R85). -/
def windowBits (i : Nat) (v : DWord) : DWord := if i = 3 then v &&& 0x1F else v &&& 0xFFFFFFFFF000

/-- The four words of window `w` with word `i` replaced are consistent: not valid, or PLIM at or above PBASE and the mapped
range within 48 bits (R85). -/
def windowOk (get : Nat → DWord) (i : Nat) (v : DWord) : Bool :=
  let f (j : Nat) : Nat := (if j = i then windowBits i v else get j).toNat
  !(f 3).testBit 0 || (decide (f 0 ≤ f 1) && decide (f 2 + (f 1 - f 0) ≤ 0xFFFFFFFFF000))

/-- System register `n` takes `v`; `none` where the value is refused with ILLEGAL_INSTRUCTION (R83, R85, R103, R104). R83 lists the
contents of HEPC, HTVEC, HSTATUS and HECAUSE; that the bits it does not list stay 0 is a DESIGN CHOICE (assumption 109). -/
def State.sysWrite (s : State) (c n : Nat) (v : DWord) : Option Core :=
  let k := s.core c
  let cfg (w : Nat) : Option Core := if vcfgOk w then some { k with vcfg := VCfg.ofWord w } else none
  if n = 0x000 then some { k with sflags := v.setWidth 3 }
  else if n ≤ 0x003 then some k
  else if n = 0x010 then cfg v.toNat
  else if n = 0x011 then cfg (setBits k.vcfg.word 44 32 v.toNat)
  else if n = 0x012 then cfg (setBits k.vcfg.word 55 48 v.toNat)
  else if n = 0x100 then some { k with hstatus := (v &&& 0xE) ||| (k.hstatus &&& 1) }
  else if n = 0x101 then some { k with htvec := v &&& 0xFFFFFFFFFFFC }
  else if n = 0x102 then some { k with hepc := v &&& 0xFFFFFFFFFFFC }
  else if n = 0x103 then some { k with hecause := v &&& 0xFFFFFFFF00FF }
  else if n = 0x104 then some { k with headdr := v }
  else if n = 0x105 then some { k with hscratch := v }
  else if c < 128 then some k
  else
    let w := (n - 0x120) / 4
    let i := (n - 0x120) % 4
    if windowOk (fun j => s.winWord c w j) i v then some { k with win := FMap.setD k.win (4 * w + i) (windowBits i v) }
    else none

/-- The value an SRW, SRS or SRC gives a system register (R83). -/
def sraValue (f : Nat) (prior xa : DWord) : DWord :=
  match f with
  | 1 => xa
  | 2 => prior ||| xa
  | _ => prior &&& ~~~xa

/-- SRA (R83): `f` is FN4, 0 SRR, 1 SRW, 2 SRS, 3 SRC. -/
def sraInsn (f : Nat) (x : Ctx) (s : State) : Out :=
  let n := wf x.w 31 21
  if x.p ≠ .none || (f = 0 && fA x.w ≠ 0) then x.raise s Exc.illegal
  else
    match s.sysAccess x.c n with
    | none => x.raise s Exc.illegal
    | some (false, _) => x.raise s Exc.privileged
    | some (true, writable) =>
      let (prior, s') := s.sysRead x.c n
      if f = 0 || !writable then .next (x.k.setX (fD x.w) prior) s'
      else
        match s.sysWrite x.c n (sraValue f prior x.xa) with
        | none => x.raise s Exc.illegal
        | some k => .next (k.setX (fD x.w) prior) s'

def srrInsn (x : Ctx) (s : State) : Out := sraInsn 0 x s
def srwInsn (x : Ctx) (s : State) : Out := sraInsn 1 x s
def srsInsn (x : Ctx) (s : State) : Out := sraInsn 2 x s
def srcInsn (x : Ctx) (s : State) : Out := sraInsn 3 x s

end Sys2Proof.Machine
end

