-- ==== Sys2Proof/Machine/VecOps.lean ====
section
/-! DEFINITION. Long-vector state and what every vector instruction shares: elements of grouped registers (R101, R102),
active elements and predicate results (R106 to R108), the arithmetic of one element (R112 to R117, R120), and
element-precise memory access (R121 to R126). -/

namespace Sys2Proof.Machine

/-- Register `n` of V as a number. -/
def Core.vreg (k : Core) (n : Nat) : Nat := (FMap.getD k.v n).toNat

/-- Register `n` of V becomes `v`. -/
def Core.setV (k : Core) (n v : Nat) : Core := { k with v := FMap.setD k.v n (BitVec.ofNat 4096 v) }

/-- Register `n` of P as a number. -/
def Core.preg (k : Core) (n : Nat) : Nat := (FMap.getD k.p n).toNat

/-- Register `n` of P becomes `v`. -/
def Core.setP (k : Core) (n v : Nat) : Core := { k with p := FMap.setD k.p n (BitVec.ofNat 512 v) }

/-- Element `i` of `eb` bytes of the group at V`n` (R102). -/
def Core.elem (k : Core) (eb n i : Nat) : Nat :=
  let a := 8 * (i * eb % 512)
  bits (k.vreg (n + i * eb / 512)) (a + 8 * eb - 1) a

/-- Element `i` of `eb` bytes of the group at V`n` becomes `v` (R102). -/
def Core.putElem (k : Core) (eb n i v : Nat) : Core :=
  let a := 8 * (i * eb % 512)
  let r := n + i * eb / 512
  k.setV r (setBits (k.vreg r) (a + 8 * eb - 1) a v)

/-- The governing bit of element `i` in the predicate group at P`g` (R106). -/
def Core.governs (k : Core) (eb g i : Nat) : Bool := (k.preg (g + i * eb / 512)).testBit (i * eb % 512)

/-- VCFG's fields as numbers. -/
def Core.et (k : Core) : Nat := k.vcfg.et.toNat
def Core.eb (k : Core) : Nat := etBytes k.vcfg.et.toNat
def Core.grp (k : Core) : Nat := 2 ^ k.vcfg.glog.toNat
def Core.vl (k : Core) : Nat := k.vcfg.vl.toNat
def Core.vbegin (k : Core) : Nat := k.vcfg.vbegin.toNat

/-- Flags are added to VFLAGS (R103, R113). -/
def Core.addVflags (k : Core) (fl : Nat) : Core :=
  { k with vcfg := { k.vcfg with vflags := k.vcfg.vflags ||| BitVec.ofNat 8 fl } }

/-- VBEGIN becomes `i`. -/
def Core.setVbegin (k : Core) (i : Nat) : Core := { k with vcfg := { k.vcfg with vbegin := BitVec.ofNat 13 i } }

/-- Element `i` is active, for an instruction that does not observe VBEGIN (R107). -/
def Core.active (k : Core) (g i : Nat) : Bool := decide (i < k.vl) && k.governs k.eb g i

/-- The predicate registers of a group whose element bits are `b`: every lane bit of an element holds its bit, all other
bits 0 (R108). -/
def predBits (eb : Nat) (b : Nat → Bool) (reg : Nat) : Nat → Nat
  | 0 => 0
  | n + 1 =>
    -- element n, if its lanes lie in this register
    predBits eb b reg n
      + (if n * eb / 512 = reg && b n then (2 ^ eb - 1) * 2 ^ (n * eb % 512) else 0)

/-- A predicate result into the group at P`d` (R108): `b` gives the bits of the elements below VL. -/
def Core.putPred (k : Core) (d : Nat) (b : Nat → Bool) : Core :=
  (List.range k.grp).foldl (fun c r => c.setP (d + r) (predBits k.eb b r k.vl)) k

/-- Operand legality: the register numbers are multiples of G (R102). -/
def Core.groupsOk (k : Core) (rs : List Nat) : Bool := rs.all (fun r => r % k.grp = 0)

/-- Predicate operand legality: at most 15 and a multiple of G (R102, R117). -/
def Core.predsOk (k : Core) (rs : List Nat) : Bool := rs.all (fun r => decide (r ≤ 15) && r % k.grp = 0)

/-- The type is signed (R112). -/
def etSigned (et : Nat) : Bool := et = 1 || et = 3 || et = 5 || et = 7 || et = 0xA || et = 0xB

/-- The type is F32 or F64. -/
def etFloat (et : Nat) : Bool := et = 8 || et = 9

/-- The format of a floating type. -/
def etFmt (et : Nat) : FFmt := if et = 8 then FFmt.f32 else FFmt.f64

/-- The integer an element of a type stands for. -/
def etInt (et n : Nat) : Int := if etSigned et then sext (8 * etBytes et) n else (n : Int)

/-- The bits of an integer in `w` bits, wrapping. -/
def wrap (w : Nat) (i : Int) : Nat := (i % (2 ^ w : Int)).toNat

/-- The least and greatest integers of a type. -/
def etMin (et : Nat) : Int := if etSigned et then -(2 ^ (8 * etBytes et - 1) : Int) else 0
def etMax (et : Nat) : Int := if etSigned et then 2 ^ (8 * etBytes et - 1) - 1 else 2 ^ (8 * etBytes et) - 1

/-- An integer fits a type. -/
def etFits (et : Nat) (i : Int) : Bool := decide (etMin et ≤ i) && decide (i ≤ etMax et)

/-- The overflow flag of a type: OVS signed, OVU unsigned (R113). -/
def ovFlag (et : Nat) : Nat := if etSigned et then flOVS else flOVU

/-- An exact integer result wrapped to the type, with its overflow flag (R113). -/
def wrapFlag (et : Nat) (i : Int) : Nat × Nat := (wrap (8 * etBytes et) i, if etFits et i then 0 else ovFlag et)

/-- An exact integer result clamped to the type, with its overflow flag (R113). -/
def clampFlag (et : Nat) (i : Int) : Nat × Nat :=
  if etFits et i then (wrap (8 * etBytes et) i, 0)
  else (wrap (8 * etBytes et) (if i < etMin et then etMin et else etMax et), ovFlag et)

/-- The integer operation FN6 on one element of type `et` (R112 to R115): result and flags; `none` where the opcode is
reserved or does not allow the type. A shift is of the bits of an element and sets no flag, VSHL of a signed type with the others; R113
says OVS is set when the exact result does not fit, without saying what a shift's exact result is (DESIGN CHOICE, assumption 114). -/
def vintOp (f et scale : Nat) (a b c : Nat) : Option (Nat × Nat) :=
  let w := 8 * etBytes et
  let (x, y) := (etInt et a, etInt et b)
  let unsigned := !etSigned et
  let q (n : Nat) : Option (Nat × Nat) := some (n, 0)
  if etFloat et then none
  else
    match f with
    | 0x00 => some (wrapFlag et (x + y))
    | 0x01 => some (wrapFlag et (x - y))
    | 0x02 => q (a &&& b)
    | 0x03 => q (a ||| b)
    | 0x04 => q (a ^^^ b)
    | 0x05 => q (a &&& (2 ^ w - 1 - b))
    | 0x06 => q ((a <<< (b % w)) % 2 ^ w)
    | 0x07 => q (a >>> (b % w))
    | 0x08 => q (wrap w (sext w a >>> (b % w)))
    | 0x09 => q (if x ≤ y then a else b)
    | 0x0A => q (if x ≤ y then b else a)
    | 0x0B => if et = 0xA then some (wrapFlag et (divHalfAway (x * y) (10 ^ scale))) else some (wrapFlag et (x * y))
    | 0x0C => if et = 0xA || et = 0xB then none else q (wrap w (x * y / 2 ^ w))
    | 0x0D =>
      if et = 0xB then none
      else if b = 0 then some (0, flDZ)
      else if et = 0xA then
        some (wrapFlag et (divHalfAway (if y < 0 then -(x * 10 ^ scale) else x * 10 ^ scale) y.natAbs))
      else some (wrapFlag et (x.tdiv y))
    | 0x0E =>
      if et = 0xA || et = 0xB then none
      else if b = 0 then some (0, flDZ)
      else some (wrap w (x.tmod y), if etFits et (x.tdiv y) then 0 else ovFlag et)
    | 0x0F => some (clampFlag et (x + y))
    | 0x10 => some (clampFlag et (x - y))
    | 0x11 => if unsigned then none else some (wrapFlag et (if x < 0 then -x else x))
    | 0x12 => if unsigned then none else some (wrapFlag et (-x))
    | 0x13 => if et = 0xA then none else some (wrapFlag et (x * y + etInt et c))
    | 0x14 => q (x - y).natAbs
    | _ => none

/-- Which integer opcodes take no second operand (R112). -/
def vintUnary (f : Nat) : Bool := f = 0x11 || f = 0x12

/-- The floating-point operation FN6 on one element (R116). -/
def vfloatOp (f et : Nat) (a b c : Nat) : Option (Nat × Nat) :=
  let m := etFmt et
  let w := m.eb + m.mb
  let (x, y, z) := (m.decode a, m.decode b, m.decode c)
  match f with
  | 0x00 => some (m.add x y)
  | 0x01 => some (m.add x y.flip)
  | 0x02 => some (m.mul x y)
  | 0x03 => some (m.div x y)
  | 0x04 => some (m.minmax false a b)
  | 0x05 => some (m.minmax true a b)
  | 0x06 => some (m.sqrt x)
  | 0x07 => some (a % 2 ^ w, 0)
  | 0x08 => some (setBits a w w (bit01 (!a.testBit w)), 0)
  | 0x09 => some (m.fma x y z)
  | 0x0A => some (m.fma x y z.flip)
  | _ => none

/-- Which floating-point opcodes take no second operand (R116). -/
def vfloatUnary (f : Nat) : Bool := f = 0x06 || f = 0x07 || f = 0x08

/-- The comparison FN6 on one element (R117). -/
def vcmpOp (f et : Nat) (a b : Nat) : Bool × Nat :=
  if etFloat et then (etFmt et).compare f a b
  else
    let (x, y) := (etInt et a, etInt et b)
    (match f with
      | 0 => decide (a = b)
      | 1 => decide (a ≠ b)
      | 2 => decide (x < y)
      | 3 => decide (x ≤ y)
      | 4 => decide (y < x)
      | _ => decide (y ≤ x), 0)

/-- A scalar broadcast to an element of type `et` (R110). -/
def broadcast (et : Nat) (v : DWord) : Nat :=
  if et = 0xB then wrap 128 v.toInt else v.toNat % 2 ^ (8 * etBytes et)

/-- An element as a scalar (R119): sign- or zero-extended by type, the low lane for B128, the bit pattern for floats. -/
def elemScalar (et n : Nat) : DWord :=
  if et = 0xB then BitVec.ofNat 64 n else if etSigned et then dw (etInt et n) else BitVec.ofNat 64 n

/-- What one conversion gives: a result, or `none` where the spec states none, with its flags. -/
abbrev Cvt := Option Nat × Nat

/-- An integer made an integer of type `dt` (R120): wrapped or clamped, with the flag of the destination type on a change. -/
def intToInt (dt : Nat) (sat : Bool) (i : Int) : Nat × Nat := if sat then clampFlag dt i else wrapFlag dt i

/-- A number made an integer of type `dt` (R120): toward zero, NaN 0, out of range clamped. -/
def floatToInt (dt : Nat) (x : FNum) : Nat × Nat :=
  let w := 8 * etBytes dt
  match x with
  | .nan _ => (0, flNV)
  | .inf n => (wrap w (if n then etMin dt else etMax dt), flNV)
  | .fin n m e =>
    let (i, inexact) := truncToInt n m e
    if etFits dt i then (wrap w i, if inexact then flNX else 0)
    else (wrap w (if i < etMin dt then etMin dt else etMax dt), flNV)

/-- A number made a D64 of a scale (R120): rounded to nearest even; the spec states no result for a NaN or for a number
outside the format. The row lists NX, OF and UF without saying when: a NaN sets none, an infinity OF, a number outside the format OF
and NX, and one that lies below one unit and is not zero UF and NX (DESIGN CHOICE, assumption 113). -/
def floatToDec (scale : Nat) (x : FNum) : Cvt :=
  match x with
  | .nan _ => (none, 0)
  | .inf _ => (none, flOF)
  | .fin n m e =>
    let v : Int := if n then -(m * 10 ^ scale : Nat) else (m * 10 ^ scale : Nat)
    let (i, inexact) := if 0 ≤ e then (v * 2 ^ e.toNat, false) else divNearestEven v (2 ^ (-e).toNat)
    let tiny := decide (m ≠ 0) && decide (e < 0) && decide (m * 10 ^ scale < 2 ^ (-e).toNat)
    if etFits 0xA i then (some (wrap 64 i), (if inexact then flNX else 0) ||| (if tiny then flUF else 0)) else (none, flOF ||| flNX)

/-- The conversion of one element from type `st` to type `dt` (R120). -/
def cvtElem (st dt scale : Nat) (sat : Bool) (a : Nat) : Cvt :=
  let some' (p : Nat × Nat) : Cvt := (some p.1, p.2)
  if etFloat st then
    let x := (etFmt st).decode a
    if etFloat dt then
      let m := etFmt dt
      match x with
      | .nan s => some' (m.ofNan s)
      | .inf n => some' (m.inf n, 0)
      | .fin n k e => some' (m.round n k e false)
    else if dt = 0xA then floatToDec scale x
    else some' (floatToInt dt x)
  else if st = 0xA then
    if etFloat dt then some' ((etFmt dt).ofRatio (etInt st a) (10 ^ scale))
    else some' (intToInt dt sat (divHalfAway (etInt st a) (10 ^ scale)))
  else if etFloat dt then some' ((etFmt dt).roundInt (etInt st a) 0 false)
  else if dt = 0xA then some' (intToInt dt sat (etInt st a * 10 ^ scale))
  else some' (intToInt dt sat (etInt st a))

/-- The vector cause of a scalar access exception (R126). -/
def vectorCause (c : Nat) : Nat :=
  match c with
  | 0x03 => 0x10
  | 0x04 => 0x11
  | 0x05 => 0x12
  | 0x07 => 0x13
  | 0x08 => 0x14
  | _ => 0x15

/-- The exception of element `i` of a vector access (R123, R126). -/
def elemExc (e : Exc) (i : Nat) : Exc := ⟨vectorCause e.cause, e.status, i, e.addr⟩

/-- A load of one element of `eb` bytes (R121). -/
def State.loadElem (s : State) (x : Ctx) (ea : DWord) (eb : Nat) : Loaded × State :=
  if misaligned ea eb then (.exc (Exc.misaligned ea), s) else s.load x ea eb

/-- A store of one element of `eb` bytes (R121). -/
def State.storeElem (s : State) (x : Ctx) (ea : DWord) (eb v : Nat) : Stored × State :=
  if misaligned ea eb then (.exc (Exc.misaligned ea), s) else s.store x ea (natLE eb v)

/-- How far a vector memory instruction has come: the elements done, or the element that stopped it. -/
inductive VProg where
  | go
  | fault (i : Nat) (e : Exc)
  | wait (i : Nat)
  deriving DecidableEq, Repr

/-- The elements from VBEGIN to VL - 1. -/
def Core.strip (k : Core) : List Nat := rangeFrom k.vbegin (k.vl - k.vbegin)

/-- The fields of record `i` are loaded in turn: all values, or what stopped them (R122). -/
def State.loadFields (s : State) (x : Ctx) (eb : Nat) : List DWord → Sum (List Nat) Loaded × State
  | [] => (.inl [], s)
  | ea :: rest =>
    match s.loadElem x ea eb with
    | (.data d, s) =>
      match s.loadFields x eb rest with
      | (.inl vs, s) => (.inl (leNat d :: vs), s)
      | r => r
    | (l, s) => (.inr l, s)

/-- A vector load: element `i` is read at the addresses `eas i` and written to the groups VD, VD + G, … (R121 to R123). -/
def State.vload (s : State) (x : Ctx) (pg vd : Nat) (eas : Nat → List DWord) : VProg × State :=
  let k := x.k
  k.strip.foldl
    (fun (acc : VProg × State) i =>
      match acc.1 with
      | .go =>
        if k.governs k.eb pg i then
          match acc.2.loadFields x k.eb (eas i) with
          | (.inl vs, s) =>
            let c :=
              (vs.zip (List.range vs.length)).foldl (fun c p => c.putElem k.eb (vd + p.2 * k.grp) i p.1) (s.core x.c)
            (.go, s.setCore x.c c)
          | (.inr (.exc e), s) => (.fault i e, s)
          | (.inr _, s) => (.wait i, s)
        else acc
      | _ => acc)
    (.go, s)

/-- The fields of record `i` are stored in turn, once all of them pass their window checks (R123, R125). -/
def State.storeFields (s : State) (x : Ctx) (eb : Nat) : List (DWord × Nat) → Stored × State
  | [] => (.done, s)
  | (ea, v) :: rest =>
    match s.storeElem x ea eb v with
    | (.done, s) => s.storeFields x eb rest
    | r => r

/-- The first field of a record that fails its checks before anything is sent. -/
def State.checkFields (s : State) (x : Ctx) (eb : Nat) (eas : List DWord) : Option Exc :=
  eas.findSome? (fun ea =>
    if misaligned ea eb then some (Exc.misaligned ea)
    else
      match s.translate x.c ea eb .store with
      | .error e => some e
      | .ok _ => none)

/-- A vector store: element `i` is written from the groups VD, VD + G, … to the addresses `eas i` (R121 to R125). -/
def State.vstore (s : State) (x : Ctx) (pg vd : Nat) (eas : Nat → List DWord) : VProg × State :=
  let k := x.k
  k.strip.foldl
    (fun (acc : VProg × State) i =>
      match acc.1 with
      | .go =>
        if k.governs k.eb pg i then
          match acc.2.checkFields x k.eb (eas i) with
          | some e => (.fault i e, acc.2)
          | none =>
            let vs := (List.range (eas i).length).map (fun j => k.elem k.eb (vd + j * k.grp) i)
            match acc.2.storeFields x k.eb ((eas i).zip vs) with
            | (.done, s) => (.go, s)
            | (.exc e, s) => (.fault i e, s)
            | (.wait, s) => (.wait i, s)
        else acc
      | _ => acc)
    (.go, s)

/-- A vector memory instruction ends: completed with VBEGIN 0, faulted at an element, or waiting at one (R109, R123). -/
def Ctx.vend (x : Ctx) (r : VProg × State) : Out :=
  let s := r.2
  match r.1 with
  | .go => .next ((s.core x.c).setVbegin 0) s
  | .fault i e => .trap (elemExc e i) ((s.core x.c).setVbegin i) s
  | .wait i => .wait (s.setCore x.c ((s.core x.c).setVbegin i))

/-- A vector or analytic instruction completes: VBEGIN := 0 (R109). -/
def vdone (k : Core) (s : State) : Out := .next (k.setVbegin 0) s

/-- Elementwise results into the group at V`d`, for every active element, with flags gathered (R107, R113). -/
def Core.mapActive (k : Core) (eb pg d : Nat) (f : Nat → Nat × Nat) : Core :=
  (List.range k.vl).foldl
    (fun c i =>
      if k.governs k.eb pg i then
        let r := f i
        (c.putElem eb d i r.1).addVflags r.2
      else c) k

end Sys2Proof.Machine
end

