-- ==== Sys2Proof/Machine/TileDecoder.lean ====
section
/-! DEFINITION. The tile decoder behind VDOPEN and VDECODE (R145 to R148): fetching stored data through the tile's windows,
frame by frame as the elements are needed, and the sibling store. -/

namespace Sys2Proof.Machine

/-- The revision is 2.1 or later (R199). -/
def State.rev21 (s : State) : Bool := decide (0x21 ≤ s.revision)

/-- Context `d` of a core. -/
def Core.dec (k : Core) (d : Nat) : Decoder := if d = 0 then k.dec0 else k.dec1

/-- Context `d` becomes `v`. -/
def Core.setDec (k : Core) (d : Nat) (v : Decoder) : Core := if d = 0 then { k with dec0 := v } else { k with dec1 := v }

/-- The CODEC fields of a context. -/
def Decoder.fields (d : Decoder) : Codec := Codec.ofWord d.codec.toNat

/-- What a fetch of stored bytes gives: the bytes up to the first granule that fails, its error, or a wait. -/
structure Fetched where
  bytes : List Byte
  err : Option CodecErr
  wait : Bool
  deriving DecidableEq, Repr

/-- One 64-byte granule of stored data, read as a load that allocates in no cache (R145, R147). -/
def State.fetchGranule (s : State) (x : Ctx) (d : Decoder) (g : Nat) : Fetched × State :=
  let ea := d.base + BitVec.ofNat 64 (64 * g)
  let k := min 64 (d.length - 64 * g)
  match s.translate x.c ea k .load with
  | .error _ => (⟨[], some (St.programFault, ea.toNat), false⟩, s)
  | .ok pl =>
    let (a, s) : MemAnswer × State :=
      match pl with
      | .bench o => (s.storeRead (benchAt x.c o) k, s)
      | .dpa a _ _ => s.coreRead x a k .read true
    if a.status = St.held then (⟨[], none, true⟩, s)
    else if a.status ≠ St.ok then (⟨[], some (a.status, ea.toNat), false⟩, s)
    else if a.poison then (⟨[], some (St.poisonedData, ea.toNat), false⟩, s)
    else (⟨a.data, none, false⟩, s)

/-- The stored bytes from `lo` to below `hi`, granule by granule up to the first that fails. -/
def State.fetchStored (s : State) (x : Ctx) (d : Decoder) (lo hi : Nat) : Fetched × State :=
  if hi ≤ lo then (⟨[], none, false⟩, s)
  else
    let r :=
      (rangeFrom (lo / 64) ((hi - 1) / 64 - lo / 64 + 1)).foldl
        (fun (acc : Fetched × State) g =>
          if acc.1.err.isSome || acc.1.wait then acc
          else
            let (f, s) := acc.2.fetchGranule x d g
            (⟨acc.1.bytes ++ f.bytes, f.err, f.wait⟩, s)) (⟨[], none, false⟩, s)
    (⟨(r.1.bytes.drop (lo % 64)).take (hi - lo), r.1.err, r.1.wait⟩, r.2)

/-- The sibling value of segment row `r` (R148, R199). -/
def siblingOf (d : Decoder) (r : Nat) : Except CodecErr Nat :=
  match d.values[r]? with
  | some v => .ok v
  | none => .error (d.fail.getD (St.lengthMismatch, d.base.toNat + d.next))

/-- The next frame of a context is decoded, `sib` being the sibling's context: the context after it, or `none` for a wait. -/
def State.decodeFrame (s : State) (x : Ctx) (d sib : Decoder) : Option Decoder × State :=
  let at' := d.next
  let c := d.fields
  match s.fetchStored x d at' (min (at' + 16) d.length) with
  | (⟨_, _, true⟩, s) => (none, s)
  | (⟨_, some e, _⟩, s) => (some { d with fail := some e }, s)
  | (⟨hd, none, _⟩, s) =>
    match frameHead c s.rev21 (d.count - d.values.length) (d.base.toNat + at') hd with
    | .error e => (some { d with fail := some e }, s)
    | .ok h =>
      let lo := at' + 16
      match s.fetchStored x d lo (min (lo + h.coded) d.length) with
      | (⟨_, _, true⟩, s) => (none, s)
      | (⟨bs, fe, _⟩, s) =>
        let n := h.raw / c.eb
        let place := d.base.toNat + lo
        let (vs, e) : List Nat × Option CodecErr :=
          if h.stored then
            let vs := storedElems c.eb bs n
            (vs, if vs.length < n then some (fe.getD (St.lengthMismatch, place + vs.length * c.eb)) else none)
          else
            Blocks.decode
              { codec := c, sib := h.sib, rev21 := s.rev21, data := leNat bs, limit := 8 * bs.length,
                out := fun p => fe.getD (St.lengthMismatch, place + p / 8), n := n,
                sibling := fun i => siblingOf sib (d.values.length + i), base := place }
        (some { d with values := d.values ++ vs, next := (lo + h.coded + 63) / 64 * 64, fail := e }, s)

/-- Context `d` is decoded until it has `want` elements or fails; the Bool is false while a fetch waits. -/
def State.decodeTo (s : State) (x : Ctx) (sib : Decoder) (want : Nat) : Nat → Decoder → Bool × Decoder × State
  | 0, d => (true, d, s)
  | fuel + 1, d =>
    if want ≤ d.values.length || d.fail.isSome then (true, d, s)
    else
      match s.decodeFrame x d sib with
      | (none, s) => (false, d, s)
      | (some d', s) => s.decodeTo x sib want fuel d'

/-- Context `i` of the core can deliver `want` elements, or has met what stops it; the sibling of context 1 is decoded ahead
as far as it is needed (R148). -/
def State.decodeAhead (s : State) (x : Ctx) (i want : Nat) : Bool × State :=
  let k := s.core x.c
  let bound := i = 1 && k.dec1.fields.sibEn
  let reach := min k.dec0.count (want + 65536)
  let (ok, sib, s) :=
    if bound then s.decodeTo x Decoder.closed reach (reach + 1) k.dec0 else (true, k.dec0, s)
  if !ok then (false, s)
  else
    let s := if bound then s.setCore x.c { s.core x.c with dec0 := sib } else s
    let (ok, d, s) := s.decodeTo x sib want (want + 1) (k.dec i)
    (ok, s.setCore x.c ((s.core x.c).setDec i d))

end Sys2Proof.Machine
end

