-- ==== Sys2Proof/Machine/Vector.lean ====
section
/-! DEFINITION. What each long-vector instruction does (R105 to R124), as a function of the instruction's context. -/

namespace Sys2Proof.Machine

/-- VSETCFG (R105). -/
def vsetcfgInsn (x : Ctx) (s : State) : Out :=
  let et := wf x.w 24 21
  let glog := wf x.w 26 25
  let scale := wf x.w 31 27
  if x.p ≠ .none || fn4 x.w ≠ 0 || 0xB < et || 18 < scale then x.raise s Exc.illegal
  else
    let mx := vlmax et glog
    let n := x.xa.toNat
    let vl := if fA x.w = 31 then mx else min n mx
    let rest := if fA x.w = 31 then 0 else n - vl
    let cfg : VCfg :=
      ⟨BitVec.ofNat 4 et, BitVec.ofNat 2 glog, BitVec.ofNat 5 scale, BitVec.ofNat 13 vl, x.k.vcfg.vflags, 0⟩
    .next ({ x.k with vcfg := cfg }.setX (fD x.w) (BitVec.ofNat 64 rest)) s

/-- The third source of an OPERANDS prefix whose second predicate is unused (R111). -/
def Prefix.third : Prefix → Option Nat
  | .operands c 0 => some c
  | _ => Option.none

/-- An elementwise operation on VA and VB or XB, with VC for the three-operand opcodes (R110 to R112, R116). -/
def elementwise (x : Ctx) (s : State) (fused unary : Bool) (op : Nat → Nat → Nat → Option (Nat × Nat)) : Out :=
  let k := x.k
  let scalar := major x.w % 2 = 1
  let vc := x.p.third
  let regs := [fD x.w, fA x.w] ++ (if scalar then [] else [fB x.w]) ++ vc.toList
  if (if fused then vc.isNone else decide (x.p ≠ Prefix.none)) || (unary && fB x.w ≠ 0) || !k.groupsOk regs || !k.predsOk [fn4 x.w]
      || (op 0 1 0).isNone then x.raise s Exc.illegal
  else
    let b (i : Nat) : Nat := if scalar then broadcast k.et x.xb else k.elem k.eb (fB x.w) i
    let c (i : Nat) : Nat := match vc with | some r => k.elem k.eb r i | none => 0
    vdone
      (k.mapActive k.eb (fn4 x.w) (fD x.w) (fun i => (op (k.elem k.eb (fA x.w) i) (b i) (c i)).getD (0, 0))) s

/-- Majors 0x20 and 0x21 (R112 to R115). -/
def vintInsn (x : Ctx) (s : State) : Out :=
  let f := fn6 x.w
  elementwise x s (f = 0x13) (vintUnary f) (vintOp f x.k.et x.k.vcfg.scale.toNat)

/-- Majors 0x22 and 0x23 (R116). -/
def vfloatInsn (x : Ctx) (s : State) : Out :=
  let f := fn6 x.w
  if !etFloat x.k.et then x.raise s Exc.illegal
  else elementwise x s (f = 0x09 || f = 0x0A) (vfloatUnary f) (vfloatOp f x.k.et)

/-- Majors 0x24 and 0x25 (R117). -/
def vcmpInsn (x : Ctx) (s : State) : Out :=
  let k := x.k
  let scalar := major x.w % 2 = 1
  let regs := [fA x.w] ++ (if scalar then [] else [fB x.w])
  if x.p ≠ .none || 5 < fn6 x.w || !k.groupsOk regs || !k.predsOk [fD x.w, fn4 x.w] then x.raise s Exc.illegal
  else
    let r (i : Nat) : Bool × Nat :=
      vcmpOp (fn6 x.w) k.et (k.elem k.eb (fA x.w) i)
        (if scalar then broadcast k.et x.xb else k.elem k.eb (fB x.w) i)
    let act (i : Nat) : Bool := k.governs k.eb (fn4 x.w) i
    let fl := (List.range k.vl).foldl (fun f i => if act i then f ||| (r i).2 else f) 0
    vdone ((k.putPred (fD x.w) (fun i => act i && (r i).1)).addVflags fl) s

/-- A bitwise predicate operation over a group (R108, R118). -/
def bitwisePred (k : Core) (d : Nat) (f : Nat → Nat) : Core :=
  (List.range k.grp).foldl (fun c r => c.setP (d + r) (f r % 2 ^ 512)) k

/-- The indices below VL whose governing bit in the group at P`a` is 1 (R118). -/
def Core.tally (k : Core) (a : Nat) : List Nat := (List.range k.vl).filter (fun i => k.governs k.eb a i)

/-- Major 0x26 (R118). -/
def predInsn (x : Ctx) (s : State) : Out :=
  let k := x.k
  let (d, a, b) := (fD x.w, fA x.w, fB x.w)
  let bad := x.raise s Exc.illegal
  let bitop (f : Nat → Nat → Nat) : Out :=
    if k.predsOk [d, a, b] then vdone (bitwisePred k d (fun r => f (k.preg (a + r)) (k.preg (b + r)))) s else bad
  let pset (t : Nat → Bool) : Out := if k.predsOk [d] then vdone (k.putPred d t) s else bad
  let full := 2 ^ 512 - 1
  if x.p ≠ .none || fn4 x.w ≠ 0 then bad
  else
    match fn6 x.w with
    | 0x00 => bitop (fun p q => p &&& q)
    | 0x01 => bitop (fun p q => p ||| q)
    | 0x02 => bitop (fun p q => p ^^^ q)
    | 0x03 => bitop (fun p q => p &&& (full - q))
    | 0x04 => if b = 0 then bitop (fun p _ => full - p) else bad
    | 0x08 => pset (fun i => decide (x.xa.toInt + i < x.xb.toInt))
    | 0x09 => pset (fun i => decide (x.xa.toNat + i < x.xb.toNat))
    | 0x0A => pset (fun i => decide (x.xa.toInt + i ≤ x.xb.toInt))
    | 0x0C => if a = 0 && b = 0 then pset (fun _ => true) else bad
    | 0x0D => if a = 0 && b = 0 then pset (fun _ => false) else bad
    | 0x10 =>
      if b = 0 && k.predsOk [a] then vdone (k.setX d (BitVec.ofNat 64 (k.tally a).length)) s else bad
    | 0x11 =>
      if b = 0 && k.predsOk [a] then vdone (k.setX d (BitVec.ofNat 64 ((k.tally a).headD k.vl))) s else bad
    | _ => bad

/-- Major 0x27 (R119). VIOTA writes the integer k, cut to the element's bits, whatever the type: R119 does not say that a float type
takes the number k in its own form (DESIGN CHOICE, assumption 115). -/
def moveInsn (x : Ctx) (s : State) : Out :=
  let k := x.k
  let (d, a, b, g) := (fD x.w, fA x.w, fB x.w, fn4 x.w)
  let eb := k.eb
  let bad := x.raise s Exc.illegal
  let ok (c : Bool) (o : Out) : Out := if c then o else bad
  let lane (i : Nat) : Nat := k.elem eb a i
  let n := x.xb.toNat
  if x.p ≠ .none then bad
  else
    match fn6 x.w with
    | 0x00 => ok (b = 0 && k.groupsOk [d, a] && k.predsOk [g]) (vdone (k.mapActive eb g d (fun i => (lane i, 0))) s)
    | 0x01 =>
      ok (k.groupsOk [d, a, b] && k.predsOk [g])
        (vdone
          ((List.range k.vl).foldl
            (fun c i => c.putElem eb d i (if k.governs eb g i then lane i else k.elem eb b i)) k) s)
    | 0x02 =>
      ok (b = 0 && k.groupsOk [d] && k.predsOk [g])
        (vdone (k.mapActive eb g d (fun _ => (broadcast k.et x.xa, 0))) s)
    | 0x03 =>
      ok (a = 0 && b = 0 && k.groupsOk [d] && k.predsOk [g]) (vdone (k.mapActive eb g d (fun i => (i, 0))) s)
    | 0x04 =>
      ok (g = 0 && k.groupsOk [a])
        (vdone (k.setX d (if n < k.vl then elemScalar k.et (lane n) else 0)) s)
    | 0x05 =>
      ok (g = 0 && k.groupsOk [d])
        (vdone (if n < k.vl then k.putElem eb d n (broadcast k.et x.xa) else k) s)
    | 0x06 =>
      ok (d ≠ a && k.groupsOk [d, a] && k.predsOk [g])
        (vdone (k.mapActive eb g d (fun i => (if i + n < k.vl then lane (i + n) else 0, 0))) s)
    | 0x07 =>
      ok (d ≠ a && k.groupsOk [d, a] && k.predsOk [g])
        (vdone
          ((List.range k.vl).foldl
            (fun c i => if k.governs eb g i && decide (n ≤ i) then c.putElem eb d i (lane (i - n)) else c) k) s)
    | _ => bad

/-- Two register ranges meet. -/
def overlaps (a n b m : Nat) : Bool := decide (a < b + m) && decide (b < a + n)

/-- The conversions of the active elements, a free value standing for each result the spec does not state. -/
def cvtAll (k : Core) (fresh dt : Nat) (sat : Bool) (a pg d : Nat) : Core × Nat :=
  (List.range k.vl).foldl
    (fun (acc : Core × Nat) i =>
      if k.governs k.eb pg i then
        let r := cvtElem k.et dt k.vcfg.scale.toNat sat (k.elem k.eb a i)
        match r.1 with
        | some v => ((acc.1.putElem (etBytes dt) d i v).addVflags r.2, acc.2)
        | none =>
          ((acc.1.putElem (etBytes dt) d i (Config.free (8 * etBytes dt) acc.2).toNat).addVflags r.2, acc.2 + 1)
      else acc) (k, fresh)

/-- VCVT (R120). -/
def vcvtInsn (x : Ctx) (s : State) : Out :=
  let k := x.k
  let dt := fn6 x.w % 16
  let sat := (fn6 x.w).testBit 4
  let gd := max 1 (k.grp * etBytes dt / k.eb)
  if x.p ≠ .none || (fn6 x.w).testBit 5 || fB x.w ≠ 0 || 0xB < dt || 8 < gd || (k.et = 0xA && dt = 0xA)
      || fD x.w % gd ≠ 0 || !k.groupsOk [fA x.w] || !k.predsOk [fn4 x.w]
      || (gd ≠ k.grp && overlaps (fD x.w) gd (fA x.w) k.grp) then x.raise s Exc.illegal
  else
    let (c, fresh) := cvtAll k s.fresh dt sat (fA x.w) (fn4 x.w) (fD x.w)
    vdone c { s with fresh := fresh }

/-- The legality all vector memory words share: no prefix, and their groups and predicate aligned. -/
def vmemOk (x : Ctx) (regs : List Nat) : Bool := x.p = .none && x.k.groupsOk regs && x.k.predsOk [fn4 x.w]

/-- XA + `n` bytes. -/
def Ctx.at (x : Ctx) (n : Nat) : DWord := x.xa + BitVec.ofNat 64 n

/-- idx_k of a gather or scatter (R121): unsigned of the element's width, the low lane for B128. -/
def Ctx.index (x : Ctx) (i : Nat) : Nat := x.k.elem x.k.eb (fB x.w) i % 2 ^ 64

/-- VLD (R121). -/
def vldInsn (x : Ctx) (s : State) : Out :=
  if !vmemOk x [fD x.w] || fB x.w ≠ 0 then x.raise s Exc.illegal
  else x.vend (s.vload x (fn4 x.w) (fD x.w) (fun i => [x.at (i * x.k.eb)]))

/-- VST (R121). -/
def vstInsn (x : Ctx) (s : State) : Out :=
  if !vmemOk x [fD x.w] || fB x.w ≠ 0 then x.raise s Exc.illegal
  else x.vend (s.vstore x (fn4 x.w) (fD x.w) (fun i => [x.at (i * x.k.eb)]))

/-- VLDS (R121). -/
def vldsInsn (x : Ctx) (s : State) : Out :=
  if !vmemOk x [fD x.w] then x.raise s Exc.illegal
  else x.vend (s.vload x (fn4 x.w) (fD x.w) (fun i => [x.at (i * x.xb.toNat)]))

/-- VSTS (R121). -/
def vstsInsn (x : Ctx) (s : State) : Out :=
  if !vmemOk x [fD x.w] then x.raise s Exc.illegal
  else x.vend (s.vstore x (fn4 x.w) (fD x.w) (fun i => [x.at (i * x.xb.toNat)]))

/-- GATHER (R121, R123). -/
def gatherInsn (x : Ctx) (s : State) : Out :=
  if !vmemOk x [fD x.w, fB x.w] then x.raise s Exc.illegal
  else x.vend (s.vload x (fn4 x.w) (fD x.w) (fun i => [x.at (x.index i * x.k.eb)]))

/-- SCATTER (R121, R123). -/
def scatterInsn (x : Ctx) (s : State) : Out :=
  if !vmemOk x [fD x.w, fB x.w] then x.raise s Exc.illegal
  else x.vend (s.vstore x (fn4 x.w) (fD x.w) (fun i => [x.at (x.index i * x.k.eb)]))

/-- The bits of elements `i` to VL - 1 leave the predicate group at P`g` (R124). -/
def Core.clearFrom (k : Core) (g i : Nat) : Core :=
  (List.range k.grp).foldl
    (fun c r =>
      let lo := max (i * k.eb) (512 * r) - 512 * r
      let hi := min (k.vl * k.eb) (512 * r + 512) - 512 * r
      if lo < hi then c.setP (g + r) (setBits (c.preg (g + r)) (hi - 1) lo 0) else c) k

/-- GATHER.F (R124). -/
def gatherFInsn (x : Ctx) (s : State) : Out :=
  if !vmemOk x [fD x.w, fB x.w] then x.raise s Exc.illegal
  else
    match s.vload x (fn4 x.w) (fD x.w) (fun i => [x.at (x.index i * x.k.eb)]) with
    | (.fault i _, s) => vdone (((s.core x.c).clearFrom (fn4 x.w) i).addVflags flFF) s
    | r => x.vend r

/-- The number of fields of an LDf or STf word (R121). -/
def fieldCount (x : Ctx) : Nat := fn6 x.w - 2

/-- The addresses of the fields of record `i` (R122). -/
def Ctx.record (x : Ctx) (i : Nat) : List DWord :=
  (List.range (fieldCount x)).map (fun j => x.at ((i * fieldCount x + j) * x.k.eb))

/-- LD2 to LD4 (R122). -/
def ldfInsn (x : Ctx) (s : State) : Out :=
  if !vmemOk x [fD x.w] || fB x.w ≠ 0 || 32 < fD x.w + fieldCount x * x.k.grp then x.raise s Exc.illegal
  else x.vend (s.vload x (fn4 x.w) (fD x.w) x.record)

/-- ST2 to ST4 (R122). -/
def stfInsn (x : Ctx) (s : State) : Out :=
  if !vmemOk x [fD x.w] || fB x.w ≠ 0 || 32 < fD x.w + fieldCount x * x.k.grp then x.raise s Exc.illegal
  else x.vend (s.vstore x (fn4 x.w) (fD x.w) x.record)

end Sys2Proof.Machine
end

