-- ==== Sys2Proof/Machine/Analytic.lean ====
section
/-! DEFINITION. What each analytic instruction does (R128 to R151), as a function of the instruction's context. -/

namespace Sys2Proof.Machine

/-- The analytic causes of R130 that carry PROGRAM_FAULT. -/
def analyticExc (cause info : Nat) : Exc := ⟨cause, St.programFault, info, 0⟩

/-- ANALYTIC_OPERAND (R130). -/
def Exc.operand : Exc := analyticExc 0x20 0

/-- A word with no prefix whose group and predicate operands are aligned (R128, R129). -/
def plainOk (x : Ctx) (groups : List Nat) : Bool := x.p = .none && x.k.groupsOk groups && x.k.predsOk [fn4 x.w]

/-- The groups of `n` registers at V`a` and `m` at V`b` share a register. -/
def sharesGroup (k : Core) (a n b m : Nat) : Bool := meets a (n * k.grp) b (m * k.grp)

/-- The active elements of the group at V`a`, in order (R107). -/
def Core.activeElems (k : Core) (pg a : Nat) : List Nat :=
  ((List.range k.vl).filter (fun i => k.governs k.eb pg i)).map (k.elem k.eb a)

/-- Elements `vs` written to the group at V`d` from element 0. -/
def Core.putElems (k : Core) (d : Nat) (vs : List Nat) : Core :=
  (vs.zip (List.range vs.length)).foldl (fun c e => c.putElem k.eb d e.2 e.1) k

/-- VCOMPRESS (R131). -/
def vcompressInsn (x : Ctx) (s : State) : Out :=
  let k := x.k
  if !plainOk x [fD x.w, fA x.w] || fB x.w ≠ 0 || sharesGroup k (fD x.w) 1 (fA x.w) 1 then x.raise s Exc.illegal
  else vdone (k.putElems (fD x.w) (k.activeElems (fn4 x.w) (fA x.w))) s

/-- VEXPAND (R131). -/
def vexpandInsn (x : Ctx) (s : State) : Out :=
  let k := x.k
  if !plainOk x [fD x.w, fA x.w] || fB x.w ≠ 0 || sharesGroup k (fD x.w) 1 (fA x.w) 1 then x.raise s Exc.illegal
  else
    let act := (List.range k.vl).filter (fun i => k.governs k.eb (fn4 x.w) i)
    vdone ((act.zip (List.range act.length)).foldl (fun c e => c.putElem k.eb (fD x.w) e.1 (k.elem k.eb (fA x.w) e.2)) k) s

/-- mix(x, s) of R132. -/
def clatanMix (x seed : Nat) : Nat :=
  let m := 2 ^ 64
  let h := (x ^^^ seed) % m
  let h := h ^^^ (h >>> 32)
  let h := h * 0x8F3D6B27E5A14C59 % m
  let h := h ^^^ (h >>> 29)
  let h := h * 0xD4C197A36E2B58ED % m
  h ^^^ (h >>> 32)

/-- VHASH and VHASH.X (R132). -/
def vhashInsn (x : Ctx) (s : State) : Out :=
  let k := x.k
  let scalar := fn6 x.w = 1
  if 1 < fn6 x.w || !plainOk x ([fD x.w, fA x.w] ++ (if scalar then [] else [fB x.w])) then x.raise s Exc.illegal
  else
    let seed (i : Nat) : Nat := if scalar then x.xb.toNat else k.elem k.eb (fB x.w) i % 2 ^ 64
    let h (i : Nat) : Nat :=
      let v := k.elem k.eb (fA x.w) i
      if k.et = 0xB then clatanMix (v / 2 ^ 64) (clatanMix (v % 2 ^ 64) (seed i)) else clatanMix v (seed i) % 2 ^ (8 * k.eb)
    vdone (k.mapActive k.eb (fn4 x.w) (fD x.w) (fun i => (h i, 0))) s

/-- The place of an element in the order of its type (R133): floats by totalOrder, others by their value. -/
def sortKey (et n : Nat) : Int :=
  if etFloat et then
    let w := 8 * etBytes et - 1
    if n.testBit w then -(n % 2 ^ w : Nat) - 1 else (n : Nat)
  else if et = 0xB then sext 128 n
  else etInt et n

/-- Whether `a` may stand before `b`: in ascending order, or descending for the .D forms. -/
def sortLe (et : Nat) (down : Bool) (a b : Nat) : Bool :=
  if down then decide (sortKey et b ≤ sortKey et a) else decide (sortKey et a ≤ sortKey et b)

/-- VSORT and VSORT.D (R133). -/
def vsortInsn (x : Ctx) (s : State) : Out :=
  let k := x.k
  if !plainOk x [fD x.w, fA x.w] || fB x.w ≠ 0 || sharesGroup k (fD x.w) 1 (fA x.w) 1 then x.raise s Exc.illegal
  else
    vdone (k.putElems (fD x.w) (sortBy (sortLe k.et (fn6 x.w = 1)) (k.activeElems (fn4 x.w) (fA x.w)))) s

/-- VSORTKV and VSORTKV.D (R133). -/
def vsortkvInsn (x : Ctx) (s : State) : Out :=
  let k := x.k
  let (d, a, b) := (fD x.w, fA x.w, fB x.w)
  if !plainOk x [d, a, b] || 32 < d + 2 * k.grp || sharesGroup k d 2 a 1 || sharesGroup k d 2 b 1 then x.raise s Exc.illegal
  else
    let kv :=
      sortBy (fun p q => sortLe k.et (fn6 x.w = 3) p.1 q.1)
        ((k.activeElems (fn4 x.w) a).zip (k.activeElems (fn4 x.w) b))
    vdone ((k.putElems d (kv.map (·.1))).putElems (d + k.grp) (kv.map (·.2))) s

/-- The merge of R134: the second list's head is taken only when it goes strictly before the first's. -/
def mergeRuns (before : Nat → Nat → Bool) : Nat → List Nat → List Nat → List Nat
  | 0, _, _ => []
  | _ + 1, [], bs => bs
  | _ + 1, as, [] => as
  | fuel + 1, a :: as, b :: bs =>
    if before b a then b :: mergeRuns before fuel (a :: as) bs else a :: mergeRuns before fuel as (b :: bs)

/-- VMERGE and VMERGE.D (R134). -/
def vmergeInsn (x : Ctx) (s : State) : Out :=
  let k := x.k
  let (d, a, b) := (fD x.w, fA x.w, fB x.w)
  if !plainOk x [d, a, b] || 32 < d + 2 * k.grp || sharesGroup k d 2 a 1 || sharesGroup k d 2 b 1 then x.raise s Exc.illegal
  else
    let (va, vb) := (k.activeElems (fn4 x.w) a, k.activeElems (fn4 x.w) b)
    let before (p q : Nat) : Bool := !sortLe k.et (fn6 x.w = 5) q p
    vdone (k.putElems d (mergeRuns before (va.length + vb.length) va vb)) s

/-- The operation of a reduction (R135): its identity and its step with flags; `none` where the type is not allowed. -/
def reduceOp (f et : Nat) : Option (Nat × (Nat → Nat → Nat × Nat)) :=
  let w := 8 * etBytes et
  let m := etFmt et
  let plain := !etFloat et && et ≠ 0xA && et ≠ 0xB
  let q (g : Nat → Nat → Nat) : Nat → Nat → Nat × Nat := fun a b => (g a b, 0)
  if f < 6 && etFloat et || 6 ≤ f && !etFloat et then none
  else
    match f with
    | 0 => some (0, fun a b => wrapFlag et (etInt et a + etInt et b))
    | 1 => some (wrap w (etMax et), q (fun a b => if etInt et a ≤ etInt et b then a else b))
    | 2 => some (wrap w (etMin et), q (fun a b => if etInt et a ≤ etInt et b then b else a))
    | 3 => if plain then some (2 ^ w - 1, q (· &&& ·)) else none
    | 4 => if plain then some (0, q (· ||| ·)) else none
    | 5 => if plain then some (0, q (· ^^^ ·)) else none
    | 6 => some (m.zero false, fun a b => m.add (m.decode a) (m.decode b))
    | 7 => some (m.inf false, m.minmax false)
    | 8 => some (m.inf true, m.minmax true)
    | _ => none

/-- Elements reduced in order, flags gathered (R135). -/
def reduceAll (step : Nat → Nat → Nat × Nat) (vs : List Nat) (id : Nat) : Nat × Nat :=
  vs.foldl
    (fun acc v =>
      let r := step acc.1 v
      (r.1, acc.2 ||| r.2)) (id, 0)

/-- VRED (R135). -/
def vredInsn (x : Ctx) (s : State) : Out :=
  let k := x.k
  match reduceOp (fn6 x.w) k.et with
  | none => x.raise s Exc.illegal
  | some (id, step) =>
    if !plainOk x [fD x.w, fA x.w] || fB x.w ≠ 0 then x.raise s Exc.illegal
    else
      let r := reduceAll step (k.activeElems (fn4 x.w) (fA x.w)) id
      vdone ((k.putElem k.eb (fD x.w) 0 r.1).addVflags r.2) s

/-- The segments of R136: for each, the elements that belong to it. -/
def segments (starts : Nat → Bool) : Nat → List (List Nat)
  | 0 => []
  | n + 1 =>
    let before := segments starts n
    if n = 0 || starts n then before ++ [[n]] else before.dropLast ++ [before.getLastD [] ++ [n]]

/-- VSRED (R136): the prefix names PS, and its XC field is 0. -/
def vsredInsn (x : Ctx) (s : State) : Out :=
  let k := x.k
  match x.p, reduceOp (fn6 x.w - 0x10) k.et with
  | .operands 0 ps, some (id, step) =>
    if fn6 x.w < 0x10 || !k.groupsOk [fD x.w, fA x.w] || fB x.w ≠ 0 || !k.predsOk [fn4 x.w, ps] then x.raise s Exc.illegal
    else
      let segs := segments (fun i => k.governs k.eb ps i) k.vl
      let rs :=
        segs.map (fun seg =>
          reduceAll step ((seg.filter (fun i => k.governs k.eb (fn4 x.w) i)).map (k.elem k.eb (fA x.w))) id)
      vdone ((k.putElems (fD x.w) (rs.map (·.1))).addVflags (rs.foldl (fun f r => f ||| r.2) 0)) s
  | _, _ => x.raise s Exc.illegal

/-- The bits of the group at V`n` as one number (R137). -/
def Core.groupBits (k : Core) (n : Nat) : Nat :=
  (List.range k.grp).foldl (fun acc r => acc + k.vreg (n + r) * 2 ^ (4096 * r)) 0

/-- The group at V`n` takes the bits of a number. -/
def Core.setGroupBits (k : Core) (n v : Nat) : Core :=
  (List.range k.grp).foldl (fun c r => c.setV (n + r) (v / 2 ^ (4096 * r) % 2 ^ 4096)) k

/-- The width and offset of XB, where they are in range (R137). -/
def packFields (x : Ctx) : Option (Nat × Nat) :=
  let v := x.xb.toNat
  let (w, o) := (bits v 6 0, bits v 22 8)
  if v / 2 ^ 23 ≠ 0 || v.testBit 7 || w = 0 || 8 * x.k.eb < w || 4096 * x.k.grp ≤ o then none else some (w, o)

/-- VUNPACK (R137). -/
def vunpackInsn (x : Ctx) (s : State) : Out :=
  let k := x.k
  if !plainOk x [fD x.w, fA x.w] || sharesGroup k (fD x.w) 1 (fA x.w) 1 then x.raise s Exc.illegal
  else
    match packFields x with
    | none => x.raise s Exc.operand
    | some (w, o) =>
      let g := k.groupBits (fA x.w)
      let v (i : Nat) : Nat :=
        let b := bits g (o + i * w + w - 1) (o + i * w)
        if etSigned k.et then wrap (8 * k.eb) (sext w b) else b
      vdone (k.mapActive k.eb (fn4 x.w) (fD x.w) (fun i => (v i, 0))) s

/-- VPACK (R137). R112 makes F32 and F64 neither signed nor unsigned: their bit patterns are taken as unsigned numbers (DESIGN CHOICE,
assumption 112). -/
def vpackInsn (x : Ctx) (s : State) : Out :=
  let k := x.k
  if !plainOk x [fD x.w, fA x.w] || sharesGroup k (fD x.w) 1 (fA x.w) 1 then x.raise s Exc.illegal
  else
    match packFields x with
    | none => x.raise s Exc.operand
    | some (w, o) =>
      let vs := k.activeElems (fn4 x.w) (fA x.w)
      let g :=
        (vs.zip (List.range vs.length)).foldl
          (fun g e => setBits g (o + e.2 * w + w - 1) (o + e.2 * w) e.1) (k.groupBits (fD x.w))
      let excess (n : Nat) : Nat :=
        if etSigned k.et then (if fitsSigned w (etInt k.et n) then 0 else flOVS) else (if n < 2 ^ w then 0 else flOVU)
      vdone ((k.setGroupBits (fD x.w) g).addVflags (vs.foldl (fun f n => f ||| excess n) 0)) s

/-- The first byte in which two 16-byte chunks differ, and the order it gives (R138). -/
def chunkCompare (a b : Nat) : Int × Nat :=
  match (List.range 16).find? (fun i => bits a (8 * i + 7) (8 * i) ≠ bits b (8 * i + 7) (8 * i)) with
  | none => (0, 16)
  | some i => (if bits a (8 * i + 7) (8 * i) < bits b (8 * i + 7) (8 * i) then -1 else 1, i)

/-- The element VSTRCMP writes (R138). -/
def chunkResult (a b : Nat) : Nat := wrap 64 (chunkCompare a b).1 + 2 ^ 64 * (chunkCompare a b).2

/-- VSTRCMP (R138). -/
def vstrcmpInsn (x : Ctx) (s : State) : Out :=
  let k := x.k
  if k.et ≠ 0xB || !plainOk x [fD x.w, fA x.w, fB x.w] then x.raise s Exc.illegal
  else
    vdone
      (k.mapActive 16 (fn4 x.w) (fD x.w) (fun i => (chunkResult (k.elem 16 (fA x.w) i) (k.elem 16 (fB x.w) i), 0))) s

/-- VSTRCMP.C (R138): the prefix names VC. -/
def vstrcmpCInsn (x : Ctx) (s : State) : Out :=
  let k := x.k
  match x.p.third with
  | none => x.raise s Exc.illegal
  | some vc =>
    if k.et ≠ 0xB || !k.groupsOk [fD x.w, fA x.w, fB x.w, vc] || !k.predsOk [fn4 x.w] then x.raise s Exc.illegal
    else
      let r (i : Nat) : Nat :=
        if k.elem 16 vc i % 2 ^ 64 ≠ 0 then k.elem 16 vc i
        else chunkResult (k.elem 16 (fA x.w) i) (k.elem 16 (fB x.w) i)
      vdone (k.mapActive 16 (fn4 x.w) (fD x.w) (fun i => (r i, 0))) s

/-- VSTRCMP.EQ to .GE (R138). -/
def vstrcmpPredInsn (x : Ctx) (s : State) : Out :=
  let k := x.k
  if k.et ≠ 0xB || x.p ≠ .none || !k.groupsOk [fA x.w, fB x.w] || !k.predsOk [fD x.w, fn4 x.w] then x.raise s Exc.illegal
  else
    let ok (c : Int) : Bool :=
      match fn6 x.w - 8 with
      | 0 => c = 0
      | 1 => c ≠ 0
      | 2 => decide (c < 0)
      | 3 => decide (c ≤ 0)
      | 4 => decide (0 < c)
      | _ => decide (0 ≤ c)
    vdone
      (k.putPred (fD x.w)
        (fun i =>
          k.governs k.eb (fn4 x.w) i && ok (chunkCompare (k.elem 16 (fA x.w) i) (k.elem 16 (fB x.w) i)).1)) s

/-- One histogram update of `cb` bytes at an address (R139): the carry out, or the exception it meets. -/
def State.benchCount (s : State) (x : Ctx) (ea : DWord) (cb add i : Nat) : Except Exc Bool × State :=
  let pa := ea.toNat % 2 ^ 48
  if !canonical ea || ea.toNat % cb ≠ 0 || pa < 0xFFFFFFE00000 || 2 ^ 48 < pa + cb then
    (.error ⟨0x21, St.programFault, i, ea⟩, s)
  else
    let off := pa - 0xFFFFFFE00000
    let a := s.storeRead (benchAt x.c off) cb
    if a.poison then (.error ⟨0x14, St.poisonedData, i, ea⟩, s)
    else
      let v := leNat a.data + add
      (.ok (decide (2 ^ (8 * cb) ≤ v)), s.benchStore x.c off (natLE cb v) false)

/-- The counters of the active elements from VBEGIN, in order (R139): the carries, and the element that stopped it. -/
def State.histogram (s : State) (x : Ctx) (cb : Nat) (weight : Nat → Nat) : Out :=
  let k := x.k
  let r :=
    k.strip.foldl
      (fun (acc : Option (Nat × Exc) × Nat × State) i =>
        if acc.1.isSome || !k.governs k.eb (fn4 x.w) i then acc
        else
          let ea := x.xa + BitVec.ofNat 64 (cb * k.elem k.eb (fB x.w) i)
          match acc.2.2.benchCount x ea cb (weight i) i with
          | (.error e, s) => (some (i, e), acc.2.1, s)
          | (.ok c, s) => (none, acc.2.1 ||| (if c then flOVU else 0), s)) (none, 0, s)
  match r with
  | (some (i, e), fl, s) => .trap e (((s.core x.c).addVflags fl).setVbegin i) s
  | (none, fl, s) => vdone ((s.core x.c).addVflags fl) s

/-- VHIST32 and VHIST64 (R139). -/
def vhistInsn (x : Ctx) (s : State) : Out :=
  if !plainOk x [fB x.w] || fD x.w ≠ 0 then x.raise s Exc.illegal
  else s.histogram x (if fn6 x.w = 0 then 4 else 8) (fun _ => 1)

/-- VHISTADD64 (R139). -/
def vhistaddInsn (x : Ctx) (s : State) : Out :=
  if !plainOk x [fD x.w, fB x.w] || x.k.eb ≠ 8 then x.raise s Exc.illegal
  else s.histogram x 8 (x.k.elem 8 (fD x.w))

/-- A result word of a search of rank `rank` with the COUNT, PRIORITY and DATA of `v`: HIT and MULTI follow COUNT, and without a hit
PRIORITY and DATA are 0 (R140). -/
def farResult (rank v : Nat) : Nat :=
  let count := bits v 61 54
  2 ^ 63 * bit01 (decide (rank < count)) + 2 ^ 62 * bit01 (decide (2 ≤ count)) + 2 ^ 54 * count
    + (if rank < count then bits v 47 0 else 0)

/-- The statuses with which the FRONT may answer a search of a tile of the BACK (R141). -/
def farStatus (n : Nat) : Nat := [St.ok, St.accessDenied, St.poisonedData, St.complementMismatch].getD (n % 4) St.ok

/-- The Gauge's answer to a tile's search of rank `rank` (R140, R178, R190): a tile of the BACK is answered by the FRONT, whose
judgement and result are free values in the forms of R140 and R141 (assumption 9). -/
def State.tileSearch (s : State) (x : Ctx) (t rank : Nat) (key : List DWord) : GAnswer × State :=
  if s.role = some true then
    let (st, s) := s.free 8
    let (v, s) := s.free 64
    let st := farStatus st.toNat
    (⟨st, if st = St.ok then farResult rank v.toNat else 0, none⟩, s)
  else
    let (st, w, s) := s.gAsk ⟨t, coreMaster x.c, some rank, key, none⟩
    (⟨st, w, none⟩, s)

/-- Whether table `t` exists and its width: of the pair's FRONT, which a BACK does not see, free values (R140, R190; assumption 9). -/
def State.tileTable (s : State) (t : Nat) : Bool × Nat × State :=
  if s.role = some true then
    let (e, s) := s.free 1
    let (w, s) := s.free 8
    (e = 1, 2 ^ (w.toNat % 3), s)
  else (s.gTable t, s.gWidth t, s)

/-- VGAUGE (R140, R141). -/
def vgaugeInsn (x : Ctx) (s : State) : Out :=
  let k := x.k
  let v := x.xb.toNat
  let (t, rank) := (bits v 3 0, bits v 15 8)
  if k.et ≠ 6 || !plainOk x [fD x.w, fA x.w] then x.raise s Exc.illegal
  else if v / 2 ^ 16 ≠ 0 || bits v 7 4 ≠ 0 || rank = 255 then x.raise s Exc.operand
  else
    let (made, w, s) := s.tileTable t
    if !made then x.raise s (analyticExc 0x22 t)
    else if k.vl % w ≠ 0 || (1 < w && sharesGroup k (fD x.w) 1 (fA x.w) 1) then x.raise s Exc.operand
    else
      let r :=
        (List.range (k.vl / w)).foldl
          (fun (acc : Option (Nat × Nat) × State) i =>
            if acc.1.isSome || i * w < k.vbegin || !k.governs 8 (fn4 x.w) (i * w) then acc
            else
              let key := (List.range w).map (fun u => BitVec.ofNat 64 (k.elem 8 (fA x.w) (i * w + u)))
              let (a, s) := acc.2.tileSearch x t rank key
              if a.status ≠ St.ok then (some (i, a.status), s)
              else (none, s.setCore x.c ((s.core x.c).putElem 8 (fD x.w) i a.word))) (none, s)
      match r with
      | (some (i, st), s) =>
        if st = St.held then .wait s else .trap ⟨0x23, st, i, 0⟩ ((s.core x.c).setVbegin (i * w)) s
      | (none, s) => vdone (s.core x.c) s

/-- The core waits on a channel, so that a reset of it can end the wait (R144, R165). -/
def chWaits (s : State) (x : Ctx) (inbound : Bool) (ch sent : Nat) : Out :=
  .wait (s.setCore x.c { s.core x.c with chWait := some (inbound, ch), vsent := sent })

/-- The core with no wait on a channel. -/
def Core.settledCh (k : Core) : Core := { k with chWait := none, vsent := 0 }

/-- VSEND (R142). -/
def vsendInsn (x : Ctx) (s : State) : Out :=
  let k := x.k
  let c := fD x.w
  if !plainOk x [fA x.w] || fB x.w ≠ 0 then x.raise s Exc.illegal
  else if !s.ochValid x.c c || s.ochEb x.c c ≠ k.eb then x.raise s (analyticExc 0x24 c)
  else if s.ochClosed x.c c then x.raise s (analyticExc 0x25 c)
  else
    let rest := (k.activeElems (fn4 x.w) (fA x.w)).drop k.vsent
    let (n, s) := s.sendElems x.c c rest
    if n = rest.length then vdone (s.core x.c).settledCh s else chWaits s x false c (k.vsent + n)

/-- The elements a VRECV takes, a free value standing for each that the receiver has overwritten (R162). -/
def takeElems (eb fresh : Nat) : List Buffered → List Nat × Nat
  | [] => ([], fresh)
  | e :: es =>
    let r := takeElems eb (if e.lost then fresh + 1 else fresh) es
    ((if e.lost then (Config.free (8 * eb) fresh).toNat else e.value) :: r.1, r.2)

/-- VRECV (R143). Poisoned elements are not used: it raises POISONED_DATA and takes none (R42; the form of the exception, which no
rule gives for VRECV, is a DESIGN CHOICE, assumption 111). -/
def vrecvInsn (x : Ctx) (s : State) : Out :=
  let k := x.k
  let c := fA x.w
  let g := fn4 x.w
  if !plainOk x [fD x.w] || fB x.w ≠ 0 then x.raise s Exc.illegal
  else if !s.ichValid x.c c || s.ichEb x.c c ≠ k.eb then x.raise s (analyticExc 0x24 c)
  else
    let q := s.buffered x.c c
    if q.length < k.vl && !s.ichEnd x.c c then chWaits s x true c 0
    else
      let n := min k.vl q.length
      if (q.take n).any (fun e => e.bad) then
        .trap (Exc.ofStatus St.poisonedData 0) (s.core x.c).settledCh s
      else
      let (vs, fresh) := takeElems k.eb s.fresh (q.take n)
      let s := State.returnCredit (State.setBuffered { s with fresh := fresh } x.c c (q.drop n)) x.c c n
      vdone ((((s.core x.c).putElems (fD x.w) vs).putPred g (fun i => decide (i < n))).settledCh) s

/-- SCLOSE (R144). -/
def scloseInsn (x : Ctx) (s : State) : Out :=
  let c := fD x.w
  if x.p ≠ .none || fA x.w ≠ 0 || fB x.w ≠ 0 || fn4 x.w ≠ 0 then x.raise s Exc.illegal
  else if !s.ochValid x.c c then x.raise s (analyticExc 0x24 c)
  else if s.ochClosed x.c c then x.raise s (analyticExc 0x25 c)
  else
    let (left, s) := s.closeChannel x.c c
    if left then vdone (s.core x.c) s else .wait s

/-- The operand fields all SSTAT, VDSTAT and VDCLOSE words leave 0, with no prefix. -/
def statOk (x : Ctx) : Bool := x.p = .none && fB x.w = 0 && fn4 x.w = 0

/-- SSTAT.OUT (R144). -/
def sstatOutInsn (x : Ctx) (s : State) : Out :=
  let c := fA x.w
  if !statOk x then x.raise s Exc.illegal
  else
    let v := 2 ^ 63 * bit01 (s.ochClosed x.c c) + 2 ^ 62 * bit01 (s.ochValid x.c c) + s.ochCredit x.c c
    vdone (x.k.setX (fD x.w) (BitVec.ofNat 64 v)) s

/-- SSTAT.IN (R144). -/
def sstatInInsn (x : Ctx) (s : State) : Out :=
  let c := fA x.w
  if !statOk x then x.raise s Exc.illegal
  else
    let v := 2 ^ 63 * bit01 (s.ichEnd x.c c) + 2 ^ 62 * bit01 (s.ichValid x.c c) + (s.buffered x.c c).length
    vdone (x.k.setX (fD x.w) (BitVec.ofNat 64 v)) s

/-- DECODE_STATE of context `d` (R130). -/
def decodeState (d : Nat) : Exc := analyticExc 0x28 d

/-- The elements by which two bound contexts may differ (R148). -/
def siblingReach (d0 : Decoder) : Nat := 65536 / d0.fields.eb

/-- VDOPEN (R145, R148, R197). -/
def vdopenInsn (x : Ctx) (s : State) : Out :=
  let d := fD x.w
  let v := x.xb.toNat
  let (e, len) := (bits v 56 32, bits v 31 0)
  match x.p.third with
  | none => x.raise s Exc.illegal
  | some xc =>
    let cw := x.k.xreg xc
    let c := Codec.ofWord cw.toNat
    let d0 := x.k.dec0
    if 1 < d || fn4 x.w ≠ 0 then x.raise s Exc.illegal
    else if x.xa.toNat % 64 ≠ 0 || v / 2 ^ 57 ≠ 0 || e = 0 || 16777216 < e || len = 0 || cw.toNat / 2 ^ 17 ≠ 0
        || !c.ok then x.raise s Exc.operand
    else if c.sibEn && (d = 0 || !d0.opened || d0.error.isSome || d0.count ≠ e || siblingReach d0 < d0.delivered
        || d0.fields.width ≠ c.sibWidth) then x.raise s (decodeState d)
    else
      vdone
        (x.k.setDec d
          { Decoder.closed with opened := true, base := x.xa, count := e, length := len, codec := cw }) s

/-- The delivered counts of two bound contexts after context `d` delivers `n` more lie within the sibling store (R148). -/
def siblingInStep (k : Core) (d n : Nat) : Bool :=
  if !k.dec1.opened || k.dec1.error.isSome || !k.dec1.fields.sibEn then true
  else
    let a := k.dec0.delivered + (if d = 0 then n else 0)
    let b := k.dec1.delivered + (if d = 1 then n else 0)
    decide (a - b + (b - a) ≤ siblingReach k.dec0)

/-- VDECODE (R146 to R148). -/
def vdecodeInsn (x : Ctx) (s : State) : Out :=
  let k := x.k
  let d := fA x.w
  let dc := k.dec d
  if !plainOk x [fD x.w] || fB x.w ≠ 0 || 1 < d then x.raise s Exc.illegal
  else if !dc.opened || dc.error.isSome || dc.fields.eb ≠ k.eb then x.raise s (decodeState d)
  else
    let n := min k.vl (dc.count - dc.delivered)
    if !siblingInStep k d n then x.raise s (decodeState d)
    else
      let (ok, s) := s.decodeAhead x d (dc.delivered + n)
      if !ok then .wait s
      else
        let kc := s.core x.c
        let dd := kc.dec d
        if dd.values.length < dc.delivered + n then
          let (st, addr) := dd.fail.getD (St.lengthMismatch, dd.base.toNat)
          .trap ⟨0x27, st, d, BitVec.ofNat 64 addr⟩ (kc.setDec d { dd with error := some st }) s
        else
          let out := (dd.values.drop dc.delivered).take n
          let kc :=
            (out.zip (List.range n)).foldl
              (fun c e => if k.governs k.eb (fn4 x.w) e.2 then c.putElem k.eb (fD x.w) e.2 e.1 else c) kc
          vdone (kc.setDec d { dd with delivered := dc.delivered + n }) s

/-- VDSTAT (R146). -/
def vdstatInsn (x : Ctx) (s : State) : Out :=
  let d := fA x.w
  let dc := x.k.dec d
  if !statOk x || 1 < d then x.raise s Exc.illegal
  else
    let v : Nat :=
      if !dc.opened then 0
      else
        let st : Nat := if dc.error.isSome then 3 else if dc.delivered = dc.count then 2 else 1
        2 ^ 62 * st + 2 ^ 32 * dc.error.getD 0 + (dc.count - dc.delivered)
    vdone (x.k.setX (fD x.w) (BitVec.ofNat 64 v)) s

/-- VDCLOSE (R146). -/
def vdcloseInsn (x : Ctx) (s : State) : Out :=
  let d := fA x.w
  if !statOk x || fD x.w ≠ 0 || 1 < d then x.raise s Exc.illegal
  else vdone (x.k.setDec d { x.k.dec d with opened := false, error := none }) s

/-- The operation of an AMO or VAMO by element type (R149, R151). -/
def vamoOp (op : Nat) (signed : Bool) : Option Nat :=
  match op with
  | 0 | 1 | 6 => some op
  | 2 | 3 => some (if signed then op else op + 2)
  | _ => none

/-- VAMO (R151). -/
def vamoInsn (x : Ctx) (s : State) : Out :=
  let k := x.k
  let vc := x.p.third
  let cas := fn6 x.w = 6
  match vamoOp (fn6 x.w) (etSigned k.et) with
  | none => x.raise s Exc.illegal
  | some op =>
    if (if cas then vc.isNone else decide (x.p ≠ Prefix.none)) || (k.eb ≠ 4 && k.eb ≠ 8)
        || !k.groupsOk ([fD x.w, fB x.w] ++ vc.toList) || !k.predsOk [fn4 x.w] then x.raise s Exc.illegal
    else
      x.vend
        (k.strip.foldl
          (fun (acc : VProg × State) i =>
            match acc.1 with
            | .go =>
              if k.governs k.eb (fn4 x.w) i then
                let ea := x.xa + BitVec.ofNat 64 (x.index i * k.eb)
                let new := match vc with | some r => k.elem k.eb r i | none => 0
                if misaligned ea k.eb then (.fault i (Exc.misaligned ea), acc.2)
                else
                  match acc.2.atomic x op ea k.eb (BitVec.ofNat 64 (k.elem k.eb (fD x.w) i)) (BitVec.ofNat 64 new) with
                  | (.data d, s) => (.go, s.setCore x.c ((s.core x.c).putElem k.eb (fD x.w) i (leNat d)))
                  | (.exc e, s) => (.fault i e, s)
                  | (.wait, s) => (.wait i, s)
              else acc
            | _ => acc) (.go, s))

/-- AMO (R149); it clears VBEGIN, as every analytic instruction that completes does (R129). -/
def amoInsn (x : Ctx) (s : State) : Out :=
  let f := fn6 x.w
  let op := f / 4
  let k := 2 ^ (f % 4)
  let xc := x.p.third
  if f % 4 < 2 || 6 < op || fn4 x.w ≠ 0 || (if op = 6 then xc.isNone else decide (x.p ≠ Prefix.none)) then
    x.raise s Exc.illegal
  else if misaligned x.xa k then x.raise s (Exc.misaligned x.xa)
  else
    match s.atomic x op x.xa k x.xb (match xc with | some r => x.k.xreg r | none => 0) with
    | (.data d, s) => vdone ((s.core x.c).setX (fD x.w) (dw (sext (8 * k) (leNat d)))) s
    | (.exc e, s) => x.raise s e
    | (.wait, s) => .wait s

end Sys2Proof.Machine
end

