-- ==== Sys2Proof/Machine/Digest.lean ====
section
/-! DEFINITION. The digests of Proof (R210): the compression functions of FIPS 180-4 and the Keccak-f[1600] permutation of
FIPS 202, over a state kept as a list of words. -/

namespace Sys2Proof.Machine

/-- The SHA-256 round constants, part 0. -/
def k256_0 : List Nat :=
  [0x428A2F98, 0x71374491, 0xB5C0FBCF, 0xE9B5DBA5, 0x3956C25B, 0x59F111F1, 0x923F82A4, 0xAB1C5ED5,
   0xD807AA98, 0x12835B01, 0x243185BE, 0x550C7DC3, 0x72BE5D74, 0x80DEB1FE, 0x9BDC06A7, 0xC19BF174]

/-- The SHA-256 round constants, part 1. -/
def k256_1 : List Nat :=
  [0xE49B69C1, 0xEFBE4786, 0xFC19DC6, 0x240CA1CC, 0x2DE92C6F, 0x4A7484AA, 0x5CB0A9DC, 0x76F988DA,
   0x983E5152, 0xA831C66D, 0xB00327C8, 0xBF597FC7, 0xC6E00BF3, 0xD5A79147, 0x6CA6351, 0x14292967]

/-- The SHA-256 round constants, part 2. -/
def k256_2 : List Nat :=
  [0x27B70A85, 0x2E1B2138, 0x4D2C6DFC, 0x53380D13, 0x650A7354, 0x766A0ABB, 0x81C2C92E, 0x92722C85,
   0xA2BFE8A1, 0xA81A664B, 0xC24B8B70, 0xC76C51A3, 0xD192E819, 0xD6990624, 0xF40E3585, 0x106AA070]

/-- The SHA-256 round constants, part 3. -/
def k256_3 : List Nat :=
  [0x19A4C116, 0x1E376C08, 0x2748774C, 0x34B0BCB5, 0x391C0CB3, 0x4ED8AA4A, 0x5B9CCA4F, 0x682E6FF3,
   0x748F82EE, 0x78A5636F, 0x84C87814, 0x8CC70208, 0x90BEFFFA, 0xA4506CEB, 0xBEF9A3F7, 0xC67178F2]

/-- The SHA-256 round constants. -/
def k256 : List Nat := k256_0 ++ k256_1 ++ k256_2 ++ k256_3

/-- The SHA-512 round constants, part 0. -/
def k512_0 : List Nat :=
  [0x428A2F98D728AE22, 0x7137449123EF65CD, 0xB5C0FBCFEC4D3B2F, 0xE9B5DBA58189DBBC,
   0x3956C25BF348B538, 0x59F111F1B605D019, 0x923F82A4AF194F9B, 0xAB1C5ED5DA6D8118,
   0xD807AA98A3030242, 0x12835B0145706FBE, 0x243185BE4EE4B28C, 0x550C7DC3D5FFB4E2,
   0x72BE5D74F27B896F, 0x80DEB1FE3B1696B1, 0x9BDC06A725C71235, 0xC19BF174CF692694]

/-- The SHA-512 round constants, part 1. -/
def k512_1 : List Nat :=
  [0xE49B69C19EF14AD2, 0xEFBE4786384F25E3, 0xFC19DC68B8CD5B5, 0x240CA1CC77AC9C65,
   0x2DE92C6F592B0275, 0x4A7484AA6EA6E483, 0x5CB0A9DCBD41FBD4, 0x76F988DA831153B5,
   0x983E5152EE66DFAB, 0xA831C66D2DB43210, 0xB00327C898FB213F, 0xBF597FC7BEEF0EE4,
   0xC6E00BF33DA88FC2, 0xD5A79147930AA725, 0x6CA6351E003826F, 0x142929670A0E6E70]

/-- The SHA-512 round constants, part 2. -/
def k512_2 : List Nat :=
  [0x27B70A8546D22FFC, 0x2E1B21385C26C926, 0x4D2C6DFC5AC42AED, 0x53380D139D95B3DF,
   0x650A73548BAF63DE, 0x766A0ABB3C77B2A8, 0x81C2C92E47EDAEE6, 0x92722C851482353B,
   0xA2BFE8A14CF10364, 0xA81A664BBC423001, 0xC24B8B70D0F89791, 0xC76C51A30654BE30,
   0xD192E819D6EF5218, 0xD69906245565A910, 0xF40E35855771202A, 0x106AA07032BBD1B8]

/-- The SHA-512 round constants, part 3. -/
def k512_3 : List Nat :=
  [0x19A4C116B8D2D0C8, 0x1E376C085141AB53, 0x2748774CDF8EEB99, 0x34B0BCB5E19B48A8,
   0x391C0CB3C5C95A63, 0x4ED8AA4AE3418ACB, 0x5B9CCA4F7763E373, 0x682E6FF3D6B2B8A3,
   0x748F82EE5DEFB2FC, 0x78A5636F43172F60, 0x84C87814A1F0AB72, 0x8CC702081A6439EC,
   0x90BEFFFA23631E28, 0xA4506CEBDE82BDE9, 0xBEF9A3F7B2C67915, 0xC67178F2E372532B]

/-- The SHA-512 round constants, part 4. -/
def k512_4 : List Nat :=
  [0xCA273ECEEA26619C, 0xD186B8C721C0C207, 0xEADA7DD6CDE0EB1E, 0xF57D4F7FEE6ED178,
   0x6F067AA72176FBA, 0xA637DC5A2C898A6, 0x113F9804BEF90DAE, 0x1B710B35131C471B,
   0x28DB77F523047D84, 0x32CAAB7B40C72493, 0x3C9EBE0A15C9BEBC, 0x431D67C49C100D4C,
   0x4CC5D4BECB3E42B6, 0x597F299CFC657E2A, 0x5FCB6FAB3AD6FAEC, 0x6C44198C4A475817]

/-- The SHA-512 round constants. -/
def k512 : List Nat := k512_0 ++ k512_1 ++ k512_2 ++ k512_3 ++ k512_4

/-- H(0) of SHA-256. -/
def iv256 : List Nat :=
  [0x6A09E667, 0xBB67AE85, 0x3C6EF372, 0xA54FF53A, 0x510E527F, 0x9B05688C, 0x1F83D9AB, 0x5BE0CD19]

/-- H(0) of SHA-384. -/
def iv384 : List Nat :=
  [0xCBBB9D5DC1059ED8, 0x629A292A367CD507, 0x9159015A3070DD17, 0x152FECD8F70E5939,
   0x67332667FFC00B31, 0x8EB44A8768581511, 0xDB0C2E0D64F98FA7, 0x47B5481DBEFA4FA4]

/-- H(0) of SHA-512. -/
def iv512 : List Nat :=
  [0x6A09E667F3BCC908, 0xBB67AE8584CAA73B, 0x3C6EF372FE94F82B, 0xA54FF53A5F1D36F1,
   0x510E527FADE682D1, 0x9B05688C2B3E6C1F, 0x1F83D9ABFB41BD6B, 0x5BE0CD19137E2179]

/-- The Keccak round constants. -/
def keccakRC : List Nat :=
  [0x1, 0x8082, 0x800000000000808A, 0x8000000080008000,
   0x808B, 0x80000001, 0x8000000080008081, 0x8000000000008009,
   0x8A, 0x88, 0x80008009, 0x8000000A,
   0x8000808B, 0x800000000000008B, 0x8000000000008089, 0x8000000000008003,
   0x8000000000008002, 0x8000000000000080, 0x800A, 0x800000008000000A,
   0x8000000080008081, 0x8000000000008080, 0x80000001, 0x8000000080008008]

/-- The Keccak rotation of lane x + 5y. -/
def keccakRot : List Nat :=
  [0, 1, 62, 28, 27, 36, 44, 6, 55, 20, 3, 10, 43, 25, 39, 41, 45, 15, 21, 8, 18, 2, 61, 56, 14]

/-- The sizes and rotations of one SHA-2 function: word bits, the rotations of its four mixing functions. -/
structure Sha2 where
  w : Nat
  k : List Nat
  big0 : List Nat
  big1 : List Nat
  small0 : List Nat
  small1 : List Nat

def sha256 : Sha2 := ⟨32, k256, [2, 13, 22], [6, 11, 25], [7, 18, 3], [17, 19, 10]⟩
def sha512 : Sha2 := ⟨64, k512, [28, 34, 39], [14, 18, 41], [1, 8, 7], [19, 61, 6]⟩

/-- Rotation right of a `w`-bit word. -/
def shaRotr (w n x : Nat) : Nat := (x >>> n) ||| ((x <<< (w - n)) % 2 ^ w)

/-- The XOR of three rotations. -/
def Sha2.big (h : Sha2) (r : List Nat) (x : Nat) : Nat :=
  shaRotr h.w (r.getD 0 0) x ^^^ shaRotr h.w (r.getD 1 0) x ^^^ shaRotr h.w (r.getD 2 0) x

/-- The XOR of two rotations and a shift. -/
def Sha2.small (h : Sha2) (r : List Nat) (x : Nat) : Nat :=
  shaRotr h.w (r.getD 0 0) x ^^^ shaRotr h.w (r.getD 1 0) x ^^^ (x >>> r.getD 2 0)

/-- `n` further schedule words, latest first. -/
def Sha2.extend (h : Sha2) : Nat → List Nat → List Nat
  | 0, ws => ws
  | n + 1, ws =>
    h.extend n
      ((h.small h.small1 (ws.getD 1 0) + ws.getD 6 0 + h.small h.small0 (ws.getD 14 0) + ws.getD 15 0) % 2 ^ h.w :: ws)

/-- One round on the working words a to h. -/
def Sha2.round (h : Sha2) (v : List Nat) (kw : Nat × Nat) : List Nat :=
  match v with
  | [a, b, c, d, e, f, g, hh] =>
    let m := 2 ^ h.w
    let t1 := hh + h.big h.big1 e + ((e &&& f) ^^^ ((m - 1 - e) &&& g)) + kw.1 + kw.2
    let t2 := h.big h.big0 a + ((a &&& b) ^^^ (a &&& c) ^^^ (b &&& c))
    [(t1 + t2) % m, a, b, c, (d + t1) % m, e, f, g]
  | _ => v

/-- A number from bytes, most significant first. -/
def beNat (bs : List Byte) : Nat := leNat bs.reverse

/-- `n` words of `k` bytes each, most significant byte first. -/
def beWords (k : Nat) : Nat → List Byte → List Nat
  | 0, _ => []
  | n + 1, bs => beNat (bs.take k) :: beWords k n (bs.drop k)

/-- The compression of one block. -/
def Sha2.absorb (h : Sha2) (state : List Nat) (block : List Byte) : List Nat :=
  let ws := (h.extend (h.k.length - 16) (beWords (h.w / 8) 16 block).reverse).reverse
  let v := (h.k.zip ws).foldl h.round state
  (state.zip v).map (fun p => (p.1 + p.2) % 2 ^ h.w)

/-- Rotation left of a lane. -/
def rotl64 (n x : Nat) : Nat := ((x <<< n) % 2 ^ 64) ||| (x >>> (64 - n))

/-- Lane x + 5y, with coordinates modulo 5. -/
def lane (a : List Nat) (x y : Nat) : Nat := a.getD (x % 5 + 5 * (y % 5)) 0

/-- One round of Keccak-f[1600] (theta, rho and pi, chi, iota). -/
def keccakRound (a : List Nat) (rc : Nat) : List Nat :=
  let c := (List.range 5).map (fun x => lane a x 0 ^^^ lane a x 1 ^^^ lane a x 2 ^^^ lane a x 3 ^^^ lane a x 4)
  let d := (List.range 5).map (fun x => c.getD ((x + 4) % 5) 0 ^^^ rotl64 1 (c.getD ((x + 1) % 5) 0))
  let t := (List.range 25).map (fun i => a.getD i 0 ^^^ d.getD (i % 5) 0)
  -- lane (x, y) of the next array comes from lane (x + 3y, x)
  let b :=
    (List.range 25).map (fun i =>
      let j := (i % 5 + 3 * (i / 5)) % 5 + 5 * (i % 5)
      rotl64 (keccakRot.getD j 0) (t.getD j 0))
  let e :=
    (List.range 25).map (fun i =>
      lane b (i % 5) (i / 5) ^^^ ((2 ^ 64 - 1 - lane b (i % 5 + 1) (i / 5)) &&& lane b (i % 5 + 2) (i / 5)))
  (e.getD 0 0 ^^^ rc) :: e.drop 1

/-- SHA3-256 absorbs one block of 136 bytes. -/
def keccakAbsorb (state : List Nat) (block : List Byte) : List Nat :=
  keccakRC.foldl keccakRound
    ((List.range 25).map (fun i => state.getD i 0 ^^^ (if i < 17 then fieldLE block (8 * i) 8 else 0)))

/-- Block bytes of an ALG (R210). -/
def algBlock (a : Nat) : Nat :=
  match a with
  | 0 => 64
  | 1 | 2 => 128
  | _ => 136

/-- Digest bytes of an ALG (R210). -/
def algDigest (a : Nat) : Nat :=
  match a with
  | 0 => 32
  | 1 => 48
  | 2 => 64
  | _ => 32

/-- The initial value of an ALG (R210). -/
def algStart (a : Nat) : List Nat :=
  match a with
  | 0 => iv256
  | 1 => iv384
  | 2 => iv512
  | _ => List.replicate 25 0

/-- One block absorbed under an ALG. -/
def algAbsorb (a : Nat) (state : List Nat) (block : List Byte) : List Nat :=
  match a with
  | 0 => sha256.absorb state block
  | 1 | 2 => sha512.absorb state block
  | _ => keccakAbsorb state block

/-- `n` whole blocks absorbed in byte order (R211). -/
def algAbsorbAll (a : Nat) : Nat → List Nat → List Byte → List Nat
  | 0, st, _ => st
  | n + 1, st, bs => algAbsorbAll a n (algAbsorb a st (bs.take (algBlock a))) (bs.drop (algBlock a))

/-- The digest bytes of a state, as its standard orders them (R211, R212). -/
def algResult (a : Nat) (state : List Nat) : List Byte :=
  let bytes :=
    match a with
    | 0 => state.flatMap (fun w => (natLE 4 w).reverse)
    | 1 | 2 => state.flatMap (fun w => (natLE 8 w).reverse)
    | _ => state.flatMap (natLE 8)
  bytes.take (algDigest a)

/-- The bytes of a context image's STATE that hold state words (R219). -/
def algStateBytes (a : Nat) : Nat :=
  match a with
  | 0 => 32
  | 1 | 2 => 64
  | _ => 200

/-- The 200 state bytes of a context image (R219). -/
def algImage (a : Nat) (state : List Nat) : List Byte :=
  let bytes := state.flatMap (natLE (if a = 0 then 4 else 8))
  bytes ++ List.replicate (200 - bytes.length) 0

/-- The state of an image's 200 bytes (R219). -/
def algOfImage (a : Nat) (bs : List Byte) : List Nat :=
  let (n, k) : Nat × Nat := match a with | 0 => (8, 4) | 1 | 2 => (8, 8) | _ => (25, 8)
  (List.range n).map (fun i => fieldLE bs (k * i) k)

/-- The padding SHA-2 appends to a message of `n` bytes: 0x80, zeros, and the bit length (R211). -/
def shaPad (a n : Nat) : List Byte :=
  let blk := algBlock a
  let lenBytes := blk / 8
  let zeros := (2 * blk - (n + 1 + lenBytes) % blk) % blk
  (0x80 : Byte) :: (List.replicate zeros 0 ++ (natLE lenBytes (8 * n)).reverse)

/-- The whole digest of a message under a SHA-2 ALG. -/
def shaDigest (a : Nat) (msg : List Byte) : List Byte :=
  let m := msg ++ shaPad a msg.length
  algResult a (algAbsorbAll a (m.length / algBlock a) (algStart a) m)

end Sys2Proof.Machine
end

