-- ==== Sys2Proof/Machine/RingBase.lean ====
section
/-! DEFINITION. What every work ring shares (R277 to R286): its registers, context and indexes, its error state, and the
posting of completions. -/

namespace Sys2Proof.Machine

/-- The master ID of a ring's engine (R277, R385). -/
def ringMaster : RingUnit → Nat
  | .dma => Mid.dma
  | .stp => Mid.stipple
  | .prf => Mid.proof
  | .plt => Mid.plate
  | .hat => 0x200

/-- The TARGET of a ring's unit (R43). -/
def ringTarget : RingUnit → Nat
  | .dma => Tgt.dma
  | .stp => Tgt.stipple
  | .prf => Tgt.proof
  | .plt => Tgt.plate
  | .hat => Tgt.hatch

/-- The offset of a ring's CTX register; DOORBELL, CHEAD, CTL and STATUS follow at 8, 0xC, 0x10 and 0x14. -/
def ringReg (r : Ring) : Nat :=
  match r.unit with
  | .dma => Reg.DMA_CH_CTX_LO r.n
  | .stp => Reg.STP_RING_CTX_LO r.n
  | .prf => Reg.PRF_RING_CTX_LO r.n
  | .plt => Reg.PLT_RING_CTX_LO r.n
  | .hat => Reg.HAT_JR_CTX_LO r.n

def ringCtl (r : Ring) : Nat := ringReg r + 0x10
def ringStatus (r : Ring) : Nat := ringReg r + 0x14
def ringChead (r : Ring) : Nat := ringReg r + 0xC

/-- How many rings a unit has (R277, R386, R429). -/
def ringCount : RingUnit → Nat
  | .dma => 64
  | .stp => 16
  | .prf => 32
  | .plt => 4
  | .hat => 32

/-- A ring's interrupt status register and bit. -/
def ringInt : RingUnit → Nat × Nat
  | .dma => (Reg.DMA_INT_STATUS, 0)
  | .stp => (Reg.STP_INT_STATUS, 2)
  | .prf => (Reg.PRF_INT_STATUS, 0)
  | .plt => (Reg.PLT_INT_STATUS, 5)
  | .hat => (Reg.HAT_INT_STATUS, 3)

/-- A ring's key in the state. -/
def ringKey (r : Ring) : Nat :=
  r.n + 64 * (match r.unit with | .dma => 0 | .stp => 1 | .prf => 2 | .plt => 3 | .hat => 4)

/-- The ring of a key. -/
def ringOfKey (k : Nat) : Ring :=
  ⟨match k / 64 with | 0 => .dma | 1 => .stp | 2 => .prf | 3 => .plt | _ => .hat, k % 64⟩

/-- The engine's side of a ring. -/
def State.ring (s : State) (r : Ring) : RingState := FMap.get (fun _ => RingState.reset) s.rings (ringKey r)

/-- The engine's side of a ring becomes `v`. -/
def State.setRing (s : State) (r : Ring) (v : RingState) : State :=
  { s with rings := FMap.set (fun _ => RingState.reset) s.rings (ringKey r) v }

/-- A ring is enabled, and in its error state. -/
def State.ringOn (s : State) (r : Ring) : Bool := s.bit (ringCtl r) 0
def State.ringError (s : State) (r : Ring) : Bool := s.bit (ringStatus r) 31

/-- The fields of a context (R278). -/
def ctxSub (c : List Byte) : Nat := fieldLE c 0 8
def ctxCmp (c : List Byte) : Nat := fieldLE c 0x10 8
def ctxDepth (c : List Byte) : Nat := fieldLE c 0x20 2 + 1
def ctxCmpDepth (c : List Byte) : Nat := fieldLE c 0x22 2 + 1
def ctxAttr (c : List Byte) : Nat := fieldLE c 0x28 4

/-- The CP64 or CP32 slot at an offset of a structure is intact (R39). -/
def pair64At (bs : List Byte) (o : Nat) : Bool := cp64Ok (fieldLE bs o 16)
def pair32At (bs : List Byte) (o : Nat) : Bool := cp32Ok (fieldLE bs o 8)

/-- A range of local HBM. -/
def State.inHbm (s : State) (a k : Nat) : Bool :=
  match s.region a k with
  | .hbm _ => true
  | _ => false

/-- The check of a context at a scan (R278, R284 cause 5): OK, COMPLEMENT_MISMATCH or INVALID_FIELD. -/
def State.ctxCheck (s : State) (c : List Byte) (atEn : Option (List Byte)) : Nat :=
  if !(pair64At c 0 && pair64At c 0x10 && pair32At c 0x20 && pair32At c 0x28) then St.complementMismatch
  else if ctxSub c % 64 ≠ 0 || ctxCmp c % 64 ≠ 0 || ctxDepth c < 2 || ctxCmpDepth c < 2 || bits (ctxAttr c) 30 10 ≠ 0
      || fieldLE c 0x30 16 ≠ 0 || !s.inHbm (ctxSub c) (64 * ctxDepth c) || !s.inHbm (ctxCmp c) (16 * ctxCmpDepth c)
      || (match atEn with | some o => o.take 0x28 ≠ c.take 0x28 | none => true) then St.invalidField
  else St.ok

/-- The ring's bit of each PRF_ENGe_WAIT is cleared: its head waits for no slot (R221). -/
def State.prfGoOn (s : State) (n : Nat) : State :=
  (List.range 8).foldl (fun s e => s.setFld (Reg.PRF_ENG_WAIT e) n n 0) s

/-- A ring enters its error state (R284). -/
def State.ringFail (s : State) (r : Ring) (cause index status addr : Nat) : State :=
  let s := s.wr (ringStatus r) (BitVec.ofNat 32 (2 ^ 31 + index))
  let s := s.setRing r { s.ring r with pending := false, cause5 := cause = 5 }
  let s := if r.unit = .prf then s.prfGoOn r.n else s
  let s := s.raise (ringInt r.unit).1 (ringInt r.unit).2
  s.report
    { status := status, target := ringTarget r.unit, severity := 3, master := ringMaster r.unit, address := addr,
      tag := 0xFFFF, detail := 2 ^ 29 * cause + 2 ^ 16 * r.n + index }

/-- Completion entries posted and not yet released (R282). -/
def State.unreleased (s : State) (r : Ring) : Nat :=
  match (s.ring r).ctx with
  | some c => ((s.ring r).ctail + ctxCmpDepth c - (s.rd (ringChead r)).toNat) % ctxCmpDepth c
  | none => 0

/-- Jobs of a ring fetched and not yet posted. -/
def State.fetched (s : State) (r : Ring) : Nat := (s.jobs.filter (fun j => j.ring = ringKey r)).length

/-- The 16 bytes of a completion entry (R280). -/
def completionEntry (result phase head status tag : Nat) : List Byte :=
  natLE 8 result ++ natLE 4 (2 ^ 31 * phase + head) ++ natLE 4 (2 ^ 16 * status + tag)

/-- A trigger reaches each DMA channel bound to channel `c`'s completions or to timer `c` (R293). -/
def State.dmaTrigger (s : State) (trig src : Nat) : State :=
  (List.range 64).foldl
    (fun s c =>
      if s.fld (Reg.DMA_CH_CFG c) 5 4 = trig && s.fld (Reg.DMA_CH_CFG c) 13 8 = src then
        if s.fld (Reg.DMA_CH_TRIGS c) 7 0 = 255 then s.setFld (Reg.DMA_CH_TRIGS c) 31 31 1
        else s.setFld (Reg.DMA_CH_TRIGS c) 7 0 (s.fld (Reg.DMA_CH_TRIGS c) 7 0 + 1)
      else s) s

/-- A completion is posted at the ring's tail, and its event signalled (R283, R293); under an error of cause 5 it is
discarded (R284). -/
def State.ringPost (s : State) (r : Ring) (status result tag : Nat) : State :=
  let g := s.ring r
  match g.ctx with
  | none => s
  | some c =>
    if g.cause5 then s
    else
      let e := completionEntry result (bit01 g.cphase) g.head status tag
      let (_, s) := s.writeNow (ringMaster r.unit) (ctxCmp c + 16 * g.ctail) e
      let t := g.ctail + 1
      let wrap := t = ctxCmpDepth c
      let s := s.setRing r { g with ctail := if wrap then 0 else t, cphase := if wrap then !g.cphase else g.cphase }
      let s := if g.attr.testBit 31 then s.signal (g.attr % 1024) else s
      if r.unit = .dma then s.dmaTrigger 2 r.n else s

/-- The first job for which `p` holds and that has not ended. -/
def State.findJob (s : State) (p : Job → Bool) : Option Job := s.jobs.find? (fun j => j.done.isNone && p j)

/-- A job ends with a status and result, and awaits its posting. -/
def State.endJob (s : State) (j : Job) (status result : Nat) : State :=
  { s with jobs := s.jobs.map (fun k => if k = j then { j with done := some (status, result) } else k) }

/-- A job has replaced its record. -/
def State.setJob (s : State) (j j' : Job) : State := { s with jobs := s.jobs.map (fun k => if k = j then j' else k) }

/-- The pieces of a byte range that end at multiples of `g`: offset and length, at most `fuel` of them. -/
def piecesOf (g : Nat) : Nat → Nat → Nat → List (Nat × Nat)
  | 0, _, _ => []
  | fuel + 1, a, n =>
    if n = 0 then []
    else
      let k := min n (g - a % g)
      (a, k) :: piecesOf g fuel (a + k) (n - k)

/-- A local range that master `m` could write, and that no table would deny. -/
def State.mayPut (s : State) (r : Request) : Bool :=
  match s.region r.dpa r.len with
  | .hbm d => s.verdict (Region.hbm d).table r.master r.dpa r.len ((Region.hbm d).rights r) = St.ok
  | .bench n o => s.verdict (Region.bench n o).table r.master r.dpa r.len ((Region.bench n o).rights r) = St.ok
  | _ => false

/-- Free values in the destination range of a job that failed or ended early: its contents are undefined (R205, R218, R285,
R386). No request is made and none is judged again; a granule that the job's master may not write keeps its bytes, since a denied
write has no effect (R35). -/
def State.scramble (s : State) (m dpa len : Nat) : State :=
  let req (a n : Nat) : Request :=
    { master := m, dpa := a, len := n, kind := .write, stream := false
      data := (List.range n).map (fun i => Config.free 8 (s.fresh + (a - dpa) + i)) }
  let put (t : State) (r : Request) : State := if t.mayPut r then (t.serve memoryBus (t.region r.dpa r.len) r false).2 else t
  let s' := { s with fresh := s.fresh + len }
  if s'.mayPut (req dpa len) then put s' (req dpa len)
  else (piecesOf 64 (len / 64 + 2) dpa len).foldl (fun t q => put t (req q.1 q.2)) s'

/-- What a read of local HBM by master `m` would find, leaving no trace of itself. -/
def State.peek (s : State) (m dpa k : Nat) : Option (List Byte) :=
  let r : Request := { master := m, dpa := dpa, len := k, kind := .read, data := [], stream := false }
  let g := s.region dpa k
  match g with
  | .hbm _ =>
    let a := (s.serve memoryBus g r false).1
    if s.verdict g.table m dpa k (g.rights r) = St.ok && dataStatus a = St.ok then some a.data else none
  | _ => none

end Sys2Proof.Machine
end

