-- ==== Sys2Proof/Machine/Stipple.lean ====
section
/-! DEFINITION. The Stipple engines (R204 to R209): taking a job, COMPRESS with its verification, DECOMPRESS, and engine
retirement. -/

namespace Sys2Proof.Machine

/-- The fields of a Stipple job entry (R204). -/
def stpOp (e : List Byte) : Nat := fieldLE e 4 4 % 16
def stpParam (e : List Byte) : Nat := fieldLE e 4 4
def stpSrc (e : List Byte) : Nat := fieldLE e 8 8
def stpDst (e : List Byte) : Nat := fieldLE e 0x18 8
def stpSib (e : List Byte) : Nat := fieldLE e 0x28 8
def stpSrcLen (e : List Byte) : Nat := bits (fieldLE e 0x38 4) 16 0
def stpCap (e : List Byte) : Nat := 64 * bits (fieldLE e 0x38 4) 31 17

/-- The codec fields of PARAM (R204). -/
def stpCodec (e : List Byte) : Codec :=
  let p := stpParam e
  ⟨bits p 6 4, p.testBit 7, p.testBit 8, bits p 11 9, bits p 20 12⟩

/-- The cause with which an entry is malformed (R204, R284). -/
def stpMalformed (e : List Byte) : Option Nat :=
  if stpOp e ≠ 1 && stpOp e ≠ 2 then some 1
  else if pair64At e 8 && pair64At e 0x18 && pair64At e 0x28 && pair32At e 0x38 then none
  else some 2

/-- Whether SIBLING values are to be read, and how many bytes of them (R205). -/
def stpSibBytes (e : List Byte) (elems : Nat) : Nat :=
  if (stpCodec e).sibEn then elems * widthBytes (stpCodec e).sibWidth else 0

/-- Step 1 of R205. -/
def stpStep1 (rev21 : Bool) (e : List Byte) : Bool :=
  let c := stpCodec e
  let n := stpSrcLen e
  bits (stpParam e) 31 21 = 0 && c.ok && (rev21 || !c.sibEn) && (c.sibEn || stpSib e = 0) && stpDst e % 64 = 0
    && decide (64 ≤ stpCap e) && decide (stpCap e ≤ 65536)
    && (if stpOp e = 1 then decide (1 ≤ n) && decide (n ≤ 65536) && n % c.eb = 0
        else decide (16 ≤ n) && decide (n ≤ 65552))
    && decide (stpSibBytes e (n / c.eb) ≤ 65536)

/-- What a bound sibling's bytes hold at element `i`. -/
def sibValue (c : Codec) (bs : List Byte) (i : Nat) : Except CodecErr Nat :=
  .ok (fieldLE bs (i * widthBytes c.sibWidth) (widthBytes c.sibWidth))

/-- The block data of a frame with header `h`. -/
def frameBlocks (c : Codec) (rev21 : Bool) (h : FrameHead) (data sib : List Byte) : Blocks :=
  { codec := c, sib := h.sib, rev21 := rev21, data := leNat data, limit := 8 * data.length,
    out := fun p => (St.lengthMismatch, p / 8), n := h.raw / c.eb, sibling := sibValue c sib, base := 16 }

/-- A whole frame decoded (R203, steps 6 to 9 of R205): the values, or the step's status; `cap` bounds the raw length. -/
def decodeWhole (c : Codec) (rev21 : Bool) (frame sib : List Byte) (cap : Nat) : Except Nat (List Nat) :=
  match frameHead c rev21 65536 0 (frame.take 16) with
  | .error _ => .error St.codecIllegalCode
  | .ok h =>
    if 16 + h.coded ≠ frame.length then .error St.lengthMismatch
    else if cap < h.raw then .error St.bufferOverflow
    else
      let data := frame.drop 16
      if h.stored then .ok (storedElems c.eb data (h.raw / c.eb))
      else
        match (frameBlocks c rev21 h data sib).decode with
        | (_, some e) => .error e.1
        | (vs, none) => .ok vs

/-- An engine is retired (R207, R209). -/
def State.stpRetireEngine (s : State) (e : Nat) : State :=
  (s.setFld Reg.STP_ENG_RETIRED e e 1).raise Reg.STP_INT_STATUS 1

/-- An engine is in service. -/
def State.stpServes (s : State) (e : Nat) : Bool := !s.bit Reg.STP_ENG_RETIRED e

/-- How an engine takes a job: it waits for a free engine, an engine holds it, or it ends at once where none is in service
(R205, R208). -/
inductive Take where
  | wait
  | engine (e : Nat)
  | finish (status result : Nat)
  deriving DecidableEq, Repr

/-- A Stipple entry is taken by the lowest free engine (R208). -/
def State.stpTake (s : State) (rev21 : Bool) (e : List Byte) : Take :=
  if (List.range 16).all (fun i => !s.stpServes i) then
    .finish (if stpStep1 rev21 e then St.channelRetired else St.invalidField) 0
  else
    match (List.range 16).find? (fun i => s.stpServes i && !s.bit Reg.STP_STATUS i) with
    | some i => .engine i
    | none => .wait

/-- The engine lets its job go: BUSY 0, the job counted, a retirement asked for takes effect (R209). -/
def State.stpEnd (s : State) (j : Job) (status result : Nat) : State :=
  let e := j.engine
  let s := (s.endJob j status result).setFld Reg.STP_STATUS e e 0
  let s := s.countWrap (Reg.STP_ENG_JOBS e)
  let s := s.purgeFar Mid.stipple
  if s.stpRetire.testBit e then
    State.stpRetireEngine { s with stpRetire := setBits s.stpRetire e e 0 } e
  else s

/-- Verification fails (R207): recorded, counted, and the third failure within 24 h retires the engine once its job has
completed. -/
def State.stpVerifyFail (s : State) (j : Job) : State :=
  let e := j.engine
  let now := s.time.toNat
  let before := (FMap.getD s.stpFails e).filter (fun t => decide (now < t + 86400000000000))
  let rec' (sev : Nat) : Report :=
    { status := St.codecVerifyFail, target := Tgt.stipple, severity := sev, master := Mid.stipple, address := 0,
      tag := 0xFFFF, detail := e }
  let s := { s with stpFails := FMap.setD s.stpFails e (before ++ [now]) }
  let s := s.count (Reg.STP_ENG_VFAIL e) 15 0 1
  let s := s.setFld (Reg.STP_ENG_VFAIL e) 17 16 (min 2 (before.length + 1))
  let s := (s.raise Reg.STP_INT_STATUS 0).report (rec' 2)
  let s := s.stpEnd j St.codecVerifyFail 0
  if before.length ≥ 2 then (s.stpRetireEngine e).report (rec' 4) else s

/-- The rows of a job's frame, whose sibling values SIB_DPA holds (R204): a COMPRESS's input elements, or what the header of
a DECOMPRESS's input counts; an input without a valid header has none. DEDUCED: log entry 101. -/
def stpRows (rev21 : Bool) (e src : List Byte) : Nat :=
  if stpOp e = 1 then stpSrcLen e / (stpCodec e).eb
  else
    match frameHead (stpCodec e) rev21 65536 0 (src.take 16) with
    | .ok h => h.raw / (stpCodec e).eb
    | .error _ => 0

/-- The reads of step 5: the input, unless the job has it already, and the sibling values of its rows, or their first bad status. Each
input byte is read once (R205): an input that is there while the sibling values are not is kept with the job. -/
def State.stpRead (s : State) (rev21 : Bool) (j : Job) : Except Nat (List Byte × List Byte) × State :=
  let e := j.entry
  let (a, s) := match j.got with
    | src :: _ => (⟨St.ok, src, false⟩, s)
    | [] => s.readMem Mid.stipple (stpSrc e) (stpSrcLen e)
  if dataStatus a ≠ St.ok then (.error (dataStatus a), s)
  else
    let n := stpSibBytes e (stpRows rev21 e a.data)
    if n = 0 then (.ok (a.data, []), s)
    else
      let (b, s) := s.readMem Mid.stipple (stpSib e) n
      if dataStatus b = St.held then (.error St.held, s.setJob j { j with got := [a.data] })
      else if dataStatus b ≠ St.ok then (.error (dataStatus b), s)
      else (.ok (a.data, b.data), s)

/-- The output of step 12 is written, and the job ends; a write that is held keeps the output with the job (R205). -/
def State.stpWrite (s : State) (bus : Bus) (j : Job) (out : List Byte) : State :=
  let (st, s) := s.writeOn bus Mid.stipple (stpDst j.entry) out
  if st = St.held then s.setJob j { j with out := some out }
  else if st = St.ok then s.stpEnd j St.ok out.length
  else (s.scramble Mid.stipple (stpDst j.entry) out.length).stpEnd j st 0

/-- An engine's own decoding of a frame gives its input back (R207). -/
def stpVerifies (c : Codec) (rev21 : Bool) (frame src sib : List Byte) : Bool :=
  match decodeWhole c rev21 frame sib src.length with
  | .ok vs => vs = storedElems c.eb src (src.length / c.eb)
  | .error _ => false

/-- A frame with zeros in the bits that remain after its last token (R202). -/
def padFrame (c : Codec) (rev21 : Bool) (frame sib : List Byte) : List Byte :=
  match frameHead c rev21 65536 0 (frame.take 16) with
  | .ok h =>
    if h.stored then frame
    else
      let data := frame.drop 16
      frame.take 16 ++ natLE data.length (leNat data % 2 ^ (frameBlocks c rev21 h data sib).used)
  | .error _ => frame

/-- The frame that every engine makes of a job's input (R208), `frame` where none has made one yet; and its record. -/
def State.stpMake (s : State) (rev21 : Bool) (e src sib frame : List Byte) : List Byte × State :=
  let key := bits (stpParam e) 20 4
  match s.stpMade.find? (fun m => m.rev21 = rev21 && m.codec = key && m.src = src && m.sib = sib) with
  | some m => (m.frame, s)
  | none =>
    let f := padFrame (stpCodec e) rev21 frame sib
    (f, { s with stpMade := s.stpMade ++ [⟨rev21, key, src, sib, f⟩] })

/-- COMPRESS (R205 to R208) by engine `j.engine`. The choice of predictors, parameters and tokens is the engines' own: `frame` is what
the first engine to meet this input makes of it, or what a failing one makes. -/
def State.stpCompress (s : State) (rev21 : Bool) (j : Job) (frame : List Byte) : State :=
  let e := j.entry
  let n := stpSrcLen e
  let c := stpCodec e
  if !stpStep1 rev21 e then s.stpEnd j St.invalidField 0
  else if n < 33 then s.stpEnd j St.codecNoGain 0
  else if stpCap e < n - 16 then s.stpEnd j St.bufferOverflow 0
  else
    match j.out with
    | some out => s.stpWrite memoryBus j out
    | none =>
      match s.stpRead rev21 j with
      | (.error st, s) => if st = St.held then s else s.stpEnd j st 0
      | (.ok (src, sib), s) =>
        let s := s.count64 (Reg.STP_ENG_BYTES_LO j.engine) n
        let good := stpVerifies c rev21 frame src sib
        let (f, s) := if good then s.stpMake rev21 e src sib frame else (frame, s)
        if n - 16 < f.length then s.stpEnd j St.codecNoGain 0
        else if good then s.stpWrite memoryBus j f
        else s.stpVerifyFail j

/-- DECOMPRESS (R205). -/
def State.stpDecompress (s : State) (bus : Bus) (rev21 : Bool) (j : Job) : State :=
  let e := j.entry
  let c := stpCodec e
  if !stpStep1 rev21 e then s.stpEnd j St.invalidField 0
  else
    match j.out with
    | some out => s.stpWrite bus j out
    | none =>
      match s.stpRead rev21 j with
      | (.error st, s) => if st = St.held then s else s.stpEnd j st 0
      | (.ok (src, sib), s) =>
        let s := s.count64 (Reg.STP_ENG_BYTES_LO j.engine) (stpSrcLen e)
        match decodeWhole c rev21 src sib (stpCap e) with
        | .error st => s.stpEnd j st 0
        | .ok vs => s.stpWrite bus j (vs.flatMap (natLE c.eb))

/-- The job engine `i` holds, with OP `op`. -/
def State.stpJob (s : State) (i op : Nat) : Option Job :=
  s.findJob (fun j => (ringOfKey j.ring).unit = .stp && j.engine = i && stpOp j.entry = op)

/-- A write of STP_ENG_RETIRED (R209). -/
def State.stpRetireWrite (s : State) (v : Word) : State :=
  (List.range 16).foldl
    (fun s e =>
      if v.toNat.testBit e && s.stpServes e then
        if s.bit Reg.STP_STATUS e then { s with stpRetire := setBits s.stpRetire e e 1 } else s.stpRetireEngine e
      else s) s

end Sys2Proof.Machine
end

