-- ==== Sys2Proof/Machine/Catalog.lean ====
section
/-! DEFINITION. Tables, segments and epochs (R45 to R71): the catalog and its descriptors in HBM, visibility, the allocation
and writing of rows, and what publishing, withdrawal and reclamation do. -/

namespace Sys2Proof.Machine

/-- NEVER (R49). -/
abbrev never : Nat := 2 ^ 64 - 1

/-- The row ID limit of R47: one more than the largest row ID. -/
abbrev rowLimit : Nat := 0xFFFFFFFF0000

/-- The fields of a column FORMAT (R64). -/
def fmtType (f : Nat) : Nat := f % 16
def fmtNullable (f : Nat) : Bool := f.testBit 4
def fmtSib (f : Nat) : Option Nat := if f.testBit 28 then some (bits f 27 16) else none

/-- The stored width of a column (R46). -/
def fmtWidth (f : Nat) : Nat :=
  if fmtType f = 0xC then bits f 15 8 + 1
  else ([1, 1, 2, 2, 4, 4, 8, 8, 4, 8, 8, 16] : List Nat).getD (fmtType f) 1

/-- The FORMAT of INS and DEL (R64). -/
abbrev epochFmt : Nat := 6

/-- A FORMAT may define user column `c` of `n` (R46, R64, R475). -/
def fmtOk (rev21 : Bool) (n c f : Nat) : Bool :=
  bits f 31 29 = 0 && bits f 7 5 = 0 && decide (fmtType f ≤ 0xC) && (fmtType f = 0xC || bits f 15 8 = 0)
    && (match fmtSib f with | some k => rev21 && decide (k < n) && k ≠ c | none => true)

/-- Table `id`, if a table holds it. -/
def State.table (s : State) (id : Nat) : Option Table := FMap.getD s.tables id

/-- Table `id` becomes `t`. -/
def State.setTable (s : State) (id : Nat) (t : Option Table) : State := { s with tables := FMap.setD s.tables id t }

/-- Space `n` has been created (R45). -/
def State.spaceExists (s : State) (n : Nat) : Bool := (FMap.getD s.spaces n).isSome

/-- A snapshot at `e` sees the table (R50). -/
def Table.seenAt (t : Table) (e : Nat) : Bool := decide (t.create ≤ e) && decide (e < t.drop)

/-- The table that ID names at epoch `e` (R45, R50). -/
def State.tableAt (s : State) (id e : Nat) : Option Table :=
  if s.spaceExists (id / 65536) then (s.table id).filter (·.seenAt e) else none

/-- A table ID is free for a new table (R60). -/
def State.idFree (s : State) (id : Nat) : Bool :=
  match s.table id with
  | none => true
  | some t => t.maker.isNone && decide (t.drop ≤ s.floor)

/-- The largest epoch writers may no longer use (R53). -/
def State.publishFloor (s : State) : Nat := max s.published s.named

/-- Segment `g` of a table. -/
def Table.seg (t : Table) (g : Nat) : Option Seg := FMap.getD t.segs g

/-- Segment `g` becomes `v`. -/
def Table.setSeg (t : Table) (g : Nat) (v : Option Seg) : Table := { t with segs := FMap.setD t.segs g v }

/-- A row's INS and DEL (R49). -/
def Table.insOf (t : Table) (r : Nat) : Nat := FMap.get (fun _ => never) t.ins r
def Table.delOf (t : Table) (r : Nat) : Nat := FMap.get (fun _ => never) t.del r
def Table.setIns (t : Table) (r e : Nat) : Table := { t with ins := FMap.set (fun _ => never) t.ins r e }
def Table.setDel (t : Table) (r e : Nat) : Table := { t with del := FMap.set (fun _ => never) t.del r e }

/-- A snapshot at `e` sees row `r` (R50). -/
def Table.seesRow (t : Table) (e r : Nat) : Bool := decide (t.insOf r ≤ e) && decide (e < t.delOf r)

/-- ROWS of segment `g`: its rows allocated so far (R65). -/
def Table.rowsIn (t : Table) (g : Nat) : Nat := min 65536 (t.nextRow - 65536 * g)

/-- The FORMAT values of the descriptor array: INS, DEL, then the user columns (R63). -/
def Table.allFmts (t : Table) : List Nat := epochFmt :: epochFmt :: t.fmts

/-- NSEG: one more than the highest segment linked (R64). -/
def Table.nseg (t : Table) : Nat :=
  t.segs.foldl (fun n e => match e.2 with | some v => if v.link.isSome then max n (e.1 + 1) else n | none => n) 0

/-- PLATE as it takes effect (R63, R68). -/
def State.plateOf (s : State) (id : Nat) (t : Table) : Bool :=
  t.plate.getD (((FMap.getD s.spaces (id / 65536)).map (·.plate)).getD false)

/-- `n` rounded up to a multiple of 64. -/
def up64 (n : Nat) : Nat := (n + 63) / 64 * 64

/-! Bounds (R66). -/

/-- A value's 64-bit form in MIN and MAX, its bytes given. -/
def boundOf (f : Nat) (v : List Byte) : Nat :=
  let n := leNat v
  let signed (w : Nat) : Nat := (sext w n % (2 ^ 64 : Int)).toNat
  match fmtType f with
  | 1 => signed 8
  | 3 => signed 16
  | 5 => signed 32
  | 0xB => n / 2 ^ 64
  | 0xC => leNat (v.take 8)
  | _ => n

/-- The order of bounds of a column. -/
def boundKey (f b : Nat) : Int :=
  let total (w : Nat) : Int := if b.testBit (w - 1) then -((b % 2 ^ (w - 1) : Nat) : Int) - 1 else (b : Int)
  match fmtType f with
  | 1 | 3 | 5 | 7 | 0xA | 0xB => sext 64 b
  | 8 => total 32
  | 9 => total 64
  | 0xC => (leNat (natLE 8 b).reverse : Nat)
  | _ => (b : Int)

/-- Bounds widened to hold a value. -/
def boundAdd (f : Nat) (bs : Option (Nat × Nat)) (v : List Byte) : Option (Nat × Nat) :=
  let b := boundOf f v
  match bs with
  | none => some (b, b)
  | some (lo, hi) =>
    some (if boundKey f b < boundKey f lo then b else lo, if boundKey f hi < boundKey f b then b else hi)

/-- The bounds of INS or DEL of segment `g`, a row not yet written counting as NEVER (R51, R65). -/
def Table.epochBounds (t : Table) (g : Nat) (del : Bool) : Nat × Nat :=
  let at' (r : Nat) : Nat := if del then t.delOf r else t.insOf r
  ((rangeFrom (65536 * g) (t.rowsIn g)).foldl (fun b r => (min b.1 (at' r), max b.2 (at' r))) (never, 0))

/-! Descriptors (R63 to R65). -/

/-- A table descriptor. -/
def State.tableDesc (s : State) (id : Nat) (t : Table) : List Byte :=
  natLE 8 (cp32 (id + 2 ^ 24 * bit01 t.mirrored + 2 ^ 25 * bit01 (s.plateOf id t) + 2 ^ 26 * bit01 t.emptied))
    ++ natLE 8 (cp32 t.fmts.length) ++ natLE 16 (cp64 t.colsAt) ++ natLE 8 t.create ++ natLE 8 t.drop
    ++ natLE 8 t.nextRow ++ natLE 8 t.limit

/-- A column descriptor. -/
def Table.colDesc (t : Table) (c : Nat) : List Byte :=
  natLE 8 (cp32 (t.allFmts.getD c 0)) ++ natLE 8 (cp32 t.nseg) ++ natLE 16 (cp64 (t.segsAt.getD c 0))

/-- The descriptor of a segment that is not linked. -/
def emptySegDesc : List Byte :=
  natLE 16 (cp64 0) ++ natLE 8 (cp32 0) ++ natLE 8 (cp32 0) ++ List.replicate 32 0 ++ natLE 8 never
    ++ List.replicate 56 0

/-- The descriptor of column `c` of segment `g` (R65). -/
def Table.segDesc (t : Table) (g c : Nat) : List Byte :=
  match (t.seg g).bind (fun v => (v.link.bind (fun e => (v.cols[c]?).map (fun k => (v, e, k))))) with
  | none => emptySegDesc
  | some (v, e, k) =>
    let f := t.allFmts.getD c 0
    let (lo, hi) := if c < 2 then t.epochBounds g (c = 1) else k.bounds.getD (0, 0)
    let flags :=
      bit01 (k.codec ≠ 0) + 2 * bit01 (decide (2 ≤ c) && k.bounds.isNone && k.nulls ≠ 0) + 4 * bit01 (fmtNullable f)
        + 8 * bit01 v.sealed
    natLE 16 (cp64 k.dpa) ++ natLE 8 (cp32 k.len) ++ natLE 8 (cp32 (t.rowsIn g)) ++ natLE 4 k.nulls ++ natLE 4 flags
      ++ natLE 8 lo ++ natLE 8 hi ++ natLE 8 k.codec ++ natLE 8 e ++ List.replicate 24 0 ++ k.digest

/-- Headstock writes bytes to HBM (R62). -/
def State.hdsWrite (s : State) (dpa : Nat) (data : List Byte) : Nat × State := s.writeNow (Mid.headstock 0) dpa data

/-- Headstock writes, keeping the first status other than OK. -/
def hdsThen (a : Nat × State) (dpa : Nat) (data : List Byte) : Nat × State :=
  let (st, s) := a.2.hdsWrite dpa data
  (if a.1 = St.ok then st else a.1, s)

/-- The segment descriptors `from` the first number given to the last linked are written for every column. -/
def State.writeSegDescs (a : Nat × State) (t : Table) (gs : List Nat) : Nat × State :=
  (List.range t.allFmts.length).foldl
    (fun a c => gs.foldl (fun a g => hdsThen a (t.segsAt.getD c 0 + 128 * g) (t.segDesc g c)) a) a

/-- The descriptors of a table are written: itself, its columns and every segment (R61 to R65). -/
def State.writeCatalog (s : State) (id : Nat) (t : Table) : Nat × State :=
  let a := State.writeSegDescs (St.ok, s) t (List.range t.nseg)
  let a := (List.range t.allFmts.length).foldl (fun a c => hdsThen a (t.colsAt + 32 * c) (t.colDesc c)) a
  hdsThen a t.at' (s.tableDesc id t)

/-- A table changes, and with it its descriptors; a failed write after the change is not reported. -/
def State.changeTable (s : State) (id : Nat) (t : Table) : State :=
  let s := s.setTable id (some t)
  if t.create = never then s else (s.writeCatalog id t).2

/-- New catalog arrays for a table laid out from `at'`: its descriptor stays where it is (R61). -/
def Table.moveArrays (t : Table) (at' nseg : Nat) : Table :=
  let n := t.allFmts.length
  let segs := at' + up64 (32 * n)
  { t with colsAt := at', segsAt := (List.range n).map (fun c => segs + 128 * nseg * c) }

/-! Segment storage. -/

/-- The bytes of HBM a column's part of a full segment takes, its null map included (R65). -/
def segBytes (f : Nat) : Nat := up64 (65536 * fmtWidth f) + (if fmtNullable f then 8192 else 0)

/-- The offsets of consecutive column parts. -/
def partsFrom (a : Nat) : List Nat → List Nat
  | [] => []
  | f :: fs => a :: partsFrom (a + segBytes f) fs

/-- A raw segment built and not linked, the INS and DEL parts from `ep` and the user columns from `data` (R54, R413). -/
def Table.newSeg (t : Table) (g ep data : Nat) : Seg :=
  let part (p : Nat × Nat) : ColSeg := ⟨p.1, t.rowsIn g * fmtWidth p.2, 0, none, 0, List.replicate 32 0⟩
  ⟨none, 0, false,
    ([(ep, epochFmt), (ep + segBytes epochFmt, epochFmt)] ++ (partsFrom data t.fmts).zip t.fmts).map part⟩

/-- Where a raw part's null map lies (R65). -/
def ColSeg.mapAt (k : ColSeg) : Nat := k.dpa + up64 k.len

/-- The rows of segment `g` from position `lo` to below `hi` have INS and DEL NEVER in HBM. -/
def State.fillNever (a : Nat × State) (v : Seg) (lo hi : Nat) : Nat × State :=
  let ff := List.replicate (8 * (hi - lo)) (255 : Byte)
  if hi ≤ lo then a
  else (v.cols.take 2).foldl (fun a k => hdsThen a (k.dpa + 8 * lo) ff) a

/-- The null map of a part moves when the part grows (R65). -/
def State.moveMap (s : State) (f : Nat) (k k' : ColSeg) : State :=
  if fmtNullable f && k.mapAt ≠ k'.mapAt then
    let (m, s) := s.readNow (Mid.headstock 0) k.mapAt 8192
    (s.hdsWrite k'.mapAt m.data).2
  else s

/-- NEXT_ROW advances by `n` (R48): the raw tail that is built grows with it (R65). -/
def State.allocRows (s : State) (id n : Nat) (t : Table) : State :=
  let t' := { t with nextRow := t.nextRow + n }
  let g := t.nextRow / 65536
  match t.seg g with
  | none => s.changeTable id t'
  | some v =>
    let grown := (v.cols.zip t.allFmts).map (fun (k, f) => { k with len := t'.rowsIn g * fmtWidth f })
    let s := ((v.cols.zip grown).zip t.allFmts).foldl (fun s (p, f) => s.moveMap f p.1 p.2) s
    let v' := { v with cols := grown }
    let s := (State.fillNever (St.ok, s) v' (t.rowsIn g) (t'.rowsIn g)).2
    s.changeTable id (t'.setSeg g (some v'))

/-- The segments that hold rows `first` to `first + n - 1`. -/
def segsOf (first n : Nat) : List Nat := if n = 0 then [] else rangeFrom (first / 65536) ((first + n - 1) / 65536 - first / 65536 + 1)

/-- The segments of a range of rows that are not built yet are built in the room given (R54). -/
def State.buildSegs (a : Nat × State) (room : Room) (t : Table) : List Nat → Table × Nat × State
  | [] => (t, a)
  | g :: gs =>
    match t.seg g with
    | some _ => State.buildSegs a room t gs
    | none =>
      let v := t.newSeg g room.epochs room.data
      let a := State.fillNever a v 0 (t.rowsIn g)
      State.buildSegs a
        { room with
          data := room.data + (t.fmts.map segBytes).foldl (· + ·) 0
          epochs := room.epochs + 2 * segBytes epochFmt }
        (t.setSeg g (some v)) gs

/-- The bytes new segments of a range would take (R413). -/
def Table.growth (t : Table) (first n : Nat) : Nat :=
  ((segsOf first n).filter (fun g => (t.seg g).isNone)).length * (t.allFmts.map segBytes).foldl (· + ·) 0

/-- Bit `i` of a null map's bytes. -/
def mapBit (m : List Byte) (i : Nat) : Bool := ((m.getD (i / 8) 0).toNat).testBit (i % 8)

/-- A null map's bytes with the bits from `pos` set as given. -/
def mapSet (m : List Byte) (pos : Nat) (ns : List Bool) : List Byte :=
  m.zipIdx.map (fun (b, j) =>
    BitVec.ofNat 8 ((List.range 8).foldl
      (fun v i =>
        let r := 8 * j + i
        if pos ≤ r && r < pos + ns.length then setBits v i i (bit01 (ns.getD (r - pos) false)) else v) b.toNat))

/-- The values of one user column, with their null bits, are written at position `pos` of a segment's part. -/
def State.writePart (a : Nat × State) (f pos : Nat) (k : ColSeg) (vals : List (List Byte)) (ns : List Bool) :
    (Nat × State) × ColSeg :=
  let a := hdsThen a (k.dpa + pos * fmtWidth f) vals.flatten
  let a :=
    if fmtNullable f then
      let (m, s) := a.2.readNow (Mid.headstock 0) k.mapAt 8192
      hdsThen (if a.1 = St.ok then m.status else a.1, s) k.mapAt (mapSet m.data pos ns)
    else a
  let live := (vals.zip ns).filter (fun p => !p.2)
  (a, { k with nulls := k.nulls + (ns.filter id).length, bounds := live.foldl (fun b p => boundAdd f b p.1) k.bounds })

/-- What one user column of a command brings: its values' bytes and null bits, in row order. -/
abbrev ColData := List (List Byte) × List Bool

/-- The parts of segment `v` of the user columns are written from position `pos` with the first `n` rows of each column. -/
def State.writeParts (a : Nat × State) (pos n : Nat) : List (Nat × ColSeg × ColData) → (Nat × State) × List ColSeg
  | [] => (a, [])
  | (f, k, d) :: r =>
    let (a, k) := State.writePart a f pos k (d.1.take n) (d.2.take n)
    let (a, ks) := State.writeParts a pos n r
    (a, k :: ks)

/-- Rows from `first` of every user column are written, segment by segment (R54). -/
def State.writeRows (a : Nat × State) (t : Table) : Nat → Nat → List ColData → Table × Nat × State
  | 0, _, _ => (t, a)
  | fuel + 1, first, ds =>
    let left := (ds.headD ([], [])).1.length
    let g := first / 65536
    let n := min left (65536 - first % 65536)
    match t.seg g with
    | none => (t, a)
    | some v =>
      if left = 0 then (t, a)
      else
        let (a, ks) := State.writeParts a (first % 65536) n (t.fmts.zip ((v.cols.drop 2).zip ds))
        let t := t.setSeg g (some { v with written := v.written + n, cols := v.cols.take 2 ++ ks })
        State.writeRows a t fuel (first + n) (ds.map (fun d => (d.1.drop n, d.2.drop n)))

/-- Staging (R54): the missing segments are built and the column data written with INS = NEVER. The descriptors of segments that are
linked already follow what is written (R65, R66). -/
def State.stageRows (s : State) (room : Room) (id : Nat) (t : Table) (first n : Nat) (ds : List ColData) : Nat × State :=
  let (t, a) := State.buildSegs (St.ok, s) room t (segsOf first n)
  let (t, a) := State.writeRows a t (n / 65536 + 2) first ds
  (a.1, a.2.changeTable id t)

/-- INS and DEL of rows are written to HBM. -/
def State.writeEpochs (s : State) (t : Table) (rows : List Nat) : State :=
  rows.foldl
    (fun s r =>
      match t.seg (r / 65536) with
      | some v =>
        let o := 8 * (r % 65536)
        match v.cols with
        | i :: d :: _ => ((s.hdsWrite (i.dpa + o) (natLE 8 (t.insOf r))).2.hdsWrite (d.dpa + o) (natLE 8 (t.delOf r))).2
        | _ => s
      | none => s) s

/-- A sealed segment's part has its digest: SHA-256 over the stored data and the null map (R65). -/
def State.digestPart (s : State) (f : Nat) (k : ColSeg) : ColSeg × State :=
  let (m, s) := s.readNow (Mid.headstock 0) k.dpa k.len
  let (n, s) := if fmtNullable f then s.readNow (Mid.headstock 0) k.mapAt 8192 else (⟨St.ok, [], false⟩, s)
  ({ k with digest := shaDigest 0 (m.data ++ n.data) }, s)

/-- The digests of a segment's parts. -/
def State.digestParts (s : State) : List (Nat × ColSeg) → List ColSeg × State
  | [] => ([], s)
  | (f, k) :: r =>
    let (k, s) := s.digestPart f k
    let (ks, s) := s.digestParts r
    (k :: ks, s)

/-- A segment is sealed once all its rows have been allocated and written (R48). -/
def State.sealSeg (s : State) (t : Table) (g : Nat) : Table × State :=
  match t.seg g with
  | some v =>
    if v.written = 65536 && v.link.isSome && !v.sealed then
      let (ks, s) := s.digestParts (t.allFmts.zip v.cols)
      (t.setSeg g (some { v with sealed := true, cols := ks }), s)
    else (t, s)
  | none => (t, s)

/-- Sealed segment `g`, whose INS or DEL values may have changed, has the digests of those two parts anew (R65). -/
def State.redigest (a : Table × State) (g : Nat) : Table × State :=
  match a.1.seg g with
  | some v =>
    if v.sealed then
      let (ks, s) := a.2.digestParts ((a.1.allFmts.zip v.cols).take 2)
      (a.1.setSeg g (some { v with cols := ks ++ v.cols.drop 2 }), s)
    else a
  | none => a

/-- A segment is linked at `w`, or its LINK_EPOCH lowered to `w` (R54). -/
def Table.linkSeg (t : Table) (w g : Nat) : Table :=
  match t.seg g with
  | some v => t.setSeg g (some { v with link := some (match v.link with | some e => min e w | none => w) })
  | none => t

/-- The publish phase of rows `first` to `first + n - 1` inserted and `dels` deleted at `w` (R54): segments linked, INS and DEL
set, and the descriptors written with their arrays at `cat`. The full segments of a RUN's output are sealed at once (`now`, R167);
those of a LOAD or PATCH once its Clamps are released (R61). -/
def State.publishRows (s : State) (id : Nat) (t : Table) (w first n : Nat) (dels : List Nat) (cat : Nat) (now : Bool) : State :=
  let gs := segsOf first n
  let t := gs.foldl (fun t g => t.linkSeg w g) t
  let t := (rangeFrom first n).foldl (fun t r => t.setIns r w) t
  let t := dels.foldl (fun t r => t.setDel r w) t
  let s := s.writeEpochs t (rangeFrom first n ++ dels)
  let (t, s) := (if now then gs else []).foldl (fun (a : Table × State) g => a.2.sealSeg a.1 g) (t, s)
  let (t, s) := (gs ++ dels.map (· / 65536)).eraseDups.foldl State.redigest (t, s)
  let t := if n = 0 && t.maker.isNone then t else t.moveArrays cat t.nseg
  s.changeTable id { t with maker := none }

/-- VISIBLE_ROW_LIMIT: one more than the highest row whose insert is published (R59). -/
def Table.visibleLimit (t : Table) (p : Nat) : Nat :=
  t.ins.foldl (fun n e => if e.2 ≤ p then max n (e.1 + 1) else n) t.limit

/-- P := `w`, G is raised and VISIBLE_ROW_LIMITs follow (R56, R60). -/
def State.publish (s : State) (w : Nat) : State :=
  let s := { s with published := w, floor := max s.floor (w - s.retain) }
  s.tables.foldl
    (fun s e =>
      match e.2 with
      | some t =>
        let l := t.visibleLimit w
        if l = t.limit then s else s.changeTable e.1 { t with limit := l }
      | none => s) s

/-- The least INS other than NEVER among a segment's rows, if any. -/
def Table.leastIns (t : Table) (g : Nat) : Option Nat :=
  t.ins.foldl (fun m e => if e.1 / 65536 = g && e.2 ≠ never then some (match m with | some x => min x e.2 | none => e.2) else m)
    none

/-- Everything linked at `w` in one table is reversed (R57); a table created at `w` ceases to exist. -/
def State.withdrawTable (s : State) (w id : Nat) (t : Table) : State :=
  if t.create = w then s.setTable id none
  else
    let ri := FMap.keysWhere t.ins (fun _ e => e = w)
    let rd := FMap.keysWhere t.del (fun _ e => e = w)
    let t := ri.foldl (fun t r => t.setIns r never) t
    let t := rd.foldl (fun t r => t.setDel r never) t
    let hit := t.segs.filterMap (fun e => e.2.bind (fun v => if v.link = some w then some e.1 else none))
    let t :=
      hit.foldl
        (fun t g => match t.seg g with | some v => t.setSeg g (some { v with link := t.leastIns g }) | none => t) t
    let dropped := t.drop = w
    let t := if dropped then { t with drop := never } else t
    if ri.isEmpty && rd.isEmpty && hit.isEmpty && !dropped then s
    else
      let (t, s) := ((ri ++ rd).map (· / 65536)).eraseDups.foldl State.redigest (t, s.writeEpochs t (ri ++ rd))
      s.changeTable id t

/-- EPOCH_WITHDRAW's reversal over every table (R57). -/
def State.withdraw (s : State) (w : Nat) : State :=
  s.tables.foldl (fun s e => match e.2 with | some t => s.withdrawTable w e.1 t | none => s) s

/-! Stored values. -/

/-- The bytes that stored frames of `n` elements take, or `none` where a gap between two of them is not zero (R195). -/
def framesEnd (c : Codec) (rev21 : Bool) : Nat → Nat → List Byte → Option Nat
  | 0, _, _ => none
  | fuel + 1, n, data =>
    match frameHead c rev21 n 0 (data.take 16) with
    | .error _ => none
    | .ok h =>
      let len := 16 + h.coded
      let m := h.raw / c.eb
      if n ≤ m then some len
      else if ((data.drop len).take (up64 len - len)).any (fun b => b != 0) then none
      else (framesEnd c rev21 fuel (n - m) (data.drop (up64 len))).map (· + up64 len)

/-- The values of stored Stipple frames in order, `n` of them still to come, each frame at the next multiple of 64 bytes (R195,
R203). -/
def decodeFrames (c : Codec) (rev21 : Bool) (sib : List Byte) : Nat → Nat → List Byte → Option (List Nat)
  | 0, _, _ => none
  | fuel + 1, n, data =>
    if n = 0 then some []
    else
      match frameHead c rev21 n 0 (data.take 16) with
      | .error _ => none
      | .ok h =>
        let len := 16 + h.coded
        let m := h.raw / c.eb
        match decodeWhole c rev21 (data.take len) sib h.raw with
        | .error _ => none
        | .ok vs =>
          if vs.length ≠ m then none
          else (decodeFrames c rev21 (sib.drop (m * widthBytes c.sibWidth)) fuel (n - m) (data.drop (up64 len))).map (vs ++ ·)

/-- The bytes of a user column's rows of a segment, as the stored form gives them, `sib` those of its sibling. -/
def partBytes (rev21 : Bool) (f : Nat) (k : ColSeg) (rows : Nat) (stored sib : List Byte) : Option (List Byte) :=
  if k.codec = 0 then some stored
  else
    let c := Codec.ofWord k.codec
    (decodeFrames c rev21 sib (rows + 1) (rows * fmtWidth f / c.eb) stored).map (fun vs => vs.flatMap (natLE c.eb))

/-- A user column's part of a segment is read and decoded: a status, or its rows' bytes, null map and poison mark. -/
def State.readPart (s : State) (m rows f : Nat) (k : ColSeg) (sib : List Byte) :
    Except Nat (List Byte × List Byte × Bool) × State :=
  let (a, s) := s.readMem m k.dpa k.len
  if a.status ≠ St.ok then (.error a.status, s)
  else
    let (b, s) := if fmtNullable f then s.readMem m k.mapAt 8192 else (⟨St.ok, [], false⟩, s)
    if b.status ≠ St.ok then (.error b.status, s)
    else
      match partBytes s.rev21 f k rows a.data sib with
      | some v => (.ok (v, b.data, a.poison || b.poison), s)
      | none => (.error St.codecIllegalCode, s)

/-- The values of column `c` of segment `g`, with its sibling's read first where its codec needs them (R148). -/
def State.readColumn (s : State) (m : Nat) (t : Table) (g c : Nat) : Except Nat (List Byte × List Byte × Bool) × State :=
  let f := t.fmts.getD c 0
  match (t.seg g).bind (fun v => v.cols[c + 2]?) with
  | none => (.ok ([], [], false), s)
  | some k =>
    let sibling := if k.codec ≠ 0 && (Codec.ofWord k.codec).sibEn then fmtSib f else none
    match sibling.bind (fun n => ((t.seg g).bind (fun v => v.cols[n + 2]?)).map (fun k' => (n, k'))) with
    | none => s.readPart m (t.rowsIn g) f k []
    | some (n, k') =>
      match s.readPart m (t.rowsIn g) (t.fmts.getD n 0) k' [] with
      | (.error e, s) => (.error e, s)
      | (.ok (v, _, p), s) =>
        match s.readPart m (t.rowsIn g) f k v with
        | (.ok (w, ns, q), s) => (.ok (w, ns, p || q), s)
        | (.error e, s) => (.error e, s)

/-! Reclamation and replacement (R60, R61). -/

/-- The slots of a Clamp range are intact (R39, R257). -/
def ClampRange.intact (r : ClampRange) : Bool := cp32Ok r.table && cp64Ok r.first && cp64Ok r.last

/-- The table, rows and EXCL of a range, widened to the whole table once found broken (R40). -/
def ClampRange.id (r : ClampRange) : Nat := bits r.table 23 0
def ClampRange.excl (r : ClampRange) : Bool := r.widened || r.table.testBit 30
def ClampRange.lo (r : ClampRange) : Nat := if r.widened then 0 else bits r.first 47 0
def ClampRange.hi (r : ClampRange) : Nat := if r.widened then 2 ^ 48 - 1 else bits r.last 47 0

/-- A command in flight holds a Clamp that covers segment `g` of a table (R61). -/
def State.segHeld (s : State) (id g : Nat) : Bool :=
  s.cmds.any (fun e =>
    match e.2 with
    | some c => c.clamps.any (fun r => r.granted && r.id = id && r.lo ≤ 65536 * g + 65535 && 65536 * g ≤ r.hi)
    | none => false)

/-- A command with a snapshot below G is still in flight (R60). -/
def State.oldReader (s : State) : Bool :=
  s.cmds.any (fun e =>
    match e.2 with
    | some c =>
      let op := fieldLE c.entry 2 1
      c.done.isNone && (op = 0x43 || op = 0x44) && c.epoch < s.floor
    | none => false)

/-- Full segments that are linked and that no Clamp covers are sealed, unless an etch has begun (R48, R61, R420). -/
def State.sealFull (s : State) : State :=
  if s.fld Reg.PLT_STATUS 31 29 = 2 then s
  else
    s.tables.foldl
      (fun s e =>
        match e.2 with
        | some t =>
          let full (g : Nat) : Bool :=
            match t.seg g with
            | some v => v.written = 65536 && v.link.isSome && !v.sealed
            | none => false
          let gs := (t.segs.map (·.1)).filter (fun g => full g && !s.segHeld e.1 g)
          if gs.isEmpty then s
          else
            let (t, s) := gs.foldl (fun (a : Table × State) g => a.2.sealSeg a.1 g) (t, s)
            s.changeTable e.1 t
        | none => s) s

/-- Every row of a linked segment has DEL at or below G (R60). The rows of a tail that are not allocated yet have no DEL: that such a
segment is not reclaimed is a DESIGN CHOICE (assumption 117). -/
def Table.dead (t : Table) (floor g : Nat) : Bool :=
  t.rowsIn g = 65536 && (rangeFrom (65536 * g) 65536).all (fun r => decide (t.delOf r ≤ floor))

/-- STORAGE_RECLAIM: segments whose rows are all dead are unlinked and freed, and tables dropped at or below G let their IDs go
(R60, R61). -/
def State.reclaim (s : State) : State :=
  if s.oldReader then s
  else
    s.tables.foldl
      (fun s e =>
        match e.2 with
        | some t =>
          if t.maker.isNone && t.drop ≤ s.floor then s.setTable e.1 none
          else
            let gs := (List.range t.nseg).filter (fun g => (t.seg g).isSome && t.dead s.floor g && !s.segHeld e.1 g)
            if gs.isEmpty then s else s.changeTable e.1 (gs.foldl (fun t g => t.setSeg g none) t)
        | none => s) s

/-- The values of a part's stored form, its null map apart. -/
def State.partValues (s : State) (t : Table) (g c : Nat) : Option (List Byte) × State :=
  match s.readColumn (Mid.headstock 0) t g c with
  | (.ok (v, _, false), s) => (some v, s)
  | (_, s) => (none, s)

/-- The stored form `k'` that the runtime may give column `c` of segment `g`: raw, or frames under a CODEC word without reserved bits
(R197) that end with the last byte (R195), at least 16 bytes shorter than raw (R206), with SIB_EN only against a sibling whose own
CODEC has none (R200). -/
def State.storedFormOk (s : State) (v : Seg) (f : Nat) (k' : ColSeg) (stored : List Byte) : Bool :=
  let raw := 65536 * fmtWidth f
  let c := Codec.ofWord k'.codec
  if k'.codec = 0 then stored.length = raw
  else
    decide (k'.codec < 2 ^ 17) && c.ok && decide (stored.length + 16 ≤ raw)
      && framesEnd c s.rev21 65536 (raw / c.eb) stored = some stored.length
      && (!c.sibEn ||
        (match (fmtSib f).bind (fun n => v.cols[n + 2]?) with
        | some sib => sib.codec = 0 || !(Codec.ofWord sib.codec).sibEn
        | none => false))

/-- SEGMENT_REPLACE: a sealed segment's user column `c` gets a new stored form at `at'` while no Clamp covers it; its rows do
not change (R48, R61). -/
def State.segReplace (s : State) (id c g codec at' : Nat) (stored : List Byte) : State :=
  match s.table id with
  | none => s
  | some t =>
    match (t.seg g).bind (fun v => (v.cols[c + 2]?).map (fun k => (v, k))) with
    | none => s
    | some (v, k) =>
      if s.segHeld id g || !v.sealed || t.fmts.length ≤ c then s
      else
        let f := t.fmts.getD c 0
        let k' := { k with dpa := at', len := stored.length, codec := codec }
        match s.readColumn (Mid.headstock 0) t g c with
        | (.error _, _) => s
        | (.ok (old, ns, bad), s1) =>
          let sib :=
            match fmtSib f with
            | some n => ((s1.partValues t g n).1).getD []
            | none => []
          if bad || partBytes s.rev21 f k' 65536 stored sib ≠ some old || at' % 64 ≠ 0 || !s.storedFormOk v f k' stored then s
          else
            let a := hdsThen (St.ok, s1) k'.dpa stored
            let a := if fmtNullable f then hdsThen a k'.mapAt ns else a
            if a.1 ≠ St.ok then a.2
            else
              let (k', s2) := a.2.digestPart f k'
              s2.changeTable id (t.setSeg g (some { v with cols := v.cols.set (c + 2) k' }))

end Sys2Proof.Machine
end

