-- ==== Sys2Proof/Machine/QueueBase.lean ====
section
/-! DEFINITION. What the queue engine holds of pairs and commands (R229 to R249, R256, R276), and how every unit completes one. -/

namespace Sys2Proof.Machine

/-- Pair `q`, if it exists. -/
def State.pair (s : State) (q : Nat) : Option Pair := FMap.getD s.pairs q

/-- Pair `q` becomes `p`. -/
def State.setPair (s : State) (q : Nat) (p : Option Pair) : State := { s with pairs := FMap.setD s.pairs q p }

/-- The command that holds tag `t`. -/
def State.cmd (s : State) (t : Nat) : Option Cmd := FMap.getD s.cmds t

/-- The command of tag `t` becomes `c`. -/
def State.setCmd (s : State) (t : Nat) (c : Option Cmd) : State := { s with cmds := FMap.setD s.cmds t c }

/-- The fields of a context record (R232). -/
def qcSq (b : List Byte) : Nat := fieldLE b 0 8
def qcCq (b : List Byte) : Nat := fieldLE b 0x10 8
def qcSqDepth (b : List Byte) : Nat := fieldLE b 0x20 2 + 1
def qcCqDepth (b : List Byte) : Nat := fieldLE b 0x22 2 + 1
def qcAttr (b : List Byte) : Nat := fieldLE b 0x28 4
def qcOwner (b : List Byte) : Nat := fieldLE b 0x30 4
def qcMax (b : List Byte) : Nat := bits (qcAttr b) 31 20 + 1
def qcIen (b : List Byte) : Bool := (qcAttr b).testBit 19
def qcClass (b : List Byte) : Nat := bits (qcAttr b) 18 16
def qcVector (b : List Byte) : Nat := bits (qcAttr b) 10 0
def qcFn (b : List Byte) : Nat := bits (qcOwner b) 6 0
def qcCoalTime (b : List Byte) : Nat := bits (qcOwner b) 31 24
def qcCoalCount (b : List Byte) : Nat := bits (qcOwner b) 23 16

/-- A context record's pairs are intact (R232, R39). -/
def qcOk (b : List Byte) : Bool :=
  pair64At b 0 && pair64At b 0x10 && pair32At b 0x20 && pair32At b 0x28 && pair32At b 0x30

/-- The 64 bytes of a context record (R232). -/
def qcBytes (sq cq sqm1 cqm1 attr owner : Nat) : List Byte :=
  natLE 16 (cp64 sq) ++ natLE 16 (cp64 cq) ++ natLE 8 (cp32 (2 ^ 16 * cqm1 + sqm1)) ++ natLE 8 (cp32 attr)
    ++ natLE 8 (cp32 owner) ++ List.replicate 8 0

/-- The function that owns pair `q` (R229). -/
def State.pairFn (s : State) (q : Nat) : Nat :=
  if q < 128 then q else ((s.pair q).map (fun p => qcFn p.ctx)).getD 0

/-- Where the QE keeps the context of pair `q` (R232). -/
def State.ctxDpa (s : State) (q : Nat) : Nat := s.rd64 Reg.QE_CTX_BASE_LO + 64 * q

/-- Commands of pair `q` in flight. -/
def State.inFlight (s : State) (q : Nat) : Nat :=
  (s.cmds.filter (fun e => match e.2 with | some c => c.pair = q | none => false)).length

/-- The command tags of the module: twice as many on the FRONT of a pair (R243, R276). -/
def State.tagCount (s : State) : Nat := if s.role = some false then 8192 else 4096

/-- Tags held; a part of a spanning RUN holds none. -/
def State.tagsHeld (s : State) : Nat := (s.cmds.filter (fun e => decide (e.1 < 8192))).length

/-- QE_TAG_INUSE and QE_TAG_PEAK follow the tags held (R251). -/
def State.showTags (s : State) : State :=
  let n := s.tagsHeld
  let s := s.setFld Reg.QE_TAG_INUSE 13 0 n
  if s.fld Reg.QE_TAG_PEAK 13 0 < n then s.setFld Reg.QE_TAG_PEAK 13 0 n else s

/-- The completion queue of a pair is full: tail + 1 is CQ_HEAD (R237). -/
def Pair.cqFull (p : Pair) : Bool := (p.ctail + 1) % qcCqDepth p.ctx = p.chead

/-- A pending pair that the arbiter could grant if a tag were free (R242). -/
def State.wantsFetch (s : State) (q : Nat) (p : Pair) : Bool :=
  p.pending && p.state = 1 && decide (s.inFlight q < qcMax p.ctx) && !p.cqFull

/-- Held-back fetches are counted: each pair once in a period without a free tag (R243). -/
def State.countWaits (s : State) : State :=
  if s.tagsHeld < s.tagCount then
    if s.pairs.any (fun e => match e.2 with | some p => p.counted | none => false) then
      { s with pairs := s.pairs.map (fun e => (e.1, e.2.map (fun p => { p with counted := false }))) }
    else s
  else
    s.pairs.foldl
      (fun s e =>
        match e.2 with
        | some p =>
          if s.wantsFetch e.1 p && !p.counted then
            let s := s.count Reg.QE_TAG_WAITS 31 0 1
            State.setPair { s with lastWait := s.time.toNat } e.1 (some { p with counted := true })
          else s
        | none => s) s

/-- The opcode, FLAGS and ARGS fields of a command's entry (R240). -/
def Cmd.op (c : Cmd) : Nat := fieldLE c.entry 2 1
def Cmd.flags (c : Cmd) : Nat := fieldLE c.entry 4 4
def Cmd.ptr (c : Cmd) : Nat := fieldLE c.entry 8 8
def Cmd.len (c : Cmd) : Nat := fieldLE c.entry 0x18 4
def Cmd.arg (c : Cmd) (o k : Nat) : Nat := fieldLE c.entry o k

/-- The inbox entry of a command (R315). -/
def inboxEntry (tag : Nat) (c : Cmd) : List Byte :=
  c.entry ++ natLE 4 (2 ^ 16 * c.pair + tag) ++ List.replicate 4 0 ++ natLE 8 c.epoch
    ++ natLE 8 (if c.count = 0 then never else c.first) ++ List.replicate 40 0

/-- A command passes to Headstock: its inbox entry is written, its bit set and event 128 signalled (R256, R315). A part of a spanning
RUN came through a landing queue and has no entry there. -/
def State.passCmd (s : State) (tag : Nat) : State :=
  match s.cmd tag with
  | none => s
  | some c =>
    let s := s.setCmd tag (some { c with stage := .passed })
    if 8192 ≤ tag then s
    else
      let (_, s) := s.writeNow Mid.qe (s.rd64 Reg.HDS_INBOX_BASE_LO + 128 * tag) (inboxEntry tag c)
      let s := s.setFld (Reg.HDS_INBOX_PEND (tag / 32)) (tag % 32) (tag % 32) 1
      s.signal 128

/-- An earlier-fetched PUBLISH_EPOCH has not completed: they pass one at a time (R56). -/
def State.publishWaits (s : State) (c : Cmd) : Bool :=
  s.cmds.any (fun e => match e.2 with | some d => d.op = 0x46 && d.order < c.order && d.done.isNone | none => false)

/-- The PUBLISH_EPOCH whose turn has come passes to Headstock (R56). -/
def State.passPublish (s : State) : State :=
  match s.cmds.find? (fun e =>
      match e.2 with
      | some c => c.op = 0x46 && c.stage = .waiting && c.done.isNone && !s.publishWaits c
      | none => false) with
  | some e => s.passCmd e.1
  | none => s

/-- Image slot `i`. -/
def State.image (s : State) (i : Nat) : Option Image := FMap.getD s.images i

/-- A RUN uses the image of slot `i`: one that Headstock has taken, or an admitted one that names it and has not completed (R156,
R273). -/
def State.imageUsed (s : State) (i : Nat) : Bool :=
  s.runs.any (fun e => match e.2 with | some r => r.image = i | none => false)
    || s.cmds.any (fun e =>
      match e.2, s.image i with
      | some c, some m => c.op = 0x44 && c.done.isNone && c.arg 0x20 2 = 256 * m.gen + i
      | _, _ => false)

/-- A removed image's storage is freed once no RUN uses it (R273). -/
def State.freeImages (s : State) : State :=
  { s with images := s.images.filter (fun e => match e.2 with | some m => !m.removed || s.imageUsed e.1 | none => false) }

/-- A command's collector slot is filled, if it has not been already (R276). -/
def State.complete (s : State) (tag status result : Nat) : State :=
  match s.cmd tag with
  | some c =>
    if c.done.isSome then s
    else
      let s := s.setCmd tag (some { c with done := some (status, result) })
      let s := { s with tables := s.tables.filter (fun e => match e.2 with | some t => t.maker ≠ some tag | none => false) }
      if c.op = 0x46 then s.passPublish else if c.op = 0x44 then s.freeImages else s
  | none => s

/-- The command of tag `t`, passed to Headstock and not completed, with opcode `op`. -/
def State.running? (s : State) (tag op : Nat) : Option Cmd :=
  (s.cmd tag).filter (fun c => c.op = op && c.done.isNone && c.stage ≠ .waiting)

/-- The command of tag `t` takes a stage. -/
def State.setStage (s : State) (tag : Nat) (st : Stage) : State :=
  match s.cmd tag with
  | some c => s.setCmd tag (some { c with stage := st })
  | none => s

/-- Bytes a command writes to its function's host memory (R249). -/
def State.hostPut (s : State) (c : Cmd) (addr : Nat) (data : List Byte) (ep : Bool) : State :=
  if data.isEmpty then s
  else { s with sent := s.sent ++ [.hostWrite c.fn addr data (s.fnRelaxed c.fn) ep] }

/-- Pair tile `t` is retired, at this half or the other (R486). -/
def State.pairRetired (s : State) (t : Nat) : Bool :=
  if t < 64 then (s.rd64 Reg.GLB_TILE_RETIRED_LO).testBit t else s.peerRetired.testBit (t - 64)

/-- Tiles in service: the module's, and the other half's in Diptych, less those retired or offline (R159, R261). -/
def State.tilesInService (s : State) : List Nat :=
  (List.range (if s.role = some false then 128 else 64)).filter (fun t =>
    !s.offline.testBit t && !s.pairRetired t)

end Sys2Proof.Machine
end

