-- ==== Sys2Proof/Machine/Image.lean ====
section
/-! DEFINITION. Pipeline images (R152 to R156): the fields of an image and the checks of INSTALL_PROGRAM. -/

namespace Sys2Proof.Machine

/-- The value of the CP32 slot at an offset of an image. -/
def imgWord (img : List Byte) (o : Nat) : Nat := fieldLE img o 4

def imgLen (img : List Byte) : Nat := imgWord img 0x10
def imgFrags (img : List Byte) : Nat := bits (imgWord img 0x18) 7 0
def imgBinds (img : List Byte) : Nat := bits (imgWord img 0x18) 28 16
def imgParamLen (img : List Byte) : Nat := imgWord img 0x30
def imgLimit (img : List Byte) : Nat := if imgWord img 0x38 = 0 then 10000 else imgWord img 0x38
def imgShared (img : List Byte) : Nat := imgWord img 0x40
def imgSpan (img : List Byte) : Bool := (imgWord img 0x48).testBit 0
def imgTableOut (img : List Byte) : Bool := (imgWord img 0x48).testBit 1
def imgDigest (img : List Byte) : List Byte := subBytes img 0xC0 48

/-- The offset of fragment `f`'s entry and of binding `b`'s (R153, R154). -/
def fragAt (img : List Byte) (f : Nat) : Nat := imgWord img 0x20 + 64 * f
def bindAt (img : List Byte) (b : Nat) : Nat := imgWord img 0x28 + 16 * b

/-- A fragment's fields (R153). -/
structure Frag where
  codeOff : Nat
  codeLen : Nat
  entry : Nat
  stage : Nat
  maxInst : Nat
  minInst : Nat
  benchKib : Nat
  spillMib : Nat
  deriving DecidableEq, Repr

/-- Fragment `f` of an image. -/
def imgFrag (img : List Byte) (f : Nat) : Frag :=
  let w (o : Nat) : Nat := imgWord img (fragAt img f + o)
  ⟨w 0, w 8, w 0x10, bits (w 0x18) 27 24, bits (w 0x18) 15 8, bits (w 0x18) 7 0, w 0x20, w 0x28⟩

/-- A binding's fields (R154). -/
structure Binding where
  pattern : Nat
  dst : Nat
  src : Nat
  outBase : Nat
  buf : Nat
  esize : Nat
  inBase : Nat
  arg : Nat
  deriving DecidableEq, Repr

/-- Binding `b` of an image. -/
def imgBind (img : List Byte) (b : Nat) : Binding :=
  let w (i : Nat) : Nat := fieldLE img (bindAt img b + 4 * i) 4
  ⟨bits (w 0) 27 24, bits (w 0) 23 16, bits (w 0) 15 8, bits (w 0) 4 0, bits (w 1) 29 16, bits (w 1) 7 5, bits (w 1) 4 0,
    w 2⟩

/-- The fragments and bindings of an image. -/
def imgFragList (img : List Byte) : List Frag := (List.range (imgFrags img)).map (imgFrag img)
def imgBindList (img : List Byte) : List Binding := (List.range (imgBinds img)).map (imgBind img)

/-- Fragment entries and bindings that lie wholly within the image (R155). -/
def wholeFrags (img : List Byte) : List Nat := (List.range (imgFrags img)).filter (fun f => fragAt img f + 64 ≤ img.length)
def wholeBinds (img : List Byte) : List Nat := (List.range (imgBinds img)).filter (fun b => bindAt img b + 16 ≤ img.length)

/-- Step 2 of R155. -/
def imgPairsOk (img : List Byte) : Bool :=
  (List.range 10).all (fun i => pair32At img (8 * i))
    && (wholeFrags img).all (fun f => (List.range 6).all (fun i => pair32At img (fragAt img f + 8 * i)))

/-- Step 3 of R155. -/
def imgReservedOk (img : List Byte) : Bool :=
  imgWord img 0 = 0x4C495350 && bits (imgWord img 8) 31 24 = 0 && bits (imgWord img 8) 15 0 = 1
    && bits (imgWord img 0x18) 31 29 = 0 && bits (imgWord img 0x18) 15 8 = 0 && bits (imgWord img 0x48) 31 2 = 0
    && zeroAt img 0x50 112 && zeroAt img 0xF0 16
    && (wholeFrags img).all (fun f =>
      bits (imgWord img (fragAt img f + 0x18)) 31 28 = 0 && bits (imgWord img (fragAt img f + 0x18)) 23 16 = 0
        && zeroAt img (fragAt img f + 0x30) 16)
    && (wholeBinds img).all (fun b =>
      let w (i : Nat) : Nat := fieldLE img (bindAt img b + 4 * i) 4
      bits (w 0) 31 28 = 0 && bits (w 0) 7 5 = 0 && bits (w 1) 31 30 = 0 && bits (w 1) 15 8 = 0 && w 3 = 0)

/-- Step 6 of R155. -/
def imgRangesOk (img : List Byte) : Bool :=
  let n := img.length
  decide (0x1000 ≤ n) && decide (n ≤ 0x4000000) && n % 64 = 0 && decide (1 ≤ imgFrags img) && decide (imgFrags img ≤ 64)
    && decide (imgBinds img ≤ 4096) && imgWord img 0x20 % 64 = 0 && imgWord img 0x28 % 16 = 0
    && decide (imgWord img 0x20 < n) && decide (imgWord img 0x28 < n)
    && decide (imgParamLen img ≤ 4096) && decide (imgShared img ≤ 1024)
    && (wholeFrags img).length = imgFrags img && (wholeBinds img).length = imgBinds img
    && (imgFragList img).all (fun f =>
      f.codeOff % 64 = 0 && f.codeLen % 4 = 0 && decide (4 ≤ f.codeLen) && decide (f.codeLen ≤ 0x100000)
        && decide (f.codeOff + f.codeLen ≤ n) && f.entry % 4 = 0 && decide (f.entry < f.codeLen)
        && decide (1 ≤ f.maxInst) && decide (f.maxInst ≤ 128) && decide (1 ≤ f.minInst) && decide (f.minInst ≤ f.maxInst)
        && decide (1 ≤ f.benchKib) && decide (f.benchKib ≤ 2048) && decide (f.spillMib ≤ 4096))

/-- The outbound channels a binding can take of its sender, and the inbound ones of its receiver (R154). -/
def bindOuts (fs : List Frag) (b : Binding) : List Nat :=
  if b.pattern = 2 || b.pattern = 3 then rangeFrom b.outBase (((fs[b.dst]?).map (·.maxInst)).getD 0)
  else [b.outBase]
def bindIns (fs : List Frag) (b : Binding) : List Nat :=
  if b.pattern = 1 || b.pattern = 2 then rangeFrom b.inBase (((fs[b.src]?).map (·.maxInst)).getD 0)
  else if b.pattern < 4 then [b.inBase] else []

/-- A binding meets R154. -/
def bindOk (fs : List Frag) (tableOut : Bool) (b : Binding) : Bool :=
  match fs[b.src]? with
  | none => false
  | some a =>
    if b.pattern < 4 then
      match fs[b.dst]? with
      | none => false
      | some d =>
        decide (b.esize ≤ 4) && a.stage = d.stage && decide (1 ≤ b.buf) && decide (b.buf ≤ 8192)
          && (match b.pattern with
            | 0 => a.minInst = d.minInst && a.maxInst = d.maxInst
            | 1 => d.maxInst = 1 && decide (a.maxInst + b.inBase ≤ 32)
            | 2 => decide (d.maxInst + b.outBase ≤ 32) && decide (a.maxInst + b.inBase ≤ 32)
            | _ => a.maxInst = 1 && decide (d.maxInst + b.outBase ≤ 32))
    else if b.pattern = 4 then
      decide (b.esize ≤ 4) && b.dst = 0 && b.inBase = 0 && b.buf = 0 && decide (b.arg < 16)
    else
      b.pattern = 5 && decide (b.esize ≤ 4) && b.dst = 0 && b.inBase = 0 && b.buf = 0 && a.maxInst = 1 && decide (b.arg < 65536)
        && decide (bits b.arg 15 12 ≤ 0xB) && fmtWidth (bits b.arg 15 12) = 2 ^ b.esize && tableOut

/-- No channel of a list of (fragment, channel) pairs stands twice. -/
def noRepeats : List (Nat × Nat) → Bool
  | [] => true
  | x :: xs => !xs.contains x && noRepeats xs

/-- The output columns the COLUMN bindings name. -/
def imgColumns (img : List Byte) : List Nat :=
  ((imgBindList img).filter (fun b => b.pattern = 5)).map (fun b => bits b.arg 11 0)

/-- Step 7 of R155. -/
def imgBindingsOk (img : List Byte) : Bool :=
  let fs := imgFragList img
  let bs := imgBindList img
  let cols := imgColumns img
  bs.all (bindOk fs (imgTableOut img))
    && noRepeats (bs.flatMap (fun b => (bindOuts fs b).map (fun c => (b.src, c))))
    && noRepeats (bs.flatMap (fun b => (bindIns fs b).map (fun c => (b.dst, c))))
    && (if imgTableOut img then !cols.isEmpty && (List.range cols.length).all (fun c => cols.contains c) else cols.isEmpty)

/-- The inbound buffer bytes fragment `f` can be bound (R155). -/
def fragBuffers (img : List Byte) (f : Nat) : Nat :=
  let fs := imgFragList img
  (imgBindList img).foldl (fun n b => if b.pattern < 4 && b.dst = f then n + 256 * b.buf * (bindIns fs b).length else n) 0

/-- Step 8 of R155. -/
def imgBenchOk (img : List Byte) : Bool :=
  (imgFragList img).zipIdx.all (fun (f, i) => decide (1024 * f.benchKib + fragBuffers img i ≤ 0x200000))

/-- Step 5 of R155: SHA-384 of the image with the digest taken as zero. -/
def imgDigestOk (img : List Byte) : Bool :=
  shaDigest 1 (img.take 0xC0 ++ List.replicate 48 0 ++ img.drop 0xF0) = imgDigest img

/-- Steps 1 to 8 of R155: the number of the first that fails and its status. -/
def State.imgCheck (s : State) (declared : Nat) (img : List Byte) : Option (Nat × Nat) :=
  if imgLen img ≠ declared || img.length ≠ declared then some (1, St.lengthMismatch)
  else if !imgPairsOk img then some (2, St.complementMismatch)
  else if !imgReservedOk img then some (3, St.invalidField)
  else if s.revision < 16 * bits (imgWord img 8) 23 20 + bits (imgWord img 8) 19 16 then some (4, St.invalidField)
  else if !imgDigestOk img then some (5, St.invalidField)
  else if !imgRangesOk img then some (6, St.invalidField)
  else if !imgBindingsOk img then some (7, St.invalidField)
  else if !imgBenchOk img then some (8, St.invalidField)
  else none

/-- The handle of a slot (R273). -/
def imageHandle (i : Nat) (m : Image) : Nat := 256 * m.gen + i

/-- The installed image a handle names; a stale or unknown handle names none (R273). -/
def State.imageOf (s : State) (h : Nat) : Option Image :=
  (s.image (h % 256)).filter (fun m => !m.removed && m.gen = h / 256)

/-- INSTALL_PROGRAM with an image delivered by the host and staged at `at'` (R155, R156, R273, R275). A broken pair is recorded as well
(R39), in the fields that R155 gives for step 5 (DEDUCED, assumption 121). -/
def State.install (s : State) (tag : Nat) (host : HostRead) (at' : Nat) : State :=
  match s.running? tag 0x45 with
  | none => s
  | some c =>
    if c.flags.testBit 0 then s
    else
      match host with
      | .denied => (s.aer c.fn .readRefused).complete tag St.accessDenied 0
      | .poisoned => (s.aer c.fn .readPoisoned).complete tag St.poisonedData 0
      | .data img =>
        match s.imgCheck c.len img with
        | some (step, st) =>
          let s :=
            if step = 2 || step = 5 then
              s.report
                { status := st, target := Tgt.headstock, severity := 2, master := Mid.headstock 0,
                  address := at', tag := tag, detail := 0 }
            else s
          s.complete tag st 0
        | none =>
          match (List.range 256).find? (fun i =>
              match s.image i with | some m => !m.removed && imgDigest m.bytes = imgDigest img | none => false) with
          | some i => s.complete tag St.ok (((s.image i).map (imageHandle i)).getD 0)
          | none =>
            let total := s.images.foldl (fun n e => match e.2 with | some m => n + m.bytes.length | none => n) 0
            match (List.range 256).find? (fun i => (s.image i).isNone) with
            | none => s.complete tag St.tableFull 0
            | some i =>
              if 2 ^ 30 < total + img.length then s.complete tag St.tableFull 0
              else
                let (st, s) := s.hdsWrite at' img
                if st = St.held then s
                else if st ≠ St.ok then s.complete tag st 0
                else
                  let g := FMap.getD s.imageGens i
                  let m : Image := ⟨g, img, at', false⟩
                  State.complete
                    { s with images := FMap.setD s.images i (some m), imageGens := FMap.setD s.imageGens i ((g + 1) % 256) }
                    tag St.ok (imageHandle i m)

/-- INSTALL_PROGRAM with REMOVE (R273). -/
def State.removeImage (s : State) (tag : Nat) : State :=
  match s.running? tag 0x45 with
  | none => s
  | some c =>
    if !c.flags.testBit 0 then s
    else
      let h := c.arg 0x20 2
      match s.imageOf h with
      | none => s.complete tag St.invalidField 0
      | some m =>
        let s := { s with images := FMap.setD s.images (h % 256) (some { m with removed := true }) }
        s.freeImages.complete tag St.ok h

end Sys2Proof.Machine
end

