-- ==== Sys2Proof/Machine/Tiles.lean ====
section
/-! DEFINITION. Control of the tiles through their TIL registers (R85, R87, R95, R96, R486): running, halting, window words and
the debug view of a halted tile. -/

namespace Sys2Proof.Machine

/-- Local tile `n` is retired (R486). -/
def State.tileRetired (s : State) (n : Nat) : Bool := (s.rd64 Reg.GLB_TILE_RETIRED_LO).testBit n

/-- RUN = 1: the tile starts or resumes at TILn_PC (R95, R96). -/
def State.tileStart (s : State) (n : Nat) : State :=
  let s := s.setFld (Reg.TIL_CTL n) 0 0 1
  let s := s.setCore n { s.core n with stepping := false }
  let s := if s.pllStopped n then s.relockPll (tileQuadrant n) else s.ungate n
  s.setFld (Reg.TIL_STATUS n) 3 0 0

/-- TILE_RUN: a write of RUN = 1 by master `m`; a retired tile ignores it (R95, R486). -/
def State.tileRun (s : State) (m n : Nat) : State :=
  if s.tileRetired n then s.refuse m (Reg.TIL_CTL n) St.accessDenied else s.tileStart n

/-- TILE_HALT: a write of RUN = 0 asks for a halt at the next instruction boundary (R96). -/
def State.tileHalt (s : State) (n : Nat) : State := s.setFld (Reg.TIL_CTL n) 0 0 0

/-- A halt has been asked for and has not taken effect. -/
def State.tileHalting (s : State) (n : Nat) : Bool :=
  !s.bit (Reg.TIL_CTL n) 0 && s.fld (Reg.TIL_STATUS n) 3 0 = 0 && !(s.core n).stepping

/-- TILE_HALTED: every store and VSEND of a halting tile has performed, and STOP changes (R93, R96). -/
def State.tileHalted (s : State) (n : Nat) : State :=
  if s.tileHalting n && (s.core n).vsent = 0 && !s.unperformed n then
    match (s.core n).imprecise with
    | some i => s.raiseImprecise n i
    | none => s.tileStop n 1 (s.core n).pc
  else s

/-- Word `i` of window `w` of a tile is written with `v`, its pair whole: a value that would leave a valid window inconsistent
is refused, CTRL then taking it with VALID 0 (R85). -/
def State.windowWrite (s : State) (m n w i : Nat) (v : DWord) : State :=
  let off := 0x801000 + 0x10000 * n + 0x20 * w + 8 * i
  let k := s.core n
  let put (x : DWord) : State := s.setCore n { k with win := FMap.setD k.win (4 * w + i) x }
  if w = 15 then s
  else if windowOk (fun j => s.winWord n w j) i v then put (windowBits i v)
  else if i = 3 then (put (windowBits 3 v &&& 0x1E)).refuse m off St.invalidField
  else s.refuse m off St.invalidField

/-- A write of a whole pair that shows a halted core's state: TILn_PC, TILn_Xx or TILn_VCFG (R96, R103, R127). -/
def State.tilePair (s : State) (m n o : Nat) (v : DWord) : State :=
  let k := s.core n
  if o = 0x20 then s.setCore n { k with pc := BitVec.ofNat 48 (v.toNat / 4 * 4) }
  else if o = 0x300 then
    if vcfgOk v.toNat then s.setCore n { k with vcfg := VCfg.ofWord v.toNat }
    else s.refuse m (Reg.TIL_VCFG_LO n) St.invalidField
  else s.setCore n (k.setX ((o - 0x100) / 8) v)

/-- A write of one word of SFLAGS, a predicate register or a vector register of a halted tile (R96, R127). -/
def State.tileWord (s : State) (n o : Nat) (v : Word) : State :=
  let k := s.core n
  if o = 0x200 then s.setCore n { k with sflags := BitVec.ofNat 3 v.toNat }
  else if o < 0x800 then
    let i := (o - 0x400) / 0x40
    let b := 8 * (o % 0x40)
    s.setCore n { k with p := FMap.setD k.p i (BitVec.ofNat 512 (setBits (FMap.getD k.p i).toNat (b + 31) b v.toNat)) }
  else
    let i := (o - 0x4000) / 0x200
    let b := 8 * (o % 0x200)
    s.setCore n { k with v := FMap.setD k.v i (BitVec.ofNat 4096 (setBits (FMap.getD k.v i).toNat (b + 31) b v.toNat)) }

/-- Every L1 line of a tile is discarded, and its decoder contexts stay (R160). -/
def State.tileFlush (s : State) (n : Nat) : State := (s.dropL1 n true).dropL1 n false

/-- TILE_RETIRE: the bits `v` written to the pair GLB_TILE_RETIRED; refused as a whole when a tile newly named is not halted or
is held by a RUN (R486, R490). -/
def State.tileRetire (s : State) (m v : Nat) (heldBy : Nat → Bool) : State :=
  if (List.range 64).any (fun t => v.testBit t && !s.tileRetired t && (!s.halted t || heldBy t)) then
    s.refuse m Reg.GLB_TILE_RETIRED_LO St.invalidField
  else s.wr64 Reg.GLB_TILE_RETIRED_LO (s.rd64 Reg.GLB_TILE_RETIRED_LO ||| v % 2 ^ 64)

/-- The runtime of the BACK has retired the tiles of `v` by its own GLB_TILE_RETIRED, and that of the FRONT learns of it; the BACK
retires none that a RUN holds (R403, R486, R490). How the halves' runtimes tell each other is theirs (DESIGN CHOICE, assumption 120). -/
def State.peerRetire (s : State) (v : Nat) (heldBy : Nat → Bool) : State :=
  if s.role ≠ some false || (List.range 64).any (fun t => v.testBit t && heldBy (64 + t)) then s
  else { s with peerRetired := s.peerRetired ||| v % 2 ^ 64 }

end Sys2Proof.Machine
end

