-- ==== Sys2Proof/Machine/Pipeline.lean ====
section
/-! DEFINITION. RUNs (R157 to R172): what an instance sees, placement, stages, channels, sinks and endings. -/

namespace Sys2Proof.Machine

/-- The RUN of tag `t`, if Headstock has taken it. -/
def State.run (s : State) (t : Nat) : Option Run := FMap.getD s.runs t

/-- The RUN of tag `t` becomes `r`. -/
def State.setRun (s : State) (t : Nat) (r : Option Run) : State := { s with runs := FMap.setD s.runs t r }

/-- The image a RUN uses. -/
def State.runImage (s : State) (r : Run) : List Byte := ((s.image r.image).map (·.bytes)).getD []

/-- Tile `t` has elements on their way to a sink. -/
def State.sinkPending (s : State) (t : Nat) : Bool := s.noc.any (fun m => m.sender = t && (m.kind = 2 || m.kind = 3))

/-- An instance holds its tile: it has not ended, or its last elements have not reached a sink. -/
def State.instHolds (s : State) (i : Inst) : Bool := i.fid.isNone && (!i.ended || s.sinkPending i.tile)

/-- A RUN holds pair tile `t` (R159). -/
def State.tileHeld (s : State) (t : Nat) : Bool :=
  s.runs.any (fun e => match e.2 with | some r => r.insts.any (fun i => i.tile = t && s.instHolds i) | none => false)

/-- The tiles in service that no RUN holds (R159). -/
def State.freeTiles (s : State) : List Nat := s.tilesInService.filter (fun t => !s.tileHeld t)

/-- The fragments of a stage with their numbers. -/
def stageFrags (img : List Byte) (st : Nat) : List (Nat × Frag) :=
  (imgFragList img).zipIdx.filterMap (fun (f, i) => if f.stage = st then some (i, f) else none)

/-- The sum of MIN_INST of a stage (R159). -/
def stageMin (img : List Byte) (st : Nat) : Nat := ((stageFrags img st).map (·.2.minInst)).foldl (· + ·) 0

/-- The last stage that has a fragment. -/
def lastStage (img : List Byte) : Nat := ((imgFragList img).map (·.stage)).foldl max 0

/-- The counts n[f] of a stage placed on `free` tiles, before the ONE bindings (R159). -/
def countFrags : Nat → List (Nat × Frag) → List (Nat × Nat)
  | _, [] => []
  | rem, (i, f) :: fs =>
    let n := f.minInst + min (f.maxInst - f.minInst) rem
    (i, n) :: countFrags (rem - (n - f.minInst)) fs

/-- The count of fragment `f`. -/
def countOf (ns : List (Nat × Nat)) (f : Nat) : Nat := ((ns.find? (fun p => p.1 = f)).map (·.2)).getD 0

/-- One pass of the ONE bindings over the counts (R159). -/
def levelOnce (img : List Byte) (ns : List (Nat × Nat)) : List (Nat × Nat) :=
  ((imgBindList img).filter (fun b => b.pattern = 0)).foldl
    (fun ns b =>
      let m := min (countOf ns b.src) (countOf ns b.dst)
      ns.map (fun p => if p.1 = b.src || p.1 = b.dst then (p.1, m) else p)) ns

/-- The passes repeated until nothing changes; each lowers the sum of at most 128 per fragment. -/
def levelCounts (img : List Byte) : Nat → List (Nat × Nat) → List (Nat × Nat)
  | 0, ns => ns
  | k + 1, ns => if levelOnce img ns = ns then ns else levelCounts img k (levelOnce img ns)

/-- The instance counts of a stage (R159). -/
def stageCounts (img : List Byte) (st free : Nat) : List (Nat × Nat) :=
  levelCounts img 8192 (countFrags (free - stageMin img st) (stageFrags img st))

/-! Areas (R157, R161): the shared area, the spill areas, then code and launch blocks. -/

def mib : Nat := 2 ^ 20

/-- The spill areas a fragment is given (R161). -/
def spillCount (tiles : Nat) (f : Frag) : Nat := min f.maxInst tiles

/-- Where fragment `f`'s spill areas begin in a RUN's room. -/
def spillAt (img : List Byte) (tiles room f : Nat) : Nat :=
  room + mib * imgShared img
    + (((imgFragList img).take f).map (fun g => mib * g.spillMib * spillCount tiles g)).foldl (· + ·) 0

/-- Where fragment `f`'s code lies in a RUN's room. -/
def codeAt (img : List Byte) (tiles room f : Nat) : Nat := spillAt img tiles room (imgFrags img) + mib * f

/-- Where the launch block of the instance numbered `i` on this node lies. -/
def launchAt (img : List Byte) (tiles room f i : Nat) : Nat := codeAt img tiles room 64 + 0x2000 * (128 * f + i)

/-- `n` rounded up to a multiple of 4 KiB. -/
def up4k (n : Nat) : Nat := (n + 4095) / 4096 * 4096

/-- The smallest range of 4 KiB pages that holds every listed (DPA, length), if any is listed. -/
def hullOf (ps : List (Nat × Nat)) : Option (Nat × Nat) :=
  (ps.filter (fun p => p.2 ≠ 0)).foldl
    (fun h p =>
      let lo := p.1 / 4096 * 4096
      let hi := up4k (p.1 + p.2)
      some (match h with | some (a, b) => (min a lo, max b hi) | none => (lo, hi))) none

/-- The catalog region (R62, R156, R157): descriptors, arrays and images. -/
def State.catalogHull (s : State) : Option (Nat × Nat) :=
  hullOf
    (s.tables.flatMap (fun e =>
        match e.2 with
        | some t =>
          (t.at', 64) :: (t.colsAt, 32 * t.allFmts.length) :: t.segsAt.map (fun a => (a, 128 * t.nseg))
        | none => [])
      ++ s.images.filterMap (fun e => e.2.map (fun m => (m.dpa, m.bytes.length))))

/-- The space store of a space (R157): the extent that holds its tables' segment data. -/
def State.spaceHull (s : State) (sp : Nat) : Option (Nat × Nat) :=
  hullOf
    (s.tables.flatMap (fun e =>
      match e.2 with
      | some t =>
        if e.1 / 65536 = sp then
          t.segs.flatMap (fun g =>
            match g.2 with
            | some v => (v.cols.zip t.allFmts).map (fun (k, f) => (k.dpa, up64 k.len + (if fmtNullable f then 8192 else 0)))
            | none => [])
        else []
      | none => []))

/-- The words of a window over `n` bytes: PBASE, PLIM, DBASE and CTRL; none where there is nothing to map. -/
def windowFor (pa dpa n ctrl : Nat) : List DWord :=
  if n = 0 then [0, 0, 0, 0]
  else [BitVec.ofNat 64 pa, BitVec.ofNat 64 (pa + up4k n - 4096), BitVec.ofNat 64 dpa, BitVec.ofNat 64 ctrl]

/-- A window in the data view (R157). -/
def viewWindow (h : Option (Nat × Nat)) (ctrl : Nat) : List DWord :=
  match h with
  | some (lo, hi) => windowFor (lo + 0x400000000000) lo (hi - lo) ctrl
  | none => [0, 0, 0, 0]

/-- The table IDs a parameter block names (R272). -/
def blockTables (b : List Byte) : List Nat :=
  (List.range 16).filterMap (fun i =>
    let w := fieldLE b (4 * i) 4
    if w.testBit 31 then some (bits w 23 0) else none)

/-- The spaces of the tables named, in the order named. -/
def blockSpaces (b : List Byte) : List Nat :=
  (blockTables b).foldl (fun l t => if l.contains (t / 65536) then l else l ++ [t / 65536]) []

/-- The number of an instance among those of its fragment on its node: which of the node's areas are its own (R161). -/
def Run.ordinal (r : Run) (i : Inst) : Nat :=
  (r.insts.filter (fun j => j.frag = i.frag && j.fid = i.fid && decide (j.index < i.index))).length

/-- Where an instance's spill area lies (R161). -/
def Run.spillOf (r : Run) (img : List Byte) (i : Inst) : Nat :=
  spillAt img r.tiles r.room i.frag + mib * (imgFrag img i.frag).spillMib * r.ordinal i

/-- Where an instance's launch block lies. -/
def Run.launchOf (r : Run) (img : List Byte) (i : Inst) : Nat := launchAt img r.tiles r.room i.frag (r.ordinal i)

/-- The windows 0 to 14 of an instance (R157). -/
def State.instWindows (s : State) (r : Run) (i : Inst) : List (List DWord) :=
  let img := s.runImage r
  let f := imgFrag img i.frag
  let spaces := blockSpaces r.block
  [ windowFor 0 (codeAt img r.tiles r.room i.frag) f.codeLen 0x0B,
    windowFor 0x100000000 (r.launchOf img i) 0x2000 0x03,
    viewWindow s.catalogHull 0x03 ]
    ++ (List.range 8).map (fun k =>
      match spaces[k]? with | some sp => viewWindow (s.spaceHull sp) 0x13 | none => [0, 0, 0, 0])
    ++ [ windowFor 0x200000000 (r.spillOf img i) (mib * f.spillMib) 0x07,
         windowFor 0x300000000 r.room (mib * imgShared img) 0x07, [0, 0, 0, 0], [0, 0, 0, 0] ]

/-- The nodes of a RUN: fabric ID and snapshot epoch (R272). -/
def runNodesOf (entry block : List Byte) : List (Nat × Nat) :=
  (List.range (fieldLE entry 0x3C 1)).map (fun i => (bits (fieldLE block (0x140 + 16 * i) 4) 17 0, fieldLE block (0x148 + 16 * i) 8))

/-- The nodes of a RUN that Headstock has taken. -/
def runNodes (c : Cmd) (r : Run) : List (Nat × Nat) := runNodesOf c.entry r.block

/-- This node's index among a RUN's nodes. -/
def State.nodeIndex (s : State) (ns : List (Nat × Nat)) : Nat := ns.findIdx (fun n => s.ownFid = some n.1)

/-- The launch block of an instance and its parameters (R158). -/
def State.launchBlock (s : State) (c : Cmd) (r : Run) (i : Inst) : List Byte :=
  let img := s.runImage r
  let n := (r.insts.filter (fun j => j.frag = i.frag)).length
  let ns := runNodes c r
  let node := 2 ^ 32 * (if ns.isEmpty then 1 else ns.length) + 2 ^ 24 * (if ns.isEmpty then 0 else s.nodeIndex ns) + s.srcFid
  let tabs := blockTables r.block
  natLE 8 (2 ^ 40 * r.stage + 2 ^ 32 * i.frag + 2 ^ 16 * n + i.index) ++ natLE 8 c.epoch
    ++ natLE 8 (if imgTableOut img then c.arg 0x30 8 else 0) ++ natLE 8 node ++ natLE 8 (r.deadline.getD 0)
    ++ List.replicate 24 (0 : Byte)
    ++ (List.range 16).flatMap (fun k =>
      natLE 8 (match c.descs[k]? with | some a => (if k < tabs.length then a + 0x400000000000 else 0) | none => 0))
    ++ List.replicate 3904 (0 : Byte) ++ subBytes r.block 0x240 (imgParamLen img)

/-! Channels (R154, R162, R163). -/

/-- The instances of a fragment in index order. -/
def Run.of (r : Run) (f : Nat) : List Inst := r.insts.filter (fun i => i.frag = f)

/-- The channel pairs of a tile-to-tile binding: sender, outbound channel, receiver, inbound channel (R154). -/
def Run.pairsOf (r : Run) (b : Binding) : List (Inst × Nat × Inst × Nat) :=
  let ss := r.of b.src
  let ds := r.of b.dst
  match b.pattern with
  | 0 => (ss.zip ds).map (fun (a, d) => (a, b.outBase, d, b.inBase))
  | 1 => (match ds with | d :: _ => ss.map (fun a => (a, b.outBase, d, b.inBase + a.index)) | [] => [])
  | 2 => ss.flatMap (fun a => ds.map (fun d => (a, b.outBase + d.index, d, b.inBase + a.index)))
  | 3 => ss.flatMap (fun a => ds.map (fun d => (a, b.outBase + d.index, d, b.inBase)))
  | _ => []

/-- The bytes of inbound buffers of a fragment laid out before binding `k`'s first (R162). -/
def buffersBefore (img : List Byte) (f k : Nat) : Nat :=
  let fs := imgFragList img
  ((imgBindList img).take k).foldl (fun n b => if b.pattern < 4 && b.dst = f then n + 256 * b.buf * (bindIns fs b).length else n) 0

/-- Where inbound channel `c` of binding `k` has its buffer in its receiver's bench, in 256-byte units (R162). -/
def bufferBase (img : List Byte) (k : Nat) (b : Binding) (c : Nat) : Nat :=
  (1024 * (imgFrag img b.dst).benchKib + buffersBefore img b.dst k) / 256 + b.buf * (c - b.inBase)

/-- Local tile of an instance of this node, if it is one. -/
def State.instTile (s : State) (i : Inst) : Option Nat := if i.fid.isNone then s.localTile i.tile else none

/-! Headstock reaches the TIL registers of the other half's tiles across the hinge (R172, R403). -/

/-- Headstock writes bytes at BAR0 offset `off` of the other half's tiles. -/
def State.peerPut (s : State) (off : Nat) (data : List Byte) : State :=
  { s with
    sent := s.sent ++ [.hinge 0
      { master := Mid.headstock 0, dpa := 0x20000000000 + off, len := data.length, kind := .write, data := data,
        stream := false } false] }

/-- Headstock writes the TIL register `reg` of pair tile `t`, whichever half has the tile. -/
def State.tilWr (s : State) (t : Nat) (reg : Nat → Nat) (v : Nat) : State :=
  match s.localTile t with
  | some n => s.wr (reg n) (BitVec.ofNat 32 v)
  | none => s.peerPut (reg t) (natLE 4 v)

/-- Where the generation of a channel of the other half's tile is kept. -/
def peerKey (t c : Nat) (inbound : Bool) : Nat := 64 * t + 32 * bit01 inbound + c

/-- The generation of channel `c` of pair tile `t` (R163). -/
def State.endGen (s : State) (t c : Nat) (inbound : Bool) : Nat :=
  match s.localTile t with
  | some n => if inbound then s.ichGen n c else s.ochGen n c
  | none => FMap.getD s.peerGens (peerKey t c inbound)

/-- Headstock resets channel `c` of pair tile `t` (R165). -/
def State.endReset (s : State) (t c : Nat) (inbound : Bool) (status : Nat) : State :=
  match s.localTile t with
  | some n => s.channelReset n c inbound status
  | none => s.peerPut (if inbound then Reg.TIL_ICH_CTL t c else Reg.TIL_OCH_CTL t c) (natLE 4 (2 ^ 16 * status + 1))

/-- Headstock writes the CFG of channel `c` of pair tile `t` with generation `g` and the other bits `w`. -/
def State.endCfg (s : State) (t c : Nat) (inbound : Bool) (g w : Nat) : State :=
  let s := s.tilWr t (fun n => if inbound then Reg.TIL_ICH_CFG n c else Reg.TIL_OCH_CFG n c) (w + 2 ^ 27 * g)
  if (s.localTile t).isSome then s else { s with peerGens := FMap.setD s.peerGens (peerKey t c inbound) g }

/-! Configuring the channels (R162, R163). -/

/-- The next generation of a channel pair of this node: one past the greater of its ends', and one more where that is the other end's
own (R163). -/
def State.nextGen (s : State) (a : Inst) (oc : Nat) (d : Inst) (ic : Nat) : Nat :=
  let (x, y) := (s.endGen a.tile oc false, s.endGen d.tile ic true)
  let n := (max x y + 1) % 16
  if n = min x y then (n + 1) % 16 else n

/-- The generation of a channel pair: its own next one, or, where the pair spans nodes, the one `gen` that the nodes have agreed
for the stage (R163; DESIGN CHOICE, assumption 122). -/
def State.pairGen (s : State) (gen : Nat) (a : Inst) (oc : Nat) (d : Inst) (ic : Nat) : Nat :=
  if a.fid = d.fid then s.nextGen a oc d ic else gen

/-- `gen` is another generation than every end here of the channels that span nodes has (R163). -/
def State.genFits (s : State) (img : List Byte) (r : Run) (gen : Nat) : Bool :=
  (imgBindList img).all (fun b =>
    decide (4 ≤ b.pattern) || (imgFrag img b.src).stage ≠ r.stage
      || (r.pairsOf b).all (fun (a, oc, d, ic) =>
        a.fid = d.fid
          || ((a.fid.isSome || s.endGen a.tile oc false ≠ gen) && (d.fid.isSome || s.endGen d.tile ic true ≠ gen))))

/-- One channel pair is configured at whichever ends lie on this node. -/
def State.configPair (s : State) (img : List Byte) (k : Nat) (b : Binding) (gen : Nat) (p : Inst × Nat × Inst × Nat) : State :=
  let (a, oc, d, ic) := p
  let g := s.pairGen gen a oc d ic
  let remote := a.fid ≠ d.fid
  let cfg := 2 ^ 31 + 2 ^ 20 * b.esize + (if remote then 2 ^ 24 else 0)
  let here := s.ownFid.getD 0
  let s :=
    if a.fid.isSome then s
    else
      let s := s.endReset a.tile oc false 0
      let s :=
        s.tilWr a.tile (fun n => Reg.TIL_OCH_DEST n oc)
          ((if remote then 2 ^ 12 * (d.fid.getD here) else 0) + 2 ^ 5 * d.tile + ic)
      let s := s.tilWr a.tile (fun n => Reg.TIL_OCH_CREDIT n oc) (256 * b.buf / 2 ^ b.esize)
      s.endCfg a.tile oc false g cfg
  if d.fid.isSome then s
  else
    let s := s.endReset d.tile ic true 0
    let s :=
      s.tilWr d.tile (fun n => Reg.TIL_ICH_SRC n ic)
        ((if remote then 2 ^ 12 * (a.fid.getD here) else 0) + 2 ^ 5 * a.tile + oc)
    let s := s.tilWr d.tile (fun n => Reg.TIL_ICH_BUF n ic) (2 ^ 16 * b.buf + bufferBase img k b ic)
    s.endCfg d.tile ic true g cfg

/-- A HOST or COLUMN binding's outbound channel at each sender of this node (R162). -/
def State.configSink (s : State) (r : Run) (b : Binding) : State :=
  (r.of b.src).foldl
    (fun s a =>
      if a.fid.isSome then s
      else
        let g := (s.endGen a.tile b.outBase false + 1) % 16
        let s := s.endReset a.tile b.outBase false 0
        let s := s.tilWr a.tile (fun n => Reg.TIL_OCH_DEST n b.outBase) (bits b.arg 11 0)
        let s := s.tilWr a.tile (fun n => Reg.TIL_OCH_CREDIT n b.outBase) (65536 / 2 ^ b.esize)
        s.endCfg a.tile b.outBase false g (2 ^ 31 + 2 ^ 24 * (b.pattern - 2) + 2 ^ 20 * b.esize)) s

/-- The channels of a tile are reset with a status and closed to old traffic (R163, R168). -/
def State.resetChannels (s : State) (n status : Nat) : State :=
  let s :=
    (List.range 32).foldl
      (fun s c =>
        if s.ochValid n c then
          (s.channelReset n c false status).wr (Reg.TIL_OCH_CFG n c) (BitVec.ofNat 32 (2 ^ 27 * ((s.ochGen n c + 1) % 16)))
        else s) s
  (List.range 32).foldl
    (fun s c =>
      if s.ichValid n c then
        (s.channelReset n c true status).wr (Reg.TIL_ICH_CFG n c) (BitVec.ofNat 32 (2 ^ 27 * ((s.ichGen n c + 1) % 16)))
      else s) s

/-- Every channel of a tile of the other half is reset with a status and closed to old traffic (R163, R168). -/
def State.resetPeer (s : State) (t status : Nat) : State :=
  (List.range 32).foldl
    (fun s c =>
      [false, true].foldl
        (fun s inb => (s.endReset t c inb status).endCfg t c inb ((s.endGen t c inb + 1) % 16) 0) s) s

/-- Every channel of an instance's tile is reset, at whichever half has it. -/
def State.resetInst (s : State) (t status : Nat) : State :=
  match s.localTile t with
  | some n => s.resetChannels n status
  | none => s.resetPeer t status

/-- The channels of a RUN's present stage are configured: what an earlier instance left on a tile is reset, and a channel that no
binding names stays unconfigured (R160, R163). HOST and COLUMN bindings exist only on the coordinator, where the RUN has a tag
(R171). -/
def State.configChannels (s : State) (img : List Byte) (tag : Nat) (r : Run) (gen : Nat) : State :=
  (imgBindList img).zipIdx.foldl
    (fun s (b, k) =>
      if (imgFrag img b.src).stage ≠ r.stage then s
      else if b.pattern < 4 then (r.pairsOf b).foldl (fun s p => s.configPair img k b gen p) s
      else if tag < 8192 then s.configSink r b
      else s)
    ((r.insts.filter (fun i => i.fid.isNone)).foldl (fun s i => s.resetInst i.tile St.ok) s)

/-! Starting and ending. -/

/-- The core an instance starts with (R160). -/
def Core.launch (k : Core) (ws : List (List DWord)) (entry : Nat) : Core :=
  { k with
    x := []
    pc := BitVec.ofNat 48 entry
    sflags := 0
    vcfg := Core.reset.vcfg
    v := []
    p := []
    win := (ws.zipIdx.flatMap (fun (w, i) => w.zipIdx.map (fun (v, j) => (4 * i + j, v)))).foldl (fun m e => FMap.setD m e.1 e.2) []
    l1d := Cache.empty
    l1i := Cache.empty
    imprecise := none
    vsent := 0
    chWait := none }

/-- The RUN bit of a tile of the other half is written (R95, R96, R172). -/
def State.hingeRun (s : State) (t : Nat) (v : Nat) : State := s.peerPut (Reg.TIL_CTL t) (natLE 4 v)

/-- A tile of the other half is made ready for an instance and started (R160, R172): its caches are discarded, its windows and
registers written, and RUN set. -/
def State.startPeer (s : State) (t : Nat) (ws : List (List DWord)) (entry : Nat) : State :=
  let put (s : State) (p : Nat × List Byte) : State := s.peerPut p.1 p.2
  let zeros (l : List Nat) : List (Nat × List Byte) := l.map (fun o => (o, natLE 4 0))
  (((Reg.TIL_L1_CTL t, natLE 4 3) ::
      ws.zipIdx.flatMap (fun (w, i) => w.zipIdx.map (fun (v, j) => (Reg.TIL_WIN_PBASE_LO t i + 8 * j, natLE 8 v.toNat))))
    ++ zeros ((List.range 31).flatMap (fun x => [Reg.TIL_X_LO t x, Reg.TIL_X_HI t x]))
    ++ zeros [Reg.TIL_SFLAGS t, Reg.TIL_VCFG_LO t, Reg.TIL_VCFG_HI t]
    ++ zeros ((List.range 16).flatMap (fun p => (List.range 16).map (fun w => Reg.TIL_P_W t p w)))
    ++ zeros ((List.range 32).flatMap (fun v => (List.range 128).map (fun w => Reg.TIL_V_W t v w)))
    ++ [(Reg.TIL_PC_LO t, natLE 8 entry), (Reg.TIL_CTL t, natLE 4 1)]).foldl put s

/-- One instance is started (R160). -/
def State.startInst (s : State) (c : Cmd) (r : Run) (i : Inst) : State :=
  let img := s.runImage r
  let f := imgFrag img i.frag
  if i.fid.isSome then s
  else
    let (_, s) := s.hdsWrite (r.launchOf img i) (s.launchBlock c r i)
    let s := if f.spillMib = 0 then s else s.scramble (Mid.headstock 0) (r.spillOf img i) (mib * f.spillMib)
    match s.localTile i.tile with
    | none => s.startPeer i.tile (s.instWindows r i) f.entry
    | some n =>
      let s := s.blur (benchAt n 0) (benchAt n 0 + 0x200000)
      let s := s.setCore n ((s.core n).launch (s.instWindows r i) f.entry)
      s.tileStart n

/-- Instance `i` of a RUN has ended. -/
def Run.markEnded (r : Run) (t : Nat) : Run :=
  { r with insts := r.insts.map (fun i => if i.tile = t && i.fid.isNone then { i with ended := true } else i) }

/-- The RUN that has an instance of this node on pair tile `t` which has not ended. -/
def State.liveRun (s : State) (t : Nat) : Option (Nat × Run) :=
  (s.runs.find? (fun e =>
    match e.2 with | some r => r.insts.any (fun i => i.tile = t && i.fid.isNone && !i.ended) | none => false)).bind
      (fun e => e.2.map (fun r => (e.1, r)))

/-- A tile has stopped with END: the channels of its instance are closed, and once they are it has ended (R164). The FRONT's RUN has
the instances of a BACK's tiles. -/
def State.instEnded (s : State) (n : Nat) : State :=
  if s.role = some true then (s.closeAll n).2
  else
    match s.liveRun (s.pairTile n) with
    | some (tag, r) =>
      let (closed, s) := s.closeAll n
      if closed then s.setRun tag (some (r.markEnded (s.pairTile n))) else s
    | none => s

/-- Tiles that stopped with END while an end marker waited for a transaction tag place it now (R164, R388). -/
def State.closeWaiting (s : State) : State :=
  (List.range 64).foldl (fun s n => if s.fld (Reg.TIL_STATUS n) 3 0 = 2 then s.instEnded n else s) s

/-- Every instance of the stage has ended, on every node of the RUN (R160, R171). -/
def Run.stageOver (r : Run) : Bool :=
  r.phase = .running && r.insts.all (fun i => match i.fid with | some f => r.heard.contains f | none => i.ended)

/-- The fabric IDs of the other nodes that have a part of a RUN (R171). -/
def State.runPeers (s : State) (c : Cmd) (r : Run) : List Nat :=
  ((runNodes c r).map (·.1)).filter (fun f => s.ownFid ≠ some f)

/-- The nodes still to be told that a RUN ends, where this node is its coordinator (R168, R171). -/
def State.untold (s : State) (tag : Nat) (r : Run) : List Nat :=
  match s.cmd tag with
  | some c => if tag < 8192 then (s.runPeers c r).filter (fun f => !r.told.contains f) else []
  | none => []

/-- The runtime submits 64 bytes to another node for the RUN of `tag` (R171, R387); the answer says whether a transaction tag was
free, and with what status no route took the packet. -/
def State.sendPart (s : State) (tag fid : Nat) (kind : Nat) (digest : List Byte) (a b : Nat) : Option (Option Nat × State) :=
  match s.freeTag with
  | none => none
  | some t =>
    let k :=
      { Packet.plain 3 0 s.srcFid fid t 64 with
        aux := Config.partQueue.toNat
        payload := (List.range 64).map (Config.partByte kind digest a b) }
    match s.sendPacket k with
    | (.error st, s) => some (some st, s)
    | (.ok port, s) => some (none, s.openTx t port (.part tag))

/-- The nodes of an ending RUN that have not been told are told, as far as transaction tags are free (R168, R171). -/
def State.tellParts (s : State) (tag status : Nat) : State :=
  match s.run tag with
  | none => s
  | some r =>
    (s.untold tag r).foldl
      (fun s f =>
        match s.run tag, s.sendPart tag f 1 (imgDigest (s.runImage r)) status 0 with
        | some q, some (st, s') =>
          s'.setRun tag (some { q with told := f :: q.told, heard := if st.isSome then f :: q.heard else q.heard })
        | _, _ => s) s

/-- A RUN begins to end with a status: its tiles are told to halt, on every node (R168). -/
def State.runStop (s : State) (tag : Nat) (r : Run) (status : Nat) : State :=
  let s := s.setRun tag (some { r with phase := .ending status, heard := [], halted := [], told := [] })
  let s :=
    r.insts.foldl
      (fun s i =>
        if i.ended || i.fid.isSome then s
        else match s.localTile i.tile with | some n => s.tileHalt n | none => s.hingeRun i.tile 0) s
  s.tellParts tag status

/-- A RUN is over: its tiles, areas and image are let go, and it completes (R168, R273). -/
def State.runOver (s : State) (tag : Nat) (status result : Nat) : State :=
  ((s.setRun tag none).complete tag status result).freeImages

/-! What Headstock learns of the other half's tiles (R172, R311, R403). -/

/-- Headstock reads a TIL register of the other half's tile `t`: its STATUS, or then its EXC_DETAIL. -/
def State.askPeer (s : State) (t : Nat) (detail : Bool) : State :=
  if s.txs.any (fun x => x.kind = .stop t false || x.kind = .stop t true) then s
  else
    match s.freeTag with
    | none => s
    | some tag =>
      State.openTx
        { s with
          sent := s.sent ++ [.hinge tag
            { master := Mid.headstock 0
              dpa := 0x20000000000 + (if detail then Reg.TIL_EXC_DETAIL t else Reg.TIL_STATUS t)
              len := 4
              kind := .read
              data := []
              stream := false } false] }
        tag 16 (.stop t detail)

/-- The stop of a tile of the other half is signalled: Headstock reads its STATUS where an instance runs there (R168, R311). -/
def State.peerStopped (s : State) (t : Nat) : State :=
  if s.role = some false && 64 ≤ t && (s.liveRun t).isSome then s.askPeer t false else s

/-- Every tile of the other half that an instance has not left is asked (R168). -/
def State.askPeers (s : State) (r : Run) : State :=
  r.insts.foldl
    (fun s i => if i.fid.isNone && !i.ended && !r.halted.contains i.tile then s.peerStopped i.tile else s) s

/-- Headstock's read of a tile of the other half is answered: STOP 2 is an END, 3 an exception, which ends the RUN with the status that
EXC_DETAIL holds, and any stop is the halt that an ending RUN waits for (R95, R164, R168). -/
def State.peerAnswer (s : State) (t : Nat) (detail : Bool) (st w : Nat) : State :=
  match s.liveRun t with
  | none => s
  | some (tag, r) =>
    if st ≠ St.ok then s
    else if detail then
      match r.phase with
      | .ending _ => s
      | _ =>
        let st := bits w 31 16
        s.runStop tag (r.markEnded t) (if st = St.ok then St.programFault else st)
    else
      match r.phase, w % 16 with
      | _, 0 => s
      | .ending _, _ => s.setRun tag (some { r with halted := t :: r.halted })
      | _, 2 => s.setRun tag (some (r.markEnded t))
      | _, 3 => s.askPeer t true
      | _, _ => s

/-- The local tiles of a RUN's stage, but for those that an ended instance gave up and another RUN holds (R159, R168). -/
def State.runTiles (s : State) (tag : Nat) (r : Run) : List Nat :=
  (r.insts.filter (fun i =>
      !s.runs.any (fun e =>
        e.1 ≠ tag && (match e.2 with | some q => q.insts.any (fun j => j.tile = i.tile && s.instHolds j) | none => false)))).filterMap
    s.instTile

/-- The instances of a RUN on tiles of the other half that had not ended by themselves. -/
def State.peerInsts (s : State) (r : Run) : List Inst :=
  r.insts.filter (fun i => i.fid.isNone && !i.ended && (s.localTile i.tile).isNone)

/-- Every tile of an ending RUN has halted, on every node (R168). -/
def State.runHalted (s : State) (tag : Nat) (r : Run) : Bool :=
  !(s.runTiles tag r).any (fun n => s.fld (Reg.TIL_STATUS n) 3 0 = 0 || s.bit (Reg.TIL_CTL n) 0)
    && (s.peerInsts r).all (fun i => r.halted.contains i.tile)
    && (decide (8192 ≤ tag) || r.insts.all (fun i => match i.fid with | some f => r.heard.contains f | none => true))
    && (s.untold tag r).isEmpty

/-- Steps 3 and 4 of R168, once every tile of the RUN has halted. -/
def State.runFinish (s : State) (tag : Nat) (r : Run) (status : Nat) : State :=
  let tiles := s.runTiles tag r
  if !s.runHalted tag r then (s.askPeers r).tellParts tag status
  else
    let s := tiles.foldl (fun s n => s.resetChannels n status) s
    let s := (s.peerInsts r).foldl (fun s i => s.resetPeer i.tile status) s
    let s := { s with noc := s.noc.filter (fun m => !((m.kind = 2 || m.kind = 3) && tiles.contains m.sender)) }
    s.runOver tag status 0

/-- The stop that Headstock observes first among a RUN's tiles: the lowest with STOP = 3 (R168). -/
def State.stoppedTile (s : State) (r : Run) : Option Nat :=
  (List.range 64).find? (fun n =>
    r.insts.any (fun i => s.instTile i = some n && !i.ended) && s.fld (Reg.TIL_STATUS n) 3 0 = 3)

/-- Node `f` reports that its tiles of the present stage are over, or, of an ending RUN, that they have halted (R168, R171). -/
def Run.hear (r : Run) (f : Nat) : Run := if r.insts.any (fun i => i.fid = some f) then { r with heard := f :: r.heard } else r

/-- The end of a RUN with the status of its stopped tile `n` (R94, R168). -/
def State.runFault (s : State) (tag : Nat) (r : Run) (n : Nat) : State :=
  let st := s.fld (Reg.TIL_EXC_DETAIL n) 31 16
  let st := if st = St.ok then St.programFault else st
  let s := s.runStop tag r st
  match s.run tag with
  | some r => s.runFinish tag r st
  | none => s

/-- RUN_END: a RUN with a stopped tile ends with the status of its cause, one with a failed sink or part with `status`, and
one already ending finishes once its tiles have halted (R94, R168, R171). With a `node` it is that node's report of its part. -/
def State.runEnd (s : State) (tag status : Nat) (node : Option Nat) : State :=
  match s.run tag with
  | none => s
  | some r =>
    match r.phase, node with
    | .ending st, some f =>
      let r := r.hear f
      (s.setRun tag (some r)).runFinish tag r st
    | .ending st, none => s.runFinish tag r st
    | _, _ =>
      match s.stoppedTile r with
      | some n => s.runFault tag r n
      | none =>
        if status ≠ St.ok then s.runStop tag r status
        else
          match node with
          | some f => s.setRun tag (some (r.hear f))
          | none => s.askPeers r

/-- The next stage after `st` that has a fragment. -/
def nextStage (img : List Byte) (st : Nat) : Option Nat :=
  (rangeFrom (st + 1) 16).find? (fun k => !(stageFrags img k).isEmpty)

/-- The last instance of a RUN's last stage has ended, and every sink has written its data (R170). -/
def State.runDone (s : State) (r : Run) : Bool :=
  r.stageOver && (nextStage (s.runImage r) r.stage).isNone && !r.insts.any (fun i => i.fid.isNone && s.sinkPending i.tile)

/-- A RUN without table output has passed its commit point: it only has to complete (R170). -/
def State.runPast (s : State) (r : Run) : Bool :=
  !imgTableOut (s.runImage r) && s.runDone r

/-- A command is stopped before its commit point: a RUN under R168, any other at once (R40, R275). -/
def State.stopCmd (s : State) (tag status : Nat) : State :=
  match s.run tag with
  | some r => (match r.phase with | .ending _ => s | _ => if s.runPast r then s else s.runStop tag r status)
  | none => s.complete tag status 0

/-- RUN_TIME_LIMIT (R169). -/
def State.runLimit (s : State) (tag : Nat) : State :=
  match s.run tag with
  | some r =>
    if r.phase = .running && !(r.stageOver && r.stage = lastStage (s.runImage r)) then
      (s.atTime (r.deadline.getD 0)).runStop tag r St.programTimeout
    else s
  | none => s

/-- The stage of a RUN begins to wait for tiles (R159). -/
def State.stageWait (s : State) (tag : Nat) (r : Run) (st : Nat) : State :=
  State.setRun { s with waits := s.waits + 1 } tag
    (some { r with stage := st, since := s.waits, waitFrom := s.time.toNat, phase := .waiting, insts := [], heard := [] })

/-- The coordinator submits a part to each other node, naming the image by DIGEST and the node's own epoch; a node that no route leads
to ends the RUN (R70, R171). -/
def State.submitParts (s : State) (tag : Nat) (c : Cmd) (r : Run) (peers : List Nat) : State :=
  peers.foldl
    (fun s f =>
      let epoch := (((runNodes c r).find? (fun n => n.1 = f)).map (·.2)).getD 0
      match s.sendPart tag f 0 (imgDigest (s.runImage r)) epoch tag with
      | some (some st, s) => (match s.run tag with | some q => (match q.phase with | .ending _ => s | _ => s.runStop tag q st) | none => s)
      | some (none, s) => s
      | none => s) s

/-- RUN: Headstock takes a RUN whose Clamps are granted and whose parameter block the host has delivered (R157 to R161,
R272); `room` is where its areas lie, none where HBM has no room. -/
def State.runTake (s : State) (tag : Nat) (params : HostRead) (room : Option Nat) : State :=
  match s.running? tag 0x44 with
  | none => s
  | some c =>
    if (s.run tag).isSome then s
    else
      match params with
      | .denied => (s.aer c.fn .readRefused).complete tag St.accessDenied 0
      | .poisoned => (s.aer c.fn .readPoisoned).complete tag St.poisonedData 0
      | .data b =>
        match (s.image (c.arg 0x20 1)).filter (fun m => m.gen = c.arg 0x21 1) with
        | none => s.complete tag St.invalidField 0
        | some m =>
          let img := m.bytes
          let t := s.tilesInService.length
          if b.length ≠ c.len then s
          else if 8 < (blockSpaces b).length || (List.range 16).any (fun k => decide (t < stageMin img k)) then
            s.complete tag St.invalidField 0
          else
            match room with
            | none => s.complete tag St.tableFull 0
            | some a =>
              if a % 4096 ≠ 0 then s
              else
                let st := ((imgFragList img).map (·.stage)).foldl min 15
                let r : Run := ⟨c.arg 0x20 1, b, a, t, 0, 0, 0, .waiting, [], none, [], [], [], [], [], []⟩
                let peers := if tag < 8192 then s.runPeers c r else []
                if 4096 < s.txs.length + peers.length then s else (s.stageWait tag r st).submitParts tag c r peers

/-- Another stage has waited longer (R159). -/
def State.waitsBefore (s : State) (since : Nat) : Bool :=
  s.runs.any (fun e => match e.2 with | some r => r.phase = .waiting && decide (r.since < since) | none => false)

/-- Fragments' instances on the tiles chosen for them, in fragment order, this node's `tiles` in their place among the nodes'
(R159, R171). -/
def makeInsts (before after : List (Nat × List (Nat × Nat))) : List (Nat × Nat) → List Nat → List Inst
  | [], _ => []
  | (f, n) :: fs, tiles =>
    let of (l : List (Nat × List (Nat × Nat))) : List (Nat × Option Nat) :=
      ((l.find? (fun p => p.1 = f)).map (fun p => p.2.map (fun (fid, t) => (t, some fid)))).getD []
    let all := of before ++ (tiles.take n).map (fun t => (t, none)) ++ of after
    all.zipIdx.map (fun ((t, fid), i) => ⟨f, i, t, fid, false⟩) ++ makeInsts before after fs (tiles.drop n)

/-- STAGE_PLACE: the stage that has waited longest is placed on `tiles`, which Headstock chooses among the free ones; `before`
and `after` are the instances that the RUN's other nodes give each fragment (R159, R171). -/
def State.stagePlace (s : State) (tag : Nat) (tiles : List Nat) (before after : List (Nat × List (Nat × Nat))) : State :=
  match s.run tag with
  | some r =>
    let img := s.runImage r
    let free := s.freeTiles
    let need := stageMin img r.stage
    if r.phase ≠ .waiting || s.waitsBefore r.since then s
    else if s.tilesInService.length < need then s.runStop tag r St.invalidField
    else if free.length < need then s
    else
      let ns := stageCounts img r.stage free.length
      let total := (ns.map (·.2)).foldl (· + ·) 0
      let fit :=
        tiles.length = total && tiles.all (fun t => free.contains t && (match s.localTile t with | some n => s.halted n | none => true))
          && noRepeats (tiles.map (fun t => (t, 0)))
      if !fit then s
      else
        s.setRun tag (some { r with
          phase := .placed
          insts := makeInsts before after ns tiles
          deadline := r.deadline.map (fun d => d + (s.time.toNat - r.waitFrom)) })
  | none => s

/-- The limit of a RUN in ms (R169). -/
def runLimitMs (c : Cmd) (img : List Byte) : Nat :=
  if c.arg 0x24 4 = 0 then imgLimit img else min (c.arg 0x24 4) (imgLimit img)

/-- The code of every fragment of a stage is in place (R157). -/
def State.placeCode (s : State) (img : List Byte) (r : Run) : State :=
  (stageFrags img r.stage).foldl
    (fun s (i, f) => (s.hdsWrite (codeAt img r.tiles r.room i) (subBytes img f.codeOff f.codeLen)).2) s

/-- STAGE_START: the instances of a placed stage start; a stage whose instances have all ended gives way to the next (R159,
R160). The channels that span nodes take the generation `gen`, which must be a new one at every end here (R163). -/
def State.stageStart (s : State) (tag gen : Nat) : State :=
  match s.run tag, s.cmd tag with
  | some r, some c =>
    let img := s.runImage r
    if r.phase = .placed && !s.genFits img r gen then s
    else if r.phase = .placed then
      let first := r.deadline.isNone
      let r := { r with phase := .running, deadline := some (r.deadline.getD (s.time.toNat + 1000000 * runLimitMs c img)) }
      let s := s.setRun tag (some r)
      let s := if first then (s.hdsWrite r.room (List.replicate (mib * imgShared img) 0)).2 else s
      let s := s.placeCode img r
      let s := s.configChannels img tag r gen
      r.insts.foldl (fun s i => s.startInst c r i) s
    else if r.stageOver then
      match nextStage img r.stage with
      | some st => s.stageWait tag r st
      | none => s
    else s
  | _, _ => s

/-! Sinks (R166, R167). -/

/-- The RUN whose instance runs on pair tile `t`. -/
def State.runOfTile (s : State) (t : Nat) : Option (Nat × Run) :=
  (s.runs.find? (fun e =>
    match e.2 with | some r => r.insts.any (fun i => i.tile = t && s.instHolds i) | none => false)).bind
      (fun e => e.2.map (fun r => (e.1, r)))

/-- The oldest message of channel `ch` of tile `n` to a sink of a kind. -/
def sinkMsg (kind n ch : Nat) (m : NocMsg) : Bool := m.kind = kind && m.sender = n && m.sendCh = ch && nocForward m

/-- The message of channel `ch` of pair tile `t` that reaches a sink of a kind: the oldest in the mesh, or the one `far` that has
crossed the hinge to the FRONT (R172). -/
def State.sinkTake (s : State) (kind t ch : Nat) (far : Option NocMsg) : Option (NocMsg × State) :=
  match s.localTile t, far with
  | some n, none => s.takeNoc (sinkMsg kind n ch)
  | none, some m => if s.role = some false && m.kind = kind && m.sendCh = ch && nocForward m then some (m, s) else none
  | _, _ => none

/-- A sink returns credit to the sender of a message, channel `m.sendCh` of pair tile `t` (R162). -/
def State.sinkCredit (s : State) (t : Nat) (m : NocMsg) (k : Nat) : State :=
  if k = 0 then s
  else
    s.sendNoc
      { kind := 0, sender := 128, sendCh := m.ch, tile := t, ch := m.sendCh, gen := m.gen, eb := m.eb, body := .credit k }

/-- HOST_SINK_WRITE: the elements of the oldest message of channel `ch` of pair tile `t` reach their host sink; `sent` says whether
the HLU can send, and `payload` what its check of the elements finds (R166, R359). -/
def State.hostSink (s : State) (t ch : Nat) (far : Option NocMsg) (sent : Bool) (payload : Ecc) : State :=
  match s.sinkTake 2 t ch far, s.runOfTile t with
  | some (m, s'), some (tag, r) =>
    let k := m.tile % 16
    let free := match FMap.getD r.owner k with | some o => o = 64 * t + ch | none => true
    match r.phase, s.cmd tag with
    | .ending _, _ => s'
    | _, none => s
    | _, some c =>
      if !free then s
      else
        match checkedBody payload m.body with
        | .elems es last bad =>
          if !sent || !s.hostUp c.fn then s'.runStop tag r St.accessDenied
          else
            let base := fieldLE r.block (0x40 + 16 * k) 8
            let cap := fieldLE r.block (0x48 + 16 * k) 8
            let at' := FMap.getD r.sinks k
            let room := (cap - at') / m.eb
            let fit := es.take room
            let r :=
              { r with
                sinks := FMap.setD r.sinks k (at' + m.eb * fit.length)
                owner := FMap.setD r.owner k (if last then none else some (64 * t + ch)) }
            let s' := (s'.hostPut c (base + at') (fit.flatMap (natLE m.eb)) bad).setRun tag (some r)
            if room < es.length then s'.runStop tag r St.bufferOverflow
            else if bad then s'.runStop tag r St.poisonedData
            else s'.sinkCredit t m es.length
        | _ => s'
  | _, _ => s

/-- COLUMN_SINK_WRITE: the elements of the oldest message of channel `ch` of pair tile `t` are appended to their output column
(R167). -/
def State.columnSink (s : State) (t ch : Nat) (far : Option NocMsg) (payload : Ecc) : State :=
  match s.sinkTake 3 t ch far, s.runOfTile t with
  | some (m, s'), some (tag, r) =>
    match r.phase, checkedBody payload m.body with
    | .ending _, _ => s'
    | _, .elems es _ bad =>
      if bad then s'.runStop tag r St.poisonedData
      else
        let c := m.tile % 4096
        (s'.setRun tag (some { r with columns := FMap.setD r.columns c (FMap.getD r.columns c ++ es) })).sinkCredit t m es.length
    | _, _ => s'
  | _, _ => s

/-- The output table of a RUN (R167): its columns' types are those of the COLUMN bindings. -/
def outFormats (img : List Byte) : List Nat :=
  (List.range (imgColumns img).length).map (fun n =>
    (((imgBindList img).find? (fun b => b.pattern = 5 && bits b.arg 11 0 = n)).map (fun b => bits b.arg 15 12)).getD 0)

/-- The output table is filled, sealed and published at W (R54, R167): a status other than OK leaves nothing linked. -/
def State.publishOut (s : State) (c : Cmd) (r : Run) (room : Room) (tag : Nat) : Nat × State :=
  let id := c.arg 0x38 3
  let n := (FMap.getD r.columns 0).length
  match s.table id with
  | none => (St.invalidField, s)
  | some t =>
    let t := { t with nextRow := n, at' := room.catalog }
    let ds : List ColData :=
      t.fmts.zipIdx.map (fun (f, k) =>
        ((FMap.getD r.columns k).map (natLE (fmtWidth f)), List.replicate n false))
    let (st, s) := (s.setTable id (some t)).stageRows room id t 0 n ds
    if st ≠ St.ok then (st, s)
    else
      match s.table id with
      | none => (St.invalidField, s)
      | some t =>
        let w := c.arg 0x30 8
        let s := s.setStage tag .committed
        (St.ok, s.publishRows id { t with create := w } w 0 n [] (room.catalog + 64) true)

/-- RUN_COMMIT: the last instance of the last stage has ended and every sink has written; `room` is where an output table goes
(R167, R170, R272). -/
def State.runCommit (s : State) (tag : Nat) (room : Option Room) : State :=
  match s.run tag, s.cmd tag with
  | some r, some c =>
    let img := s.runImage r
    if !s.runDone r then s
    else if 8192 ≤ tag then s.runOver tag St.ok 0
    else if !imgTableOut img then
      (s.setStage tag .committed).runOver tag St.ok ((r.sinks.map (·.2)).foldl (· + ·) 0 % 2 ^ 40)
    else
      let n := (FMap.getD r.columns 0).length
      if (List.range (imgColumns img).length).any (fun k => (FMap.getD r.columns k).length ≠ n) then
        s.runOver tag St.lengthMismatch 0
      else
        match room with
        | none => s.runOver tag St.tableFull 0
        | some room =>
          let (st, s') := s.publishOut c r room tag
          if st = St.held then s else s'.runOver tag st (if st = St.ok then n else 0)
  | _, _ => s

end Sys2Proof.Machine
end

