-- ==== Sys2Proof/Machine/Insn.lean ====
section
/-! DEFINITION. The instruction words of LIS (R73, R75, R82, R121, R128): which row of the table a word is an instance of, what it
means, and the running of one instruction of a core, given as a word or fetched at its PC. -/

namespace Sys2Proof.Machine

/-- The word has major `m` and FN6 between `lo` and `hi`. -/
def isFn (m lo hi : Nat) (w : Word) : Bool := major w = m && decide (lo ≤ fn6 w) && decide (fn6 w ≤ hi)

/-- The word has major `m` and FN4 `f`. -/
def isSra (f : Nat) (w : Word) : Bool := major w = 0xD && fn4 w = f

/-- The word has a major between `lo` and `hi`. -/
def isMajor (lo hi : Nat) (w : Word) : Bool := decide (lo ≤ major w) && decide (major w ≤ hi)

/-- A kind of instruction word and its meaning. -/
structure InsnKind where
  is : Word → Bool
  run : Ctx → State → Out

/-- The scalar kinds (R73, R82, R83). -/
def scalarKinds : List InsnKind :=
  [⟨isMajor 0x01 0x01, aluInsn⟩, ⟨isMajor 0x02 0x02, aluiInsn⟩, ⟨isMajor 0x04 0x04, loadInsn⟩, ⟨isMajor 0x05 0x05, storeInsn⟩,
   ⟨isMajor 0x08 0x08, brInsn⟩, ⟨isMajor 0x09 0x09, callInsn⟩, ⟨isMajor 0x0A 0x0A, callrInsn⟩, ⟨isMajor 0x0B 0x0B, jumpInsn⟩,
   ⟨isFn 0x0C 0x00 0x00, fenceInsn⟩, ⟨isFn 0x0C 0x01 0x01, fenceWInsn⟩, ⟨isFn 0x0C 0x02 0x02, fenceXInsn⟩,
   ⟨isFn 0x0C 0x08 0x08, rtcallInsn⟩, ⟨isFn 0x0C 0x09 0x09, dbgstopInsn⟩, ⟨isFn 0x0C 0x0A 0x0A, endInsn⟩,
   ⟨isFn 0x0C 0x10 0x10, trapretInsn⟩, ⟨isSra 0, srrInsn⟩, ⟨isSra 1, srwInsn⟩, ⟨isSra 2, srsInsn⟩, ⟨isSra 3, srcInsn⟩]

/-- VSETCFG's word (R105). -/
def isVsetcfg (w : Word) : Bool := isMajor 0x2F 0x2F w

/-- The vector kinds (R105 to R125). -/
def vectorKinds : List InsnKind :=
  [⟨isVsetcfg, vsetcfgInsn⟩, ⟨isMajor 0x20 0x21, vintInsn⟩, ⟨isMajor 0x22 0x23, vfloatInsn⟩, ⟨isMajor 0x24 0x25, vcmpInsn⟩,
   ⟨isMajor 0x26 0x26, predInsn⟩, ⟨isMajor 0x27 0x27, moveInsn⟩, ⟨isMajor 0x28 0x28, vcvtInsn⟩, ⟨isFn 0x30 0 0, vldInsn⟩,
   ⟨isFn 0x31 0 0, vstInsn⟩, ⟨isFn 0x30 1 1, vldsInsn⟩, ⟨isFn 0x31 1 1, vstsInsn⟩, ⟨isFn 0x30 2 2, gatherInsn⟩,
   ⟨isFn 0x31 2 2, scatterInsn⟩, ⟨isFn 0x30 3 3, gatherFInsn⟩, ⟨isFn 0x30 4 6, ldfInsn⟩, ⟨isFn 0x31 4 6, stfInsn⟩]

/-- The analytic kinds (R128). -/
def analyticKinds : List InsnKind :=
  [⟨isFn 0x40 0 0, vcompressInsn⟩, ⟨isFn 0x40 1 1, vexpandInsn⟩, ⟨isFn 0x41 0 1, vhashInsn⟩, ⟨isFn 0x42 0 1, vsortInsn⟩,
   ⟨isFn 0x42 2 3, vsortkvInsn⟩, ⟨isFn 0x42 4 5, vmergeInsn⟩, ⟨isFn 0x43 0 8, vredInsn⟩, ⟨isFn 0x43 0x10 0x18, vsredInsn⟩,
   ⟨isFn 0x44 0 0, vpackInsn⟩, ⟨isFn 0x44 1 1, vunpackInsn⟩, ⟨isFn 0x45 0 0, vstrcmpInsn⟩, ⟨isFn 0x45 1 1, vstrcmpCInsn⟩,
   ⟨isFn 0x45 8 0xD, vstrcmpPredInsn⟩, ⟨isFn 0x46 0 1, vhistInsn⟩, ⟨isFn 0x46 2 2, vhistaddInsn⟩, ⟨isFn 0x47 0 0, vgaugeInsn⟩,
   ⟨isFn 0x48 0 0, vsendInsn⟩, ⟨isFn 0x48 1 1, vrecvInsn⟩, ⟨isFn 0x48 2 2, scloseInsn⟩, ⟨isFn 0x48 3 3, sstatOutInsn⟩,
   ⟨isFn 0x48 4 4, sstatInInsn⟩, ⟨isFn 0x49 0 0, vdopenInsn⟩, ⟨isFn 0x49 1 1, vdecodeInsn⟩, ⟨isFn 0x49 2 2, vdstatInsn⟩,
   ⟨isFn 0x49 3 3, vdcloseInsn⟩, ⟨isMajor 0x4A 0x4A, vamoInsn⟩, ⟨isMajor 0x4B 0x4B, amoInsn⟩]

/-- The meaning of a word: `none` for a reserved encoding (R75). -/
def meaningOf (w : Word) : Option (Ctx → State → Out) :=
  ((scalarKinds ++ vectorKinds ++ analyticKinds).find? (fun k => k.is w)).map (·.run)

/-- The majors a Headstock core executes (R99). -/
def headMajor (w : Word) : Bool := decide (major w ≤ 0x0D) || major w = 0x4B

/-- An instruction that a Headstock core has only when its major is one of R99's. -/
def onCore (f : Ctx → State → Out) (x : Ctx) (s : State) : Out :=
  if x.c ≥ 128 && !headMajor x.w then x.raise s Exc.illegal else f x s

/-- After an instruction of a tile: an instance that ended has its channels closed (R164), and a step of R96 that has completed
stops the tile, an answer to one of its stores being taken first (R93). -/
def State.afterInsn (s : State) (c : Nat) (waits : Bool) : State :=
  if c ≥ 128 then s
  else if s.fld (Reg.TIL_STATUS c) 3 0 = 2 then s.instEnded c
  else if (s.core c).stepping && !waits && s.fld (Reg.TIL_STATUS c) 3 0 = 0 then
    match (s.core c).imprecise with
    | some i => s.raiseImprecise c i
    | none => s.tileStop c 4 (s.core c).pc
  else s

/-- The outcome is a wait. -/
def Out.waits : Out → Bool
  | .wait _ => true
  | _ => false

/-- One instruction of core `c`: a prefix word, if any, and its word, of meaning `f`. -/
def State.insn (s : State) (bus : Bus) (c : Nat) (pfx : Option Word) (w : Word) (f : Ctx → State → Out) : State :=
  let x : Ctx := ⟨c, s.core c, prefixOf? pfx, w, (if pfx.isSome then 8 else 4), bus⟩
  let o := if x.p = .illegal || (pfx.isSome && major w = 0x7F) then x.raise s Exc.illegal else onCore f x s
  (x.finish o).afterInsn c o.waits

/-- A reserved encoding (R75). -/
def illegalInsn (x : Ctx) (s : State) : Out := x.raise s Exc.illegal

/-- The instruction of a word that core `c` executes at its PC, for the row of the table whose words `is` names: a word of another
row is no command of this one, and a reserved encoding raises ILLEGAL_INSTRUCTION whichever row it is given to (R75). -/
def State.runRow (s : State) (bus : Bus) (c : Nat) (pfx : Option Word) (w : Word) (is : Word → Bool) (f : Ctx → State → Out) :
    State :=
  if !s.running c then s
  else if is w then s.insn bus c pfx w f
  else if (meaningOf w).isNone then s.insn bus c pfx w illegalInsn
  else s

/-- A word fetched from the program at `pc` (R84, R85, R88). -/
def State.fetch (s : State) (x : Ctx) (pc : BitVec 48) : Loaded × State :=
  let ea := paExtend pc
  match s.translate x.c ea 4 .fetch with
  | .error e => (.exc e, s)
  | .ok (.bench _) => (.exc (Exc.fetchFault ea), s)
  | .ok (.dpa a stream _) =>
    let (r, s) := s.cachedRead x a 4 true stream
    (loadedOf r ea, s)

/-- The word that fetched bytes make. -/
def wordOf (b : List Byte) : Word := BitVec.ofNat 32 (leNat b)

/-- The core stands at an instruction whose fetch came to `l`. -/
def State.fetchStop (s : State) (bus : Bus) (c : Nat) (l : Loaded) : State :=
  match l with
  | .exc e => s.insn bus c none 0 (fun x s => x.raise s e)
  | _ => s

/-- The core fetches the instruction at its PC, with its base word where the first is a prefix, and executes it (R73, R76). The base
word is fetched before the prefix is decoded, so that a reserved KIND before a word that cannot be fetched reports the fetch fault; the
spec gives no order (DESIGN CHOICE, assumption 116). -/
def State.runFetched (s : State) (bus : Bus) (c : Nat) : State :=
  let pc := (s.core c).pc
  let x : Ctx := ⟨c, s.core c, .none, 0, 4, bus⟩
  let run (s : State) (pfx : Option Word) (w : Word) : State := s.insn bus c pfx w ((meaningOf w).getD illegalInsn)
  match s.fetch x pc with
  | (.data d, s) =>
    let w := wordOf d
    if major w ≠ 0x7F then run s none w
    else
      match s.fetch x (pc + 4) with
      | (.data b, s) => run s (some w) (wordOf b)
      | (l, s) => s.fetchStop bus c l
  | (l, s) => s.fetchStop bus c l

/-- TILE_STEP: a write of STEP = 1 by master `m` to a halted tile starts one instruction, and the tile stops with STOP = 4 once it
has completed (R96, R486). -/
def State.tileStep (s : State) (bus : Bus) (m n : Nat) : State :=
  if s.tileRetired n then s.refuse m (Reg.TIL_CTL n) St.accessDenied
  else if !s.halted n then s
  else
    let s := s.setFld (Reg.TIL_STATUS n) 3 0 0
    (s.setCore n { s.core n with stepping := true }).runFetched bus n

end Sys2Proof.Machine
end

