-- ==== Sys2Proof/Machine/Ecdsa.lean ====
section
/-! DEFINITION. The verification of an ECDSA P-384 signature over a SHA-384 digest (R463, R464), as FIPS 186-5 and SP 800-186
define the curve and the algorithm (PRESUMED: the spec names the standard and does not restate it). -/

namespace Sys2Proof.Machine

/-- The field prime of P-384. -/
def p384 : Nat := 2 ^ 384 - 2 ^ 128 - 2 ^ 96 + 2 ^ 32 - 1

/-- The order of P-384. -/
def p384Order : Nat :=
  0xffffffffffffffffffffffffffffffffffffffffffffffffc7634d81f4372ddf581a0db248b0a77aecec196accc52973

/-- The coefficient b of P-384; a is -3. -/
def p384B : Nat :=
  0xb3312fa7e23ee7e4988e056be3f82d19181d9c6efe8141120314088f5013875ac656398d8a2ed19d2a85c8edd3ec2aef

/-- The base point of P-384. -/
def p384G : Nat × Nat :=
  (0xaa87ca22be8b05378eb1c71ef320ad746e1d3b628ba79b9859f741e082542a385502f25dbf55296c3a545e3872760ab7,
    0x3617de4a96262c6f5d9e98bf9292dc29f8f41dbd289a147ce9da3113b5f0b8c00a60b1ce1d7e819d7a431d7c90ea0e5f)

/-- `b ^ e` modulo `m`, over `fuel` bits of `e`. -/
def powMod (m : Nat) : Nat → Nat → Nat → Nat
  | 0, _, _ => 1 % m
  | fuel + 1, b, e =>
    let h := powMod m fuel (b * b % m) (e / 2)
    if e % 2 = 1 then b * h % m else h

/-- The inverse modulo a prime of 384 bits. -/
def invMod (m a : Nat) : Nat := powMod m 384 (a % m) (m - 2)

/-- The sum of two points, `none` being the point at infinity. -/
def curveAdd : Option (Nat × Nat) → Option (Nat × Nat) → Option (Nat × Nat)
  | none, q => q
  | p, none => p
  | some (x, y), some (u, v) =>
    let chord (l : Nat) : Option (Nat × Nat) :=
      let r := (l * l + 2 * p384 - x - u) % p384
      some (r, (l * (x + p384 - r) + p384 - y) % p384)
    if x = u then
      if (y + v) % p384 = 0 then none
      else chord ((3 * x * x + p384 - 3) * invMod p384 (2 * y) % p384)
    else chord ((v + p384 - y) * invMod p384 (u + p384 - x) % p384)

/-- A multiple of a point, over `fuel` bits of the factor. -/
def curveMul : Nat → Nat → Option (Nat × Nat) → Option (Nat × Nat)
  | 0, _, _ => none
  | fuel + 1, k, p =>
    let r := curveMul fuel (k / 2) (curveAdd p p)
    if k % 2 = 1 then curveAdd p r else r

/-- A point lies on the curve. -/
def onCurve (x y : Nat) : Bool :=
  decide (x < p384) && decide (y < p384) && decide ((y * y) % p384 = (x * x * x + 3 * (p384 - x) + p384B) % p384)

/-- A signature (r, s) of a digest verifies under the public key (x, y). -/
def ecdsaOk (x y e r s : Nat) : Bool :=
  let n := p384Order
  if r = 0 || n ≤ r || s = 0 || n ≤ s || !onCurve x y then false
  else
    let w := invMod n s
    match curveAdd (curveMul 384 (e * w % n) (some p384G)) (curveMul 384 (r * w % n) (some (x, y))) with
    | none => false
    | some (u, _) => u % n = r

end Sys2Proof.Machine
end

