-- ==== Sys2Proof/Machine/Proof.lean ====
section
/-! DEFINITION. The Proof engines (R210 to R221): streams and slots, the six operations, context images and quanta. -/

namespace Sys2Proof.Machine

/-- The fields of a Proof job entry (R216). -/
def prfParam (e : List Byte) : Nat := fieldLE e 4 4
def prfOp (e : List Byte) : Nat := prfParam e % 16
def prfStart (e : List Byte) : Bool := (prfParam e).testBit 4
def prfFinal (e : List Byte) : Bool := (prfParam e).testBit 5
def prfSeal (e : List Byte) : Bool := (prfParam e).testBit 6
def prfRelease (e : List Byte) : Bool := (prfParam e).testBit 7
def prfAlg (e : List Byte) : Nat := bits (prfParam e) 11 8
def prfStream (e : List Byte) : Nat := bits (prfParam e) 23 16
def prfSrc (e : List Byte) : Nat := fieldLE e 8 8
def prfDst (e : List Byte) : Nat := fieldLE e 0x18 8
def prfLen (e : List Byte) : Nat := fieldLE e 0x28 4
def prfCap (e : List Byte) : Nat := fieldLE e 0x30 4

/-- The cause with which an entry is malformed (R216, R284). -/
def prfMalformed (e : List Byte) : Option Nat :=
  if prfOp e = 0 || 6 < prfOp e then some 1
  else if pair64At e 8 && pair64At e 0x18 && pair32At e 0x28 && pair32At e 0x30 then none
  else some 2

/-- Slot `i` of engine `e`. -/
def State.slot (s : State) (e i : Nat) : Option Slot := FMap.getD s.slots (8 * e + i)

/-- A slot has a job in progress. -/
def State.slotBusy (s : State) (e i : Nat) : Bool :=
  s.jobs.any (fun j => j.done.isNone && (ringOfKey j.ring).unit = .prf && j.engine = 8 * e + i)

/-- A slot is free: no stream holds it and no job has been given it. -/
def State.slotFree (s : State) (e i : Nat) : Bool := (s.slot e i).isNone && !s.slotBusy e i

/-- PRF_ENGe_SLOTS shows the slots of engine `e` (R221): a slot is held from the fetch of the job that starts its stream. -/
def State.prfShow (s : State) (e : Nat) : State :=
  let mask (p : Nat → Bool) : Nat := (List.range 8).foldl (fun m i => if p i then m + 2 ^ i else m) 0
  let holds (p : Slot → Bool) (i : Nat) : Bool := ((s.slot e i).map p).getD false
  s.wr (Reg.PRF_ENG_SLOTS e)
    (BitVec.ofNat 32 (mask (fun i => !s.slotFree e i) + 2 ^ 8 * mask (holds (·.final)) + 2 ^ 16 * mask (holds (·.failed))))

/-- Slot `i` of engine `e` becomes `v`. -/
def State.setSlot (s : State) (e i : Nat) (v : Option Slot) : State :=
  State.prfShow { s with slots := FMap.setD s.slots (8 * e + i) v } e

/-- The engine ring `n` is bound to (R213). -/
def State.prfEngine (s : State) (n : Nat) : Nat := s.fld (ringCtl ⟨.prf, n⟩) 6 4

/-- The slot a stream of a ring holds on its engine, from the fetch of the job that starts it (R213). -/
def State.streamSlot (s : State) (e n stream : Nat) : Option Nat :=
  (List.range 8).find? (fun i =>
    (match s.slot e i with
      | some v => v.ring = n && v.stream = stream
      | none => false)
      || s.jobs.any (fun j => j.done.isNone && j.ring = ringKey ⟨.prf, n⟩ && j.engine = 8 * e + i && prfStream j.entry = stream))

/-- Steps 1 to 3 of R218. -/
def prfCheck (e : List Byte) : Nat :=
  let p := prfParam e
  let op := prfOp e
  let blk := algBlock (prfAlg e)
  let flagsOk : Bool :=
    (op = 1 || (!prfStart e && !prfFinal e && !prfSeal e)) && (!prfSeal e || prfStart e)
      && (!prfRelease e || op = 2 || op = 3 || op = 4)
  if bits p 31 24 ≠ 0 || bits p 15 12 ≠ 0 || fieldLE e 0x38 8 ≠ 0 || 3 < prfAlg e || !flagsOk then St.invalidField
  else if (op = 1 && (prfLen e % blk ≠ 0 || (prfLen e = 0 && !prfStart e && !prfFinal e)))
      || (op = 3 && prfLen e ≠ algDigest (prfAlg e)) || (op = 5 && prfLen e ≠ 256)
      || 2 ^ 48 < prfSrc e + prfLen e || 2 ^ 48 < prfDst e + prfCap e then St.invalidField
  else if (op = 2 && prfCap e < algDigest (prfAlg e)) || (op = 4 && prfCap e < 256) then St.bufferOverflow
  else St.ok

/-- A Proof entry is taken by a slot of its ring's engine, waits for one, or ends at once where its stream holds no slot and
it starts none (R214, R217). A READ of such a stream writes zeros, so it goes through the engine as well. -/
def State.prfTake (s : State) (n : Nat) (e : List Byte) : Take :=
  let g := s.prfEngine n
  match s.streamSlot g n (prfStream e) with
  | some i => if s.slotBusy g i then .wait else .engine (8 * g + i)
  | none =>
    if (prfOp e = 1 && prfStart e) || prfOp e = 5 then
      match (List.range 8).find? (s.slotFree g) with
      | some i => .engine (8 * g + i)
      | none => .wait
    else if prfCheck e ≠ St.ok then .finish (prfCheck e) 0
    else
      match prfOp e with
      | 1 | 4 => .finish St.invalidField 0
      | 2 | 3 => .finish St.digestNotReady (if prfOp e = 2 then algDigest (prfAlg e) else 0)
      | _ => .finish St.ok 0

/-- A READ of a stream without a digest writes digest-length zeros (R217). -/
def State.prfZeros (s : State) (e : List Byte) : Nat × State :=
  s.writeMem Mid.proof (prfDst e) (List.replicate (algDigest (prfAlg e)) 0)

/-- The engine and slot of a job. -/
def Job.eng (j : Job) : Nat := j.engine / 8
def Job.slt (j : Job) : Nat := j.engine % 8

/-- Engine `e`'s BUSY bit and its slots' bits follow its jobs (R221). -/
def State.prfBusy (s : State) (e : Nat) : State :=
  (s.setFld Reg.PRF_STATUS e e (bit01 ((List.range 8).any (s.slotBusy e)))).prfShow e

/-- The slot that engine `e` serves, and a new quantum for it (R215). -/
def State.prfServe (s : State) (e i : Nat) : State :=
  { s with prfTurn := FMap.setD s.prfTurn e i, prfUsed := FMap.setD s.prfUsed e 0 }

/-- The next slot of engine `e` with a job, in round-robin order, is served with a quantum of its own (R215). -/
def State.prfNext (s : State) (e : Nat) : State :=
  let cur := FMap.getD s.prfTurn e
  match (rangeFrom 1 8).find? (fun d => s.slotBusy e ((cur + d) % 8)) with
  | some d => s.prfServe e ((cur + d) % 8)
  | none => s

/-- A Proof job ends, and yields the engine (R215); with RELEASE its slot is freed (R217). -/
def State.prfEnd (s : State) (j : Job) (status result : Nat) : State :=
  let s := s.endJob j status result
  let s := if prfRelease j.entry then s.setSlot j.eng j.slt none else s
  let s := s.prfBusy j.eng
  let s := if FMap.getD s.prfTurn j.eng = j.slt then s.prfNext j.eng else s
  s.purgeFar Mid.proof

/-- The state checks of R217 for an existing slot: the entry must name its ALG, a START too. -/
def slotStatus (e : List Byte) (v : Slot) : Nat :=
  let op := prfOp e
  if v.alg ≠ prfAlg e then St.invalidField
  else
    match op with
    | 1 => if prfStart e then St.ok else if v.failed then St.invalidField else if v.final then St.digestClosed else St.ok
    | 2 => if v.sealed then St.accessDenied else if v.final then St.ok else St.digestNotReady
    | 3 => if v.final then St.ok else St.digestNotReady
    | 4 => if v.sealed then St.accessDenied else if v.failed then St.invalidField else St.ok
    | 5 => St.invalidField
    | _ => St.ok

/-- Slot `i` of engine `e` is the only one with a job (R215). -/
def State.slotAlone (s : State) (e i : Nat) : Bool := (List.range 8).all (fun k => k = i || !s.slotBusy e k)

/-- The blocks of an UPDATE that its turn lets it absorb now: what is left of the quantum, or of the job where no other slot has
one (R215). -/
def State.prfTake16 (s : State) (j : Job) : Nat :=
  let left := prfLen j.entry / algBlock (prfAlg j.entry) - j.prog.desc
  if s.slotAlone j.eng j.slt then left else min left (16 - FMap.getD s.prfUsed j.eng)

/-- UPDATE (R215, R217, R218): the job's progress counts the blocks absorbed. -/
def State.prfUpdate (s : State) (j : Job) : State :=
  let e := j.entry
  let old := s.slot j.eng j.slt
  let begun := j.prog.desc ≠ 0
  let st := if begun then St.ok else if prfCheck e ≠ St.ok then prfCheck e else (old.map (slotStatus e)).getD St.ok
  if st ≠ St.ok then s.prfEnd j st 0
  else
    let fresh : Slot :=
      { ring := (ringOfKey j.ring).n, stream := prfStream e, alg := prfAlg e, final := false, failed := false,
        sealed := prfSeal e, blocks := 0, words := algStart (prfAlg e) }
    let v := if prfStart e && !begun then fresh else old.getD fresh
    let blk := algBlock (prfAlg e)
    let k := s.prfTake16 j
    let at' := j.prog.desc
    if k = 0 && prfLen e ≠ 0 then s
    else
      let (a, s) := if k = 0 then (⟨St.ok, [], false⟩, s) else s.readMem Mid.proof (prfSrc e + blk * at') (blk * k)
      if a.status = St.held then s
      else if dataStatus a ≠ St.ok then
        (s.setSlot j.eng j.slt (some { v with failed := true, final := false })).prfEnd j (dataStatus a) 0
      else
        let last := prfLen e ≤ blk * (at' + k)
        let v :=
          { v with
            words := algAbsorbAll (prfAlg e) k v.words a.data
            blocks := (v.blocks + k) % 2 ^ 64
            final := prfFinal e && last }
        let s := (s.setSlot j.eng j.slt (some v)).count64 (Reg.PRF_ENG_BLOCKS_LO j.eng) k
        if last then s.prfEnd j St.ok (prfLen e)
        else
          State.setJob { s with prfUsed := FMap.setD s.prfUsed j.eng (FMap.getD s.prfUsed j.eng + k) } j
            { j with prog := { j.prog with desc := at' + k } }

/-- What a READ of a stream without a digest comes to once its zeros have been written or not (R217, R218): step 4 fails before any
write, so the status is DIGEST_NOT_READY; the result counts the zeros written, and a destination not written is undefined. -/
def State.zerosResult (s : State) (e : List Byte) (w : Nat) : Nat × State :=
  if w = St.ok then (algDigest (prfAlg e), s) else (0, s.scramble Mid.proof (prfDst e) (algDigest (prfAlg e)))

/-- READ (R217, R218). -/
def State.prfRead (s : State) (j : Job) : State :=
  let e := j.entry
  match s.slot j.eng j.slt with
  | none => s
  | some v =>
    let st := if prfCheck e ≠ St.ok then prfCheck e else slotStatus e v
    if st = St.digestNotReady then
      let (w, s) := s.prfZeros e
      if w = St.held then s
      else
        let (n, s) := s.zerosResult e w
        s.prfEnd j st n
    else if st ≠ St.ok then s.prfEnd j st 0
    else
      let d := algResult v.alg v.words
      let (w, s) := s.writeMem Mid.proof (prfDst e) d
      if w = St.held then s
      else if w = St.ok then s.prfEnd j St.ok d.length
      else (s.scramble Mid.proof (prfDst e) d.length).prfEnd j w 0

/-- COMPARE (R217). -/
def State.prfCompare (s : State) (j : Job) : State :=
  let e := j.entry
  match s.slot j.eng j.slt with
  | none => s
  | some v =>
    let st := if prfCheck e ≠ St.ok then prfCheck e else slotStatus e v
    if st ≠ St.ok then s.prfEnd j st 0
    else
      let (a, s) := s.readMem Mid.proof (prfSrc e) (prfLen e)
      if a.status = St.held then s
      else if dataStatus a ≠ St.ok then s.prfEnd j (dataStatus a) 0
      else s.prfEnd j St.ok (bit01 (a.data = algResult v.alg v.words))

/-- The 256-byte image of a slot (R219). -/
def slotImage (v : Slot) : List Byte :=
  natLE 8 (cp32 (2 ^ 16 + 2 ^ 8 * v.alg + (if v.final then 2 else 1))) ++ natLE 16 (cp64 v.blocks) ++ List.replicate 8 0
    ++ algImage v.alg v.words ++ List.replicate 24 0

/-- SAVE (R217, R219). -/
def State.prfSave (s : State) (j : Job) : State :=
  let e := j.entry
  match s.slot j.eng j.slt with
  | none => s
  | some v =>
    let st := if prfCheck e ≠ St.ok then prfCheck e else slotStatus e v
    if st ≠ St.ok then s.prfEnd j st 0
    else
      let (w, s) := s.writeMem Mid.proof (prfDst e) (slotImage v)
      if w = St.held then s
      else if w = St.ok then s.prfEnd j St.ok 256
      else (s.scramble Mid.proof (prfDst e) 256).prfEnd j w 0

/-- The check of an image (R219). -/
def imageStatus (e img : List Byte) : Nat :=
  let h := fieldLE img 0 4
  if !pair32At img 0 || !pair64At img 8 then St.complementMismatch
  else if bits h 31 24 ≠ 0 || bits h 23 16 ≠ 1 || bits h 15 12 ≠ 0 || bits h 7 2 ≠ 0 || (h % 4 ≠ 1 && h % 4 ≠ 2)
      || bits h 11 8 ≠ prfAlg e || fieldLE img 0x18 8 ≠ 0 || fieldLE img 0xE8 24 ≠ 0
      || !zeroAt img (0x20 + algStateBytes (prfAlg e)) (200 - algStateBytes (prfAlg e)) then St.invalidField
  else St.ok

/-- RESTORE (R217, R219). -/
def State.prfRestore (s : State) (j : Job) : State :=
  let e := j.entry
  let st := if prfCheck e ≠ St.ok then prfCheck e else ((s.slot j.eng j.slt).map (slotStatus e)).getD St.ok
  if st ≠ St.ok then s.prfEnd j st 0
  else
    let (a, s) := s.readMem Mid.proof (prfSrc e) 256
    if a.status = St.held then s
    else
      let st := if dataStatus a ≠ St.ok then dataStatus a else imageStatus e a.data
      if st ≠ St.ok then s.prfEnd j st 0
      else
        let v : Slot :=
          { ring := (ringOfKey j.ring).n, stream := prfStream e, alg := prfAlg e, final := fieldLE a.data 0 1 % 4 = 2,
            failed := false, sealed := false, blocks := fieldLE a.data 8 8,
            words := algOfImage (prfAlg e) (subBytes a.data 0x20 200) }
        (s.setSlot j.eng j.slt (some v)).prfEnd j St.ok 0

/-- RELEASE (R217). -/
def State.prfReleaseOp (s : State) (j : Job) : State :=
  let e := j.entry
  if prfCheck e ≠ St.ok then s.prfEnd j (prfCheck e) 0
  else
    match s.slot j.eng j.slt with
    | some v =>
      if v.alg ≠ prfAlg e then s.prfEnd j St.invalidField 0 else (s.setSlot j.eng j.slt none).prfEnd j St.ok 0
    | none => s.prfEnd j St.ok 0

/-- The job in progress of slot `i` of engine `e`, with OP `op`. -/
def State.prfJob (s : State) (e i op : Nat) : Option Job :=
  s.findJob (fun j => (ringOfKey j.ring).unit = .prf && j.engine = 8 * e + i && prfOp j.entry = op)

/-- PROOF_QUANTUM_END: the quantum of engine `e`'s slot is used up, or its slot has no job, and the next slot with a job is served
(R215). -/
def State.prfQuantum (s : State) (e : Nat) : State :=
  if 16 ≤ FMap.getD s.prfUsed e || !s.slotBusy e (FMap.getD s.prfTurn e) then s.prfNext e else s

/-- Every slot of a ring's streams is freed (R220). -/
def State.prfFreeRing (s : State) (n : Nat) : State :=
  (List.range 8).foldl
    (fun s e =>
      (List.range 8).foldl
        (fun s i =>
          match s.slot e i with
          | some v => if v.ring = n then s.setSlot e i none else s
          | none => s) s) s

end Sys2Proof.Machine
end

