-- ==== Sys2Proof/Machine/Queues.lean ====
section
/-! DEFINITION. The queue engine at work (R228 to R249, R256 to R260, R275, R276): doorbells, the arbiter, fetch and its checks,
Clamps, completion posting, and the making and deleting of pairs. -/

namespace Sys2Proof.Machine

/-! Clamps (R40, R257 to R260). -/

/-- A range as it is put into the Clamp table (R257). -/
def clampOf (id : Nat) (excl : Bool) (lo hi : Nat) : ClampRange :=
  ⟨cp32 (2 ^ 31 + 2 ^ 30 * bit01 excl + id), cp64 lo, cp64 hi, false, false⟩

/-- Two ranges conflict (R258). -/
def ClampRange.conflicts (a b : ClampRange) : Bool :=
  a.id = b.id && decide (a.lo ≤ b.hi) && decide (b.lo ≤ a.hi) && (a.excl || b.excl)

/-- A range of an earlier-fetched command conflicts with `r` (R258). -/
def State.heldBack (s : State) (order : Nat) (r : ClampRange) : Bool :=
  s.cmds.any (fun e =>
    match e.2 with
    | some c => decide (c.order < order) && c.clamps.any (fun x => x.conflicts r)
    | none => false)

/-- Every waiting range that nothing earlier holds back is granted (R258). -/
def State.grantClamps (s : State) : State :=
  { s with
    cmds := s.cmds.map (fun e =>
      (e.1, e.2.map (fun c =>
        if c.stage = .waiting then
          { c with clamps := c.clamps.map (fun r => { r with granted := r.granted || !s.heldBack c.order r }) }
        else c))) }

/-- Range `i` of a command's Clamp entry is found broken: it widens to its whole table, Guard records it, and the command
completes with COMPLEMENT_MISMATCH (R40). -/
def State.clampBreak (s : State) (tag i : Nat) : State :=
  match s.cmd tag with
  | some c =>
    let widen (x : ClampRange × Nat) : ClampRange := if x.2 = i then { x.1 with widened := true } else x.1
    let c := { c with clamps := c.clamps.zipIdx.map widen }
    let s := s.setCmd tag (some (if c.done.isSome then { c with done := some (St.complementMismatch, 0) } else c))
    let s :=
      s.report
        { status := St.complementMismatch, target := Tgt.qe, severity := 2, master := c.fn, address := 0, tag := tag,
          detail := 2 ^ 16 * c.pair + i }
    if c.done.isSome then s else s.stopCmd tag St.complementMismatch
  | none => s

/-- The first range of a command found broken and not yet widened. -/
def Cmd.brokenRange (c : Cmd) : Option Nat := c.clamps.findIdx? (fun r => !r.intact && !r.widened)

/-- The pairs of every Clamp entry are checked, as at an overlap comparison (R40). -/
def State.checkClamps (s : State) : State :=
  (s.cmds.flatMap (fun e =>
      match e.2 with
      | some c => c.clamps.zipIdx.filterMap (fun (r, i) => if !r.intact && !r.widened then some (e.1, i) else none)
      | none => [])).foldl (fun s x => s.clampBreak x.1 x.2) s

/-- An overlap comparison: the pairs are checked, and every waiting range that nothing earlier holds back is granted (R39, R40,
R258). -/
def State.regrant (s : State) : State := s.checkClamps.grantClamps

/-- A command is stopped before its commit point: one that waits gives up its Clamps, whose pairs are checked as they are released
(R40, R259, R275). -/
def State.cancel (s : State) (tag status : Nat) : State :=
  let s := s.checkClamps
  match s.cmd tag with
  | some c =>
    if c.done.isSome then s
    else if c.stage = .waiting then ((s.setCmd tag (some { c with clamps := [] })).complete tag status 0).regrant
    else s.stopCmd tag status
  | none => s

/-- CLAMP_GRANT: the last waiting range of a command is granted and the command passes to Headstock (R256, R258). -/
def State.clampGrant (s : State) (tag : Nat) : State :=
  let s := s.regrant
  match s.cmd tag with
  | some c =>
    if c.stage = .waiting && c.done.isNone && c.clamps.all (·.granted) && !(c.op = 0x46 && s.publishWaits c) then s.passCmd tag
    else s
  | none => s

/-- CLAMP_TIMEOUT: the limit of a command that still waits for a range expires (R259). -/
def State.clampTimeout (s : State) (tag : Nat) : State :=
  match s.cmd tag with
  | some c =>
    if c.stage = .waiting && c.done.isNone && c.clamps.any (fun r => !r.granted) then
      let s := s.atTime c.due
      State.cancel { s with clampTimeouts := min (s.clampTimeouts + 1) 0xFFFFFFFF } tag St.clampTimeout
    else s
  | none => s

/-! Posting (R237, R244, R245, R249, R276). -/

/-- The context of a pair is read and its pairs are checked (R232). -/
def State.readCtx (s : State) (q : Nat) : Except Nat (List Byte) × State :=
  let (a, s) := s.readMem Mid.qe (s.ctxDpa q) 64
  if a.status ≠ St.ok then (.error a.status, s)
  else if a.poison then (.error St.poisonedData, s)
  else if !qcOk a.data then (.error St.complementMismatch, s)
  else (.ok a.data, s)

/-- The command may still be ended by ABORT: its commit point lies ahead (R275). -/
def Cmd.abortable (c : Cmd) : Bool :=
  c.done.isNone && c.stage ≠ .committed
    && ([0x41, 0x42, 0x43, 0x44, 0x46].contains c.op || (c.op = 0x45 && !c.flags.testBit 0))

/-- Every command of a pair that has not passed its commit point ends with ABORTED (R245, R246). -/
def State.stopPair (s : State) (q : Nat) : State :=
  (s.cmds.filterMap (fun e => e.2.bind (fun c => if c.pair = q && c.abortable then some e.1 else none))).foldl
    (fun s tag => s.cancel tag St.aborted) s

/-- Pair `q` enters ERROR with a cause, the index latched and the stop recorded (R244, R245). -/
def State.pairError (s : State) (q cause index status : Nat) : State :=
  match s.pair q with
  | some p =>
    let s := s.setPair q (some { p with state := 2, pending := false, cause := cause, index := index })
    let s := s.raise Reg.QE_INT_STATUS 0
    let s :=
      s.report
        { status := status, target := Tgt.qe, severity := 3, master := if cause = 6 then Mid.qe else s.pairFn q,
          address := 0, tag := 0xFFFF, detail := 2 ^ 16 * q + (if cause = 6 then 0 else index) }
    if cause = 6 then s.stopPair q else s
  | none => s

/-- The admin pair of function `f` signals its vector. -/
def State.adminVector (s : State) (q : Nat) : State :=
  match s.pair q with
  | some p => s.msix q (qcVector p.ctx)
  | none => s

/-- An entry is written at the tail of a pair's CQ, whose context has just been read as `ctx` (R237), and the pair's message is
sent where R249 says so. -/
def State.postEntry (s : State) (q : Nat) (p : Pair) (ctx : List Byte) (sqid head status cid result : Nat) : State :=
  let fn := s.pairFn q
  let w := 2 ^ 31 * bit01 p.cphase + 2 ^ 16 * sqid + head
  let e := natLE 8 result ++ natLE 4 w ++ natLE 4 (2 ^ 16 * status + cid)
  let s := { s with sent := s.sent ++ [Sent.hostWrite fn (qcCq ctx + 16 * p.ctail) e false false] }
  let wrap := p.ctail + 1 = qcCqDepth ctx
  let n := p.unsent + 1
  let fire := decide (max 1 (qcCoalCount ctx) ≤ n) || status ≠ St.ok || qcClass ctx = 4
  let p :=
    { p with
      ctx := ctx
      ctail := if wrap then 0 else p.ctail + 1
      cphase := if wrap then !p.cphase else p.cphase
      unsent := if !qcIen ctx || fire then 0 else n
      firstAt := if p.unsent = 0 then s.time.toNat else p.firstAt }
  let s := s.setPair q (some p)
  if qcIen ctx && fire then s.msix fn (qcVector ctx) else s

/-- The notice that I/O pair `q` stopped is posted to its function's admin CQ (R244); a full CQ makes it wait, and a function
without an admin pair gets none. Of the fields of R237 it changes those R244 names, so SQ_HEAD is the admin SQ's. -/
def State.notice (s : State) (fn q status index : Nat) : State :=
  match s.pair fn with
  | none => s
  | some a =>
    if a.state = 3 || (a.state = 2 && a.cause = 6) then s
    else if a.cqFull then { s with notices := s.notices ++ [(fn, q, status, index)] }
    else
      match s.readCtx fn with
      | (.error st, s1) =>
        if st = St.held then { s with notices := s.notices ++ [(fn, q, status, index)] }
        else (s1.pairError fn 6 a.head st).adminVector fn
      | (.ok ctx, s) =>
        s.postEntry fn a ctx q a.head status 0xFFFF index

/-- A pair stops with an error, and its function is told (R244, R245). -/
def State.queueError (s : State) (q cause index status : Nat) : State :=
  let s := s.pairError q cause index status
  if q < 128 then s.adminVector q else s.notice (s.pairFn q) q status index

/-- The notices that wait for room in an admin CQ are posted while there is room. -/
def State.flushNotices (s : State) : State :=
  let l := s.notices
  l.foldl (fun s n => s.notice n.1 n.2.1 n.2.2.1 n.2.2.2) { s with notices := [] }

/-- A deleted pair whose tags have all been released is gone, and the DELETE_QP that named it completes (R246). -/
def State.endDelete (s : State) (q : Nat) : State :=
  match s.pair q with
  | some p =>
    if p.state = 3 && s.inFlight q = 0 then
      let s := s.setPair q none
      (s.cmds.filterMap (fun e =>
          e.2.bind (fun c => if c.op = 6 && c.stage = .committed && c.arg 0x20 2 = q then some e.1 else none))).foldl
        (fun s tag => s.complete tag St.ok 0) s
    else s
  | none => s

/-- A tag and its Clamps are released (R243, R260); the segments they covered may then be sealed (R61). -/
def State.release (s : State) (tag : Nat) : State :=
  match s.cmd tag with
  | some c => (((s.setCmd tag none).regrant.sealFull.showTags).countWaits).endDelete c.pair
  | none => s

/-- The collector can post or discard the completion of a tag now: its slot is filled, no entry must come before it, and its
pair's CQ is not full unless the completion is discarded (R275, R276). -/
def State.discards (s : State) (q : Nat) : Bool :=
  match s.pair q with
  | some p => p.state = 3 || (p.state = 2 && p.cause = 6)
  | none => true

def State.postable (s : State) (c : Cmd) : Bool :=
  c.done.isSome
    && !s.cmds.any (fun e => match e.2 with | some d => c.after = some d.order | none => false)
    && (s.discards c.pair || (match s.pair c.pair with | some p => !p.cqFull | none => false))

/-- The slot the collector serves next: the first postable one after the last served, in round-robin order (R276). -/
def State.nextSlot (s : State) : Option Nat :=
  let ok := s.cmds.filterMap (fun e => e.2.bind (fun c => if s.postable c then some e.1 else none))
  match ok.find? (fun t => decide (s.collector < t)) with
  | some t => some t
  | none => ok.head?

/-- A part of a spanning RUN is over: its coordinator is told its status, once a transaction tag is free, and its Clamps are let go
(R171). -/
def State.answerPart (s : State) (tag : Nat) (c : Cmd) : State :=
  let digest := ((s.image (c.arg 0x20 1)).map (fun m => imgDigest m.bytes)).getD []
  match s.sendPart tag c.cid 2 digest ((c.done.map (·.1)).getD 0) 0 with
  | some (_, s) => s.release tag
  | none => s

/-- COMPLETION_POST: the collector serves the slot of `tag` (R237, R246, R249, R260, R276). -/
def State.post (s : State) (tag : Nat) : State :=
  if s.nextSlot ≠ some tag then s
  else
    let s1 := { s with collector := tag }
    let s1 :=
      match (s1.cmd tag).bind Cmd.brokenRange with
      | some i => s1.clampBreak tag i
      | none => s1
    match s1.cmd tag with
    | none => s
    | some c =>
      if 8192 ≤ tag then s1.answerPart tag c
      else if s1.discards c.pair then s1.release tag
      else
        match s1.pair c.pair, c.done with
        | some p, some (st, result) =>
          match s1.readCtx c.pair with
          | (.error e, s2) => if e = St.held then s else (s2.queueError c.pair 6 p.head e).release tag
          | (.ok ctx, s2) => (s2.postEntry c.pair p ctx c.pair p.head st c.cid result).release tag
        | _, _ => s

/-- COALESCE_TIMEOUT: COAL_TIME after the first unsent entry the message is sent (R249). -/
def State.coalesce (s : State) (q : Nat) : State :=
  match s.pair q with
  | some p =>
    if p.unsent = 0 || qcCoalTime p.ctx = 0 || !qcIen p.ctx then s
    else
      ((s.atTime (p.firstAt + 1000 * qcCoalTime p.ctx)).setPair q (some { p with unsent := 0 })).msix (s.pairFn q)
        (qcVector p.ctx)
  | none => s

/-! Doorbells (R228). -/

/-- A doorbell write by a master that does not own the pair, or to no pair. -/
def State.doorDeny (s : State) (m q off status : Nat) : State :=
  s.report
    { status := status, target := Tgt.qe, severity := 2, master := m, address := 0x20001000000 + off, tag := 0xFFFF,
      detail := 2 ^ 16 * q }

/-- Pair `q` if master `m` may ring it; otherwise the state after the refusal. -/
def State.door? (s : State) (m q off : Nat) : Except State Pair :=
  if !s.bit Reg.QE_CTL 0 then .error s
  else
    match s.pair q with
    | some p =>
      if m ≠ s.pairFn q then .error (s.doorDeny m q off St.accessDenied)
      else if p.state ≠ 1 then .error s
      else .ok p
    | none => .error (s.doorDeny m q off St.accessDenied)

/-- SQ_KICK by master `m` (R228, R235). -/
def State.kick (s : State) (m q : Nat) : State :=
  match s.door? m q (64 * q) with
  | .error s => s
  | .ok p => (s.setPair q (some { p with pending := true })).countWaits

/-- CQ_HEAD written by master `m` (R228). -/
def State.cqHead (s : State) (m q : Nat) (v : Word) : State :=
  match s.door? m q (64 * q + 8) with
  | .error s => s
  | .ok p =>
    let d := qcCqDepth p.ctx
    let n := v.toNat
    if d ≤ n || (p.ctail + d - p.chead) % d < (n + d - p.chead) % d then s.doorDeny m q (64 * q + 8) St.invalidField
    else ((s.setPair q (some { p with chead := n })).flushNotices).countWaits

/-- A write into the BAR2 space (R228). -/
def State.doorWrite (s : State) (m off : Nat) (data : List Byte) : State :=
  let q := off / 64
  if doorOdd off data then s.doorRefuse m off
  else if off % 64 = 0 then s.kick m q
  else if off % 64 = 8 then s.cqHead m q (writeWord data 0)
  else s

/-! Making and deleting pairs (R229 to R232, R246, R250). -/

/-- A new pair with its context. -/
def Pair.fresh (ctx : List Byte) (clampMs : Nat) : Pair :=
  ⟨1, false, 0, true, 0, true, 0, 0, 0, ctx, clampMs, 0, 0, false⟩

/-- A pair is made: its context is written, and on success it is ACTIVE (R232). -/
def State.makePair (s : State) (q : Nat) (ctx : List Byte) (clampMs : Nat) : Nat × State :=
  let (st, s) := s.writeMem Mid.qe (s.ctxDpa q) ctx
  if st = St.ok then (st, s.setPair q (some (Pair.fresh ctx clampMs))) else (st, s)

/-- A pair begins to be deleted (R246). -/
def State.deletePair (s : State) (q : Nat) : State :=
  match s.pair q with
  | some p =>
    if p.state = 3 then s
    else ((s.setPair q (some { p with state := 3, pending := false })).stopPair q).endDelete q
  | none => s

/-- The QE_FN_AQ register `o` of function `fn`. -/
def aqReg (fn o : Nat) : Nat := fnView fn o

/-- The context of function `fn`'s admin pair as its QE_FN_AQ registers give it (R232). -/
def State.aqCtx (s : State) (fn : Nat) : List Byte :=
  qcBytes (s.rd64 (aqReg fn 0x10)) (s.rd64 (aqReg fn 0x18)) (s.fld (aqReg fn 8) 15 0) (s.fld (aqReg fn 8) 31 16)
    (2 ^ 20 * 63 + 2 ^ 19 + 2 ^ 16 * 4 + s.fld (aqReg fn 0xC) 10 0) fn

/-- QE_FN_AQ_CTL.EN := 1 by function `fn` (R229, R230, R232, R250). -/
def State.adminCreate (s : State) (fn : Nat) : State :=
  let off := 0x10000
  if s.bit (aqReg fn 0) 0 then s
  else if !s.bit Reg.QE_CTL 0 || (s.pair fn).isSome then s.refuse fn off St.accessDenied
  else if s.fld (aqReg fn 8) 15 0 = 0 || s.fld (aqReg fn 8) 31 16 = 0 then s.refuse fn off St.invalidField
  else
    let (st, s1) := s.makePair fn (s.aqCtx fn) 1000
    if st = St.held then s
    else if st = St.ok then s1.setFld (aqReg fn 0) 0 0 1
    else s1.refuseDetail fn off st (2 ^ 16 * fn)

/-- QE_FN_AQ_CTL.EN := 0 by function `fn` (R246, R250). -/
def State.adminDelete (s : State) (fn : Nat) : State :=
  if s.bit (aqReg fn 0) 0 then (s.setFld (aqReg fn 0) 0 0 0).deletePair fn else s

/-- Every pair of a function is deleted (R246). -/
def State.deletePairsOf (s : State) (fn : Nat) : State :=
  ((s.pairs.map (·.1)).filter (fun q => s.pairFn q = fn)).foldl (fun s q => s.deletePair q) s

/-- A function's MSI-X table and PBA return to their reset values, and its QE_FN_AQ registers (R246). -/
def State.clearFnView (s : State) (fn : Nat) : State := s.resetRegs (fnView fn 0) (fnView fn 0x20000)

/-! The arbiter (R242). -/

/-- The pairs of a class that are eligible, in pair order. -/
def State.eligible (s : State) (cls : Nat) : List Nat :=
  if s.tagCount ≤ s.tagsHeld then []
  else
    s.pairs.filterMap (fun e =>
      e.2.bind (fun p => if s.wantsFetch e.1 p && (if e.1 < 128 then 4 else qcClass p.ctx) = cls then some e.1 else none))

/-- The next of a class's eligible pairs in round-robin order. -/
def State.nextPair (s : State) (cls : Nat) : Option Nat :=
  let l := s.eligible cls
  match l.find? (fun q => decide (FMap.getD s.arbLast cls < q)) with
  | some q => some q
  | none => l.head?

/-- WEIGHT[c] (R251). -/
def State.arbWeight (s : State) (c : Nat) : Nat := s.fld Reg.QE_ARB_WEIGHT (8 * c + 7) (8 * c) + 1

/-- The loop of R242 over the classes 0 to 3. -/
def State.arbTurn : Nat → State → State
  | 0, s => s
  | k + 1, s =>
    if FMap.getD s.arbCredit s.arbClass = 0 || (s.eligible s.arbClass).isEmpty then
      let c := (s.arbClass + 1) % 4
      State.arbTurn k { s with arbClass := c, arbCredit := FMap.setD s.arbCredit c (s.arbWeight c) }
    else s

/-- The pair the arbiter grants a fetch to, if any is eligible, and the arbiter after it (R242). -/
def State.arbitrate (s : State) : Option (Nat × State) :=
  match s.nextPair 4 with
  | some q => some (q, { s with arbLast := FMap.setD s.arbLast 4 q })
  | none =>
    if (List.range 4).all (fun c => (s.eligible c).isEmpty) then none
    else
      let s := State.arbTurn 5 s
      (s.nextPair s.arbClass).map (fun q =>
        (q,
          { s with
            arbLast := FMap.setD s.arbLast s.arbClass q
            arbCredit := FMap.setD s.arbCredit s.arbClass (FMap.getD s.arbCredit s.arbClass - 1) }))

/-! Checks of a fetched command (R241, R252, R256, R261, R268). -/

/-- Bytes 0x20 to 0x3F of an entry that no listed field covers are 0 (R252). -/
def Cmd.spare (c : Cmd) (used : List (Nat × Nat)) : Bool :=
  (rangeFrom 0x20 0x20).all (fun o => used.any (fun u => u.1 ≤ o && o < u.1 + u.2) || fieldLE c.entry o 1 = 0)

/-- PTR and LEN are both 0 (R252). -/
def Cmd.noData (c : Cmd) : Bool := c.ptr = 0 && c.len = 0

/-- The opcodes of R239. -/
def adminOps : List Nat := [1, 2, 3, 4, 5, 6, 7, 8, 9, 0xA, 0xB]
def ioOps : List Nat := [0x41, 0x42, 0x43, 0x44, 0x45, 0x46, 0x47]
def pfOps : List Nat := [7, 8, 0xA, 0xB]

/-- Checks 1 to 3 of R241: the cause that fails, or 0. -/
def entryCause (e : List Byte) : Nat :=
  let dw := fieldLE e 0 4
  if bits dw 30 24 ≠ 0 || !(adminOps ++ ioOps).contains (bits dw 23 16) then 1
  else if !pair64At e 8 || !pair32At e 0x18 then 2
  else if fieldLE e 0x18 4 ≠ 0 && 2 ^ 64 < fieldLE e 8 8 + fieldLE e 0x18 4 then 3
  else 0

/-- Check 4 of R241. -/
def State.opAllowed (s : State) (q fn op : Nat) : Bool :=
  (if q < 128 then adminOps.contains op else ioOps.contains op)
    && !(s.mode = .bringUp && (ioOps.contains op || op = 0xA))
    && !(fn ≠ 0 && pfOps.contains op)

/-- The size of a log of R262. -/
def logSize (l : Nat) : Nat :=
  match l with
  | 1 => 8192
  | 2 => 512
  | 3 => 1024
  | 4 => 1024
  | 5 => 512
  | 6 => 64
  | _ => 0

/-- An I/O pair that function `fn` owns and that is not being deleted. -/
def State.ownsIo (s : State) (fn q : Nat) : Bool :=
  decide (128 ≤ q) && (match s.pair q with | some p => p.state ≠ 3 && s.pairFn q = fn | none => false)

/-- The checks of CREATE_QP's own fields (R230, R261): 0 or the status. -/
def createQpCheck (c : Cmd) : Nat :=
  if !pair64At c.entry 0x20 || !pair32At c.entry 0x30 || !pair32At c.entry 0x38 then St.complementMismatch
  else
    let d := c.arg 0x30 4
    let a := c.arg 0x38 4
    if bits d 15 0 = 0 || bits d 31 16 = 0 || c.len ≠ 64 * (bits d 15 0 + 1) || c.ptr % 4096 ≠ 0
      || c.arg 0x20 8 % 4096 ≠ 0 || bits a 15 11 ≠ 0 || 5 ≤ bits a 18 16 || (bits a 18 16 = 4 && c.fn ≠ 0) then
      St.invalidField
    else 0

/-- The fields of an admin command are within R252 and R261: 0 or the status. -/
def State.adminFields (s : State) (c : Cmd) : Nat :=
  let ok (b : Bool) : Nat := if b then 0 else St.invalidField
  match c.op with
  | 1 =>
    match c.flags with
    | 0 => ok (c.spare [])
    | 1 => ok (c.spare [(0x20, 2)] && (match s.pair (c.arg 0x20 2) with | some _ => s.pairFn (c.arg 0x20 2) = c.fn | none => false))
    | 2 => ok (c.spare [(0x20, 1)])
    | 3 => ok (c.spare [])
    | _ => St.invalidField
  | 2 =>
    let n := logSize c.flags
    ok (c.spare [(0x20, 8)] && n ≠ 0 && (c.fn = 0 || c.flags = 2 || c.flags = 6) && c.arg 0x20 4 % 4 = 0
      && decide (1 ≤ c.arg 0x24 4) && decide (c.arg 0x20 4 + c.arg 0x24 4 ≤ n))
  | 3 => ok (c.noData && decide (c.flags < 65536) && c.spare [(0x20, 12)])
  | 4 => ok (c.noData && decide (c.flags < 65536) && c.spare [(0x28, 4)])
  | 5 => createQpCheck c
  | 6 => ok (c.noData && c.flags = 0 && c.spare [(0x20, 2)] && s.ownsIo c.fn (c.arg 0x20 2))
  | 7 => ok (c.flags = 0 && c.spare [(0x20, 4)] && c.arg 0x20 4 % 4096 = 0)
  | 8 => ok (c.noData && decide (c.flags < 256) && decide (bits c.flags 7 4 ≤ 3) && c.spare [(0x20, 4)])
  | 0xA => ok (c.noData && decide (c.flags < 2) && c.spare [(0x20, 1)] && decide (c.arg 0x20 1 < 128))
  | 0xB =>
    ok (c.noData && decide (1 ≤ c.flags) && decide (c.flags ≤ 4) && c.spare [(0x20, 1)] && decide (c.arg 0x20 1 < 2))
  | _ => 0

/-- A write epoch is legal and above the publish floor (R49, R53). -/
def State.epochOk (s : State) (w : Nat) : Bool := decide (s.publishFloor < w) && w ≠ never

/-- A space holds 65,536 tables (R71). -/
def State.spaceFull (s : State) (sp : Nat) : Bool :=
  decide (65536 ≤ (s.tables.filter (fun e => e.1 / 65536 = sp && (match e.2 with | some t => decide (s.floor < t.drop) | none => false))).length)

/-- A table can be made under this ID at `w` (R60, R269). In a space that is full every ID is taken, and the command goes on to
TABLE_FULL (R71). -/
def State.canMake (s : State) (id w : Nat) : Bool :=
  s.spaceExists (id / 65536) && (s.spaceFull (id / 65536) || ((s.tableAt id w).isNone && s.idFree id))

/-- A snapshot epoch is legal (R52). -/
def State.snapOk (s : State) (c : Cmd) : Bool :=
  if c.flags.testBit 0 then c.arg 0x28 8 = 0 else decide (c.arg 0x28 8 ≤ s.published) && decide (s.floor ≤ c.arg 0x28 8)

/-- The user columns of the table a LOAD or PATCH names at its W, if it exists. -/
def State.columnsAt (s : State) (c : Cmd) : Option Nat := (s.tableAt (c.arg 0x20 3) (c.arg 0x28 8)).map (·.fmts.length)

/-- The fields of an I/O command are within R252 and R268 to R274: 0 or the status. PLATE_MARK carries no epoch: that its table is
any that has been created and holds its ID, published or not, is a DESIGN CHOICE (assumption 118). -/
def State.ioFields (s : State) (c : Cmd) : Nat :=
  let ok (b : Bool) : Nat := if b then 0 else St.invalidField
  let id := c.arg 0x20 3
  let w := c.arg 0x28 8
  match c.op with
  | 0x41 =>
    ok (decide (c.flags < 4) && c.flags ≠ 2 && c.spare [(0x20, 3), (0x24, 14)] && decide (1 ≤ c.arg 0x30 2)
      && decide (c.arg 0x30 2 ≤ 4096) && s.epochOk w
      && (if c.flags.testBit 0 then s.canMake id w
          else s.columnsAt c = some (c.arg 0x30 2) && decide (1 ≤ c.arg 0x24 4)))
  | 0x42 =>
    ok (decide (c.flags < 2) && c.spare [(0x20, 3), (0x24, 14), (0x34, 1)] && decide (c.arg 0x34 1 < 16) && s.epochOk w
      && (match s.tableAt id w with
        | some t =>
          if c.flags.testBit 0 then
            c.arg 0x24 4 = 0 && c.arg 0x30 2 = 0 && c.arg 0x34 1 = 0 && c.noData && t.drop = never
          else c.arg 0x30 2 = t.fmts.length || (c.arg 0x24 4 = 0 && c.arg 0x30 2 = 0)
        | none => false))
  | 0x43 =>
    ok (decide (c.flags < 4) && c.spare [(0x20, 3), (0x24, 18), (0x38, 4)] && s.snapOk c
      && decide (bits (c.arg 0x38 4) 15 12 = 0) && decide (bits (c.arg 0x38 4) 31 28 = 0)
      && decide (c.arg 0x30 6 + c.arg 0x24 4 ≤ 2 ^ 48)
      && (match s.tableAt id c.epoch with
        | some t => decide (bits (c.arg 0x38 4) 11 0 + bits (c.arg 0x38 4) 27 16 < t.fmts.length)
        | none => false))
  | 0x44 =>
    ok (decide (c.flags < 2) && c.spare [(0x20, 2), (0x24, 23), (0x3C, 1)] && s.snapOk c && decide (c.arg 0x3C 1 ≤ 16)
      && (match s.imageOf (c.arg 0x20 2) with
        | some m =>
          (c.arg 0x3C 1 = 0 || imgSpan m.bytes)
            && (if imgTableOut m.bytes then s.epochOk (c.arg 0x30 8) && s.canMake (c.arg 0x38 3) (c.arg 0x30 8)
                else c.arg 0x30 8 = 0 && c.arg 0x38 3 = 0)
        | none => false))
  | 0x45 =>
    ok (if c.flags.testBit 0 then c.flags = 1 && c.noData && c.spare [(0x20, 2)] else c.flags = 0 && c.spare [])
  | 0x46 => ok (decide (c.flags < 2) && c.noData && c.spare [(0x28, 8)] && w ≠ never)
  | 0x47 =>
    ok (decide (c.flags < 8) && bits c.flags 1 0 ≠ 3 && c.noData && c.spare [(0x20, 3)]
      && (if c.flags.testBit 2 then bits c.flags 1 0 ≠ 2 && c.arg 0x20 2 = 0 && s.spaceExists (c.arg 0x22 1)
          else s.spaceExists (id / 65536) && (match s.table id with | some t => t.create ≠ never | none => false)))
  | _ => 0

/-- Step 2 of R256: 0 or the status. -/
def State.stepTwo (s : State) (c : Cmd) : Nat :=
  if c.pair < 128 then (if c.cid = 0xFFFF && c.op ≠ 9 then St.invalidField else s.adminFields c) else s.ioFields c

/-- A PATCH that inserts, deletes and drops nothing (R270). -/
def Cmd.patchesNothing (c : Cmd) : Bool :=
  c.op = 0x42 && !c.flags.testBit 0 && c.arg 0x24 4 = 0 && c.arg 0x34 1 = 0

/-- The described buffer of an EXPORT (R271). -/
def exportSize (fmts : List Nat) (count : Nat) (rowids : Bool) : Nat :=
  fmts.foldl
    (fun n f => n + up64 (count * fmtWidth f) + (if fmtNullable f then up64 ((count + 7) / 8) else 0))
    (64 + (if rowids then up64 (8 * count) else 0))

/-- The columns of an EXPORT. -/
def Cmd.columns (c : Cmd) (t : Table) : List Nat :=
  (t.fmts.drop (bits (c.arg 0x38 4) 11 0)).take (bits (c.arg 0x38 4) 27 16 + 1)

/-- The bytes a command needs at PTR, for those that need any (R253, R261, R268). -/
def State.needs (s : State) (c : Cmd) : Option Nat :=
  match c.op with
  | 1 => some 4096
  | 2 => some (c.arg 0x24 4)
  | 7 => some 0
  | 0x41 => some (16 * c.arg 0x30 2)
  | 0x42 =>
    if c.flags.testBit 0 || c.patchesNothing then none
    else some (16 * c.arg 0x34 1 + (if c.arg 0x24 4 = 0 then 0 else 16 * c.arg 0x30 2))
  | 0x43 =>
    if c.arg 0x24 4 = 0 then none
    else (s.tableAt (c.arg 0x20 3) c.epoch).map (fun t => exportSize (c.columns t) (c.arg 0x24 4) (c.flags.testBit 1))
  | 0x44 => (s.imageOf (c.arg 0x20 2)).map (fun m => 0x240 + imgParamLen m.bytes)
  | 0x45 => if c.flags.testBit 0 then none else some 0
  | _ => none

/-- Step 3 of R256: 0 or the status. -/
def State.stepThree (s : State) (c : Cmd) : Nat :=
  match s.needs c with
  | none => 0
  | some n =>
    if c.len = 0 then St.invalidField
    else if c.len < n then St.bufferOverflow
    else if c.op = 0x44 && n < c.len then St.lengthMismatch
    else if c.op = 7 && c.len % 4096 ≠ 0 then St.invalidField
    else if c.op = 7 && 2 ^ 25 < c.arg 0x20 4 + c.len then St.bufferOverflow
    else 0

/-- The delete ranges of a PATCH. -/
def deleteRanges (block : List Byte) (n : Nat) : List (Nat × Nat) :=
  (List.range n).map (fun i => (fieldLE block (16 * i) 8, fieldLE block (16 * i + 8) 8))

/-- The delete ranges meet R270. -/
def rangesOk (limit : Nat) : List (Nat × Nat) → Bool
  | [] => true
  | (a, b) :: r =>
    decide (a ≤ b) && decide (b < limit) && r.all (fun x => decide (b < x.1) || decide (x.2 < a)) && rangesOk limit r

/-- The table list of a RUN's parameter block meets R272 and R52. -/
def State.tablesOk (s : State) (c : Cmd) (block : List Byte) (out : Bool) : Bool :=
  let ws := (List.range 16).map (fun i => fieldLE block (4 * i) 4)
  let valid := ws.takeWhile (fun w => w.testBit 31)
  (ws.drop valid.length).all (fun w => !w.testBit 31) && ws.all (fun w => bits w 30 24 = 0)
    && valid.all (fun w => (s.tableAt (bits w 23 0) c.epoch).isSome) && decide (valid.length ≤ if out then 15 else 16)

/-- Step 4 of R256: the range part of the parameter block, or the status. -/
def State.stepFour (s : State) (c : Cmd) (block : HostRead) : Except Nat (List Byte) :=
  let n := if c.op = 0x44 then 64 else if c.op = 0x42 then 16 * c.arg 0x34 1 else 0
  if n = 0 then .ok []
  else
    match block with
    | .denied => .error St.accessDenied
    | .poisoned => .error St.poisonedData
    | .data b =>
      let b := b.take n
      if c.op = 0x44 then
        let out := match s.imageOf (c.arg 0x20 2) with | some m => imgTableOut m.bytes | none => false
        if s.tablesOk c b out then .ok b else .error St.invalidField
      else
        match s.tableAt (c.arg 0x20 3) (c.arg 0x28 8) with
        | some t => if rangesOk t.limit (deleteRanges b (c.arg 0x34 1)) then .ok b else .error St.invalidField
        | none => .error St.invalidField

/-- A table being made: nothing of it is visible. -/
def Table.making (fmts : List Nat) (rows : Nat) (mirrored : Bool) (tag : Nat) : Table :=
  ⟨fmts, never, never, rows, 0, mirrored, none, false, some tag, 0, 0, [], [], [], []⟩

/-- Step 5 of R256: row IDs for LOAD and PATCH (R48), and the ID of a table that is to be made; a status other than 0 leaves
everything as it was. -/
def State.stepFive (s : State) (tag : Nat) (c : Cmd) : Nat × Nat × State :=
  let id := c.arg 0x20 3
  let n := c.arg 0x24 4
  let mirrored := ((FMap.getD s.spaces (id / 65536)).map (·.mirrored)).getD false
  if c.op = 0x41 && c.flags.testBit 0 then
    if s.spaceFull (id / 65536) then (St.tableFull, 0, s)
    else
      (0, 0,
        s.setTable id (some (Table.making (List.replicate (c.arg 0x30 2) 0) n (mirrored || c.flags.testBit 1) tag)))
  else if (c.op = 0x41 || c.op = 0x42) && n ≠ 0 then
    match s.table id with
    | some t =>
      if rowLimit < t.nextRow + n then (St.tableFull, 0, s) else (0, t.nextRow, s.allocRows id n t)
    | none => (St.invalidField, 0, s)
  else if c.op = 0x44 then
    match s.imageOf (c.arg 0x20 2) with
    | some m =>
      if imgTableOut m.bytes then
        let o := c.arg 0x38 3
        if s.spaceFull (o / 65536) then (St.tableFull, 0, s)
        else
          let mir := ((FMap.getD s.spaces (o / 65536)).map (·.mirrored)).getD false
          (0, 0, s.setTable o (some (Table.making (outFormats m.bytes) 0 mir tag)))
      else (0, 0, s)
    | none => (St.invalidField, 0, s)
  else (0, 0, s)

/-- A reader's shared range over a table (R59). -/
def State.readRange (s : State) (id : Nat) : List ClampRange :=
  match s.table id with
  | some t => if t.limit = 0 then [] else [clampOf id false 0 (t.limit - 1)]
  | none => []

/-- The Clamps a command takes (R59). -/
def State.clampsFor (s : State) (c : Cmd) : List ClampRange :=
  let id := c.arg 0x20 3
  let own := if c.count = 0 then [] else [clampOf id true c.first (c.first + c.count - 1)]
  match c.op with
  | 0x41 => own
  | 0x42 =>
    if c.flags.testBit 0 then [clampOf id true 0 (2 ^ 48 - 1)]
    else own ++ (deleteRanges c.block (c.arg 0x34 1)).map (fun p => clampOf id true p.1 p.2)
  | 0x43 => s.readRange id
  | 0x44 =>
    let out :=
      match s.imageOf (c.arg 0x20 2) with
      | some m => if imgTableOut m.bytes && c.pair < 8192 then [clampOf (c.arg 0x38 3) true 0 (2 ^ 48 - 1)] else []
      | none => []
    (blockTables c.block).flatMap s.readRange ++ out
  | _ => []

/-- Steps 6 and 7 of R256: the command's Clamps are requested; it passes to Headstock if all are granted, a PUBLISH_EPOCH once every
earlier one has completed (R56). -/
def State.stepSix (s : State) (tag : Nat) (c : Cmd) (clampMs : Nat) : State :=
  let c := { c with clamps := s.clampsFor c, due := s.time.toNat + 1000000 * clampMs, stage := .waiting }
  let s := (s.setCmd tag (some c)).regrant
  match s.cmd tag with
  | some c =>
    if c.clamps.all (·.granted) then (if c.op = 0x46 && s.publishWaits c then s else s.passCmd tag)
    else { s with clampWaits := min (s.clampWaits + 1) 0xFFFFFFFF }
  | none => s

/-- The descriptor DPAs of the tables that a parameter block names, as they stand (R52, R158). -/
def State.blockDescs (s : State) (b : List Byte) : List Nat := (blockTables b).map (fun id => ((s.table id).map (·.at')).getD 0)

/-- RUN for a part that a coordinator has submitted: the image is found by DIGEST and the tables at this node's own epoch, else the part
ends with INVALID_FIELD; its shared Clamps are then requested as for any RUN (R70, R171). -/
def State.partAdmit (s : State) (tag : Nat) (p : RunPart) (params : HostRead) : State :=
  match params with
  | .data b =>
    let slot := (List.range 256).find? (fun i =>
      match s.image i with | some m => !m.removed && imgDigest m.bytes = p.digest | none => false)
    let handle := (slot.bind (fun i => (s.image i).map (imageHandle i))).getD 0
    let entry := p.entry.take 0x20 ++ natLE 2 handle ++ p.entry.drop 0x22
    let nodes := runNodesOf entry b
    let c : Cmd := ⟨8192, p.src, 128, s.fetches, entry, 0, 0, 0, b, [], 0, .waiting, none, [], 0, none, none⟩
    let s := { s with fetches := s.fetches + 1 }
    match slot, nodes.find? (fun n => s.ownFid = some n.1) with
    | some _, some n =>
      let c := { c with epoch := n.2, descs := s.blockDescs b }
      if s.tablesOk c b false then s.stepSix tag c 1000 else (s.setCmd tag (some c)).complete tag St.invalidField 0
    | _, _ => (s.setCmd tag (some c)).complete tag St.invalidField 0
  | _ => s

/-- Steps 2 to 7 of R256 for the command that has taken `tag`. -/
def State.admission (s : State) (tag : Nat) (c : Cmd) (clampMs : Nat) (block : HostRead) : State :=
  let fail (st : Nat) : State := s.complete tag st 0
  let e2 := s.stepTwo c
  let e3 := s.stepThree c
  if e2 ≠ 0 then fail e2
  else if e3 ≠ 0 then fail e3
  else if c.patchesNothing then s.complete tag St.ok 0xFFFFFFFFFFFF
  else if c.op = 0x43 && c.arg 0x24 4 = 0 then s.complete tag St.ok 0
  else
    match s.stepFour c block with
    | .error st => (s.aerStatus c.fn st).complete tag st 0
    | .ok b =>
      let c := { c with block := b }
      if 16 < (s.clampsFor { c with count := c.arg 0x24 4 }).length && c.op ≠ 0x43 then fail St.invalidField
      else
        match s.stepFive tag c with
        | (0, first, s1) =>
          let n := if c.op = 0x41 || c.op = 0x42 then c.arg 0x24 4 else 0
          let snap := if c.op = 0x43 then s.tableAt (c.arg 0x20 3) c.epoch else none
          let descs := if c.op = 0x44 then s.blockDescs b else []
          s1.stepSix tag { c with first := first, count := n, snap := snap, descs := descs } clampMs
        | (st, _, _) => fail st

/-- The command an entry gives, with its place in the fetch order (R258). -/
def State.cmdOf (s : State) (q : Nat) (e : List Byte) : Cmd :=
  let op := fieldLE e 2 1
  let reads := op = 0x43 || op = 0x44
  let epoch := if !reads then 0 else if (fieldLE e 4 4).testBit 0 then s.published else fieldLE e 0x28 8
  ⟨q, fieldLE e 0 2, s.pairFn q, s.fetches, e, epoch, 0, 0, [], [], 0, .waiting, none, [], 0, none, none⟩

/-- A fetched entry that the pair owns is checked and admitted (R235, R241, R256). -/
def State.take (s : State) (q tag : Nat) (p : Pair) (e : List Byte) (block : HostRead) : State :=
  let index := p.head
  let wrap := p.head + 1 = qcSqDepth p.ctx
  let p := { p with head := if wrap then 0 else p.head + 1, phase := if wrap then !p.phase else p.phase }
  let s := s.setPair q (some p)
  match entryCause e with
  | 0 =>
    let c := s.cmdOf q e
    let s := { (s.setCmd tag (some c)).showTags with fetches := s.fetches + 1 }
    let s := s.countWaits
    if !s.opAllowed q c.fn c.op then s.complete tag St.invalidOpcode 0
    else
      let s :=
        if c.op = 0x46 && !c.flags.testBit 0 then { s with named := max s.named (c.arg 0x28 8) }
        else s
      s.admission tag c (if p.clampMs = 0 then 1000 else p.clampMs) block
  | k => s.queueError q k index (if k = 2 then St.complementMismatch else St.malformedEntry)

/-- SQ_FETCH: the arbiter grants a fetch to pair `q`, whose head entry the host answers with `host`; `block` is what it answers
for the range part of the parameter block, `again` whether a kick arrived since the read was issued, `tag` the free tag that the
command is given (R235, R242 to R245). -/
def State.fetchSq (s : State) (q : Nat) (host block : HostRead) (again : Bool) (tag : Nat) : State :=
  if !s.bit Reg.QE_CTL 0 || s.fetchHold || (s.cmd tag).isSome || s.tagCount ≤ tag then s
  else
    match s.arbitrate, s.pair q with
    | some (q', s1), some p =>
      if q' ≠ q then s
      else
        match s1.readCtx q with
        | (.error st, s2) => if st = St.held then s else s2.queueError q 6 p.head st
        | (.ok ctx, s2) =>
          let p := { p with ctx := ctx }
          match host with
          | .denied => ((s2.setPair q (some p)).aer (s2.pairFn q) .readRefused).queueError q 4 p.head St.accessDenied
          | .poisoned => ((s2.setPair q (some p)).aer (s2.pairFn q) .readPoisoned).queueError q 5 p.head St.poisonedData
          | .data e =>
            if e.length ≠ 64 then s
            else if (fieldLE e 0 4).testBit 31 ≠ p.phase then s2.setPair q (some { p with pending := again })
            else s2.take q tag p e block
    | _, _ => s

/-- ABORT would stop the command of tag `t` (R275): a RUN that is being ended keeps the status fixed for it, and one past its commit
point completes (R170). -/
def State.canAbort (s : State) (t : Nat) (d : Cmd) : Bool :=
  d.abortable && (match s.run t with | some r => (match r.phase with | .ending _ => false | _ => !s.runPast r) | none => true)

/-- ABORT: its target stops if its commit point lies ahead (R275). -/
def State.abort (s : State) (tag : Nat) : State :=
  match s.running? tag 9 with
  | none => s
  | some c =>
    let q := c.arg 0x22 2
    let clean := c.flags = 0 && c.noData && c.spare [(0x20, 4)] && decide (q < 8192) && c.cid ≠ 0xFFFF
    let owned := match s.pair q with | some _ => s.pairFn q = c.fn | none => false
    let hits :=
      s.cmds.filterMap (fun e => e.2.bind (fun d => if d.pair = q && d.cid = c.arg 0x20 2 then some (e.1, d) else none))
    let first := hits.foldl (fun b x => match b with | some y => if x.2.order < y.2.order then some x else some y | none => some x) (none : Option (Nat × Cmd))
    match first with
    | some (t, d) =>
      if clean && owned && s.canAbort t d then
        let s := s.cancel t St.aborted
        match s.cmd tag with
        | some c => (s.setCmd tag (some { c with after := some d.order })).complete tag St.ok 1
        | none => s
      else s.complete tag St.ok 0
    | none => s.complete tag St.ok 0

end Sys2Proof.Machine
end

