-- ==== Sys2Proof/Machine/Steady.lean ====
section
/-! DEFINITION. Steady: the resets of the die (R437, R459), power domains, the save list and refusals (R439 to R445, R457),
clocks on demand (R446 to R448), wake sources (R451 to R453), supply failure and limits (R454 to R456), and its registers
(R458). -/

namespace Sys2Proof.Machine

/-! Resets. -/

/-- A register that lies in the STEADY domain (R477). -/
def steadyReg (off : Nat) : Bool :=
  (decide (0x1000 ≤ off) && decide (off < 0x2000)) || off = Reg.GLB_RESET_CAUSE || off = Reg.GLB_BOOT_CTL || off = Reg.GLB_FUSE

/-- A flat-store address of the keep store. -/
def inKeep (a : Nat) : Bool := decide (keepAt 0 ≤ a) && decide (a < keepAt 0x10000)

/-- Plate's own state once its domain has lost power: the store, the record and the logs stay. -/
def Plate.off (p : Plate) : Plate :=
  { p with
    regions := [], dirty := [], work := [], etch := none, copied := 0, retried := 0, freeze := 0, go := false
    shut := false }

/-- The boot's own state once every domain but STEADY has lost its contents: the boot store, the record and the log stay. -/
def Boot.off (b : Boot) : Boot :=
  { b with
    due := false, buf := [], ranges := [], raise := 0, printed := none, printedAt := 0, reason := 0, orderly := none
    live := none, benchErrors := [] }

/-- The state code of every domain but STEADY becomes OFF, and the PLLs stop. -/
def State.domainsOff (s : State) : State :=
  let s := (rangeFrom 1 16).foldl (fun s d => s.setFld (Reg.STY_DOM_STATUS d) 31 30 2) s
  (List.range 4).foldl (fun s k => (s.setFld (Reg.STY_QPLL k) 31 31 0).setFld (Reg.STY_QPLL k) 30 30 0) s

/-- Every domain but STEADY loses its state, and the module is Dormant (R440, R459). -/
def State.goDormant (s : State) : State :=
  let t : State :=
    { State.reset with
      regs := FMap.keep s.regs (fun k _ => steadyReg k)
      held := FMap.keep s.held (fun k _ => steadyReg k)
      captured := FMap.keep s.captured (fun k _ => steadyReg k)
      mem := FMap.keep s.mem (fun k b => inKeep k && b != 0)
      poison := FMap.keep s.poison (fun k _ => inKeep (64 * k))
      time := s.time
      fresh := s.fresh
      plate := s.plate.off
      steady := { s.steady with waking := false, onLater := 0, gated := 0 }
      boot := s.boot.off
      sent := s.sent
      answer := s.answer
      pending := s.pending }
  ((t.setMode .dormant).setFld Reg.STY_VIGIL_CTL 30 30 0).domainsOff

/-- A die reset of a cause: every domain but STEADY is reset, and the boot follows (R459). -/
def State.dieReset (s : State) (cause : Nat) : State :=
  let s := s.goDormant
  let s := s.setFld Reg.GLB_RESET_CAUSE 3 0 cause
  { s with boot := { s.boot with due := true, hold := s.bit Reg.GLB_BOOT_CTL 30 } }

/-- COLD_RESET: all three supplies of Steady are lost (R437, R459). -/
def State.coldReset (s : State) : State :=
  if s.steady.good || s.steady.aux || s.mode ≠ .dormant then s
  else
    { State.reset with
      fresh := s.fresh
      plate := { s.plate.off with testDue := 0, testAt := 0 }
      steady := { s.steady with waking := false, onLater := 0, gated := 0, alarmed := false, wdogDue := 0 }
      boot := { s.boot.off with wdogs := 0, hold := false }
      sent := s.sent
      answer := s.answer
      pending := s.pending }

/-- The host link is lost: every pair is deleted and every function's view cleared (R246). -/
def State.linkDown (s : State) : State :=
  (List.range s.functions).foldl (fun s f => (s.deletePairsOf f).clearFnView f) s

/-! Power domains. -/


/-- The unit of a domain that keeps it from being powered off now, if any (R439). -/
def State.domainBusy (s : State) (d : Nat) : Option Nat :=
  if d = 3 then (if (List.range 16).any (fun n => s.coreState n ≠ 0) then some Tgt.headstock else none)
  else if 4 ≤ d && d < 8 then
    ((quadrantTiles (d - 4)).find? (fun n => !s.halted n || s.tileHeld (s.pairTile n))).map (fun n => Tgt.tile (s.pairTile n))
  else if d = 8 then
    (if s.bit Reg.SC_CTL 0 || s.bit Reg.SC_CTL 4 then some Tgt.cache else none)
  else if d = 9 then (if (List.range 16).any s.gTable then some Tgt.gauge else none)
  else if d = 10 then
    (if s.fld Reg.STP_STATUS 15 0 ≠ 0 then some Tgt.stipple else if s.fld Reg.PRF_STATUS 7 0 ≠ 0 then some Tgt.proof else none)
  else if d = 12 then
    (if (List.range 8).any (fun p => s.portState p = 2 || s.portState p = 5) then some Tgt.hatch else none)
  else none

/-- The current mode lets a domain be off (R439, R440). -/
def State.modeLetsOff (s : State) (d : Nat) : Bool :=
  if d < 3 || d = 11 || 13 ≤ d then false
  else if s.mode = .vigil then d ≠ 12
  else if s.mode = .bringUp then d ≠ 3 && d ≠ 10
  else d ≠ 3

/-- A refusal is logged and signalled (R457). -/
def State.logRefusal (s : State) (d unit reason : Nat) : State :=
  let i := s.fld Reg.STY_RLOG_WR 4 0
  let s := s.wr (Reg.STY_RLOG_INFO i) (BitVec.ofNat 32 (2 ^ 24 * d + 2 ^ 16 * unit + 2 ^ 8 * reason))
  let s := s.wr64 (Reg.STY_RLOG_TIME_LO i) s.time.toNat
  let s := s.setFld Reg.STY_RLOG_WR 4 0 ((i + 1) % 32)
  (s.raise Reg.STY_INT_STATUS 2).signal 131

/-- A refused power-down or power-up is counted, logged and signalled (R457). -/
def State.refuseDomain (s : State) (d unit reason : Nat) : State :=
  (s.count (Reg.STY_DOM_STATUS d) 15 0 1).logRefusal d unit reason

/-- Entry `i` of the save list names a register of domain `d`: its offset, `some none` where the entry's pair is broken; one of STEADY
or SPINE is ignored (R445). -/
def State.saveEntry (s : State) (d i : Nat) : Option (Option Nat) :=
  let n := leNat (s.bytes (keepAt (8 * i)) 8)
  if !cp32Ok n then some none
  else if n.testBit 31 && bits n 28 24 = d && 2 ≤ d && 2 ≤ s.domainOf (.reg (4 * bits n 23 2)) then some (some (4 * bits n 23 2))
  else none

/-- A skipped entry is counted (R445). -/
def State.skipSave (s : State) : State := s.count Reg.STY_SAVE_SKIPS 31 0 1

/-- Entry `i` is skipped for a broken pair at keep-store offset `o`, which Guard records (R39, R445; the fields that no rule gives are
a DESIGN CHOICE, assumption 108). -/
def State.brokenSave (s : State) (o i : Nat) : State :=
  s.skipSave.report
    { status := St.complementMismatch, target := Tgt.steady, severity := 2, master := Mid.steady, address := keepAt o,
      tag := 0xFFFF, detail := i }

/-- Steady saves the registers that the save list names in domain `d`, as master 0x300 (R445). -/
def State.saveDomain (s : State) (d : Nat) : State :=
  (List.range 2048).foldl
    (fun s i =>
      match s.saveEntry d i with
      | none => s
      | some none => s.brokenSave (8 * i) i
      | some (some off) =>
        match s.judge 0x0A Mid.steady (regDpa off) 4 Rights.read with
        | (0, s) => s.putBytes (keepAt (0x4000 + 8 * i)) (natLE 8 (cp32 (s.view Mid.steady off).toNat))
        | (_, s) => s.skipSave) s

/-- Steady writes the saved values of domain `d` back (R445). -/
def State.restoreDomain (s : State) (bus : Bus) (d : Nat) : State :=
  (List.range 2048).foldl
    (fun s i =>
      match s.saveEntry d i with
      | none => s
      | some none => s.brokenSave (8 * i) i
      | some (some off) =>
        let n := leNat (s.bytes (keepAt (0x4000 + 8 * i)) 8)
        if !cp32Ok n then s.brokenSave (0x4000 + 8 * i) i
        else
          let v := BitVec.ofNat 32 n
          match s.judge 0x0A Mid.steady (regDpa off) 4 (if needsAdmin off v then Rights.admin else Rights.write) with
          | (0, s) => bus.reg s Mid.steady off v
          | (_, s) => s.skipSave) s

/-- What lies in the flat store from `a` for `n` bytes is lost. -/
def State.loseBytes (s : State) (a n : Nat) : State :=
  { s with
    mem := FMap.keep s.mem (fun k _ => !(decide (a ≤ k) && decide (k < a + n)))
    poison := FMap.keep s.poison (fun k _ => !(decide (a ≤ 64 * k) && decide (64 * k < a + n))) }

/-- A tile's registers, core, bench and channels are lost with its power. -/
def State.loseTile (s : State) (n : Nat) : State :=
  let s := (s.resetRegs (0x800000 + 0x10000 * n) (0x810000 + 0x10000 * n)).setCore n Core.reset
  let s := s.loseBytes (benchAt n 0) 0x200000
  { s with inbound := FMap.keep s.inbound (fun k _ => k / 32 ≠ n), l1Inv := setBits s.l1Inv n n 0 }

/-- The requests that Hatch has sent and that have no answer complete with DOMAIN_POWERED_DOWN as its power goes (R441). -/
def State.endAllFar (s : State) : State :=
  (s.far.filter (·.done.isNone)).foldl (fun s f => s.endFar f St.domainPoweredDown [] false) s

/-- The state of domain `d`'s units is lost with its power (R441, R443). A retired Gauge bank or Stipple engine stays retired until a die
reset (R188, R207). A Fabric module without Hatch is Solo, but DEV_MODE stands for the whole of an etch (R18). -/
def State.loseDomain (s : State) (d : Nat) : State :=
  match d with
  | 2 => s.linkDown
  | 3 => { s with cores := FMap.keep s.cores (fun k _ => decide (k < 128)), headSlots := [] }
  | 4 | 5 | 6 | 7 => (quadrantTiles (d - 4)).foldl (fun s n => s.loseTile n) s
  | 8 => { s.resetRegs 0x500000 0x600000 with slices := [], writeBacks := [], scInv := false }
  | 9 =>
    let t := (s.resetRegs 0x330000 0x400000).wr Reg.GAU_BANK_RETIRED (s.rd Reg.GAU_BANK_RETIRED)
    State.gFreeBanks
      { t with gauge := [], gaugeScrub := 0, gaugeRepairs := [], gaugeLast := [], gaugeWaits := [], gaugeQueue := [], gaugeDone := [] }
  | 10 =>
    let mine (k : Nat) : Bool := (ringOfKey k).unit = .stp || (ringOfKey k).unit = .prf
    let t := (s.resetRegs 0x310000 0x330000).wr Reg.STP_ENG_RETIRED (s.rd Reg.STP_ENG_RETIRED)
    { t with
      rings := FMap.keep s.rings (fun k _ => !mine k), jobs := s.jobs.filter (fun j => !mine j.ring)
      slots := [], prfTurn := [], prfUsed := [], ringNext := [], stpRetire := 0 }
  | 12 =>
    let mine (k : Nat) : Bool := (ringOfKey k).unit = .hat
    let t := s.endAllFar.resetRegs 0x700000 0x780000
    { (if s.mode = .fabric && s.fld Reg.PLT_STATUS 31 29 ≠ 2 then t.setMode .solo else t) with
      rings := FMap.keep s.rings (fun k _ => !mine k), jobs := s.jobs.filter (fun j => !mine j.ring)
      txs := [], portQueue := [], hat := Hat.reset }
  | _ => s

/-- Steps 4 and 5 of R441. -/
def State.cutDomain (s : State) (d : Nat) : State :=
  let s := (s.saveDomain d).loseDomain d
  let s := s.setFld (Reg.STY_DOM_STATUS d) 31 30 2
  if s.steady.onLater.testBit d && !s.plate.shut then
    State.setFld { s with steady := { s.steady with onLater := setBits s.steady.onLater d d 0 } } (Reg.STY_DOM_STATUS d) 31 30 3
  else s

/-- A power-down is asked for: refused, or fenced and drained (R441, R444, R457, R458). -/
def State.powerDown (s : State) (d : Nat) (drained : Bool) : State :=
  if d < 2 then s.refuseDomain d Tgt.steady 3
  else
    match s.domState d with
    | 0 =>
      if 2 ≤ s.fld Reg.PLT_STATUS 31 29 then s.refuseDomain d Tgt.plate 4
      else if !s.modeLetsOff d then s.refuseDomain d Tgt.steady 3
      else
        match s.domainBusy d with
        | some u => s.refuseDomain d u 2
        | none => if drained then s.cutDomain d else s.setFld (Reg.STY_DOM_STATUS d) 31 30 1
    | _ => s

/-- A power-up is asked for (R443, R444). -/
def State.powerUp (s : State) (d : Nat) : State :=
  if d = 0 then s.refuseDomain d Tgt.steady 3
  else
    match s.domState d with
    | 1 => { s with steady := { s.steady with onLater := setBits s.steady.onLater d d 1 } }
    | 2 => if s.plate.shut then s else s.setFld (Reg.STY_DOM_STATUS d) 31 30 3
    | _ => s

/-- A write of STY_DOMd_CTL (R444, R458). -/
def State.domCtl (s : State) (m d : Nat) (v : Word) (drained : Bool) : State :=
  if v.toNat.testBit 31 && v.toNat.testBit 30 then s.refuse m (Reg.STY_DOM_CTL d) St.invalidField
  else
    let s := s.plainWrite m (Reg.STY_DOM_CTL d) v
    if v.toNat.testBit 31 then s.powerDown d drained
    else if v.toNat.testBit 30 then s.powerUp d
    else s

/-- DRAIN_TIMEOUT: the drain of domain `d` has passed 10 µs, `holder` still holding traffic: outside an etch the fence is lifted
and the power-down refused (R441). -/
def State.drainTimeout (s : State) (d holder : Nat) : State :=
  if s.domState d ≠ 1 then s
  else if s.plate.shut then
    (s.report
      { status := St.domainPoweredDown, target := holder, severity := 2, master := Mid.steady, address := 0, tag := 0xFFFF,
        detail := d }).cutDomain d
  else
    let s := (s.setFld (Reg.STY_DOM_STATUS d) 31 30 0).refuseDomain d holder 1
    { s with steady := { s.steady with onLater := setBits s.steady.onLater d d 0 } }

/-- DOMAIN_POWER_UP_DONE: the save list is restored and the fence lifted (R443). -/
def State.powerUpDone (s : State) (bus : Bus) (d : Nat) : State :=
  if s.domState d ≠ 3 then s
  else
    let s := (s.restoreDomain bus d).setFld (Reg.STY_DOM_STATUS d) 31 30 0
    if 4 ≤ d && d < 8 then s.setFld (Reg.STY_QPLL (d - 4)) 31 31 1 else s

/-- The domains of a mode are put on, and every other but those already on is left off (R440). -/
def State.domainsOn (s : State) (ds : List Nat) : State :=
  ds.foldl
    (fun s d =>
      let s := s.setFld (Reg.STY_DOM_STATUS d) 31 30 0
      if 4 ≤ d && d < 8 then s.setFld (Reg.STY_QPLL (d - 4)) 31 31 1 else s) s

/-- The domains that Bring-up has on (R440). -/
def bringUpDomains : List Nat := [0, 1, 2, 3, 10, 11, 13, 14, 15, 16]
/-- The domains that Solo, Fabric and Diptych have on (R440). -/
def serviceDomains : List Nat := [0, 1, 2, 3, 11, 13, 14, 15, 16]

/-- Steady's own power-down of domains at step 4 of R420: no condition is asked (R441). -/
def State.forceOff (s : State) (ds : List Nat) : State :=
  ds.foldl (fun s d => if s.domState d = 0 || s.domState d = 1 then s.cutDomain d else s) s

/-! Clocks on demand. -/

/-- TILE_CLOCK_GATE: tile `n` has issued no instruction for 10 µs, because it does not run or waits on a channel, and neither has a request
outstanding nor received a packet (R446). -/
def State.gateTile (s : State) (n : Nat) : State :=
  let idle :=
    (!s.bit (Reg.TIL_CTL n) 0 || (s.core n).chWait.isSome) && !s.unperformed n
      && !s.noc.any (fun m => (s.localTile m.tile = some n && m.kind < 2) || m.sender = n)
  if n < 64 && idle then { s with steady := { s.steady with gated := setBits s.steady.gated n n 1 } } else s

/-- QUADRANT_PLL_STOP: every tile of quadrant `k` has been gated for 1 ms (R447). -/
def State.pllStop (s : State) (k : Nat) : State :=
  if (quadrantTiles k).all (fun n => s.steady.gated.testBit n) && !s.bit (Reg.STY_QPLL k) 3 && s.domState (4 + k) = 0 then
    (s.setFld (Reg.STY_QPLL k) 30 30 1).setFld (Reg.STY_QPLL k) 31 31 0
  else s

/-- QUADRANT_PLL_RELOCK: a stopped PLL has relocked (R447). -/
def State.pllRelock (s : State) (k : Nat) : State := if s.bit (Reg.STY_QPLL k) 30 then s.relockPll k else s

/-- The point imposed on quadrant `k` (R458). -/
def State.imposed (s : State) (k : Nat) : Nat := s.fld Reg.STY_THERM_STATUS (3 * k + 2) (3 * k)

/-- The point quadrant `k` should run at: the slower of MAX and the imposed point (R448). -/
def State.wantedPoint (s : State) (k : Nat) : Nat := max (s.fld (Reg.STY_QPLL k) 2 0) (s.imposed k)

/-- FREQUENCY_POINT_CHANGE (R448). -/
def State.pointChange (s : State) (k : Nat) : State := s.setFld (Reg.STY_QPLL k) 6 4 (s.wantedPoint k)

/-! Sensors and limits. -/

/-- The hottest die sensor of quadrant `k` (R455). -/
def State.quadrantTemp (s : State) (k : Nat) : Nat :=
  ((List.range 16).filter (fun i => 2 * (i / 8) + i % 2 = k)).foldl (fun m i => max m (s.fld (Reg.STY_TSENS i) 7 0)) 0

/-- The hottest die sensor. -/
def State.dieTemp (s : State) : Nat := (List.range 16).foldl (fun m i => max m (s.fld (Reg.STY_TSENS i) 7 0)) 0

/-- The power limit in force (R455, R496). -/
def State.powerLimit (s : State) : Nat :=
  let w := s.fld Reg.STY_PWR_LIMIT 9 0
  if s.steady.shed then min w 300 else w

/-- Readings of sensors for which the command has no operand are free values: auxiliary current, inlet air, bank and plate device
temperatures. -/
def State.otherSensors (s : State) : State :=
  let (aux, s) := s.free 16
  let (inlet, s) := s.free 8
  let (bank, s) := s.free 8
  let s := s.setFld Reg.STY_POWER 31 16 aux.toNat
  let s : State := { s with steady := { s.steady with inlet := inlet.toInt, bankTemp := bank.toInt } }
  (List.range 4).foldl
    (fun s d =>
      let (t, s) := s.free 8
      { s with steady := { s.steady with devTemp := FMap.setD s.steady.devTemp d t.toNat } }) s

/-- THERMAL_SAMPLE (R455): the die sensors, and the input power and voltage. -/
def State.thermalSample (s : State) (temps : List (BitVec 8)) (power input : Nat) : State :=
  let s := (List.range 16).foldl (fun s i => s.setFld (Reg.STY_TSENS i) 7 0 (temps.getD i 0).toNat) s
  let s := s.setFld Reg.STY_THERM_STATUS 31 24 s.dieTemp
  ((s.setFld Reg.STY_POWER 15 0 power).setFld Reg.STY_SUPPLY 15 0 input).otherSensors

/-- THROTTLE_STEP: one step of quadrant `k`'s imposed point, down while it is hot or the module draws too much, up once it is
cool (R455). -/
def State.throttleStep (s : State) (k : Nat) : State :=
  let limit := s.fld Reg.STY_THERM_CTL 7 0
  let excess := decide (s.powerLimit < s.fld Reg.STY_POWER 15 0)
  let cur := s.imposed k
  let top := s.fld (Reg.STY_QPLL k) 2 0
  if limit ≤ s.quadrantTemp k || excess then
    let p := min 4 (max cur top + 1)
    let s' := s.setFld Reg.STY_THERM_STATUS (3 * k + 2) (3 * k) p
    if cur ≤ top && top < p then s'.raise Reg.STY_INT_STATUS 3 else s'
  else if s.quadrantTemp k + 5 < limit && top < cur then s.setFld Reg.STY_THERM_STATUS (3 * k + 2) (3 * k) (cur - 1)
  else s

/-! Supply failure and wake sources. -/

/-- The supply-failure signal (R454): the failure is recorded, and a bank test ends (R433); with Plate off the module goes Dormant at
once. -/
def State.supplyFail (s : State) : State :=
  let s := ((s.setFld Reg.STY_SUPPLY 31 31 1).raise Reg.STY_INT_STATUS 0).setFld Reg.PLT_BANK_STATUS 3 3 0
  if s.bit Reg.PLT_CTL 0 && s.mode ≠ .dormant then s else s.goDormant

/-- SUPPLY_FAILURE (R454): the signal is raised once and never withdrawn; where neither an open presence contact nor a die sensor
at CRIT explains it, the 48 V input is low. -/
def State.supplyFailure (s : State) : State :=
  let other := !s.steady.present || !s.steady.switchOn || decide (s.fld Reg.STY_THERM_CTL 15 8 ≤ s.dieTemp)
  let low := !other || decide (s.fld Reg.STY_SUPPLY 15 0 < 3800)
  if s.bit Reg.STY_SUPPLY 31 then s
  else State.supplyFail (if low then { s with steady := { s.steady with good := false } } else s)

/-- The module may leave Dormant: its input is good and every die sensor at least 10 °C below THROTTLE (R451, R454). -/
def State.mayBoot (s : State) : Bool :=
  s.mode = .dormant && !s.boot.due && s.fld Reg.GLB_BOOT_STATUS 31 28 = 0 && s.domState 1 = 2 && s.steady.good
    && decide (s.dieTemp + 10 ≤ s.fld Reg.STY_THERM_CTL 7 0)

/-- Wake source `b` fires (R451): its bit is set; enabled, it ends Vigil or starts the boot. -/
def State.wake (s : State) (b : Nat) : State :=
  let s := (s.setFld Reg.STY_WAKE_CAUSE b b 1).raise Reg.STY_INT_STATUS 1
  let on := b = 7 || s.bit Reg.STY_WAKE_EN b
  if !on then s
  else if s.mode = .vigil || s.bit Reg.STY_VIGIL_CTL 30 then { s with steady := { s.steady with waking := true } }
  else if s.mayBoot then (s.setFld Reg.STY_SUPPLY 31 31 0).dieReset 1
  else s

/-- WAKE_SOURCE: sources 0 to 3 and 5 arrive; PCIe activity counts in Vigil, a management transaction while SPINE is on, and
source 7 once the input is good (R451). -/
def State.wakeSource (s : State) (b : Nat) : State :=
  if b = 0 && s.mode ≠ .vigil then s
  else if b = 5 && s.domState 1 ≠ 0 then s
  else if b = 7 && !s.mayBoot then s
  else s.wake b

/-- ALARM: the timebase reaches STY_ALARM; it fires once for each value (R451, R458). -/
def State.alarm (s : State) : State :=
  if s.steady.alarmed then s
  else
    let s := s.atTime (s.rd64 Reg.STY_ALARM_LO)
    State.wake { s with steady := { s.steady with alarmed := true } } 6

/-- The reason of a wake word, if it is intact (R452). -/
def wakeReason (w : Word) : Option Nat :=
  let n := w.toNat
  if bits n 15 0 = 0x5555 && bits n 31 24 = 255 - bits n 23 16 then some (bits n 23 16) else none

/-- The first reason that three consecutive intact and equal words carry (R452). -/
def acceptReason : List Word → Option Nat
  | a :: b :: c :: r =>
    match wakeReason a with
    | some x => if b = a && c = a then some x else acceptReason (b :: c :: r)
    | none => acceptReason (b :: c :: r)
  | _ => none

/-- A port refreshes its neighbour record as a HELLO would (R453). -/
def wakes (r : Nat) : Bool := (decide (1 ≤ r) && decide (r ≤ 3)) || decide (0x80 ≤ r)

/-- A wake reason other than KEEPALIVE is accepted on a port (R451, R452). -/
def State.takeReason (s : State) (p r : Nat) : State :=
  if wakes r then ((s.setFld Reg.STY_WAKE_CAUSE 15 8 r).setFld Reg.STY_WAKE_CAUSE 18 16 p).wake 4 else s

/-- WAKE_SEND: a reason is sent on the ASLEEP or DOWN ports of a mask (R453, R458). -/
def State.wakeSend (s : State) (m : Nat) (v : Word) : State :=
  let r := bits v.toNat 7 0
  if r < 0x80 then s.refuse m Reg.STY_WAKE_SEND St.invalidField
  else
    (List.range 8).foldl
      (fun s p =>
        if v.toNat.testBit (8 + p) && (s.portState p = 3 || s.portState p = 0) then { s with sent := s.sent ++ [.wake p r] }
        else s) s

/-! Registers (R456, R458). -/

/-- A write of STY_THERM_CTL. -/
def State.thermCtl (s : State) (m : Nat) (v : Word) : State :=
  let t := bits v.toNat 7 0
  let c := bits v.toNat 15 8
  if 70 ≤ t && t ≤ 105 && t + 5 ≤ c && c ≤ 115 then s.plainWrite m Reg.STY_THERM_CTL v
  else s.refuse m Reg.STY_THERM_CTL St.invalidField

/-- A write of STY_PWR_LIMIT. -/
def State.pwrLimit (s : State) (m : Nat) (v : Word) : State :=
  let w := bits v.toNat 9 0
  if 200 ≤ w && w ≤ 650 then s.plainWrite m Reg.STY_PWR_LIMIT v else s.refuse m Reg.STY_PWR_LIMIT St.invalidField

/-- A write of STY_QPLLk. -/
def State.qpllWrite (s : State) (m k : Nat) (v : Word) : State :=
  if v.toNat % 8 ≤ 4 then
    let s := s.plainWrite m (Reg.STY_QPLL k) v
    if s.bit (Reg.STY_QPLL k) 3 then s.pllRelock k else s
  else s.refuse m (Reg.STY_QPLL k) St.invalidField

/-- A write of the STY_ALARM pair arms the alarm again. -/
def State.alarmWrite (s : State) (v : Nat) : State :=
  State.wr64 { s with steady := { s.steady with alarmed := false } } Reg.STY_ALARM_LO v

/-! The watchdog (R466). -/

/-- The watchdog runs: EN is set, and neither an etch, a print nor Vigil suspends it. -/
def State.wdogRuns (s : State) : Bool :=
  s.bit Reg.GLB_WDOG_CTL 31 && s.fld Reg.PLT_STATUS 31 29 ≠ 2 && s.fld Reg.PLT_STATUS 31 29 ≠ 3 && s.mode ≠ .vigil

/-- The watchdog starts a full period. -/
def State.wdogStart (s : State) : State :=
  { s with steady := { s.steady with wdogDue := s.time.toNat + 1000000 * s.fld Reg.GLB_WDOG_CTL 15 0 } }

/-- A write of GLB_WDOG_CTL (R466, R477). -/
def State.wdogCtl (s : State) (m : Nat) (v : Word) : State :=
  let p := bits v.toNat 15 0
  if p < 100 then s.refuse m Reg.GLB_WDOG_CTL St.invalidField
  else
    let was := s.bit Reg.GLB_WDOG_CTL 31
    let s := s.plainWrite m Reg.GLB_WDOG_CTL v
    if !was && s.bit Reg.GLB_WDOG_CTL 31 then s.wdogStart else s

/-- WATCHDOG_EXPIRE: the period has passed without a kick, and the die resets as by KIND 2 (R459, R466). -/
def State.wdogExpire (s : State) : State :=
  if s.wdogRuns then
    let s := (s.atTime s.steady.wdogDue).dieReset 4
    { s with boot := { s.boot with wdogs := min (s.boot.wdogs + 1) 0xFFFFFFFF } }
  else s

end Sys2Proof.Machine
end

