-- ==== Sys2Proof/Machine/Plate.lean ====
section
/-! DEFINITION. Plate (R412 to R436): regions, the background copy, etches, the print, the plate jobs, the plate devices and the
hold-up bank. -/

namespace Sys2Proof.Machine

/-- Plate's own state changes. -/
def State.setPlate (s : State) (p : Plate) : State := { s with plate := p }

/-- PLT_STATUS.STATE (R435): 0 disabled, 1 service, 2 power-fail etch, 3 print, 4 commanded etch. -/
def State.pltState (s : State) : Nat := s.fld Reg.PLT_STATUS 31 29

/-- The store has failed (R431). -/
def State.storeFailed (s : State) : Bool := s.bit Reg.PLT_STATUS 28

/-- RESIDENT in MiB (R413). -/
def State.resident (s : State) : Nat := s.fld Reg.PLT_RESIDENT 16 0

/-- PLT_LIMIT in MiB as R423 and R431 give it. -/
def State.pltLimit (s : State) : Nat :=
  let t := min (s.fld Reg.PLT_ETCH_DEADLINE 12 0) (5 * s.plate.record.usable.getD 1800)
  if s.storeFailed then 0 else min (s.hbmLimit / 2 ^ 20) (56000000 * (t - 50) / 2 ^ 20)

/-- PLT_BANK_STATUS.READY as R432 gives it. -/
def State.bankReady (s : State) : Bool :=
  let j := s.fld Reg.PLT_BANK_ENERGY 15 0
  decide (50 ≤ j) && decide (200 * s.resident * 2 ^ 20 ≤ (j - 50) * 56000000000)

/-- LIMIT, OVER_LIMIT and READY follow what they depend on (R423, R432). -/
def State.showLimit (s : State) : State :=
  let l := s.pltLimit
  let s := s.setFld Reg.PLT_LIMIT 16 0 l
  let excess := decide (l < s.resident)
  let was := s.bit Reg.PLT_STATUS 27
  let s := s.setFld Reg.PLT_STATUS 27 27 (bit01 excess)
  let s := s.setFld Reg.PLT_BANK_STATUS 0 0 (bit01 s.bankReady)
  if excess && !was then s.raise Reg.PLT_INT_STATUS 2 else s

/-- The newest valid slot: `some false` A, `some true` B (R417). -/
def Plate.newest (p : Plate) : Option Bool :=
  match p.slotA, p.slotB with
  | some a, some b => some (decide (a.gen < b.gen))
  | some _, none => some false
  | none, some _ => some true
  | none, none => none

/-- A slot. -/
def Plate.slot (p : Plate) (b : Bool) : Option PltSlot := if b then p.slotB else p.slotA

/-- A slot becomes `v`. -/
def Plate.setSlot (p : Plate) (b : Bool) (v : Option PltSlot) : Plate := if b then { p with slotB := v } else { p with slotA := v }

/-- The working slot (R417). -/
def Plate.working (p : Plate) : Bool := !(p.newest.getD true)

/-- PLT_STATUS.VALID and NEWEST follow the slots (R435). -/
def State.showSlots (s : State) : State :=
  let s := s.setFld Reg.PLT_STATUS 25 25 (bit01 s.plate.slotA.isSome)
  let s := s.setFld Reg.PLT_STATUS 26 26 (bit01 s.plate.slotB.isSome)
  s.setFld Reg.PLT_STATUS 24 24 (bit01 (s.plate.newest.getD false))

/-- The complement pairs of a slot header are intact (R39, R416). -/
def headerPairsOk (b : List Byte) : Bool :=
  [0, 8, 0x30, 0x38, 0x40].all (pair32At b) && [0x10, 0x20].all (pair64At b)

/-- Plate judges both slots: `worn` are the header copies that a device reads other than as they were written, with their slot, and such
a slot is not valid (R39, R417). A broken pair is recorded too; the record's other fields are the model's (DEDUCED, assumption 125). -/
def State.judgeSlots (s : State) (worn : List (Bool × List Byte)) : State :=
  (worn.foldl
    (fun s w =>
      if (s.plate.slot w.1).isNone then s
      else
        let s := s.setPlate (s.plate.setSlot w.1 none)
        if headerPairsOk w.2 then s
        else
          s.report
            { status := St.complementMismatch, target := Tgt.plate, severity := 3, master := Mid.plate, address := 0, tag := 0xFFFF,
              detail := bit01 w.1 }) s).showSlots

/-! Regions and dirty chunks. -/

/-- A chunk's bits are cleared. -/
def Plate.clean (p : Plate) (k : Nat) : Plate := { p with dirty := FMap.keep p.dirty (fun g _ => g / 16 ≠ k) }

/-- A region table entry: its base, size and ATTR. -/
def regionOf (b : List Byte) : Nat × Nat × Nat := (fieldLE b 0 8, fieldLE b 0x10 4, fieldLE b 0x18 4)

/-- The region of a valid entry. -/
def regionMake (e : Nat × Nat × Nat) : PltRegion := ⟨e.1 / 2 ^ 20, e.2.1, e.2.2.testBit 0⟩

/-- No two regions overlap. -/
def regionsApart : List PltRegion → Bool
  | [] => true
  | r :: rs => rs.all (fun q => !meets r.first r.chunks q.first q.chunks) && regionsApart rs

/-- The fields of a region table meet R412. -/
def State.regionsOk (s : State) (es : List (Nat × Nat × Nat)) : Bool :=
  let valid := es.filter (fun e => e.2.2.testBit 31)
  es.all (fun e => bits e.2.2 30 1 = 0 && bits e.1 19 0 = 0)
    && (match es with | e :: _ => e.2.2.testBit 31 | [] => false)
    && valid.all (fun e =>
      decide (1 ≤ e.2.1) && decide (e.2.1 ≤ 98304) && decide (e.1 + 2 ^ 20 * e.2.1 ≤ s.hbmLimit)
        && (rangeFrom (e.1 / 2 ^ 20) e.2.1).all (fun k => (s.copyWindow (2 ^ 20 * k)).isNone))
    && regionsApart (valid.map regionMake)

/-- The load of a region table of `n` entries: its status and, on OK, its regions (R412). -/
def State.readRegions (s : State) (n : Nat) : (Nat × List PltRegion) × State :=
  if n = 0 || 256 < n then ((St.invalidField, []), s)
  else
    let (a, s) := s.readMem Mid.plate (s.rd64 Reg.PLT_REGION_BASE_LO) (32 * n)
    let es := (List.range n).map (fun i => subBytes a.data (32 * i) 32)
    let entries := es.map regionOf
    let r :=
      if a.status ≠ St.ok then a.status
      else if a.poison then St.poisonedData
      else if !es.all (fun e => pair64At e 0 && pair32At e 0x10 && pair32At e 0x18) then St.complementMismatch
      else if !s.regionsOk entries then St.invalidField
      else St.ok
    ((r, if r = St.ok then (entries.filter (fun e => e.2.2.testBit 31)).map regionMake else []), s)

/-- REGION_LOAD: a write of PLT_REGION_CMD (R412, R435). -/
def State.regionLoad (s : State) (m : Nat) (v : Word) : State :=
  let s0 := s
  let s := s.plainWrite m Reg.PLT_REGION_CMD v
  if !v.toNat.testBit 31 then s
  else
    let ((st, rs), s) := s.readRegions (bits v.toNat 24 16)
    if st = St.held then s0
    else
      let s := s.setFld Reg.PLT_REGION_CMD 15 0 st
      if st ≠ St.ok then s
      else
        let s := s.setPlate { s.plate with regions := rs }
        (s.setFld Reg.PLT_RESIDENT 16 0 ((rs.map (·.chunks)).foldl (· + ·) 0)).showLimit

/-! Copies. -/

/-- The CODEC of a compressed chunk (R416): WIDTH 5, STRIDE 8. -/
def chunkCodec : Codec := ⟨5, false, false, 0, 8⟩

/-- The raw bytes a stored chunk gives. -/
def chunkRaw (compressed : Bool) (stored : List Byte) : Option (List Byte) :=
  if compressed then (decodeFrames chunkCodec false [] 17 (2 ^ 20) stored).map (fun vs => vs.flatMap (natLE 1))
  else some stored

/-- The 64-byte granules of a range of local DPAs are read as Plate: the first status other than OK, the bytes with poisoned granules as
zero, and the poisoned granules' numbers. -/
def State.readGranules (s : State) (dpa : Nat) : List Nat → (Nat × List Byte × List Nat) × State
  | [] => ((St.ok, [], []), s)
  | g :: gs =>
    let (a, s) := s.readNow Mid.plate (s.ownDpa (dpa + 64 * g)) 64
    if a.status ≠ St.ok then ((a.status, [], []), s)
    else
      let ((st, d, ps), s) := s.readGranules dpa gs
      ((st, (if a.poison then List.replicate 64 (0 : Byte) else a.data) ++ d, if a.poison then g :: ps else ps), s)

/-- The bytes of a poison map (R416). -/
def poisonMap (ps : List Nat) : List Byte := natLE 2048 (ps.foldl (fun n g => setBits n g g 1) 0)

/-- A manifest entry (R416). -/
def manifestEntry (k : Nat) : Option ChunkCopy → List Byte
  | none => List.replicate 64 0
  | some c =>
    natLE 4 c.loc ++ natLE 4 (1 + 2 * bit01 c.map.isSome + 4 * bit01 c.compressed) ++ natLE 4 c.stored
      ++ natLE 4 (if c.map.isSome then k else 0) ++ List.replicate 16 0 ++ c.digest

/-- Plate writes an entry of the working set in HBM (R419). -/
def State.putWork (s : State) (k : Nat) (c : Option ChunkCopy) : State :=
  (s.writeNow Mid.plate (s.rd64 Reg.PLT_WORK_BASE_LO + 64 * k) (manifestEntry k c)).2

/-- A location named by neither manifest nor the working set (R417). -/
def Plate.locFree (p : Plate) (loc : Nat) : Bool :=
  let used (m : FMap (Option ChunkCopy)) : Bool := m.any (fun e => match e.2 with | some c => c.loc = loc | none => false)
  let inSlot (x : Option PltSlot) : Bool := match x with | some v => used v.chunks | none => false
  decide (loc < 3 * 98304) && !inSlot p.slotA && !inSlot p.slotB && !used p.work

/-- The next chunk of a background sweep (R419): the first dirty one after the last one copied, round and round. -/
def Plate.nextChunk (p : Plate) : Option Nat :=
  match p.dirtyChunks.find? (fun k => decide (p.copied < k)) with
  | some k => some k
  | none => p.dirtyChunks.head?

/-- Plate may copy chunk `k` now (R419, R420, R424). -/
def State.mayCopy (s : State) (k : Nat) : Bool :=
  !s.storeFailed && (match s.pltState with
    | 1 => s.bit Reg.PLT_CTL 1 && s.plate.nextChunk = some k
    | 2 => s.plate.dirtyChunks.contains k
    | 4 => (match s.plate.etch with | some e => e.todo.contains k | none => false)
    | _ => false)

/-- BACKGROUND_COPY: chunk `k` is copied to a free location, compressed as `comp` where COMPRESS asks for it and it gains
(R416, R419). -/
def State.copyChunk (s : State) (k loc : Nat) (comp : Option (List Byte)) : State :=
  if !s.mayCopy k || !s.plate.locFree loc then s
  else
    let ((st, raw, ps), s1) := (s.setPlate (s.plate.clean k)).readGranules (2 ^ 20 * k) (List.range 16384)
    if st = St.held then s
    else if st ≠ St.ok then { s1 with plate := { s1.plate with dirty := s.plate.dirty } }
    else
      let fits :=
        match comp with
        | some f => s.bit Reg.PLT_CTL 2 && decide (f.length < 2 ^ 20) && chunkRaw true f = some raw
        | none => true
      if !fits then s
      else
        let stored := comp.getD raw
        let c : ChunkCopy :=
          ⟨loc, comp.isSome, stored.length, if ps.isEmpty then none else some (poisonMap ps), shaDigest 0 raw⟩
        let p := s1.plate
        let etch := p.etch.map (fun e => { e with todo := e.todo.erase k, bytes := e.bytes + stored.length })
        (s1.setPlate
          { p with
            work := FMap.setD p.work k (some c), store := FMap.setD p.store loc stored, copied := k
            etch := etch }).putWork k (some c)

/-! Etches. -/

/-- The etch in the plate log ends (R434). -/
def State.logEtch (s : State) (kind status cause : Nat) : State :=
  let e := s.plate.etch.getD ⟨s.time.toNat, [], 0⟩
  s.setPlate { s.plate with etchLog := ⟨kind, status, cause, e.bytes, s.time.toNat - e.start, s.time.toNat⟩ }

/-- The commands PLATE_CONTROL of an action that wait for its end complete. -/
def State.endPlateCmds (s : State) (action status result : Nat) : State :=
  (s.cmds.filterMap (fun e => e.2.bind (fun c =>
    if c.op = 0x0B && c.flags % 16 = action && c.done.isNone && c.stage = .committed then some e.1 else none))).foldl
    (fun s t => s.complete t status result) s

/-- The commands PLATE_CONTROL ETCH that wait for the etch complete. -/
def State.endEtchCmds (s : State) (status result : Nat) : State := s.endPlateCmds 1 status result

/-- The module goes Dormant at the end of a power-fail etch, and resets at once where an orderly reset asked for it (R420,
R459). -/
def State.etchOver (s : State) : State :=
  match s.boot.orderly with
  | some cause => s.dieReset cause
  | none => s.goDormant

/-- An etch is abandoned: no header is written (R266, R422). While the store has failed that is the cause of every abandonment (R431). -/
def State.abandonEtch (s : State) (why : Nat) : State :=
  let st := s.pltState
  let cause := if s.storeFailed then 4 else why
  if st ≠ 2 && st ≠ 4 then s
  else
    let s := (s.logEtch (if st = 2 then 1 else 2) St.plateInvalid cause).setFld Reg.PLT_STATUS 15 0 St.plateInvalid
    if st = 2 then s.etchOver
    else
      let p := s.plate
      let s := (s.setPlate { p.setSlot p.working none with etch := none }).showSlots
      let s := s.setFld Reg.PLT_STATUS 31 29 (bit01 (s.bit Reg.PLT_CTL 0))
      (s.raise Reg.PLT_INT_STATUS 0).endEtchCmds St.plateInvalid 0

/-- Commands before their commit points end with ABORTED, step 2 of R420. -/
def State.endUncommitted (s : State) : State :=
  (s.cmds.filterMap (fun e => e.2.bind (fun c => if c.abortable then some e.1 else none))).foldl
    (fun s t => s.cancel t St.aborted) s

/-- The etch of R420 begins: fetching stops and STATE becomes 2; a commanded etch that runs turns into it (R424), and a bank test that a
command asked for has ended (R433). -/
def State.startEtch (s : State) : State :=
  let s := (s.endEtchCmds St.aborted 0).endPlateCmds 2 St.aborted 0
  let n := (s.plate.etch.map (·.bytes)).getD 0
  let live := s.boot.live
  let s : State :=
    { s with
      fetchHold := true
      plate := { s.plate with etch := some ⟨s.time.toNat, [], n⟩, go := false }
      boot := { s.boot with live := none } }
  let s : State := match live with | some u => s.complete u.tag St.aborted 0 | none => s
  let s : State := if s.mode = .vigil then s.domainsOn [3] else s
  let s := s.setFld Reg.STY_VIGIL_CTL 30 30 0
  (s.setFld Reg.PLT_STATUS 31 29 2).endUncommitted

/-- POWER_FAIL_ETCH: the supply-failure signal reaches Plate (R420, R473). -/
def State.powerFailEtch (s : State) (worn : List (Bool × List Byte)) : State :=
  if s.bit Reg.STY_SUPPLY 31 && s.mode ≠ .dormant && s.bit Reg.PLT_CTL 0 && s.pltState ≠ 2 then (s.judgeSlots worn).startEtch else s

/-- The domains that step 4 of R420 powers down (R440). -/
def etchOffDomains : List Nat := [4, 5, 6, 7, 9, 12, 2]

/-- ETCH_GO: a write of GO = 1 by master `m` (R420, R421, R424, R435). An etch that fails at once leaves the older slot invalid
(R266). -/
def State.etchGo (s : State) (m : Nat) : State :=
  match s.pltState with
  | 2 => if s.plate.go then s else (s.setPlate { s.plate with go := true, shut := true }).forceOff etchOffDomains
  | 1 =>
    if s.storeFailed then
      let s := (s.setPlate { s.plate.setSlot s.plate.working none with etch := none }).showSlots
      ((s.logEtch 2 St.plateInvalid 4).setFld Reg.PLT_STATUS 15 0 St.plateInvalid).endEtchCmds St.plateInvalid 0
    else
      (s.setPlate { s.plate with etch := some ⟨s.time.toNat, s.plate.dirtyChunks, 0⟩ }).setFld Reg.PLT_STATUS 31 29 4
  | _ => s.refuse m Reg.PLT_ETCH_GO St.invalidField

/-- ETCH_GO_TIMEOUT: 10 ms have passed without PLT_ETCH_GO (R422). -/
def State.etchGoTimeout (s : State) : State :=
  if s.pltState = 2 && !s.plate.go then
    (s.atTime (((s.plate.etch.map (·.start)).getD 0) + 10000000)).abandonEtch 1
  else s

/-- ETCH_DEADLINE: a dirty chunk remains at T − 10 ms (R422). -/
def State.etchDeadline (s : State) : State :=
  if s.pltState = 2 && !s.plate.dirtyChunks.isEmpty then
    (s.atTime (((s.plate.etch.map (·.start)).getD 0) + 1000000 * (s.fld Reg.PLT_ETCH_DEADLINE 12 0 - 10))).abandonEtch 2
  else s

/-- BANK_RESERVE_REACHED: the bank has fallen to its 40 J reserve (R422). -/
def State.bankReserve (s : State) : State :=
  if s.pltState = 2 then ((s.setFld Reg.PLT_BANK_ENERGY 15 0 40).setFld Reg.PLT_BANK_STATUS 0 0 0).abandonEtch 3 else s

/-- The catalog as it stands (R68). -/
def State.catalogNow (s : State) : Catalog := ⟨s.spaces, s.tables, s.images, s.imageGens, s.members⟩

/-- The slot an etch writes (R416, R417, R421). -/
def State.slotImage (s : State) : PltSlot :=
  let p := s.plate
  let gen := match p.newest with | some b => ((p.slot b).map (·.gen + 1)).getD 1 | none => 1
  ⟨gen, p.freeze, s.hbmLimit / 2 ^ 20, s.time.toNat, FMap.keep p.work (fun k _ => p.inSet k), p.regions, s.catalogNow⟩

/-- ETCH_COMPLETE: nothing is left to copy, and the manifest and headers are written (R420, R421, R424). -/
def State.etchComplete (s : State) : State :=
  let st := s.pltState
  let done :=
    match s.plate.etch with
    | some e => if st = 2 then s.plate.go && s.plate.dirtyChunks.isEmpty else st = 4 && e.todo.isEmpty
    | none => false
  if !done then s
  else if s.storeFailed then s.abandonEtch 4
  else
    let v := s.slotImage
    let p := s.plate
    let extra := 64 * 98304 + 2048 * (v.chunks.filter (fun e => match e.2 with | some c => c.map.isSome | none => false)).length + 16384
    let etch := p.etch.map (fun e => { e with bytes := e.bytes + extra })
    let s := (s.setPlate { p.setSlot p.working (some v) with work := v.chunks, etch := etch }).showSlots
    let s := (s.logEtch (if st = 2 then 1 else 2) St.ok 0).setFld Reg.PLT_STATUS 15 0 St.ok
    let total := s.plate.etchLog.bytes
    let s := s.setPlate { s.plate with etch := none }
    if st = 2 then s.etchOver
    else
      let s := s.setFld Reg.PLT_STATUS 31 29 (bit01 (s.bit Reg.PLT_CTL 0))
      (s.raise Reg.PLT_INT_STATUS 0).endEtchCmds St.ok total

/-! The print. -/

/-- The raw bytes of a chunk's copy, if they can be read and match its digest (R426); `bad` are the locations that cannot be
read, even a second time. -/
def Plate.copyBytes (p : Plate) (bad : List Nat) (c : ChunkCopy) : Option (List Byte) :=
  if bad.contains c.loc then none
  else (chunkRaw c.compressed (FMap.getD p.store c.loc)).filter (fun r => r.length = 2 ^ 20 && shaDigest 0 r = c.digest)

/-- Every 8-byte word whose value exceeds an epoch becomes NEVER (R427). -/
def capWords (e : Nat) : Nat → List Byte → List Byte
  | 0, _ => []
  | n + 1, bs => (if e < leNat (bs.take 8) then natLE 8 never else bs.take 8) ++ capWords e n (bs.drop 8)

/-- A print or REPRINT writes HBM at a local DPA without setting dirty bits (R414). -/
def State.printWrite (s : State) (dpa : Nat) (data : List Byte) (poison : Bool) : State :=
  let d := s.plate.dirty
  let (_, s) :=
    s.request memoryBus
      { master := Mid.plate, dpa := s.ownDpa dpa, len := data.length, kind := .write, data := data, stream := false } poison
  s.setPlate { s.plate with dirty := d }

/-- A chunk is written into HBM, granule by granule (R427). -/
def State.printChunk (s : State) (k : Nat) (map raw : List Byte) : State :=
  (List.range 16384).foldl
    (fun s g => s.printWrite (2 ^ 20 * k + 64 * g) (subBytes raw (64 * g) 64) (mapBit map g)) s

/-- Chunk `k` of a slot as it is printed. -/
def PltSlot.raw (v : PltSlot) (k : Nat) (raw : List Byte) : List Byte :=
  if v.regions.any (fun r => r.epoch && decide (r.first ≤ k) && decide (k < r.first + r.chunks)) then capWords v.epoch 131072 raw
  else raw

/-- A slot's chunks are printed in order; none when one of them cannot be (R425 to R427). -/
def State.printChunks (s : State) (bad : List Nat) (v : PltSlot) : List (Nat × Option ChunkCopy) → Option State
  | [] => some s
  | (_, none) :: r => s.printChunks bad v r
  | (k, some c) :: r =>
    match s.plate.copyBytes bad c with
    | none => none
    | some raw =>
      let s := s.printChunk k (c.map.getD []) (v.raw k raw)
      (s.setPlate (s.plate.clean k)).printChunks bad v r

/-- A table as the image at `e` holds it (R68, R69, R427): none for one not yet created then. -/
def Table.printed (t : Table) (e : Nat) (resident : Bool) : Option Table :=
  if e < t.create then none
  else
    let t := if e < t.drop then { t with drop := never } else t
    if !resident then some { t with emptied := true, segs := [], ins := [], del := [], maker := none }
    else
      let ins := FMap.keep t.ins (fun _ x => decide (x ≤ e))
      let del := FMap.keep t.del (fun _ x => decide (x ≤ e))
      let segs :=
        t.segs.filter (fun g => match g.2 with
          | some v => (match v.link with | some l => decide (l ≤ e) | none => false)
          | none => false)
      some { t with ins := ins, del := del, segs := segs, maker := none }

/-- The runtime takes the catalog of a printed image (R69, R427). P, G and the publish floor of R53 start at the image's epoch; that the
epochs PUBLISH_EPOCH named before the power loss no longer count is a DESIGN CHOICE (assumption 119). -/
def State.takeCatalog (s : State) (v : PltSlot) : State :=
  let e := v.epoch
  let s :=
    { s with
      spaces := v.catalog.spaces, images := v.catalog.images, imageGens := v.catalog.imageGens
      members := v.catalog.members, published := e, floor := e, named := e }
  let plateSpace (id : Nat) : Bool := ((FMap.getD v.catalog.spaces (id / 65536)).map (·.plate)).getD false
  let ts :=
    v.catalog.tables.filterMap (fun x => x.2.bind (fun t =>
      (t.printed e (t.plate.getD (plateSpace x.1))).map (fun t => (x.1, t))))
  ts.foldl
    (fun s x =>
      let (t, s) := (x.2.segs.map (·.1)).foldl State.redigest (x.2, s)
      s.changeTable x.1 t) s

/-- A slot is printed whole, or not at all. -/
def State.printSlot (s : State) (bad : List Nat) (b : Bool) : Option State :=
  match s.plate.slot b with
  | none => none
  | some v =>
    (s.printChunks bad v v.chunks).map (fun s =>
      let s := s.takeCatalog v
      s.setPlate
        { s.plate with
          work := v.chunks
          printLog := ⟨bit01 b, St.ok, (v.chunks.filter (fun e => e.2.isSome)).length⟩ })

/-- The boot's print has ended. -/
def State.printEnd (s : State) (good : Bool) : State :=
  { s with boot := { s.boot with printed := some good, printedAt := s.time.toNat } }

/-- The print of a boot is still to be made (R22, R425). -/
def State.printDue (s : State) : Bool :=
  s.firmwareStage && s.fld Reg.GLB_BOOT_STATUS 31 28 = 2 && (s.boot.slot = 1 || s.boot.slot = 2) && !s.boot.hold
    && s.boot.printed.isNone

/-- PRINT: the newest image is printed, or the other valid one; `bad` are the locations whose read fails twice (R425, R426). -/
def State.print (s : State) (bad : List Nat) (worn : List (Bool × List Byte)) : State :=
  if !s.printDue then s
  else
    let s := s.judgeSlots worn
    let fail (st : Nat) : State :=
      let s := (s.setFld Reg.PLT_STATUS 15 0 st).raise Reg.PLT_INT_STATUS 1
      (s.setPlate { s.plate with printLog := ⟨0xFFFF, st, 0⟩ }).printEnd false
    match s.plate.newest with
    | none => (s.setFld Reg.PLT_STATUS 15 0 St.ok).printEnd true
    | some b =>
      if s.storeFailed then fail St.plateInvalid
      else
        match s.printSlot bad b with
        | some s => (s.setFld Reg.PLT_STATUS 15 0 St.ok).printEnd true
        | none =>
          match s.printSlot bad (!b) with
          | some s => (s.setFld Reg.PLT_STATUS 15 0 St.ok).printEnd true
          | none => fail St.plateDigestMismatch

/-! Plate jobs (R429). -/

/-- The fields of a plate job. -/
def pltOp (e : List Byte) : Nat := fieldLE e 4 4 % 16
def pltDpa (e : List Byte) : Nat := fieldLE e 8 8
def pltLen (e : List Byte) : Nat := fieldLE e 0x18 4

/-- What makes a plate job malformed: its cause (R284, R429). -/
def pltMalformed (e : List Byte) : Option Nat :=
  if !(pltOp e = 1 || pltOp e = 2) || fieldLE e 4 4 / 16 ≠ 0 || !zeroAt e 0x20 32 then some 1
  else if !pair64At e 8 || !pair32At e 0x18 then some 2
  else none

/-- The fields of a well-formed plate job (R429). -/
def State.pltCheck (s : State) (e : List Byte) : Nat :=
  let a := pltDpa e
  let n := pltLen e
  if a % 256 ≠ 0 || n % 256 ≠ 0 || n = 0 || 2 ^ 30 < n then St.invalidField
  else if (rangeFrom (a / 2 ^ 20) ((a + n - 1) / 2 ^ 20 - a / 2 ^ 20 + 1)).all s.plate.inSet then St.ok
  else St.invalidField

/-- The running job of a ring and tag with an operation. -/
def State.pltJob (s : State) (ring tag op : Nat) : Option Job :=
  s.findJob (fun j => j.ring = ringKey ⟨.plt, ring⟩ && j.tag = tag && pltOp j.entry = op)

/-- One granule of a REPRINT: the counts restored and left, whether a copy has failed its digest, and the first failed read. -/
def State.reprintGranule (s : State) (bad : List Nat) (acc : Nat × Nat × Bool × Nat) (a : Nat) : (Nat × Nat × Bool × Nat) × State :=
  let (good, left, broken, st) := acc
  let (x, s) := s.readMem Mid.plate (s.ownDpa a) 256
  if x.status ≠ St.ok then ((good, left, broken, if st = St.ok then x.status else st), s)
  else if !x.poison then (acc, s)
  else if FMap.getD s.plate.dirty (a / 65536) || s.storeFailed then ((good, left + 1, broken, st), s)
  else
    match FMap.getD s.plate.work (a / 2 ^ 20) with
    | none => ((good, left + 1, broken, st), s)
    | some c =>
      match s.plate.copyBytes bad c with
      | none => ((good, left + 1, true, st), s)
      | some raw =>
        let o := a % 2 ^ 20
        if (rangeFrom (o / 64) 4).any (fun g => mapBit (c.map.getD []) g) then ((good, left + 1, broken, st), s)
        else ((good + 1, left, broken, st), s.printWrite a (subBytes raw o 256) false)

/-- REPRINT (R429). -/
def State.reprint (s : State) (ring tag : Nat) (bad : List Nat) : State :=
  match s.pltJob ring tag 1 with
  | none => s
  | some j =>
    let a := pltDpa j.entry
    let ((good, left, broken, st), s') :=
      (rangeFrom 0 (pltLen j.entry / 256)).foldl
        (fun (acc : (Nat × Nat × Bool × Nat) × State) i => acc.2.reprintGranule bad acc.1 (a + 256 * i)) ((0, 0, false, St.ok), s)
    if st = St.held then s
    else
      let status :=
        if st ≠ St.ok then st
        else if broken then St.plateDigestMismatch
        else if left ≠ 0 then St.plateInvalid
        else St.ok
      s'.endJob j status (good + 2 ^ 32 * left)

/-- The copies of chunks are checked up to the first failure: how many were, and whether one failed. -/
def Plate.verify (p : Plate) (bad : List Nat) : List Nat → Nat → Nat × Bool
  | [], n => (n, false)
  | k :: ks, n =>
    match FMap.getD p.work k with
    | none => p.verify bad ks n
    | some c => if (p.copyBytes bad c).isSome then p.verify bad ks (n + 1) else (n + 1, true)

/-- VERIFY (R429). -/
def State.verifyJob (s : State) (ring tag : Nat) (bad : List Nat) : State :=
  match s.pltJob ring tag 2 with
  | none => s
  | some j =>
    let a := pltDpa j.entry
    let ks := rangeFrom (a / 2 ^ 20) ((a + pltLen j.entry - 1) / 2 ^ 20 - a / 2 ^ 20 + 1)
    let (n, failed) := s.plate.verify bad ks 0
    let st := if s.storeFailed then St.plateInvalid else if failed then St.plateDigestMismatch else St.ok
    s.endJob j st n

/-! Plate devices (R430, R431). -/

/-- A device fails (R431). -/
def State.devFail (s : State) (d : Nat) : State :=
  let s := s.setFld (Reg.PLT_DEV_STATUS d) 31 30 2
  let s := (s.setFld Reg.PLT_STATUS 28 28 1).raise Reg.PLT_INT_STATUS 4
  let s :=
    s.report
      { status := St.plateInvalid, target := Tgt.plate, severity := 4, master := Mid.plate, address := 0, tag := 0xFFFF
        detail := d }
  (s.showLimit).abandonEtch 4

/-- An NVMe command of a device completes; one that fails is retried once, and then the device fails (R431). -/
def State.nvmeDone (s : State) (d : Nat) (good : Bool) : State :=
  if s.fld (Reg.PLT_DEV_STATUS d) 31 30 ≠ 1 then s
  else if good then s.setPlate { s.plate with retried := setBits s.plate.retried d d 0 }
  else if s.plate.retried.testBit d then
    (s.setPlate { s.plate with retried := setBits s.plate.retried d d 0 }).devFail d
  else s.setPlate { s.plate with retried := setBits s.plate.retried d d 1 }

/-- SMART_POLL: a device's SMART / Health log (R431, R434). -/
def State.smartPoll (s : State) (d : Nat) (warn used spare : BitVec 8) (units errors : BitVec 128) : State :=
  if s.fld (Reg.PLT_DEV_STATUS d) 31 30 ≠ 1 then s
  else
    let s := (s.setFld (Reg.PLT_DEV_STATUS d) 15 8 warn.toNat).setFld (Reg.PLT_DEV_STATUS d) 7 0 used.toNat
    let s := s.setPlate { s.plate with devs := FMap.setD s.plate.devs d (some ⟨spare.toNat, units.toNat, errors.toNat⟩) }
    if warn = 0 then s
    else
      (s.raise Reg.PLT_INT_STATUS 4).report
        { status := St.plateInvalid, target := Tgt.plate, severity := 2, master := Mid.plate, address := 0, tag := 0xFFFF
          detail := d }

/-! The hold-up bank (R432, R433). -/

/-- BANK_READY: the energy stored crosses a threshold or the charger finishes (R432). -/
def State.bankCharge (s : State) (joules : Nat) (charging : Bool) : State :=
  (((s.setFld Reg.PLT_BANK_ENERGY 15 0 joules).setFld Reg.PLT_BANK_STATUS 1 1 (bit01 charging))).showLimit

/-- A bank test begins (R433). -/
def State.bankTest (s : State) : State := s.setFld Reg.PLT_BANK_STATUS 3 3 1

/-- BANK_TEST_TIMER: 60 s after power good, then every 24 h (R433). -/
def State.bankTimer (s : State) : State :=
  if s.domState 11 = 0 && s.steady.good && !s.bit Reg.PLT_BANK_STATUS 3 then
    let s := s.atTime s.plate.testDue
    (s.setPlate { s.plate with testDue := s.plate.testDue + 86400000000000 }).bankTest
  else s

/-- BANK_TEST_DONE: the usable energy in J and the ESR in 0.1 mΩ that a test found (R433). -/
def State.bankTested (s : State) (usable esr : Nat) : State :=
  if !s.bit Reg.PLT_BANK_STATUS 3 then s
  else
    let fail := decide (usable < 1800) || decide (500 < esr)
    let s := ((s.setFld Reg.PLT_BANK_STATUS 3 3 0).setFld Reg.PLT_BANK_STATUS 31 16 esr).setFld Reg.PLT_BANK_USABLE 15 0 usable
    let s := s.setFld Reg.PLT_BANK_STATUS 2 2 (bit01 fail)
    let s := s.setPlate { s.plate with testAt := s.time.toNat, record := { s.plate.record with usable := some usable } }
    let s :=
      if fail then
        (s.raise Reg.PLT_INT_STATUS 3).report
          { status := St.plateInvalid, target := Tgt.plate, severity := 2, master := Mid.plate, address := 0, tag := 0xFFFF
            detail := 0 }
      else s
    let s := s.showLimit
    s.endPlateCmds 2 St.ok usable

/-! PLATE_CONTROL (R266). -/

/-- A PLATE_CONTROL command with an action, passed to Headstock and not yet begun. -/
def State.plateCmd (s : State) (tag action : Nat) : Option Cmd :=
  (s.running? tag 0x0B).filter (fun c => c.flags % 16 = action && c.stage ≠ .committed)

/-- PLATE_ETCH (R424): the runtime writes F := P and PLT_ETCH_GO; the command completes with the etch. -/
def State.plateEtch (s : State) (tag : Nat) (worn : List (Bool × List Byte)) : State :=
  match s.plateCmd tag 1 with
  | none => s
  | some _ =>
    if s.pltState ≠ 1 then s.complete tag St.invalidField 0
    else
      let s := (s.judgeSlots worn).setStage tag .committed
      (s.setPlate { s.plate with freeze := s.published }).etchGo 0x140

/-- PLATE_BANK_TEST (R433). -/
def State.plateBankTest (s : State) (tag : Nat) : State :=
  match s.plateCmd tag 2 with
  | none => s
  | some _ => (s.setStage tag .committed).bankTest

/-- PLATE_INVALIDATE (R266). -/
def State.plateInvalidate (s : State) (tag : Nat) : State :=
  match s.plateCmd tag 3 with
  | none => s
  | some c =>
    let b := c.arg 0x20 1 = 1
    if (s.plate.slot b).isSome && (s.plate.slot (!b)).isNone then s.complete tag St.invalidField 0
    else ((s.setPlate (s.plate.setSlot b none)).showSlots).complete tag St.ok 0

/-- PLATE_SANITIZE (R266, R430, R470): Bring-up only; the devices hold nothing afterwards. -/
def State.plateSanitize (s : State) (tag : Nat) : State :=
  match s.plateCmd tag 4 with
  | none => s
  | some _ =>
    if s.mode ≠ .bringUp then s.complete tag St.invalidField 0
    else if s.storeFailed then s.complete tag St.plateInvalid 0
    else
      ((s.setPlate { s.plate with slotA := none, slotB := none, work := [], store := [], record := Record.new }).showSlots).complete
        tag St.ok 0

/-! Registers (R435). -/

/-- A write of PLT_CTL: EN stays 0 while no region set is loaded, and in Bring-up EN and BG_EN stay 0 (R435, R470). -/
def State.pltCtl (s : State) (m : Nat) (v : Word) : State :=
  let n := v.toNat
  let en := n.testBit 0 && s.mode ≠ .bringUp && !s.plate.regions.isEmpty
  let bg := n.testBit 1 && s.mode ≠ .bringUp
  let refused := n.testBit 0 && s.mode ≠ .bringUp && s.plate.regions.isEmpty
  let s := s.plainWrite m Reg.PLT_CTL (BitVec.ofNat 32 (setBits (setBits n 0 0 (bit01 en)) 1 1 (bit01 bg)))
  let s := if s.pltState < 2 then s.setFld Reg.PLT_STATUS 31 29 (bit01 en) else s
  if refused then s.refuse m Reg.PLT_CTL St.invalidField else s

/-- A write of PLT_ETCH_DEADLINE. -/
def State.pltDeadline (s : State) (m : Nat) (v : Word) : State :=
  let t := bits v.toNat 12 0
  if 100 ≤ t && t ≤ 4000 then (s.plainWrite m Reg.PLT_ETCH_DEADLINE v).showLimit
  else s.refuse m Reg.PLT_ETCH_DEADLINE St.invalidField

end Sys2Proof.Machine
end

