-- ==== Sys2Proof/Machine/Mc.lean ====
section
/-! DEFINITION. The memory controllers' own commands: reads and writes at a controller (R321 to R323, R327 to R329),
temperature (R324), frequency switches (R325, R326), thaw and repair (R330, R331), channel retirement (R332 to R334), mirror
windows (R335 to R337) and patrol scrub (R338). -/

namespace Sys2Proof.Machine

/-- The service class of a master's requests (R321, R339). -/
def State.hbmClass (s : State) (m : Nat) : Nat :=
  let f (lo : Nat) : Nat := s.fld Reg.GLB_HBM_CLASS (lo + 1) lo
  if m < 0x80 then f 0
  else if 0x100 ≤ m && m < 0x140 then f 2
  else if 0x140 ≤ m && m < 0x150 then f 4
  else if m = Mid.dma then f 6
  else if 0x151 ≤ m && m ≤ 0x153 then f 8
  else if m = Mid.plate then (if s.pltState = 2 then 0 else f 10)
  else if m = Mid.qe || m = Mid.hlu then f 12
  else if 0x200 ≤ m && m < 0x300 then f 14
  else if m = Mid.steady || m = Mid.debug || m = Mid.none then 0
  else 3

/-- A frequency switch of stack `k` holds its controllers' requests (R325, R326). -/
def State.switching (s : State) (k : Nat) : Bool := s.bit (Reg.MC_STACK_CTL (16 * k)) 30 && !s.switchWaits.testBit k

/-- The side of a burst that serves a read first (R336). -/
def State.readSide (s : State) (dpa : Nat) : Nat :=
  match s.primaryWindow dpa with
  | some w => if s.sideOut w dpa then s.copyOf w dpa else dpa
  | none => dpa

/-- What the array shows of the burst a read is served from. -/
def State.show (s : State) (dpa : Nat) (found : Ecc) : State := s.setCells (s.storage (s.readSide dpa)) found

/-- The answer to a request at a controller. -/
def State.mcAnswer (s : State) (a : MemAnswer) : State := { s with answer := ⟨a.status, a.data, false, a.poison⟩ }

/-- A request is served at its controller. -/
def State.mcServe (s : State) (r : Request) (found : Ecc) : State :=
  let s := s.show (r.dpa - r.dpa % 64) found
  if r.kind = .write then
    let (st, s) :=
      (linePieces (r.data.length / 128 + 2) r.dpa r.data.length).foldl
        (fun (acc : Nat × State) pc =>
          let (st, s) := acc.2.straightWrite r.master pc.1 (subBytes r.data (pc.1 - r.dpa) pc.2) false
          (if acc.1 ≠ St.ok then acc.1 else st, s))
        (St.ok, s.soil r.dpa r.data.length)
    s.mcAnswer (MemAnswer.stop st)
  else
    let (a, s) := s.burstRead r.master (r.dpa - r.dpa % 64)
    s.mcAnswer a

/-- A request arrives at its controller: one past the limit is refused (R25), one during a switch waits (R326). -/
def State.mcRequest (s : State) (r : Request) (found : Ecc) : State :=
  if s.hbmLimit < r.dpa + max r.len 1 then (s.unmapped r.master r.dpa).mcAnswer (MemAnswer.stop St.accessDenied)
  else
    let c := s.controller r.dpa
    if s.switching (c / 16) then
      State.mcAnswer { s with mcWaiting := s.mcWaiting ++ [⟨c, s.hbmClass r.master, s.time.toNat, r, found⟩] }
        (MemAnswer.stop St.held)
    else s.mcServe r found

/-- HBM_READ: a read of the burst that holds a DPA (R327). -/
def State.hbmReadCmd (s : State) (m dpa : Nat) (found : Ecc) : State :=
  s.mcRequest { master := m, dpa := dpa - dpa % 64, len := 64, kind := .read, data := [], stream := false } found

/-- HBM_WRITE: a write of bytes at a DPA (R329). -/
def State.hbmWriteCmd (s : State) (m dpa : Nat) (data : List Byte) (found : Ecc) : State :=
  s.mcRequest { master := m, dpa := dpa, len := data.length, kind := .write, data := data, stream := false } found

/-- REQUEST_AGE_PROMOTE: the requests that have waited 2 µs at a controller become class 0 (R321). -/
def State.agePromote (s : State) (c : Nat) : State :=
  { s with
    mcWaiting :=
      s.mcWaiting.map (fun w =>
        if w.mc = c && decide (w.since + 2000 ≤ s.time.toNat) then { w with cls := 0 } else w) }

/-- STACK_TEMP_READ (R324). -/
def State.stackTemp (s : State) (k temp : Nat) : State :=
  (rangeFrom (16 * k) 16).foldl
    (fun s n =>
      let s := s.setFld (Reg.MC_TEMP n) 7 0 temp
      if 85 < temp then s.setFld (Reg.MC_STATUS n) 8 8 1
      else if temp ≤ 80 then s.setFld (Reg.MC_STATUS n) 8 8 0
      else s) s

/-! Frequency switches. -/

/-- The first register of timing bank `b` of controller `n`. -/
def timingBank (n b : Nat) : Nat := Reg.MC_TIM0 n b

/-- The shadow bank of a controller can be switched to: RATE is not reserved, and no timing field is 0 (R325). -/
def State.shadowOk (s : State) (n : Nat) : Bool :=
  let o := timingBank n (1 - s.fld (Reg.MC_STATUS n) 7 7)
  let bytesOk (w : Word) : Bool := (List.range 4).all (fun i => bits w.toNat (8 * i + 7) (8 * i) ≠ 0)
  bytesOk (s.rd o) && bytesOk (s.rd (o + 4)) && s.fld (o + 8) 31 16 ≠ 0 && s.fld (o + 8) 15 0 ≠ 0 && s.fld (o + 12) 2 0 < 4

/-- STACK_SWITCH: SWITCH = 1 is written to the controller 16k (R325, R326). -/
def State.stackSwitch (s : State) (m k : Nat) : State :=
  let off := Reg.MC_STACK_CTL (16 * k)
  if s.bit off 30 then s.refuse m off St.accessDenied
  else if !(rangeFrom (16 * k) 16).all s.shadowOk then s.refuse m off St.invalidField
  else
    let s := s.setFld off 30 30 1
    if s.bit Reg.GLB_HBM_RETIRE_CMD 30 then { s with switchWaits := setBits s.switchWaits k k 1 } else s

/-- The waiting request that is issued next: the first, by class and then by arrival, that overlaps no earlier one of its
master (R322, R323). -/
def nextWait (ws : List McWait) : Option McWait :=
  let free (w : McWait) : Bool :=
    (ws.takeWhile (fun v => v ≠ w)).all (fun v =>
      v.req.master ≠ w.req.master || v.mc ≠ w.mc || !meets v.req.dpa v.req.len w.req.dpa w.req.len)
  ((List.range 4).filterMap (fun c => ws.find? (fun w => w.cls = c && free w))).head?

/-- The waiting requests of stack `k` are served. -/
def State.serveWaits (s : State) (k : Nat) : Nat → State
  | 0 => s
  | fuel + 1 =>
    match nextWait (s.mcWaiting.filter (fun w => w.mc / 16 = k)) with
    | none => s
    | some w => State.serveWaits (State.mcServe { s with mcWaiting := s.mcWaiting.erase w } w.req w.found) k fuel

/-- A retirement begins: its controller stops (step 1 of R333). -/
def State.retireBegin (s : State) : State :=
  State.setFld { s with retireWaits := false } (Reg.MC_STATUS (s.fld Reg.GLB_HBM_RETIRE_CMD 21 16)) 31 30 2

/-- STACK_SWITCH_DONE: the shadow banks are active, requests resume, and a retirement that waited begins (R325, R326). -/
def State.stackSwitchDone (s : State) (k : Nat) : State :=
  if s.switching k then
    let s := (rangeFrom (16 * k) 16).foldl (fun s n => s.setFld (Reg.MC_STATUS n) 7 7 (1 - s.fld (Reg.MC_STATUS n) 7 7)) s
    let s := s.setFld (Reg.MC_STACK_CTL (16 * k)) 30 30 0
    let s := s.serveWaits k s.mcWaiting.length
    if s.retireWaits && s.fld Reg.GLB_HBM_RETIRE_CMD 21 20 = k then s.retireBegin else s
  else s

/-- A write of a register of timing bank `b` of controller `n`: the active bank refuses it, a retired controller ignores it
(R325, R334). -/
def State.timingWrite (s : State) (m n off : Nat) (v : Word) : State :=
  if s.mcState n = 2 then s
  else if (off % 0x1000 - 0x40) / 0x20 = s.fld (Reg.MC_STATUS n) 7 7 then s.refuse m off St.accessDenied
  else s.plainWrite m off v

/-! Thaw and repair. -/

/-- A write of MCn_CTL (R330). -/
def State.mcThaw (s : State) (m n : Nat) (v : Word) : State :=
  if s.mcState n = 2 || !v.toNat.testBit 0 then s
  else if s.mcState n ≠ 1 then s.refuse m (Reg.MC_CTL n) St.invalidField
  else
    let a := s.storage (s.rd64 (Reg.MC_CAP_DPA_LO n))
    let s := if v.toNat.testBit 1 then (s.setPoison a true).setCells a .clean else s
    s.setFld (Reg.MC_STATUS n) 31 30 0

/-- A write of MCn_PPR (R331). -/
def State.pprWrite (s : State) (m n : Nat) (v : Word) : State :=
  if s.mcState n = 2 then s
  else if !v.toNat.testBit 31 then
    (if s.bit (Reg.MC_PPR_STATUS n) 31 then s.refuse m (Reg.MC_PPR n) St.accessDenied else s.plainWrite m (Reg.MC_PPR n) v)
  else if s.mcState n ≠ 1 || s.bit (Reg.MC_PPR_STATUS n) 31 then
    (s.setFld (Reg.MC_PPR_STATUS n) 1 0 3).refuse m (Reg.MC_PPR n) St.accessDenied
  else (s.plainWrite m (Reg.MC_PPR n) v).setFld (Reg.MC_PPR_STATUS n) 31 31 1

/-- The bursts of the row MCn_PPR names: those of the unpublished map, and the captured one if it lies there. -/
def State.pprRow (s : State) (n : Nat) : List Nat :=
  let loc : BitVec 23 := BitVec.ofNat 23 (bits (s.rd (Reg.MC_PPR n)).toNat 22 0)
  let cap := s.storage (s.rd64 (Reg.MC_CAP_DPA_LO n)) / 64
  if s.fld (Reg.MC_CAP_LOC n) 22 0 = loc.toNat then cap :: Config.rowBursts n loc else Config.rowBursts n loc

/-- The contents of a burst are undefined (R331): its bytes, its mark and what its code shows. -/
def State.loseBurst (s : State) (b : Nat) : State :=
  let s := s.blur (64 * b) (64 * b + 64)
  let (p, s) := s.free 3
  let e : Ecc := if p.getLsbD 1 then (if p.getLsbD 2 then .uncorrectable else .transient) else if p.getLsbD 2 then .corrected else .clean
  (s.setMark b (p.getLsbD 0)).setCells (64 * b) e

/-- PPR_DONE: the repair ends with a result; a repaired row's contents are undefined (R331). -/
def State.pprDone (s : State) (n result : Nat) : State :=
  if s.bit (Reg.MC_PPR_STATUS n) 31 && result < 3 then
    let s := (s.setFld (Reg.MC_PPR_STATUS n) 31 31 0).setFld (Reg.MC_PPR_STATUS n) 1 0 result
    if result = 0 then (s.pprRow n).foldl (fun s b => s.loseBurst b) s else s
  else s

/-! Retirement. -/

/-- An enabled affinity block or mirror window reaches above `limit`. -/
def State.reachesAbove (s : State) (limit : Nat) : Bool :=
  (List.range 8).any (fun n =>
    let a := Reg.GLB_AFF n
    let w := Reg.GLB_MIR_CFG n
    (s.bit a 31 && decide (limit < 4 * gib * (s.fld a 7 0 + s.fld a 15 8)))
      || (s.bit w 31 && (decide (limit < gib * (s.fld w 7 0 + s.fld w 23 16)) || decide (limit < gib * (s.fld w 15 8 + s.fld w 23 16)))))

/-- The runtime keeps the configuration record's list of retired channels (R334). -/
def State.recordRetired (s : State) (cs : List Nat) : State :=
  s.setPlate { s.plate with record := { s.plate.record with retired := cs } }

/-- A write of GLB_HBM_RETIRE_CMD (R332, R333). -/
def State.retireWrite (s : State) (m : Nat) (v : Word) : State :=
  let off := Reg.GLB_HBM_RETIRE_CMD
  if s.bit off 30 then s.refuse m off St.accessDenied
  else if !v.toNat.testBit 31 then s.plainWrite m off v
  else
    let s := s.plainWrite m off v
    let c := s.fld off 21 16
    if s.retired c || 8 ≤ s.retiredCount 0 64 || s.reachesAbove (s.hbmLimit - 3 * 2 ^ 29) then s.setFld off 15 0 St.invalidField
    else
      let s := s.recordRetired (s.plate.record.retired.filter (· ≠ c) ++ [c])
      let s := s.setFld off 30 30 1
      if s.switching (c / 16) then { s with retireWaits := true } else s.retireBegin

/-- Channel `c` leaves the map: the band above the new limit holds only poison (steps 3 and 4 of R333). -/
def State.retireChannel (s : State) (c : Nat) : State :=
  let limit := s.hbmLimit - 3 * 2 ^ 29
  let s := (s.setFld (Reg.MC_STATUS c) 31 30 2).wr64 Reg.GLB_HBM_RETIRED_LO (setBits (s.rd64 Reg.GLB_HBM_RETIRED_LO) c c 1)
  let s := s.setFld Reg.GLB_HBM_LIMIT 7 0 (limit / 2 ^ 29)
  let s : State :=
    { s with
      poison := FMap.keep s.poison (fun g _ => !(decide (limit / 64 ≤ g) && decide (g < 0x60000000)))
      poisonFrom := min s.poisonFrom (limit / 64)
      array := FMap.keep s.array (fun g _ => decide (g < limit / 64)) }
  let s := (s.setFld Reg.GLB_HBM_RETIRE_CMD 15 0 St.ok).setFld Reg.GLB_HBM_RETIRE_CMD 30 30 0
  (s.report
    { status := St.channelRetired, target := Tgt.channel c, severity := 4, master := Mid.none, address := 0, tag := 0xFFFF,
      detail := 0 }).showLimit

/-- CHANNEL_RETIRE_DONE: the map with one more retired channel takes effect, and switches that waited begin (R326, R333). -/
def State.retireDone (s : State) : State :=
  if s.bit Reg.GLB_HBM_RETIRE_CMD 30 && !s.retireWaits then
    State.retireChannel { s with switchWaits := 0 } (s.fld Reg.GLB_HBM_RETIRE_CMD 21 16)
  else s

/-- The boot retires the recorded channels again, in order (R334). -/
def State.retireRecorded (s : State) : State :=
  s.plate.record.retired.foldl (fun s c => if s.retired c || 8 ≤ s.retiredCount 0 64 then s else s.retireChannel c) s

/-! Mirror windows. -/

/-- Byte ranges, as start and end, that meet. -/
def spansMeet (a b : Nat × Nat) : Bool := decide (a.1 < b.2) && decide (b.1 < a.2)

/-- The byte ranges of affinity blocks that are enabled. -/
def State.affinitySpans (s : State) : List (Nat × Nat) :=
  ((List.range 8).filter (fun n => s.bit (Reg.GLB_AFF n) 31)).map (fun n =>
    let b := s.fld (Reg.GLB_AFF n) 7 0
    (4 * gib * b, 4 * gib * (b + s.fld (Reg.GLB_AFF n) 15 8)))

/-- The primary and copy range of a mirror window's CFG word. -/
def mirrorSpans (v : Word) : List (Nat × Nat) :=
  let n := v.toNat
  [(gib * bits n 7 0, gib * (bits n 7 0 + bits n 23 16)), (gib * bits n 15 8, gib * (bits n 15 8 + bits n 23 16))]

/-- The ranges of the enabled mirror windows other than window `w`. -/
def State.otherMirrors (s : State) (w : Nat) : List (Nat × Nat) :=
  ((List.range 8).filter (fun n => n ≠ w && s.bit (Reg.GLB_MIR_CFG n) 31)).flatMap (fun n => mirrorSpans (s.rd (Reg.GLB_MIR_CFG n)))

/-- A CFG word with EN = 1 may be taken (R335). -/
def State.mirrorOk (s : State) (w : Nat) (v : Word) : Bool :=
  let spans := mirrorSpans v
  bits v.toNat 23 16 ≠ 0 && spans.all (fun r => decide (r.2 ≤ s.hbmLimit))
    && !(spansMeet (spans.getD 0 (0, 0)) (spans.getD 1 (0, 0)))
    && spans.all (fun r => (s.affinitySpans ++ s.otherMirrors w).all (fun o => !spansMeet r o))

/-- A write of GLB_MIRm_CFG (R335). -/
def State.mirrorWrite (s : State) (m w : Nat) (v : Word) : State :=
  let off := Reg.GLB_MIR_CFG w
  if !s.bringUpAdmits m then s.refuse m off St.accessDenied
  else if v.toNat.testBit 31 && !s.mirrorOk w v then (s.setFld off 31 31 0).refuse m off St.invalidField
  else s.plainWrite m off v

/-- A cache without the lines, `size` bytes each, that hold bytes from `a` to below `b`. -/
def Cache.forget (c : Cache) (size a b : Nat) : Cache :=
  { c with
    lines := FMap.keep c.lines (fun _ l =>
      match l with
      | some l => !(decide (a < size * l.tag + size) && decide (size * l.tag < b))
      | none => true) }

/-- The contents of the DPAs from `a` to below `b` become undefined, wherever a cache or a write-back buffer holds them (R29). -/
def State.loseRange (s : State) (a b : Nat) : State :=
  let s := s.blur a b
  let s := (s.slices.map (·.1)).foldl (fun s i => s.setSlice i ((s.slice i).forget 128 a b)) s
  let s :=
    (s.writeBacks.map (·.1)).foldl
      (fun (s : State) i =>
        { s with
          writeBacks := FMap.setD s.writeBacks i
            ((FMap.getD s.writeBacks i).filter (fun e => !(decide (a ≤ 128 * e.1) && decide (128 * e.1 < b)))) })
      s
  (s.cores.map (·.1)).foldl
    (fun s c =>
      let k := s.core c
      s.setCore c { k with l1d := k.l1d.forget 64 a b, l1i := k.l1i.forget 64 a b })
    s

/-- AFFINITY_WRITE: a write of GLB_AFFn; data of the blocks that change is undefined afterwards (R28, R29). -/
def State.affinityWrite (s : State) (m n : Nat) (v : Word) : State :=
  let off := Reg.GLB_AFF n
  let span (w : Nat) : Nat × Nat := (4 * gib * bits w 7 0, 4 * gib * (bits w 7 0 + bits w 15 8))
  let others := ((List.range 8).filter (fun i => i ≠ n && s.bit (Reg.GLB_AFF i) 31)).map (fun i => span (s.rd (Reg.GLB_AFF i)).toNat)
  let mirrors := s.otherMirrors 8
  if !s.bringUpAdmits m then s.refuse m off St.accessDenied
  else
    let (size, base) := (bits v.toNat 15 8, bits v.toNat 7 0)
    let bad :=
      v.toNat.testBit 31
        && (size = 0 || 24 < size || 24 < base + size || (others ++ mirrors).any (fun o => spansMeet (span v.toNat) o))
    let old := s.rd off
    let s := s.plainWrite m off v
    let s := if bad then (s.setFld off 31 31 0).refuse m off St.invalidField else s
    let new := s.rd off
    if new = old then s
    else
      let s := if old.toNat.testBit 31 then s.loseRange (span old.toNat).1 (span old.toNat).2 else s
      if new.toNat.testBit 31 then s.loseRange (span new.toNat).1 (span new.toNat).2 else s

/-- A write of GLB_MIRm_CTL (R337). -/
def State.mirrorSync (s : State) (m w : Nat) : State :=
  let off := Reg.GLB_MIR_CTL w
  if s.bit off 30 then s.refuse m off St.accessDenied else s.setFld off 30 30 1

/-- The granule at `dpa` is read through its controller, burst by burst: its bytes and marks. -/
def State.granuleRead (s : State) (dpa : Nat) : List MemAnswer × State :=
  (List.range 4).foldl
    (fun (acc : List MemAnswer × State) i =>
      let (a, s) := acc.2.mcRead (acc.2.controller (dpa + 64 * i)) Mid.none (dpa + 64 * i) 0
      (acc.1 ++ [a], s)) ([], s)

/-- The granule at `dpa` is written through its controller. -/
def State.granuleWrite (s : State) (dpa : Nat) (as : List MemAnswer) : State :=
  (List.range 4).foldl
    (fun s i =>
      let a := as.getD i (MemAnswer.stop St.poisonedData)
      let bad := a.status ≠ St.ok || a.poison
      (s.mcWrite (s.controller (dpa + 64 * i)) Mid.none (dpa + 64 * i) 0
        (if bad then List.replicate 64 (0 : Byte) else a.data) bad).2) s

/-- One pair of a resynchronisation: `p` is the primary granule (R337). -/
def State.syncPair (s : State) (w mask p : Nat) : State :=
  let c := s.copyOf w p
  let (mp, mc) := (mask.testBit (s.home p), mask.testBit (s.home c))
  let up (d : Nat) : Bool := s.mcState (s.controller d) = 0
  if mp && mc then (s.granuleWrite p []).granuleWrite c []
  else if mp && up p then
    let (as, s) := s.granuleRead c
    s.granuleWrite p as
  else if mc && up c then
    let (as, s) := s.granuleRead p
    s.granuleWrite c as
  else s

/-- MIRROR_SYNC_DONE: the pass is made and its channels leave the mask (R337). -/
def State.mirrorSyncDone (s : State) (w : Nat) : State :=
  if s.bit (Reg.GLB_MIR_CTL w) 30 then
    let mask := s.rd64 (Reg.GLB_MIR_DEG_LO w)
    let cfg := s.rd (Reg.GLB_MIR_CFG w)
    let base := gib * bits cfg.toNat 7 0
    let n := if mask = 0 || !cfg.toNat.testBit 31 then 0 else 2 ^ 22 * bits cfg.toNat 23 16
    let s := (List.range n).foldl (fun s i => s.syncPair w mask (base + 256 * i)) s
    let left := (List.range 64).foldl (fun k c => if mask.testBit c && s.mcState c = 1 then setBits k c c 1 else k) 0
    let s := s.wr64 (Reg.GLB_MIR_DEG_LO w) left
    (s.setFld (Reg.GLB_MIR_CTL w) 0 0 (bit01 (left ≠ 0))).setFld (Reg.GLB_MIR_CTL w) 30 30 0
  else s

/-! Patrol scrub. -/

/-- One burst of the scrubber's granule: read under R327, and a corrected burst written back (R338). -/
def State.scrubBurst (s : State) (n dpa : Nat) : State :=
  if s.mcState n ≠ 0 then s
  else
    let a := s.storage dpa
    let mend := !s.poisoned a && s.cells a = .corrected
    let s := (s.mcRead n Mid.none dpa 2).2
    if mend then s.setCells a .clean else s

/-- PATROL_SCRUB_STEP: controller `n` visits its next granule, whose first burst shows `found` (R338). -/
def State.patrolScrub (s : State) (n : Nat) (found : Ecc) : State :=
  if s.mcState n ≠ 0 || s.switching (n / 16) then s
  else
    let pos := s.fld (Reg.MC_SCRUB_POS n) 22 0
    let g := Config.scrubGranule n pos
    let dpa := g - g % 256
    let s := s.setCells (s.storage dpa) found
    let s := (List.range 4).foldl (fun s i => s.scrubBurst n (dpa + 64 * i)) s
    let next := pos + 1
    if next < 6291456 then s.setFld (Reg.MC_SCRUB_POS n) 22 0 next
    else (s.setFld (Reg.MC_SCRUB_POS n) 22 0 0).countWrap (Reg.MC_SCRUB_PASSES n)

end Sys2Proof.Machine
end

