-- ==== Sys2Proof/Machine/Boot.lean ====
section
/-! DEFINITION. Firmware images, the boot ROM, resets asked for by software, and the firmware commands (R264, R459 to R471,
R476, R477, R487). -/

namespace Sys2Proof.Machine

/-- The fields of a firmware image's header (R463). -/
def fwMin (i : List Byte) : Nat := 16 * bits (fieldLE i 8 4) 23 20 + bits (fieldLE i 8 4) 19 16
def fwLen (i : List Byte) : Nat := fieldLE i 0x10 4
def fwEntry (i : List Byte) : Nat := fieldLE i 0x18 4
def fwSecurity (i : List Byte) : Nat := fieldLE i 0x28 4
def fwSvn (i : List Byte) : Nat := bits (fwSecurity i) 15 10
def fwRaise (i : List Byte) : Bool := (fwSecurity i).testBit 9
def fwGolden (i : List Byte) : Bool := (fwSecurity i).testBit 8
def fwKey (i : List Byte) : Nat := bits (fwSecurity i) 1 0
def fwVersion (i : List Byte) : Nat := fieldLE i 0x30 8
def fwPubkey (i : List Byte) : List Byte := subBytes i 0x100 96

/-- The header meets R463 in an image of `i.length` bytes: the first check of R464. -/
def fwHeadOk (i : List Byte) : Bool :=
  decide (8192 ≤ i.length) && decide (i.length ≤ 2 ^ 25) && decide (i.length % 4096 = 0)
    && [0, 8, 0x10, 0x18, 0x20, 0x28].all (fun o => pair32At i o)
    && fieldLE i 0 4 = 0x464D5752 && bits (fieldLE i 8 4) 31 24 = 0 && bits (fieldLE i 8 4) 15 0 = 1
    && fwLen i = i.length && fwEntry i % 4 = 0 && decide (fwEntry i < fwLen i)
    && bits (fwSecurity i) 31 16 = 0 && bits (fwSecurity i) 7 2 = 0
    && zeroAt i 0x38 200 && zeroAt i 0x160 160 && zeroAt i 0x260 3488

/-- The digest the signature is computed over (R463). -/
def fwDigest (i : List Byte) : List Byte := shaDigest 1 (i.take 0x200 ++ List.replicate 96 (0 : Byte) ++ i.drop 0x260)

/-- The signature verifies under the header's PUBKEY (R463). -/
def fwSigned (i : List Byte) : Bool :=
  let n (o : Nat) : Nat := beNat (subBytes i o 48)
  ecdsaOk (n 0x100) (n 0x130) (beNat (fwDigest i)) (n 0x200) (n 0x230)

/-- MIN_SVN (R464). -/
def State.minSvn (s : State) : Nat := max Config.fuseSvn.toNat s.boot.svn

/-- The first check of R464 that an image of a slot fails; 0 when it is accepted. -/
def State.fwCheck (s : State) (i : List Byte) (slot : Nat) : Nat :=
  let k := fwKey i
  if !fwHeadOk i then 1
  else if s.revision < fwMin i then 2
  else if shaDigest 1 (fwPubkey i) ≠ Config.fuseKey k || !Config.fusesProgrammed.getLsbD k || Config.fusesRevoked.getLsbD k then 3
  else if !fwSigned i then 4
  else if (fwGolden i && slot ≠ 0) || (fwSvn i < s.minSvn && !fwGolden i) then 5
  else 0

/-- The status BOOT_STATUS shows for a check (R471). -/
def fwStatus (k : Nat) : Nat := if k = 0 then St.ok else if k = 1 then St.complementMismatch else St.invalidField

/-- The image of a boot slot. -/
def Boot.image (b : Boot) (slot : Nat) : List Byte :=
  match slot with
  | 0 => Config.goldenImage
  | 1 => b.slot1
  | _ => b.slot2

/-- Boot's own state changes. -/
def State.setBoot (s : State) (b : Boot) : State := { s with boot := b }

/-- The boot window (R467). -/
abbrev bootWindow : Nat := 0x10000000000

/-- An image in the boot window is started on core 0 in supervisor mode, with the watchdog armed for `wdog` ms (R466, R467). -/
def State.startImage (s : State) (i : List Byte) (stage slot wdog : Nat) : State :=
  let k : Core := { Core.reset with pc := BitVec.ofNat 48 (bootWindow + fwEntry i), hstatus := 1 }
  let s := ((s.setCore 128 ((k.setX 1 (BitVec.ofNat 64 bootWindow)).setX 2 (BitVec.ofNat 64 i.length))).setThr 0 2 0).setCoreStatus 0 1 0
  let s := s.wr Reg.GLB_BOOT_STATUS (BitVec.ofNat 32 (2 ^ 28 * stage + 2 ^ 26 * slot))
  let s := s.wr Reg.GLB_WDOG_CTL (BitVec.ofNat 32 (2 ^ 31 + wdog))
  (s.setBoot { s.boot with slot := slot, running := fwVersion i, raise := if fwRaise i && (slot = 1 || slot = 2) then fwSvn i else 0 }).wdogStart

/-- The slots the ROM tries, in order (R465). -/
def Boot.order (b : Boot) : List Nat := (([b.waiting, b.active, 1, 2] : List Nat).filter (· ≠ 0)).eraseDups ++ [0]

/-- A slot's entry of the firmware slot log (R476). The entry leaves 32 bytes for the SHA-384, and its first 32 are given (DEDUCED,
assumption 124). -/
def fwLogOf (i : List Byte) (failed : Nat) : FwLog :=
  ⟨failed = 0, failed, fwLen i, fwVersion i, fwSecurity i, if i.isEmpty then List.replicate 32 0 else (shaDigest 1 i).take 32⟩

/-- The slots are checked in order up to the first accepted one; each check is logged. -/
def State.trySlots (s : State) : List Nat → Option Nat × State
  | [] => (none, s)
  | k :: ks =>
    let i := s.boot.image k
    let c := s.fwCheck i k
    let s := s.setBoot { s.boot with log := FMap.setD s.boot.log k (some (fwLogOf i c)) }
    let s := s.setFld Reg.GLB_BOOT_STATUS 15 0 (fwStatus c)
    if c = 0 then (some k, s) else s.trySlots ks

/-- A pending slot that has been tried twice is dropped (R465). -/
def Boot.dropTried (b : Boot) : Boot :=
  if b.waiting ≠ 0 && b.trials = 2 then
    { b with waiting := 0, trials := 0, gen := b.gen + 1, drops := min (b.drops + 1) 0xFFFFFFFF }
  else b

/-- Bring-up is entered for a reason (R469, R484). -/
def State.enterBringUp (s : State) (reason : Nat) : State :=
  let s := (s.setMode .bringUp).domainsOn bringUpDomains
  s.setBoot { s.boot with reason := reason }

/-- ROM recovery (R469, R471): grant 1 of table 0x0B admits master 0x150 with W over the boot window. -/
def State.romRecovery (s : State) : State :=
  let s := s.setFld Reg.GLB_BOOT_STATUS 31 28 3
  let control : Nat := 2 ^ 31 + 2 ^ 25 + 2 ^ 12 * Mid.dma + Mid.dma
  let g := grantAt 0xB 1
  let s := ((s.wr64 g (cp32 control)).wr64 (g + 8) (cp32 (bootWindow / 65536))).wr64 (g + 16) (cp32 ((bootWindow + 2 ^ 25 - 1) / 65536))
  s.enterBringUp 2

/-- GLB_PAIR_PEER and GLB_PAIR_GEN show the pair configuration (R411). -/
def State.showPair (s : State) : State :=
  let r := s.plate.record
  (s.wr64 Reg.GLB_PAIR_PEER_LO r.peer).wr Reg.GLB_PAIR_GEN (BitVec.ofNat 32 r.pairGen)

/-- ROLE and STATE as the stored pair configuration gives them at reset (R411). -/
def State.loadPair (s : State) : State :=
  let r := s.plate.record
  ((s.showPair).setFld Reg.GLB_PAIR_CTL 1 0 r.role).setFld Reg.GLB_PAIR_STATUS 31 30 (bit01 (r.role ≠ 0))

/-- The units come up that the boot powers (R425, R440, R467): Plate finds its devices and its record. -/
def State.bootPower (s : State) : State :=
  let s := s.domainsOn [0, 1, 2, 3, 4, 5, 10, 11, 13, 14, 15, 16]
  let s := (List.range 4).foldl (fun s d => s.setFld (Reg.PLT_DEV_STATUS d) 31 30 1) s
  (((s.setFld Reg.PLT_BANK_USABLE 15 0 (s.plate.record.usable.getD 0)).showSlots).showLimit).loadPair

/-- BOOT: after a die reset the ROM chooses, checks, copies and starts an image (R465 to R467, R471). -/
def State.bootRun (s : State) : State :=
  if !s.boot.due then s
  else
    let s := (s.setBoot { s.boot with due := false, log := [] }).bootPower
    let s := s.setBoot s.boot.dropTried
    match s.trySlots s.boot.order with
    | (none, s) => s.romRecovery
    | (some k, s) =>
      let b := s.boot
      let s := if k = b.waiting && k ≠ 0 then s.setBoot { b with trials := b.trials + 1, gen := b.gen + 1 } else s
      let i := s.boot.image k
      let s := if k = 0 then s else s.retireRecorded
      (s.storeWrite bootWindow i false).startImage i 2 k 60000

/-- RECOVERY_GO: a write of GLB_BOOT_CTL by master `m` (R471, R477). A GO in another STAGE is discarded, HOLD and LEN being
written; a bad LEN discards the whole write. -/
def State.recoveryGo (s : State) (m : Nat) (v : Word) : State :=
  let len := bits v.toNat 25 0
  if !v.toNat.testBit 31 then s.plainWrite m Reg.GLB_BOOT_CTL v
  else if s.fld Reg.GLB_BOOT_STATUS 31 28 ≠ 3 then
    (s.plainWrite m Reg.GLB_BOOT_CTL v).refuse m Reg.GLB_BOOT_CTL St.accessDenied
  else if len < 8192 || 2 ^ 25 < len || len % 4096 ≠ 0 then s.refuse m Reg.GLB_BOOT_CTL St.invalidField
  else
    let s := s.plainWrite m Reg.GLB_BOOT_CTL v
    let i := s.bytes bootWindow len
    let c := if s.anyPoison bootWindow len then 4 else s.fwCheck i 3
    if c = 0 then s.startImage i 4 3 60000 else s.setFld Reg.GLB_BOOT_STATUS 15 0 (fwStatus c)

/-! Resets (R459, R460). -/

/-- An orderly reset of a cause: the etch runs first where Plate is enabled, a commanded etch or a print that runs is waited for,
and during the etch of a failing supply or of another reset nothing follows (R459, R460). -/
def State.orderlyReset (s : State) (cause : Nat) : State :=
  if s.pltState = 2 then s
  else if s.pltState = 3 || s.pltState = 4 then s.setBoot { s.boot with orderly := some cause }
  else if s.pltState = 1 && s.mode ≠ .dormant then (s.setBoot { s.boot with orderly := some cause }).startEtch
  else s.dieReset cause

/-- An immediate reset; an etch it cuts short leaves its slot invalid. -/
def State.immediateReset (s : State) : State :=
  let p := s.plate
  (if s.pltState = 4 then s.setPlate (p.setSlot p.working none) else s).dieReset 3

/-- A write of GLB_RESET (R460). -/
def State.resetWrite (s : State) (m : Nat) (v : Word) : State :=
  if bits v.toNat 31 16 ≠ 0xD1E5 || v.toNat % 4 = 0 || v.toNat % 4 = 3 then s.refuse m Reg.GLB_RESET St.invalidField
  else if s.pltState = 2 then s.refuse m Reg.GLB_RESET St.accessDenied
  else if v.toNat % 4 = 1 then s.orderlyReset 2
  else s.immediateReset

/-- An orderly reset that waited for a commanded etch goes on once that has ended (R460). -/
def State.orderlyNext (s : State) : State :=
  if s.boot.orderly.isSome && s.pltState < 2 then
    (if s.pltState = 1 && s.mode ≠ .dormant then s.startEtch else s.dieReset (s.boot.orderly.getD 2))
  else s

/-- BOOT_OK: a pending slot becomes active, and MIN_SVN may rise (R464, R465). -/
def State.bootOk (s : State) (m : Nat) (v : Word) : State :=
  let s := s.plainWrite m Reg.GLB_BOOT_OK v
  if !v.toNat.testBit 0 then s
  else
    let b := s.boot
    let b := if b.waiting ≠ 0 && b.slot = b.waiting then { b with active := b.slot, waiting := 0, trials := 0, gen := b.gen + 1 } else b
    s.setBoot { b with svn := max b.svn b.raise }

/-! Firmware commands (R264, R487). -/

/-- FW_DOWNLOAD (R264). -/
def State.fwDownload (s : State) (tag : Nat) (host : HostRead) : State :=
  match s.running? tag 7 with
  | none => s
  | some c =>
    match host with
    | .denied => (s.aer c.fn .readRefused).complete tag St.accessDenied 0
    | .poisoned => (s.aer c.fn .readPoisoned).complete tag St.poisonedData 0
    | .data d =>
      if d.length ≠ c.len then s
      else
        let o := c.arg 0x20 4
        let b := s.boot
        (s.setBoot { b with buf := FMap.store (fun _ => 0) b.buf o d, ranges := (o, o + d.length) :: b.ranges }).complete tag St.ok 0

/-- How many bytes the ranges cover from offset `n` on, over `fuel` ranges. -/
def reach (rs : List (Nat × Nat)) : Nat → Nat → Nat
  | 0, n => n
  | fuel + 1, n => reach rs fuel (rs.foldl (fun m r => if r.1 ≤ n && m < r.2 then r.2 else m) n)

/-- The checks of FW_COMMIT, in their order. The image whose signature is checked is the staged one, or for ACTION 2 the one already in
its slot (R264; DEDUCED, assumption 85). -/
def State.fwCommitCheck (s : State) (action slot len : Nat) : Nat :=
  let b := s.boot
  let image := if action = 2 then b.image slot else FMap.bytes (fun _ => 0) b.buf 0 len
  if reach b.ranges (b.ranges.length + 1) 0 < len then St.lengthMismatch
  else if image.length < 8192 || !fwSigned image then St.invalidField
  else if slot = 0 || 2 < slot || (action = 3 && s.mode = .bringUp) then St.invalidField
  else St.ok

/-- The staged image is written to a slot and read back; `store` is the status of the write, and any but OK leaves the slot invalid
(R264). -/
def Boot.writeSlot (b : Boot) (slot len store : Nat) : Boot :=
  let i := if store = St.ok then FMap.bytes (fun _ => 0) b.buf 0 len else []
  if slot = 1 then { b with slot1 := i } else { b with slot2 := i }

/-- FW_COMMIT with ACTION 0 to 2 (R264). -/
def State.fwCommit (s : State) (tag store : Nat) : State :=
  match (s.running? tag 8).filter (fun c => bits c.flags 7 4 < 3) with
  | none => s
  | some c =>
    let (action, slot, len) := (bits c.flags 7 4, c.flags % 16, c.arg 0x20 4)
    let st := s.fwCommitCheck action slot len
    if st ≠ St.ok then s.complete tag st 0
    else
      let b := if action = 2 then s.boot else s.boot.writeSlot slot len store
      if action ≠ 2 && store ≠ St.ok then (s.setBoot b).complete tag store 0
      else
        let b := if action = 0 then b else { b with waiting := slot, trials := 0, gen := b.gen + 1 }
        (s.setBoot b).complete tag St.ok (bit01 (action ≠ 0))

/-- Commands in flight other than the update's own. -/
def State.othersInFlight (s : State) (tag : Nat) : Bool :=
  s.cmds.any (fun e => e.1 ≠ tag && (match e.2 with | some c => c.done.isNone | none => false))

/-- Step 4 of R487: the boot record is written, and the new image is checked and started, or the old runtime goes on. -/
def State.liveStart (s : State) (u : LiveUpdate) : State :=
  let i := s.boot.image u.slot
  let s := s.setBoot { s.boot with waiting := u.slot, trials := 2, gen := s.boot.gen + 1 }
  if s.fwCheck i u.slot ≠ 0 then
    State.complete { s with fetchHold := false, boot := { s.boot with live := none } } u.tag St.invalidField 0
  else
    let s := (s.setFld Reg.PLT_CTL 0 0 0).setFld Reg.PLT_STATUS 31 29 0
    let s := s.setBoot { s.boot with live := some { u with phase := 2 } }
    (s.storeWrite bootWindow i false).startImage i 2 u.slot 5000

/-- LIVE_FIRMWARE_UPDATE: the next step of R487 for FW_COMMIT with ACTION 3; `taken` says that the new runtime, once started, has
taken the state and writes GLB_BOOT_OK, and `store` the status with which the slot is written (R264). -/
def State.liveUpdate (s : State) (tag : Nat) (taken : Bool) (store : Nat) : State :=
  match s.boot.live with
  | none =>
    (match (s.running? tag 8).filter (fun c => bits c.flags 7 4 = 3 && c.stage ≠ .committed) with
    | none => s
    | some c =>
      let (slot, len) := (c.flags % 16, c.arg 0x20 4)
      let st := s.fwCommitCheck 3 slot len
      if st ≠ St.ok then s.complete tag st 0
      else
        let b := s.boot.writeSlot slot len store
        if store ≠ St.ok then (s.setBoot b).complete tag store 0
        else
          State.setStage { s with fetchHold := true, boot := { b with live := some ⟨tag, slot, s.time.toNat, 0⟩ } } tag .committed)
  | some u =>
    if u.tag ≠ tag then s
    else if u.phase = 0 then
      if s.othersInFlight tag then (s.atTime (u.start + 1000000000)).endUncommitted
      else
        let s := s.setBoot { s.boot with live := some { u with phase := 1 } }
        if s.pltState = 1 then (s.setPlate { s.plate with freeze := s.published }).etchGo 0x140 else s
    else if u.phase = 1 then (if s.pltState = 4 then s else s.liveStart u)
    else if !taken then s
    else
      let s := (s.setFld Reg.PLT_CTL 1 0 (if s.plate.regions.isEmpty then 0 else 3)).setFld Reg.PLT_STATUS 31 29
        (bit01 (!s.plate.regions.isEmpty))
      let s := s.bootOk 0x140 1
      State.complete { s with fetchHold := false, boot := { s.boot with live := none } } tag St.ok 0

end Sys2Proof.Machine
end

