-- ==== Sys2Proof/Machine/Sc.lean ====
section
/-! DEFINITION. The system cache's own commands (R344, R347, R351, R352), the tiles' cache controls (R349), and the freezing of
arbiters (R361). -/

namespace Sys2Proof.Machine

/-- The valid lines of slice `i`, as way of its sets and line. -/
def State.sliceLines (s : State) (i : Nat) : List (Nat × Line) :=
  (s.slice i).lines.filterMap (fun e => e.2.map (fun l => (e.1, l)))

/-- A line of slice `i` at entry `key` becomes `l`. -/
def State.putLine (s : State) (i key : Nat) (l : Option Line) : State :=
  let c := s.slice i
  s.setSlice i { c with lines := FMap.setD c.lines key l }

/-- Every line of slice `i` but the one at entry `lost` is written back if dirty, and the slice is empty. -/
def State.flushSlice (s : State) (m i : Nat) (lost : Option Nat) : State :=
  let ls := (s.sliceLines i).filter (fun e => e.2.dirty && some e.1 ≠ lost)
  let s := ls.foldl (fun s e => s.writeLine m e.2.tag e.2) (s.drainAll m i)
  s.setSlice i Cache.empty

/-- Bit `i` of a register takes that of a written word. -/
def State.putBit (s : State) (off i : Nat) (v : Word) : State :=
  if v.toNat.testBit i = s.bit off i then s else s.setFld off i i (bit01 (v.toNat.testBit i))

/-- A write of SC_CTL (R347). -/
def State.scCtl (s : State) (m : Nat) (v : Word) : State :=
  let off := Reg.SC_CTL
  let on := s.bit off 0
  let busy := s.bit off 4
  let s := s.putBit off 1 v
  let s :=
    if !v.toNat.testBit 2 then s
    else if on || busy then s.refuse m off St.accessDenied
    else { s with slices := [], writeBacks := [], scInv := true }
  if v.toNat.testBit 0 then
    (if on then s else if s.bit off 3 then s.setFld off 0 0 1 else s.refuse m off St.invalidField)
  else if on && !busy then (List.range 64).foldl (fun s i => s.flushSlice m i none) (s.setFld off 4 4 1)
  else s

/-- SC_INVALIDATE_DONE: the invalidation ends (R347). -/
def State.scInvDone (s : State) : State :=
  if s.scInv then State.setFld { s with scInv := false } Reg.SC_CTL 3 3 1 else s

/-- SC_DISABLE_DONE: the last write-back has performed (R347). -/
def State.scDisableDone (s : State) : State :=
  if s.bit Reg.SC_CTL 4 then (s.setFld Reg.SC_CTL 4 4 0).setFld Reg.SC_CTL 0 0 0 else s

/-! Range operations (R352). -/

/-- The locked way of a set that is empty, if any. -/
def State.emptyLocked (s : State) (i set : Nat) : Option Nat :=
  (List.range 16).find? (fun w => s.wayLocked w && ((s.slice i).at 16 set w).isNone)

/-- A present line at entry `key` of slice `i` under operation 1 to 3. -/
def State.rangeLine (s : State) (m op i key : Nat) (l : Line) : State :=
  let s := if op ≠ 1 && l.dirty then s.writeLine m l.tag l else s
  if op = 2 then s.putLine i key (some { l with dirty := false })
  else
    let s := s.putLine i key none
    if s.wayLocked (key % 16) then s.count Reg.SC_LOCK_INVAL_COUNT 31 0 1 else s

/-- Line `ln` under LOCK_FILL. -/
def State.lockFill (s : State) (m ln : Nat) : State :=
  let dpa := 128 * ln
  let i := homeSlice dpa
  let set := cacheSet dpa
  let skip (s : State) : State := s.count Reg.SC_LOCK_FILL_SKIPPED 31 0 1
  match (s.slice i).find 16 set ln with
  | some w =>
    if s.wayLocked w then s
    else
      (match s.emptyLocked i set with
      | none => skip s
      | some e =>
        let l := (s.slice i).at 16 set w
        (s.putLine i (set * 16 + w) none).putLine i (set * 16 + e) l)
  | none =>
    if !s.sliceServes i then skip s
    else
      match s.emptyLocked i set with
      | none => skip s
      | some e =>
        let (st, l, s) := s.fetchLine m ln
        if st ≠ St.ok then skip s else s.setSlice i (((s.slice i).put 16 set e (some l)).touch 16 set e)

/-- The operation over the lines of a range. -/
def State.rangeRun (s : State) (m op base len : Nat) : State :=
  let s := (List.range 64).foldl (fun s i => s.drainAll m i) s
  if op = 4 then (rangeFrom (base / 128) (len / 128)).foldl (fun s ln => s.lockFill m ln) s
  else
    (List.range 64).foldl
      (fun s i =>
        ((s.sliceLines i).filter (fun e => decide (base ≤ 128 * e.2.tag) && decide (128 * e.2.tag < base + len))).foldl
          (fun s e => s.rangeLine m op i e.1 e.2) s) s

/-- A write of SC_RANGE_CMD (R352, R362). -/
def State.rangeWrite (s : State) (m : Nat) (v : Word) : State :=
  let off := Reg.SC_RANGE_CMD
  if !v.toNat.testBit 31 then s.plainWrite m off v
  else if s.bit off 30 then s.refuse m off St.accessDenied
  else
    let s := s.plainWrite m off v
    let op := s.fld off 18 16
    let base := s.rd64 Reg.SC_RANGE_BASE_LO
    let len := s.rd64 Reg.SC_RANGE_LEN_LO
    if len = 0 || base % 128 ≠ 0 || len % 128 ≠ 0 || s.hbmLimit < base + len || op = 0 || 4 < op then
      s.setFld off 15 0 St.invalidField
    else (s.setFld off 30 30 1).rangeRun m op base len

/-- The word that commands range operation `op`. -/
def rangeWord (op : Nat) : Word := BitVec.ofNat 32 (2 ^ 31 + 2 ^ 16 * op)

/-- SC_RANGE_DONE. -/
def State.rangeDone (s : State) : State :=
  if s.bit Reg.SC_RANGE_CMD 30 then (s.setFld Reg.SC_RANGE_CMD 30 30 0).setFld Reg.SC_RANGE_CMD 15 0 St.ok else s

/-! Requests (R343, R344). -/

/-- What the arrays of a home slice show at the lookup of a DPA (R344). -/
def State.cacheFault (s : State) (m dpa : Nat) (err : CacheErr) : State :=
  let i := homeSlice dpa
  let set := cacheSet dpa
  match err with
  | .none => s
  | .single _ =>
    if ((s.slice i).find 16 set (lineNo dpa)).isSome then s.count (Reg.SCS_CE_COUNT i) 31 0 1 else s
  | .double w =>
    (match (s.slice i).find 16 set (lineNo dpa) with
    | none => s
    | some y =>
      match (s.slice i).at 16 set y with
      | none => s
      | some l =>
        let p := if w < 8 then [true, l.poison.getD 1 false] else [l.poison.getD 0 false, true]
        (s.putLine i (set * 16 + y) (some { l with poison := p })).count (Reg.SCS_UE_COUNT i) 31 0 1)
  | .tag way =>
    let s := (s.flushSlice m i (some (set * 16 + way % 16))).setFld (Reg.SCS_STATUS i) 1 1 1
    s.report
      { status := St.poisonedData, target := Tgt.cache, severity := 4, master := m, address := dpa, tag := 0xFFFF,
        detail := 16 * set + way % 16 }

/-- CACHE_REQUEST: a request to local HBM is judged (R342), meets what the arrays of its home slice show, and is served
(R343). -/
def State.cacheRequest (s : State) (r : Request) (err : CacheErr) : State :=
  match s.region r.dpa r.len with
  | .hbm dpa =>
    let admitted := s.verdict 0x00 r.master r.dpa r.len ((Region.hbm dpa).rights r) = St.ok
    let s :=
      if admitted && s.sliceServes (homeSlice dpa) && !s.wayHolds (.hbm dpa) r.master r.len then s.cacheFault r.master dpa err
      else s
    let (a, s) := s.request memoryBus r false
    s.mcAnswer a
  | _ => s

/-! The tiles' caches (R349). -/

/-- A write of TILn_L1_CTL (R349): INV while the tile is not halted is discarded. -/
def State.l1Write (s : State) (m n : Nat) (v : Word) : State :=
  let off := Reg.TIL_L1_CTL n
  let on := s.bit off 0
  let s := s.putBit off 1 v
  let s :=
    if !v.toNat.testBit 2 then s
    else if !s.halted n then s.refuse m off St.accessDenied
    else State.setCore { s with l1Inv := setBits s.l1Inv n n 1 } n { s.core n with l1d := Cache.empty, l1i := Cache.empty }
  if v.toNat.testBit 0 = on then s
  else if v.toNat.testBit 0 then (if s.bit off 3 then s.setFld off 0 0 1 else s.refuse m off St.invalidField)
  else s.setFld off 0 0 0

/-- L1_INVALIDATE_DONE (R349). -/
def State.l1InvDone (s : State) (n : Nat) : State :=
  if s.l1Inv.testBit n then State.setFld { s with l1Inv := setBits s.l1Inv n n 0 } (Reg.TIL_L1_CTL n) 3 3 1 else s

end Sys2Proof.Machine
end

