-- ==== Sys2Proof/Machine/Mesh.lean ====
section
/-! DEFINITION. The mesh's own events: retransmissions, FAULTY and DEAD links (R357, R358), the freezing of a router (R360) and
its route entries (R355). -/

namespace Sys2Proof.Machine

/-- The other end of port `p`'s link: the neighbour and its port. -/
def linkEnd (r p : Nat) : Option (Nat × Nat) := (beyond r p).map (fun q => (q, (p + 2) % 4))

/-- The key of a link, one for both directions. -/
def linkKey (r p : Nat) : Nat :=
  match linkEnd r p with
  | some (q, o) => min (4 * r + p) (4 * q + o)
  | none => 4 * r + p

/-- A bit of MSHr_LINK is set at both ends of a link, with the matching interrupt bit. -/
def State.markLink (s : State) (r p lo int : Nat) : State :=
  let one (s : State) (r p : Nat) : State := (s.setFld (Reg.MSH_LINK r) (lo + p) (lo + p) 1).raise (Reg.MSH_INT_STATUS r) int
  match linkEnd r p with
  | some (q, o) => one (one s r p) q o
  | none => one s r p

/-- A link's failure is recorded (R357, R358). -/
def State.linkReport (s : State) (r p : Nat) : State :=
  s.report
    { status := St.channelRetired, target := Tgt.mesh, severity := 4, master := Mid.none, address := 0, tag := 0xFFFF,
      detail := 256 * r + p }

/-- FLIT_RETRANSMIT: a flit is resent on port `p`; the link's 17th within 1 ms marks it FAULTY (R357). -/
def State.flitRetransmit (s : State) (r p : Nat) (control : Bool) : State :=
  let s := if control then s.count (Reg.MSH_RETX r p) 31 16 1 else s.count (Reg.MSH_RETX r p) 15 0 1
  let key := linkKey r p
  let now := s.time.toNat
  let recent := (FMap.getD s.meshRetx key).filter (fun t => decide (now < t + 1000000)) ++ [now]
  let s : State := { s with meshRetx := FMap.setD s.meshRetx key recent }
  if 17 ≤ recent.length && !s.bit (Reg.MSH_LINK r) p then (s.markLink r p 0 0).linkReport r p else s

/-- LINK_DEAD: the link of port `p` has acknowledged nothing for 100 µs (R358). -/
def State.linkDead (s : State) (r p : Nat) : State :=
  if s.bit (Reg.MSH_LINK r) (4 + p) then s else (s.markLink r p 4 1).linkReport r p

/-- DEAD_LINK_ACKNOWLEDGE: the link acknowledges again, and its traffic is released (R358). -/
def State.linkAck (s : State) (r p : Nat) : State :=
  let one (s : State) (r p : Nat) : State := s.setFld (Reg.MSH_LINK r) (4 + p) (4 + p) 0
  match linkEnd r p with
  | some (q, o) => one (one s r p) q o
  | none => one s r p

/-- A write of MSHr_CTL (R360). -/
def State.meshCtl (s : State) (m r : Nat) (v : Word) : State :=
  let s := s.plainWrite m (Reg.MSH_CTL r) v
  if !v.toNat.testBit 0 then s.setFld (Reg.MSH_STATUS r) 0 0 0
  else if s.bit (Reg.MSH_STATUS r) 0 then s
  else State.setFld { s with meshFroze := FMap.setD s.meshFroze r s.time.toNat } (Reg.MSH_STATUS r) 0 0 1

/-- ROUTER_FREEZE_EXPIRE: 2 µs after it was set, a freeze ends (R360). -/
def State.freezeExpire (s : State) (r : Nat) : State :=
  if s.bit (Reg.MSH_STATUS r) 0 then
    let s := s.atTime (FMap.getD s.meshFroze r + 2000)
    (s.setFld (Reg.MSH_STATUS r) 0 0 0).setFld (Reg.MSH_STATUS r) 1 1 1
  else s

/-- ROUTE_WRITE: a write of MSHr_ROUTEd (R355, R360). -/
def State.meshRoute (s : State) (m r d : Nat) (v : Word) : State :=
  let off := Reg.MSH_ROUTE r d
  let mode := bits v.toNat 15 14
  if !s.bit (Reg.MSH_STATUS r) 0 then s.refuse m off St.accessDenied
  else if mode = 3 || (mode ≠ 0 && s.revision < 0x21) then s.refuse m off St.invalidField
  else s.plainWrite m off v

end Sys2Proof.Machine
end

