-- ==== Sys2Proof/Machine/HatchLink.lean ====
section
/-! DEFINITION. Hatch's ports: flits, acknowledgement and replay (R368 to R370), training, degrade and retirement (R371,
R372), what a transaction's end means to its origin (R384, R386, R388, R389), and routing of transit packets (R379, R382). -/

namespace Sys2Proof.Machine

/-! The link layer. -/

/-- One byte into a CRC-32 with the IEEE 802.3 polynomial, least significant bit first. -/
def crcByte (c : BitVec 32) (b : Byte) : BitVec 32 :=
  (List.range 8).foldl (fun c _ => if c.getLsbD 0 then (c >>> 1) ^^^ 0xEDB88320 else c >>> 1) (c ^^^ b.setWidth 32)

/-- The CRC-32 of bytes (R368, R381). -/
def crc32 (bs : List Byte) : BitVec 32 := bs.foldl crcByte 0xFFFFFFFF ^^^ 0xFFFFFFFF

/-- The fields of a link flit's header (R368). -/
def flitType (f : List Byte) : Nat := bits (fieldLE f 0 8) 63 60
def flitSeq (f : List Byte) : Nat := bits (fieldLE f 0 8) 59 48
def flitAck (f : List Byte) : Nat := bits (fieldLE f 0 8) 47 36
def flitBvc (f : List Byte) : Nat := bits (fieldLE f 0 8) 35 34
def flitCvc (f : List Byte) : Nat := bits (fieldLE f 0 8) 33 32
def flitCredits (f : List Byte) : Nat := bits (fieldLE f 0 8) 31 24

/-- A flit of 144 bytes is intact: a defined TYPE and a good LCRC (R368). -/
def flitIntact (f : List Byte) : Bool :=
  f.length = 144 && flitType f < 3 && (crc32 (f.take 12 ++ f.drop 16)).toNat = fieldLE f 12 4

/-- A port's STATE changes; a change is to be reported (R377). -/
def State.portChange (s : State) (p : Nat) : State :=
  (s.setHatPort p { s.hatPort p with eventDue := true }).raise Reg.HAT_INT_STATUS 0

/-- A port takes STATE `st` and width code `w`; HINGE shows whether port 6 or 7 serves the hinge (R405, R411). -/
def State.setPort (s : State) (p st w : Nat) : State :=
  let s := (s.setFld (Reg.HAT_PORT_STATE p) 2 0 st).setFld (Reg.HAT_PORT_STATE p) 5 4 w
  (if 6 ≤ p then s.setFld Reg.GLB_PAIR_STATUS (20 + p) (20 + p) (bit01 (st = 5)) else s).portChange p

/-- A port may train: its cable and the Hatch reference clock are present (R495, R500). -/
def State.portMay (s : State) (p : Nat) : Bool := s.steady.cables.testBit p && s.steady.href

/-- The link state a port trains with: a port that was DOWN or RETIRED begins its sequence numbers and credits anew, any other keeps
them, since its retraining loses no flit (R369; DESIGN CHOICE, assumption 69). -/
def State.linkBase (s : State) (p : Nat) : HatPort :=
  let h := s.hatPort p
  if s.portState p = 0 || s.portState p = 4 then { HatPort.new with nbr := h.nbr, eventDue := h.eventDue } else h

/-- A port trains at the width and over the lanes its link state names, or is held DOWN (R371, R495, R500). -/
def State.trainPort (s : State) (p width lanes : Nat) : State :=
  let s := s.setHatPort p { s.linkBase p with width := width, lanes := lanes, fails := 0, replays := [], rxNext := 0, rxHeld := [], rxBytes := [] }
  s.setPort p (if s.portMay p then 1 else 0) 0

/-- A port that works retrains at its current width (R371). -/
def State.retrain (s : State) (p : Nat) : State :=
  if s.portState p = 2 || s.portState p = 5 then s.trainPort p (s.fld (Reg.HAT_PORT_STATE p) 5 4) (s.hatPort p).lanes else s

/-- The peer has acknowledged every DATA flit up to `ack`, if that advances. -/
def HatPort.take (h : HatPort) (ack : Nat) : HatPort :=
  if (ack + 4096 - h.txAcked) % 4096 ≤ h.unacked then { h with txAcked := ack } else h

/-- The sender replays from ACK + 1; the 65th replay within 1 ms retrains the port (R369, R371). -/
def State.replay (s : State) (p : Nat) : State :=
  let h := s.hatPort p
  if h.unacked = 0 then s
  else
    let now := s.time.toNat
    let recent := h.replays.filter (fun t => decide (now < t + 1000000)) ++ [now]
    let s := (s.setHatPort p { h with replays := recent }).count (Reg.HAT_PORT_REPLAYS p) 31 0 1
    let s : State := { s with sent := s.sent ++ [.linkReplay p ((h.txAcked + 1) % 4096)] }
    if 65 ≤ recent.length then s.retrain p else s

/-- NAK: a received NAK acknowledges up to its ACK and asks for a replay (R369). -/
def State.nak (s : State) (p ack : Nat) : State :=
  if s.portState p ≠ 2 && s.portState p ≠ 5 then s
  else ((s.setHatPort p ((s.hatPort p).take ack)).replay p).flushPort p

/-- REPLAY_TIMEOUT: 2 µs have passed without an ACK that advances (R369). -/
def State.replayTimeout (s : State) (p : Nat) : State :=
  if s.portState p ≠ 2 && s.portState p ≠ 5 then s else s.replay p

/-- A DATA flit is discarded: a NAK is sent, once (R369). -/
def State.dropFlit (s : State) (p : Nat) : State :=
  let h := s.hatPort p
  if h.rxBad then s
  else State.setHatPort { s with sent := s.sent ++ [Sent.linkAck p true h.rxLast 0 0] } p { h with rxBad := true }

/-- A flit is received, checked and acknowledged or NAKed (R368 to R370). -/
def State.flitReceive (s : State) (p : Nat) (f : List Byte) : State :=
  if s.portState p ≠ 2 && s.portState p ≠ 5 then s
  else if !flitIntact f then (if flitType f = 1 then s.dropFlit p else s)
  else
    let s : State := { s with hat := { s.hat with hingeAt := if 6 ≤ p then FMap.setD s.hat.hingeAt p s.time.toNat else s.hat.hingeAt } }
    let h := (s.hatPort p).take (flitAck f)
    let h := { h with credits := h.credits.set (flitCvc f) (h.credits.getD (flitCvc f) 0 + flitCredits f) }
    let s := s.setHatPort p h
    let s :=
      match flitType f with
      | 1 =>
        if flitSeq f = (h.rxLast + 1) % 4096 then
          State.setHatPort { s with sent := s.sent ++ [Sent.linkAck p false (flitSeq f) (flitBvc f) 1] } p
            { h with rxLast := flitSeq f, rxBad := false }
        else s.dropFlit p
      | 2 => s.nak p (flitAck f)
      | _ => s
    s.flushPort p

/-! The receiver's codewords (R367). -/

/-- The lanes that carry a port at a width, none where too few passed (R371). -/
def lanesFor (width lanes : Nat) : Option Nat :=
  match width with
  | 3 => if lanes = 15 then some 15 else none
  | 2 => if lanes % 4 = 3 then some 3 else if lanes / 4 = 3 then some 12 else none
  | _ => ((List.range 4).find? (fun i => lanes.testBit i)).map (fun i => 2 ^ i)

/-- The active lanes of a port that is UP, in ascending order: those that carry its width among the ones its last training passed. -/
def State.activeLanes (s : State) (p : Nat) : List Nat :=
  let mask := (lanesFor (s.fld (Reg.HAT_PORT_STATE p) 5 4) (s.fld (Reg.HAT_PORT_STATE p) 11 8 &&& (s.hatPort p).lanes)).getD 0
  (List.range 4).filter mask.testBit

/-- The number of a codeword, modulo 65,536, and the lane its marker names. -/
def cwNumber (c : Codeword) : Nat := c.marker.toNat % 65536
def cwLane (c : Codeword) : Nat := c.marker.toNat / 65536

/-- A codeword has its place in the stream: it came on the lane its marker names, and codeword `k` belongs on active lane `k mod W`. -/
def State.placed (s : State) (p : Nat) (c : Codeword) : Bool :=
  let lanes := s.activeLanes p
  cwLane c = c.lane && lanes[cwNumber c % lanes.length]? = some c.lane

/-- The pieces that are next in order join the port's bytes, at most `fuel` of them: the lanes are deskewed. -/
def HatPort.deskew (h : HatPort) : Nat → HatPort
  | 0 => h
  | fuel + 1 =>
    match h.rxHeld.find? (fun e => e.1 = h.rxNext) with
    | none => h
    | some e =>
      HatPort.deskew
        { h with
          rxHeld := h.rxHeld.filter (fun e => e.1 ≠ h.rxNext), rxNext := (h.rxNext + 1) % 65536, rxBytes := h.rxBytes ++ e.2 } fuel

/-- The whole flits of 144 bytes at the front of a byte stream (R368), at most `fuel` of them. -/
def cutFlits : Nat → List Byte → List (List Byte)
  | 0, _ => []
  | fuel + 1, bs => if bs.length < 144 then [] else bs.take 144 :: cutFlits fuel (bs.drop 144)

/-- A codeword joins the port's stream: the port after it, and the flits it completes. A number behind the stream is an old one. -/
def HatPort.gather (h : HatPort) (c : Codeword) : HatPort × List (List Byte) :=
  let ahead := (cwNumber c + 65536 - h.rxNext) % 65536
  let h := if ahead < 32768 then { h with rxHeld := h.rxHeld.filter (fun e => e.1 ≠ cwNumber c) ++ [(cwNumber c, c.piece)] } else h
  let h := h.deskew h.rxHeld.length
  let fs := cutFlits (h.rxBytes.length / 144) h.rxBytes
  ({ h with rxBytes := h.rxBytes.drop (144 * fs.length) }, fs)

/-- A codeword that the decoder corrected, or could not correct, is counted (R393). -/
def State.countFec (s : State) (p : Nat) (f : Fec) : State :=
  match f with
  | .clean => s
  | .corrected => s.count (Reg.HAT_PORT_FEC_CORR p) 31 0 1
  | .uncorrectable => s.count (Reg.HAT_PORT_FEC_UNCORR p) 31 0 1

/-- The bytes of a codeword join the stream, and the flits they complete are received in order (R367 to R370). A codeword that has no
place in the stream is dropped; numbers and flits start anew at each training (DESIGN CHOICE, assumption 129). -/
def State.takePiece (s : State) (p : Nat) (c : Codeword) : State :=
  if !s.placed p c then s
  else
    let (h, fs) := (s.hatPort p).gather c
    fs.foldl (fun s f => s.flitReceive p f) (s.setHatPort p h)

/-- LINK_FLIT_RECEIVE: a codeword arrives and is counted (R393), and its bytes are taken as the decoder leaves them: the LCRC judges what
is left of them (R368; DESIGN CHOICE, assumption 129). -/
def State.codewordIn (s : State) (p : Nat) (c : Codeword) : State :=
  if s.portState p ≠ 2 && s.portState p ≠ 5 then s else (s.countFec p c.fec).takePiece p c

/-! What a transaction's end means to its origin. -/

/-- Packets of at most 4,096 bytes, none crossing 4 KiB of the remote offset (R386): how many bytes the next one carries. -/
def chunkLen (remote left : Nat) : Nat := min left (4096 - remote % 4096)

/-- The fields of a Hatch job entry (R386). -/
def hatOp (e : List Byte) : Nat := fieldLE e 4 4 % 16
def hatOrder (e : List Byte) : Bool := (fieldLE e 4 4).testBit 4
def hatLandq (e : List Byte) : Nat := bits (fieldLE e 4 4) 13 8
def hatDest (e : List Byte) : Nat := fieldLE e 8 4
def hatLocal (e : List Byte) : Nat := fieldLE e 0x10 8
def hatRemote (e : List Byte) : Nat := fieldLE e 0x20 8
def hatLen (e : List Byte) : Nat := fieldLE e 0x30 4

/-- The job of a ring and tag that is in progress. -/
def State.hatJobOf (s : State) (ring tag : Nat) : Option Job := s.findJob (fun j => j.ring = ring && j.tag = tag)

/-- The contents of a READ job's destination are undefined once it has failed (R386). -/
def State.hatFail (s : State) (j : Job) (status : Nat) : State :=
  let late := s.hat.late.filter (fun d => d.ring ≠ j.ring || d.tag ≠ j.tag)
  let s := State.endJob { s with hat := { s.hat with late := late } } j status 0
  if hatOp j.entry = 1 then s.scramble 0x200 (hatLocal j.entry) (hatLen j.entry) else s

/-- `n` bytes of a job have been dealt with: with the last of them it completes (R386). -/
def State.jobMoved (s : State) (j : Job) (n : Nat) : State :=
  let p := { j.prog with moved := j.prog.moved + n }
  if p.moved = hatLen j.entry then s.endJob j St.ok (hatLen j.entry) else s.setJob j { j with prog := p }

/-- Data read for a job are written to their local DPA; while the write is held on its way they wait for it (R23, R386). -/
def State.jobLand (s : State) (bus : Bus) (j : Job) (d : LateData) : State :=
  let (a, s) :=
    s.request bus { master := 0x200, dpa := d.dpa, len := d.data.length, kind := .write, data := d.data, stream := false } d.poison
  if a.status = St.held then { s with hat := { s.hat with late := s.hat.late ++ [d] } }
  else if a.status ≠ St.ok then s.hatFail j a.status
  else s.jobMoved j d.data.length

/-- A packet of a job has been answered: data read, if any, is written to the local DPA (R386). -/
def State.jobAnswer (s : State) (bus : Bus) (ring tag dpa len : Nat) (read : Bool) (st : Nat) (data : List Byte) (poison : Bool) : State :=
  match s.hatJobOf ring tag with
  | none => s
  | some j =>
    let st := if st = St.ok && read && data.length ≠ len then St.lengthMismatch else st
    if st ≠ St.ok then s.hatFail j st
    else if read then s.jobLand bus j ⟨ring, tag, dpa, data, poison⟩
    else s.jobMoved j len

/-- The held data of a job are written again (R23). -/
def State.jobAgain (s : State) (bus : Bus) (ring tag : Nat) : State :=
  let mine := s.hat.late.filter (fun d => d.ring = ring && d.tag = tag)
  mine.foldl
    (fun s d =>
      match s.hatJobOf ring tag with
      | some j => State.jobLand { s with hat := { s.hat with late := s.hat.late.erase d } } bus j d
      | none => { s with hat := { s.hat with late := s.hat.late.erase d } }) s

/-- A transaction ends with a status: its master, job or stream learns of it (R384, R386, R389, R407). -/
def State.endTx (s : State) (bus : Bus) (x : Tx) (st : Nat) (data : List Byte) (poison : Bool) : State :=
  let s := s.closeTx x.tag
  match x.kind with
  | .access =>
    (match s.far.find? (fun f => f.tag = x.tag && f.done.isNone) with
    | none => s
    | some f => s.endFar f st data poison)
  | .job ring tag dpa len read => s.jobAnswer bus ring tag dpa len read st data poison
  | .stream core _ => (if st = St.ok then s else s.noteStore core 0 st).closeWaiting
  | .stop t detail => s.peerAnswer t detail st (leNat (data.take 4))
  | .copy tag =>
    (match s.cmd tag with
    | some c => s.complete tag st (c.arg 0x28 8)
    | none => s)
  | .part tag =>
    if st = St.ok then s
    else
      match s.run tag with
      | some r => (match r.phase with | .ending _ => s | _ => s.runStop tag r st)
      | none => s

/-- The outstanding transaction of a tag. -/
def State.txOf (s : State) (tag : Nat) : Option Tx := s.txs.find? (fun x => x.tag = tag)

/-- A packet is of this node's own origin and asks for an answer: its transaction. -/
def State.ownTx (s : State) (k : Packet) : Option Tx :=
  if k.src = s.srcFid && [1, 2, 3, 4, 5, 6].contains k.op then s.txOf k.tag else none

/-- A port takes STATE `st`: its queue is discarded, and this node's own operations among it complete (R372). -/
def State.portFall (s : State) (p st : Nat) : State :=
  let q := FMap.getD s.portQueue p
  let s := State.setPort { s with portQueue := FMap.setD s.portQueue p [] } p st 0
  q.foldl
    (fun s k =>
      match s.ownTx k with
      | some x => s.endTx memoryBus x St.fabricPortRetired [] false
      | none => s) s

/-- A port retires (R372). -/
def State.retirePort (s : State) (p : Nat) : State := s.portFall p 4

/-- A port that no training brings up is retired (R371). -/
def State.portDead (s : State) (p : Nat) : State :=
  let s := (s.retirePort p).raise Reg.HAT_INT_STATUS 1
  s.report
    { status := St.fabricPortRetired, target := Tgt.hatch, severity := 4, master := 0x200, address := 0, tag := 0xFFFF, detail := p }

/-! Training. -/

/-- How many lanes a width needs. -/
def widthNeeds (width : Nat) : Nat := match width with | 3 => 4 | 2 => 2 | _ => 1

/-- The number of lanes of a mask. -/
def laneCount (lanes : Nat) : Nat := ((List.range 4).filter (fun i => lanes.testBit i)).length

/-- A port is UP: as hinge in Diptych, else as a port (R371, R405). -/
def State.portUp (s : State) (p width : Nat) : State :=
  (s.setPort p (if s.inPair && 6 ≤ p then 5 else 2) width).flushPort p

/-- The serial number of the node: in a pair, which is one node, its FRONT's (R19). DESIGN CHOICE (assumption 130). -/
def State.nodeSerial (s : State) : Nat := if s.role = some true then s.plate.record.peer else Config.serial.toNat

/-- The HELLO of this node on a port (R374). -/
def State.helloPacket (s : State) (p : Nat) : Packet :=
  let body :=
    natLE 8 s.nodeSerial ++ natLE 4 (s.rd Reg.HAT_FID).toNat ++ natLE 4 (s.rd Reg.HAT_GROUP_CFG).toNat
      ++ natLE 4 (setBits (s.rd Reg.HAT_WARDEN).toNat 30 30 0) ++ natLE 2 p ++ natLE 2 s.revision
      ++ natLE 2 (s.fld Reg.GLB_IDENT_LO 31 16) ++ List.replicate 38 (0 : Byte)
  { Packet.plain 0x20 2 s.srcFid 0x3FFFF 0 64 with hops := 1, payload := body }

/-- HELLO_SEND: a port that is UP sends a HELLO (R374). -/
def State.helloSend (s : State) (p : Nat) : State := if s.portState p = 2 then s.putPacket p (s.helloPacket p) else s

/-- A field of the HELLO has changed: every UP port sends one (R374). -/
def State.helloAll (s : State) : State := (List.range 8).foldl (fun s p => s.helloSend p) s

/-- TRAINING_ATTEMPT_END: an attempt reports the lanes that passed (R371). -/
def State.trainingEnd (s : State) (p lanes : Nat) : State :=
  if s.portState p ≠ 1 then s
  else
    let s := (s.count (Reg.HAT_PORT_RETRAINS p) 31 0 1).setFld (Reg.HAT_PORT_STATE p) 11 8 lanes
    let h := s.hatPort p
    let usable := lanes &&& h.lanes
    match lanesFor h.width usable with
    | some _ => (s.portUp p h.width).helloSend p
    | none =>
      if usable = 0 then s.portDead p
      else if h.fails < 2 && widthNeeds h.width ≤ laneCount usable then s.setHatPort p { h with fails := h.fails + 1 }
      else if h.width ≤ 1 then s.portDead p
      else s.setHatPort p { h with width := h.width - 1, lanes := usable, fails := 0 }

/-- A write of HAT_CTL, which enables and disables the ports (R393). -/
def State.hatCtl (s : State) (m : Nat) (v : Word) : State :=
  let was := s.bit Reg.HAT_CTL 0
  let s := s.plainWrite m Reg.HAT_CTL v
  let now := s.bit Reg.HAT_CTL 0
  (List.range 8).foldl
    (fun s p =>
      if now && !was && !s.bit (Reg.HAT_PORT_CTL p) 0 then s.trainPort p 3 15
      else if was && !now then s.setPort p 0 0
      else s) s

/-- A write of HAT_PORTp_CTL (R371, R372, R393). -/
def State.portCtl (s : State) (m p : Nat) (v : Word) : State :=
  let off := Reg.HAT_PORT_CTL p
  let was := s.bit off 0
  let s := s.plainWrite m off v
  let held := s.bit off 0
  let s := if held && !was then s.setPort p 0 0 else s
  if v.toNat.testBit 1 then s.retirePort p
  else if v.toNat.testBit 2 && !held && s.bit Reg.HAT_CTL 0 then s.trainPort p 3 15
  else if was && !held && s.bit Reg.HAT_CTL 0 then s.trainPort p 3 15
  else s

/-! Routing. -/

/-- A packet that arrives is discarded and counted (R382): a wrong ECRC, a reserved OP or VC, an OP on a VC not its own, or a
nonzero reserved field. -/
def opVc (op : Nat) : Option Nat :=
  if op = 1 || op = 3 || op = 4 then some 0
  else if op = 2 || op = 5 || op = 6 then some 3
  else if 0x10 ≤ op && op ≤ 0x12 then some 1
  else if 0x20 ≤ op && op ≤ 0x27 then some 2
  else none

def packetBad (k : Packet) : Bool := k.badEcrc || k.reserved || opVc k.op ≠ some k.vc

/-- A packet is discarded. -/
def State.rxDiscard (s : State) : State := s.count Reg.HAT_RX_DISCARDS 31 0 1

/-- The answer of this node to a packet. -/
def State.replyTo (s : State) (k : Packet) (op vc status aux2 : Nat) (data : List Byte) (poison : Bool) : State :=
  (s.sendPacket { Packet.plain op vc s.srcFid k.src k.tag data.length with status := status, aux2 := aux2, payload := data, poison := poison }).2

/-- HATCH_PACKET_FORWARD: a transit packet is forwarded, answered unreachable or discarded (R379, R382). -/
def State.forward (s : State) (k : Packet) : State :=
  if packetBad k || (k.hops = 0 && s.ownFid ≠ some k.dst) then s.rxDiscard
  else if s.ownFid = some k.dst then s
  else
    match s.route k.dst with
    | (.here, s) => s
    | (.port q, s) => s.putPacket q { k with hops := k.hops - 1 }
    | (.hold q, s) => s.putPacket q { k with hops := k.hops - 1 }
    | (.unreachable, s) =>
      if k.vc = 0 || k.vc = 3 then s.replyTo k (if k.op = 1 then 0x10 else 0x11) 1 St.fabricUnreachable 0 [] false else s

/-- PACKET_PORT_TIMEOUT: a packet that has waited 1 ms at a port other than a waking one is discarded (R373, R379). -/
def State.packetTimeout (s : State) (p : Nat) (k : Packet) : State :=
  let q := FMap.getD s.portQueue p
  if s.portState p = 3 || !q.contains k then s
  else State.count { s with portQueue := FMap.setD s.portQueue p (q.erase k) } (Reg.HAT_PORT_DROPS p) 31 0 1

/-- TRANSACTION_TIMEOUT: a transaction has not been answered within 1 ms of its sending (R388). -/
def State.txTimeout (s : State) (tag : Nat) : State :=
  match s.txOf tag with
  | none => s
  | some x =>
    if x.port = 16 then s
    else if x.port < 8 && s.portState x.port = 3 && (FMap.getD s.portQueue x.port).any (fun k => k.tag = tag && k.src = s.srcFid) then s
    else
      let s := (s.atTime (x.sentAt + 1000000)).count Reg.HAT_TIMEOUTS 31 0 1
      State.endTx { s with txDead := s.txDead.filter (fun d => decide (s.time.toNat < d.2 + 2000000)) ++ [(tag, s.time.toNat)] } memoryBus x
        St.fabricTimeout [] false

/-- An arriving response: it ends its transaction, or is discarded. -/
def State.response (s : State) (bus : Bus) (k : Packet) : State :=
  if packetBad k then s.rxDiscard
  else
    match s.txOf k.tag with
    | none => s
    | some x => s.endTx bus x k.status k.payload k.poison

end Sys2Proof.Machine
end

