-- ==== Sys2Proof/Machine/Hatch.lean ====
section
/-! DEFINITION. The Hatch fabric above its ports: discovery and wardens (R374, R375), management packets (R376, R377),
membership (R378), route banks (R380), arriving requests (R385, R387, R389), Hatch's jobs (R386) and its registers
(R387, R393, R394). -/

namespace Sys2Proof.Machine

/-! Discovery. -/

/-- A word of HAT_PORTp_NBR (R393). -/
def nbrWord (n : Neighbour) : Word := BitVec.ofNat 32 (2 ^ 31 + 2 ^ 18 * (n.port % 8) + n.fid % 2 ^ 18)

/-- The neighbour a HELLO's payload describes. -/
def nbrOf (b : List Byte) (now : Nat) : Neighbour :=
  ⟨fieldLE b 0 8, fieldLE b 8 4, fieldLE b 0xC 4, fieldLE b 0x10 4, fieldLE b 0x14 2 % 8, now⟩

/-- HELLO: the neighbour is recorded, and a node of its group that knows no warden learns of its (R374, R375). -/
def State.hello (s : State) (p : Nat) (k : Packet) : State :=
  if packetBad k || k.op ≠ 0x20 then s.rxDiscard
  else
    let n := nbrOf k.payload s.time.toNat
    let s := s.setHatPort p { s.hatPort p with nbr := some n }
    let old := s.rd (Reg.HAT_PORT_NBR p)
    let s := if old = nbrWord n then s else (s.wr (Reg.HAT_PORT_NBR p) (nbrWord n)).portChange p
    if bits n.group 25 16 = s.fld Reg.HAT_GROUP_CFG 25 16 && n.warden.testBit 31 && !s.bit Reg.HAT_WARDEN 31 then
      (s.wr Reg.HAT_WARDEN (BitVec.ofNat 32 (2 ^ 31 + n.warden % 2 ^ 18))).helloAll
    else s

/-- NEIGHBOUR_TIMEOUT: no HELLO has come for 35 ms (R374). -/
def State.nbrTimeout (s : State) (p : Nat) : State :=
  match (s.hatPort p).nbr with
  | none => s
  | some n =>
    let s := (s.atTime (n.heard + 35000000)).setHatPort p { s.hatPort p with nbr := none }
    (s.wr (Reg.HAT_PORT_NBR p) 0).portChange p

/-- LINK_EVENT: a change of a port is reported to the warden and every valid fabric manager (R377). -/
def State.linkEvent (s : State) (p : Nat) : State :=
  if !(s.hatPort p).eventDue then s
  else
    let s := s.setHatPort p { s.hatPort p with eventDue := false }
    let body := natLE 4 p ++ natLE 4 (s.rd (Reg.HAT_PORT_STATE p)).toNat ++ natLE 4 (s.rd (Reg.HAT_PORT_NBR p)).toNat
    let dests := ((Reg.HAT_WARDEN :: (List.range 4).map Reg.HAT_FM).filter (fun r => s.bit r 31)).map (fun r => s.fld r 17 0)
    (dests.eraseDups.filter (fun d => s.ownFid ≠ some d)).foldl
      (fun s d => (s.sendPacket { Packet.plain 0x24 2 s.srcFid d 0 12 with payload := body }).2) s

/-! Membership. -/

/-- The configuration record follows what the runtime keeps of Hatch (R378). -/
def State.keepHatch (s : State) : State :=
  let fms := (List.range 4).map (fun i => (s.rd (Reg.HAT_FM i)).toNat)
  let r := s.plate.record
  s.setPlate
    { s.plate with
      record :=
        { r with
          group := s.fld Reg.HAT_GROUP_CFG 25 16, prio := s.fld Reg.HAT_GROUP_CFG 7 0
          fms := if fms.all (· = 0) then [] else fms
          fid := match s.ownFid with | some f => some f | none => r.fid } }

/-- After a print the runtime restores it (R378). -/
def State.restoreHatch (s : State) : State :=
  let r := s.plate.record
  let s := s.wr Reg.HAT_GROUP_CFG (BitVec.ofNat 32 (2 ^ 16 * r.group + r.prio))
  let s := (List.range 4).foldl (fun s i => s.wr (Reg.HAT_FM i) (BitVec.ofNat 32 (r.fms.getD i 0))) s
  s.setFld Reg.HAT_FID 17 0 (r.fid.getD 0)

/-- A write of a Hatch register crosses the hinge to the other half's (R390). -/
def State.hingeWord (s : State) (off : Nat) (b : List Byte) : State :=
  { s with
    sent := s.sent ++ [.hinge 0 { master := 0x200, dpa := regDpa off, len := b.length, kind := .write, data := b, stream := false } false] }

/-- A membership register of a pair is copied to the other half, since the pair is one node with one FID (R19, R390). -/
def State.shareHatch (s : State) (off : Nat) : State :=
  if s.inPair then s.hingeWord off (natLE 4 (s.rd off).toNat) else s

/-- A write of HAT_FID: outside Diptych the node is a fabric member while VALID is 1 (R378). -/
def State.fidWrite (s : State) (m : Nat) (v : Word) : State :=
  let old := s.rd Reg.HAT_FID
  let s := s.plainWrite m Reg.HAT_FID v
  let now := s.bit Reg.HAT_FID 31
  let s := if s.rd Reg.HAT_FID = old then s else ((s.raise Reg.HAT_INT_STATUS 6).helloAll).shareHatch Reg.HAT_FID
  let s := if s.mode = .solo && now then s.setMode .fabric else if s.mode = .fabric && !now then s.setMode .solo else s
  s.keepHatch

/-- A write of HAT_GROUP_CFG or HAT_FMi. -/
def State.groupWrite (s : State) (m off : Nat) (v : Word) : State :=
  let old := s.rd off
  let s := (s.plainWrite m off v).keepHatch
  if s.rd off = old then s
  else (if off = Reg.HAT_GROUP_CFG then s.helloAll else s).shareHatch off

/-- The member numbers of a group that nodes hold, as this node knows: its own and its neighbours'. -/
def State.membersHeld (s : State) (group : Nat) : List Nat :=
  let own := match s.ownFid with | some f => [f] | none => []
  let nbrs := (List.range 8).filterMap (fun p => (s.hatPort p).nbr.bind (fun n => if n.fid.testBit 31 then some (n.fid % 2 ^ 18) else none))
  ((own ++ nbrs).filter (fun f => bits f 17 8 = group)).map (· % 256)

/-- The member number for a serial number: the one recorded for it if it is free, else the lowest free (R375). -/
def State.memberFor (s : State) (group serial : Nat) : Nat :=
  let held := s.membersHeld group
  match s.members.find? (fun e => e.1 = serial && !held.contains e.2) with
  | some e => e.2
  | none => ((List.range 256).find? (fun n => !held.contains n && !s.members.any (fun e => e.2 = n))).getD 255

/-- A member number is recorded for a serial number (R375). -/
def State.giveMember (s : State) (serial n : Nat) : State :=
  { s with members := s.members.filter (fun e => e.1 ≠ serial) ++ [(serial, n)] }

/-- The FID of the node beyond port `p` is also that of this node, or of the node beyond another port, which announced it
earlier: its number is already recorded (R375). -/
def State.fidTwin (s : State) (p : Nat) (n : Neighbour) : Bool :=
  s.ownFid = some (n.fid % 2 ^ 18)
    || (List.range 8).any (fun q =>
      q ≠ p && (match (s.hatPort q).nbr with
        | some m =>
          m.serial ≠ n.serial && m.fid.testBit 31 && m.fid % 2 ^ 18 = n.fid % 2 ^ 18 && s.members.contains (m.serial, n.fid % 256)
        | none => false))

/-- The warden gives an FID to the node beyond port `p` by a MGMT_WRITE of HAT_FID: over a proxy where it has none, to its old FID
where that is of another group or another node's. A node that holds a valid FID of the group keeps it (R375, R376). -/
def State.assignNeighbour (s : State) (group p : Nat) : State :=
  match (s.hatPort p).nbr with
  | none => s
  | some n =>
    let valid := n.fid.testBit 31
    if bits n.group 25 16 ≠ group then s
    else if valid && bits n.fid 17 8 = group && !s.fidTwin p n then s.giveMember n.serial (n.fid % 256)
    else
      let num := s.memberFor group n.serial
      let word := 2 ^ 31 + 256 * group + num
      (s.giveMember n.serial num).putPacket p
        { Packet.plain 0x22 2 s.srcFid (if valid then n.fid % 2 ^ 18 else 0x3FFFF) ((s.freeTag).getD 0) 4 with
          hops := 1, addr := 4, payload := natLE 4 word }

/-- The neighbours of the node's group beyond its ports; in a pair ports 6 and 7 lead to no other node (R19, R375). -/
def State.groupNbrs (s : State) : List Neighbour :=
  ((List.range (if s.inPair then 6 else 8)).filterMap (fun p => (s.hatPort p).nbr)).filter
    (fun n => bits n.group 25 16 = s.fld Reg.HAT_GROUP_CFG 25 16)

/-- The node may be its group's warden: it is a candidate, and no neighbour of its group comes before it, by priority and then by the
lower serial number (R375). -/
def State.mayLead (s : State) : Bool :=
  let prio := s.fld Reg.HAT_GROUP_CFG 7 0
  prio ≠ 0 && s.groupNbrs.all (fun n => bits n.group 7 0 < prio || (bits n.group 7 0 = prio && s.nodeSerial ≤ n.serial))

/-- HAT_WARDEN becomes `w`, and the HELLOs tell of it (R374). -/
def State.knowWarden (s : State) (w : Nat) : State := (s.wr Reg.HAT_WARDEN (BitVec.ofNat 32 w)).helloAll

/-- WARDEN_ELECT: the group has settled its warden, or has no candidate and so none; a node that is warden takes its own member number
first and then gives the nodes beyond its ports theirs (R375). The FRONT does so for a pair, and the BACK only learns that its node is
warden (R19). -/
def State.wardenElect (s : State) (warden : Option Nat) (self : Bool) : State :=
  let group := s.fld Reg.HAT_GROUP_CFG 25 16
  if self then
    if !s.mayLead then s
    else if s.role = some true then s.knowWarden (2 ^ 31 + 2 ^ 30 + s.srcFid % 2 ^ 18)
    else
      let serial := Config.serial.toNat
      let s :=
        match s.ownFid.filter (fun f => bits f 17 8 = group) with
        | some f => s.giveMember serial (f % 256)
        | none =>
          let n := s.memberFor group serial
          (s.giveMember serial n).fidWrite 0x140 (BitVec.ofNat 32 (2 ^ 31 + 256 * group + n))
      (List.range 8).foldl (fun s p => s.assignNeighbour group p) (s.knowWarden (2 ^ 31 + 2 ^ 30 + s.srcFid % 2 ^ 18))
  else
    match warden with
    | none => if s.fld Reg.HAT_GROUP_CFG 7 0 = 0 && s.groupNbrs.all (fun n => bits n.group 7 0 = 0) then s.knowWarden 0 else s
    | some w => if bits w 17 8 ≠ group then s else s.knowWarden (2 ^ 31 + w % 2 ^ 18)

/-- A packet crosses the hinge to the half that must serve it (R390). -/
def State.crossHinge (s : State) (k : Packet) : State := { s with sent := s.sent ++ [.packet 16 k] }

/-! Management packets. -/

/-- The packet comes from this node's warden; over a proxy, from the warden its neighbour named (R376, R377). -/
def State.fromWarden (s : State) (p : Nat) (k : Packet) : Bool :=
  if k.dst = 0x3FFFF then
    s.ownFid.isNone && (match (s.hatPort p).nbr with | some n => n.warden.testBit 31 && n.warden % 2 ^ 18 = k.src | none => false)
  else s.bit Reg.HAT_WARDEN 31 && s.fld Reg.HAT_WARDEN 17 0 = k.src

/-- The packet comes from a valid fabric manager. -/
def State.fromManager (s : State) (k : Packet) : Bool :=
  k.dst ≠ 0x3FFFF && (List.range 4).any (fun i => s.bit (Reg.HAT_FM i) 31 && s.fld (Reg.HAT_FM i) 17 0 = k.src)

/-- A proxy request is sent on to the node beyond a port, or a packet not for this node is forwarded; none where the packet is for
this node itself (R376). The FRONT serves a pair's management packets (R390). -/
def State.passOn (s : State) (k : Packet) : Option State :=
  if packetBad k then some s.rxDiscard
  else if k.dst = 0x3FFFF then none
  else if s.ownFid ≠ some k.dst then some (s.forward k)
  else if s.role = some true then some (s.crossHinge k)
  else if k.aux.testBit 3 then
    let out := k.aux % 8
    some (State.putPacket { s with hat := { s.hat with proxies := s.hat.proxies ++ [⟨out, k.tag, k.src⟩] } } out { k with hops := 1, dst := 0x3FFFF })
  else none

/-- MGMT_RSP: by the way the request came (R376). -/
def State.mgmtAnswer (s : State) (p : Nat) (k : Packet) (status : Nat) (data : List Byte) : State :=
  let r := { Packet.plain 0x23 2 s.srcFid k.src k.tag data.length with status := status, payload := data }
  if k.dst = 0x3FFFF then s.putPacket p { r with hops := 1 } else (s.sendPacket r).2

/-- A management request that no rule accepts. -/
def State.mgmtDeny (s : State) (p : Nat) (k : Packet) : State :=
  (s.report
    { status := St.accessDenied, target := Tgt.hatch, severity := 2, master := 0x200, address := regDpa (0x700000 + k.addr % 0x80000),
      tag := k.tag, detail := k.src }).mgmtAnswer p k St.accessDenied []

/-- ADDR and LEN of a management request are within R383. -/
def mgmtOk (k : Packet) : Bool :=
  k.addr % 4 = 0 && 4 ≤ k.len && k.len ≤ 256 && k.len % 4 = 0 && k.addr + k.len ≤ 0x80000

/-- MGMT_READ (R377). -/
def State.mgmtRead (s : State) (p : Nat) (k : Packet) : State :=
  match s.passOn k with
  | some s => s
  | none =>
    if !(s.fromWarden p k || s.fromManager k) then s.mgmtDeny p k
    else if !mgmtOk k then s.mgmtAnswer p k St.invalidField []
    else
      let (d, s) :=
        (List.range (k.len / 4)).foldl
          (fun (acc : List Byte × State) i =>
            let (w, s) := acc.2.regReadBytes 0x200 (0x700000 + k.addr + 4 * i) 4
            (acc.1 ++ w, s)) ([], s)
      s.mgmtAnswer p k St.ok d

/-- The words a source may write, as HAT offsets (R377). -/
def State.mgmtMay (s : State) (p : Nat) (k : Packet) (o : Nat) (v : Word) : Bool :=
  let shadow := 0x10000 + 0x8000 * (1 - s.activeBank)
  let swap := o = 0x10 && v = 0x80000000
  (s.fromWarden p k && (o = 4 || (decide (shadow + 0x2000 ≤ o) && decide (o < shadow + 0x2800)) || swap))
    || (s.fromManager k && (o = 8 || (decide (0x40 ≤ o) && decide (o < 0x50)) || (decide (shadow ≤ o) && decide (o < shadow + 0x2000)) || swap))

/-- MGMT_WRITE (R377). -/
def State.mgmtWrite (s : State) (bus : Bus) (p : Nat) (k : Packet) : State :=
  match s.passOn k with
  | some s => s
  | none =>
    if !mgmtOk k || k.payload.length ≠ k.len then
      (if s.fromWarden p k || s.fromManager k then s.mgmtAnswer p k St.invalidField [] else s.mgmtDeny p k)
    else
      let ws := (List.range (k.len / 4)).map (fun i => (k.addr + 4 * i, writeWord k.payload (4 * i)))
      if !ws.all (fun w => s.mgmtMay p k w.1 w.2) then s.mgmtDeny p k
      else (ws.foldl (fun s w => bus.reg s 0x200 (0x700000 + w.1) w.2) s).mgmtAnswer p k St.ok []

/-- MGMT_RSP: a proxied one goes back to the node that asked; one on a hinge port answers a FREEZE notice (R376, R397). -/
def State.mgmtRsp (s : State) (p : Nat) (k : Packet) : State :=
  if packetBad k then s.rxDiscard
  else
    match s.hat.proxies.find? (fun x => x.port = p && x.tag = k.tag) with
    | some x => (State.sendPacket { s with hat := { s.hat with proxies := s.hat.proxies.erase x } } { k with hops := 32, dst := x.src }).2
    | none =>
      if k.dst ≠ 0x3FFFF && s.ownFid ≠ some k.dst then s.forward k
      else if k.dst ≠ 0x3FFFF && s.role = some true then s.crossHinge k
      else if 6 ≤ p && s.hat.freeze.isSome then { s with hat := { s.hat with freeze := none } } else s

/-! Route banks. -/

/-- A port value of a route entry is reserved now (R379). -/
def State.portReserved (s : State) (p : Nat) : Bool :=
  if s.inPair then p = 6 || p = 7 || 14 ≤ p else 8 ≤ p

/-- A write of a whole route entry pair (R379, R380, R390). -/
def State.routeWrite (s : State) (m off v : Nat) : State :=
  if (off - 0x710000) / 0x8000 = s.activeBank || s.bit Reg.HAT_ROUTE_CTL 30 then s.refuse m off St.accessDenied
  else if s.portReserved (bits v 3 0) || s.portReserved (bits v 7 4) then s.refuse m off St.invalidField
  else
    let s := s.wr64 off v
    if s.role = some false then s.hingeWord off (natLE 8 v) else s

/-- ROUTE_SWAP: a write of SWAP = 1; the banks are exchanged between two lookups (R380). The FRONT's reaches the BACK's banks, which are
copies of its own (R390). -/
def State.routeSwap (s : State) : State :=
  if s.bit Reg.HAT_ROUTE_CTL 30 then s
  else
    let s := (s.setFld Reg.HAT_ROUTE_CTL 0 0 (1 - s.activeBank)).raise Reg.HAT_INT_STATUS 5
    if s.role = some false then s.hingeWord Reg.HAT_ROUTE_CTL (natLE 4 (2 ^ 31)) else s

/-! Arriving requests. -/

/-- The class of a packet's source, none where step 1 of R385 refuses it. -/
def State.sourceClass (s : State) (k : Packet) : Option Nat × State :=
  if s.ownFid = some k.src then (some 0, s)
  else
    let (e, s) := s.routeEntry k.src
    match e with
    | none => (none, s)
    | some v => (if bits v 23 16 = 0 then none else some (bits v 23 16), s)

/-- Steps 1 to 3 of R385: the DPA and master of an admitted request, or its status. -/
def State.ingress (s : State) (k : Packet) (n : Rights) : Except Nat (Nat × Nat) × State :=
  let w := bits k.addr 46 40
  let o := bits k.addr 39 0
  let (c, s) := s.sourceClass k
  match c with
  | none =>
    (.error St.accessDenied,
      s.report
        { status := St.accessDenied, target := Tgt.hatch, severity := 2, master := 0x200, address := k.addr % 2 ^ 48, tag := k.tag, detail := k.src })
  | some c =>
    if k.len = 0 || 4096 < k.len then (.error St.invalidField, s)
    else if !s.bit (Reg.HAT_EXP_SIZE w) 31 || 65536 * s.fld (Reg.HAT_EXP_SIZE w) 23 0 < o + k.len then
      (.error St.accessDenied,
        s.report
          { status := St.accessDenied, target := Tgt.hatch, severity := 2, master := 0x200 + c, address := k.addr % 2 ^ 48, tag := k.tag, detail := w })
    else
      let (v, s) := s.judge 0x09 (0x200 + c) (k.addr % 2 ^ 47) k.len n
      if v ≠ St.ok then (.error v, s) else (.ok (s.rd64 (Reg.HAT_EXP_BASE_LO w) + o, 0x200 + c), s)

/-- An arriving packet that is not this node's: bad, in transit, or for the other half. -/
def State.notHere (s : State) (k : Packet) (op : Nat) : Option State :=
  if packetBad k || k.op ≠ op then some s.rxDiscard
  else if s.ownFid ≠ some k.dst then some (s.forward k)
  else none

/-- The request of an arriving packet, served by the half whose HBM holds its span: over the hinge where that is the other, the packet
waiting for the answer (R390; DESIGN CHOICE, assumption 68). -/
def State.arriving (s : State) (r : Request) (p : Bool) : MemAnswer × State :=
  let (a, s) := s.request memoryBus r p
  (a, if a.status = St.held then s else { s with far := s.far.filter (fun f => f.done.isNone || f.req ≠ r) })

/-- HATCH_READ (R385, R390). -/
def State.hatchRead (s : State) (k : Packet) : State :=
  match s.notHere k 1 with
  | some s => s
  | none =>
    if s.role = some true then s.crossHinge k
    else
      match s.ingress k Rights.read with
      | (.error st, s) => s.replyTo k 0x10 1 st 0 [] false
      | (.ok (dpa, m), s) =>
        let (a, s) := s.arriving { master := m, dpa := dpa, len := k.len, kind := .read, data := [], stream := false } false
        if a.status = St.held then s
        else
          let st := if a.status ≠ St.ok then a.status else if a.poison then St.poisonedData else St.ok
          s.replyTo k 0x10 1 st 0 (if st = St.ok then a.data else []) false

/-- HATCH_WRITE (R385, R390). -/
def State.hatchWrite (s : State) (k : Packet) : State :=
  match s.notHere k 2 with
  | some s => s
  | none =>
    if s.role = some true then s.crossHinge k
    else
      match s.ingress k Rights.write with
      | (.error st, s) => s.replyTo k 0x11 1 st 0 [] false
      | (.ok (dpa, m), s) =>
        let (a, s) := s.arriving { master := m, dpa := dpa, len := k.len, kind := .write, data := k.payload, stream := false } k.poison
        if a.status = St.held then s else s.replyTo k 0x11 1 a.status 0 [] false

/-! Landing queues (R387). -/

/-- The expected phase of a landing queue. -/
def State.lqPhase (s : State) (q : Nat) : Bool := FMap.get (fun _ => true) s.hat.lqPhase q

/-- The context of a landing queue is in range: its entries of 128 bytes lie in local HBM. -/
def State.lqCtxOk (s : State) (c : List Byte) : Bool :=
  ctxSub c % 64 = 0 && ctxCmp c = 0 && decide (2 ≤ ctxDepth c) && bits (ctxAttr c) 30 10 = 0 && fieldLE c 0x30 16 = 0
    && s.inHbm (ctxSub c) (128 * ctxDepth c)

/-- A landing queue enters its error state (R387, R394). -/
def State.lqFail (s : State) (q : Nat) : State := (s.setFld (Reg.HAT_LQ_STATUS q) 31 31 1).raise Reg.HAT_INT_STATUS 4

/-- A pair of a landing queue's context does not match: the queue enters its error state, and Guard records the mismatch (R39,
R387). -/
def State.lqMismatch (s : State) (k : Packet) (q : Nat) : State :=
  (s.lqFail q).report
    { status := St.complementMismatch, target := Tgt.hatch, severity := 3, master := 0x200, address := s.rd64 (Reg.HAT_LQ_CTX_LO q),
      tag := k.tag, detail := q }

/-- The 128 bytes of a landing queue entry but for the phase bit (R387). -/
def lqEntry (k : Packet) : List Byte :=
  let submit := k.op = 3
  natLE 4 (2 ^ 16 * (if submit then 1 else 2) + k.tag % 2 ^ 16) ++ natLE 4 k.src ++ natLE 8 (if submit then 0 else k.aux2)
    ++ List.replicate 48 (0 : Byte) ++ (if submit then (k.payload ++ List.replicate 64 (0 : Byte)).take 64 else List.replicate 64 (0 : Byte))

/-- Steps 2 to 5 of R387: the status answered. -/
def State.landing (s : State) (k : Packet) (q : Nat) : Nat × State :=
  if !s.bit (Reg.HAT_LQ_CTL q) 0 || s.bit (Reg.HAT_LQ_STATUS q) 31 then (St.invalidField, s)
  else
    let (a, s) := s.readMem 0x200 (s.rd64 (Reg.HAT_LQ_CTX_LO q)) 64
    if a.status = St.held then (St.held, s)
    else if a.status ≠ St.ok || a.poison then (if a.status ≠ St.ok then a.status else St.poisonedData, s.lqFail q)
    else
      let c := a.data
      if !(pair64At c 0 && pair64At c 0x10 && pair32At c 0x20 && pair32At c 0x28) then (St.complementMismatch, s.lqMismatch k q)
      else if !s.lqCtxOk c then (St.invalidField, s.lqFail q)
      else
        let d := ctxDepth c
        let tail := s.fld (Reg.HAT_LQ_STATUS q) 15 0
        let s : State := { s with hat := { s.hat with lqDepth := FMap.setD s.hat.lqDepth q d } }
        if (tail + 1) % d = s.fld (Reg.HAT_LQ_HEAD q) 15 0 then (St.tableFull, s)
        else
          let e := lqEntry k
          let at' := ctxSub c + 128 * tail
          let (w1, s) := s.writeMem 0x200 (at' + 4) (e.drop 4)
          let (w2, s) := s.writeMem 0x200 at' (natLE 4 (fieldLE e 0 4 + 2 ^ 31 * bit01 (s.lqPhase q)))
          if w1 ≠ St.ok || w2 ≠ St.ok then (if w1 ≠ St.ok then w1 else w2, s)
          else
            let wrap := tail + 1 = d
            let s := s.setFld (Reg.HAT_LQ_STATUS q) 15 0 (if wrap then 0 else tail + 1)
            let s : State :=
              if wrap then { s with hat := { s.hat with lqPhase := FMap.set (fun _ => true) s.hat.lqPhase q (!s.lqPhase q) } } else s
            (St.ok, if (ctxAttr c).testBit 31 then s.signal (ctxAttr c % 1024) else s)

/-- HATCH_SUBMIT and HATCH_NOTIFY (R387, R390). -/
def State.hatchLand (s : State) (k : Packet) (op : Nat) : State :=
  match s.notHere k op with
  | some s => s
  | none =>
    if s.role = some true then s.crossHinge k
    else
      let q := k.aux % 64
      let (c, s) := s.sourceClass k
      match c with
      | none =>
        (s.report
          { status := St.accessDenied, target := Tgt.hatch, severity := 2, master := 0x200, address := 0x800000000000 + 65536 * q, tag := k.tag,
            detail := k.src }).replyTo k 0x11 1 St.accessDenied 0 [] false
      | some c =>
        let (v, s) := s.judge 0x09 (0x200 + c) (0x800000000000 + 65536 * q) 128 Rights.write
        if v ≠ St.ok then s.replyTo k 0x11 1 v 0 [] false
        else
          let (st, s) := s.landing k q
          if st = St.held then s else s.replyTo k 0x11 1 st 0 [] false

/-- A write of HAT_LQq_CTL (R394). -/
def State.lqCtl (s : State) (m q : Nat) (v : Word) : State :=
  let s := s.plainWrite m (Reg.HAT_LQ_CTL q) v
  if v.toNat.testBit 1 then
    let s : State :=
      { s with
        hat := { s.hat with lqPhase := FMap.set (fun _ => true) s.hat.lqPhase q true, lqDepth := FMap.setD s.hat.lqDepth q 0 } }
    (s.wr (Reg.HAT_LQ_STATUS q) 0).wr (Reg.HAT_LQ_HEAD q) 0
  else s

/-- A write of HAT_LQq_HEAD, under the rules of R283 (R387). -/
def State.lqHead (s : State) (m q : Nat) (v : Word) : State :=
  let d := FMap.getD s.hat.lqDepth q
  let h := v.toNat % 2 ^ 16
  let old := s.fld (Reg.HAT_LQ_HEAD q) 15 0
  let tail := s.fld (Reg.HAT_LQ_STATUS q) 15 0
  if d ≤ h || (tail + d - old) % d < (h + d - old) % d then s.refuse m (Reg.HAT_LQ_HEAD q) St.invalidField
  else s.setFld (Reg.HAT_LQ_HEAD q) 15 0 h

/-! Streams (R389). -/

/-- The elements of a payload, `eb` bytes each. -/
def elemsOf (eb : Nat) (b : List Byte) : List Nat := (List.range (b.length / eb)).map (fun i => fieldLE b (eb * i) eb)

/-- HATCH_STREAM and HATCH_STREAM_END: the packet is accepted by an inbound channel whose sender and generation match, else
discarded; the ACK carries OK either way. -/
def State.hatchStream (s : State) (k : Packet) (op : Nat) : State :=
  match s.notHere k op with
  | some s => s
  | none =>
    match s.localTile (bits k.aux 15 9) with
    | none => if s.role.isSome then s.crossHinge k else s.replyTo k 0x11 1 St.ok 0 [] false
    | some n =>
      let c := bits k.aux 8 4
      let mine := s.ichValid n c && s.bit (Reg.TIL_ICH_CFG n c) 24 && s.fld (Reg.TIL_ICH_SRC n c) 29 12 = k.src
      let body : NocBody := if op = 5 then .elems (elemsOf (s.ichEb n c) k.payload) true k.poison else .endMark
      let s := if mine then s.streamArrive n c (k.aux % 16) body else s
      s.replyTo k 0x11 1 St.ok 0 [] false

/-- STREAM_CREDIT (R162, R389). -/
def State.hatchCredit (s : State) (k : Packet) : State :=
  match s.notHere k 0x12 with
  | some s => s
  | none =>
    match s.localTile (bits k.aux 15 9) with
    | none => if s.role.isSome then s.crossHinge k else s
    | some n => s.creditArrive n (bits k.aux 8 4) (k.aux % 16) k.aux2

/-! Jobs (R386). -/

/-- The cause with which an entry is malformed (R284, R386). -/
def hatMalformed (e : List Byte) : Option Nat :=
  if fieldLE e 0 4 / 2 ^ 16 % 2 ^ 15 ≠ 0 || hatOp e = 0 || 4 < hatOp e then some 1
  else if !(pair32At e 8 && pair64At e 0x10 && pair64At e 0x20 && pair32At e 0x30) then some 2
  else none

/-- The other fields of an entry are in range. -/
def hatFieldsOk (e : List Byte) : Bool :=
  let p := fieldLE e 4 4
  let len := hatLen e
  bits p 31 14 = 0 && bits p 7 5 = 0 && bits (hatDest e) 31 25 = 0 && fieldLE e 0x38 8 = 0
    && (match hatOp e with
      | 1 | 2 => decide (1 ≤ len) && decide (len ≤ 0x1000000) && decide (hatRemote e < 2 ^ 40)
      | 3 => len = 64 && hatRemote e = 0
      | _ => len = 0)

/-- The packet of a job at its offset `o`, with `n` bytes. -/
def hatPacket (src tag : Nat) (e : List Byte) (o n : Nat) (data : List Byte) (poison : Bool) : Packet :=
  let fid := bits (hatDest e) 17 0
  let addr := 2 ^ 40 * bits (hatDest e) 24 18 + (hatRemote e + o)
  match hatOp e with
  | 1 => { Packet.plain 1 0 src fid tag n with addr := addr }
  | 2 => { Packet.plain 2 3 src fid tag n with addr := addr, payload := data, poison := poison }
  | 3 => { Packet.plain 3 0 src fid tag 64 with aux := hatLandq e, payload := data, poison := poison }
  | _ => { Packet.plain 4 0 src fid tag 0 with aux := hatLandq e, aux2 := hatRemote e }

/-- A job's progress becomes `p`. -/
def State.setProg (s : State) (j : Job) (p : Progress) : State :=
  { s with jobs := s.jobs.map (fun k => if k = j then { j with prog := p } else k) }

/-- The packets of a job that can be sent now are sent, over at most `fuel` of them. -/
def State.hatSend (s : State) (ring tag : Nat) : Nat → State
  | 0 => s
  | fuel + 1 =>
    match s.hatJobOf ring tag with
    | none => s
    | some j =>
      let e := j.entry
      let op := hatOp e
      let left := hatLen e - j.prog.off
      if (left = 0 && op ≠ 4) || (op = 4 && j.prog.desc ≠ 0) then s
      else
        match s.freeTag with
        | none => s
        | some tx =>
          let n := if op = 3 then 64 else if op = 4 then 0 else chunkLen (hatRemote e + j.prog.off) left
          let dpa := hatLocal e + j.prog.off
          let (a, s) := if op = 2 || op = 3 then s.readMem 0x200 dpa n else (⟨St.ok, [], false⟩, s)
          if a.status = St.held then s
          else if a.status ≠ St.ok then s.hatFail j a.status
          else
            match s.sendPacket (hatPacket s.srcFid tx e j.prog.off n a.data a.poison) with
            | (.error st, s) => s.hatFail j st
            | (.ok port, s) =>
              let s := (s.setProg j { j.prog with off := j.prog.off + n, desc := j.prog.desc + 1 }).openTx tx port (.job ring tag dpa n (op = 1))
              s.hatSend ring tag fuel

/-- HATCH_JOB_READ, _WRITE, _SUBMIT and _NOTIFY: a fetched job of ring `n` writes what it was waiting to write, and sends the packets it
can (R23, R386, R388). -/
def State.hatJob (s : State) (n tag op : Nat) : State :=
  let ring := ringKey ⟨.hat, n⟩
  let s := s.jobAgain memoryBus ring tag
  match (s.hatJobOf ring tag).filter (fun j => hatOp j.entry = op) with
  | none => s
  | some j =>
    let earlier := (s.jobs.takeWhile (fun k => k ≠ j)).any (fun k => k.ring = ring && k.done.isNone)
    if hatOrder j.entry && earlier then s
    else if !hatFieldsOk j.entry then s.endJob j St.invalidField 0
    else s.hatSend ring tag 4097

/-! Registers (R393). -/

/-- A write of the HAT_EXPw_BASE pair: discarded while VALID = 1. -/
def State.expBase (s : State) (m w v : Nat) : State :=
  if s.bit (Reg.HAT_EXP_SIZE w) 31 then s.refuse m (Reg.HAT_EXP_BASE_LO w) St.accessDenied
  else s.wr64 (Reg.HAT_EXP_BASE_LO w) (v / 65536 % 2 ^ 32 * 65536)

/-- A write of HAT_EXPw_SIZE. -/
def State.expSize (s : State) (m w : Nat) (v : Word) : State :=
  let off := Reg.HAT_EXP_SIZE w
  let size := bits v.toNat 23 0
  let limit := if s.inPair then 192 * gib else s.hbmLimit
  if v.toNat.testBit 31 && (size = 0 || limit < s.rd64 (Reg.HAT_EXP_BASE_LO w) + 65536 * size) then
    s.refuse m off St.invalidField
  else s.plainWrite m off v

end Sys2Proof.Machine
end

