-- ==== Sys2Proof/Machine/Diptych.lean ====
section
/-! DEFINITION. Diptych pairing: the hinge's messages (R397), forming and unpairing (R395, R396, R398, R410), starting a pair
(R399), the notices of an etch (R397, R421), and losing a half (R405 to R408). -/

namespace Sys2Proof.Machine

/-- ROLE of GLB_PAIR_CTL (R411). -/
def State.pairRole (s : State) : Nat := s.fld Reg.GLB_PAIR_CTL 1 0

/-- STATE of GLB_PAIR_STATUS (R411). -/
def State.pairState (s : State) : Nat := s.fld Reg.GLB_PAIR_STATUS 31 30

/-- P recorded in the newest valid image slot; 0 when none is (R397). -/
def State.imageP (s : State) : Nat :=
  match s.plate.newest with
  | some b => ((s.plate.slot b).map (·.epoch)).getD 0
  | none => 0

/-- The pair record this module sends on a port (R397). -/
def State.pairRecord (s : State) (p : Nat) : List Byte :=
  let r := s.plate.record
  let word := 2 ^ 6 * s.pairState + 2 ^ 5 * bit01 (r.role ≠ 0) + 2 ^ 4 * bit01 s.hat.commitAt.isSome + p
  natLE 8 Config.serial.toNat ++ natLE 8 (s.rd64 Reg.GLB_IDENT_LO % 2 ^ 44) ++ natLE 4 word ++ natLE 4 s.pairRole
    ++ natLE 8 (if r.role = 0 then 0 else r.pairGen) ++ natLE 8 (if r.role = 0 then 0 else r.peer) ++ natLE 8 s.imageP
    ++ List.replicate 16 (0 : Byte)

/-- The record of a payload. -/
def pairRecOf (b : List Byte) : PairRec :=
  ⟨fieldLE b 0 8, fieldLE b 8 8, fieldLE b 0x10 4, fieldLE b 0x14 4 % 4, fieldLE b 0x18 8, fieldLE b 0x20 8, fieldLE b 0x28 8⟩

/-- A message of the hinge's own (R397). -/
def State.pairSend (s : State) (p op tag aux aux2 : Nat) (data : List Byte) : State :=
  s.putPacket p { Packet.plain op 2 s.srcFid 0x3FFFF tag data.length with hops := 1, aux := aux, aux2 := aux2, payload := data }

/-- A hinge port is UP. -/
def State.hingeUp (s : State) (p : Nat) : Bool := s.portState p = 2 || s.portState p = 5

/-- PAIR_QUERY is sent on a port that is UP. -/
def State.pairAsk (s : State) (p : Nat) : State := if s.hingeUp p then s.pairSend p 0x25 0 0 0 (s.pairRecord p) else s

/-- A module accepts the hinge's messages on this port (R397). -/
def State.pairAccepts (s : State) (p : Nat) (k : Packet) : Bool := 6 ≤ p && p < 8 && s.pairRole ≠ 0 && !packetBad k

/-- The reply held from a port. -/
def State.reply (s : State) (p : Nat) : Option PairRec := FMap.getD s.hat.replies p

/-- The reply held from a port becomes `r`. -/
def State.setReply (s : State) (p : Nat) (r : Option PairRec) : State :=
  { s with hat := { s.hat with replies := FMap.setD s.hat.replies p r } }

/-- The identity of R395: MAJOR of 2 or more, equal PART, MAJOR and MINOR. -/
def State.identOk (s : State) (r : PairRec) : Bool :=
  let own := s.rd64 Reg.GLB_IDENT_LO
  2 ≤ bits own 35 32 && bits own 31 16 = bits r.ident 31 16 && bits own 39 32 = bits r.ident 39 32

/-- The replies of both ports come from one peer, joined port to port (R395, R396). -/
def wired (a b : PairRec) : Bool := a.serial = b.serial && a.word % 8 = 6 && b.word % 8 = 7

/-- Both image slots are marked invalid (R398, R410). -/
def State.dropImages (s : State) : State := (s.setPlate { s.plate with slotA := none, slotB := none }).showSlots

/-- A COMMIT completes with a status (R396). -/
def State.commitEnd (s : State) (status : Nat) : State :=
  let s : State := { s with hat := { s.hat with commitAt := none } }
  (s.setFld Reg.GLB_PAIR_STATUS 15 0 status).setFld Reg.GLB_PAIR_STATUS 25 25 0

/-- A COMMIT meets every condition: the pair configuration is recorded (R398). -/
def State.commitOk (s : State) (r : PairRec) : State :=
  if s.storeFailed then s.commitEnd St.plateInvalid
  else
    let own := s.plate.record
    let done := bits r.word 7 6 = 1 && r.peer = Config.serial.toNat
    let gen := if done then r.gen else max own.pairGen r.gen + 1
    let s := s.setPlate { s.plate with record := { own with role := s.pairRole, peer := r.serial, pairGen := gen } }
    ((s.dropImages.showPair).setFld Reg.GLB_PAIR_STATUS 31 30 1).commitEnd St.ok

/-- The peer has written COMMIT, or has already completed its own with this module. -/
def peerCommits (r : PairRec) : Bool := r.word.testBit 4 || (bits r.word 7 6 = 1 && r.peer = Config.serial.toNat)

/-- A COMMIT that runs is judged once replies from both ports are held (R395, R396). -/
def State.commitCheck (s : State) : State :=
  match s.hat.commitAt, s.reply 6, s.reply 7 with
  | some _, some a, some b =>
    let roles := (s.pairRole = 1 && a.role = 2) || (s.pairRole = 2 && a.role = 1)
    if !(wired a b && s.identOk a && roles && s.mode = .bringUp) then s.commitEnd St.invalidField
    else if peerCommits a || peerCommits b then s.commitOk a
    else s
  | _, _, _ => s

/-- A write of GLB_PAIR_CTL (R396, R410, R411). -/
def State.pairCtl (s : State) (m : Nat) (v : Word) : State :=
  let off := Reg.GLB_PAIR_CTL
  if !s.bringUpAdmits m then s.refuse m off St.accessDenied
  else
    let busy := s.bit Reg.GLB_PAIR_STATUS 25
    let s := s.plainWrite m off v
    if busy then s
    else if v.toNat.testBit 30 then
      if s.mode ≠ .bringUp then s.refuse m off St.accessDenied
      else
        let s := s.setPlate { s.plate with record := { s.plate.record with role := 0, peer := 0 } }
        (((s.dropImages).setFld Reg.GLB_PAIR_STATUS 31 30 0).setFld Reg.GLB_PAIR_STATUS 15 0 St.ok).showPair
    else if v.toNat.testBit 31 then
      if s.mode ≠ .bringUp then s.refuse m off St.accessDenied
      else
        let s : State := { s with hat := { s.hat with commitAt := some s.time.toNat, replies := [] } }
        let s := s.setFld Reg.GLB_PAIR_STATUS 25 25 1
        [6, 7].foldl (fun s p => if s.hingeUp p then s.pairAsk p else if s.portState p = 1 then s else s.trainPort p 3 15) s
    else s

/-- The module exchanges records after its print (R399): it holds a pair configuration, has printed and has not yet entered its
mode. -/
def State.forming (s : State) : Bool :=
  s.mode = .dormant && s.boot.printed = some true && s.plate.record.role ≠ 0 && s.pairState ≠ 3

/-- PAIR_QUERY_REPEAT: until a reply is held on both ports the query is sent again (R396, R399). -/
def State.pairRepeat (s : State) (p : Nat) : State :=
  if 6 ≤ p && (s.hat.commitAt.isSome || s.forming) && ((s.reply 6).isNone || (s.reply 7).isNone) then s.pairAsk p
  else s

/-- PAIR_COMMIT_TIMEOUT: 1 s has passed since COMMIT (R396). -/
def State.commitTimeout (s : State) : State :=
  match s.hat.commitAt with
  | none => s
  | some t =>
    (s.atTime (t + 1000000000)).commitEnd
      (if (s.reply 6).isNone && (s.reply 7).isNone then St.fabricUnreachable else St.invalidField)

/-- PAIR_QUERY: it is answered with this module's record; its own record renews the one held (R397). -/
def State.pairQuery (s : State) (p : Nat) (k : Packet) : State :=
  if !s.pairAccepts p k then s.rxDiscard
  else
    let s := s.pairSend p 0x26 k.tag 0 0 (s.pairRecord p)
    if (s.reply p).isSome then (s.setReply p (some (pairRecOf k.payload))).commitCheck else s

/-- PAIR_REPLY (R396, R397, R399). -/
def State.pairReply (s : State) (p : Nat) (k : Packet) : State :=
  if !s.pairAccepts p k then s.rxDiscard
  else if k.status ≠ St.ok then s
  else (s.setReply p (some (pairRecOf k.payload))).commitCheck

/-- HATCH_PACKET_FORWARD of a packet in transit; the messages between neighbours are never forwarded, and those of the hinge are
discarded where they are not accepted (R374, R382, R397). -/
def State.transit (s : State) (p : Nat) (k : Packet) : State :=
  if k.op = 0x20 && !packetBad k then s
  else if [0x25, 0x26, 0x27].contains k.op then
    (if s.pairAccepts p k && (k.op ≠ 0x27 || k.aux % 256 = 1 || k.aux % 256 = 2) then s else s.rxDiscard)
  else s.forward k

/-! Starting a pair. -/

/-- The conditions of R399 between this module's configuration and a peer's record. -/
def State.formOk (s : State) (a b : PairRec) : Bool :=
  let own := s.plate.record
  wired a b && a.serial = own.peer && ((own.role = 1 && a.role = 2) || (own.role = 2 && a.role = 1)) && s.identOk a
    && a.gen = own.pairGen && a.published = s.imageP

/-- A service mode is entered from the boot (R440, R468). -/
def State.enterService (s : State) (md : Mode) : State :=
  let s := (s.setMode md).domainsOn serviceDomains
  if md = .solo && s.bit Reg.HAT_FID 31 then s.setMode .fabric else s

/-- The pair is not formed: the module enters Solo until its next reset (R399). -/
def State.formFail (s : State) (status : Nat) : State :=
  ((s.setFld Reg.GLB_PAIR_STATUS 31 30 3).setFld Reg.GLB_PAIR_STATUS 15 0 status).enterService .solo

/-- The pair is formed (R399, R404, R405). -/
def State.formDone (s : State) : State :=
  let s := ((s.setFld Reg.GLB_PAIR_STATUS 31 30 2).setFld Reg.GLB_PAIR_STATUS 15 0 St.ok).enterService .diptych
  let s := [6, 7].foldl (fun s p => if s.portState p = 2 then s.portUp p (s.fld (Reg.HAT_PORT_STATE p) 5 4) else s) s
  let now := s.time.toNat
  let s : State := { s with hat := { s.hat with hingeAt := [(6, now), (7, now)] } }
  if s.role = some true then { s.linkDown with functions := 0 }
  else (s.shareHatch Reg.HAT_FID).shareHatch Reg.HAT_GROUP_CFG

/-- PAIR_FORM: once the two records are held the pair forms, or the module enters Solo (R399). -/
def State.pairForm (s : State) : State :=
  if !s.forming then s
  else
    match s.reply 6, s.reply 7 with
    | some a, some b => if s.formOk a b then s.formDone else s.formFail St.invalidField
    | _, _ => s

/-- PAIR_FORM_TIMEOUT: 10 s have passed since the module's own print ended (R399). -/
def State.formTimeout (s : State) : State :=
  if !s.forming then s
  else
    (s.atTime (s.boot.printedAt + 10000000000)).formFail
      (if (s.reply 6).isNone && (s.reply 7).isNone then St.fabricUnreachable else St.invalidField)

/-! Notices. -/

/-- The FREEZE notice on both hinge ports, with the FRONT's F (R397, R421). -/
def State.sendFreeze (s : State) (f : Nat) : State := [6, 7].foldl (fun s p => s.pairSend p 0x27 0 2 f []) s

/-- At step 1 of an etch a half whose supply has failed sends POWER_FAIL (R397, R406). -/
def State.sendPowerFail (s : State) : State :=
  if s.inPair then [6, 7].foldl (fun s p => s.pairSend p 0x27 0 1 0 []) s else s

/-- At step 3 the FRONT sends F to the BACK (R397, R421). -/
def State.noticeFreeze (s : State) (f : Nat) : State :=
  if s.role = some false then State.sendFreeze { s with hat := { s.hat with freeze := some f } } f else s

/-- FREEZE_NOTICE_REPEAT: every 100 µs until a MGMT_RSP arrives or the hinge is lost (R397). -/
def State.freezeRepeat (s : State) : State :=
  match s.hat.freeze with
  | some f => if s.role = some false then s.sendFreeze f else s
  | none => s

/-- PAIR_NOTICE_FREEZE: the BACK takes F as its freeze epoch and answers (R397, R421). -/
def State.freezeNotice (s : State) (p f tag : Nat) : State :=
  if p < 6 || s.pairRole ≠ 2 then s.rxDiscard
  else
    let s := (s.setPlate { s.plate with freeze := f }).wr64 Reg.PLT_FREEZE_EPOCH_LO f
    s.pairSend p 0x23 tag 0 0 []

/-! Losing a half. -/

/-- The channels of a tile that cross the hinge are reset with DIPTYCH_HALF_LOST (R407). -/
def State.cutChannels (s : State) (n : Nat) : State :=
  let there (t : Nat) : Bool := (s.localTile t).isNone
  (List.range 32).foldl
    (fun s c =>
      let s :=
        if s.ochValid n c && s.ochKind n c = 0 && there (s.fld (Reg.TIL_OCH_DEST n c) 11 5) then s.channelReset n c false St.halfLost else s
      if s.ichValid n c && !s.bit (Reg.TIL_ICH_CFG n c) 24 && there (s.fld (Reg.TIL_ICH_SRC n c) 11 5) then
        s.channelReset n c true St.halfLost
      else s) s

/-- RUNs with an instance on the lost half end with DIPTYCH_HALF_LOST (R172, R407). -/
def State.cutRuns (s : State) : State :=
  s.runs.foldl
    (fun s e =>
      match e.2 with
      | some r =>
        if r.insts.any (fun i => i.fid.isNone && (s.localTile i.tile).isNone) then
          match r.phase with
          | .ending _ => s
          | _ => s.runStop e.1 { r with insts := r.insts.filter (fun i => i.fid.isSome || (s.localTile i.tile).isSome) } St.halfLost
        else s
      | none => s) s

/-- A survivor leaves Diptych for `md`. In Vigil it is the mode that Vigil will return to (DEDUCED, assumption 107), and while an etch
runs DEV_MODE stands (R18). -/
def State.leavePair (s : State) (md : Mode) : State :=
  if s.mode = .vigil then { s with steady := { s.steady with vigilFrom := md.code } }
  else if s.pltState = 2 then s
  else s.setMode md

/-- What crosses the hinge ends with DIPTYCH_HALF_LOST: channels, RUNs and outstanding requests (R407). -/
def State.cutHinge (s : State) : State :=
  let s := ((List.range 64).foldl (fun s n => s.cutChannels n) s).cutRuns
  (s.txs.filter (fun x => x.port = 16)).foldl (fun s x => s.endTx memoryBus x St.halfLost [] false) s

/-- What this half knew of the other is void, and the hinge ports are DOWN (R407, R411). -/
def State.forgetPeer (s : State) : State :=
  let s : State := { s with hat := { s.hat with freeze := none }, peerRetired := 0, peerGens := [] }
  let s := (s.setFld Reg.GLB_PAIR_STATUS 31 30 3).setFld Reg.GLB_PAIR_STATUS 27 26 0
  [6, 7].foldl (fun s p => if s.portState p = 5 then s.setPort p 0 0 else s) s

/-- HAT_FID.VALID becomes 0: HAT_FID has changed, and the HELLOs tell of it (R374, R393, R408). -/
def State.dropFid (s : State) : State :=
  if s.bit Reg.HAT_FID 31 then ((s.setFld Reg.HAT_FID 31 31 0).raise Reg.HAT_INT_STATUS 6).helloAll else s

/-- The peer is declared lost: outstanding hinge requests complete with DIPTYCH_HALF_LOST, and the survivor leaves Diptych (R21,
R406 to R408). -/
def State.declareLost (s : State) : State :=
  if !s.inPair then s
  else
    let back := s.role = some true
    let s := s.cutHinge.forgetPeer
    if back then s.dropFid.leavePair .solo
    else s.leavePair (if s.bit Reg.HAT_FID 31 then .fabric else .solo)

/-- HALF_LOST: neither hinge port has delivered an intact flit for 10 ms (R406). -/
def State.halfLost (s : State) : State :=
  if !s.inPair then s
  else (s.atTime (max (FMap.getD s.hat.hingeAt 6) (FMap.getD s.hat.hingeAt 7) + 10000000)).declareLost

/-- PAIR_NOTICE_POWER_FAIL (R397, R406). -/
def State.powerFailNotice (s : State) (p : Nat) : State :=
  if p < 6 || s.pairRole = 0 then s.rxDiscard else s.declareLost

/-- BACK_HOST_LINK_PRESENT: a BACK survivor trains its host link and presents its functions (R406). -/
def State.backPresent (s : State) : State :=
  if !s.inPair && s.mode ≠ .dormant && s.functions = 0 then { s with functions := 128 } else s

end Sys2Proof.Machine
end

