-- ==== Sys2Proof/Machine/Modes.lean ====
section
/-! DEFINITION. Entering and leaving the modes: Vigil (R449, R450), wake patterns (R452, R453), GLB_MODE_CTL and the print of a
boot (R22, R378, R399, R468), and the events of the power connector, the host link's resets, the cables and the reference clock
(R461, R494 to R500). -/

namespace Sys2Proof.Machine

/-! Vigil. -/

/-- A local tile with RUN = 1. -/
def State.tileRunning (s : State) : Option Nat := (List.range 64).find? (fun n => s.bit (Reg.TIL_CTL n) 0)

/-- The TARGET of the first unit whose condition for Vigil fails, in the order of R449. -/
def State.vigilBlock (s : State) : Option Nat :=
  if s.mode ≠ .solo && s.mode ≠ .fabric && s.mode ≠ .diptych then some Tgt.steady
  else if s.tagsHeld ≠ 0 then some Tgt.qe
  else
    match s.jobs.head?, s.tileRunning with
    | some j, _ => some (ringTarget (ringOfKey j.ring).unit)
    | none, some n => some (Tgt.tile (s.pairTile n))
    | none, none =>
      if s.pltState ≠ 1 then some Tgt.plate
      else
        match (List.range 4).find? (fun k => s.bit (Reg.MC_STACK_CTL (16 * k)) 30) with
        | some k => some (Tgt.channel (16 * k))
        | none =>
          if s.bit Reg.GLB_HBM_RETIRE_CMD 30 then some Tgt.global
          else if s.bit Reg.SC_RANGE_CMD 30 then some Tgt.cache
          else if (List.range 8).any (fun w => s.bit (Reg.GLB_MIR_CTL w) 30) then some Tgt.global
          else none

/-- A request for Vigil is refused (R449). -/
def State.vigilRefuse (s : State) (unit : Nat) : State :=
  (s.setFld Reg.STY_VIGIL_CTL 15 0 St.aborted).logRefusal 0 unit 2

/-- VIGIL_ENTER: step 1 of R449; a write while BUSY is refused (R458, R513). -/
def State.vigilEnter (s : State) (m : Nat) : State :=
  if s.bit Reg.STY_VIGIL_CTL 30 then s.refuse m Reg.STY_VIGIL_CTL St.accessDenied
  else
    match s.vigilBlock with
    | some u => s.vigilRefuse u
    | none => State.setFld { s with fetchHold := true, steady := { s.steady with waking := false } } Reg.STY_VIGIL_CTL 30 30 1

/-- The dispatcher writes every running thread back as its image; each is READY at the head of its level (R302, R449). -/
def State.unloadAll (s : State) : State :=
  (List.range 16).foldl
    (fun s n =>
      if s.coreState n = 1 then
        let s := s.slotFence n
        if s.coreState n = 1 then
          let t := s.coreThread n
          let s := (s.unload n).setThr t 1 0
          let p := s.thrPrio t
          { s with ready := FMap.setD s.ready p (t :: FMap.getD s.ready p) }
        else s
      else s) s

/-- The domains that Vigil entry powers down, in its order: HDS after the threads' images are written, SC last (R449). -/
def State.vigilCuts (s : State) : List Nat :=
  [4, 5, 6, 7, 10] ++ (if (List.range 16).any s.gTable then [] else [9]) ++ [3, 8]

/-- The domains are powered down one after the other until one refuses; the result names it (R449). -/
def State.vigilCut (s : State) (done : List Nat) : List Nat → Option (Nat × Nat) × List Nat × State
  | [] => (none, done, s)
  | d :: ds =>
    let s := if d = 3 then s.unloadAll else s
    if s.domState d ≠ 0 then s.vigilCut done ds
    else
      match s.domainBusy d with
      | some u => (some (d, u), done, s)
      | none => (s.cutDomain d).vigilCut (d :: done) ds

/-- A domain that is OFF is powered up and restored at once (R443). -/
def State.wakeDomain (s : State) (bus : Bus) (d : Nat) : State :=
  if s.domState d = 2 then (s.setFld (Reg.STY_DOM_STATUS d) 31 30 3).powerUpDone bus d else s

/-- VIGIL_ENTRY_DONE: steps 2 to 5 of R449, or the refusal at one of them; `refused` says that the BACK half refuses. -/
def State.vigilEntryDone (s : State) (bus : Bus) (refused : Bool) : State :=
  if !s.bit Reg.STY_VIGIL_CTL 30 then s
  else if refused && s.role = some false then
    (State.setFld { s with fetchHold := false } Reg.STY_VIGIL_CTL 30 30 0).vigilRefuse Tgt.hatch
  else
    match s.vigilCut [] s.vigilCuts with
    | (some (d, u), done, s) =>
      let s := (s.count (Reg.STY_DOM_STATUS d) 15 0 1).vigilRefuse u
      let s := done.foldl (fun s d => s.wakeDomain bus d) s
      State.setFld { s with fetchHold := false } Reg.STY_VIGIL_CTL 30 30 0
    | (none, _, s) =>
      let s := (List.range 8).foldl
        (fun s p => if s.portState p = 2 then s.setPort p 3 (s.fld (Reg.HAT_PORT_STATE p) 5 4) else s) s
      let s : State := { s with steady := { s.steady with vigilFrom := s.mode.code } }
      ((s.setMode .vigil).setFld Reg.STY_VIGIL_CTL 15 0 St.ok).setFld Reg.STY_VIGIL_CTL 30 30 0

/-- The mode that leaving Vigil enters (R450, R472). -/
def State.vigilBack (s : State) : Mode :=
  match Mode.ofCode s.steady.vigilFrom with
  | .fabric => if s.bit Reg.HAT_FID 31 then .fabric else .solo
  | md => md

/-- VIGIL_EXIT (R450): an enabled wake source has fired. While an etch that began in Vigil runs, DEV_MODE stands and Vigil is not
left (R18). -/
def State.vigilExit (s : State) (bus : Bus) : State :=
  if s.mode ≠ .vigil || !s.steady.waking || s.pltState = 2 then s
  else
    let s := (s.wakeDomain bus 3).setMode s.vigilBack
    let s := State.wdogStart { s with fetchHold := false, steady := { s.steady with waking := false } }
    let s : State := if s.mode = .diptych then { s with sent := s.sent ++ [.wake 6 3, .wake 7 3] } else s
    (List.range 8).foldl
      (fun s p => if s.portState p = 3 then s.portUp p (s.fld (Reg.HAT_PORT_STATE p) 5 4) else s) s

/-! Wake patterns. -/

/-- WAKE_PATTERN: a burst on an ASLEEP or DOWN port (R452, R453). -/
def State.wakePattern (s : State) (p : Nat) (words : List Word) : State :=
  if 8 ≤ p || (s.portState p ≠ 3 && s.portState p ≠ 0) then s
  else
    match acceptReason words with
    | none => s
    | some 0 =>
      (match (s.hatPort p).nbr with
      | some n => s.setHatPort p { s.hatPort p with nbr := some { n with heard := s.time.toNat } }
      | none => s)
    | some r => s.takeReason p r

/-- KEEPALIVE_SEND (R453). -/
def State.keepaliveSend (s : State) (p : Nat) : State :=
  if p < 8 && s.portState p = 3 then { s with sent := s.sent ++ [.wake p 0] } else s

/-! GLB_MODE_CTL (R468) and the boot's print. -/

/-- PRINT: after a successful print the runtime restores Hatch's configuration, and a configured half trains the hinge (R378,
R399, R425). -/
def State.bootPrint (s : State) (bad : List Nat) (worn : List (Bool × List Byte)) : State :=
  if !s.printDue then s
  else
    let s := s.print bad worn
    if s.boot.printed ≠ some true then s
    else
      let s := s.restoreHatch
      if s.plate.record.role = 0 then s else [6, 7].foldl (fun s p => s.trainPort p 3 15) s

/-- Why the runtime enters Bring-up (R469, R484). -/
def State.bringUpReason (s : State) : Nat :=
  if s.boot.hold then 1
  else if s.boot.slot = 0 then 2
  else if s.boot.printed = some false then (if s.storeFailed then 4 else 3)
  else if s.storeFailed then 4
  else 0

/-- A runtime of slot 1 or 2 with HOLD = 0 has made a successful print (R468). -/
def State.serviceReady (s : State) (m : Nat) : Bool :=
  decide (0x140 ≤ m) && decide (m ≤ 0x14F) && s.fld Reg.GLB_BOOT_STATUS 31 28 = 2 && (s.boot.slot = 1 || s.boot.slot = 2)
    && !s.boot.hold && s.boot.printed = some true

/-- The one service mode that R22 and R399 name now. -/
def State.namedMode (s : State) : Option Mode :=
  if s.plate.record.role ≠ 0 then
    match s.reply 6, s.reply 7 with
    | some a, some b => if s.forming && s.formOk a b then some .diptych else none
    | _, _ => none
  else if s.bit Reg.HAT_FID 31 then some .fabric
  else some .solo

/-- MODE_ENTER: a write of GLB_MODE_CTL (R468, R473). -/
def State.modeEnter (s : State) (m : Nat) (v : Word) : State :=
  let md := v.toNat % 8
  let bad := s.refuse m Reg.GLB_MODE_CTL St.invalidField
  if !s.firmwareStage || s.bit Reg.STY_SUPPLY 31 then bad
  else if md = 2 then s.enterBringUp s.bringUpReason
  else
    match s.namedMode with
    | some n =>
      if s.serviceReady m && md = n.code then (if n = .diptych then s.formDone else s.enterService n) else bad
    | none => bad

/-! The power connector (R494 to R499). -/

/-- The 48 V input is lost to the module: a supply failure, unless one is already being served. -/
def State.inputLost (s : State) : State :=
  let s : State := { s with steady := { s.steady with switchOn := false, good := false } }
  if s.bit Reg.STY_SUPPLY 31 then s else s.supplyFail

/-- INSERTION: both presence contacts are closed; the ramp waits while an etch runs (R497, R499). -/
def State.insertion (s : State) : State :=
  { s with steady := { s.steady with present := true, switchOn := s.steady.switchOn || s.mode = .dormant } }

/-- POWER_GOOD: the internal bus has been held at 39.0 V for 10 ms (R432, R433, R451, R497). -/
def State.powerGood (s : State) : State :=
  if !s.steady.present || !s.steady.switchOn || s.steady.good then s
  else
    let s : State := { s with steady := { s.steady with good := true } }
    let s := s.setPlate { s.plate with testDue := s.time.toNat + 60000000000 }
    let s := if s.mode = .dormant then s.wake 7 else s
    s.setFld Reg.PLT_BANK_STATUS 1 1 1

/-- REMOVAL: a presence contact opens (R498, R499). -/
def State.removal (s : State) : State :=
  if !s.steady.present then s else State.inputLost { s with steady := { s.steady with present := false } }

/-- OVERCURRENT_CUTOFF: the hot-swap switch opens (R496). -/
def State.overcurrent (s : State) : State := if s.steady.switchOn then s.inputLost else s

/-- SHED# changes (R496). -/
def State.shedInput (s : State) (low : Bool) : State := { s with steady := { s.steady with shed := low } }

/-- AUXILIARY_INPUT_CHANGE (R437, R511). -/
def State.auxChange (s : State) (present : Bool) : State := { s with steady := { s.steady with aux := present } }

/-! The host link (R246, R461, R500). -/

/-- PERST# changes: CLKMODE is sampled at its deassertion (R246, R451, R461, R500). -/
def State.perstInput (s : State) (asserted : Bool) : State :=
  if s.steady.perst = asserted then s
  else
    let sris := if asserted then s.steady.sris else Config.clkModeOpen
    let s : State := { s with steady := { s.steady with perst := asserted, sris := sris } }
    (if asserted then s.linkDown else s).wake 1

/-- FLR: a VF's concerns that VF, the PF's every function (R246). -/
def State.flr (s : State) (fn : Nat) : State :=
  if !s.fnEnabled fn then s
  else (if fn = 0 then List.range s.functions else [fn]).foldl (fun s f => (s.deletePairsOf f).clearFnView f) s

/-! The fabric connector (R495, R500). -/

/-- A port trains if it is enabled and neither retired nor working (R366, R393, R495). -/
def State.portTry (s : State) (p : Nat) : State :=
  if s.bit Reg.HAT_CTL 0 && !s.bit (Reg.HAT_PORT_CTL p) 0 && s.portState p = 0 && s.portMay p then s.trainPort p 3 15 else s

/-- A port loses its cable or its clock: it goes DOWN without being retired (R495, R500). -/
def State.portLost (s : State) (p : Nat) : State := if s.portState p = 0 || s.portState p = 4 then s else s.portFall p 0

/-- CABLE_PRESENCE: CBL_PRSNTp# changes (R495). -/
def State.cableChange (s : State) (p : Nat) (present : Bool) : State :=
  if 8 ≤ p || s.steady.cables.testBit p = present then s
  else
    let s : State := { s with steady := { s.steady with cables := setBits s.steady.cables p p (bit01 present) } }
    if present then s.portTry p else s.portLost p

/-- HREFCLK_CHANGE (R500). -/
def State.hrefChange (s : State) (present : Bool) : State :=
  if s.steady.href = present then s
  else
    let s : State := { s with steady := { s.steady with href := present } }
    (List.range 8).foldl (fun s p => if present then s.portTry p else s.portLost p) s

/-! What an etch tells the other half (R397, R420, R421). -/

/-- POWER_FAIL_ETCH with its notice to the peer (R406, R420). -/
def State.etchStart (s : State) (worn : List (Bool × List Byte)) : State :=
  let t := s.powerFailEtch worn
  if s.pltState ≠ 2 && t.pltState = 2 then t.sendPowerFail else t

/-- ETCH_COMPLETE, after which an orderly reset that waited goes on (R420, R460). -/
def State.etchDone (s : State) : State := s.etchComplete.orderlyNext

end Sys2Proof.Machine
end

