-- ==== Sys2Proof/Machine/Data.lean ====
section
/-! DEFINITION. The data commands of an I/O pair other than RUN and INSTALL_PROGRAM: LOAD, PATCH, EXPORT, PUBLISH_EPOCH and
PLATE_MARK (R54 to R58, R267 to R271, R274). -/

namespace Sys2Proof.Machine

/-- The catalog is held still: an etch runs (R420, R424). -/
def State.catalogHeld (s : State) : Bool := s.pltState = 2 || s.pltState = 4

/-! Column data (R267). -/

/-- The bytes of `n` rows of a column. -/
def colBytes (f n : Nat) : Nat := n * fmtWidth f + if fmtNullable f then (n + 7) / 8 else 0

/-- The values and null bits of `n` rows of column data. -/
def colData (f n : Nat) (d : List Byte) : ColData :=
  let w := fmtWidth f
  let nulls := d.drop (n * w)
  ((List.range n).map (fun r => subBytes d (w * r) w), (List.range n).map (fun r => fmtNullable f && mapBit nulls r))

/-- The columns' data as the host answers for them, in column order; the first that fails gives the status. -/
def readCols (rows : Nat) : List Nat → List HostRead → Except Nat (List ColData)
  | [], _ => .ok []
  | f :: fs, hs =>
    let n := colBytes f rows
    match if n = 0 then .data [] else hs.headD .denied with
    | .denied => .error St.accessDenied
    | .poisoned => .error St.poisonedData
    | .data d =>
      if d.length ≠ n then .error St.lengthMismatch
      else
        match readCols rows fs (hs.drop 1) with
        | .ok ds => .ok (colData f rows d :: ds)
        | .error e => .error e

/-- What a directory of `n` columns and its column data bring to `rows` rows of a table whose columns are `have`, or which the
command makes (R267, R268). -/
def State.columnsIn (s : State) (made : Bool) (old : List Nat) (n rows : Nat) (dir : HostRead) (cols : List HostRead) :
    Except Nat (List Nat × List ColData) :=
  match dir with
  | .denied => .error St.accessDenied
  | .poisoned => .error St.poisonedData
  | .data b =>
    if b.length < 16 * n then .error St.lengthMismatch
    else
      let fs := (List.range n).map (fun i => fieldLE b (16 * i + 12) 4)
      let good := if made then fs.zipIdx.all (fun p => fmtOk s.rev21 n p.2 p.1) else fs = old
      if !good then .error St.invalidField
      else if fs.zipIdx.any (fun p => fieldLE b (16 * p.2 + 8) 4 ≠ colBytes p.1 rows) then .error St.lengthMismatch
      else
        match readCols rows fs cols with
        | .ok ds => .ok (fs, ds)
        | .error e => .error e

/-- Staging would take the plate-resident total above its limit (R413). -/
def State.overPlate (s : State) (growth : Nat) : Bool :=
  decide (0 < growth) && decide (s.fld Reg.PLT_LIMIT 16 0 * 2 ^ 20 < s.resident * 2 ^ 20 + growth)

/-- Where new segments go meets R65: 64-byte aligned. -/
def roomAligned (r : Room) : Bool := r.data % 64 = 0 && r.epochs % 64 = 0 && r.catalog % 64 = 0

/-- The new segments of a mirrored table lie within the primary range of a mirror window (R67, R335). -/
def State.roomMirrored (s : State) (t : Table) (r : Room) (first n : Nat) : Bool :=
  let k := ((segsOf first n).filter (fun g => (t.seg g).isNone)).length
  let inside (a len : Nat) : Bool := len = 0 || (List.range 8).any (fun w => s.inMirror w 7 0 a && s.inMirror w 7 0 (a + len - 1))
  !t.mirrored || (inside r.data (k * (t.fmts.map segBytes).foldl (· + ·) 0) && inside r.epochs (2 * k * segBytes epochFmt))

/-- A LOAD or PATCH stages its rows (R54, R71): the status that ends it, or it stands at its commit point. -/
def State.stageRun (s : State) (tag : Nat) (c : Cmd) (t : Table) (made : Bool) (ds : List ColData) (room : Option Room) : State :=
  let id := c.arg 0x20 3
  match if c.count = 0 && !made then some ⟨0, 0, 0⟩ else room with
  | none => s.complete tag St.tableFull 0
  | some room =>
    let t := if made then { t with at' := room.catalog } else t
    if !roomAligned room then s
    else if !s.roomMirrored t room c.first c.count then s.complete tag St.tableFull 0
    else if s.plateOf id t && s.overPlate (t.growth c.first c.count) then s.complete tag St.tableFull 0
    else
      let (st, s') := s.stageRows room id t c.first c.count ds
      if st = St.held then s
      else if st ≠ St.ok then s'.complete tag st 0
      else s'.setCmd tag (some { c with stage := .staged, room := if made then room.catalog + 64 else room.catalog })

/-- LOAD: its staging phase (R54, R269). -/
def State.loadCmd (s : State) (tag : Nat) (dir : HostRead) (cols : List HostRead) (room : Option Room) : State :=
  match (s.running? tag 0x41).filter (fun c => c.stage = .passed) with
  | none => s
  | some c =>
    let made := c.flags.testBit 0
    match s.table (c.arg 0x20 3) with
    | none => s.complete tag St.invalidField 0
    | some t =>
      match s.columnsIn made t.fmts (c.arg 0x30 2) c.count dir cols with
      | .error e => (s.aerStatus c.fn e).complete tag e 0
      | .ok (fs, ds) => s.stageRun tag c (if made then { t with fmts := fs } else t) made ds room

/-- The rows a PATCH deletes: those in its ranges whose INS is not NEVER (R270). -/
def patchDeletes (c : Cmd) (t : Table) : List Nat :=
  let rs := deleteRanges c.block (c.arg 0x34 1)
  t.ins.filterMap (fun e => if e.2 ≠ never && rs.any (fun r => r.1 ≤ e.1 && e.1 ≤ r.2) then some e.1 else none)

/-- PATCH: its staging phase (R54, R58, R270). -/
def State.patchCmd (s : State) (tag : Nat) (dir : HostRead) (cols : List HostRead) (room : Option Room) : State :=
  match (s.running? tag 0x42).filter (fun c => c.stage = .passed) with
  | none => s
  | some c =>
    match s.table (c.arg 0x20 3) with
    | none => s.complete tag St.invalidField 0
    | some t =>
      if c.flags.testBit 0 then
        (if t.drop = never then s.setStage tag .staged else s.complete tag St.invalidField 0)
      else if (patchDeletes c t).any (fun r => t.delOf r ≠ never) then s.complete tag St.invalidField 0
      else if c.count = 0 then s.stageRun tag c t false [] room
      else
        match s.columnsIn false t.fmts (c.arg 0x30 2) c.count dir cols with
        | .error e => (s.aerStatus c.fn e).complete tag e 0
        | .ok (_, ds) => s.stageRun tag c t false ds room

/-- LOAD_PUBLISH_PHASE: a staged LOAD or PATCH passes its commit point and completes (R54). -/
def State.publishPhase (s : State) (tag : Nat) : State :=
  match (s.cmd tag).filter (fun c => (c.op = 0x41 || c.op = 0x42) && c.stage = .staged && c.done.isNone) with
  | none => s
  | some c =>
    if s.catalogHeld then s
    else
      let id := c.arg 0x20 3
      let w := c.arg 0x28 8
      match s.table id with
      | none => s.complete tag St.invalidField 0
      | some t =>
        let s := s.setStage tag .committed
        if c.op = 0x41 then
          let t := if c.flags.testBit 0 then { t with create := w } else t
          (s.publishRows id t w c.first c.count [] c.room false).complete tag St.ok c.first
        else if c.flags.testBit 0 then (s.changeTable id { t with drop := w }).complete tag St.ok 0xFFFFFFFFFFFF
        else
          (s.publishRows id t w c.first c.count (patchDeletes c t) c.room false).complete tag St.ok
            (if c.count = 0 then 0xFFFFFFFFFFFF else c.first)

/-! EXPORT (R271). -/

/-- The INS and DEL of positions `lo` to below `hi` of a segment as HBM holds them. -/
def State.readEpochs (s : State) (v : Seg) (lo hi : Nat) : (Nat × Bool × List (Nat × Nat)) × State :=
  match v.cols with
  | i :: d :: _ =>
    let (a, s) := s.readMem (Mid.headstock 0) (i.dpa + 8 * lo) (8 * (hi - lo))
    let (b, s) := s.readMem (Mid.headstock 0) (d.dpa + 8 * lo) (8 * (hi - lo))
    ((if a.status = St.ok then b.status else a.status, a.poison || b.poison,
      (List.range (hi - lo)).map (fun k => (fieldLE a.data (8 * k) 8, fieldLE b.data (8 * k) 8))), s)
  | _ => ((St.ok, false, []), s)

/-- The positions from `lo` of a segment that a snapshot at `e` sees. -/
def seenFrom (e lo : Nat) (es : List (Nat × Nat)) : List Nat :=
  es.zipIdx.filterMap (fun p => if p.1.1 ≤ e && e < p.1.2 then some (lo + p.2) else none)

/-- A catalog structure of `n` bytes is read and its pairs, which `ok` names, are checked (R39, R65): the first status other than OK,
a mismatch being recorded. -/
def checkDesc (a : Nat × State) (dpa n : Nat) (ok : List Byte → Bool) : Nat × State :=
  if a.1 ≠ St.ok then a
  else
    let (m, s) := a.2.readMem (Mid.headstock 0) dpa n
    if m.status ≠ St.ok then (m.status, s)
    else if m.poison then (St.poisonedData, s)
    else if ok m.data then (St.ok, s)
    else
      (St.complementMismatch,
        s.report
          { status := St.complementMismatch, target := Tgt.headstock, severity := 2, master := Mid.headstock 0, address := dpa,
            tag := 0xFFFF, detail := 0 })

/-- The descriptors that an EXPORT reads: the table's, those of INS, DEL and its columns, and theirs of its segments (R63 to R65). -/
def State.checkDescs (s : State) (t : Table) (cols gs : List Nat) : Nat × State :=
  let cs := [0, 1] ++ cols.map (· + 2)
  let a := checkDesc (St.ok, s) t.at' 64 (fun b => pair32At b 0 && pair32At b 8 && pair64At b 0x10)
  let a := cs.foldl (fun a c => checkDesc a (t.colsAt + 32 * c) 32 (fun b => pair32At b 0 && pair32At b 8 && pair64At b 0x10)) a
  cs.foldl
    (fun a c =>
      gs.foldl
        (fun a g =>
          checkDesc a (t.segsAt.getD c 0 + 128 * g) 128 (fun b => pair64At b 0 && pair32At b 0x10 && pair32At b 0x18)) a) a

/-- The values and null bits of column `c` at positions `ps` of segment `g`, and whether poison marks them; of a raw part only
what holds those positions is read. -/
def State.exportPart (s : State) (t : Table) (g c : Nat) (ps : List Nat) :
    Except Nat (List (List Byte) × List Bool × Bool) × State :=
  let f := t.fmts.getD c 0
  let w := fmtWidth f
  match ps.head?, ps.getLast?, (t.seg g).bind (fun v => v.cols[c + 2]?) with
  | some a, some z, some k =>
    let (base, mbase, r) : Nat × Nat × Except Nat (List Byte × List Byte × Bool) × State :=
      if k.codec = 0 then
        let (x, s) := s.readMem (Mid.headstock 0) (k.dpa + w * a) (w * (z + 1 - a))
        let (y, s) :=
          if fmtNullable f then s.readMem (Mid.headstock 0) (k.mapAt + a / 8) (z / 8 + 1 - a / 8) else (⟨St.ok, [], false⟩, s)
        (a, 8 * (a / 8),
          (if x.status ≠ St.ok then .error x.status else if y.status ≠ St.ok then .error y.status
            else .ok (x.data, y.data, x.poison || y.poison), s))
      else (0, 0, s.readColumn (Mid.headstock 0) t g c)
    (match r.1 with
      | .error e => .error e
      | .ok (vs, ns, bad) =>
        .ok (ps.map (fun p => subBytes vs (w * (p - base)) w), ps.map (fun p => fmtNullable f && mapBit ns (p - mbase)), bad),
      r.2)
  | _, _, _ => (.ok ([], [], false), s)

/-- The positions of every segment that the export's rows lie in and its snapshot sees, or the status of a failed read. -/
def State.exportRows (s : State) (t : Table) (e first count : Nat) : List Nat → Except Nat (List (Nat × List Nat)) × State
  | [] => (.ok [], s)
  | g :: gs =>
    let lo := max first (65536 * g) - 65536 * g
    let hi := min (t.rowsIn g) (first + count - 65536 * g)
    match t.seg g with
    | none => s.exportRows t e first count gs
    | some v =>
      if hi ≤ lo || v.link.isNone then s.exportRows t e first count gs
      else
        match s.readEpochs v lo hi with
        | ((st, bad, es), s) =>
          if st ≠ St.ok then (.error st, s)
          else if bad then (.error St.poisonedData, s)
          else
            match s.exportRows t e first count gs with
            | (.ok r, s) => (.ok ((g, seenFrom e lo es) :: r), s)
            | (.error x, s) => (.error x, s)

/-- One column of the export over every segment. -/
def State.exportCol (s : State) (t : Table) (c : Nat) : List (Nat × List Nat) → Except Nat (List (List Byte) × List Bool × Bool) × State
  | [] => (.ok ([], [], false), s)
  | (g, ps) :: r =>
    match s.exportPart t g c ps with
    | (.error e, s) => (.error e, s)
    | (.ok (vs, ns, bad), s) =>
      match s.exportCol t c r with
      | (.error e, s) => (.error e, s)
      | (.ok (vs', ns', bad'), s) => (.ok (vs ++ vs', ns ++ ns', bad || bad'), s)

/-- The columns of the export. -/
def State.exportCols (s : State) (t : Table) (ps : List (Nat × List Nat)) :
    List Nat → Except Nat (List (List (List Byte) × List Bool × Bool)) × State
  | [] => (.ok [], s)
  | c :: cs =>
    match s.exportCol t c ps with
    | (.error e, s) => (.error e, s)
    | (.ok d, s) =>
      match s.exportCols t ps cs with
      | (.error e, s) => (.error e, s)
      | (.ok ds, s) => (.ok (d :: ds), s)

/-- Bits packed into bytes, bit `r mod 8` of byte `r / 8` (R267). -/
def packBits (ns : List Bool) : List Byte :=
  (List.range ((ns.length + 7) / 8)).map (fun j =>
    BitVec.ofNat 8 ((List.range 8).foldl (fun v i => v + 2 ^ i * bit01 (ns.getD (8 * j + i) false)) 0))

/-- The regions of the output in order, with their offsets and whether they are poisoned: row IDs if asked for, then each
column's values and null map (R271). -/
def exportRegions (fmts : List Nat) (count : Nat) (ids : Option (List Nat)) (ds : List (List (List Byte) × List Bool × Bool)) :
    List (Nat × List Byte × Bool) :=
  let start : Nat × List (Nat × List Byte × Bool) :=
    match ids with
    | some is => (64 + up64 (8 * count), [(64, is.flatMap (natLE 8), false)])
    | none => (64, [])
  ((fmts.zip ds).foldl
    (fun (acc : Nat × List (Nat × List Byte × Bool)) p =>
      let o := acc.1
      let o' := o + up64 (count * fmtWidth p.1)
      let vals := (o, p.2.1.flatten, p.2.2.2)
      if fmtNullable p.1 then (o' + up64 ((count + 7) / 8), acc.2 ++ [vals, (o', packBits p.2.2.1, p.2.2.2)])
      else (o', acc.2 ++ [vals])) start).2

/-- A snapshot's table with the null maps where the parts' growth has moved them since (R52, R65). -/
def State.mapsNow (s : State) (id : Nat) (t : Table) : Table :=
  match s.table id with
  | none => t
  | some now =>
    { t with
      segs := t.segs.map (fun e =>
        (e.1,
          match e.2, now.seg e.1 with
          | some v, some w =>
            some { v with cols := (v.cols.zip w.cols).map (fun p => if p.1.dpa = p.2.dpa && p.2.codec = 0 then { p.1 with len := p.2.len } else p.1) }
          | v, _ => v)) }

/-- EXPORT: the visible rows go to the host, and the command completes (R42, R65, R271). -/
def State.exportTable (s : State) (tag : Nat) : State :=
  match s.running? tag 0x43 with
  | none => s
  | some c =>
    match c.snap with
    | none => s.complete tag St.invalidField 0
    | some t =>
      let first := c.arg 0x30 6
      let count := c.arg 0x24 4
      let col0 := bits (c.arg 0x38 4) 11 0
      let cols := rangeFrom col0 (bits (c.arg 0x38 4) 27 16 + 1)
      let gs := (t.segs.map (·.1)).filter (fun g => first < 65536 * (g + 1) && 65536 * g < first + count)
      let linked := gs.filter (fun g => (t.seg g).any (·.link.isSome))
      match s.checkDescs t cols linked with
      | (0, s0) =>
       let t := s0.mapsNow (c.arg 0x20 3) t
       match s0.exportRows t c.epoch first count gs with
       | (.error st, s') => if st = St.held then s else s'.complete tag st 0
       | (.ok ps, s1) =>
        match s1.exportCols t ps cols with
        | (.error st, s') => if st = St.held then s else s'.complete tag st 0
        | (.ok ds, s2) =>
          let rows := ps.flatMap (fun p => p.2.map (fun r => 65536 * p.1 + r))
          let regions :=
            exportRegions (cols.map (fun k => t.fmts.getD k 0)) count (if c.flags.testBit 1 then some rows else none) ds
          let bad := ds.any (fun d => d.2.2)
          let s2 := s2.hostPut c c.ptr (natLE 8 rows.length ++ natLE 8 c.epoch ++ List.replicate 48 (0 : Byte)) false
          let s2 := regions.foldl (fun s r => s.hostPut c (c.ptr + r.1) r.2.1 r.2.2) s2
          s2.complete tag (if bad then St.poisonedData else St.ok) (if bad then 0 else rows.length)
      | (st, s') => if st = St.held then s else s'.complete tag st 0

/-! PUBLISH_EPOCH (R56, R57, R274). -/

/-- A LOAD or PATCH fetched before `c` with a write epoch of `w` or less has not completed (R56). -/
def State.writersBefore (s : State) (c : Cmd) (w : Nat) : Bool :=
  s.cmds.any (fun e =>
    match e.2 with
    | some d => (d.op = 0x41 || d.op = 0x42) && d.order < c.order && d.done.isNone && d.arg 0x28 8 ≤ w
    | none => false)

/-- PUBLISH_EPOCH: step 1 of R56; the command then waits. -/
def State.publishEpoch (s : State) (tag : Nat) : State :=
  match (s.running? tag 0x46).filter (fun c => !c.flags.testBit 0 && c.stage = .passed) with
  | none => s
  | some c =>
    if s.publishWaits c then s
    else if c.arg 0x28 8 ≤ s.published then s.complete tag St.invalidField 0
    else s.setStage tag .staged

/-- PUBLISH_COMMIT: steps 2 to 5 of R56 (R432). A FRONT, which needs a transaction tag for it, writes the catalog's copy to BACK spans, and
the command completes when that has been written (R388, R402). -/
def State.publishCommit (s : State) (tag : Nat) : State :=
  match (s.running? tag 0x46).filter (fun c => !c.flags.testBit 0 && c.stage = .staged) with
  | none => s
  | some c =>
    let w := c.arg 0x28 8
    if s.writersBefore c w || !s.bit Reg.PLT_BANK_STATUS 0 || s.catalogHeld then s
    else
      let v := (s.setStage tag .committed).publish w
      if s.role ≠ some false then v.complete tag St.ok w
      else
        match s.freeTag with
        | none => s
        | some t => State.openTx { v with sent := v.sent ++ [.catalogCopy t v.published v.floor v.catalogNow] } t 16 (.copy tag)

/-- EPOCH_WITHDRAW (R57). -/
def State.epochWithdraw (s : State) (tag : Nat) : State :=
  match (s.running? tag 0x46).filter (fun c => c.flags.testBit 0) with
  | none => s
  | some c =>
    let w := c.arg 0x28 8
    if s.publishWaits c then s
    else if w ≤ s.published then s.complete tag St.invalidField 0
    else if s.writersBefore c w || s.catalogHeld then s
    else ((s.setStage tag .committed).withdraw w).complete tag St.ok s.published

/-! PLATE_MARK (R68, R274). -/

/-- The bytes of HBM that a table's segments take. -/
def Table.bytesHeld (t : Table) : Nat :=
  (t.segs.filter (fun e => e.2.isSome)).length * (t.allFmts.map segBytes).foldl (· + ·) 0

/-- The tables of space `n`. -/
def State.tablesOf (s : State) (n : Nat) : List (Nat × Table) :=
  s.tables.filterMap (fun e => if e.1 / 65536 = n then e.2.map (fun t => (e.1, t)) else none)

/-- PLATE_MARK on a space (R68). -/
def State.markSpace (s : State) (tag n : Nat) (on : Bool) : State :=
  match FMap.getD s.spaces n with
  | none => s.complete tag St.invalidField 0
  | some sp =>
    let follow := (s.tablesOf n).filter (fun e => e.2.plate.isNone)
    let growth := if on && !sp.plate then (follow.map (fun e => e.2.bytesHeld)).foldl (· + ·) 0 else 0
    if s.overPlate growth then s.complete tag St.tableFull 0
    else
      let s : State := { s with spaces := FMap.setD s.spaces n (some { sp with plate := on }) }
      (follow.foldl (fun s e => s.changeTable e.1 e.2) s).complete tag St.ok 0

/-- PLATE_MARK on a table (R68). -/
def State.markTable (s : State) (tag id : Nat) (v : Option Bool) : State :=
  match s.table id with
  | none => s.complete tag St.invalidField 0
  | some t =>
    let t' := { t with plate := v }
    let growth := if s.plateOf id t' && !s.plateOf id t then t.bytesHeld else 0
    if s.overPlate growth then s.complete tag St.tableFull 0 else (s.changeTable id t').complete tag St.ok 0

/-- PLATE_MARK. -/
def State.plateMark (s : State) (tag : Nat) : State :=
  match s.running? tag 0x47 with
  | none => s
  | some c =>
    let mode := bits c.flags 1 0
    if s.catalogHeld then s
    else if c.flags.testBit 2 then s.markSpace tag (c.arg 0x22 1) (mode = 1)
    else s.markTable tag (c.arg 0x20 3) (if mode = 2 then none else some (mode = 1))

end Sys2Proof.Machine
end

