-- ==== Sys2Proof/Machine/Admin.lean ====
section
/-! DEFINITION. The admin commands other than those of firmware and Plate: IDENTIFY, GET_LOG, the features, queue pairs and
TILE_SERVICE (R261 to R263, R265), and the logs' layouts (R434, R457, R476, R484). -/

namespace Sys2Proof.Machine

/-- Bytes laid out at offsets of a structure of `n` bytes, 0 elsewhere; the fields are in ascending order. -/
def layout (n : Nat) (fs : List (Nat × List Byte)) : List Byte :=
  (fs.foldl (fun (b : List Byte) f => b ++ List.replicate (f.1 - b.length) (0 : Byte) ++ f.2) []
    ++ List.replicate n (0 : Byte)).take n

/-! Logs. -/

/-- LOG 0x01: Guard's records in index order (R43). -/
def State.errorLog (s : State) : List Byte :=
  (List.range 2048).flatMap (fun i => natLE 4 (s.rd (Reg.GRD_ELOG_W0 0 + 4 * i)).toNat)

/-- A Guard record's bytes. -/
def State.guardRecord (s : State) (i : Nat) : List Byte :=
  (List.range 8).flatMap (fun k => natLE 4 (s.rd (Reg.GRD_ELOG_W0 i + 4 * k)).toNat)

/-- The newest record of SEVERITY 4 (R484). -/
def State.newestSevere (s : State) : List Byte :=
  let w := s.fld Reg.GRD_ELOG_WR 8 0
  match (List.range 256).find? (fun k => s.fld (Reg.GRD_ELOG_W0 ((w + 511 - k) % 256)) 7 4 = 4) with
  | some k => s.guardRecord ((w + 511 - k) % 256)
  | none => List.replicate 32 0

/-- Whether mesh link `l` of R485 shows bit `b` of its port's field. -/
def State.meshLinkBit (s : State) (b l : Nat) : Bool :=
  if l < 56 then s.bit (Reg.MSH_LINK (8 * (l / 7) + l % 7)) (b + 1) else s.bit (Reg.MSH_LINK (l - 56)) (b + 2)

/-- The mesh links FAULTY (`b` = 0) or DEAD (`b` = 4) as a mask (R484, R485). -/
def State.meshMask (s : State) (b : Nat) : Nat :=
  (List.range 112).foldl (fun n l => n + 2 ^ l * bit01 (s.meshLinkBit b l)) 0

/-- A mask of the numbers below `n` that satisfy `p`. -/
def maskOf (n : Nat) (p : Nat → Bool) : Nat := (List.range n).foldl (fun m i => m + 2 ^ i * bit01 (p i)) 0

/-- The masks and counts of parts out of order, in the fields of the health log (R484). -/
structure Parts where
  tilesRetired : Nat
  tilesFailing : Nat
  hbmRetired : Nat
  hbmFrozen : Nat
  gauRetired : Nat
  gauFailing : Nat
  stpRetired : Nat
  portsRetired : Nat
  portsDegraded : Nat
  slicesFailed : Nat
  faulty : Nat
  dead : Nat
  devsFailed : Nat
  deriving DecidableEq, Repr

/-- The parts out of order now. -/
def State.parts (s : State) : Parts where
  tilesRetired := s.rd64 Reg.GLB_TILE_RETIRED_LO
  tilesFailing := s.rd64 Reg.GLB_TILE_FAILING_LO
  hbmRetired := s.rd64 Reg.GLB_HBM_RETIRED_LO
  hbmFrozen := maskOf 64 (fun n => s.mcState n = 1)
  gauRetired := s.fld Reg.GAU_BANK_RETIRED 15 0
  gauFailing := s.fld Reg.GAU_BANK_FAILING 15 0
  stpRetired := s.fld Reg.STP_ENG_RETIRED 15 0
  portsRetired := maskOf 8 (fun p => s.portState p = 4)
  portsDegraded := maskOf 8 (fun p => (s.portState p = 2 || s.portState p = 5) && decide (s.fld (Reg.HAT_PORT_STATE p) 5 4 < 3))
  slicesFailed := popCount (maskOf 64 (fun i => s.bit (Reg.SCS_STATUS i) 1)) 64
  faulty := s.meshMask 0
  dead := s.meshMask 4
  devsFailed := maskOf 4 (fun d => s.fld (Reg.PLT_DEV_STATUS d) 31 30 = 2)

/-- Bit 0 of the health word: any part failing, FAULTY, FAILED or retired (R484). -/
def Parts.degraded (p : Parts) : Bool :=
  [p.tilesRetired, p.tilesFailing, p.hbmRetired, p.gauRetired, p.gauFailing, p.stpRetired, p.portsRetired, p.slicesFailed,
    p.faulty, p.dead, p.devsFailed].any (· ≠ 0)

/-- The health word at offset 0x000 (R484). -/
def State.healthWord (s : State) : Nat :=
  8 * bit01 (s.mode = .bringUp)
    + 4 * bit01 ((List.range 4).any (fun k => decide (s.fld (Reg.STY_QPLL k) 2 0 < s.imposed k)))
    + 2 * bit01 (s.storeFailed || s.bit Reg.PLT_BANK_STATUS 2) + bit01 s.parts.degraded

/-- FAULT# is driven low (R496). -/
def State.faultLow (s : State) : Bool := s.healthWord.testBit 1 || (s.mode = .bringUp && s.boot.reason ≠ 1)

/-- LOG 0x02 (R484). -/
def State.healthLog (s : State) : List Byte :=
  let p := s.parts
  let hot := (List.range 4).foldl (fun m k => max m (s.fld (Reg.MC_TEMP (16 * k)) 7 0)) 0
  layout 512
    [(0x000, natLE 4 s.healthWord), (0x004, natLE 2 s.boot.reason), (0x008, natLE 8 p.tilesRetired), (0x010, natLE 8 p.tilesFailing),
      (0x018, natLE 8 p.hbmRetired), (0x020, natLE 8 p.hbmFrozen), (0x028, natLE 2 p.gauRetired), (0x02A, natLE 2 p.stpRetired),
      (0x02C, natLE 1 p.portsRetired), (0x02D, natLE 1 p.portsDegraded), (0x02E, natLE 2 p.slicesFailed),
      (0x030, natLE 4 (popCount p.faulty 112)), (0x034, natLE 4 (popCount p.dead 112)), (0x038, natLE 1 p.devsFailed),
      (0x039, natLE 1 s.dieTemp), (0x03A, natLE 1 hot), (0x03C, natLE 4 (s.rd Reg.GRD_ELOG_LOST).toNat), (0x040, s.newestSevere),
      (0x060, natLE 16 p.faulty), (0x070, natLE 16 p.dead)]

/-- A slot's entry of the plate log. -/
def slotEntry : Option PltSlot → List Byte
  | some v => natLE 8 1 ++ natLE 8 v.gen ++ natLE 8 v.epoch ++ natLE 8 v.time
  | none => List.replicate 32 0

/-- LOG 0x03 (R434). -/
def State.plateLog (s : State) : List Byte :=
  let p := s.plate
  let e := p.etchLog
  let dev (d : Nat) : List Byte :=
    let g := (FMap.getD p.devs d).getD ⟨0, 0, 0⟩
    let w (hi lo : Nat) : List Byte := natLE 1 (s.fld (Reg.PLT_DEV_STATUS d) hi lo)
    w 31 30 ++ w 15 8 ++ w 7 0 ++ natLE 1 g.spare ++ natLE 4 0 ++ natLE 16 g.units ++ natLE 16 g.errors
  let word (o : Nat) : List Byte := natLE 4 (s.view Mid.qe o).toNat
  layout 1024
    ([(0x000, word Reg.PLT_STATUS ++ word Reg.PLT_BANK_STATUS ++ word Reg.PLT_LIMIT ++ word Reg.PLT_RESIDENT ++ word Reg.PLT_DIRTY
        ++ word Reg.PLT_BANK_USABLE ++ natLE 8 p.testAt),
      (0x020, slotEntry p.slotA), (0x040, slotEntry p.slotB),
      (0x060, natLE 2 e.kind ++ natLE 2 e.status ++ natLE 4 e.cause ++ natLE 8 e.bytes ++ natLE 8 (e.span / 1000) ++ natLE 8 e.time),
      (0x080, natLE 2 p.printLog.slot ++ natLE 2 p.printLog.status ++ natLE 4 p.printLog.chunks)]
      ++ (List.range 4).map (fun d => (0x100 + 0x40 * d, dev d)))

/-- LOG 0x04 (R457). -/
def State.powerLog (s : State) : List Byte :=
  let entry (i : Nat) : List Byte :=
    let n := (s.rd (Reg.STY_RLOG_INFO i)).toNat
    natLE 1 (n / 2 ^ 24) ++ natLE 1 (bits n 23 16) ++ natLE 1 (bits n 15 8) ++ natLE 5 0 ++ natLE 8 (s.rd64 (Reg.STY_RLOG_TIME_LO i))
  layout 1024
    ([(0x000, (List.range 17).flatMap (fun d => natLE 4 (s.rd (Reg.STY_DOM_STATUS d)).toNat)),
      (0x044, natLE 4 (s.fld Reg.STY_RLOG_WR 5 0))] ++ [(0x200, (List.range 32).flatMap entry)])

/-- LOG 0x05 (R476). -/
def State.fwLog (s : State) : List Byte :=
  let b := s.boot
  let slot (k : Nat) : Nat × List Byte :=
    (0x10 + 0x40 * k,
      match FMap.getD b.log k with
      | some l =>
        natLE 1 (bit01 l.accepted) ++ natLE 1 l.failed ++ natLE 2 0 ++ natLE 4 l.len ++ natLE 8 l.version ++ natLE 4 l.security
          ++ List.replicate 12 (0 : Byte) ++ l.digest
      | none => [])
  layout 512
    ([(0, natLE 1 b.active ++ natLE 1 b.waiting ++ natLE 1 b.trials ++ natLE 1 b.slot ++ natLE 1 (s.fld Reg.GLB_RESET_CAUSE 3 0)
        ++ natLE 1 s.minSvn ++ natLE 1 (16 * Config.fusesProgrammed.toNat + Config.fusesRevoked.toNat)),
      (8, natLE 4 b.wdogs ++ natLE 4 b.drops)] ++ (List.range 3).map slot)

/-- LOG 0x06 (R262). -/
def State.tagLog (s : State) : List Byte :=
  layout 64
    [(0, natLE 4 (s.rd Reg.QE_TAG_WAITS).toNat ++ natLE 2 (s.fld Reg.QE_TAG_INUSE 13 0) ++ natLE 2 (s.fld Reg.QE_TAG_PEAK 13 0)
      ++ natLE 8 s.lastWait ++ natLE 4 s.clampWaits ++ natLE 4 s.clampTimeouts)]

/-- A log's bytes (R262). -/
def State.logBytes (s : State) (l : Nat) : List Byte :=
  match l with
  | 1 => s.errorLog
  | 2 => s.healthLog
  | 3 => s.plateLog
  | 4 => s.powerLog
  | 5 => s.fwLog
  | 6 => s.tagLog
  | _ => []

/-- GET_LOG (R262). -/
def State.getLog (s : State) (tag : Nat) : State :=
  match s.running? tag 2 with
  | none => s
  | some c =>
    (s.hostPut c c.ptr (subBytes (s.logBytes (bits c.flags 7 0)) (c.arg 0x20 4) (c.arg 0x24 4)) false).complete tag St.ok 0

/-! IDENTIFY. -/

/-- I/O pairs a function holds. -/
def State.pairsHeld (s : State) (fn : Nat) : Nat := (s.fnOwnView fn Reg.QE_FN_PAIRS).getD 0

/-- The HBM bytes the segments of a space take (R65, R67). -/
def State.spaceBytes (s : State) (n : Nat) : Nat :=
  ((s.tablesOf n).map (fun e =>
    let t := e.2
    let b := t.segs.foldl (fun k g =>
      match g.2 with
      | some v => ((v.cols.zip t.allFmts).map (fun p => up64 p.1.len + (if fmtNullable p.2 then 8192 else 0))).foldl (· + ·) k
      | none => k) 0
    if t.mirrored then 2 * b else b)).foldl (· + ·) 0

/-- IDENTIFY with CNS 0; on the FRONT of a pair the HBM of the BACK, which the model does not hold, adds a free number. -/
def State.identDevice (s : State) (fn : Nat) : List Byte × State :=
  let (far, s) : BitVec 64 × State := if s.role = some false then s.free 64 else (0, s)
  let banks := if s.role = some false then 32 else 16
  (layout 4096
    [(0, natLE 8 (s.rd64 Reg.GLB_IDENT_LO % 2 ^ 44)), (8, (List.range 16).map Config.serialText), (0x18, natLE 8 s.boot.running),
      (0x20, natLE 1 s.mode.code), (0x22, natLE 2 s.tilesInService.length), (0x24, natLE 2 s.tagCount),
      (0x26, natLE 2 (FMap.getD s.quotas fn - s.pairsHeld fn)), (0x28, natLE 8 (s.hbmLimit + far.toNat)),
      (0x30, natLE 4 (8192 * (banks - popCount (s.rd Reg.GAU_BANK_RETIRED).toNat banks))),
      (0x38, natLE 8 (2 ^ 20 * s.fld Reg.PLT_LIMIT 16 0))], s)

/-- IDENTIFY with CNS 2. -/
def State.identSpace (s : State) (n : Nat) : List Byte :=
  let sp := FMap.getD s.spaces n
  let live := (s.tablesOf n).filter (fun e => e.2.create ≠ never && s.floor < e.2.drop)
  layout 4096
    [(0, natLE 8 s.published), (8, natLE 8 s.floor), (0x10, natLE 8 s.publishFloor), (0x18, natLE 2 s.retain),
      (0x1C, natLE 4 (4 * bit01 sp.isSome + 2 * bit01 ((sp.map (·.plate)).getD false) + bit01 ((sp.map (·.mirrored)).getD false))),
      (0x20, natLE 4 live.length), (0x28, natLE 8 (s.spaceBytes n))]

/-- IDENTIFY with CNS 3 (R392). -/
def State.identFabric (s : State) : List Byte :=
  let w (o : Nat) : List Byte := natLE 4 (s.rd o).toNat
  layout 4096
    [(0, w Reg.HAT_FID ++ w Reg.HAT_WARDEN ++ w Reg.HAT_GROUP_CFG ++ w Reg.HAT_ROUTE_CTL
      ++ (List.range 8).flatMap (fun p => w (Reg.HAT_PORT_STATE p) ++ w (Reg.HAT_PORT_NBR p)))]

/-- IDENTIFY (R261). -/
def State.identify (s : State) (tag : Nat) : State :=
  match s.running? tag 1 with
  | none => s
  | some c =>
    let done (s : State) (b : List Byte) : State := (s.hostPut c c.ptr b false).complete tag St.ok 0
    match bits c.flags 7 0 with
    | 0 =>
      let (b, s) := s.identDevice c.fn
      done s b
    | 1 =>
      let q := c.arg 0x20 2
      match s.pair q with
      | none => s.complete tag St.invalidField 0
      | some p =>
        let (a, s1) := s.readMem Mid.qe (s.ctxDpa q) 64
        if a.status = St.held then s
        else if a.status ≠ St.ok then s1.complete tag a.status 0
        else if a.poison then s1.complete tag St.poisonedData 0
        else done s1 (layout 4096 [(0, a.data), (0x40, natLE 4 (2 ^ 30 * p.state + p.clampMs))])
    | 2 => done s (s.identSpace (c.arg 0x20 1))
    | _ => done s s.identFabric

/-! Features (R263). -/

/-- The coalescing bytes of a pair's OWNER become those given; the context is written again (R232, R249). -/
def State.setCoal (s : State) (q time count : Nat) : Nat × State :=
  match s.pair q with
  | none => (St.invalidField, s)
  | some p =>
    let owner := setBits (setBits (qcOwner p.ctx) 31 24 time) 23 16 count
    let ctx := p.ctx.take 0x30 ++ natLE 8 (cp32 owner) ++ p.ctx.drop 0x38
    let (st, s) := s.writeMem Mid.qe (s.ctxDpa q) ctx
    (st, if st = St.ok then s.setPair q (some { p with ctx := ctx }) else s)

/-- SPACE: the space is created or deleted (R67, R263). -/
def State.setSpace (s : State) (n v : Nat) : Nat × State :=
  if 256 ≤ n || 4 ≤ v then (St.invalidField, s)
  else
    match FMap.getD s.spaces n with
    | some sp =>
      if v.testBit 0 then (if sp.mirrored = v.testBit 1 then (St.ok, s) else (St.invalidField, s))
      else if (s.tablesOf n).any (fun e => s.floor < e.2.drop) then (St.invalidField, s)
      else (St.ok, { s with spaces := FMap.setD s.spaces n none })
    | none =>
      if v.testBit 0 then (St.ok, { s with spaces := FMap.setD s.spaces n (some ⟨v.testBit 1, false⟩) }) else (St.ok, s)

/-- FN_QUOTA (R229, R263). -/
def State.setQuota (s : State) (fn v : Nat) : Nat × State :=
  let others := ((s.quotas.filter (fun e => e.1 ≠ fn)).map (·.2)).foldl (· + ·) 0
  if 128 ≤ fn || 8192 ≤ v || 8064 < others + v || v < s.pairsHeld fn then (St.invalidField, s)
  else (St.ok, { s with quotas := FMap.setD s.quotas fn v })

/-- What SET_FEATURE does: its status. -/
def State.featureSet (s : State) (fn fid sel v : Nat) : Nat × State :=
  let bad := (St.invalidField, s)
  match fid with
  | 1 => if fn ≠ 0 || sel ≠ 0 || 65536 ≤ v then bad else (St.ok, { s with retain := v })
  | 2 => if fn ≠ 0 then bad else s.setQuota sel v
  | 3 => if fn ≠ 0 || sel ≠ 0 || 2 ^ 32 ≤ v then bad else (St.ok, s.wr Reg.QE_ARB_WEIGHT (BitVec.ofNat 32 v))
  | 4 => if fn ≠ 0 then bad else s.setSpace sel v
  | 5 => if !s.ownsIo fn sel || 65536 ≤ v then bad else s.setCoal sel (bits v 15 8) (bits v 7 0)
  | 6 =>
    if !s.ownsIo fn sel || 65536 ≤ v then bad
    else
      match s.pair sel with
      | some p => (St.ok, s.setPair sel (some { p with clampMs := if v = 0 then 1000 else v }))
      | none => bad
  | _ => bad

/-- SET_FEATURE. -/
def State.setFeature (s : State) (tag : Nat) : State :=
  match s.running? tag 3 with
  | none => s
  | some c =>
    let (st, s') := s.featureSet c.fn (c.flags % 65536) (c.arg 0x28 4) (c.arg 0x20 8)
    if st = St.held then s else s'.complete tag st 0

/-- The value of a feature. -/
def State.featureGet (s : State) (fn fid sel : Nat) : Option Nat :=
  match fid with
  | 1 => if fn ≠ 0 || sel ≠ 0 then none else some s.retain
  | 2 => if fn ≠ 0 || 128 ≤ sel then none else some (FMap.getD s.quotas sel)
  | 3 => if fn ≠ 0 || sel ≠ 0 then none else some (s.rd Reg.QE_ARB_WEIGHT).toNat
  | 4 =>
    if fn ≠ 0 || 256 ≤ sel then none
    else some (match FMap.getD s.spaces sel with | some sp => 2 * bit01 sp.mirrored + 1 | none => 0)
  | 5 =>
    if s.ownsIo fn sel then (s.pair sel).map (fun p => 256 * qcCoalTime p.ctx + qcCoalCount p.ctx) else none
  | 6 => if s.ownsIo fn sel then (s.pair sel).map (·.clampMs) else none
  | _ => none

/-- GET_FEATURE. -/
def State.getFeature (s : State) (tag : Nat) : State :=
  match s.running? tag 4 with
  | none => s
  | some c =>
    match s.featureGet c.fn (c.flags % 65536) (c.arg 0x28 4) with
    | some v => s.complete tag St.ok v
    | none => s.complete tag St.invalidField 0

/-! Queue pairs and tiles. -/

/-- CREATE_QP: the pair gets the lowest free number (R229, R232, R261). -/
def State.createQp (s : State) (tag : Nat) : State :=
  match s.running? tag 5 with
  | none => s
  | some c =>
    if FMap.getD s.quotas c.fn ≤ s.pairsHeld c.fn then s.complete tag St.tableFull 0
    else
      match (rangeFrom 128 8064).find? (fun q => (s.pair q).isNone) with
      | none => s.complete tag St.tableFull 0
      | some q =>
        let d := c.arg 0x30 4
        let owner := setBits (setBits c.fn 31 24 (bits c.flags 31 24)) 23 16 (bits c.flags 23 16)
        let ctx := qcBytes c.ptr (c.arg 0x20 8) (bits d 15 0) (bits d 31 16) (c.arg 0x38 4) owner
        let ms := bits c.flags 15 0
        let (st, s') := s.makePair q ctx (if ms = 0 then 1000 else ms)
        if st = St.held then s else s'.complete tag st (if st = St.ok then q else 0)

/-- DELETE_QP: the pair enters DELETING; the command completes once its tags are released (R246), as they are of a pair that is gone. -/
def State.deleteQp (s : State) (tag : Nat) : State :=
  match (s.running? tag 6).filter (fun c => c.stage = .passed) with
  | none => s
  | some c =>
    let q := c.arg 0x20 2
    if (s.pair q).isNone then s.complete tag St.ok 0 else (s.setStage tag .committed).deletePair q

/-- TILE_SERVICE (R265); a tile of a lost half is DIPTYCH_HALF_LOST (R21, R255). -/
def State.tileService (s : State) (tag : Nat) : State :=
  match s.running? tag 0xA with
  | none => s
  | some c =>
    let t := c.arg 0x20 1
    if (if s.mapRole = some false then 128 else 64) ≤ t || s.pairRetired t then s.complete tag St.invalidField 0
    else if 64 ≤ t && s.role.isNone then s.complete tag St.halfLost 0
    else if c.flags.testBit 0 then
      let s : State := { s with offline := setBits s.offline t t 0 }
      s.complete tag St.ok s.tilesInService.length
    else
      let s : State :=
        if c.stage = .staged then s else State.setStage { s with offline := setBits s.offline t t 1 } tag .staged
      if s.tileHeld t then s else s.complete tag St.ok s.tilesInService.length

end Sys2Proof.Machine
end

