-- ==== Sys2Proof/Machine/Dma.lean ====
section
/-! DEFINITION. The DMA engine (R287 to R299): descriptors and the moving of their bytes, RUN_LIST, register-mode transfers,
timers, and the mode write. -/

namespace Sys2Proof.Machine

/-- A descriptor's fields (R289). -/
structure Desc where
  src : Nat
  dst : Nat
  next : Nat
  count : Nat
  fn : Nat
  order : Bool
  dstHost : Bool
  srcHost : Bool
  deriving DecidableEq, Repr

/-- The fields of a descriptor's 64 bytes. -/
def Desc.ofBytes (b : List Byte) : Desc :=
  let c := fieldLE b 0x38 4
  ⟨fieldLE b 0 8, fieldLE b 0x10 8, fieldLE b 0x20 8, fieldLE b 0x30 4, bits c 14 8, c.testBit 2, c.testBit 1, c.testBit 0⟩

/-- An address is in its space and its range does not wrap (R289, R290). -/
def addrOk (host : Bool) (a n : Nat) : Bool :=
  if host then decide (a + n ≤ 2 ^ 64) else decide (a < 2 ^ 48) && decide (a + n ≤ 2 ^ 48)

/-- The check of a descriptor (R290): OK, COMPLEMENT_MISMATCH or MALFORMED_ENTRY. -/
def State.descCheck (s : State) (b : List Byte) : Nat :=
  let d := Desc.ofBytes b
  let c := fieldLE b 0x38 4
  if !(pair64At b 0 && pair64At b 0x10 && pair64At b 0x20 && pair32At b 0x30) then St.complementMismatch
  else if d.count = 0 || bits c 31 15 ≠ 0 || bits c 7 3 ≠ 0 || fieldLE b 0x3C 4 ≠ 0 || d.next % 64 ≠ 0
      || decide (2 ^ 48 ≤ d.next) || !addrOk d.srcHost d.src d.count || !addrOk d.dstHost d.dst d.count
      || ((d.srcHost || d.dstHost) && !s.fnEnabled d.fn) then St.malformedEntry
  else St.ok

/-- Source and destination of one descriptor lie in one space and overlap (R291). -/
def Desc.overlaps (d : Desc) : Bool := d.srcHost = d.dstHost && meets d.src d.count d.dst d.count

/-- Bytes read at `a`, with a free value for each byte that an earlier descriptor without ORDER may not yet have written
(R291). -/
def State.looseRead (s : State) (loose : List (Nat × Nat)) (a : Nat) (bs : List Byte) : List Byte × State :=
  let hit (i : Nat) : Bool := loose.any (fun r => decide (r.1 ≤ a + i) && decide (a + i < r.1 + r.2))
  (bs.zipIdx.map (fun (b, i) => if hit i then Config.free 8 (s.fresh + i) else b),
   if loose.isEmpty then s else { s with fresh := s.fresh + bs.length })

/-- A DPA range of one burst is read granule by granule: the status of the first access that fails, or each granule's bytes
and poison mark (R41, R291). -/
def State.burstIn (s : State) : List (Nat × Nat) → Except Nat (List (List Byte × Bool)) × State
  | [] => (.ok [], s)
  | (a, n) :: ps =>
    let (m, s) := s.readMem Mid.dma a n
    if m.status ≠ St.ok then (.error m.status, s)
    else
      match s.burstIn ps with
      | (.ok r, s) => (.ok ((m.data, m.poison) :: r), s)
      | (.error e, s) => (.error e, s)

/-- Bytes with their poison marks are written to a DPA range granule by granule: the first status other than OK, else OK. -/
def State.burstOut (s : State) (bus : Bus) (data : List Byte) (bad : List Bool) (a0 : Nat) : List (Nat × Nat) → Nat × State
  | [] => (St.ok, s)
  | (a, n) :: ps =>
    let (m, s) :=
      s.request bus
        { master := Mid.dma, dpa := a, len := n, kind := .write, data := subBytes data (a - a0) n, stream := false }
        (((bad.drop (a - a0)).take n).any id)
    if m.status ≠ St.ok then (m.status, s) else s.burstOut bus data bad a0 ps

/-- The granules of a burst are sent to a function's host memory, a poisoned one with EP set (R291). -/
def State.burstHost (s : State) (fn a : Nat) : List (List Byte × Bool) → State
  | [] => s
  | (bs, p) :: r =>
    State.burstHost { s with sent := s.sent ++ [.hostWrite fn a bs (s.fnRelaxed fn) p] } fn (a + bs.length) r

/-- One burst of a descriptor (R295): `n` bytes at offset `o`, the host's bytes of its source given. The status, and whether
poisoned data went to the host. -/
def State.moveBurst (s : State) (bus : Bus) (d : Desc) (loose : List (Nat × Nat)) (host : List Byte) (o n : Nat) : (Nat × Bool) × State :=
  let (r, s) :=
    if d.srcHost then ((.ok [(subBytes host o n, false)] : Except Nat _), s) else s.burstIn (piecesOf 64 n (d.src + o) n)
  match r with
  | .error e => ((e, false), s)
  | .ok gs =>
    let data := gs.flatMap (·.1)
    let bad := gs.flatMap (fun g => g.1.map (fun _ => g.2))
    let loose := if d.overlaps then [(d.src + o, n)] else if d.srcHost then [] else loose
    let (data, s) := s.looseRead loose (d.src + o) data
    if d.dstHost then
      ((St.ok, bad.any id), s.burstHost d.fn (d.dst + o) (gs.zip (piecesOf 64 n (if d.srcHost then 0 else d.src + o) n)
        |>.map (fun (g, p) => (subBytes data (if d.srcHost then 0 else p.1 - (d.src + o)) g.1.length, g.2))))
    else
      let (st, s) := s.burstOut bus data bad (d.dst + o) (piecesOf 64 n (d.dst + o) n)
      ((st, false), s)

/-- The bytes a channel has moved go up by `n` (R298). -/
def State.dmaCount (s : State) (ch n : Nat) : State := s.count64 (Reg.DMA_CH_BYTES_LO ch) n

/-- The BUSY bit of channel `c` becomes `b` (R297). -/
def State.dmaBusy (s : State) (c : Nat) (b : Bool) : State :=
  s.setFld (if c < 32 then Reg.DMA_BUSY_LO else Reg.DMA_BUSY_HI) (c % 32) (c % 32) (bit01 b)

/-- Channel `c` has a job or transfer. -/
def State.dmaIsBusy (s : State) (c : Nat) : Bool := s.bit (if c < 32 then Reg.DMA_BUSY_LO else Reg.DMA_BUSY_HI) (c % 32)

/-! The burst arbiter (R295, R361). -/

/-- Channel `c` asks for a burst: it has work, and no granted burst of its own waits for an answer. -/
def State.dmaAsks (s : State) (c : Nat) : Bool := s.dmaIsBusy c && !s.dmaStalled.contains c

/-- The channel the arbiter picks: a promoted one, else the first of the highest PRIO after the last owner. -/
def State.dmaPick (s : State) : Option Nat :=
  match s.dmaTop.find? s.dmaAsks with
  | some t => some t
  | none =>
    let asking := ((rangeFrom 1 64).map (fun d => (s.dmaLast + d) % 64)).filter s.dmaAsks
    [3, 2, 1, 0].findSome? (fun p => asking.find? (fun c => s.fld (Reg.DMA_CH_CFG c) 1 0 = p))

/-- Channel `c` may go on: a burst it was granted has been waiting, or the engine is enabled, its arbiter is not frozen and picks the
channel. The model has one arbiter, not one for each mesh port (DESIGN CHOICE, assumption 52). -/
def State.dmaMay (s : State) (c : Nat) : Bool :=
  s.dmaStalled.contains c || (s.bit Reg.DMA_CTL 0 && !s.arbFrozen 0 && decide (s.dmaPick = some c))

/-- A burst is granted to channel `c`: a promoted channel returns to its own priority. -/
def State.dmaGrant (s : State) (c : Nat) : State :=
  { s with dmaLast := c, dmaTop := s.dmaTop.filter (· ≠ c), dmaStalled := s.dmaStalled.filter (· ≠ c) }

/-- The granted burst of channel `c` waits for an answer. -/
def State.dmaStall (s : State) (c : Nat) : State := { s with dmaStalled := s.dmaStalled.filter (· ≠ c) ++ [c] }

/-- A descriptor's bursts from the progress `p` on, in order, each when the arbiter grants it; each but the last ends at a 512-byte
boundary of the destination (R295). -/
def State.moveDesc (s : State) (bus : Bus) (ch : Nat) (d : Desc) (host : List Byte) : Progress → List (Nat × Nat) → Nat × Progress × State
  | p, [] => (St.ok, p, s)
  | p, (a, n) :: bs =>
    if !s.dmaMay ch then (St.held, p, s)
    else
      let ((st, ep), s) := (s.dmaGrant ch).moveBurst bus d p.loose host (a - d.dst) n
      if st = St.held then (st, p, s.dmaStall ch)
      else if st ≠ St.ok then (st, p, s)
      else (s.dmaCount ch n).moveDesc bus ch d host { p with off := p.off + n, sullied := p.sullied || ep } bs

/-- A whole descriptor, or what is left of it, with the host's answer to its reads (R247, R291): its status and progress. -/
def State.moveAll (s : State) (bus : Bus) (ch : Nat) (d : Desc) (host : HostRead) (p : Progress) : Nat × Progress × State :=
  let go (bytes : List Byte) : Nat × Progress × State :=
    s.moveDesc bus ch d bytes p (piecesOf 512 d.count (d.dst + p.off) (d.count - p.off))
  if !d.srcHost then go []
  else if !s.dmaMay ch then (St.held, p, s)
  else
    match host with
    | .denied => (St.accessDenied, p, s.dmaGrant ch)
    | .poisoned => (St.poisonedData, p, s.dmaGrant ch)
    | .data bytes => if bytes.length = d.count then go bytes else (St.held, p, (s.dmaGrant ch).dmaStall ch)

/-- The RESULT of a DMA completion (R292). -/
def dmaResult (ended : Bool) (desc bytes : Nat) : Nat :=
  if ended then 2 ^ 63 + 2 ^ 40 * desc + min bytes (2 ^ 40 - 1) else min bytes (2 ^ 40 - 1)

/-- The channel lets its job go. -/
def State.dmaLetGo (s : State) (c : Nat) : State :=
  State.purgeFar
    (State.dmaBusy { s with dmaTop := s.dmaTop.filter (· ≠ c), dmaStalled := s.dmaStalled.filter (· ≠ c) } c false) Mid.dma

/-- A DMA job ends with a status. -/
def State.dmaEnd (s : State) (c : Nat) (j : Job) (status result : Nat) : State := (s.endJob j status result).dmaLetGo c

/-- A job whose descriptor cannot be used gets no completion, and its ring enters its error state (R284, R290). -/
def State.dmaBreak (s : State) (c : Nat) (j : Job) (cause status addr : Nat) : State :=
  (State.dmaLetGo { s with jobs := s.jobs.filter (fun k => k ≠ j) } c).ringFail ⟨.dma, c⟩ cause j.index status addr

/-- The descriptor in hand, or the fetch and check of the next one (R290): its bytes, or the cause and status that it fails with. -/
def State.fetchDesc (s : State) (p : Progress) : Except (Nat × Nat) (List Byte) × State :=
  match p.cur with
  | some b => (.ok b, s)
  | none =>
    let (a, s) := s.readMem Mid.dma p.next 64
    if dataStatus a ≠ St.ok then (.error (4, dataStatus a), s)
    else if s.descCheck a.data ≠ St.ok then (.error (3, s.descCheck a.data), s)
    else (.ok a.data, s)

/-- The progress once descriptor `d` has moved (R290 to R292). -/
def Progress.past (p : Progress) (d : Desc) : Progress :=
  { p with
    desc := p.desc + 1
    next := d.next
    off := 0
    moved := p.moved + d.count
    loose := if d.order || d.dstHost then p.loose else p.loose ++ [(d.dst, d.count)]
    cur := none
    dests := if d.dstHost then p.dests else p.dests ++ [(d.dst, d.count)] }

/-- The descriptors of a list in order (R290 to R292), at most `fuel` of them, with the host's answers to the reads of each
that reads host memory. -/
def State.dmaList (s : State) (bus : Bus) (c : Nat) (j : Job) : Nat → List HostRead → Progress → State
  | 0, _, p => s.setJob j { j with prog := p }
  | fuel + 1, hosts, p =>
    if p.desc = 65536 then s.dmaEnd c j St.invalidField (dmaResult true 65536 p.moved)
    else
      match s.fetchDesc p with
      | (.error (cause, st), s) =>
        if st = St.held then s.setJob j { j with prog := p } else s.dmaBreak c j cause st p.next
      | (.ok b, s) =>
        let d := Desc.ofBytes b
        let (st, p, s) := s.moveAll bus c d (hosts.headD (.data [])) { p with cur := some b }
        if st = St.held then s.setJob j { j with prog := p }
        else if st ≠ St.ok then s.dmaEnd c j st (dmaResult true p.desc p.moved)
        else if d.next = 0 then
          if p.sullied then s.dmaEnd c j St.poisonedData (dmaResult true p.desc p.moved)
          else s.dmaEnd c j St.ok (dmaResult false 0 (p.moved + d.count))
        else State.dmaList s bus c j fuel (if d.srcHost then hosts.drop 1 else hosts) (p.past d)

/-- The FIRST of a DMA job entry (R288). -/
def dmaFirst (e : List Byte) : Nat := fieldLE e 8 8

/-- The cause with which a DMA entry is malformed (R288, R284). -/
def dmaMalformed (e : List Byte) : Option Nat :=
  if fieldLE e 4 4 ≠ 1 || fieldLE e 0x18 40 ≠ 0 then some 1
  else if !pair64At e 8 then some 2
  else if dmaFirst e % 64 ≠ 0 || decide (2 ^ 48 ≤ dmaFirst e) then some 1
  else none

/-- A channel takes one job at a time (R282, R295). -/
def State.dmaFree (s : State) (c : Nat) : Bool := !s.dmaIsBusy c

/-- The job of channel `c`. -/
def State.dmaJob (s : State) (c : Nat) : Option Job := s.findJob (fun j => j.ring = ringKey ⟨.dma, c⟩)

/-- DMA_RUN_LIST: the job of channel `c` runs its list for as long as the arbiter grants it bursts (R290 to R292, R295). -/
def State.dmaRun (s : State) (bus : Bus) (c : Nat) (hosts : List HostRead) : State :=
  match s.dmaJob c with
  | some j => if s.dmaMay c then s.dmaList bus c j 65537 hosts j.prog else s
  | none => s

/-- DMA_BURST_PROMOTE: a channel with work that has waited 10 µs is served next (R295). -/
def State.dmaPromote (s : State) (c : Nat) : State :=
  if s.dmaIsBusy c && !s.dmaTop.contains c then { s with dmaTop := s.dmaTop ++ [c] } else s

/-- The register-mode transfer of channel `c` (R299), its control word given. -/
def State.regDesc (s : State) (c : Nat) (ctl : Word) : Desc where
  src := s.rd64 (Reg.DMA_CH_REG_SRC_LO c)
  dst := s.rd64 (Reg.DMA_CH_REG_DST_LO c)
  next := 0
  count := (s.rd (Reg.DMA_CH_REG_COUNT c)).toNat
  fn := bits ctl.toNat 22 16
  order := false
  dstHost := ctl.toNat.testBit 1
  srcHost := ctl.toNat.testBit 0

/-- DMA_REG_GO: a write of DMA_CHc_REG_CTL (R287, R296). -/
def State.dmaGo (s : State) (m c : Nat) (v : Word) : State :=
  let at' := Reg.DMA_CH_REG_CTL c
  let d := s.regDesc c v
  let busy := s.bit (Reg.DMA_CH_REG_STATUS c) 31
  if v.toNat.testBit 31 then
    if !s.bit Reg.DMA_CTL 1 then s.refuse m at' St.accessDenied
    else if d.count = 0 || (!d.srcHost && decide (2 ^ 48 ≤ d.src)) || (!d.dstHost && decide (2 ^ 48 ≤ d.dst))
        || ((d.srcHost || d.dstHost) && !s.fnEnabled d.fn) then s.refuse m at' St.invalidField
    else if busy then s.refuse m at' St.accessDenied
    else
      let s := s.plainWrite m at' v
      let s := s.setFld (Reg.DMA_CH_REG_STATUS c) 31 31 1
      State.dmaBusy { s with dmaReg := FMap.setD s.dmaReg c (some Progress.start) } c true
  else if busy then s.refuse m at' St.accessDenied
  else s.plainWrite m at' v

/-- DMA_REG_DONE: the transfer of channel `c` runs, to its end if the arbiter grants it every burst (R295, R296). -/
def State.dmaRegRun (s : State) (bus : Bus) (c : Nat) (host : HostRead) : State :=
  match FMap.getD s.dmaReg c with
  | none => s
  | some p =>
    if !s.dmaMay c then s
    else
      let d := s.regDesc c (s.rd (Reg.DMA_CH_REG_CTL c))
      let wraps := !addrOk d.srcHost d.src d.count || !addrOk d.dstHost d.dst d.count
      let (st, p, s) := if wraps then (St.invalidField, p, s) else s.moveAll bus c d host p
      if st = St.held then { s with dmaReg := FMap.setD s.dmaReg c (some p) }
      else
        let st := if st = St.ok && p.sullied then St.poisonedData else st
        let s := s.wr (Reg.DMA_CH_REG_STATUS c) (BitVec.ofNat 32 (2 ^ 30 + st))
        (State.dmaLetGo { s with dmaReg := FMap.setD s.dmaReg c none } c).raise Reg.DMA_INT_STATUS 1

/-- DMA_MODE_WRITE: a write of DMA_CTL (R287, R468). -/
def State.dmaModeWrite (s : State) (m : Nat) (v : Word) : State :=
  let change := v.toNat.testBit 1 != s.bit Reg.DMA_CTL 1
  let use := (List.range 64).any (fun c => s.dmaIsBusy c || s.ringOn ⟨.dma, c⟩)
  let boot := if s.firmwareStage then decide (m < 0x140) || decide (0x14F < m) else s.mode = .bringUp && !v.toNat.testBit 1
  if change && (use || boot) then s.refuse m Reg.DMA_CTL St.accessDenied else s.plainWrite m Reg.DMA_CTL v

/-- A timer's period, at least 1,000 ns (R294). -/
def State.timerPeriod (s : State) (t : Nat) : Nat := max 1000 (s.rd (Reg.DMA_TMR_PERIOD t)).toNat

/-- A write of DMA_TMRt_CTL: EN = 1 starts a full period (R294). -/
def State.timerCtl (s : State) (m t : Nat) (v : Word) : State :=
  let s := s.plainWrite m (Reg.DMA_TMR_CTL t) v
  if v.toNat.testBit 0 then { s with timerDue := FMap.setD s.timerDue t (s.time.toNat + s.timerPeriod t) } else s

/-- DMA_TIMER_EXPIRE: a running timer reaches its end (R293, R294). -/
def State.timerExpire (s : State) (t : Nat) : State :=
  if s.bit (Reg.DMA_TMR_CTL t) 0 then
    let s := s.atTime (FMap.getD s.timerDue t)
    let s := s.dmaTrigger 1 t
    if s.bit (Reg.DMA_TMR_CTL t) 1 then s.setFld (Reg.DMA_TMR_CTL t) 0 0 0
    else { s with timerDue := FMap.setD s.timerDue t (s.time.toNat + s.timerPeriod t) }
  else s

/-- A write of DMA_CHc_CFG (R293, R297). -/
def State.dmaCfgWrite (s : State) (m c : Nat) (v : Word) : State :=
  if s.ringOn ⟨.dma, c⟩ then s.refuse m (Reg.DMA_CH_CFG c) St.accessDenied
  else if bits v.toNat 5 4 = 3 then s.refuse m (Reg.DMA_CH_CFG c) St.invalidField
  else s.plainWrite m (Reg.DMA_CH_CFG c) v

/-- Whether a channel's trigger lets it fetch (R293). -/
def State.dmaTriggered (s : State) (c : Nat) : Bool :=
  s.fld (Reg.DMA_CH_CFG c) 5 4 = 0 || s.fld (Reg.DMA_CH_TRIGS c) 7 0 != 0

/-- Each fetch of a triggered channel takes one trigger (R293). -/
def State.dmaFetched (s : State) (c : Nat) : State :=
  if s.fld (Reg.DMA_CH_CFG c) 5 4 = 0 then s
  else s.setFld (Reg.DMA_CH_TRIGS c) 7 0 (s.fld (Reg.DMA_CH_TRIGS c) 7 0 - 1)

end Sys2Proof.Machine
end

