-- ==== Sys2Proof/Machine/Rings.lean ====
section
/-! DEFINITION. What happens at a work ring whatever its unit: DOORBELL, the scan and the fetch of an entry, the posting of a
completion, CHEAD, CTL and RESET (R213, R214, R220, R281 to R288); and host reads that get no completion (R247). -/

namespace Sys2Proof.Machine

/-- A ring that exists. -/
def ringExists (r : Ring) : Bool := decide (r.n < ringCount r.unit)

/-- The domain of a ring's unit is ON (R439). -/
def State.ringPowered (s : State) (r : Ring) : Bool :=
  match r.unit with
  | .stp | .prf => s.domState 10 = 0
  | .hat => s.domState 12 = 0
  | _ => true

/-- The unit may take entries now (R287, R293, R361). -/
def State.unitTakes (s : State) (r : Ring) : Bool :=
  s.ringPowered r
    && (match r.unit with
      | .dma => !s.bit Reg.DMA_CTL 1 && s.dmaTriggered r.n && s.dmaFree r.n
      | .stp => s.bit Reg.STP_CTL 0 && !s.arbFrozen 4
      | .prf => s.bit Reg.PRF_CTL 0 && !s.arbFrozen 5
      | _ => true)

/-- RING_DOORBELL (R282, R284, R287, R513). -/
def State.ringDoorbell (s : State) (m : Nat) (r : Ring) : State :=
  if !ringExists r || s.ringError r then s
  else if r.unit = .dma && s.bit Reg.DMA_CTL 1 then s.refuse m (ringReg r + 8) St.accessDenied
  else s.setRing r { s.ring r with pending := true }

/-- The DPA of a ring's context. -/
def State.ringCtxAt (s : State) (r : Ring) : Nat := s.rd64 (ringReg r)

/-- EN becomes 1: the context is read (R278, R284). -/
def State.ringEnable (s : State) (r : Ring) : State :=
  let s := s.setFld (ringCtl r) 0 0 1
  let (a, s) := s.readNow (ringMaster r.unit) (s.ringCtxAt r) 64
  s.setRing r { s.ring r with ctx := if a.status = St.ok && !a.poison then some a.data else none }

/-- The cause with which an entry is malformed, its unit's rules applied after the RING dword's (R279, R284). -/
def entryMalformed (u : RingUnit) (e : List Byte) : Option Nat :=
  if bits (fieldLE e 0 4) 30 16 ≠ 0 then some 1
  else
    match u with
    | .dma => dmaMalformed e
    | .stp => stpMalformed e
    | .prf => prfMalformed e
    | .plt => pltMalformed e
    | .hat => hatMalformed e

/-- How the unit takes an entry (R208, R214, R282). -/
def State.unitTake (s : State) (r : Ring) (e : List Byte) : Take :=
  match r.unit with
  | .dma => .engine r.n
  | .stp => s.stpTake s.rev21 e
  | .prf => s.prfTake r.n e
  | _ => .engine 0

/-- The bit of PRF_ENGe_WAIT that says ring `n`'s head waits for a slot of its engine (R221). -/
def State.prfWait (s : State) (n : Nat) : State := (s.prfGoOn n).setFld (Reg.PRF_ENG_WAIT (s.prfEngine n)) n n 1

/-- The head of a ring advances past a fetched entry (R281, R282). -/
def State.ringAdvance (s : State) (r : Ring) (c : List Byte) : State :=
  let g := s.ring r
  let h := g.head + 1
  let wrap := h = ctxDepth c
  s.setRing r { g with head := if wrap then 0 else h, phase := if wrap then !g.phase else g.phase, attr := ctxAttr c }

/-- A job that has been fetched, held by engine `en`. -/
def jobOf (r : Ring) (index en : Nat) (e : List Byte) : Job :=
  let start := Progress.start
  { ring := ringKey r, tag := fieldLE e 0 2, index := index, entry := e, engine := en, done := none
    prog := if r.unit = .dma then { start with next := dmaFirst e } else start }

/-- The unit marks the engine that has taken a job (R215, R221, R293, R297). -/
def State.unitBusy (s : State) (r : Ring) (en : Nat) : State :=
  match r.unit with
  | .dma => (s.dmaBusy r.n true).dmaFetched r.n
  | .stp => s.setFld Reg.STP_STATUS en en 1
  | .prf =>
    let e := en / 8
    let others := ((List.range 8).filter (fun i => i != en % 8 && s.slotBusy e i)).length
    let s := if others = 0 then s.prfServe e (en % 8) else if others = 1 then { s with prfUsed := FMap.setD s.prfUsed e 0 } else s
    s.prfBusy e
  | _ => s

/-- The ring pick starts after the ring that was granted (R361). -/
def State.ringGranted (s : State) (r : Ring) : State :=
  match r.unit with
  | .stp => { s with ringNext := FMap.setD s.ringNext 0 ((r.n + 1) % 16) }
  | .prf => { s with ringNext := FMap.setD s.ringNext (1 + s.prfEngine r.n) ((r.n + 1) % 32) }
  | _ => s

/-- The owned entry `e` at the head of a ring, whose completion slot is free, is fetched if the unit can take it (R282): the head
advances, and the entry is checked (R235). -/
def State.ringTake (s : State) (r : Ring) (c e : List Byte) (at' : Nat) : State :=
  let index := (s.ring r).head
  match entryMalformed r.unit e with
  | some cause =>
    (s.ringAdvance r c).ringFail r cause index (if cause = 2 then St.complementMismatch else St.malformedEntry) at'
  | none =>
    match s.unitTake r e with
    | .wait => if r.unit = .prf then s.prfWait r.n else s
    | .engine en =>
      let s := (s.ringAdvance r c).ringGranted r
      let s := if r.unit = .prf then s.prfGoOn r.n else s
      State.unitBusy { s with jobs := s.jobs ++ [jobOf r index en e] } r en
    | .finish st result =>
      let zeros := r.unit = .prf && prfOp e = 2 && st = St.digestNotReady
      let (w, s') := if zeros then s.prfZeros e else (St.ok, s)
      if w = St.held then s'
      else
        let (result, s') := if zeros then s'.zerosResult e w else (result, s')
        let s' := (s'.ringAdvance r c).ringGranted r
        let s' := if r.unit = .prf then s'.prfGoOn r.n else s'
        { s' with jobs := s'.jobs ++ [{ jobOf r index 0 e with done := some (st, result) }] }

/-- The context and the entry at the head of a ring whose doorbell is pending are read and checked (R282, R284). -/
def State.ringScan (s : State) (r : Ring) (again : Bool) : State :=
  let g := s.ring r
  if !ringExists r || !s.ringOn r || s.ringError r || !g.pending || !s.unitTakes r then s
  else
    let m := ringMaster r.unit
    let (a, s1) := s.readMem m (s.ringCtxAt r) 64
    let st := dataStatus a
    if st = St.held then s
    else if st ≠ St.ok then s1.ringFail r 4 g.head st (s.ringCtxAt r)
    else
      let c := a.data
      let ck := s1.ctxCheck c g.ctx
      if ck ≠ St.ok then s1.ringFail r 5 g.head ck (s.ringCtxAt r)
      else
        let s1 := s1.setRing r { s1.ring r with ctx := some c, attr := ctxAttr c }
        let at' := ctxSub c + 64 * g.head
        let (e, s2) := s1.readMem m at' 64
        let st := dataStatus e
        if st = St.held then s
        else if st ≠ St.ok then s2.ringFail r 4 g.head st at'
        else if (fieldLE e.data 0 4).testBit 31 ≠ g.phase then s2.setRing r { s2.ring r with pending := again }
        else if ctxCmpDepth c - 1 ≤ s2.fetched r + s2.unreleased r then s2
        else s2.ringTake r c e.data at'

/-- A scan of ring `r` would take its entry: the ring asks for a grant of its engines' ring pick. -/
def State.ringAsks (s : State) (r : Ring) : Bool :=
  let t := s.ringScan r false
  (t.ring r).head != (s.ring r).head || (t.ring r).phase != (s.ring r).phase

/-- Another ring of the same engines comes before `r` in their round-robin pick, and asks for the grant (R208, R214, R361). -/
def State.ringOutbid (s : State) (r : Ring) : Bool :=
  match r.unit with
  | .stp =>
    let start := FMap.getD s.ringNext 0
    (List.range ((r.n + 16 - start) % 16)).any (fun d => s.ringAsks ⟨.stp, (start + d) % 16⟩)
  | .prf =>
    let e := s.prfEngine r.n
    let start := FMap.getD s.ringNext (1 + e)
    (List.range ((r.n + 32 - start) % 32)).any (fun d =>
      s.prfEngine ((start + d) % 32) = e && s.ringAsks ⟨.prf, (start + d) % 32⟩)
  | _ => false

/-- RING_FETCH: the engines' ring pick comes to ring `r`, and its head is scanned; `again` says that a doorbell has come since the
read of an entry that is not owned was issued (R282, R284, R286, R361). -/
def State.ringFetch (s : State) (r : Ring) (again : Bool) : State := if s.ringOutbid r then s else s.ringScan r again

/-- RING_COMPLETION_POST: the first finished job of a ring with a tag is posted (R283). -/
def State.ringDone (s : State) (r : Ring) (tag : Nat) : State :=
  match s.jobs.find? (fun j => j.ring = ringKey r && j.tag = tag && j.done.isSome) with
  | none => s
  | some j =>
    let (st, result) := j.done.getD (0, 0)
    State.ringPost { s with jobs := s.jobs.erase j } r st result j.tag

/-- RING_CHEAD_WRITE (R283). -/
def State.cheadWrite (s : State) (m : Nat) (r : Ring) (v : Word) : State :=
  let h := v.toNat % 65536
  let old := s.fld (ringChead r) 15 0
  let ok :=
    match (s.ring r).ctx with
    | some c => decide (h < ctxCmpDepth c) && decide ((h + ctxCmpDepth c - old) % ctxCmpDepth c ≤ s.unreleased r)
    | none => h = old
  if ok then s.setFld (ringChead r) 15 0 h else s.refuse m (ringChead r) St.invalidField

/-! RESET (R220, R285). -/

/-- The local destinations of the descriptors of a list from `next` on, in which the job has moved nothing yet. -/
def State.dmaRest (s : State) (next : Nat) : Nat → List (Nat × Nat)
  | 0 => []
  | fuel + 1 =>
    match s.peek Mid.dma next 64 with
    | none => []
    | some b =>
      if s.descCheck b ≠ St.ok then []
      else
        let d := Desc.ofBytes b
        (if d.dstHost then [] else [(d.dst, d.count)]) ++ (if d.next = 0 then [] else s.dmaRest d.next fuel)

/-- The local destinations of a DMA job: those it has moved to, and those of its descriptor in hand and of the ones after it. -/
def State.dmaDests (s : State) (p : Progress) : List (Nat × Nat) :=
  p.dests ++
    match p.cur with
    | none => s.dmaRest p.next 65536
    | some b =>
      let d := Desc.ofBytes b
      (if d.dstHost then [] else [(d.dst, d.count)]) ++ (if d.next = 0 then [] else s.dmaRest d.next 65536)

/-- A REPRINT that is ended leaves each granule it might have rewritten undefined: those that read as poison in clean pieces (R285,
R429). -/
def State.reprintLoose (s : State) (e : List Byte) : State :=
  (rangeFrom 0 (pltLen e / 64)).foldl
    (fun s i =>
      let a := pltDpa e + 64 * i
      if s.poisoned (s.storage a) && !FMap.getD s.plate.dirty (a / 65536) then
        (s.blur (s.storage a) (s.storage a + 64)).setPoison (s.storage a) (Config.free 1 s.fresh = 1)
      else s) s

/-- A job that has not ended is ended with ABORTED (R285, R292); its destination is undefined. -/
def State.jobAbort (s : State) (r : Ring) (j : Job) : State :=
  match r.unit with
  | .dma =>
    (s.dmaDests j.prog).foldl (fun s d => s.scramble Mid.dma d.1 d.2)
      (s.dmaEnd r.n j St.aborted (dmaResult true j.prog.desc j.prog.moved))
  | .stp => (s.stpEnd j St.aborted 0).scramble Mid.stipple (stpDst j.entry) (stpCap j.entry)
  | .prf =>
    let s := s.prfEnd j St.aborted 0
    if prfOp j.entry = 2 then s.scramble Mid.proof (prfDst j.entry) (algDigest (prfAlg j.entry))
    else if prfOp j.entry = 4 then s.scramble Mid.proof (prfDst j.entry) 256
    else s
  | .hat => s.hatFail j St.aborted
  | .plt => (if pltOp j.entry = 1 then s.reprintLoose j.entry else s).endJob j St.aborted 0

/-- Every job of a ring that is fetched and not posted is posted, in the order fetched (R285). -/
def State.ringDrain (s : State) (r : Ring) : Nat → State
  | 0 => s
  | fuel + 1 =>
    match s.jobs.find? (fun j => j.ring = ringKey r) with
    | none => s
    | some j =>
      let (st, result) := j.done.getD (St.aborted, 0)
      State.ringDrain (State.ringPost { s with jobs := s.jobs.erase j } r st result j.tag) r fuel

/-- RING_RESET (R285): in an error of cause 5 the completions are discarded. -/
def State.ringReset (s : State) (r : Ring) : State :=
  if !ringExists r then s
  else
    let mine := s.jobs.filter (fun j => j.ring = ringKey r && j.done.isNone)
    let s := mine.foldl (fun s j => s.jobAbort r j) s
    let s := s.ringDrain r s.jobs.length
    let s := if r.unit = .prf then (s.prfFreeRing r.n).prfGoOn r.n else s
    let s := s.setRing r RingState.reset
    ((s.wr (ringChead r) 0).wr (ringStatus r) 0).setFld (ringCtl r) 0 0 0

/-- A write of a ring's CTL: for Proof the binding to an engine, then RESET or EN (R213, R221, R278). A ring that is off, or is bound
anew, waits for no slot. -/
def State.ringCtlWrite (s : State) (m : Nat) (r : Ring) (v : Word) : State :=
  let n := v.toNat
  let on := s.ringOn r
  let moved := r.unit = .prf && bits n 6 4 ≠ s.prfEngine r.n
  let s := if moved && on then s.refuse m (ringCtl r) St.accessDenied else s
  let s := if moved && !on then (s.setFld (ringCtl r) 6 4 (bits n 6 4)).prfGoOn r.n else s
  if n.testBit 1 then s.ringReset r
  else if n.testBit 0 && !on then s.ringEnable r
  else if !n.testBit 0 then
    let s := s.setFld (ringCtl r) 0 0 0
    if r.unit = .prf then s.prfGoOn r.n else s
  else s

/-! Proof's turns (R215). -/

/-- Slot `i` of engine `e` is served now. -/
def State.prfServes (s : State) (e i : Nat) : Bool := FMap.getD s.prfTurn e = i

/-- The turn passes on from a slot that has no job any more. -/
def State.prfPass (s : State) (e : Nat) : State := if s.slotBusy e (FMap.getD s.prfTurn e) then s else s.prfNext e

/-- The served slot `i` of engine `e` runs its job of OP `op`. -/
def State.prfRun (s : State) (e i op : Nat) (f : State → Job → State) : State :=
  match s.prfJob e i op with
  | some j => if (s.prfPass e).prfServes e i then f (s.prfPass e) j else s
  | none => s

/-! Host reads that get no completion (R247). -/

/-- HOST_COMPLETION_TIMEOUT. -/
def State.hostTimeout (s : State) (bus : Bus) : HostWait → State
  | .command tag =>
    (match (s.cmd tag).map (·.op) with
    | some 7 => s.fwDownload tag .denied
    | some 0x41 => s.loadCmd tag .denied [] none
    | some 0x42 => s.patchCmd tag .denied [] none
    | some 0x44 => s.runTake tag .denied none
    | some 0x45 => s.install tag .denied 0
    | _ => s)
  | .fetch q tag => s.fetchSq q .denied .denied false tag
  | .dma ch => if (FMap.getD s.dmaReg ch).isSome then s.dmaRegRun bus ch .denied else s.dmaRun bus ch [.denied]

end Sys2Proof.Machine
end

