-- ==== Sys2Proof/Machine/Bus.lean ====
section
/-! DEFINITION. What a write to a register does once the access tables have admitted it: the pairs of R7, the writes that a
register's rule refuses (R513), the registers whose write is a command of their unit, and all others by access code (R5). A step
of a tile (R96) executes an instruction whose own writes come back here, so the bus is built in levels. -/

namespace Sys2Proof.Machine

/-- An interrupt enable register (R483, R489). -/
def intEnableReg (off : Nat) : Bool :=
  [Reg.GRD_INT_ENABLE, Reg.QE_INT_ENABLE, Reg.HDS_INT_ENABLE, Reg.DMA_INT_ENABLE, Reg.STP_INT_ENABLE, Reg.PRF_INT_ENABLE,
    Reg.GAU_INT_ENABLE, Reg.PLT_INT_ENABLE, Reg.HAT_INT_ENABLE, Reg.STY_INT_ENABLE].contains off
    || (decide (0x400000 ≤ off) && decide (off < 0x440000) && off % 0x1000 = 0xC)
    || (decide (0x600000 ≤ off) && decide (off < 0x610000) && off % 0x400 = 0x10)

/-- A register with W1C bits that feed Guard's condition (R483). -/
def feedsGuard (off : Nat) : Bool :=
  [Reg.GRD_INT_STATUS, Reg.QE_INT_STATUS, Reg.HDS_INT_STATUS, Reg.DMA_INT_STATUS, Reg.STP_INT_STATUS, Reg.PRF_INT_STATUS,
    Reg.GAU_INT_STATUS, Reg.PLT_INT_STATUS, Reg.HAT_INT_STATUS, Reg.STY_INT_STATUS, Reg.GLB_TILE_FAILING_HI].contains off
    || (decide (0x400000 ≤ off) && decide (off < 0x440000) && off % 0x1000 = 0x8)
    || (decide (0x500000 ≤ off) && decide (off < 0x540000) && off % 0x1000 = 0x4)
    || (decide (0x600000 ≤ off) && decide (off < 0x610000) && off % 0x400 = 0xC)

/-- Guard looks at its condition after a write to the register at `off` (R483). -/
def State.settle (s : State) (off : Nat) : State :=
  if feedsGuard off then s.guardAgain else if intEnableReg off then s.guardEdge else s

/-- A write by access codes (R5), after which Guard looks at its condition. -/
def State.codeWrite (s : State) (m off : Nat) (v : Word) : State := (s.plainWrite m off v).settle off

/-- The ring whose register bank holds an offset, and the register's place in the bank. -/
def ringAt (off : Nat) : Option (Ring × Nat) :=
  if 0x301000 ≤ off && off < 0x302000 then some (⟨.dma, (off - 0x301000) / 0x40⟩, off % 0x40)
  else if 0x311000 ≤ off && off < 0x311200 then some (⟨.stp, (off - 0x311000) / 0x20⟩, off % 0x20)
  else if 0x321000 ≤ off && off < 0x321400 then some (⟨.prf, (off - 0x321000) / 0x20⟩, off % 0x20)
  else if 0x703000 ≤ off && off < 0x703400 then some (⟨.hat, (off - 0x703000) / 0x20⟩, off % 0x20)
  else if 0x781000 ≤ off && off < 0x781080 then some (⟨.plt, (off - 0x781000) / 0x20⟩, off % 0x20)
  else none

/-- Part `o` of a TIL window shows the core's own state, reached only while the tile is halted (R87, R96, R127). -/
def coreStateReg (o : Nat) : Bool :=
  o = 0x20 || o = 0x24 || (decide (0x100 ≤ o) && decide (o < 0x204)) || o = 0x300 || o = 0x304
    || (decide (0x400 ≤ o) && decide (o < 0x800)) || (decide (0x1000 ≤ o) && decide (o < 0x1200))
    || (decide (0x4000 ≤ o) && decide (o < 0x8000))

/-- A write that its unit discards for the state it is in, with ACCESS_DENIED (R87, R96, R192, R189, R209, R221, R226, R250, R251,
R296, R297, R308, R316, R393, R435). -/
def State.regShut (s : State) (m off : Nat) : Bool :=
  if 0x10000 ≤ off && off < 0x30000 then
    decide (128 ≤ m) || (decide (0x10008 ≤ off) && decide (off < 0x10020) && s.bit (regKey m Reg.QE_FN_AQ_CTL) 0)
  else if off = Reg.QE_CTX_BASE_LO || off = Reg.QE_CTX_BASE_HI then s.bit Reg.QE_CTL 0
  else if 0x200008 ≤ off && off < 0x200018 then s.bit Reg.HDS_CTL 0
  else if 0x201000 ≤ off && off < 0x201220 && off % 0x20 ≠ 0 then s.bit (Reg.HDS_SLOT_STATUS ((off - 0x201000) / 0x20)) 31
  else if 0x302000 ≤ off && off < 0x302800 && off % 0x20 ≠ 0x14 then s.bit (Reg.DMA_CH_REG_STATUS ((off - 0x302000) / 0x20)) 31
  else if off = Reg.GAU_SHADOW_BASE_LO || off = Reg.GAU_SHADOW_BASE_HI then (List.range 16).any s.gTable
  else if 0x340000 ≤ off && off < 0x341000 then s.bit (Reg.GAU_SLOT_STATUS ((off - 0x340000) / 0x100)) 31
  else if off = Reg.PLT_WORK_BASE_LO || off = Reg.PLT_WORK_BASE_HI then s.bit Reg.PLT_CTL 0
  else if 0x800000 ≤ off && off < 0xC00000 then coreStateReg (off % 0x10000) && !s.halted ((off - 0x800000) / 0x10000)
  else
    match ringAt off with
    | some (r, o) => decide (o < 8) && s.ringOn r
    | none => false

/-- Word `i` of window `w` of window set `n` (R314). -/
def State.wsetWord (s : State) (n w i : Nat) : DWord :=
  let at' := Reg.HDS_WSET_WIN_PBASE_LO n w + 8 * i
  BitVec.ofNat 64 (if i = 3 then (s.rd at').toNat else s.rd64 at')

/-- A write of word `i` of a window of a window set, under the refusal rules of R85 (R314). -/
def State.wsetWrite (s : State) (m n w i : Nat) (v : DWord) : State :=
  let at' := Reg.HDS_WSET_WIN_PBASE_LO n w + 8 * i
  let put (x : DWord) : State := if i = 3 then s.wr at' (x.setWidth 32) else s.wr64 at' x.toNat
  if windowOk (fun j => s.wsetWord n w j) i v then put (windowBits i v)
  else if i = 3 then (put (windowBits 3 v &&& 0x1E)).refuse m at' St.invalidField
  else s.refuse m at' St.invalidField

/-- A pair takes effect by access codes: its LO half where a LO was held, then its HI half (R5, R7). -/
def State.pairCodes (s : State) (m lo : Nat) (held : Option Word) (hi : Word) : State :=
  let s := match held with | some v => s.plainWrite m lo v | none => s
  (s.plainWrite m (lo + 4) hi).settle (lo + 4)

/-- A pair takes effect as a whole (R7): `held` is the writer's held LO, without which the LO half keeps its value. -/
def State.pairTake (s : State) (m lo : Nat) (held : Option Word) (hi : Word) : State :=
  let v := (held.getD (s.view m lo)).toNat + 2 ^ 32 * hi.toNat
  if 0x5000 ≤ lo && lo < 0xE000 then
    let (t, g) := ((lo - 0x5000) / 0xC00, (lo - 0x5000) % 0xC00 / 0x18)
    let s := s.pairCodes m lo held hi
    if (lo - 0x5000) % 0xC00 % 0x18 = 0 then { s with grantFaulted := FMap.setD s.grantFaulted (128 * t + g) false } else s
  else if lo = Reg.GLB_TILE_RETIRED_LO then
    s.tileRetire m ((held.getD 0).toNat + 2 ^ 32 * hi.toNat) (fun t => s.tileHeld (s.pairTile t))
  else if lo = Reg.STY_ALARM_LO then s.alarmWrite v
  else if lo = Reg.PLT_FREEZE_EPOCH_LO then
    let f := (held.getD 0).toNat + 2 ^ 32 * hi.toNat
    (s.setPlate { s.plate with freeze := f }).noticeFreeze f
  else if 0x208000 ≤ lo && lo < 0x210000 then
    s.wsetWrite m ((lo - 0x208000) / 0x200) (lo % 0x200 / 0x20) (lo % 0x20 / 8) (BitVec.ofNat 64 v)
  else if 0x702000 ≤ lo && lo < 0x702800 then s.expBase m ((lo - 0x702000) / 0x10) v
  else if 0x710000 ≤ lo && lo < 0x720000 then s.routeWrite m lo v
  else if 0x800000 ≤ lo && lo < 0xC00000 && coreStateReg (lo % 0x10000) then
    let (n, o) := ((lo - 0x800000) / 0x10000, lo % 0x10000)
    if 0x1000 ≤ o then s.windowWrite m n ((o - 0x1000) / 0x20) (o % 0x20 / 8) (BitVec.ofNat 64 v)
    else s.tilePair m n o (BitVec.ofNat 64 v)
  else s.pairCodes m lo held hi

/-- A write to a single register of the function view (R226, R248, R250). -/
def State.fnWrite (s : State) (m off : Nat) (v : Word) : State :=
  if off = Reg.QE_FN_AQ_CTL then (if v.toNat.testBit 0 then s.adminCreate m else s.adminDelete m)
  else
    let s := s.plainWrite m off v
    if 0x18000 ≤ off && off < 0x20000 && off % 16 = 12 && !v.toNat.testBit 0 then
      let n := (off - 0x18000) / 16
      if s.bit (pbaWord m n) (n % 32) then (s.setFld (pbaWord m n) (n % 32) (n % 32) 0).msix m n else s
    else s

/-- A write to a single GLB register. -/
def State.glbWrite (s : State) (m off : Nat) (v : Word) : State :=
  if off = Reg.GLB_RESET then s.resetWrite m v
  else if off = Reg.GLB_BOOT_CTL then s.recoveryGo m v
  else if off = Reg.GLB_WDOG_CTL then s.wdogCtl m v
  else if off = Reg.GLB_WDOG_KICK then s.wdogStart
  else if off = Reg.GLB_BOOT_OK then s.bootOk m v
  else if off = Reg.GLB_MODE_CTL then s.modeEnter m v
  else if off = Reg.GLB_HBM_RETIRE_CMD then s.retireWrite m v
  else if off = Reg.GLB_PAIR_CTL then s.pairCtl m v
  else if 0x400 ≤ off && off < 0x420 then s.affinityWrite m ((off - 0x400) / 4) v
  else if 0xD40 ≤ off && off < 0xDC0 && off % 0x10 = 0 then s.mirrorWrite m ((off - 0xD40) / 0x10) v
  else if 0xD40 ≤ off && off < 0xDC0 && off % 0x10 = 4 then
    (if v.toNat.testBit 31 then s.mirrorSync m ((off - 0xD40) / 0x10) else s)
  else s.codeWrite m off v

/-- A write to a single STY register. -/
def State.styWrite (s : State) (m off : Nat) (v : Word) : State :=
  if off = Reg.STY_VIGIL_CTL then (if v.toNat.testBit 31 then s.vigilEnter m else s)
  else if off = Reg.STY_PWR_LIMIT then s.pwrLimit m v
  else if off = Reg.STY_THERM_CTL then s.thermCtl m v
  else if off = Reg.STY_WAKE_SEND then s.wakeSend m v
  else if 0x1040 ≤ off && off < 0x1050 then s.qpllWrite m ((off - 0x1040) / 4) v
  else if 0x1100 ≤ off && off < 0x1188 && off % 8 = 0 then s.domCtl m ((off - 0x1100) / 8) v true
  else s.codeWrite m off v

/-- A write to a single HDS register. -/
def State.hdsRegWrite (s : State) (m off : Nat) (v : Word) : State :=
  if 0x200040 ≤ off && off < 0x2000C0 && off % 8 = 4 then
    (if v.toNat.testBit 0 then s.coreRestart m ((off - 0x200040) / 8) else s)
  else if 0x201000 ≤ off && off < 0x201220 && off % 0x20 = 0 then s.slotCommand m ((off - 0x201000) / 0x20) v
  else if 0x208000 ≤ off && off < 0x210000 && off % 0x20 = 0x18 then
    s.wsetWrite m ((off - 0x208000) / 0x200) (off % 0x200 / 0x20) 3 (v.setWidth 64)
  else s.codeWrite m off v

/-- A write to a single register of a ring's bank (R282 to R285); a DMA channel's CFG stands in its bank too. -/
def State.ringRegWrite (s : State) (m : Nat) (r : Ring) (o off : Nat) (v : Word) : State :=
  if o = 0x8 then s.ringDoorbell m r
  else if o = 0xC then s.cheadWrite m r v
  else if o = 0x10 then s.ringCtlWrite m r v
  else if o = 0x18 && r.unit = .dma then s.dmaCfgWrite m r.n v
  else s.codeWrite m off v

/-- A write to a single DMA, STP, PRF or GAU register outside the ring banks. -/
def State.engineWrite (s : State) (m off : Nat) (v : Word) : State :=
  if off = Reg.DMA_CTL then s.dmaModeWrite m v
  else if 0x300100 ≤ off && off < 0x300200 && off % 0x10 = 0 then s.timerCtl m ((off - 0x300100) / 0x10) v
  else if 0x302000 ≤ off && off < 0x302800 && off % 0x20 = 0x14 then s.dmaGo m ((off - 0x302000) / 0x20) v
  else if off = Reg.STP_ENG_RETIRED then s.stpRetireWrite v
  else if off = Reg.GAU_BANK_RETIRED then s.gRetire m v
  else if 0x340000 ≤ off && off < 0x341000 && off % 0x100 = 0 then s.gCommand m ((off - 0x340000) / 0x100) v St.ok
  else s.codeWrite m off v

/-- A write to a single MC register. -/
def State.mcRegWrite (s : State) (m off : Nat) (v : Word) : State :=
  let (n, o) := ((off - 0x400000) / 0x1000, off % 0x1000)
  if o = 4 then s.mcThaw m n v
  else if 0x40 ≤ o && o < 0x80 then s.timingWrite m n off v
  else if o = 0x90 then s.pprWrite m n v
  else if o = 0xC0 then (if n % 16 = 0 && v.toNat.testBit 31 then s.stackSwitch m (n / 16) else s)
  else s.codeWrite m off v

/-- A write to a single SC, SCS or MSH register. -/
def State.fabricWrite (s : State) (m off : Nat) (v : Word) : State :=
  if off = Reg.SC_CTL then s.scCtl m v
  else if off = Reg.SC_RANGE_CMD then s.rangeWrite m v
  else if 0x600000 ≤ off && off < 0x610000 && off % 0x400 = 0 then s.meshCtl m ((off - 0x600000) / 0x400) v
  else if 0x600000 ≤ off && off < 0x610000 && 0x100 ≤ off % 0x400 && off % 0x400 < 0x200 then
    s.meshRoute m ((off - 0x600000) / 0x400) ((off % 0x400 - 0x100) / 4) v
  else s.codeWrite m off v

/-- A write to a single HAT register outside the job rings. -/
def State.hatRegWrite (s : State) (m off : Nat) (v : Word) : State :=
  if off = Reg.HAT_CTL then s.hatCtl m v
  else if off = Reg.HAT_FID then s.fidWrite m v
  else if off = Reg.HAT_GROUP_CFG || (0x700040 ≤ off && off < 0x700050) then s.groupWrite m off v
  else if off = Reg.HAT_ROUTE_CTL then (if v.toNat.testBit 31 then s.routeSwap else s)
  else if 0x700100 ≤ off && off < 0x700300 && off % 0x40 = 8 then s.portCtl m ((off - 0x700100) / 0x40) v
  else if 0x702000 ≤ off && off < 0x702800 && off % 0x10 = 8 then s.expSize m ((off - 0x702000) / 0x10) v
  else if 0x703800 ≤ off && off < 0x704000 && off % 0x20 = 8 then s.lqHead m ((off - 0x703800) / 0x20) v
  else if 0x703800 ≤ off && off < 0x704000 && off % 0x20 = 0xC then s.lqCtl m ((off - 0x703800) / 0x20) v
  else s.codeWrite m off v

/-- A write to a single PLT register outside the rings. -/
def State.pltWrite (s : State) (m off : Nat) (v : Word) : State :=
  if off = Reg.PLT_CTL then s.pltCtl m v
  else if off = Reg.PLT_ETCH_DEADLINE then s.pltDeadline m v
  else if off = Reg.PLT_ETCH_GO then (if v.toNat.testBit 0 then s.etchGo m else s)
  else if off = Reg.PLT_REGION_CMD then s.regionLoad m v
  else s.codeWrite m off v

/-- TILn_CTL (R96): RUN = 1 runs the tile whatever STEP is; otherwise STEP = 1 steps a halted tile, and a write with RUN = 0 asks a
running one to halt. -/
def State.tileCtl (s : State) (bus : Bus) (m n : Nat) (v : Word) : State :=
  if v.toNat.testBit 0 then s.tileRun m n
  else if v.toNat.testBit 1 && (s.halted n || s.tileRetired n) then s.tileStep bus m n
  else s.tileHalt n

/-- A write to a single TIL register. -/
def State.tilWrite (s : State) (bus : Bus) (m off : Nat) (v : Word) : State :=
  let (n, o) := ((off - 0x800000) / 0x10000, off % 0x10000)
  if o = 0 then s.tileCtl bus m n v
  else if o = 0x30 then s.l1Write m n v
  else if 0x1000 ≤ o && o < 0x1200 then (if o % 0x20 = 0x18 then s.windowWrite m n ((o - 0x1000) / 0x20) 3 (v.setWidth 64) else s)
  else if coreStateReg o then (if (regRow? off).isSome then s.tileWord n o v else s)
  else if 0x8000 ≤ o && o < 0x8200 then
    (if o % 0x10 = 0xC then s.channelCtl n ((o - 0x8000) / 0x10) false v else s.channelCfg m off n ((o - 0x8000) / 0x10) false v)
  else if 0x8400 ≤ o && o < 0x8800 then
    (if o % 0x20 = 0x10 then s.channelCtl n ((o - 0x8400) / 0x20) true v else s.channelCfg m off n ((o - 0x8400) / 0x20) true v)
  else s.codeWrite m off v

/-- A write to a single register that its unit takes. -/
def State.wordTake (s : State) (bus : Bus) (m off : Nat) (v : Word) : State :=
  if off < 0x1000 then s.glbWrite m off v
  else if off < 0x2000 then s.styWrite m off v
  else if off < 0x10000 then s.codeWrite m off v
  else if off < 0x30000 then s.fnWrite m off v
  else if off < 0x200000 then s.codeWrite m off v
  else if off < 0x300000 then s.hdsRegWrite m off v
  else
    match ringAt off with
    | some (r, o) => s.ringRegWrite m r o off v
    | none =>
      if off < 0x400000 then s.engineWrite m off v
      else if off < 0x500000 then s.mcRegWrite m off v
      else if off < 0x700000 then s.fabricWrite m off v
      else if off < 0x780000 then s.hatRegWrite m off v
      else if off < 0x7C0000 then s.pltWrite m off v
      else if off < 0x800000 then s.codeWrite m off v
      else s.tilWrite bus m off v

/-- An admitted write of a word by master `m` to the register at `off`: the halves of a pair as R7 has them, every other register
as its unit takes it; an offset that names no register takes nothing (R512). -/
def State.regIn (bus : Bus) (s : State) (m off : Nat) (v : Word) : State :=
  let k := regKey m off
  if s.regShut m off then s.refuse m off St.accessDenied
  else if (regRow? off).isNone then s
  else if isPairLo off then { s with held := FMap.setD s.held k (some ⟨m, v⟩) }
  else if 4 ≤ off && isPairLo (off - 4) then
    match FMap.getD s.held (k - 4) with
    | some t =>
      if t.master = m then State.pairTake { s with held := FMap.setD s.held (k - 4) none } m (off - 4) (some t.value) v
      else s.pairTake m (off - 4) none v
    | none => s.pairTake m (off - 4) none v
  else s.wordTake bus m off v

/-- The bus on which at most `n` steps of tiles stand within one another: a step needs a halted tile and leaves it running, so 65
levels hold every nest that 64 tiles can make. -/
def busAt : Nat → Bus
  | 0 => ⟨fun s _ _ _ => s, State.doorWrite⟩
  | n + 1 => ⟨State.regIn (busAt n), State.doorWrite⟩

/-- The block's register and doorbell bus. -/
def bus : Bus := busAt 66

end Sys2Proof.Machine
end

