-- ==== Sys2Proof/Machine/Module.lean ====
section
/-! DEFINITION. The management endpoint, the I3C target and the TAP (R503 to R508). Register accesses carry master 0x301 and are
judged like any other (R504). The bus that carried a message is not part of a command. -/

namespace Sys2Proof.Machine

/-- SPINE is on, and the management unit itself answers. -/
def State.spineOn (s : State) : Bool := s.domState 1 = 0

/-- Something answers: the management unit, or Steady on a supply of its own (R506). -/
def State.mgtAnswers (s : State) : Bool := s.spineOn || s.steady.aux || s.steady.good

/-- A management transaction addressed to the module is wake source 5 (R451). -/
def State.mgtTouched (s : State) : State := s.wakeSource 5

/-- A response leaves. -/
def State.mctpSend (s : State) (bs : List Byte) : State := { s with sent := s.sent ++ [.mctp bs] }

/-- The byte of a message, 0 past its end. -/
def byteAt (bs : List Byte) (i : Nat) : Nat := (bs.getD i 0).toNat

/-- A request of type 0x7E of the vendor (R505). -/
def vendorRequest (req : List Byte) : Bool :=
  byteAt req 0 = 0x7E && byteAt req 1 = 0x1C && byteAt req 2 = 0xA7 && 128 ≤ byteAt req 3 && decide (6 ≤ req.length)

/-- The response to a vendor request (R505). -/
def vendorResponse (req : List Byte) (status : Nat) (data : List Byte) : List Byte :=
  natLE 6 (0x7E + 2 ^ 8 * 0x1C + 2 ^ 16 * 0xA7 + 2 ^ 24 * (byteAt req 3 % 32) + 2 ^ 32 * byteAt req 4) ++ natLE 2 status
    ++ (if status = St.ok then data else [])

/-- What a vendor command gives: a status and data, or no answer yet because its register access is held. -/
abbrev VendorAnswer := Option (Nat × List Byte)

/-- One vendor command, `code`, served with `f` on `n` bytes of request data. A message of another command is no command of this
row, and a reserved command is answered whichever row it is given to (R505, R506). -/
def State.vendor (s : State) (req : List Byte) (code n : Nat) (f : State → VendorAnswer × State) : State :=
  let c := byteAt req 4
  if !vendorRequest req || (c ≠ code && 1 ≤ c && c ≤ 7) || !s.mgtAnswers then s
  else
    let s := s.mgtTouched
    let reply (s : State) (st : Nat) (d : List Byte) : State := s.mctpSend (vendorResponse req st d)
    if !s.spineOn && (c = 0 || 3 < c) then reply s St.domainPoweredDown []
    else if c = 0 || 7 < c then reply s St.invalidOpcode []
    else if byteAt req 3 / 32 % 4 ≠ 0 || byteAt req 5 ≠ 0 || req.length ≠ 6 + n then reply s St.invalidField []
    else
      match f s with
      | (some (st, d), s) => reply s st d
      | (none, s) => s

/-- STATUS (R505). -/
def State.mctpStatus (s : State) (req : List Byte) : State :=
  s.vendor req 1 0 (fun s =>
    (some (St.ok, natLE 1 s.mode.code ++ [(0 : Byte)] ++ natLE 4 s.healthWord ++ natLE 4 (s.rd Reg.STY_SUPPLY).toNat), s))

/-- The value of a sensor (R506); `none` for a number that names none. -/
def State.sensor (s : State) (n : Nat) : Option Int :=
  if n = 0 then some (s.fld Reg.STY_SUPPLY 15 0)
  else if n = 1 then some (s.fld Reg.STY_POWER 15 0)
  else if n = 2 then some (s.fld Reg.STY_POWER 31 16)
  else if n = 3 then some s.steady.inlet
  else if n = 4 then some s.steady.bankTemp
  else if n = 5 then some (s.rd Reg.PLT_BANK_ENERGY).toNat
  else if 0x10 ≤ n && n < 0x20 then some (s.fld (Reg.STY_TSENS (n - 0x10)) 7 0)
  else if 0x20 ≤ n && n < 0x24 then some (s.fld (Reg.MC_TEMP (16 * (n - 0x20))) 7 0)
  else if 0x24 ≤ n && n < 0x28 then some (Int.ofNat (FMap.getD s.steady.devTemp (n - 0x24)))
  else none

/-- SENSOR_READ (R505, R506). -/
def State.sensorRead (s : State) (req : List Byte) : State :=
  s.vendor req 2 1 (fun s =>
    let n := byteAt req 6
    if !s.spineOn && 0x10 ≤ n && n < 0x24 then (some (St.domainPoweredDown, []), s)
    else
      match s.sensor n with
      | some v => (some (St.ok, natLE 4 (v % (2 ^ 32 : Int)).toNat), s)
      | none => (some (St.invalidField, []), s))

/-- A read of `len` bytes at `off` of something of `size` bytes (R505). -/
def rangeAnswer (off len size : Nat) (get : Nat → Byte) : Nat × List Byte :=
  if len = 0 then (St.invalidField, [])
  else if 56 < len then (St.bufferOverflow, [])
  else if size < off + len then (St.invalidField, [])
  else (St.ok, (rangeFrom off len).map get)

/-- FRU_READ (R505, R507). -/
def State.fruRead (s : State) (req : List Byte) : State :=
  s.vendor req 3 3 (fun s => (some (rangeAnswer (fieldLE req 6 2) (byteAt req 8) 2048 Config.fru), s))

/-- LOG_READ (R262, R505). -/
def State.logRead (s : State) (req : List Byte) : State :=
  s.vendor req 4 6 (fun s =>
    let l := byteAt req 6
    if l = 0 || 6 < l then (some (St.invalidField, []), s)
    else
      let b := s.logBytes l
      (some (rangeAnswer (fieldLE req 7 4) (byteAt req 11) (logSize l) (fun i => b.getD i 0)), s))

/-- An access of master 0x301 to the register at a BAR0 offset (R504). -/
def State.debugAccess (s : State) (off : Nat) (value : Option Word) : MemAnswer × State :=
  let r : Request :=
    { master := Mid.debug, dpa := 0x20000000000 + off, len := 4,
      kind := (match value with | some _ => .write | none => .read), data := natLE 4 ((value.getD 0).toNat), stream := false }
  s.request bus r false

/-- The register access of a message: its OFFSET is checked, and its status is the access's own (R505). -/
def State.mctpAccess (s : State) (off : Nat) (value : Option Word) : VendorAnswer × State :=
  if off % 4 ≠ 0 || 0x1000000 ≤ off then (some (St.invalidField, []), s)
  else
    let (a, s) := s.debugAccess off value
    (if a.status = St.held then none else some (a.status, if value.isSome then [] else a.data), s)

/-- REG_READ (R505). -/
def State.mctpRegRead (s : State) (req : List Byte) : State :=
  s.vendor req 5 4 (fun s => s.mctpAccess (fieldLE req 6 4) none)

/-- REG_WRITE (R505). -/
def State.mctpRegWrite (s : State) (req : List Byte) : State :=
  s.vendor req 6 8 (fun s => s.mctpAccess (fieldLE req 6 4) (some (writeWord req 10)))

/-- RESET (R505): the orderly reset follows once the response is sent. -/
def State.mctpReset (s : State) (req : List Byte) : State :=
  let good := fieldLE req 6 2 = 0xD1E5
  let t := s.vendor req 7 2 (fun s => (some (if good then St.ok else St.invalidField, []), s))
  if good && vendorRequest req && byteAt req 4 = 7 && s.spineOn && byteAt req 3 / 32 % 4 = 0 && byteAt req 5 = 0
      && req.length = 8 then t.orderlyReset 5
  else t

/-- The completion code and data of an MCTP control command, with the endpoint ID it sets (R504, DSP0236). -/
def controlAnswer (eid : Nat) (cmd : Nat) (d : List Byte) : Nat × List Byte × Option Nat :=
  let bad := (2, [], none)
  if cmd = 1 then
    let (op, e) := (byteAt d 0, byteAt d 1)
    if d.length ≠ 2 then (3, [], none)
    else if 1 < op || e < 8 || e = 0xFF then bad
    else (0, [0, BitVec.ofNat 8 e, 0], some e)
  else if cmd = 2 then (if d.isEmpty then (0, [BitVec.ofNat 8 eid, 0, 0], none) else (3, [], none))
  else if cmd = 3 then (if d.isEmpty then (0, (List.range 16).map Config.mctpUuid, none) else (3, [], none))
  else if cmd = 4 then
    if d.length ≠ 1 then (3, [], none)
    else if [0, 0x7E, 0xFF].contains (byteAt d 0) then (0, [1] ++ natLE 4 Config.mctpVersion.toNat, none)
    else (0x80, [], none)
  else if cmd = 5 then (if d.isEmpty then (0, [1, 0x7E], none) else (3, [], none))
  else if cmd = 6 then
    if d.length ≠ 1 then (3, [], none)
    else if byteAt d 0 = 0 then (0, [0xFF, 0, 0x1C, 0xA7, 0, 0], none)
    else bad
  else (5, [], none)

/-- MCTP_CONTROL (R504, R506). -/
def State.mctpControl (s : State) (req : List Byte) : State :=
  if byteAt req 0 ≠ 0 || byteAt req 1 < 128 || req.length < 3 || !s.mgtAnswers then s
  else
    let s := s.mgtTouched
    let (code, d, eid) := controlAnswer (s.fld Reg.MGT_EID 7 0) (byteAt req 2) (req.drop 3)
    let s := match eid with | some e => s.setFld Reg.MGT_EID 7 0 e | none => s
    s.mctpSend ([0, BitVec.ofNat 8 (byteAt req 1 % 32), BitVec.ofNat 8 (byteAt req 2), BitVec.ofNat 8 code] ++ d)

/-- The bytes a CCC returns leave. -/
def State.cccSend (s : State) (bs : List Byte) : State := { s with sent := s.sent ++ [.ccc bs] }

/-- The provisioned ID: its low 32 bits are those of the serial number (R503). -/
def i3cPidBytes : List Byte := (natLE 6 (2 ^ 32 * Config.i3cPid.toNat + Config.serial.toNat % 2 ^ 32)).reverse

/-- The module takes dynamic address `a` when it has none (R503). -/
def State.takeAddress (s : State) (a : Nat) : State :=
  if s.bit Reg.MGT_I3C 31 then s else s.wr Reg.MGT_I3C (BitVec.ofNat 32 (2 ^ 31 + a % 128))

/-- I3C_CCC (R503): a CCC that the target does not support is ignored. -/
def State.i3cCcc (s : State) (ccc : Nat) (d : List Byte) : State :=
  if !s.mgtAnswers || (s.spineOn && !s.bit Reg.MGT_CTL 0) then s
  else
    let s := s.mgtTouched
    match ccc with
    | 0x00 | 0x80 => { s with steady := { s.steady with i3cEvents := s.steady.i3cEvents || byteAt d 0 % 2 = 1 } }
    | 0x01 | 0x81 => { s with steady := { s.steady with i3cEvents := s.steady.i3cEvents && byteAt d 0 % 2 = 0 } }
    | 0x06 => s.wr Reg.MGT_I3C 0
    | 0x07 =>
      if s.bit Reg.MGT_I3C 31 then s
      else (s.cccSend (i3cPidBytes ++ [Config.i3cBcr, Config.i3cDcr])).takeAddress (byteAt d 0 / 2)
    | 0x87 => s.takeAddress (byteAt d 0 / 2)
    | 0x8D => s.cccSend i3cPidBytes
    | 0x8E => s.cccSend [Config.i3cBcr]
    | 0x8F => s.cccSend [Config.i3cDcr]
    | 0x90 =>
      let (v, s) := s.free 16
      s.cccSend (natLE 2 v.toNat)
    | 0x2A | 0x9A => { s with steady := { s.steady with i3cReset := byteAt d 0 } }
    | _ => s

/-- The TAP's instruction register. -/
def State.setTap (s : State) (n : Nat) : State := { s with steady := { s.steady with tap := n } }

/-- JTAG_INSTRUCTION (R504, R508). -/
def State.jtag (s : State) : JtagInsn → State
  | .tapReset => s.setTap 0
  | .bypass => s.setTap 1
  | .idcode => { s.setTap 2 with answer := ⟨St.ok, natLE 4 Config.jtagIdcode.toNat, false, false⟩ }
  | .boundary => s.setTap (if s.mode = .bringUp then 3 else 1)
  | .debug off value =>
    if off % 4 ≠ 0 || 0x1000000 ≤ off then s.setTap 4
    else
      let (a, s) := (s.setTap 4).debugAccess off value
      { s with answer := ⟨a.status, a.data, false, a.poison⟩ }

end Sys2Proof.Machine
end

