-- ==== Sys2Proof/WellFormed.lean ====
section
/-! DEFINITION. Which commands are well formed: every index of a command lies in the range the spec gives its kind, and the bytes
of an access are as many as its length.  A word, a byte string or a field that has no range of its own is well formed as it is. -/
namespace Sys2Proof

/-- An MSTID has 12 bits (R33). -/
def okMaster (m : Nat) : Bool := decide (m < 4096)

/-- BAR0 is 16 MiB (R224). -/
def okReg (a : Nat) : Bool := decide (a < 16777216)

/-- The PF and 127 VFs (R222). -/
def okFunction (fn : Nat) : Bool := decide (fn < 128)

/-- Pair tile numbers (R172). -/
def okTile (t : Nat) : Bool := decide (t < 128)

/-- The keys of the cores: the module's tiles 0–63, and its Headstock core `n` at 128 + n (R99, R300). -/
def okCore (c : Nat) : Bool := decide (c < 64) || (decide (128 ≤ c) && decide (c < 144))

/-- Command tags (R243, R276), and the numbers 8192 to 8447 of the parts of spanning RUNs (R171). -/
def okTag (t : Nat) : Bool := decide (t < 8448)

/-- Queue pairs (R228). -/
def okPair (q : Nat) : Bool := decide (q < 8192)

/-- Hatch ports (R366). -/
def okPort (p : Nat) : Bool := decide (p < 8)

/-- A codeword's lane is one of a port's four, and its piece has 640 bytes (R366, R367). -/
def Codeword.ok (c : Codeword) : Bool := decide (c.lane < 4) && decide (c.piece.length = 640)

/-- A DPA has 48 bits (R24). -/
def okDpa (a : Nat) : Bool := decide (a < 281474976710656)

/-- An access of 1 to `top` bytes, and as many bytes of data where it writes. -/
def okAccess (top len : Nat) (wr : Option (List Byte)) : Bool :=
  decide (0 < len) && decide (len ≤ top) && (match wr with | some d => d.length == len | none => true)

/-- The BAR4 of the PF is 64 GiB, that of a VF 4 GiB (R224). -/
def okSlice (fn off : Nat) : Bool := decide (off < (if fn = 0 then 68719476736 else 4294967296))

/-- A request: its bytes lie in the address space, and its data are those of its kind (R24, R149). -/
def Request.ok (r : Request) : Bool :=
  okMaster r.master && decide (0 < r.len) && decide (r.dpa + r.len ≤ 281474976710656) &&
    (match r.kind with
    | .read | .fetch => r.data.isEmpty
    | .write => r.data.length == r.len
    | .atomic _ _ => (r.len == 4 || r.len == 8) && r.dpa % r.len == 0 && r.data.length == r.len)

/-- The fields of a record (R43). -/
def Report.ok (r : Report) : Bool :=
  decide (r.status < 65536) && decide (r.target < 256) && decide (r.severity < 5) && okMaster r.master && okDpa r.address &&
    decide (r.tag < 65536) && decide (r.detail < 4294967296)

/-- The work rings (R277). -/
def Ring.ok (r : Ring) : Bool :=
  decide (r.n < match r.unit with | .dma => 64 | .stp => 16 | .prf => 32 | .plt => 4 | .hat => 32)

/-- The fields of a packet (R381), whose LEN counts its payload but in a READ or MGMT_READ (R383). -/
def Packet.ok (k : Packet) : Bool :=
  decide (k.op < 256) && decide (k.vc < 4) && decide (k.hops < 64) && decide (k.src < 262144) && decide (k.dst < 262144) &&
    decide (k.tag < 65536) && decide (k.len < 8192) && decide (k.status < 65536) && decide (k.aux < 65536) &&
    decide (k.addr < 18446744073709551616) && decide (k.aux2 < 18446744073709551616) &&
    k.payload.length == (if k.op = 1 || k.op = 0x21 then 0 else k.len)

/-- What the FRONT makes of the BACK's Gauge (R190). -/
def okGaugeFar (f : Option GaugeFar) : Bool :=
  match f with
  | some (.row b j r) => decide (16 ≤ b) && decide (b < 32) && decide (j < 8192) && r.length = 64
  | some (.table t _ _ _) => decide (t < 16)
  | none => true

/-- A part of a spanning RUN (R171). -/
def okPart (p : Option RunPart) : Bool :=
  match p with
  | some p => decide (p.src < 2 ^ 18) && p.digest.length = 48 && p.entry.length = 64
  | none => true

/-- A message from the other half (R144, R162). -/
def okFar (m : Option NocMsg) : Bool :=
  match m with
  | some m => decide (m.kind < 4) && decide (m.tile < 128) && decide (m.ch < 32) && decide (m.gen < 16)
  | none => true

/-- A wait for host memory (R247). -/
def HostWait.ok (w : HostWait) : Bool :=
  match w with
  | .command tag => okTag tag
  | .fetch q tag => okPair q && okTag tag
  | .dma ch => decide (ch < 64)

/-- A JTAG instruction (R508). -/
def JtagInsn.ok (i : JtagInsn) : Bool :=
  match i with
  | .debug off _ => okReg off
  | _ => true

/-- The ranges of a command's operands. -/
def Instr.wf : Instr → Bool
  | .registerWrite m a _ => okMaster m && okReg a
  | .pairLoRead m a => okMaster m && okReg a
  | .pairHiRead m a => okMaster m && okReg a
  | .pairLoWrite m a _ => okMaster m && okReg a
  | .pairHiWrite m a _ => okMaster m && okReg a
  | .unalignedRegisterAccess m a len wr => okMaster m && okReg a && okAccess 8 len wr
  | .targetRequest r _ => r.ok
  | .bar4Access fn off len wr => okFunction fn && okSlice fn off && decide (off % 4096 + len < 4097) && okAccess 4096 len wr
  | .bar0Access fn off len wr => okFunction fn && okReg off && okAccess 8 len wr
  | .bar2Access fn off len wr => okFunction fn && decide (off < 524288) && okAccess 8 len wr
  | .affinityWrite m n _ => okMaster m && decide (n < 8)
  | .grantWrite m t g k _ => okMaster m && decide (t < 12) && decide (g < 128) && decide (k < 6)
  | .guardReport r => r.ok
  | .storageReclaim => true
  | .segmentReplace table col seg _ _ at' => decide (table < 16777216) && decide (col < 4098) && decide (seg < 4294967296) && okDpa at'
  | .alu c _ _ => okCore c
  | .alui c _ _ => okCore c
  | .scalarLoad c _ _ => okCore c
  | .scalarStore c _ _ => okCore c
  | .br c _ _ => okCore c
  | .call c _ _ => okCore c
  | .callr c _ _ => okCore c
  | .jump c _ _ => okCore c
  | .fence c _ _ => okCore c
  | .fenceW c _ _ => okCore c
  | .fenceX c _ _ => okCore c
  | .rtcall c _ _ => okCore c
  | .dbgstop c _ _ => okCore c
  | .endProgram c _ _ => okCore c
  | .trapret c _ _ => okCore c
  | .srr c _ _ => okCore c
  | .srw c _ _ => okCore c
  | .srs c _ _ => okCore c
  | .src c _ _ => okCore c
  | .impreciseException c => okCore c
  | .tileRun m t => okMaster m && okTile t
  | .tileHalt m t => okMaster m && okTile t
  | .tileHalted t => okTile t
  | .tileStep m t => okMaster m && okTile t
  | .windowWrite m t w k _ => okMaster m && okTile t && decide (w < 16) && decide (k < 7)
  | .vsetcfg c _ _ => okCore c
  | .vintegerOp c _ _ => okCore c
  | .vfloatOp c _ _ => okCore c
  | .vcompare c _ _ => okCore c
  | .predicateOp c _ _ => okCore c
  | .vectorMove c _ _ => okCore c
  | .vcvt c _ _ => okCore c
  | .vld c _ _ => okCore c
  | .vst c _ _ => okCore c
  | .vlds c _ _ => okCore c
  | .vsts c _ _ => okCore c
  | .gather c _ _ => okCore c
  | .scatter c _ _ => okCore c
  | .gatherF c _ _ => okCore c
  | .ldf c _ _ => okCore c
  | .stf c _ _ => okCore c
  | .vcompress c _ _ => okCore c
  | .vexpand c _ _ => okCore c
  | .vhash c _ _ => okCore c
  | .vsort c _ _ => okCore c
  | .vsortkv c _ _ => okCore c
  | .vmerge c _ _ => okCore c
  | .vred c _ _ => okCore c
  | .vsred c _ _ => okCore c
  | .vpack c _ _ => okCore c
  | .vunpack c _ _ => okCore c
  | .vstrcmp c _ _ => okCore c
  | .vstrcmpC c _ _ => okCore c
  | .vstrcmpPredicate c _ _ => okCore c
  | .vhist c _ _ => okCore c
  | .vhistadd64 c _ _ => okCore c
  | .vgauge c _ _ => okCore c
  | .vsend c _ _ => okCore c
  | .vrecv c _ _ => okCore c
  | .sclose c _ _ => okCore c
  | .sstatOut c _ _ => okCore c
  | .sstatIn c _ _ => okCore c
  | .vdopen c _ _ => okCore c
  | .vdecode c _ _ => okCore c
  | .vdstat c _ _ => okCore c
  | .vdclose c _ _ => okCore c
  | .vamo c _ _ => okCore c
  | .amo c _ _ => okCore c
  | .streamElementArrive t ch far _ => okTile t && decide (ch < 32) && okFar far
  | .streamCreditReturn t ch far => okTile t && decide (ch < 32) && okFar far
  | .channelReset m t _ ch _ => okMaster m && okTile t && decide (ch < 32)
  | .installProgram tag _ at' => okTag tag && okDpa at'
  | .programRemove tag => okTag tag
  | .run tag _ _ part => okTag tag && okPart part
  | .stagePlace tag _ _ _ => okTag tag
  | .stageStart tag gen => okTag tag && decide (gen < 16)
  | .runEnd tag _ _ => okTag tag
  | .runTimeLimit tag => okTag tag
  | .hostSinkWrite t ch far _ _ => okTile t && decide (ch < 32) && okFar far
  | .columnSinkWrite t ch far _ => okTile t && decide (ch < 32) && okFar far
  | .runCommit tag _ => okTag tag
  | .gaugeSearch m table rank _ _ => okMaster m && decide (table < 16) && decide (rank < 255)
  | .gaugeCreate m slot _ _ => okMaster m && decide (slot < 16)
  | .gaugeDestroy m slot _ => okMaster m && decide (slot < 16)
  | .gaugeSetAcl m slot _ => okMaster m && decide (slot < 16)
  | .gaugeWrite m slot _ _ far => okMaster m && decide (slot < 16) && okGaugeFar far
  | .gaugeSlotSearch m slot _ => okMaster m && decide (slot < 16)
  | .gaugeNext m slot _ => okMaster m && decide (slot < 16)
  | .gaugeReload m slot _ _ => okMaster m && decide (slot < 16)
  | .moveBank m slot _ => okMaster m && decide (slot < 16)
  | .gaugeRead m slot _ => okMaster m && decide (slot < 16)
  | .gaugeScrubStep _ => true
  | .gaugeBankRetire m _ => okMaster m
  | .gaugeShadowBaseWrite m _ _ => okMaster m
  | .stippleCompress e _ => decide (e < 16)
  | .stippleDecompress e => decide (e < 16)
  | .stippleEngineRetire m _ => okMaster m
  | .proofUpdate e slot => decide (e < 8) && decide (slot < 8)
  | .proofRead e slot => decide (e < 8) && decide (slot < 8)
  | .proofCompare e slot => decide (e < 8) && decide (slot < 8)
  | .proofSave e slot => decide (e < 8) && decide (slot < 8)
  | .proofRestore e slot => decide (e < 8) && decide (slot < 8)
  | .proofRelease e slot => decide (e < 8) && decide (slot < 8)
  | .proofQuantumEnd e => decide (e < 8)
  | .ringDoorbell m r _ => okMaster m && r.ok
  | .ringFetch r _ => r.ok
  | .ringCompletionPost r _ => r.ok
  | .ringCheadWrite m r _ => okMaster m && r.ok
  | .ringReset m r => okMaster m && r.ok
  | .dmaRunList ch _ => decide (ch < 64)
  | .dmaModeWrite m _ => okMaster m
  | .dmaTimerExpire t => decide (t < 16)
  | .dmaBurstPromote ch => decide (ch < 64)
  | .dmaRegGo m ch _ => okMaster m && decide (ch < 64)
  | .dmaRegDone ch _ => decide (ch < 64)
  | .spawn m slot _ => okMaster m && decide (slot < 17)
  | .wait m slot _ => okMaster m && decide (slot < 17)
  | .yield m slot _ => okMaster m && decide (slot < 17)
  | .exit m slot _ => okMaster m && decide (slot < 17)
  | .signal m slot _ => okMaster m && decide (slot < 17)
  | .kill m slot _ => okMaster m && decide (slot < 17)
  | .setprio m slot _ => okMaster m && decide (slot < 17)
  | .resume m slot _ => okMaster m && decide (slot < 17)
  | .hardwareEvent e => decide (e < 1024)
  | .threadPlace n => decide (n < 16)
  | .preempt n => decide (n < 16)
  | .coreRestart m n => okMaster m && decide (n < 16)
  | .hbmRead m dpa _ => okMaster m && okDpa dpa
  | .hbmWrite m dpa data _ => okMaster m && okDpa dpa && !data.isEmpty
  | .requestAgePromote mc => decide (mc < 64)
  | .stackTempRead k _ => decide (k < 4)
  | .stackSwitch m k => okMaster m && decide (k < 4)
  | .stackSwitchDone k => decide (k < 4)
  | .mcThaw m mc _ => okMaster m && decide (mc < 64)
  | .ppr m mc _ => okMaster m && decide (mc < 64)
  | .pprDone mc _ => decide (mc < 64)
  | .channelRetire m _ => okMaster m
  | .channelRetireDone => true
  | .mirrorEnable m n _ => okMaster m && decide (n < 8)
  | .mirrorSync m n => okMaster m && decide (n < 8)
  | .mirrorSyncDone n => decide (n < 8)
  | .patrolScrubStep mc _ => decide (mc < 64)
  | .cacheRequest r _ => r.ok
  | .scInvalidate m => okMaster m
  | .scEnable m => okMaster m
  | .scDisable m => okMaster m
  | .scDisableDone => true
  | .scRangeInvalidate m => okMaster m
  | .scRangeClean m => okMaster m
  | .scRangeCleanInvalidate m => okMaster m
  | .scRangeLockFill m => okMaster m
  | .scRangeDone => true
  | .l1Invalidate m t => okMaster m && okTile t
  | .l1Enable m t => okMaster m && okTile t
  | .flitRetransmit r port _ => decide (r < 64) && decide (port < 4)
  | .linkDead r port => decide (r < 64) && decide (port < 4)
  | .routerFreeze m r => okMaster m && decide (r < 64)
  | .routerUnfreeze m r => okMaster m && decide (r < 64)
  | .routerFreezeExpire r => decide (r < 64)
  | .routeWrite m r d _ => okMaster m && decide (r < 64) && decide (d < 64)
  | .linkFlitReceive port c => okPort port && c.ok
  | .nak port _ => okPort port
  | .replayTimeout port => okPort port
  | .portRetrain port => okPort port
  | .trainingAttemptEnd port _ => okPort port
  | .portRestore m port => okMaster m && okPort port
  | .portRetire m port => okMaster m && okPort port
  | .helloSend port => okPort port
  | .hello port k => okPort port && k.ok
  | .neighbourTimeout port => okPort port
  | .wardenElect warden _ => warden.all (fun w => decide (w < 262144))
  | .mgmtRead port k => okPort port && k.ok
  | .mgmtWrite port k => okPort port && k.ok
  | .mgmtRsp port k => okPort port && k.ok
  | .linkEvent port => okPort port
  | .routeSwap m => okMaster m
  | .hatchPacketForward port k => okPort port && k.ok
  | .packetPortTimeout port k => okPort port && k.ok
  | .hatchRead port k => okPort port && k.ok
  | .hatchWrite port k => okPort port && k.ok
  | .hatchSubmit port k => okPort port && k.ok
  | .hatchNotify port k => okPort port && k.ok
  | .hatchStream port k => okPort port && k.ok
  | .hatchStreamEnd port k => okPort port && k.ok
  | .readData port k => okPort port && k.ok
  | .hatchAck port k => okPort port && k.ok
  | .streamCredit port k => okPort port && k.ok
  | .remoteApertureRequest r => r.ok
  | .hatchJobRead ring _ => decide (ring < 32)
  | .hatchJobWrite ring _ => decide (ring < 32)
  | .hatchJobSubmit ring _ => decide (ring < 32)
  | .hatchJobNotify ring _ => decide (ring < 32)
  | .transactionTimeout tag => decide (tag < 65536)
  | .landingQueueReset m q => okMaster m && decide (q < 64)
  | .landingQueueHeadWrite m q _ => okMaster m && decide (q < 64)
  | .pairCommit m => okMaster m
  | .pairQueryRepeat port => okPort port
  | .pairCommitTimeout => true
  | .pairQuery port k => okPort port && k.ok
  | .pairReply port k => okPort port && k.ok
  | .pairNoticePowerFail port => okPort port
  | .pairNoticeFreeze port _ tag => okPort port && decide (tag < 65536)
  | .pairUnpair m => okMaster m
  | .pairForm => true
  | .pairFormTimeout => true
  | .halfLost => true
  | .backHostLinkPresent => true
  | .regionLoad m _ => okMaster m
  | .backgroundCopy chunk _ _ => decide (chunk < 98304)
  | .powerFailEtch _ => true
  | .etchGo m _ => okMaster m
  | .etchGoTimeout => true
  | .etchDeadline => true
  | .bankReserveReached => true
  | .etchComplete => true
  | .print _ _ => true
  | .reprint ring _ _ => decide (ring < 4)
  | .verify ring _ _ => decide (ring < 4)
  | .nvmeCommandComplete d _ => decide (d < 4)
  | .nvmeCommandTimeout d => decide (d < 4)
  | .smartPoll d _ _ _ _ _ => decide (d < 4)
  | .bankTestTimer => true
  | .bankTestDone usable esr => decide (usable < 65536) && decide (esr < 65536)
  | .domainPowerDown m d _ => okMaster m && decide (d < 17)
  | .drainTimeout d _ => decide (d < 17)
  | .domainPowerUp m d _ => okMaster m && decide (d < 17)
  | .domainPowerUpDone d => decide (d < 17)
  | .domainRequestHeld r => r.ok
  | .tileClockGate t => okTile t
  | .quadrantPllStop k => decide (k < 4)
  | .quadrantPllRelock k => decide (k < 4)
  | .vigilEnter m => okMaster m
  | .vigilExit => true
  | .wakeSource b => decide (b < 8)
  | .wakePattern port _ => okPort port
  | .keepaliveSend port => okPort port
  | .wakeSend m _ => okMaster m
  | .alarm => true
  | .supplyFailure => true
  | .thermalSample _ _ _ => true
  | .throttleStep k => decide (k < 4)
  | .frequencyPointChange k => decide (k < 4)
  | .orderlyReset m => okMaster m
  | .immediateReset m => okMaster m
  | .coldReset => true
  | .boot => true
  | .watchdogExpire => true
  | .watchdogKick m _ => okMaster m
  | .bootOk m _ => okMaster m
  | .modeEnter m _ => okMaster m
  | .recoveryGo m _ => okMaster m
  | .perst _ => true
  | .flr fn => okFunction fn
  | .hotReset => true
  | .linkDown => true
  | .sqKick m q => okMaster m && okPair q
  | .cqHead m q _ => okMaster m && okPair q
  | .sqFetch q _ _ _ tag => okPair q && okTag tag
  | .completionPost tag => okTag tag
  | .coalesceTimeout q => okPair q
  | .adminPairCreate fn => okFunction fn
  | .adminPairDelete fn => okFunction fn
  | .clampGrant tag => okTag tag
  | .clampTimeout tag => okTag tag
  | .identify tag => okTag tag
  | .getLog tag => okTag tag
  | .setFeature tag => okTag tag
  | .getFeature tag => okTag tag
  | .createQp tag => okTag tag
  | .deleteQp tag => okTag tag
  | .fwDownload tag _ => okTag tag
  | .fwCommit tag _ => okTag tag
  | .liveFirmwareUpdate tag _ _ => okTag tag
  | .abort tag => okTag tag
  | .tileService tag => okTag tag
  | .plateEtch tag _ => okTag tag
  | .plateBankTest tag => okTag tag
  | .plateInvalidate tag => okTag tag
  | .plateSanitize tag => okTag tag
  | .load tag _ _ _ => okTag tag
  | .loadPublishPhase tag => okTag tag
  | .patch tag _ _ _ => okTag tag
  | .exportRows tag => okTag tag
  | .publishEpoch tag => okTag tag
  | .publishCommit tag => okTag tag
  | .epochWithdraw tag => okTag tag
  | .plateMark tag => okTag tag
  | .tileRetire m _ _ _ => okMaster m
  | .insertion => true
  | .powerGood => true
  | .removal => true
  | .overcurrentCutoff => true
  | .cablePresence port _ => okPort port
  | .shed _ => true
  | .mctpControl _ => true
  | .mctpStatus _ => true
  | .sensorRead _ => true
  | .fruRead _ => true
  | .logRead _ => true
  | .regRead _ => true
  | .regWrite _ => true
  | .mctpReset _ => true
  | .i3cCcc _ _ => true
  | .jtagInstruction insn => insn.ok
  | .deadLinkAcknowledge r port => decide (r < 64) && decide (port < 4)
  | .hostCompletionTimeout what => what.ok
  | .freezeNoticeRepeat => true
  | .bankReady joules _ => decide (joules < 65536)
  | .auxiliaryInputChange _ => true
  | .hrefclkChange _ => true
  | .scInvalidateDone => true
  | .l1InvalidateDone t => okTile t
  | .vigilEntryDone _ => true
  | .moveBankSwitch slot => decide (slot < 16)

end Sys2Proof
end

