-- ==== Sys2Proof/Machine/Access.lean ====
section
/-! DEFINITION. How commands enter the block: a register access that has been admitted (R5, R7, R8, R442), the host's accesses
through its three BARs (R30 to R32, R35), and the conditions under which the events of the units occur. -/

namespace Sys2Proof.Machine

/-- What follows every command's effect `t`: the dispatcher takes its turn (R306), the queue is what it was, and Guard looks at its
interrupt condition (R483). -/
def State.seal (s t : State) : State := State.guardEdge { t.dispatcherTurn with pending := s.pending }

/-- The outcome of a command: the state that its effect leaves, or, where its operands are out of their ranges, so that it names no
part of the block, the state it found. -/
def done (ok : Bool) (s t : State) : Host.Outcome State Fault Refusal := .next (if ok then s.seal t else s)

/-! Register accesses. -/

/-- An admitted access to the register at `off` reaches its unit, unless its domain holds it or is off (R442). -/
def State.arrive (s : State) (m off : Nat) (act : State → MemAnswer × State) : State :=
  match s.domainGate (.reg off) m (regDpa off) with
  | some (st, s) => s.mcAnswer (MemAnswer.stop st)
  | none =>
    let (a, s) := act (s.wakeTile (.reg off))
    s.mcAnswer a

/-- An admitted write of a word to the register at `off`. -/
def State.regPut (s : State) (m off : Nat) (v : Word) : State :=
  s.arrive m off (fun s => (MemAnswer.stop St.ok, bus.reg s m off v))

/-- An admitted write that is a command of the register's unit: the unit discards it in the states that its rule names, and
otherwise does it (R513). -/
def State.regDo (s : State) (m off : Nat) (act : State → State) : State :=
  s.arrive m off (fun s => (MemAnswer.stop St.ok, if s.regShut m off then s.refuse m off St.accessDenied else act s))

/-- An admitted read of the word at `off`. -/
def State.regGet (s : State) (m off : Nat) : State :=
  s.arrive m off (fun s =>
    let (d, s) := s.regReadBytes m off 4
    (⟨St.ok, d, false⟩, s))

/-- The word of a command of the register at `off`: its `keep` low bits, which are R/W, as they stand, and one field put in. -/
def State.cmdWord (s : State) (off keep hi lo v : Nat) : Word :=
  BitVec.ofNat 32 (setBits ((s.rd off).toNat % 2 ^ keep) hi lo v)

/-- The offset is the LO of a pair. -/
def pairLoAt (a : Nat) : Bool := isPairLo a

/-- The offset is the HI of a pair. -/
def pairHiAt (a : Nat) : Bool := 4 ≤ a && isPairLo (a - 4)

/-- PAIR_LO_READ, PAIR_HI_READ: a read of a half of a pair (R7). -/
def State.pairRead (s : State) (m a : Nat) (half : Bool) : State := if half then s.regGet m a else s

/-- PAIR_LO_WRITE, PAIR_HI_WRITE: a write of a half of a pair (R7). -/
def State.pairWrite (s : State) (m a : Nat) (half : Bool) (v : Word) : State := if half then s.regPut m a v else s

/-- UNALIGNED_REGISTER_ACCESS: a narrow or misaligned access (R8). -/
def State.narrowAccess (s : State) (m a len : Nat) (wr : Option (List Byte)) : State :=
  if len = 0 || (len = 4 && a % 4 = 0) || (len = 8 && a % 8 = 0) then s
  else
    s.arrive m a (fun s =>
      match wr with
      | none => (⟨St.ok, s.regPeek m a len, false⟩, s)
      | some d => (MemAnswer.stop St.ok, s.regWriteBytes bus m a d))

/-- TARGET_REQUEST: a request arrives, is judged and served (R34); `payload` is what the consumer's check of the packet's payload
finds. The consumer of a write's payload is the target, that of a read's the master: a double error poisons the data, anything less
leaves them good (R41, R359). -/
def State.targetRequest (s : State) (r : Request) (payload : Ecc) : State :=
  let bad : Bool := payload = .uncorrectable
  let (a, s) := s.request bus r bad
  s.mcAnswer { a with poison := a.poison || (bad && a.status = St.ok && !a.data.isEmpty) }

/-! The host's accesses. -/

/-- How a function identifies itself to the host (R15, R223). -/
structure PciId where
  vendor : Nat
  device : Nat
  classCode : Nat
  revision : Nat
  subVendor : Nat
  subsystem : Nat
  deriving DecidableEq, Repr

/-- The identity of function `fn`: a VF's differs in its device ID alone (R223). -/
def State.pciId (s : State) (fn : Nat) : PciId where
  vendor := 0x1CA7
  device := if fn = 0 then 0x9440 else 0x9441
  classCode := 0x120000
  revision := 16 * s.fld Reg.GLB_IDENT_HI 3 0 + s.fld Reg.GLB_IDENT_HI 7 4
  subVendor := 0x1CA7
  subsystem := 0x9440

/-- The request that a host access makes. -/
def hostRequest (fn dpa len : Nat) (wr : Option (List Byte)) : Request :=
  { master := fn, dpa := dpa, len := len, kind := if wr.isSome then .write else .read, data := wr.getD [], stream := false }

/-- The answer on the link: a read that fails is aborted and reported through AER, and poisoned data keep their mark (R35, R41). -/
def State.hostAnswer (s : State) (fn : Nat) (read : Bool) (a : MemAnswer) : State :=
  let abort := read && a.status ≠ St.ok && a.status ≠ St.held
  let s := if abort then s.aer fn .completerAbort else s
  { s with answer := ⟨a.status, a.data, abort, read && a.poison⟩ }

/-- An access that passes its first table goes on to its target. -/
def State.hostGo (s : State) (r : Request) : State :=
  let (a, s) := s.request bus r false
  s.hostAnswer r.master (r.kind = .read) a

/-- The first of two checks, at table `t` (R32). -/
def State.hostFirst (s : State) (t : Nat) (r : Request) : State :=
  let (v, s) := s.judge t r.master r.dpa r.len ((s.region r.dpa r.len).rights r)
  if v ≠ St.ok then s.hostAnswer r.master (r.kind = .read) (MemAnswer.stop v) else s.hostGo r

/-- BAR0_ACCESS: tables 0x06 and the register's own (R30, R32). -/
def State.bar0 (s : State) (fn off len : Nat) (wr : Option (List Byte)) : State :=
  if s.hostUp fn then s.hostFirst 0x06 (hostRequest fn (0x20000000000 + off) len wr) else s

/-- BAR2_ACCESS: table 0x07 (R30, R32). -/
def State.bar2 (s : State) (fn off len : Nat) (wr : Option (List Byte)) : State :=
  if s.hostUp fn then s.hostGo (hostRequest fn (0x20001000000 + off) len wr) else s

/-- The map entry of a function's BAR4 offset (R30). -/
def bar4Entry (fn off : Nat) : Nat := if fn = 0 then off / 2 ^ 32 % 16 else 15 + fn

/-- A BAR4 access that its map entry stops (R31). -/
def State.bar4Stop (s : State) (fn entry st : Nat) (read : Bool) : State :=
  (s.report
    { status := st, target := Tgt.hlu, severity := 2, master := fn, address := 0, tag := 0xFFFF,
      detail := entry }).hostAnswer fn read (MemAnswer.stop st)

/-- A region that BAR4 must not reach (R32). -/
def Region.shutToBar4 : Region → Bool
  | .reg _ | .peerTil _ | .door _ | .rom _ | .keep _ | .remote _ _ => true
  | _ => false

/-- BAR4_ACCESS: the map entry, table 0x08, then the target's own table (R30 to R32). -/
def State.bar4 (s : State) (fn off len : Nat) (wr : Option (List Byte)) : State :=
  let n := bar4Entry fn off
  let e := s.rd64 (Reg.GLB_B4MAP_LO n)
  if !s.hostUp fn then s
  else if !cp32Ok e then s.bar4Stop fn n St.complementMismatch wr.isNone
  else if !e.testBit 31 then s.bar4Stop fn n St.accessDenied wr.isNone
  else
    let r := hostRequest fn (2 ^ 30 * bits e 17 0 + off % 2 ^ 32) len wr
    match s.region r.dpa len with
    | .unmapped => s.hostGo r
    | g =>
      if g.shutToBar4 then
        let (a, s) := s.denyAt 0x08 fn r.dpa
        s.hostAnswer fn wr.isNone a
      else s.hostFirst 0x08 r

/-! Conditions of the units' events. -/

/-- A report enters Guard (R44). An uncorrectable error of a bench poisons its granule (R41), and a tile's third within 24 h marks
the tile failing (R480). -/
def State.guardReport (s : State) (r : Report) : State :=
  let s := s.report r
  match (List.range 64).find? (fun n => Tgt.tile (s.pairTile n) = r.target) with
  | some n =>
    if r.status = St.poisonedData && r.severity = 2 then
      let now := s.time.toNat
      let hits := (FMap.getD s.boot.benchErrors n).filter (fun t => decide (now < t + dayNs)) ++ [now]
      let s : State := { s with boot := { s.boot with benchErrors := FMap.setD s.boot.benchErrors n hits } }
      let s := s.setMark (benchAt n (r.address % 0x200000) / 64) true
      if 3 ≤ hits.length then
        (s.setFld (if n < 32 then Reg.GLB_TILE_FAILING_LO else Reg.GLB_TILE_FAILING_HI) (n % 32) (n % 32) 1).guardEdge
      else s
    else s
  | none => s

/-- What happens at this module's own tile of a pair tile number; the other half's tiles are not here (R172). -/
def State.onTile (s : State) (t : Nat) (f : Nat → State) : State :=
  match s.localTile t with
  | some n => f n
  | none => s

/-- An answer to an earlier store arrives at a running core (R93). A halting tile takes the exception once its other stores have
performed, at its halt (R96). -/
def State.impreciseArrive (s : State) (c : Nat) : State :=
  match (s.core c).imprecise with
  | some i => if s.running c && !(c < 64 && s.tileHalting c) then s.raiseImprecise c i else s
  | none => s

/-- TILn_L1_CTL as it stands, with INV, or with EN set. -/
def State.l1Word (s : State) (n : Nat) (inv : Bool) : Word :=
  if inv then s.cmdWord (Reg.TIL_L1_CTL n) 2 2 2 1 else s.cmdWord (Reg.TIL_L1_CTL n) 2 0 0 1

/-- A stream message of the mesh, or one from the other half, for channel `ch` of tile `t` arrives, unless the mesh or the
stopped PLL of the tile's quadrant holds it (R358, R360, R447). -/
def State.nocArrive (s : State) (t ch : Nat) (far : Option NocMsg) (p : NocMsg → Bool)
    (act : State → Nat → NocMsg → State) : State :=
  s.onTile t (fun n =>
    if s.pllStopped n then s
    else
      match far with
      | some m => if m.kind = 0 && m.tile = t && m.ch = ch && p m then act s n m else s
      | none =>
        match s.takeNoc (fun m =>
          m.kind = 0 && m.tile = t && m.ch = ch && p m && !(m.sender < 64 && s.meshHolds m.sender n)) with
        | some (m, s) => act s n m
        | none => s)

/-- STREAM_ELEMENT_ARRIVE (R163), `payload` being what the tile's check of the elements finds (R359). -/
def State.elementArrive (s : State) (t ch : Nat) (far : Option NocMsg) (payload : Ecc) : State :=
  s.nocArrive t ch far nocForward (fun s n m => s.streamArrive n ch m.gen (checkedBody payload m.body))

/-- STREAM_CREDIT_RETURN (R162). -/
def State.creditReturn (s : State) (t ch : Nat) (far : Option NocMsg) : State :=
  s.nocArrive t ch far (fun m => !nocForward m) (fun s n m =>
    match m.body with
    | .credit k => s.creditArrive n ch m.gen k
    | _ => s)

/-- The program of a RUN builds an output table (R167). -/
def State.runTableOut (s : State) (tag : Nat) : Bool :=
  match s.run tag with
  | some r => imgTableOut (s.runImage r)
  | none => false

/-- The match that a search of rank `rank` finds has a parity error in its readout (R182). -/
def State.gaugeSpoil (s : State) (t rank : Nat) (key : List DWord) : State :=
  match (s.gMatches t key)[rank]? with
  | some m =>
    let j := m.index * s.gWidth t
    s.setGRow m.bank j { s.gRow m.bank j with bad := true }
  | none => s

/-- GAUGE_SEARCH: a search arrives at a table (R178, R179, R181, R182); a table that does not exist and a key of another width are
answered INVALID_FIELD. The searches of a pair arrive at its FRONT (R190). -/
def State.gaugeArrive (s : State) (m t rank : Nat) (key : List DWord) (parity : Bool) : State :=
  if s.role = some true then s
  else
    s.arrive m 0x350000 (fun s =>
      if !s.gTable t || key.length ≠ s.gWidth t then (MemAnswer.stop St.invalidField, s)
      else
        let s := if parity && !s.arbFrozen 3 then s.gaugeSpoil t rank key else s
        let (st, w, s) := s.gAsk ⟨t, m, some rank, key, none⟩
        (⟨st, if st = St.ok then natLE 8 w else [], false⟩, s))

/-- A slot command of the Gauge, written by the row of its opcode (R189); `back` is the status with which the other half answers its
share (R190). -/
def State.gaugeRow (s : State) (m slot op : Nat) (v : Word) (back : Nat) : State :=
  if v.toNat.testBit 31 && v.toNat % 256 = op then s.regDo m (Reg.GAU_SLOT_CMD slot) (fun s => s.gCommand m slot v back) else s

/-- What the FRONT has the BACK's Gauge hold arrives here (R190). -/
def State.gaugeCarried (s : State) (f : GaugeFar) : State :=
  if s.role ≠ some true then s
  else
    match f with
    | .row b j r =>
      let g := GRow.ofBytes r
      let (st, s) := s.gWriteShadow b j g
      if st = St.ok then s.setGRow b j g else s
    | .table t cfg banks acl =>
      let s := ((s.wr (Reg.GAU_TBL_CFG t) cfg).wr (Reg.GAU_TBL_BANKS t) banks).wr (Reg.GAU_TBL_ACL t) acl
      (s.setFld Reg.GAU_STATUS t t (bit01 (cfg.toNat.testBit 31))).gFreeBanks

/-- A slot command of the dispatcher, written by the row of its opcode (R308). -/
def State.slotRow (s : State) (m slot op : Nat) (v : Word) : State :=
  if v.toNat.testBit 31 && v.toNat % 16 = op then s.regDo m (Reg.HDS_SLOT_CMD slot) (fun s => s.slotCommand m slot v) else s

/-- A request that has reached a controller whose stack is on (R442). -/
def State.atController (s : State) (m dpa : Nat) (act : State → State) : State :=
  if 0x3000000000 ≤ dpa then (s.unmapped m dpa).mcAnswer (MemAnswer.stop St.accessDenied)
  else
    match s.domainGate (.hbm dpa) m dpa with
    | some (st, s) => s.mcAnswer (MemAnswer.stop st)
    | none => act s

/-- A packet that port `p` brings in, or one of the module's own to itself, for the row of an OP: a packet of another row's OP is
no command of this one (R379, R383). -/
def State.packetIn (s : State) (p op : Nat) (k : Packet) (act : State → State) : State :=
  if s.domState 12 ≠ 0 || (s.portState p ≠ 2 && s.portState p ≠ 5 && s.ownFid ≠ some k.src) then s
  else if k.op ≠ op && (opVc k.op).isSome then s
  else act s

/-- READ_DATA and ACK: a response for this module, or one to pass on (R384). -/
def State.responseIn (s : State) (op : Nat) (k : Packet) : State :=
  match s.notHere k op with
  | some s => s
  | none => s.response bus k

/-- An auto-wake of domain `d` (R442). -/
def State.autoWake (s : State) (d : Nat) : State :=
  if s.domState d = 2 && s.bit (Reg.STY_DOM_CTL d) 0 then s.powerUp d else s

/-- DOMAIN_POWER_DOWN: OFF = 1 by master `m`, the drain having ended in time or not (R441). -/
def State.domainOff (s : State) (m d : Nat) (drained : Bool) : State :=
  (s.domCtl m d (s.cmdWord (Reg.STY_DOM_CTL d) 1 31 31 1) drained).mcAnswer (MemAnswer.stop St.ok)

/-- DOMAIN_REQUEST_HELD: a request whose domain is not on (R442). -/
def State.heldRequest (s : State) (r : Request) : State :=
  if s.domState (s.domainOf (s.region r.dpa r.len)) = 0 then s else s.targetRequest r .clean

/-- REMOTE_APERTURE_REQUEST (R384). -/
def State.apertureRequest (s : State) (r : Request) : State :=
  match s.region r.dpa r.len with
  | .remote _ _ => s.targetRequest r .clean
  | _ => s

/-- An admitted write of a doorbell (R228, R235). -/
def State.doorDo (s : State) (m off : Nat) (act : State → State) : State :=
  match s.domainGate (.door off) m (0x20001000000 + off) with
  | some (st, s) => s.mcAnswer (MemAnswer.stop st)
  | none => (act s).mcAnswer (MemAnswer.stop St.ok)

end Sys2Proof.Machine
end

