-- ==== Sys2Proof/Machine/AccessRows.lean ====
section
/-! DEFINITION. The commands of the address space, of register access and of Guard (R5 to R44), and of the catalog's storage (R60, R61). One definition for each command: its
effect on a well-formed command, as the functions of the units have it. -/

namespace Sys2Proof.Machine

/-- REGISTER_WRITE (R5). -/
def execRegisterWrite (m a : Nat) (v : Word) (s : State) : Host.Outcome State Fault Refusal :=
  done (okMaster m && okReg a) s (s.regPut m a v)

/-- PAIR_LO_READ (R7). -/
def execPairLoRead (m a : Nat) (s : State) : Host.Outcome State Fault Refusal :=
  done (okMaster m && okReg a) s (s.pairRead m a (pairLoAt a))

/-- PAIR_HI_READ (R7). -/
def execPairHiRead (m a : Nat) (s : State) : Host.Outcome State Fault Refusal :=
  done (okMaster m && okReg a) s (s.pairRead m a (pairHiAt a))

/-- PAIR_LO_WRITE (R7). -/
def execPairLoWrite (m a : Nat) (v : Word) (s : State) : Host.Outcome State Fault Refusal :=
  done (okMaster m && okReg a) s (s.pairWrite m a (pairLoAt a) v)

/-- PAIR_HI_WRITE (R7). -/
def execPairHiWrite (m a : Nat) (v : Word) (s : State) : Host.Outcome State Fault Refusal :=
  done (okMaster m && okReg a) s (s.pairWrite m a (pairHiAt a) v)

/-- UNALIGNED_REGISTER_ACCESS (R8). -/
def execUnalignedRegisterAccess (m a len : Nat) (wr : Option (List Byte)) (s : State) : Host.Outcome State Fault Refusal :=
  done (okMaster m && okReg a && okAccess 8 len wr) s (s.narrowAccess m a len wr)

/-- TARGET_REQUEST (R34). -/
def execTargetRequest (r : Request) (payload : Ecc) (s : State) : Host.Outcome State Fault Refusal :=
  done r.ok s (s.targetRequest r payload)

/-- BAR4_ACCESS (R32). -/
def execBar4Access (fn off len : Nat) (wr : Option (List Byte)) (s : State) : Host.Outcome State Fault Refusal :=
  done (okFunction fn && okSlice fn off && decide (off % 4096 + len < 4097) && okAccess 4096 len wr) s (s.bar4 fn off len wr)

/-- BAR0_ACCESS (R32). -/
def execBar0Access (fn off len : Nat) (wr : Option (List Byte)) (s : State) : Host.Outcome State Fault Refusal :=
  done (okFunction fn && okReg off && okAccess 8 len wr) s (s.bar0 fn off len wr)

/-- BAR2_ACCESS (R32). -/
def execBar2Access (fn off len : Nat) (wr : Option (List Byte)) (s : State) : Host.Outcome State Fault Refusal :=
  done (okFunction fn && decide (off < 524288) && okAccess 8 len wr) s (s.bar2 fn off len wr)

/-- AFFINITY_WRITE (R29). -/
def execAffinityWrite (m n : Nat) (v : Word) (s : State) : Host.Outcome State Fault Refusal :=
  done (okMaster m && decide (n < 8)) s (s.regDo m (Reg.GLB_AFF n) (fun s => s.affinityWrite m n v))

/-- GRANT_WRITE (R37). -/
def execGrantWrite (m t g k : Nat) (v : Word) (s : State) : Host.Outcome State Fault Refusal :=
  done (okMaster m && decide (t < 12) && decide (g < 128) && decide (k < 6)) s (s.regPut m (grantAt t g + 4 * k) v)

/-- GUARD_REPORT (R44). -/
def execGuardReport (r : Report) (s : State) : Host.Outcome State Fault Refusal :=
  done r.ok s (s.guardReport r)

/-- STORAGE_RECLAIM (R60). -/
def execStorageReclaim (s : State) : Host.Outcome State Fault Refusal :=
  done true s (if s.catalogHeld then s else s.reclaim)

/-- SEGMENT_REPLACE (R61). -/
def execSegmentReplace (table col seg : Nat) (codec : BitVec 64) (stored : List Byte) (at' : Nat) (s : State) : Host.Outcome State Fault Refusal :=
  done (decide (table < 16777216) && decide (col < 4098) && decide (seg < 4294967296) && okDpa at') s
    (if s.catalogHeld then s else s.segReplace table col seg codec.toNat at' stored)

end Sys2Proof.Machine
end

