-- ==== Sys2Proof/Machine/AnalyticRows.lean ====
section
/-! DEFINITION. The analytic instructions (R131 to R151). One definition for each command: its
effect on a well-formed command, as the functions of the units have it. -/

namespace Sys2Proof.Machine

/-- VCOMPRESS (R131). -/
def execVcompress (c : Nat) (pfx : Option Word) (w : Word) (s : State) : Host.Outcome State Fault Refusal :=
  done (okCore c) s (s.runRow bus c pfx w (isFn 0x40 0 0) vcompressInsn)

/-- VEXPAND (R131). -/
def execVexpand (c : Nat) (pfx : Option Word) (w : Word) (s : State) : Host.Outcome State Fault Refusal :=
  done (okCore c) s (s.runRow bus c pfx w (isFn 0x40 1 1) vexpandInsn)

/-- VHASH (R132). -/
def execVhash (c : Nat) (pfx : Option Word) (w : Word) (s : State) : Host.Outcome State Fault Refusal :=
  done (okCore c) s (s.runRow bus c pfx w (isFn 0x41 0 1) vhashInsn)

/-- VSORT (R133). -/
def execVsort (c : Nat) (pfx : Option Word) (w : Word) (s : State) : Host.Outcome State Fault Refusal :=
  done (okCore c) s (s.runRow bus c pfx w (isFn 0x42 0 1) vsortInsn)

/-- VSORTKV (R133). -/
def execVsortkv (c : Nat) (pfx : Option Word) (w : Word) (s : State) : Host.Outcome State Fault Refusal :=
  done (okCore c) s (s.runRow bus c pfx w (isFn 0x42 2 3) vsortkvInsn)

/-- VMERGE (R134). -/
def execVmerge (c : Nat) (pfx : Option Word) (w : Word) (s : State) : Host.Outcome State Fault Refusal :=
  done (okCore c) s (s.runRow bus c pfx w (isFn 0x42 4 5) vmergeInsn)

/-- VRED (R135). -/
def execVred (c : Nat) (pfx : Option Word) (w : Word) (s : State) : Host.Outcome State Fault Refusal :=
  done (okCore c) s (s.runRow bus c pfx w (isFn 0x43 0 8) vredInsn)

/-- VSRED (R136). -/
def execVsred (c : Nat) (pfx : Option Word) (w : Word) (s : State) : Host.Outcome State Fault Refusal :=
  done (okCore c) s (s.runRow bus c pfx w (isFn 0x43 0x10 0x18) vsredInsn)

/-- VPACK (R137). -/
def execVpack (c : Nat) (pfx : Option Word) (w : Word) (s : State) : Host.Outcome State Fault Refusal :=
  done (okCore c) s (s.runRow bus c pfx w (isFn 0x44 0 0) vpackInsn)

/-- VUNPACK (R137). -/
def execVunpack (c : Nat) (pfx : Option Word) (w : Word) (s : State) : Host.Outcome State Fault Refusal :=
  done (okCore c) s (s.runRow bus c pfx w (isFn 0x44 1 1) vunpackInsn)

/-- VSTRCMP (R138). -/
def execVstrcmp (c : Nat) (pfx : Option Word) (w : Word) (s : State) : Host.Outcome State Fault Refusal :=
  done (okCore c) s (s.runRow bus c pfx w (isFn 0x45 0 0) vstrcmpInsn)

/-- VSTRCMP_C (R138). -/
def execVstrcmpC (c : Nat) (pfx : Option Word) (w : Word) (s : State) : Host.Outcome State Fault Refusal :=
  done (okCore c) s (s.runRow bus c pfx w (isFn 0x45 1 1) vstrcmpCInsn)

/-- VSTRCMP_PREDICATE (R138). -/
def execVstrcmpPredicate (c : Nat) (pfx : Option Word) (w : Word) (s : State) : Host.Outcome State Fault Refusal :=
  done (okCore c) s (s.runRow bus c pfx w (isFn 0x45 8 0xD) vstrcmpPredInsn)

/-- VHIST (R139). -/
def execVhist (c : Nat) (pfx : Option Word) (w : Word) (s : State) : Host.Outcome State Fault Refusal :=
  done (okCore c) s (s.runRow bus c pfx w (isFn 0x46 0 1) vhistInsn)

/-- VHISTADD64 (R139). -/
def execVhistadd64 (c : Nat) (pfx : Option Word) (w : Word) (s : State) : Host.Outcome State Fault Refusal :=
  done (okCore c) s (s.runRow bus c pfx w (isFn 0x46 2 2) vhistaddInsn)

/-- VGAUGE (R140). -/
def execVgauge (c : Nat) (pfx : Option Word) (w : Word) (s : State) : Host.Outcome State Fault Refusal :=
  done (okCore c) s (s.runRow bus c pfx w (isFn 0x47 0 0) vgaugeInsn)

/-- VSEND (R142). -/
def execVsend (c : Nat) (pfx : Option Word) (w : Word) (s : State) : Host.Outcome State Fault Refusal :=
  done (okCore c) s (s.runRow bus c pfx w (isFn 0x48 0 0) vsendInsn)

/-- VRECV (R143). -/
def execVrecv (c : Nat) (pfx : Option Word) (w : Word) (s : State) : Host.Outcome State Fault Refusal :=
  done (okCore c) s (s.runRow bus c pfx w (isFn 0x48 1 1) vrecvInsn)

/-- SCLOSE (R144). -/
def execSclose (c : Nat) (pfx : Option Word) (w : Word) (s : State) : Host.Outcome State Fault Refusal :=
  done (okCore c) s (s.runRow bus c pfx w (isFn 0x48 2 2) scloseInsn)

/-- SSTAT_OUT (R144). -/
def execSstatOut (c : Nat) (pfx : Option Word) (w : Word) (s : State) : Host.Outcome State Fault Refusal :=
  done (okCore c) s (s.runRow bus c pfx w (isFn 0x48 3 3) sstatOutInsn)

/-- SSTAT_IN (R144). -/
def execSstatIn (c : Nat) (pfx : Option Word) (w : Word) (s : State) : Host.Outcome State Fault Refusal :=
  done (okCore c) s (s.runRow bus c pfx w (isFn 0x48 4 4) sstatInInsn)

/-- VDOPEN (R145). -/
def execVdopen (c : Nat) (pfx : Option Word) (w : Word) (s : State) : Host.Outcome State Fault Refusal :=
  done (okCore c) s (s.runRow bus c pfx w (isFn 0x49 0 0) vdopenInsn)

/-- VDECODE (R146). -/
def execVdecode (c : Nat) (pfx : Option Word) (w : Word) (s : State) : Host.Outcome State Fault Refusal :=
  done (okCore c) s (s.runRow bus c pfx w (isFn 0x49 1 1) vdecodeInsn)

/-- VDSTAT (R146). -/
def execVdstat (c : Nat) (pfx : Option Word) (w : Word) (s : State) : Host.Outcome State Fault Refusal :=
  done (okCore c) s (s.runRow bus c pfx w (isFn 0x49 2 2) vdstatInsn)

/-- VDCLOSE (R146). -/
def execVdclose (c : Nat) (pfx : Option Word) (w : Word) (s : State) : Host.Outcome State Fault Refusal :=
  done (okCore c) s (s.runRow bus c pfx w (isFn 0x49 3 3) vdcloseInsn)

/-- VAMO (R151). -/
def execVamo (c : Nat) (pfx : Option Word) (w : Word) (s : State) : Host.Outcome State Fault Refusal :=
  done (okCore c) s (s.runRow bus c pfx w (isMajor 0x4A 0x4A) vamoInsn)

/-- AMO (R149). -/
def execAmo (c : Nat) (pfx : Option Word) (w : Word) (s : State) : Host.Outcome State Fault Refusal :=
  done (okCore c) s (s.runRow bus c pfx w (isMajor 0x4B 0x4B) amoInsn)

end Sys2Proof.Machine
end

