-- ==== Sys2Proof/Machine/CommandRows.lean ====
section
/-! DEFINITION. The admin and I/O commands of the queues (R54 to R57, R261 to R275, R486, R487). One definition for each command: its
effect on a well-formed command, as the functions of the units have it. -/

namespace Sys2Proof.Machine

/-- IDENTIFY (R261). -/
def execIdentify (tag : Nat) (s : State) : Host.Outcome State Fault Refusal :=
  done (okTag tag) s (s.identify tag)

/-- GET_LOG (R262). -/
def execGetLog (tag : Nat) (s : State) : Host.Outcome State Fault Refusal :=
  done (okTag tag) s (s.getLog tag)

/-- SET_FEATURE (R263). -/
def execSetFeature (tag : Nat) (s : State) : Host.Outcome State Fault Refusal :=
  done (okTag tag) s (s.setFeature tag)

/-- GET_FEATURE (R263). -/
def execGetFeature (tag : Nat) (s : State) : Host.Outcome State Fault Refusal :=
  done (okTag tag) s (s.getFeature tag)

/-- CREATE_QP (R261). -/
def execCreateQp (tag : Nat) (s : State) : Host.Outcome State Fault Refusal :=
  done (okTag tag) s (s.createQp tag)

/-- DELETE_QP (R246). -/
def execDeleteQp (tag : Nat) (s : State) : Host.Outcome State Fault Refusal :=
  done (okTag tag) s (s.deleteQp tag)

/-- FW_DOWNLOAD (R264). -/
def execFwDownload (tag : Nat) (data : HostRead) (s : State) : Host.Outcome State Fault Refusal :=
  done (okTag tag) s (s.fwDownload tag data)

/-- FW_COMMIT (R264). -/
def execFwCommit (tag : Nat) (store : BitVec 16) (s : State) : Host.Outcome State Fault Refusal :=
  done (okTag tag) s (s.fwCommit tag store.toNat)

/-- LIVE_FIRMWARE_UPDATE (R487). -/
def execLiveFirmwareUpdate (tag : Nat) (taken : Bool) (store : BitVec 16) (s : State) : Host.Outcome State Fault Refusal :=
  done (okTag tag) s (s.liveUpdate tag taken store.toNat)

/-- ABORT (R275). -/
def execAbort (tag : Nat) (s : State) : Host.Outcome State Fault Refusal :=
  done (okTag tag) s (s.abort tag)

/-- TILE_SERVICE (R265). -/
def execTileService (tag : Nat) (s : State) : Host.Outcome State Fault Refusal :=
  done (okTag tag) s (s.tileService tag)

/-- LOAD (R269). -/
def execLoad (tag : Nat) (dir : HostRead) (cols : List HostRead) (room : Option Room) (s : State) : Host.Outcome State Fault Refusal :=
  done (okTag tag) s (s.loadCmd tag dir cols room)

/-- LOAD_PUBLISH_PHASE (R54). -/
def execLoadPublishPhase (tag : Nat) (s : State) : Host.Outcome State Fault Refusal :=
  done (okTag tag) s (s.publishPhase tag)

/-- PATCH (R270). -/
def execPatch (tag : Nat) (dir : HostRead) (cols : List HostRead) (room : Option Room) (s : State) : Host.Outcome State Fault Refusal :=
  done (okTag tag) s (s.patchCmd tag dir cols room)

/-- EXPORT (R271). -/
def execExportRows (tag : Nat) (s : State) : Host.Outcome State Fault Refusal :=
  done (okTag tag) s (s.exportTable tag)

/-- PUBLISH_EPOCH (R56). -/
def execPublishEpoch (tag : Nat) (s : State) : Host.Outcome State Fault Refusal :=
  done (okTag tag) s (s.publishEpoch tag)

/-- PUBLISH_COMMIT (R56). -/
def execPublishCommit (tag : Nat) (s : State) : Host.Outcome State Fault Refusal :=
  done (okTag tag) s (s.publishCommit tag)

/-- EPOCH_WITHDRAW (R57). -/
def execEpochWithdraw (tag : Nat) (s : State) : Host.Outcome State Fault Refusal :=
  done (okTag tag) s (s.epochWithdraw tag)

/-- PLATE_MARK (R274). -/
def execPlateMark (tag : Nat) (s : State) : Host.Outcome State Fault Refusal :=
  done (okTag tag) s (s.plateMark tag)

/-- TILE_RETIRE (R486). -/
def execTileRetire (m : Nat) (hi : Bool) (v : Word) (back : Bool) (s : State) : Host.Outcome State Fault Refusal :=
  done (okMaster m) s
    (if back then s.peerRetire (if hi then 2 ^ 32 * v.toNat else v.toNat) s.tileHeld
     else s.regPut m (if hi then Reg.GLB_TILE_RETIRED_HI else Reg.GLB_TILE_RETIRED_LO) v)

end Sys2Proof.Machine
end

