-- ==== Sys2Proof/Machine/EngineRows.lean ====
section
/-! DEFINITION. The Gauge, Stipple and Proof, the work rings and the DMA engine (R177 to R296). One definition for each command: its
effect on a well-formed command, as the functions of the units have it. -/

namespace Sys2Proof.Machine

/-- GAUGE_SEARCH (R179). -/
def execGaugeSearch (m table rank : Nat) (key : List (BitVec 64)) (parity : Bool) (s : State) : Host.Outcome State Fault Refusal :=
  done (okMaster m && decide (table < 16) && decide (rank < 255)) s (s.gaugeArrive m table rank key parity)

/-- GAUGE_CREATE (R177). -/
def execGaugeCreate (m slot : Nat) (v : Word) (back : BitVec 16) (s : State) : Host.Outcome State Fault Refusal :=
  done (okMaster m && decide (slot < 16)) s (s.gaugeRow m slot 1 v back.toNat)

/-- GAUGE_DESTROY (R189). -/
def execGaugeDestroy (m slot : Nat) (v : Word) (s : State) : Host.Outcome State Fault Refusal :=
  done (okMaster m && decide (slot < 16)) s (s.gaugeRow m slot 2 v St.ok)

/-- GAUGE_SET_ACL (R178). -/
def execGaugeSetAcl (m slot : Nat) (v : Word) (s : State) : Host.Outcome State Fault Refusal :=
  done (okMaster m && decide (slot < 16)) s (s.gaugeRow m slot 3 v St.ok)

/-- GAUGE_WRITE (R184). -/
def execGaugeWrite (m slot : Nat) (v : Word) (back : BitVec 16) (far : Option GaugeFar) (s : State) :
    Host.Outcome State Fault Refusal :=
  done (okMaster m && decide (slot < 16) && okGaugeFar far) s
    (match far with
     | some f => s.gaugeCarried f
     | none => s.gaugeRow m slot 4 v back.toNat)

/-- GAUGE_SLOT_SEARCH (R179). -/
def execGaugeSlotSearch (m slot : Nat) (v : Word) (s : State) : Host.Outcome State Fault Refusal :=
  done (okMaster m && decide (slot < 16)) s (s.gaugeRow m slot 5 v St.ok)

/-- GAUGE_NEXT (R189). -/
def execGaugeNext (m slot : Nat) (v : Word) (s : State) : Host.Outcome State Fault Refusal :=
  done (okMaster m && decide (slot < 16)) s (s.gaugeRow m slot 6 v St.ok)

/-- GAUGE_RELOAD (R185). -/
def execGaugeReload (m slot : Nat) (v : Word) (back : BitVec 16) (s : State) : Host.Outcome State Fault Refusal :=
  done (okMaster m && decide (slot < 16)) s (s.gaugeRow m slot 7 v back.toNat)

/-- MOVE_BANK (R188). -/
def execMoveBank (m slot : Nat) (v : Word) (s : State) : Host.Outcome State Fault Refusal :=
  done (okMaster m && decide (slot < 16)) s (s.gaugeRow m slot 8 v St.ok)

/-- GAUGE_READ (R189). -/
def execGaugeRead (m slot : Nat) (v : Word) (s : State) : Host.Outcome State Fault Refusal :=
  done (okMaster m && decide (slot < 16)) s (s.gaugeRow m slot 9 v St.ok)

/-- GAUGE_SCRUB_STEP (R186). -/
def execGaugeScrubStep (bad : List Nat) (s : State) : Host.Outcome State Fault Refusal :=
  done true s (s.gScrubStep bad)

/-- GAUGE_BANK_RETIRE (R188). -/
def execGaugeBankRetire (m : Nat) (v : Word) (s : State) : Host.Outcome State Fault Refusal :=
  done (okMaster m) s (s.regDo m Reg.GAU_BANK_RETIRED (fun s => s.gRetire m v))

/-- GAUGE_SHADOW_BASE_WRITE (R192). -/
def execGaugeShadowBaseWrite (m : Nat) (hi : Bool) (v : Word) (s : State) : Host.Outcome State Fault Refusal :=
  done (okMaster m) s (s.regPut m (if hi then Reg.GAU_SHADOW_BASE_HI else Reg.GAU_SHADOW_BASE_LO) v)

/-- MOVE_BANK_SWITCH (R188). -/
def execMoveBankSwitch (slot : Nat) (s : State) : Host.Outcome State Fault Refusal :=
  done (decide (slot < 16)) s (s.gSwitch slot)

/-- STIPPLE_COMPRESS (R205). -/
def execStippleCompress (e : Nat) (frame : List Byte) (s : State) : Host.Outcome State Fault Refusal :=
  done (decide (e < 16)) s (match s.stpJob e 1 with | some j => s.stpCompress s.rev21 j frame | none => s)

/-- STIPPLE_DECOMPRESS (R205). -/
def execStippleDecompress (e : Nat) (s : State) : Host.Outcome State Fault Refusal :=
  done (decide (e < 16)) s (match s.stpJob e 2 with | some j => s.stpDecompress bus s.rev21 j | none => s)

/-- STIPPLE_ENGINE_RETIRE (R209). -/
def execStippleEngineRetire (m : Nat) (v : Word) (s : State) : Host.Outcome State Fault Refusal :=
  done (okMaster m) s (s.regDo m Reg.STP_ENG_RETIRED (fun s => s.stpRetireWrite v))

/-- PROOF_UPDATE (R217). -/
def execProofUpdate (e slot : Nat) (s : State) : Host.Outcome State Fault Refusal :=
  done (decide (e < 8) && decide (slot < 8)) s (s.prfRun e slot 1 State.prfUpdate)

/-- PROOF_READ (R217). -/
def execProofRead (e slot : Nat) (s : State) : Host.Outcome State Fault Refusal :=
  done (decide (e < 8) && decide (slot < 8)) s (s.prfRun e slot 2 State.prfRead)

/-- PROOF_COMPARE (R217). -/
def execProofCompare (e slot : Nat) (s : State) : Host.Outcome State Fault Refusal :=
  done (decide (e < 8) && decide (slot < 8)) s (s.prfRun e slot 3 State.prfCompare)

/-- PROOF_SAVE (R219). -/
def execProofSave (e slot : Nat) (s : State) : Host.Outcome State Fault Refusal :=
  done (decide (e < 8) && decide (slot < 8)) s (s.prfRun e slot 4 State.prfSave)

/-- PROOF_RESTORE (R219). -/
def execProofRestore (e slot : Nat) (s : State) : Host.Outcome State Fault Refusal :=
  done (decide (e < 8) && decide (slot < 8)) s (s.prfRun e slot 5 State.prfRestore)

/-- PROOF_RELEASE (R217). -/
def execProofRelease (e slot : Nat) (s : State) : Host.Outcome State Fault Refusal :=
  done (decide (e < 8) && decide (slot < 8)) s (s.prfRun e slot 6 State.prfReleaseOp)

/-- PROOF_QUANTUM_END (R215). -/
def execProofQuantumEnd (e : Nat) (s : State) : Host.Outcome State Fault Refusal :=
  done (decide (e < 8)) s (s.prfQuantum e)

/-- RING_DOORBELL (R282). -/
def execRingDoorbell (m : Nat) (r : Ring) (_v : Word) (s : State) : Host.Outcome State Fault Refusal :=
  done (okMaster m && r.ok) s (s.regDo m (ringReg r + 8) (fun s => s.ringDoorbell m r))

/-- RING_FETCH (R282). -/
def execRingFetch (r : Ring) (again : Bool) (s : State) : Host.Outcome State Fault Refusal :=
  done r.ok s (s.ringFetch r again)

/-- RING_COMPLETION_POST (R283). -/
def execRingCompletionPost (r : Ring) (tag : BitVec 16) (s : State) : Host.Outcome State Fault Refusal :=
  done r.ok s (s.ringDone r tag.toNat)

/-- RING_CHEAD_WRITE (R283). -/
def execRingCheadWrite (m : Nat) (r : Ring) (v : Word) (s : State) : Host.Outcome State Fault Refusal :=
  done (okMaster m && r.ok) s (s.regDo m (ringChead r) (fun s => s.cheadWrite m r v))

/-- RING_RESET (R285). -/
def execRingReset (m : Nat) (r : Ring) (s : State) : Host.Outcome State Fault Refusal :=
  done (okMaster m && r.ok) s (s.regDo m (ringCtl r) (fun s => s.ringReset r))

/-- DMA_RUN_LIST (R290). -/
def execDmaRunList (ch : Nat) (host : List HostRead) (s : State) : Host.Outcome State Fault Refusal :=
  done (decide (ch < 64)) s (s.dmaRun bus ch host)

/-- DMA_MODE_WRITE (R287). -/
def execDmaModeWrite (m : Nat) (v : Word) (s : State) : Host.Outcome State Fault Refusal :=
  done (okMaster m) s (s.regDo m Reg.DMA_CTL (fun s => s.dmaModeWrite m v))

/-- DMA_TIMER_EXPIRE (R294). -/
def execDmaTimerExpire (t : Nat) (s : State) : Host.Outcome State Fault Refusal :=
  done (decide (t < 16)) s (s.timerExpire t)

/-- DMA_BURST_PROMOTE (R295). -/
def execDmaBurstPromote (ch : Nat) (s : State) : Host.Outcome State Fault Refusal :=
  done (decide (ch < 64)) s (s.dmaPromote ch)

/-- DMA_REG_GO (R296). -/
def execDmaRegGo (m ch : Nat) (v : Word) (s : State) : Host.Outcome State Fault Refusal :=
  done (okMaster m && decide (ch < 64)) s (s.regDo m (Reg.DMA_CH_REG_CTL ch) (fun s => s.dmaGo m ch v))

/-- DMA_REG_DONE (R296). -/
def execDmaRegDone (ch : Nat) (host : HostRead) (s : State) : Host.Outcome State Fault Refusal :=
  done (decide (ch < 64)) s (s.dmaRegRun bus ch host)

end Sys2Proof.Machine
end

