-- ==== Sys2Proof/Machine/HatchRows.lean ====
section
/-! DEFINITION. The Hatch fabric and the pairing of two modules (R368 to R410). One definition for each command: its
effect on a well-formed command, as the functions of the units have it. -/

namespace Sys2Proof.Machine

/-- LINK_FLIT_RECEIVE (R367, R368). -/
def execLinkFlitReceive (port : Nat) (c : Codeword) (s : State) : Host.Outcome State Fault Refusal :=
  done (okPort port && c.ok) s (s.codewordIn port c)

/-- NAK (R369). -/
def execNak (port : Nat) (ack : BitVec 12) (s : State) : Host.Outcome State Fault Refusal :=
  done (okPort port) s (s.nak port ack.toNat)

/-- REPLAY_TIMEOUT (R369). -/
def execReplayTimeout (port : Nat) (s : State) : Host.Outcome State Fault Refusal :=
  done (okPort port) s (s.replayTimeout port)

/-- PORT_RETRAIN (R371). -/
def execPortRetrain (port : Nat) (s : State) : Host.Outcome State Fault Refusal :=
  done (okPort port) s (s.retrain port)

/-- TRAINING_ATTEMPT_END (R371). -/
def execTrainingAttemptEnd (port : Nat) (lanes : BitVec 4) (s : State) : Host.Outcome State Fault Refusal :=
  done (okPort port) s (s.trainingEnd port lanes.toNat)

/-- PORT_RESTORE (R371). -/
def execPortRestore (m port : Nat) (s : State) : Host.Outcome State Fault Refusal :=
  done (okMaster m && okPort port) s
    (s.regDo m (Reg.HAT_PORT_CTL port) (fun s => s.portCtl m port (s.cmdWord (Reg.HAT_PORT_CTL port) 1 2 2 1)))

/-- PORT_RETIRE (R372). -/
def execPortRetire (m port : Nat) (s : State) : Host.Outcome State Fault Refusal :=
  done (okMaster m && okPort port) s
    (s.regDo m (Reg.HAT_PORT_CTL port) (fun s => s.portCtl m port (s.cmdWord (Reg.HAT_PORT_CTL port) 1 1 1 1)))

/-- HELLO_SEND (R374). -/
def execHelloSend (port : Nat) (s : State) : Host.Outcome State Fault Refusal :=
  done (okPort port) s (s.helloSend port)

/-- HELLO (R374). -/
def execHello (port : Nat) (k : Packet) (s : State) : Host.Outcome State Fault Refusal :=
  done (okPort port && k.ok) s (s.packetIn port 0x20 k (fun s => s.hello port k))

/-- NEIGHBOUR_TIMEOUT (R374). -/
def execNeighbourTimeout (port : Nat) (s : State) : Host.Outcome State Fault Refusal :=
  done (okPort port) s (s.nbrTimeout port)

/-- WARDEN_ELECT (R375). -/
def execWardenElect (warden : Option Nat) (self : Bool) (s : State) : Host.Outcome State Fault Refusal :=
  done (warden.all (fun w => decide (w < 262144))) s (s.wardenElect warden self)

/-- MGMT_READ (R377). -/
def execMgmtRead (port : Nat) (k : Packet) (s : State) : Host.Outcome State Fault Refusal :=
  done (okPort port && k.ok) s (s.packetIn port 0x21 k (fun s => s.mgmtRead port k))

/-- MGMT_WRITE (R377). -/
def execMgmtWrite (port : Nat) (k : Packet) (s : State) : Host.Outcome State Fault Refusal :=
  done (okPort port && k.ok) s (s.packetIn port 0x22 k (fun s => s.mgmtWrite bus port k))

/-- MGMT_RSP (R383). -/
def execMgmtRsp (port : Nat) (k : Packet) (s : State) : Host.Outcome State Fault Refusal :=
  done (okPort port && k.ok) s (s.packetIn port 0x23 k (fun s => s.mgmtRsp port k))

/-- LINK_EVENT (R377). -/
def execLinkEvent (port : Nat) (s : State) : Host.Outcome State Fault Refusal :=
  done (okPort port) s (s.linkEvent port)

/-- ROUTE_SWAP (R380). -/
def execRouteSwap (m : Nat) (s : State) : Host.Outcome State Fault Refusal :=
  done (okMaster m) s (s.regDo m Reg.HAT_ROUTE_CTL (fun s => s.routeSwap))

/-- HATCH_PACKET_FORWARD (R379). -/
def execHatchPacketForward (port : Nat) (k : Packet) (s : State) : Host.Outcome State Fault Refusal :=
  done (okPort port && k.ok) s (s.packetIn port k.op k (fun s => s.transit port k))

/-- PACKET_PORT_TIMEOUT (R379). -/
def execPacketPortTimeout (port : Nat) (k : Packet) (s : State) : Host.Outcome State Fault Refusal :=
  done (okPort port && k.ok) s (s.packetTimeout port k)

/-- HATCH_READ (R385). -/
def execHatchRead (port : Nat) (k : Packet) (s : State) : Host.Outcome State Fault Refusal :=
  done (okPort port && k.ok) s (s.packetIn port 1 k (fun s => s.hatchRead k))

/-- HATCH_WRITE (R385). -/
def execHatchWrite (port : Nat) (k : Packet) (s : State) : Host.Outcome State Fault Refusal :=
  done (okPort port && k.ok) s (s.packetIn port 2 k (fun s => s.hatchWrite k))

/-- HATCH_SUBMIT (R387). -/
def execHatchSubmit (port : Nat) (k : Packet) (s : State) : Host.Outcome State Fault Refusal :=
  done (okPort port && k.ok) s (s.packetIn port 3 k (fun s => s.hatchLand k 3))

/-- HATCH_NOTIFY (R387). -/
def execHatchNotify (port : Nat) (k : Packet) (s : State) : Host.Outcome State Fault Refusal :=
  done (okPort port && k.ok) s (s.packetIn port 4 k (fun s => s.hatchLand k 4))

/-- HATCH_STREAM (R389). -/
def execHatchStream (port : Nat) (k : Packet) (s : State) : Host.Outcome State Fault Refusal :=
  done (okPort port && k.ok) s (s.packetIn port 5 k (fun s => s.hatchStream k 5))

/-- HATCH_STREAM_END (R389). -/
def execHatchStreamEnd (port : Nat) (k : Packet) (s : State) : Host.Outcome State Fault Refusal :=
  done (okPort port && k.ok) s (s.packetIn port 6 k (fun s => s.hatchStream k 6))

/-- READ_DATA (R384). -/
def execReadData (port : Nat) (k : Packet) (s : State) : Host.Outcome State Fault Refusal :=
  done (okPort port && k.ok) s (s.packetIn port 0x10 k (fun s => s.responseIn 0x10 k))

/-- HATCH_ACK (R384). -/
def execHatchAck (port : Nat) (k : Packet) (s : State) : Host.Outcome State Fault Refusal :=
  done (okPort port && k.ok) s (s.packetIn port 0x11 k (fun s => s.responseIn 0x11 k))

/-- STREAM_CREDIT (R389). -/
def execStreamCredit (port : Nat) (k : Packet) (s : State) : Host.Outcome State Fault Refusal :=
  done (okPort port && k.ok) s (s.packetIn port 0x12 k (fun s => s.hatchCredit k))

/-- REMOTE_APERTURE_REQUEST (R384). -/
def execRemoteApertureRequest (r : Request) (s : State) : Host.Outcome State Fault Refusal :=
  done r.ok s (s.apertureRequest r)

/-- HATCH_JOB_READ (R386). -/
def execHatchJobRead (ring : Nat) (tag : BitVec 16) (s : State) : Host.Outcome State Fault Refusal :=
  done (decide (ring < 32)) s (s.hatJob ring tag.toNat 1)

/-- HATCH_JOB_WRITE (R386). -/
def execHatchJobWrite (ring : Nat) (tag : BitVec 16) (s : State) : Host.Outcome State Fault Refusal :=
  done (decide (ring < 32)) s (s.hatJob ring tag.toNat 2)

/-- HATCH_JOB_SUBMIT (R386). -/
def execHatchJobSubmit (ring : Nat) (tag : BitVec 16) (s : State) : Host.Outcome State Fault Refusal :=
  done (decide (ring < 32)) s (s.hatJob ring tag.toNat 3)

/-- HATCH_JOB_NOTIFY (R386). -/
def execHatchJobNotify (ring : Nat) (tag : BitVec 16) (s : State) : Host.Outcome State Fault Refusal :=
  done (decide (ring < 32)) s (s.hatJob ring tag.toNat 4)

/-- TRANSACTION_TIMEOUT (R388). -/
def execTransactionTimeout (tag : Nat) (s : State) : Host.Outcome State Fault Refusal :=
  done (decide (tag < 65536)) s (s.txTimeout tag)

/-- LANDING_QUEUE_RESET (R394). -/
def execLandingQueueReset (m q : Nat) (s : State) : Host.Outcome State Fault Refusal :=
  done (okMaster m && decide (q < 64)) s
    (s.regDo m (Reg.HAT_LQ_CTL q) (fun s => s.lqCtl m q (s.cmdWord (Reg.HAT_LQ_CTL q) 1 1 1 1)))

/-- LANDING_QUEUE_HEAD_WRITE (R387). -/
def execLandingQueueHeadWrite (m q : Nat) (v : Word) (s : State) : Host.Outcome State Fault Refusal :=
  done (okMaster m && decide (q < 64)) s (s.regDo m (Reg.HAT_LQ_HEAD q) (fun s => s.lqHead m q v))

/-- PAIR_COMMIT (R396). -/
def execPairCommit (m : Nat) (s : State) : Host.Outcome State Fault Refusal :=
  done (okMaster m) s (s.regDo m Reg.GLB_PAIR_CTL (fun s => s.pairCtl m (s.cmdWord Reg.GLB_PAIR_CTL 2 31 31 1)))

/-- PAIR_QUERY_REPEAT (R396). -/
def execPairQueryRepeat (port : Nat) (s : State) : Host.Outcome State Fault Refusal :=
  done (okPort port) s (s.pairRepeat port)

/-- PAIR_COMMIT_TIMEOUT (R396). -/
def execPairCommitTimeout (s : State) : Host.Outcome State Fault Refusal :=
  done true s (s.commitTimeout)

/-- PAIR_QUERY (R397). -/
def execPairQuery (port : Nat) (k : Packet) (s : State) : Host.Outcome State Fault Refusal :=
  done (okPort port && k.ok) s (s.packetIn port 0x25 k (fun s => s.pairQuery port k))

/-- PAIR_REPLY (R397). -/
def execPairReply (port : Nat) (k : Packet) (s : State) : Host.Outcome State Fault Refusal :=
  done (okPort port && k.ok) s (s.packetIn port 0x26 k (fun s => s.pairReply port k))

/-- PAIR_NOTICE_POWER_FAIL (R406). -/
def execPairNoticePowerFail (port : Nat) (s : State) : Host.Outcome State Fault Refusal :=
  done (okPort port) s (s.powerFailNotice port)

/-- PAIR_NOTICE_FREEZE (R421). -/
def execPairNoticeFreeze (port : Nat) (epoch : BitVec 64) (tag : Nat) (s : State) : Host.Outcome State Fault Refusal :=
  done (okPort port && decide (tag < 65536)) s (s.freezeNotice port epoch.toNat tag)

/-- PAIR_UNPAIR (R410). -/
def execPairUnpair (m : Nat) (s : State) : Host.Outcome State Fault Refusal :=
  done (okMaster m) s (s.regDo m Reg.GLB_PAIR_CTL (fun s => s.pairCtl m (s.cmdWord Reg.GLB_PAIR_CTL 2 30 30 1)))

/-- PAIR_FORM (R399). -/
def execPairForm (s : State) : Host.Outcome State Fault Refusal :=
  done true s (s.pairForm)

/-- PAIR_FORM_TIMEOUT (R399). -/
def execPairFormTimeout (s : State) : Host.Outcome State Fault Refusal :=
  done true s (s.formTimeout)

/-- HALF_LOST (R406). -/
def execHalfLost (s : State) : Host.Outcome State Fault Refusal :=
  done true s (s.halfLost)

/-- BACK_HOST_LINK_PRESENT (R406). -/
def execBackHostLinkPresent (s : State) : Host.Outcome State Fault Refusal :=
  done true s (s.backPresent)

/-- FREEZE_NOTICE_REPEAT (R397). -/
def execFreezeNoticeRepeat (s : State) : Host.Outcome State Fault Refusal :=
  done true s (s.freezeRepeat)

end Sys2Proof.Machine
end

