-- ==== Sys2Proof/Machine/HeadRows.lean ====
section
/-! DEFINITION. The dispatcher of Headstock (R300 to R312). One definition for each command: its
effect on a well-formed command, as the functions of the units have it. -/

namespace Sys2Proof.Machine

/-- SPAWN (R310). -/
def execSpawn (m slot : Nat) (v : Word) (s : State) : Host.Outcome State Fault Refusal :=
  done (okMaster m && decide (slot < 17)) s (s.slotRow m slot 1 v)

/-- WAIT (R311). -/
def execWait (m slot : Nat) (v : Word) (s : State) : Host.Outcome State Fault Refusal :=
  done (okMaster m && decide (slot < 17)) s (s.slotRow m slot 2 v)

/-- YIELD (R308). -/
def execYield (m slot : Nat) (v : Word) (s : State) : Host.Outcome State Fault Refusal :=
  done (okMaster m && decide (slot < 17)) s (s.slotRow m slot 3 v)

/-- EXIT (R308). -/
def execExit (m slot : Nat) (v : Word) (s : State) : Host.Outcome State Fault Refusal :=
  done (okMaster m && decide (slot < 17)) s (s.slotRow m slot 4 v)

/-- SIGNAL (R311). -/
def execSignal (m slot : Nat) (v : Word) (s : State) : Host.Outcome State Fault Refusal :=
  done (okMaster m && decide (slot < 17)) s (s.slotRow m slot 5 v)

/-- KILL (R308). -/
def execKill (m slot : Nat) (v : Word) (s : State) : Host.Outcome State Fault Refusal :=
  done (okMaster m && decide (slot < 17)) s (s.slotRow m slot 6 v)

/-- SETPRIO (R308). -/
def execSetprio (m slot : Nat) (v : Word) (s : State) : Host.Outcome State Fault Refusal :=
  done (okMaster m && decide (slot < 17)) s (s.slotRow m slot 7 v)

/-- RESUME (R308). -/
def execResume (m slot : Nat) (v : Word) (s : State) : Host.Outcome State Fault Refusal :=
  done (okMaster m && decide (slot < 17)) s (s.slotRow m slot 8 v)

/-- A hardware source can signal event `e`: 64 to 127 only on the FRONT of a pair (R311). -/
def State.eventSourced (s : State) (e : Nat) : Bool := !(decide (64 ≤ e) && decide (e < 128)) || s.role = some false

/-- HARDWARE_EVENT (R311). -/
def execHardwareEvent (e : Nat) (s : State) : Host.Outcome State Fault Refusal :=
  done (decide (e < 1024)) s (if s.spineOn && s.eventSourced e then (s.signal e).peerStopped e else s)

/-- THREAD_PLACE (R304). -/
def execThreadPlace (n : Nat) (s : State) : Host.Outcome State Fault Refusal :=
  done (decide (n < 16)) s (s.threadPlace n)

/-- PREEMPT (R305). -/
def execPreempt (n : Nat) (s : State) : Host.Outcome State Fault Refusal :=
  done (decide (n < 16)) s (s.preemptCore n)

/-- CORE_RESTART (R312). -/
def execCoreRestart (m n : Nat) (s : State) : Host.Outcome State Fault Refusal :=
  done (okMaster m && decide (n < 16)) s (s.regDo m (Reg.HDS_CORE_CTL n) (fun s => s.coreRestart m n))

end Sys2Proof.Machine
end

