-- ==== Sys2Proof/Machine/MemoryRows.lean ====
section
/-! DEFINITION. The memory controllers, the caches and the mesh (R321 to R364). One definition for each command: its
effect on a well-formed command, as the functions of the units have it. -/

namespace Sys2Proof.Machine

/-- HBM_READ (R327). -/
def execHbmRead (m dpa : Nat) (found : Ecc) (s : State) : Host.Outcome State Fault Refusal :=
  done (okMaster m && okDpa dpa) s (s.atController m dpa (fun s => s.hbmReadCmd m dpa found))

/-- HBM_WRITE (R329). -/
def execHbmWrite (m dpa : Nat) (data : List Byte) (found : Ecc) (s : State) : Host.Outcome State Fault Refusal :=
  done (okMaster m && okDpa dpa && !data.isEmpty) s (s.atController m dpa (fun s => s.hbmWriteCmd m dpa data found))

/-- REQUEST_AGE_PROMOTE (R321). -/
def execRequestAgePromote (mc : Nat) (s : State) : Host.Outcome State Fault Refusal :=
  done (decide (mc < 64)) s (s.agePromote mc)

/-- STACK_TEMP_READ (R324). -/
def execStackTempRead (k : Nat) (temp : BitVec 8) (s : State) : Host.Outcome State Fault Refusal :=
  done (decide (k < 4)) s (if s.domState (13 + k) = 0 then s.stackTemp k temp.toNat else s)

/-- STACK_SWITCH (R325). -/
def execStackSwitch (m k : Nat) (s : State) : Host.Outcome State Fault Refusal :=
  done (okMaster m && decide (k < 4)) s (s.regDo m (Reg.MC_STACK_CTL (16 * k)) (fun s => s.stackSwitch m k))

/-- STACK_SWITCH_DONE (R325). -/
def execStackSwitchDone (k : Nat) (s : State) : Host.Outcome State Fault Refusal :=
  done (decide (k < 4)) s (s.stackSwitchDone k)

/-- MC_THAW (R330). -/
def execMcThaw (m mc : Nat) (v : Word) (s : State) : Host.Outcome State Fault Refusal :=
  done (okMaster m && decide (mc < 64)) s (s.regDo m (Reg.MC_CTL mc) (fun s => s.mcThaw m mc v))

/-- PPR (R331). -/
def execPpr (m mc : Nat) (v : Word) (s : State) : Host.Outcome State Fault Refusal :=
  done (okMaster m && decide (mc < 64)) s (s.regDo m (Reg.MC_PPR mc) (fun s => s.pprWrite m mc v))

/-- PPR_DONE (R331). -/
def execPprDone (mc : Nat) (result : BitVec 2) (s : State) : Host.Outcome State Fault Refusal :=
  done (decide (mc < 64)) s (s.pprDone mc result.toNat)

/-- CHANNEL_RETIRE (R332). -/
def execChannelRetire (m : Nat) (v : Word) (s : State) : Host.Outcome State Fault Refusal :=
  done (okMaster m) s (s.regDo m Reg.GLB_HBM_RETIRE_CMD (fun s => s.retireWrite m v))

/-- CHANNEL_RETIRE_DONE (R333). -/
def execChannelRetireDone (s : State) : Host.Outcome State Fault Refusal :=
  done true s (s.retireDone)

/-- MIRROR_ENABLE (R335). -/
def execMirrorEnable (m n : Nat) (v : Word) (s : State) : Host.Outcome State Fault Refusal :=
  done (okMaster m && decide (n < 8)) s (s.regDo m (Reg.GLB_MIR_CFG n) (fun s => s.mirrorWrite m n v))

/-- MIRROR_SYNC (R337). -/
def execMirrorSync (m n : Nat) (s : State) : Host.Outcome State Fault Refusal :=
  done (okMaster m && decide (n < 8)) s (s.regDo m (Reg.GLB_MIR_CTL n) (fun s => s.mirrorSync m n))

/-- MIRROR_SYNC_DONE (R337). -/
def execMirrorSyncDone (n : Nat) (s : State) : Host.Outcome State Fault Refusal :=
  done (decide (n < 8)) s (s.mirrorSyncDone n)

/-- PATROL_SCRUB_STEP (R338). -/
def execPatrolScrubStep (mc : Nat) (found : Ecc) (s : State) : Host.Outcome State Fault Refusal :=
  done (decide (mc < 64)) s (if s.domState (13 + mc / 16) = 0 then s.patrolScrub mc found else s)

/-- CACHE_REQUEST (R343). -/
def execCacheRequest (r : Request) (err : CacheErr) (s : State) : Host.Outcome State Fault Refusal :=
  done r.ok s (s.cacheRequest r err)

/-- SC_INVALIDATE (R347). -/
def execScInvalidate (m : Nat) (s : State) : Host.Outcome State Fault Refusal :=
  done (okMaster m) s (s.regDo m Reg.SC_CTL (fun s => s.scCtl m (s.cmdWord Reg.SC_CTL 2 2 2 1)))

/-- SC_ENABLE (R347). -/
def execScEnable (m : Nat) (s : State) : Host.Outcome State Fault Refusal :=
  done (okMaster m) s (s.regDo m Reg.SC_CTL (fun s => s.scCtl m (s.cmdWord Reg.SC_CTL 2 0 0 1)))

/-- SC_DISABLE (R347). -/
def execScDisable (m : Nat) (s : State) : Host.Outcome State Fault Refusal :=
  done (okMaster m) s (s.regDo m Reg.SC_CTL (fun s => s.scCtl m (s.cmdWord Reg.SC_CTL 2 0 0 0)))

/-- SC_DISABLE_DONE (R347). -/
def execScDisableDone (s : State) : Host.Outcome State Fault Refusal :=
  done true s (s.scDisableDone)

/-- SC_INVALIDATE_DONE (R347). -/
def execScInvalidateDone (s : State) : Host.Outcome State Fault Refusal :=
  done true s (s.scInvDone)

/-- SC_RANGE_INVALIDATE (R352). -/
def execScRangeInvalidate (m : Nat) (s : State) : Host.Outcome State Fault Refusal :=
  done (okMaster m) s (s.regDo m Reg.SC_RANGE_CMD (fun s => s.rangeWrite m (rangeWord 1)))

/-- SC_RANGE_CLEAN (R352). -/
def execScRangeClean (m : Nat) (s : State) : Host.Outcome State Fault Refusal :=
  done (okMaster m) s (s.regDo m Reg.SC_RANGE_CMD (fun s => s.rangeWrite m (rangeWord 2)))

/-- SC_RANGE_CLEAN_INVALIDATE (R352). -/
def execScRangeCleanInvalidate (m : Nat) (s : State) : Host.Outcome State Fault Refusal :=
  done (okMaster m) s (s.regDo m Reg.SC_RANGE_CMD (fun s => s.rangeWrite m (rangeWord 3)))

/-- SC_RANGE_LOCK_FILL (R352). -/
def execScRangeLockFill (m : Nat) (s : State) : Host.Outcome State Fault Refusal :=
  done (okMaster m) s (s.regDo m Reg.SC_RANGE_CMD (fun s => s.rangeWrite m (rangeWord 4)))

/-- SC_RANGE_DONE (R352). -/
def execScRangeDone (s : State) : Host.Outcome State Fault Refusal :=
  done true s (s.rangeDone)

/-- L1_INVALIDATE (R349). -/
def execL1Invalidate (m t : Nat) (s : State) : Host.Outcome State Fault Refusal :=
  done (okMaster m && okTile t) s
    (s.onTile t (fun n => s.regDo m (Reg.TIL_L1_CTL n) (fun s => s.l1Write m n (s.l1Word n true))))

/-- L1_ENABLE (R349). -/
def execL1Enable (m t : Nat) (s : State) : Host.Outcome State Fault Refusal :=
  done (okMaster m && okTile t) s
    (s.onTile t (fun n => s.regDo m (Reg.TIL_L1_CTL n) (fun s => s.l1Write m n (s.l1Word n false))))

/-- L1_INVALIDATE_DONE (R349). -/
def execL1InvalidateDone (t : Nat) (s : State) : Host.Outcome State Fault Refusal :=
  done (okTile t) s (s.onTile t (fun n => s.l1InvDone n))

/-- FLIT_RETRANSMIT (R357). -/
def execFlitRetransmit (r port : Nat) (control : Bool) (s : State) : Host.Outcome State Fault Refusal :=
  done (decide (r < 64) && decide (port < 4)) s (if s.spineOn then s.flitRetransmit r port control else s)

/-- LINK_DEAD (R358). -/
def execLinkDead (r port : Nat) (s : State) : Host.Outcome State Fault Refusal :=
  done (decide (r < 64) && decide (port < 4)) s (if s.spineOn then s.linkDead r port else s)

/-- DEAD_LINK_ACKNOWLEDGE (R358). -/
def execDeadLinkAcknowledge (r port : Nat) (s : State) : Host.Outcome State Fault Refusal :=
  done (decide (r < 64) && decide (port < 4)) s (if s.spineOn then s.linkAck r port else s)

/-- ROUTER_FREEZE (R360). -/
def execRouterFreeze (m r : Nat) (s : State) : Host.Outcome State Fault Refusal :=
  done (okMaster m && decide (r < 64)) s (s.regDo m (Reg.MSH_CTL r) (fun s => s.meshCtl m r 1))

/-- ROUTER_UNFREEZE (R360). -/
def execRouterUnfreeze (m r : Nat) (s : State) : Host.Outcome State Fault Refusal :=
  done (okMaster m && decide (r < 64)) s (s.regDo m (Reg.MSH_CTL r) (fun s => s.meshCtl m r 0))

/-- ROUTER_FREEZE_EXPIRE (R360). -/
def execRouterFreezeExpire (r : Nat) (s : State) : Host.Outcome State Fault Refusal :=
  done (decide (r < 64)) s (s.freezeExpire r)

/-- ROUTE_WRITE (R355). -/
def execRouteWrite (m r d : Nat) (v : Word) (s : State) : Host.Outcome State Fault Refusal :=
  done (okMaster m && decide (r < 64) && decide (d < 64)) s (s.regDo m (Reg.MSH_ROUTE r d) (fun s => s.meshRoute m r d v))

end Sys2Proof.Machine
end

