-- ==== Sys2Proof/Machine/ModuleRows.lean ====
section
/-! DEFINITION. The module hardware: insertion, supplies, cables and management (R437, R495 to R508). One definition for each command: its
effect on a well-formed command, as the functions of the units have it. -/

namespace Sys2Proof.Machine

/-- INSERTION (R497). -/
def execInsertion (s : State) : Host.Outcome State Fault Refusal :=
  done true s (s.insertion)

/-- POWER_GOOD (R497). -/
def execPowerGood (s : State) : Host.Outcome State Fault Refusal :=
  done true s (s.powerGood)

/-- REMOVAL (R498). -/
def execRemoval (s : State) : Host.Outcome State Fault Refusal :=
  done true s (s.removal)

/-- OVERCURRENT_CUTOFF (R496). -/
def execOvercurrentCutoff (s : State) : Host.Outcome State Fault Refusal :=
  done true s (s.overcurrent)

/-- CABLE_PRESENCE (R495). -/
def execCablePresence (port : Nat) (present : Bool) (s : State) : Host.Outcome State Fault Refusal :=
  done (okPort port) s (s.cableChange port present)

/-- SHED (R496). -/
def execShed (low : Bool) (s : State) : Host.Outcome State Fault Refusal :=
  done true s (s.shedInput low)

/-- AUXILIARY_INPUT_CHANGE (R437). -/
def execAuxiliaryInputChange (present : Bool) (s : State) : Host.Outcome State Fault Refusal :=
  done true s (s.auxChange present)

/-- HREFCLK_CHANGE (R500). -/
def execHrefclkChange (present : Bool) (s : State) : Host.Outcome State Fault Refusal :=
  done true s (s.hrefChange present)

/-- MCTP_CONTROL (R504). -/
def execMctpControl (req : List Byte) (s : State) : Host.Outcome State Fault Refusal :=
  done true s (s.mctpControl req)

/-- MCTP_STATUS (R505). -/
def execMctpStatus (req : List Byte) (s : State) : Host.Outcome State Fault Refusal :=
  done true s (s.mctpStatus req)

/-- SENSOR_READ (R506). -/
def execSensorRead (req : List Byte) (s : State) : Host.Outcome State Fault Refusal :=
  done true s (s.sensorRead req)

/-- FRU_READ (R507). -/
def execFruRead (req : List Byte) (s : State) : Host.Outcome State Fault Refusal :=
  done true s (s.fruRead req)

/-- LOG_READ (R505). -/
def execLogRead (req : List Byte) (s : State) : Host.Outcome State Fault Refusal :=
  done true s (s.logRead req)

/-- REG_READ (R505). -/
def execRegRead (req : List Byte) (s : State) : Host.Outcome State Fault Refusal :=
  done true s (s.mctpRegRead req)

/-- REG_WRITE (R505). -/
def execRegWrite (req : List Byte) (s : State) : Host.Outcome State Fault Refusal :=
  done true s (s.mctpRegWrite req)

/-- MCTP_RESET (R505). -/
def execMctpReset (req : List Byte) (s : State) : Host.Outcome State Fault Refusal :=
  done true s (s.mctpReset req)

/-- I3C_CCC (R503). -/
def execI3cCcc (ccc : BitVec 8) (data : List Byte) (s : State) : Host.Outcome State Fault Refusal :=
  done true s (s.i3cCcc ccc.toNat data)

/-- JTAG_INSTRUCTION (R508). -/
def execJtagInstruction (insn : JtagInsn) (s : State) : Host.Outcome State Fault Refusal :=
  done insn.ok s (s.jtag insn)

end Sys2Proof.Machine
end

