-- ==== Sys2Proof/Machine/PipelineRows.lean ====
section
/-! DEFINITION. The stream channels and the pipelines (R155 to R170, R273). One definition for each command: its
effect on a well-formed command, as the functions of the units have it. -/

namespace Sys2Proof.Machine

/-- STREAM_ELEMENT_ARRIVE (R163). -/
def execStreamElementArrive (t ch : Nat) (far : Option NocMsg) (payload : Ecc) (s : State) : Host.Outcome State Fault Refusal :=
  done (okTile t && decide (ch < 32) && okFar far) s (s.elementArrive t ch far payload)

/-- STREAM_CREDIT_RETURN (R162). -/
def execStreamCreditReturn (t ch : Nat) (far : Option NocMsg) (s : State) : Host.Outcome State Fault Refusal :=
  done (okTile t && decide (ch < 32) && okFar far) s (s.creditReturn t ch far)

/-- CHANNEL_RESET (R165). -/
def execChannelReset (m t : Nat) (inbound : Bool) (ch : Nat) (v : Word) (s : State) : Host.Outcome State Fault Refusal :=
  done (okMaster m && okTile t && decide (ch < 32)) s
    (s.onTile t (fun n => s.regDo m (if inbound then Reg.TIL_ICH_CTL n ch else Reg.TIL_OCH_CTL n ch) (fun s => s.channelCtl n ch inbound v)))

/-- INSTALL_PROGRAM (R155). -/
def execInstallProgram (tag : Nat) (image : HostRead) (at' : Nat) (s : State) : Host.Outcome State Fault Refusal :=
  done (okTag tag && okDpa at') s (if s.catalogHeld then s else s.install tag image at')

/-- PROGRAM_REMOVE (R273). -/
def execProgramRemove (tag : Nat) (s : State) : Host.Outcome State Fault Refusal :=
  done (okTag tag) s (s.removeImage tag)

/-- RUN (R272). -/
def execRun (tag : Nat) (params : HostRead) (room : Option Nat) (part : Option RunPart) (s : State) :
    Host.Outcome State Fault Refusal :=
  done (okTag tag && okPart part) s
    (match part with
     | some p => if 8192 ≤ tag && (s.cmd tag).isNone then s.partAdmit tag p params else s
     | none => s.runTake tag params room)

/-- STAGE_PLACE (R159). -/
def execStagePlace (tag : Nat) (tiles : List Nat) (before after : List (Nat × List (Nat × Nat))) (s : State) : Host.Outcome State Fault Refusal :=
  done (okTag tag) s (s.stagePlace tag tiles before after)

/-- STAGE_START (R160). -/
def execStageStart (tag gen : Nat) (s : State) : Host.Outcome State Fault Refusal :=
  done (okTag tag && decide (gen < 16)) s (s.stageStart tag gen)

/-- RUN_END (R168). -/
def execRunEnd (tag : Nat) (status : BitVec 16) (node : Option Nat) (s : State) : Host.Outcome State Fault Refusal :=
  done (okTag tag) s (s.runEnd tag status.toNat node)

/-- RUN_TIME_LIMIT (R169). -/
def execRunTimeLimit (tag : Nat) (s : State) : Host.Outcome State Fault Refusal :=
  done (okTag tag) s (s.runLimit tag)

/-- HOST_SINK_WRITE (R166). -/
def execHostSinkWrite (t ch : Nat) (far : Option NocMsg) (sent : Bool) (payload : Ecc) (s : State) :
    Host.Outcome State Fault Refusal :=
  done (okTile t && decide (ch < 32) && okFar far) s (s.hostSink t ch far sent payload)

/-- COLUMN_SINK_WRITE (R167). -/
def execColumnSinkWrite (t ch : Nat) (far : Option NocMsg) (payload : Ecc) (s : State) : Host.Outcome State Fault Refusal :=
  done (okTile t && decide (ch < 32) && okFar far) s (s.columnSink t ch far payload)

/-- RUN_COMMIT (R170). -/
def execRunCommit (tag : Nat) (room : Option Room) (s : State) : Host.Outcome State Fault Refusal :=
  done (okTag tag) s (if s.runTableOut tag && s.catalogHeld then s else s.runCommit tag room)

end Sys2Proof.Machine
end

