-- ==== Sys2Proof/Machine/PlateRows.lean ====
section
/-! DEFINITION. Plate, the hold-up bank and the image of the tables (R412 to R433). One definition for each command: its
effect on a well-formed command, as the functions of the units have it. -/

namespace Sys2Proof.Machine

/-- REGION_LOAD (R412). -/
def execRegionLoad (m : Nat) (v : Word) (s : State) : Host.Outcome State Fault Refusal :=
  done (okMaster m) s (s.regDo m Reg.PLT_REGION_CMD (fun s => s.regionLoad m v))

/-- BACKGROUND_COPY (R419). -/
def execBackgroundCopy (chunk loc : Nat) (comp : Option (List Byte)) (s : State) : Host.Outcome State Fault Refusal :=
  done (decide (chunk < 98304)) s (s.copyChunk chunk loc comp)

/-- POWER_FAIL_ETCH (R420). -/
def execPowerFailEtch (worn : List (Bool × List Byte)) (s : State) : Host.Outcome State Fault Refusal :=
  done true s (s.etchStart worn)

/-- ETCH_GO (R424). -/
def execEtchGo (m : Nat) (worn : List (Bool × List Byte)) (s : State) : Host.Outcome State Fault Refusal :=
  done (okMaster m) s (s.regDo m Reg.PLT_ETCH_GO (fun s => (if s.pltState = 1 then s.judgeSlots worn else s).etchGo m))

/-- ETCH_GO_TIMEOUT (R422). -/
def execEtchGoTimeout (s : State) : Host.Outcome State Fault Refusal :=
  done true s (s.etchGoTimeout)

/-- ETCH_DEADLINE (R422). -/
def execEtchDeadline (s : State) : Host.Outcome State Fault Refusal :=
  done true s (s.etchDeadline)

/-- BANK_RESERVE_REACHED (R422). -/
def execBankReserveReached (s : State) : Host.Outcome State Fault Refusal :=
  done true s (s.bankReserve)

/-- ETCH_COMPLETE (R420). -/
def execEtchComplete (s : State) : Host.Outcome State Fault Refusal :=
  done true s (s.etchDone)

/-- PRINT (R425). -/
def execPrint (bad : List Nat) (worn : List (Bool × List Byte)) (s : State) : Host.Outcome State Fault Refusal :=
  done true s (s.bootPrint bad worn)

/-- REPRINT (R429). -/
def execReprint (ring : Nat) (tag : BitVec 16) (bad : List Nat) (s : State) : Host.Outcome State Fault Refusal :=
  done (decide (ring < 4)) s (s.reprint ring tag.toNat bad)

/-- VERIFY (R429). -/
def execVerify (ring : Nat) (tag : BitVec 16) (bad : List Nat) (s : State) : Host.Outcome State Fault Refusal :=
  done (decide (ring < 4)) s (s.verifyJob ring tag.toNat bad)

/-- NVME_COMMAND_COMPLETE (R431). -/
def execNvmeCommandComplete (d : Nat) (ok : Bool) (s : State) : Host.Outcome State Fault Refusal :=
  done (decide (d < 4)) s (s.nvmeDone d ok)

/-- NVME_COMMAND_TIMEOUT (R431). -/
def execNvmeCommandTimeout (d : Nat) (s : State) : Host.Outcome State Fault Refusal :=
  done (decide (d < 4)) s (s.nvmeDone d false)

/-- SMART_POLL (R431). -/
def execSmartPoll (d : Nat) (warn used spare : BitVec 8) (units errors : BitVec 128) (s : State) : Host.Outcome State Fault Refusal :=
  done (decide (d < 4)) s (s.smartPoll d warn used spare units errors)

/-- BANK_TEST_TIMER (R433). -/
def execBankTestTimer (s : State) : Host.Outcome State Fault Refusal :=
  done true s (s.bankTimer)

/-- BANK_TEST_DONE (R433). -/
def execBankTestDone (usable esr : Nat) (s : State) : Host.Outcome State Fault Refusal :=
  done (decide (usable < 65536) && decide (esr < 65536)) s (s.bankTested usable esr)

/-- BANK_READY (R432). -/
def execBankReady (joules : Nat) (charging : Bool) (s : State) : Host.Outcome State Fault Refusal :=
  done (decide (joules < 65536)) s (s.bankCharge joules charging)

/-- PLATE_ETCH (R424). -/
def execPlateEtch (tag : Nat) (worn : List (Bool × List Byte)) (s : State) : Host.Outcome State Fault Refusal :=
  done (okTag tag) s (s.plateEtch tag worn)

/-- PLATE_BANK_TEST (R433). -/
def execPlateBankTest (tag : Nat) (s : State) : Host.Outcome State Fault Refusal :=
  done (okTag tag) s (s.plateBankTest tag)

/-- PLATE_INVALIDATE (R266). -/
def execPlateInvalidate (tag : Nat) (s : State) : Host.Outcome State Fault Refusal :=
  done (okTag tag) s (s.plateInvalidate tag)

/-- PLATE_SANITIZE (R266). -/
def execPlateSanitize (tag : Nat) (s : State) : Host.Outcome State Fault Refusal :=
  done (okTag tag) s (s.plateSanitize tag)

end Sys2Proof.Machine
end

