-- ==== Sys2Proof/Machine/QueueRows.lean ====
section
/-! DEFINITION. The host link and the queue pairs (R228 to R276). One definition for each command: its
effect on a well-formed command, as the functions of the units have it. -/

namespace Sys2Proof.Machine

/-- PERST (R461). -/
def execPerst (asserted : Bool) (s : State) : Host.Outcome State Fault Refusal :=
  done true s (s.perstInput asserted)

/-- FLR (R246). -/
def execFlr (fn : Nat) (s : State) : Host.Outcome State Fault Refusal :=
  done (okFunction fn) s (s.flr fn)

/-- HOT_RESET (R246). -/
def execHotReset (s : State) : Host.Outcome State Fault Refusal :=
  done true s (s.linkDown)

/-- LINK_DOWN (R246). -/
def execLinkDown (s : State) : Host.Outcome State Fault Refusal :=
  done true s (s.linkDown)

/-- SQ_KICK (R235). -/
def execSqKick (m q : Nat) (s : State) : Host.Outcome State Fault Refusal :=
  done (okMaster m && okPair q) s (s.doorDo m (64 * q) (fun s => s.kick m q))

/-- CQ_HEAD (R228). -/
def execCqHead (m q : Nat) (v : Word) (s : State) : Host.Outcome State Fault Refusal :=
  done (okMaster m && okPair q) s (s.doorDo m (64 * q + 8) (fun s => s.cqHead m q v))

/-- SQ_FETCH (R235). -/
def execSqFetch (q : Nat) (entry block : HostRead) (again : Bool) (tag : Nat) (s : State) : Host.Outcome State Fault Refusal :=
  done (okPair q && okTag tag) s (if s.arbFrozen 1 then s else s.fetchSq q entry block again tag)

/-- COMPLETION_POST (R276). -/
def execCompletionPost (tag : Nat) (s : State) : Host.Outcome State Fault Refusal :=
  done (okTag tag) s (if s.arbFrozen 2 then s else s.post tag)

/-- COALESCE_TIMEOUT (R249). -/
def execCoalesceTimeout (q : Nat) (s : State) : Host.Outcome State Fault Refusal :=
  done (okPair q) s (s.coalesce q)

/-- ADMIN_PAIR_CREATE (R229). -/
def execAdminPairCreate (fn : Nat) (s : State) : Host.Outcome State Fault Refusal :=
  done (okFunction fn) s (if s.hostUp fn then s.regDo fn Reg.QE_FN_AQ_CTL (fun s => s.adminCreate fn) else s)

/-- ADMIN_PAIR_DELETE (R246). -/
def execAdminPairDelete (fn : Nat) (s : State) : Host.Outcome State Fault Refusal :=
  done (okFunction fn) s (if s.hostUp fn then s.regDo fn Reg.QE_FN_AQ_CTL (fun s => s.adminDelete fn) else s)

/-- CLAMP_GRANT (R258). -/
def execClampGrant (tag : Nat) (s : State) : Host.Outcome State Fault Refusal :=
  done (okTag tag) s (s.clampGrant tag)

/-- CLAMP_TIMEOUT (R259). -/
def execClampTimeout (tag : Nat) (s : State) : Host.Outcome State Fault Refusal :=
  done (okTag tag) s (s.clampTimeout tag)

/-- HOST_COMPLETION_TIMEOUT (R247). -/
def execHostCompletionTimeout (what : HostWait) (s : State) : Host.Outcome State Fault Refusal :=
  done what.ok s (s.hostTimeout bus what)

end Sys2Proof.Machine
end

