-- ==== Sys2Proof/Machine/ScalarRows.lean ====
section
/-! DEFINITION. The scalar instructions of the tiles and of Headstock (R77 to R97), and the tiles' run control (R85, R93 to R96). One definition for each command: its
effect on a well-formed command, as the functions of the units have it. -/

namespace Sys2Proof.Machine

/-- ALU (R77). -/
def execAlu (c : Nat) (pfx : Option Word) (w : Word) (s : State) : Host.Outcome State Fault Refusal :=
  done (okCore c) s (s.runRow bus c pfx w (isMajor 0x01 0x01) aluInsn)

/-- ALUI (R79). -/
def execAlui (c : Nat) (pfx : Option Word) (w : Word) (s : State) : Host.Outcome State Fault Refusal :=
  done (okCore c) s (s.runRow bus c pfx w (isMajor 0x02 0x02) aluiInsn)

/-- SCALAR_LOAD (R80). -/
def execScalarLoad (c : Nat) (pfx : Option Word) (w : Word) (s : State) : Host.Outcome State Fault Refusal :=
  done (okCore c) s (s.runRow bus c pfx w (isMajor 0x04 0x04) loadInsn)

/-- SCALAR_STORE (R80). -/
def execScalarStore (c : Nat) (pfx : Option Word) (w : Word) (s : State) : Host.Outcome State Fault Refusal :=
  done (okCore c) s (s.runRow bus c pfx w (isMajor 0x05 0x05) storeInsn)

/-- BR (R81). -/
def execBr (c : Nat) (pfx : Option Word) (w : Word) (s : State) : Host.Outcome State Fault Refusal :=
  done (okCore c) s (s.runRow bus c pfx w (isMajor 0x08 0x08) brInsn)

/-- CALL (R81). -/
def execCall (c : Nat) (pfx : Option Word) (w : Word) (s : State) : Host.Outcome State Fault Refusal :=
  done (okCore c) s (s.runRow bus c pfx w (isMajor 0x09 0x09) callInsn)

/-- CALLR (R81). -/
def execCallr (c : Nat) (pfx : Option Word) (w : Word) (s : State) : Host.Outcome State Fault Refusal :=
  done (okCore c) s (s.runRow bus c pfx w (isMajor 0x0A 0x0A) callrInsn)

/-- JUMP (R81). -/
def execJump (c : Nat) (pfx : Option Word) (w : Word) (s : State) : Host.Outcome State Fault Refusal :=
  done (okCore c) s (s.runRow bus c pfx w (isMajor 0x0B 0x0B) jumpInsn)

/-- FENCE (R91). -/
def execFence (c : Nat) (pfx : Option Word) (w : Word) (s : State) : Host.Outcome State Fault Refusal :=
  done (okCore c) s (s.runRow bus c pfx w (isFn 0x0C 0x00 0x00) fenceInsn)

/-- FENCE_W (R91). -/
def execFenceW (c : Nat) (pfx : Option Word) (w : Word) (s : State) : Host.Outcome State Fault Refusal :=
  done (okCore c) s (s.runRow bus c pfx w (isFn 0x0C 0x01 0x01) fenceWInsn)

/-- FENCE_X (R91). -/
def execFenceX (c : Nat) (pfx : Option Word) (w : Word) (s : State) : Host.Outcome State Fault Refusal :=
  done (okCore c) s (s.runRow bus c pfx w (isFn 0x0C 0x02 0x02) fenceXInsn)

/-- RTCALL (R95). -/
def execRtcall (c : Nat) (pfx : Option Word) (w : Word) (s : State) : Host.Outcome State Fault Refusal :=
  done (okCore c) s (s.runRow bus c pfx w (isFn 0x0C 0x08 0x08) rtcallInsn)

/-- DBGSTOP (R82). -/
def execDbgstop (c : Nat) (pfx : Option Word) (w : Word) (s : State) : Host.Outcome State Fault Refusal :=
  done (okCore c) s (s.runRow bus c pfx w (isFn 0x0C 0x09 0x09) dbgstopInsn)

/-- END (R82). -/
def execEndProgram (c : Nat) (pfx : Option Word) (w : Word) (s : State) : Host.Outcome State Fault Refusal :=
  done (okCore c) s (s.runRow bus c pfx w (isFn 0x0C 0x0A 0x0A) endInsn)

/-- TRAPRET (R97). -/
def execTrapret (c : Nat) (pfx : Option Word) (w : Word) (s : State) : Host.Outcome State Fault Refusal :=
  done (okCore c) s (s.runRow bus c pfx w (isFn 0x0C 0x10 0x10) trapretInsn)

/-- SRR (R83). -/
def execSrr (c : Nat) (pfx : Option Word) (w : Word) (s : State) : Host.Outcome State Fault Refusal :=
  done (okCore c) s (s.runRow bus c pfx w (isSra 0) srrInsn)

/-- SRW (R83). -/
def execSrw (c : Nat) (pfx : Option Word) (w : Word) (s : State) : Host.Outcome State Fault Refusal :=
  done (okCore c) s (s.runRow bus c pfx w (isSra 1) srwInsn)

/-- SRS (R83). -/
def execSrs (c : Nat) (pfx : Option Word) (w : Word) (s : State) : Host.Outcome State Fault Refusal :=
  done (okCore c) s (s.runRow bus c pfx w (isSra 2) srsInsn)

/-- SRC (R83). -/
def execSrc (c : Nat) (pfx : Option Word) (w : Word) (s : State) : Host.Outcome State Fault Refusal :=
  done (okCore c) s (s.runRow bus c pfx w (isSra 3) srcInsn)

/-- IMPRECISE_EXCEPTION (R93). -/
def execImpreciseException (c : Nat) (s : State) : Host.Outcome State Fault Refusal :=
  done (okCore c) s (s.impreciseArrive c)

/-- TILE_RUN (R95). -/
def execTileRun (m t : Nat) (s : State) : Host.Outcome State Fault Refusal :=
  done (okMaster m && okTile t) s (s.onTile t (fun n => s.regDo m (Reg.TIL_CTL n) (fun s => s.tileRun m n)))

/-- TILE_HALT (R96). -/
def execTileHalt (m t : Nat) (s : State) : Host.Outcome State Fault Refusal :=
  done (okMaster m && okTile t) s (s.onTile t (fun n => s.regDo m (Reg.TIL_CTL n) (fun s => s.tileHalt n)))

/-- TILE_HALTED (R96). -/
def execTileHalted (t : Nat) (s : State) : Host.Outcome State Fault Refusal :=
  done (okTile t) s (s.onTile t (fun n => s.tileHalted n))

/-- TILE_STEP (R96). -/
def execTileStep (m t : Nat) (s : State) : Host.Outcome State Fault Refusal :=
  done (okMaster m && okTile t) s (s.onTile t (fun n => s.regDo m (Reg.TIL_CTL n) (fun s => s.tileCtl bus m n 2)))

/-- WINDOW_WRITE (R85). -/
def execWindowWrite (m t w k : Nat) (v : Word) (s : State) : Host.Outcome State Fault Refusal :=
  done (okMaster m && okTile t && decide (w < 16) && decide (k < 7)) s
    (s.onTile t (fun n => s.regPut m (Reg.TIL_WIN_PBASE_LO n w + 4 * k) v))

end Sys2Proof.Machine
end

