-- ==== Sys2Proof/Machine/SteadyRows.lean ====
section
/-! DEFINITION. Steady: power domains, clocks, Vigil and temperature (R441 to R455), and reset, boot and modes (R437, R459 to R471). One definition for each command: its
effect on a well-formed command, as the functions of the units have it. -/

namespace Sys2Proof.Machine

/-- DOMAIN_POWER_DOWN (R441). -/
def execDomainPowerDown (m d : Nat) (drained : Bool) (s : State) : Host.Outcome State Fault Refusal :=
  done (okMaster m && decide (d < 17)) s (s.domainOff m d drained)

/-- DRAIN_TIMEOUT (R441). -/
def execDrainTimeout (d : Nat) (holder : BitVec 8) (s : State) : Host.Outcome State Fault Refusal :=
  done (decide (d < 17)) s (s.drainTimeout d holder.toNat)

/-- DOMAIN_POWER_UP (R443). -/
def execDomainPowerUp (m d : Nat) (wake : Bool) (s : State) : Host.Outcome State Fault Refusal :=
  done (okMaster m && decide (d < 17)) s
    (if wake then s.autoWake d else s.regDo m (Reg.STY_DOM_CTL d) (fun s => s.domCtl m d (s.cmdWord (Reg.STY_DOM_CTL d) 1 30 30 1) true))

/-- DOMAIN_POWER_UP_DONE (R443). -/
def execDomainPowerUpDone (d : Nat) (s : State) : Host.Outcome State Fault Refusal :=
  done (decide (d < 17)) s (s.powerUpDone bus d)

/-- DOMAIN_REQUEST_HELD (R442). -/
def execDomainRequestHeld (r : Request) (s : State) : Host.Outcome State Fault Refusal :=
  done r.ok s (s.heldRequest r)

/-- TILE_CLOCK_GATE (R446). -/
def execTileClockGate (t : Nat) (s : State) : Host.Outcome State Fault Refusal :=
  done (okTile t) s (s.onTile t (fun n => s.gateTile n))

/-- QUADRANT_PLL_STOP (R447). -/
def execQuadrantPllStop (k : Nat) (s : State) : Host.Outcome State Fault Refusal :=
  done (decide (k < 4)) s (s.pllStop k)

/-- QUADRANT_PLL_RELOCK (R447). -/
def execQuadrantPllRelock (k : Nat) (s : State) : Host.Outcome State Fault Refusal :=
  done (decide (k < 4)) s (s.pllRelock k)

/-- VIGIL_ENTER (R449). -/
def execVigilEnter (m : Nat) (s : State) : Host.Outcome State Fault Refusal :=
  done (okMaster m) s (s.regDo m Reg.STY_VIGIL_CTL (fun s => s.vigilEnter m))

/-- VIGIL_EXIT (R450). -/
def execVigilExit (s : State) : Host.Outcome State Fault Refusal :=
  done true s (s.vigilExit bus)

/-- VIGIL_ENTRY_DONE (R449). -/
def execVigilEntryDone (refused : Bool) (s : State) : Host.Outcome State Fault Refusal :=
  done true s (s.vigilEntryDone bus refused)

/-- WAKE_SOURCE (R451). -/
def execWakeSource (b : Nat) (s : State) : Host.Outcome State Fault Refusal :=
  done (decide (b < 8)) s (s.wakeSource b)

/-- WAKE_PATTERN (R452). -/
def execWakePattern (port : Nat) (words : List Word) (s : State) : Host.Outcome State Fault Refusal :=
  done (okPort port) s (s.wakePattern port words)

/-- KEEPALIVE_SEND (R453). -/
def execKeepaliveSend (port : Nat) (s : State) : Host.Outcome State Fault Refusal :=
  done (okPort port) s (s.keepaliveSend port)

/-- WAKE_SEND (R453). -/
def execWakeSend (m : Nat) (v : Word) (s : State) : Host.Outcome State Fault Refusal :=
  done (okMaster m) s (s.regDo m Reg.STY_WAKE_SEND (fun s => s.wakeSend m v))

/-- ALARM (R451). -/
def execAlarm (s : State) : Host.Outcome State Fault Refusal :=
  done true s (s.alarm)

/-- SUPPLY_FAILURE (R454). -/
def execSupplyFailure (s : State) : Host.Outcome State Fault Refusal :=
  done true s (s.supplyFailure)

/-- THERMAL_SAMPLE (R455). -/
def execThermalSample (temps : List (BitVec 8)) (power input : BitVec 16) (s : State) : Host.Outcome State Fault Refusal :=
  done true s (s.thermalSample temps power.toNat input.toNat)

/-- THROTTLE_STEP (R455). -/
def execThrottleStep (k : Nat) (s : State) : Host.Outcome State Fault Refusal :=
  done (decide (k < 4)) s (s.throttleStep k)

/-- FREQUENCY_POINT_CHANGE (R448). -/
def execFrequencyPointChange (k : Nat) (s : State) : Host.Outcome State Fault Refusal :=
  done (decide (k < 4)) s (s.pointChange k)

/-- ORDERLY_RESET (R460). -/
def execOrderlyReset (m : Nat) (s : State) : Host.Outcome State Fault Refusal :=
  done (okMaster m) s (s.regDo m Reg.GLB_RESET (fun s => s.resetWrite m 0xD1E50001))

/-- IMMEDIATE_RESET (R460). -/
def execImmediateReset (m : Nat) (s : State) : Host.Outcome State Fault Refusal :=
  done (okMaster m) s (s.regDo m Reg.GLB_RESET (fun s => s.resetWrite m 0xD1E50002))

/-- COLD_RESET (R437). -/
def execColdReset (s : State) : Host.Outcome State Fault Refusal :=
  done true s (s.coldReset)

/-- BOOT (R467). -/
def execBoot (s : State) : Host.Outcome State Fault Refusal :=
  done true s (s.bootRun)

/-- WATCHDOG_EXPIRE (R466). -/
def execWatchdogExpire (s : State) : Host.Outcome State Fault Refusal :=
  done true s (s.wdogExpire)

/-- WATCHDOG_KICK (R466). -/
def execWatchdogKick (m : Nat) (_v : Word) (s : State) : Host.Outcome State Fault Refusal :=
  done (okMaster m) s (s.regDo m Reg.GLB_WDOG_KICK (fun s => s.wdogStart))

/-- BOOT_OK (R465). -/
def execBootOk (m : Nat) (v : Word) (s : State) : Host.Outcome State Fault Refusal :=
  done (okMaster m) s (s.regDo m Reg.GLB_BOOT_OK (fun s => s.bootOk m v))

/-- MODE_ENTER (R468). -/
def execModeEnter (m : Nat) (v : Word) (s : State) : Host.Outcome State Fault Refusal :=
  done (okMaster m) s (s.regDo m Reg.GLB_MODE_CTL (fun s => s.modeEnter m v))

/-- RECOVERY_GO (R471). -/
def execRecoveryGo (m : Nat) (v : Word) (s : State) : Host.Outcome State Fault Refusal :=
  done (okMaster m) s (s.regDo m Reg.GLB_BOOT_CTL (fun s => s.recoveryGo m v))

end Sys2Proof.Machine
end

