-- ==== Sys2Proof/Machine/VectorRows.lean ====
section
/-! DEFINITION. The vector instructions (R105 to R125). One definition for each command: its
effect on a well-formed command, as the functions of the units have it. -/

namespace Sys2Proof.Machine

/-- VSETCFG (R105). -/
def execVsetcfg (c : Nat) (pfx : Option Word) (w : Word) (s : State) : Host.Outcome State Fault Refusal :=
  done (okCore c) s (s.runRow bus c pfx w (isVsetcfg) vsetcfgInsn)

/-- VINTEGER_OP (R112). -/
def execVintegerOp (c : Nat) (pfx : Option Word) (w : Word) (s : State) : Host.Outcome State Fault Refusal :=
  done (okCore c) s (s.runRow bus c pfx w (isMajor 0x20 0x21) vintInsn)

/-- VFLOAT_OP (R116). -/
def execVfloatOp (c : Nat) (pfx : Option Word) (w : Word) (s : State) : Host.Outcome State Fault Refusal :=
  done (okCore c) s (s.runRow bus c pfx w (isMajor 0x22 0x23) vfloatInsn)

/-- VCOMPARE (R117). -/
def execVcompare (c : Nat) (pfx : Option Word) (w : Word) (s : State) : Host.Outcome State Fault Refusal :=
  done (okCore c) s (s.runRow bus c pfx w (isMajor 0x24 0x25) vcmpInsn)

/-- PREDICATE_OP (R118). -/
def execPredicateOp (c : Nat) (pfx : Option Word) (w : Word) (s : State) : Host.Outcome State Fault Refusal :=
  done (okCore c) s (s.runRow bus c pfx w (isMajor 0x26 0x26) predInsn)

/-- VECTOR_MOVE (R119). -/
def execVectorMove (c : Nat) (pfx : Option Word) (w : Word) (s : State) : Host.Outcome State Fault Refusal :=
  done (okCore c) s (s.runRow bus c pfx w (isMajor 0x27 0x27) moveInsn)

/-- VCVT (R120). -/
def execVcvt (c : Nat) (pfx : Option Word) (w : Word) (s : State) : Host.Outcome State Fault Refusal :=
  done (okCore c) s (s.runRow bus c pfx w (isMajor 0x28 0x28) vcvtInsn)

/-- VLD (R121). -/
def execVld (c : Nat) (pfx : Option Word) (w : Word) (s : State) : Host.Outcome State Fault Refusal :=
  done (okCore c) s (s.runRow bus c pfx w (isFn 0x30 0 0) vldInsn)

/-- VST (R121). -/
def execVst (c : Nat) (pfx : Option Word) (w : Word) (s : State) : Host.Outcome State Fault Refusal :=
  done (okCore c) s (s.runRow bus c pfx w (isFn 0x31 0 0) vstInsn)

/-- VLDS (R121). -/
def execVlds (c : Nat) (pfx : Option Word) (w : Word) (s : State) : Host.Outcome State Fault Refusal :=
  done (okCore c) s (s.runRow bus c pfx w (isFn 0x30 1 1) vldsInsn)

/-- VSTS (R121). -/
def execVsts (c : Nat) (pfx : Option Word) (w : Word) (s : State) : Host.Outcome State Fault Refusal :=
  done (okCore c) s (s.runRow bus c pfx w (isFn 0x31 1 1) vstsInsn)

/-- GATHER (R123). -/
def execGather (c : Nat) (pfx : Option Word) (w : Word) (s : State) : Host.Outcome State Fault Refusal :=
  done (okCore c) s (s.runRow bus c pfx w (isFn 0x30 2 2) gatherInsn)

/-- SCATTER (R121). -/
def execScatter (c : Nat) (pfx : Option Word) (w : Word) (s : State) : Host.Outcome State Fault Refusal :=
  done (okCore c) s (s.runRow bus c pfx w (isFn 0x31 2 2) scatterInsn)

/-- GATHER_F (R124). -/
def execGatherF (c : Nat) (pfx : Option Word) (w : Word) (s : State) : Host.Outcome State Fault Refusal :=
  done (okCore c) s (s.runRow bus c pfx w (isFn 0x30 3 3) gatherFInsn)

/-- LDF (R122). -/
def execLdf (c : Nat) (pfx : Option Word) (w : Word) (s : State) : Host.Outcome State Fault Refusal :=
  done (okCore c) s (s.runRow bus c pfx w (isFn 0x30 4 6) ldfInsn)

/-- STF (R122). -/
def execStf (c : Nat) (pfx : Option Word) (w : Word) (s : State) : Host.Outcome State Fault Refusal :=
  done (okCore c) s (s.runRow bus c pfx w (isFn 0x31 4 6) stfInsn)

end Sys2Proof.Machine
end

