-- ==== Sys2Proof/Machine/Dispatch.lean ====
section
/-! DEFINITION. What each command does: one arm for each constructor. -/
namespace Sys2Proof.Machine

def exec (i : Instr) (s : State) : Host.Outcome State Fault Refusal :=
  match i with
  | .registerWrite m a v => Sys2Proof.Machine.execRegisterWrite m a v s
  | .pairLoRead m a => Sys2Proof.Machine.execPairLoRead m a s
  | .pairHiRead m a => Sys2Proof.Machine.execPairHiRead m a s
  | .pairLoWrite m a v => Sys2Proof.Machine.execPairLoWrite m a v s
  | .pairHiWrite m a v => Sys2Proof.Machine.execPairHiWrite m a v s
  | .unalignedRegisterAccess m a len wr => Sys2Proof.Machine.execUnalignedRegisterAccess m a len wr s
  | .targetRequest r payload => Sys2Proof.Machine.execTargetRequest r payload s
  | .bar4Access fn off len wr => Sys2Proof.Machine.execBar4Access fn off len wr s
  | .bar0Access fn off len wr => Sys2Proof.Machine.execBar0Access fn off len wr s
  | .bar2Access fn off len wr => Sys2Proof.Machine.execBar2Access fn off len wr s
  | .affinityWrite m n v => Sys2Proof.Machine.execAffinityWrite m n v s
  | .grantWrite m t g k v => Sys2Proof.Machine.execGrantWrite m t g k v s
  | .guardReport r => Sys2Proof.Machine.execGuardReport r s
  | .storageReclaim => Sys2Proof.Machine.execStorageReclaim s
  | .segmentReplace table col seg codec stored at' => Sys2Proof.Machine.execSegmentReplace table col seg codec stored at' s
  | .alu c pfx w => Sys2Proof.Machine.execAlu c pfx w s
  | .alui c pfx w => Sys2Proof.Machine.execAlui c pfx w s
  | .scalarLoad c pfx w => Sys2Proof.Machine.execScalarLoad c pfx w s
  | .scalarStore c pfx w => Sys2Proof.Machine.execScalarStore c pfx w s
  | .br c pfx w => Sys2Proof.Machine.execBr c pfx w s
  | .call c pfx w => Sys2Proof.Machine.execCall c pfx w s
  | .callr c pfx w => Sys2Proof.Machine.execCallr c pfx w s
  | .jump c pfx w => Sys2Proof.Machine.execJump c pfx w s
  | .fence c pfx w => Sys2Proof.Machine.execFence c pfx w s
  | .fenceW c pfx w => Sys2Proof.Machine.execFenceW c pfx w s
  | .fenceX c pfx w => Sys2Proof.Machine.execFenceX c pfx w s
  | .rtcall c pfx w => Sys2Proof.Machine.execRtcall c pfx w s
  | .dbgstop c pfx w => Sys2Proof.Machine.execDbgstop c pfx w s
  | .endProgram c pfx w => Sys2Proof.Machine.execEndProgram c pfx w s
  | .trapret c pfx w => Sys2Proof.Machine.execTrapret c pfx w s
  | .srr c pfx w => Sys2Proof.Machine.execSrr c pfx w s
  | .srw c pfx w => Sys2Proof.Machine.execSrw c pfx w s
  | .srs c pfx w => Sys2Proof.Machine.execSrs c pfx w s
  | .src c pfx w => Sys2Proof.Machine.execSrc c pfx w s
  | .impreciseException c => Sys2Proof.Machine.execImpreciseException c s
  | .tileRun m t => Sys2Proof.Machine.execTileRun m t s
  | .tileHalt m t => Sys2Proof.Machine.execTileHalt m t s
  | .tileHalted t => Sys2Proof.Machine.execTileHalted t s
  | .tileStep m t => Sys2Proof.Machine.execTileStep m t s
  | .windowWrite m t w k v => Sys2Proof.Machine.execWindowWrite m t w k v s
  | .vsetcfg c pfx w => Sys2Proof.Machine.execVsetcfg c pfx w s
  | .vintegerOp c pfx w => Sys2Proof.Machine.execVintegerOp c pfx w s
  | .vfloatOp c pfx w => Sys2Proof.Machine.execVfloatOp c pfx w s
  | .vcompare c pfx w => Sys2Proof.Machine.execVcompare c pfx w s
  | .predicateOp c pfx w => Sys2Proof.Machine.execPredicateOp c pfx w s
  | .vectorMove c pfx w => Sys2Proof.Machine.execVectorMove c pfx w s
  | .vcvt c pfx w => Sys2Proof.Machine.execVcvt c pfx w s
  | .vld c pfx w => Sys2Proof.Machine.execVld c pfx w s
  | .vst c pfx w => Sys2Proof.Machine.execVst c pfx w s
  | .vlds c pfx w => Sys2Proof.Machine.execVlds c pfx w s
  | .vsts c pfx w => Sys2Proof.Machine.execVsts c pfx w s
  | .gather c pfx w => Sys2Proof.Machine.execGather c pfx w s
  | .scatter c pfx w => Sys2Proof.Machine.execScatter c pfx w s
  | .gatherF c pfx w => Sys2Proof.Machine.execGatherF c pfx w s
  | .ldf c pfx w => Sys2Proof.Machine.execLdf c pfx w s
  | .stf c pfx w => Sys2Proof.Machine.execStf c pfx w s
  | .vcompress c pfx w => Sys2Proof.Machine.execVcompress c pfx w s
  | .vexpand c pfx w => Sys2Proof.Machine.execVexpand c pfx w s
  | .vhash c pfx w => Sys2Proof.Machine.execVhash c pfx w s
  | .vsort c pfx w => Sys2Proof.Machine.execVsort c pfx w s
  | .vsortkv c pfx w => Sys2Proof.Machine.execVsortkv c pfx w s
  | .vmerge c pfx w => Sys2Proof.Machine.execVmerge c pfx w s
  | .vred c pfx w => Sys2Proof.Machine.execVred c pfx w s
  | .vsred c pfx w => Sys2Proof.Machine.execVsred c pfx w s
  | .vpack c pfx w => Sys2Proof.Machine.execVpack c pfx w s
  | .vunpack c pfx w => Sys2Proof.Machine.execVunpack c pfx w s
  | .vstrcmp c pfx w => Sys2Proof.Machine.execVstrcmp c pfx w s
  | .vstrcmpC c pfx w => Sys2Proof.Machine.execVstrcmpC c pfx w s
  | .vstrcmpPredicate c pfx w => Sys2Proof.Machine.execVstrcmpPredicate c pfx w s
  | .vhist c pfx w => Sys2Proof.Machine.execVhist c pfx w s
  | .vhistadd64 c pfx w => Sys2Proof.Machine.execVhistadd64 c pfx w s
  | .vgauge c pfx w => Sys2Proof.Machine.execVgauge c pfx w s
  | .vsend c pfx w => Sys2Proof.Machine.execVsend c pfx w s
  | .vrecv c pfx w => Sys2Proof.Machine.execVrecv c pfx w s
  | .sclose c pfx w => Sys2Proof.Machine.execSclose c pfx w s
  | .sstatOut c pfx w => Sys2Proof.Machine.execSstatOut c pfx w s
  | .sstatIn c pfx w => Sys2Proof.Machine.execSstatIn c pfx w s
  | .vdopen c pfx w => Sys2Proof.Machine.execVdopen c pfx w s
  | .vdecode c pfx w => Sys2Proof.Machine.execVdecode c pfx w s
  | .vdstat c pfx w => Sys2Proof.Machine.execVdstat c pfx w s
  | .vdclose c pfx w => Sys2Proof.Machine.execVdclose c pfx w s
  | .vamo c pfx w => Sys2Proof.Machine.execVamo c pfx w s
  | .amo c pfx w => Sys2Proof.Machine.execAmo c pfx w s
  | .streamElementArrive t ch far payload => Sys2Proof.Machine.execStreamElementArrive t ch far payload s
  | .streamCreditReturn t ch far => Sys2Proof.Machine.execStreamCreditReturn t ch far s
  | .channelReset m t inbound ch v => Sys2Proof.Machine.execChannelReset m t inbound ch v s
  | .installProgram tag image at' => Sys2Proof.Machine.execInstallProgram tag image at' s
  | .programRemove tag => Sys2Proof.Machine.execProgramRemove tag s
  | .run tag params room part => Sys2Proof.Machine.execRun tag params room part s
  | .stagePlace tag tiles before after => Sys2Proof.Machine.execStagePlace tag tiles before after s
  | .stageStart tag gen => Sys2Proof.Machine.execStageStart tag gen s
  | .runEnd tag status node => Sys2Proof.Machine.execRunEnd tag status node s
  | .runTimeLimit tag => Sys2Proof.Machine.execRunTimeLimit tag s
  | .hostSinkWrite t ch far sent payload => Sys2Proof.Machine.execHostSinkWrite t ch far sent payload s
  | .columnSinkWrite t ch far payload => Sys2Proof.Machine.execColumnSinkWrite t ch far payload s
  | .runCommit tag room => Sys2Proof.Machine.execRunCommit tag room s
  | .gaugeSearch m table rank key parity => Sys2Proof.Machine.execGaugeSearch m table rank key parity s
  | .gaugeCreate m slot v back => Sys2Proof.Machine.execGaugeCreate m slot v back s
  | .gaugeDestroy m slot v => Sys2Proof.Machine.execGaugeDestroy m slot v s
  | .gaugeSetAcl m slot v => Sys2Proof.Machine.execGaugeSetAcl m slot v s
  | .gaugeWrite m slot v back far => Sys2Proof.Machine.execGaugeWrite m slot v back far s
  | .gaugeSlotSearch m slot v => Sys2Proof.Machine.execGaugeSlotSearch m slot v s
  | .gaugeNext m slot v => Sys2Proof.Machine.execGaugeNext m slot v s
  | .gaugeReload m slot v back => Sys2Proof.Machine.execGaugeReload m slot v back s
  | .moveBank m slot v => Sys2Proof.Machine.execMoveBank m slot v s
  | .gaugeRead m slot v => Sys2Proof.Machine.execGaugeRead m slot v s
  | .gaugeScrubStep bad => Sys2Proof.Machine.execGaugeScrubStep bad s
  | .gaugeBankRetire m v => Sys2Proof.Machine.execGaugeBankRetire m v s
  | .gaugeShadowBaseWrite m hi v => Sys2Proof.Machine.execGaugeShadowBaseWrite m hi v s
  | .stippleCompress e frame => Sys2Proof.Machine.execStippleCompress e frame s
  | .stippleDecompress e => Sys2Proof.Machine.execStippleDecompress e s
  | .stippleEngineRetire m v => Sys2Proof.Machine.execStippleEngineRetire m v s
  | .proofUpdate e slot => Sys2Proof.Machine.execProofUpdate e slot s
  | .proofRead e slot => Sys2Proof.Machine.execProofRead e slot s
  | .proofCompare e slot => Sys2Proof.Machine.execProofCompare e slot s
  | .proofSave e slot => Sys2Proof.Machine.execProofSave e slot s
  | .proofRestore e slot => Sys2Proof.Machine.execProofRestore e slot s
  | .proofRelease e slot => Sys2Proof.Machine.execProofRelease e slot s
  | .proofQuantumEnd e => Sys2Proof.Machine.execProofQuantumEnd e s
  | .ringDoorbell m r v => Sys2Proof.Machine.execRingDoorbell m r v s
  | .ringFetch r again => Sys2Proof.Machine.execRingFetch r again s
  | .ringCompletionPost r tag => Sys2Proof.Machine.execRingCompletionPost r tag s
  | .ringCheadWrite m r v => Sys2Proof.Machine.execRingCheadWrite m r v s
  | .ringReset m r => Sys2Proof.Machine.execRingReset m r s
  | .dmaRunList ch host => Sys2Proof.Machine.execDmaRunList ch host s
  | .dmaModeWrite m v => Sys2Proof.Machine.execDmaModeWrite m v s
  | .dmaTimerExpire t => Sys2Proof.Machine.execDmaTimerExpire t s
  | .dmaBurstPromote ch => Sys2Proof.Machine.execDmaBurstPromote ch s
  | .dmaRegGo m ch v => Sys2Proof.Machine.execDmaRegGo m ch v s
  | .dmaRegDone ch host => Sys2Proof.Machine.execDmaRegDone ch host s
  | .spawn m slot v => Sys2Proof.Machine.execSpawn m slot v s
  | .wait m slot v => Sys2Proof.Machine.execWait m slot v s
  | .yield m slot v => Sys2Proof.Machine.execYield m slot v s
  | .exit m slot v => Sys2Proof.Machine.execExit m slot v s
  | .signal m slot v => Sys2Proof.Machine.execSignal m slot v s
  | .kill m slot v => Sys2Proof.Machine.execKill m slot v s
  | .setprio m slot v => Sys2Proof.Machine.execSetprio m slot v s
  | .resume m slot v => Sys2Proof.Machine.execResume m slot v s
  | .hardwareEvent e => Sys2Proof.Machine.execHardwareEvent e s
  | .threadPlace n => Sys2Proof.Machine.execThreadPlace n s
  | .preempt n => Sys2Proof.Machine.execPreempt n s
  | .coreRestart m n => Sys2Proof.Machine.execCoreRestart m n s
  | .hbmRead m dpa found => Sys2Proof.Machine.execHbmRead m dpa found s
  | .hbmWrite m dpa data found => Sys2Proof.Machine.execHbmWrite m dpa data found s
  | .requestAgePromote mc => Sys2Proof.Machine.execRequestAgePromote mc s
  | .stackTempRead k temp => Sys2Proof.Machine.execStackTempRead k temp s
  | .stackSwitch m k => Sys2Proof.Machine.execStackSwitch m k s
  | .stackSwitchDone k => Sys2Proof.Machine.execStackSwitchDone k s
  | .mcThaw m mc v => Sys2Proof.Machine.execMcThaw m mc v s
  | .ppr m mc v => Sys2Proof.Machine.execPpr m mc v s
  | .pprDone mc result => Sys2Proof.Machine.execPprDone mc result s
  | .channelRetire m v => Sys2Proof.Machine.execChannelRetire m v s
  | .channelRetireDone => Sys2Proof.Machine.execChannelRetireDone s
  | .mirrorEnable m n v => Sys2Proof.Machine.execMirrorEnable m n v s
  | .mirrorSync m n => Sys2Proof.Machine.execMirrorSync m n s
  | .mirrorSyncDone n => Sys2Proof.Machine.execMirrorSyncDone n s
  | .patrolScrubStep mc found => Sys2Proof.Machine.execPatrolScrubStep mc found s
  | .cacheRequest r err => Sys2Proof.Machine.execCacheRequest r err s
  | .scInvalidate m => Sys2Proof.Machine.execScInvalidate m s
  | .scEnable m => Sys2Proof.Machine.execScEnable m s
  | .scDisable m => Sys2Proof.Machine.execScDisable m s
  | .scDisableDone => Sys2Proof.Machine.execScDisableDone s
  | .scRangeInvalidate m => Sys2Proof.Machine.execScRangeInvalidate m s
  | .scRangeClean m => Sys2Proof.Machine.execScRangeClean m s
  | .scRangeCleanInvalidate m => Sys2Proof.Machine.execScRangeCleanInvalidate m s
  | .scRangeLockFill m => Sys2Proof.Machine.execScRangeLockFill m s
  | .scRangeDone => Sys2Proof.Machine.execScRangeDone s
  | .l1Invalidate m t => Sys2Proof.Machine.execL1Invalidate m t s
  | .l1Enable m t => Sys2Proof.Machine.execL1Enable m t s
  | .flitRetransmit r port control => Sys2Proof.Machine.execFlitRetransmit r port control s
  | .linkDead r port => Sys2Proof.Machine.execLinkDead r port s
  | .routerFreeze m r => Sys2Proof.Machine.execRouterFreeze m r s
  | .routerUnfreeze m r => Sys2Proof.Machine.execRouterUnfreeze m r s
  | .routerFreezeExpire r => Sys2Proof.Machine.execRouterFreezeExpire r s
  | .routeWrite m r d v => Sys2Proof.Machine.execRouteWrite m r d v s
  | .linkFlitReceive port c => Sys2Proof.Machine.execLinkFlitReceive port c s
  | .nak port ack => Sys2Proof.Machine.execNak port ack s
  | .replayTimeout port => Sys2Proof.Machine.execReplayTimeout port s
  | .portRetrain port => Sys2Proof.Machine.execPortRetrain port s
  | .trainingAttemptEnd port lanes => Sys2Proof.Machine.execTrainingAttemptEnd port lanes s
  | .portRestore m port => Sys2Proof.Machine.execPortRestore m port s
  | .portRetire m port => Sys2Proof.Machine.execPortRetire m port s
  | .helloSend port => Sys2Proof.Machine.execHelloSend port s
  | .hello port k => Sys2Proof.Machine.execHello port k s
  | .neighbourTimeout port => Sys2Proof.Machine.execNeighbourTimeout port s
  | .wardenElect warden self => Sys2Proof.Machine.execWardenElect warden self s
  | .mgmtRead port k => Sys2Proof.Machine.execMgmtRead port k s
  | .mgmtWrite port k => Sys2Proof.Machine.execMgmtWrite port k s
  | .mgmtRsp port k => Sys2Proof.Machine.execMgmtRsp port k s
  | .linkEvent port => Sys2Proof.Machine.execLinkEvent port s
  | .routeSwap m => Sys2Proof.Machine.execRouteSwap m s
  | .hatchPacketForward port k => Sys2Proof.Machine.execHatchPacketForward port k s
  | .packetPortTimeout port k => Sys2Proof.Machine.execPacketPortTimeout port k s
  | .hatchRead port k => Sys2Proof.Machine.execHatchRead port k s
  | .hatchWrite port k => Sys2Proof.Machine.execHatchWrite port k s
  | .hatchSubmit port k => Sys2Proof.Machine.execHatchSubmit port k s
  | .hatchNotify port k => Sys2Proof.Machine.execHatchNotify port k s
  | .hatchStream port k => Sys2Proof.Machine.execHatchStream port k s
  | .hatchStreamEnd port k => Sys2Proof.Machine.execHatchStreamEnd port k s
  | .readData port k => Sys2Proof.Machine.execReadData port k s
  | .hatchAck port k => Sys2Proof.Machine.execHatchAck port k s
  | .streamCredit port k => Sys2Proof.Machine.execStreamCredit port k s
  | .remoteApertureRequest r => Sys2Proof.Machine.execRemoteApertureRequest r s
  | .hatchJobRead ring tag => Sys2Proof.Machine.execHatchJobRead ring tag s
  | .hatchJobWrite ring tag => Sys2Proof.Machine.execHatchJobWrite ring tag s
  | .hatchJobSubmit ring tag => Sys2Proof.Machine.execHatchJobSubmit ring tag s
  | .hatchJobNotify ring tag => Sys2Proof.Machine.execHatchJobNotify ring tag s
  | .transactionTimeout tag => Sys2Proof.Machine.execTransactionTimeout tag s
  | .landingQueueReset m q => Sys2Proof.Machine.execLandingQueueReset m q s
  | .landingQueueHeadWrite m q v => Sys2Proof.Machine.execLandingQueueHeadWrite m q v s
  | .pairCommit m => Sys2Proof.Machine.execPairCommit m s
  | .pairQueryRepeat port => Sys2Proof.Machine.execPairQueryRepeat port s
  | .pairCommitTimeout => Sys2Proof.Machine.execPairCommitTimeout s
  | .pairQuery port k => Sys2Proof.Machine.execPairQuery port k s
  | .pairReply port k => Sys2Proof.Machine.execPairReply port k s
  | .pairNoticePowerFail port => Sys2Proof.Machine.execPairNoticePowerFail port s
  | .pairNoticeFreeze port epoch tag => Sys2Proof.Machine.execPairNoticeFreeze port epoch tag s
  | .pairUnpair m => Sys2Proof.Machine.execPairUnpair m s
  | .pairForm => Sys2Proof.Machine.execPairForm s
  | .pairFormTimeout => Sys2Proof.Machine.execPairFormTimeout s
  | .halfLost => Sys2Proof.Machine.execHalfLost s
  | .backHostLinkPresent => Sys2Proof.Machine.execBackHostLinkPresent s
  | .regionLoad m v => Sys2Proof.Machine.execRegionLoad m v s
  | .backgroundCopy chunk loc comp => Sys2Proof.Machine.execBackgroundCopy chunk loc comp s
  | .powerFailEtch worn => Sys2Proof.Machine.execPowerFailEtch worn s
  | .etchGo m worn => Sys2Proof.Machine.execEtchGo m worn s
  | .etchGoTimeout => Sys2Proof.Machine.execEtchGoTimeout s
  | .etchDeadline => Sys2Proof.Machine.execEtchDeadline s
  | .bankReserveReached => Sys2Proof.Machine.execBankReserveReached s
  | .etchComplete => Sys2Proof.Machine.execEtchComplete s
  | .print bad worn => Sys2Proof.Machine.execPrint bad worn s
  | .reprint ring tag bad => Sys2Proof.Machine.execReprint ring tag bad s
  | .verify ring tag bad => Sys2Proof.Machine.execVerify ring tag bad s
  | .nvmeCommandComplete d ok => Sys2Proof.Machine.execNvmeCommandComplete d ok s
  | .nvmeCommandTimeout d => Sys2Proof.Machine.execNvmeCommandTimeout d s
  | .smartPoll d warn used spare units errors => Sys2Proof.Machine.execSmartPoll d warn used spare units errors s
  | .bankTestTimer => Sys2Proof.Machine.execBankTestTimer s
  | .bankTestDone usable esr => Sys2Proof.Machine.execBankTestDone usable esr s
  | .domainPowerDown m d drained => Sys2Proof.Machine.execDomainPowerDown m d drained s
  | .drainTimeout d holder => Sys2Proof.Machine.execDrainTimeout d holder s
  | .domainPowerUp m d wake => Sys2Proof.Machine.execDomainPowerUp m d wake s
  | .domainPowerUpDone d => Sys2Proof.Machine.execDomainPowerUpDone d s
  | .domainRequestHeld r => Sys2Proof.Machine.execDomainRequestHeld r s
  | .tileClockGate t => Sys2Proof.Machine.execTileClockGate t s
  | .quadrantPllStop k => Sys2Proof.Machine.execQuadrantPllStop k s
  | .quadrantPllRelock k => Sys2Proof.Machine.execQuadrantPllRelock k s
  | .vigilEnter m => Sys2Proof.Machine.execVigilEnter m s
  | .vigilExit => Sys2Proof.Machine.execVigilExit s
  | .wakeSource b => Sys2Proof.Machine.execWakeSource b s
  | .wakePattern port words => Sys2Proof.Machine.execWakePattern port words s
  | .keepaliveSend port => Sys2Proof.Machine.execKeepaliveSend port s
  | .wakeSend m v => Sys2Proof.Machine.execWakeSend m v s
  | .alarm => Sys2Proof.Machine.execAlarm s
  | .supplyFailure => Sys2Proof.Machine.execSupplyFailure s
  | .thermalSample temps power input => Sys2Proof.Machine.execThermalSample temps power input s
  | .throttleStep k => Sys2Proof.Machine.execThrottleStep k s
  | .frequencyPointChange k => Sys2Proof.Machine.execFrequencyPointChange k s
  | .orderlyReset m => Sys2Proof.Machine.execOrderlyReset m s
  | .immediateReset m => Sys2Proof.Machine.execImmediateReset m s
  | .coldReset => Sys2Proof.Machine.execColdReset s
  | .boot => Sys2Proof.Machine.execBoot s
  | .watchdogExpire => Sys2Proof.Machine.execWatchdogExpire s
  | .watchdogKick m v => Sys2Proof.Machine.execWatchdogKick m v s
  | .bootOk m v => Sys2Proof.Machine.execBootOk m v s
  | .modeEnter m v => Sys2Proof.Machine.execModeEnter m v s
  | .recoveryGo m v => Sys2Proof.Machine.execRecoveryGo m v s
  | .perst asserted => Sys2Proof.Machine.execPerst asserted s
  | .flr fn => Sys2Proof.Machine.execFlr fn s
  | .hotReset => Sys2Proof.Machine.execHotReset s
  | .linkDown => Sys2Proof.Machine.execLinkDown s
  | .sqKick m q => Sys2Proof.Machine.execSqKick m q s
  | .cqHead m q v => Sys2Proof.Machine.execCqHead m q v s
  | .sqFetch q entry block again tag => Sys2Proof.Machine.execSqFetch q entry block again tag s
  | .completionPost tag => Sys2Proof.Machine.execCompletionPost tag s
  | .coalesceTimeout q => Sys2Proof.Machine.execCoalesceTimeout q s
  | .adminPairCreate fn => Sys2Proof.Machine.execAdminPairCreate fn s
  | .adminPairDelete fn => Sys2Proof.Machine.execAdminPairDelete fn s
  | .clampGrant tag => Sys2Proof.Machine.execClampGrant tag s
  | .clampTimeout tag => Sys2Proof.Machine.execClampTimeout tag s
  | .identify tag => Sys2Proof.Machine.execIdentify tag s
  | .getLog tag => Sys2Proof.Machine.execGetLog tag s
  | .setFeature tag => Sys2Proof.Machine.execSetFeature tag s
  | .getFeature tag => Sys2Proof.Machine.execGetFeature tag s
  | .createQp tag => Sys2Proof.Machine.execCreateQp tag s
  | .deleteQp tag => Sys2Proof.Machine.execDeleteQp tag s
  | .fwDownload tag data => Sys2Proof.Machine.execFwDownload tag data s
  | .fwCommit tag store => Sys2Proof.Machine.execFwCommit tag store s
  | .liveFirmwareUpdate tag taken store => Sys2Proof.Machine.execLiveFirmwareUpdate tag taken store s
  | .abort tag => Sys2Proof.Machine.execAbort tag s
  | .tileService tag => Sys2Proof.Machine.execTileService tag s
  | .plateEtch tag worn => Sys2Proof.Machine.execPlateEtch tag worn s
  | .plateBankTest tag => Sys2Proof.Machine.execPlateBankTest tag s
  | .plateInvalidate tag => Sys2Proof.Machine.execPlateInvalidate tag s
  | .plateSanitize tag => Sys2Proof.Machine.execPlateSanitize tag s
  | .load tag dir cols room => Sys2Proof.Machine.execLoad tag dir cols room s
  | .loadPublishPhase tag => Sys2Proof.Machine.execLoadPublishPhase tag s
  | .patch tag dir cols room => Sys2Proof.Machine.execPatch tag dir cols room s
  | .exportRows tag => Sys2Proof.Machine.execExportRows tag s
  | .publishEpoch tag => Sys2Proof.Machine.execPublishEpoch tag s
  | .publishCommit tag => Sys2Proof.Machine.execPublishCommit tag s
  | .epochWithdraw tag => Sys2Proof.Machine.execEpochWithdraw tag s
  | .plateMark tag => Sys2Proof.Machine.execPlateMark tag s
  | .tileRetire m hi v back => Sys2Proof.Machine.execTileRetire m hi v back s
  | .insertion => Sys2Proof.Machine.execInsertion s
  | .powerGood => Sys2Proof.Machine.execPowerGood s
  | .removal => Sys2Proof.Machine.execRemoval s
  | .overcurrentCutoff => Sys2Proof.Machine.execOvercurrentCutoff s
  | .cablePresence port present => Sys2Proof.Machine.execCablePresence port present s
  | .shed low => Sys2Proof.Machine.execShed low s
  | .mctpControl req => Sys2Proof.Machine.execMctpControl req s
  | .mctpStatus req => Sys2Proof.Machine.execMctpStatus req s
  | .sensorRead req => Sys2Proof.Machine.execSensorRead req s
  | .fruRead req => Sys2Proof.Machine.execFruRead req s
  | .logRead req => Sys2Proof.Machine.execLogRead req s
  | .regRead req => Sys2Proof.Machine.execRegRead req s
  | .regWrite req => Sys2Proof.Machine.execRegWrite req s
  | .mctpReset req => Sys2Proof.Machine.execMctpReset req s
  | .i3cCcc ccc data => Sys2Proof.Machine.execI3cCcc ccc data s
  | .jtagInstruction insn => Sys2Proof.Machine.execJtagInstruction insn s
  | .deadLinkAcknowledge r port => Sys2Proof.Machine.execDeadLinkAcknowledge r port s
  | .hostCompletionTimeout what => Sys2Proof.Machine.execHostCompletionTimeout what s
  | .freezeNoticeRepeat => Sys2Proof.Machine.execFreezeNoticeRepeat s
  | .bankReady joules charging => Sys2Proof.Machine.execBankReady joules charging s
  | .auxiliaryInputChange present => Sys2Proof.Machine.execAuxiliaryInputChange present s
  | .hrefclkChange present => Sys2Proof.Machine.execHrefclkChange present s
  | .scInvalidateDone => Sys2Proof.Machine.execScInvalidateDone s
  | .l1InvalidateDone t => Sys2Proof.Machine.execL1InvalidateDone t s
  | .vigilEntryDone refused => Sys2Proof.Machine.execVigilEntryDone refused s
  | .moveBankSwitch slot => Sys2Proof.Machine.execMoveBankSwitch slot s

end Sys2Proof.Machine
end

