-- ==== Sys2Proof/Machine/Step.lean ====
section
/-! DEFINITION. One step of the block: the command at the front of the queue, or the passing of time. -/
namespace Sys2Proof.Machine

/-- The block with nothing waiting: a nanosecond passes (DESIGN CHOICE; the time-driven events are
commands of the table). -/
def State.idle (s : State) : State := { s with time := s.time + 1 }

/-- The command at the front of the queue is taken and done on the rest. -/
def step (s : State) : Host.Outcome State Fault Refusal :=
  match s.pending with
  | [] => .next s.idle
  | c :: rest => exec c { s with pending := rest }

/-- The command that a word spells put at the front of the queue. -/
def State.withFetchWord (s : State) (nbits w : Nat) : State :=
  match decodeTableWord nbits w with
  | some c => { s with pending := c :: s.pending }
  | none => s

end Sys2Proof.Machine
end

