-- ==== Sys2Proof/Safety.lean ====
section
/-! DEFINITION. The terms in which claims about the block are made: what a safe outcome is, the invariants of the state, how a
register command reaches its unit, and how an instruction of a core ends. -/

namespace Sys2Proof.Machine

/-- A safe outcome: the block goes on with a next state. -/
def Safe (o : Host.Outcome State Fault Refusal) : Prop := ∃ t, o = .next t

/-- Guard has taken notice of its interrupt condition as it stands (R483). -/
def State.guardSeen (s : State) : Bool := s.guardRaised == s.guardCondition

/-- The flat store of HBM, benches and keep store is in canonical form. -/
def Memory.wf (s : State) : Bool := FMap.wf (memDefault s.haze) s.mem

/-- An admitted access of master `m` to the register at `off` reaches its unit, which finds the state `t`: its domain is on, the
tile it may belong to is awake, and the unit takes writes to it in this state (R442, R446, R447, R513). -/
abbrev State.Reaches (s : State) (m off : Nat) (t : State) : Prop :=
  s.domainGate (.reg off) m (regDpa off) = none ∧ t = s.wakeTile (.reg off) ∧ t.regShut m off = false

/-- The access of the command was answered OK. -/
def State.acked (s : State) : State := s.mcAnswer (MemAnswer.stop St.ok)

/-- A packet of OP `op` comes in on port `p`: Hatch is on, and the port works or the packet is the module's own (R370, R379). -/
abbrev State.Receives (s : State) (p op : Nat) (k : Packet) : Prop :=
  k.op = op ∧ s.domState 12 = 0 ∧ (s.portState p = 2 ∨ s.portState p = 5 ∨ s.ownFid = some k.src)

/-- The offset in its tile's bench of an effective address of the bench window (R86). -/
def benchOff (ea : DWord) : Nat := ea.toNat % 2 ^ 48 - 0xFFFFFFE00000

/-- The `k` bytes at an effective address are aligned and lie in the bench window of a tile (R80, R84, R86). -/
def InBench (ea : DWord) (k : Nat) : Prop :=
  canonical ea = true ∧ ea.toNat % k = 0 ∧ 0xFFFFFFE00000 ≤ ea.toNat % 2 ^ 48 ∧ ea.toNat % 2 ^ 48 + k ≤ 2 ^ 48

/-- Nothing that the Gauge has accepted is waiting for it (R181, R189). -/
def State.GaugeIdle (s : State) : Prop := s.gaugeQueue = [] ∧ s.gaugeDone = [] ∧ s.arbFrozen 3 = false ∧ ∀ k ∈ s.gaugeWaits, s.gSlotOp k = 4

/-- Master `m` may search table `t` for `key`: the table and its half are there, access table 0x01 and the range of the table admit the
master, and no match has bad parity (R178, R179, R182, R187, R191). -/
def State.Searches (s : State) (m t : Nat) (key : List DWord) : Prop :=
  s.gTable t = true ∧ key.length = s.gWidth t ∧ s.gLost t = false ∧ s.newlyBroken 0x01 = [] ∧
    s.verdict 0x01 m searchGranule (8 * s.gWidth t) Rights.read = St.ok ∧
    s.fld (Reg.GAU_TBL_ACL t) 11 0 ≤ m ∧ m ≤ s.fld (Reg.GAU_TBL_ACL t) 23 12 ∧ s.bit (Reg.GAU_TBL_CFG t) 30 = false ∧
    ∀ f ∈ s.gMatches t key, f.row.bad = false

/-- Core `c` executes instructions. -/
abbrev State.Runs (s : State) (c : Nat) : Prop := okCore c = true ∧ s.running c = true

/-- The word and prefix of an instruction that the core has (R76, R99). -/
abbrev Executable (c : Nat) (pfx : Option Word) (w : Word) : Prop :=
  prefixOf? pfx ≠ .illegal ∧ major w ≠ 0x7F ∧ (c < 128 ∨ headMajor w = true)

/-- What an instruction of core `c` with a prefix and a word works on. -/
def State.ctx (s : State) (c : Nat) (pfx : Option Word) (w : Word) : Ctx :=
  ⟨c, s.core c, prefixOf? pfx, w, if pfx.isSome then 8 else 4, bus⟩

/-- The instruction of core `c` has completed and left the core `k`: the answers it took are dropped, and a tile that was stepping
stops (R96). -/
def State.retire (s : State) (c : Nat) (k : Core) : State := ((s.setCore c k).purgeFar (coreMaster c)).afterInsn c false

/-- The instruction of core `c` has raised `e`, leaving the core `k` (R92): a tile stops, a Headstock core traps. -/
def State.trapped (s : State) (c : Nat) (k : Core) (e : Exc) : State :=
  (((s.setCore c k).except c e).purgeFar (coreMaster c)).afterInsn c false

end Sys2Proof.Machine
end

