-- ==== Sys2Proof/Certificates/Slice0/Obligations.lean ====
section
/-! DEFINITION. The statements about the block that the provers are asked for. -/
open Sys2Proof Sys2Proof.Machine

/-- A step takes the command at the front of the queue and executes it on the queue's rest (the queue is the model's, log entry 1). -/
def Obligations.FrontCommandIsExecuted : Prop :=
  ∀ (s : State) (c : Instr) (rest : List Instr), step { s with pending := c :: rest } = exec c { s with pending := rest }

/-- A step on an empty queue lets one nanosecond pass and changes nothing else: the model's choice, log entry 1. -/
def Obligations.EmptyQueuePassesOneNanosecond : Prop :=
  ∀ s : State, s.pending = [] → step s = .next { s with time := s.time + 1 }

/-- No command of the table stops the block, and none changes the queue of those that wait. Where the spec leaves a point open, the model's
choice: log entry 1. -/
def Obligations.EveryCommandCompletesAndKeepsTheQueue : Prop :=
  ∀ (i : Instr) (s : State), ∃ t, exec i s = .next t ∧ t.pending = s.pending

/-- A command whose operands name no part of the block changes nothing: the model's choice, log entry 1. -/
def Obligations.IllFormedCommandChangesNothing : Prop :=
  ∀ (i : Instr) (s : State), i.wf = false → exec i s = .next s

/-- Guard has always taken notice of its interrupt condition (R483): the invariant that every step keeps. That Guard looks at the
end of each command is the model's choice, log entry 3. -/
def Obligations.EveryStepLeavesGuardInformed : Prop :=
  ∀ s t : State, s.guardSeen = true → step s = .next t → t.guardSeen = true

/-- Register writes by access code (R5), and narrow or misaligned accesses (R8). Where the spec leaves a point open, the model's
choice: log entry 20. -/
def Obligations.RegisterWritesActByAccessCode : Prop :=
  (∀ (s t : State) (m a : Nat) (v : Word) (r : RegRow), m < 4096 → a < 0x1000000 → s.Reaches m a t → regRow? a = some r →
    isPairLo a = false → (4 ≤ a → isPairLo (a - 4) = false) →
    exec (.registerWrite m a v) s = .next (s.seal (t.wordTake (busAt 65) m a v).acked) ∧
    (0x2000 ≤ a ∧ a < 0x10000 ∨ 0x30000 ≤ a ∧ a < 0x200000 ∨ 0x7C0000 ≤ a ∧ a < 0x800000 →
      t.wordTake (busAt 65) m a v =
        (t.wr a (BitVec.ofNat 32 (r.write (t.rd a).toNat v.toNat))).settle a)) ∧
  (∀ (f : RegField) (old v w i : Nat), f.lo ≤ f.hi →
    (f.write old v w).testBit i =
      if f.lo ≤ i ∧ i ≤ f.hi then
        (match f.acc with
        | .rw => v.testBit i
        | .ro | .wo => old.testBit i
        | .w1c => old.testBit i && !v.testBit i
        | .w1s => old.testBit i || v.testBit i)
      else w.testBit i) ∧
  (∀ (s t : State) (m a len : Nat) (wr : Option (List Byte)), m < 4096 → a < 0x1000000 → 0 < len → len ≤ 8 →
    ¬ (len = 4 ∧ a % 4 = 0) → ¬ (len = 8 ∧ a % 8 = 0) →
    s.domainGate (.reg a) m (regDpa a) = none → t = s.wakeTile (.reg a) →
    (wr = none →
      exec (.unalignedRegisterAccess m a len wr) s = .next (s.seal (t.mcAnswer ⟨St.ok, t.regPeek m a len, false⟩))) ∧
    (∀ d, wr = some d → d.length = len →
      exec (.unalignedRegisterAccess m a len wr) s = .next (s.seal (t.refuse m a St.accessDenied).acked)))

/-- Register pairs (R7). Where the spec leaves a point open, the model's
choice: log entries 15, 16. -/
def Obligations.RegisterPairsActWhole : Prop :=
  ∀ (s t : State) (m a : Nat) (v : Word), m < 4096 → a < 0x1000000 → a % 4 = 0 →
    s.domainGate (.reg a) m (regDpa a) = none → t = s.wakeTile (.reg a) →
    let k := regKey m a
    (isPairLo a = true →
      exec (.pairLoRead m a) s =
        .next (s.seal (State.mcAnswer { t with captured := FMap.setD t.captured k (some ⟨m, t.view m (a + 4)⟩) }
          ⟨St.ok, natLE 4 (t.view m a).toNat, false⟩)) ∧
      ((regRow? a).isSome = true → t.regShut m a = false →
        exec (.pairLoWrite m a v) s =
          .next (s.seal (State.acked { t with held := FMap.setD t.held k (some ⟨m, v⟩) })))) ∧
    (4 ≤ a → isPairLo (a - 4) = true → isPairLo a = false →
      (∀ c, FMap.getD t.captured (k - 4) = some c → c.master = m →
        exec (.pairHiRead m a) s =
          .next (s.seal (State.mcAnswer { t with captured := FMap.setD t.captured (k - 4) none }
            ⟨St.ok, natLE 4 c.value.toNat, false⟩))) ∧
      ((∀ c, FMap.getD t.captured (k - 4) = some c → c.master ≠ m) →
        exec (.pairHiRead m a) s = .next (s.seal (t.mcAnswer ⟨St.ok, natLE 4 (t.view m a).toNat, false⟩))) ∧
      ((regRow? a).isSome = true → t.regShut m a = false →
        (∀ h, FMap.getD t.held (k - 4) = some h → h.master = m →
          exec (.pairHiWrite m a v) s =
            .next (s.seal (State.pairTake { t with held := FMap.setD t.held (k - 4) none } m (a - 4) (some h.value) v).acked)) ∧
        ((∀ h, FMap.getD t.held (k - 4) = some h → h.master ≠ m) →
          exec (.pairHiWrite m a v) s = .next (s.seal (t.pairTake m (a - 4) none v).acked)))) ∧
    (∀ h, State.view { t with held := h } m a = t.view m a)

/-- A request to a target (R25, R34, R35), and the check of its payload (R41, R359). Where the spec leaves a point open, the model's
choice: log entries 14, 18, 19, 21, 105, 106, 134. -/
def Obligations.RequestsAreJudgedThenServed : Prop :=
  ∀ (s : State) (r : Request) (payload : Ecc), r.ok = true →
    (∀ op new, r.kind ≠ .atomic op new) → s.wayHolds (s.region r.dpa r.len) r.master r.len = false →
    (s.region r.dpa r.len = .unmapped →
      exec (.targetRequest r payload) s =
        .next (s.seal ((s.report ⟨St.accessDenied, 0xFF, 2, r.master, r.dpa, 0xFFFF, 0⟩).mcAnswer ⟨St.accessDenied, [], false⟩))) ∧
    (s.region r.dpa r.len = .lost →
      exec (.targetRequest r payload) s = .next (s.seal (s.mcAnswer ⟨0x0604, [], false⟩))) ∧
    (∀ g, s.region r.dpa r.len = g →
      (∃ n o, g = .bench n o) ∨ (∃ o, g = .reg o) ∨ (∃ o, g = .keep o) →
      s.domainGate g r.master r.dpa = none → s.newlyBroken g.table = [] →
      let v := s.verdict g.table r.master r.dpa r.len (g.rights r)
      (v = St.ok ↔
        ∃ i, i < 128 ∧ s.isFaulted g.table i = false ∧ s.grantMatches g.table i r.master r.dpa r.len (g.rights r) = true) ∧
      (v ≠ St.ok →
        exec (.targetRequest r payload) s =
          .next (s.seal ((s.reportDenied ⟨v, g.table, 2, r.master, r.dpa, 0xFFFF, 0⟩).mcAnswer ⟨v, [], false⟩))) ∧
      (v = St.ok →
        (∀ n o, g = .bench n o → r.kind = .read →
          exec (.targetRequest r payload) s =
            .next (s.seal ((s.ungate n).mcAnswer ⟨St.ok, s.bytes (benchAt n o) r.len, s.anyPoison (benchAt n o) r.len || payload = .uncorrectable⟩))) ∧
        (∀ n o, g = .bench n o → r.kind = .write →
          exec (.targetRequest r payload) s = .next (s.seal ((s.ungate n).benchStore n o r.data (payload = .uncorrectable)).acked)) ∧
        (∀ o, g = .keep o → r.kind = .read →
          exec (.targetRequest r payload) s =
            .next (s.seal (s.mcAnswer ⟨St.ok, s.bytes (keepAt o) r.len, s.anyPoison (keepAt o) r.len || payload = .uncorrectable⟩))) ∧
        (∀ o, g = .reg o → o % 4 = 0 → r.len = 4 → r.kind = .read →
          let a := (s.wakeTile g).regRead r.master o
          exec (.targetRequest r payload) s = .next (s.seal (a.2.mcAnswer ⟨St.ok, natLE 4 a.1.toNat, payload = .uncorrectable⟩)))))

/-- Host accesses (R30 to R32, R35). Where the spec leaves a point open, the model's
choice: log entries 11, 27. -/
def Obligations.HostAccessesPassTheirTables : Prop :=
  ∀ (s : State) (fn off len : Nat) (wr : Option (List Byte)), fn < 128 → s.hostUp fn = true → okAccess 4096 len wr = true →
    let told (t : State) (no : Bool) : State := if no then { t with sent := t.sent ++ [.aer fn .completerAbort] } else t
    let served (r : Request) : State :=
      let (a, t) := s.request bus r false
      let no : Bool := wr.isNone && a.status ≠ St.ok && a.status ≠ St.held
      { told t no with answer := ⟨a.status, a.data, no, wr.isNone && a.poison⟩ }
    let failed (t : State) (st : Nat) : State := { told t wr.isNone with answer := ⟨st, [], wr.isNone, false⟩ }
    (off < 524288 → len ≤ 8 →
      exec (.bar2Access fn off len wr) s = .next (s.seal (served (hostRequest fn (0x20001000000 + off) len wr)))) ∧
    (off < 0x1000000 → len ≤ 8 → s.newlyBroken 0x06 = [] →
      let r := hostRequest fn (0x20000000000 + off) len wr
      let v := s.verdict 0x06 fn r.dpa len ((s.region r.dpa len).rights r)
      (v = St.ok → exec (.bar0Access fn off len wr) s = .next (s.seal (served r))) ∧
      (v ≠ St.ok → exec (.bar0Access fn off len wr) s =
        .next (s.seal (failed (s.reportDenied ⟨v, 0x06, 2, fn, r.dpa, 0xFFFF, 0⟩) v)))) ∧
    (okSlice fn off = true → off % 4096 + len ≤ 4096 →
      let n := if fn = 0 then off / 2 ^ 32 % 16 else 15 + fn
      let e := s.rd64 (Reg.GLB_B4MAP_LO n)
      let r := hostRequest fn (2 ^ 30 * bits e 17 0 + off % 2 ^ 32) len wr
      (cp32Ok e = false → exec (.bar4Access fn off len wr) s =
        .next (s.seal (failed (s.report ⟨St.complementMismatch, 0x9B, 2, fn, 0, 0xFFFF, n⟩) St.complementMismatch))) ∧
      (cp32Ok e = true → e.testBit 31 = false → exec (.bar4Access fn off len wr) s =
        .next (s.seal (failed (s.report ⟨St.accessDenied, 0x9B, 2, fn, 0, 0xFFFF, n⟩) St.accessDenied))) ∧
      (cp32Ok e = true → e.testBit 31 = true →
        (s.region r.dpa len = .unmapped → exec (.bar4Access fn off len wr) s = .next (s.seal (served r))) ∧
        ((s.region r.dpa len).shutToBar4 = true → exec (.bar4Access fn off len wr) s =
          .next (s.seal (failed (s.report ⟨St.accessDenied, 0x08, 2, fn, r.dpa, 0xFFFF, 0⟩) St.accessDenied))) ∧
        (s.region r.dpa len ≠ .unmapped → (s.region r.dpa len).shutToBar4 = false → s.newlyBroken 0x08 = [] →
          let v := s.verdict 0x08 fn r.dpa len ((s.region r.dpa len).rights r)
          (v = St.ok → exec (.bar4Access fn off len wr) s = .next (s.seal (served r))) ∧
          (v ≠ St.ok → exec (.bar4Access fn off len wr) s =
            .next (s.seal (failed (s.reportDenied ⟨v, 0x08, 2, fn, r.dpa, 0xFFFF, 0⟩) v))))))

/-- A report enters Guard (R43, R44). Where the spec leaves a point open, the model's
choice: log entries 3, 19, 104. -/
def Obligations.GuardMergesStoresOrCountsReports : Prop :=
  (∀ (s : State) (r : Report) (n : Nat), r.ok = true → r.status = St.poisonedData → r.severity = 2 → n < 64 →
    Tgt.tile (s.pairTile n) = r.target →
    let u := s.report r
    let now := u.time.toNat
    let hits := (FMap.getD u.boot.benchErrors n).filter (fun t => now < t + dayNs) ++ [now]
    let v := State.setMark { u with boot := { u.boot with benchErrors := FMap.setD u.boot.benchErrors n hits } }
      (benchAt n (r.address % 0x200000) / 64) true
    exec (.guardReport r) s = .next (s.seal (if 3 ≤ hits.length then
      (v.setFld (if n < 32 then Reg.GLB_TILE_FAILING_LO else Reg.GLB_TILE_FAILING_HI) (n % 32) (n % 32) 1).guardEdge else v))) ∧
  ∀ (s : State) (r : Report), r.ok = true →
    ¬ (r.status = St.poisonedData ∧ r.severity = 2 ∧ ∃ n, n < 64 ∧ Tgt.tile (s.pairTile n) = r.target) →
    let w := s.fld Reg.GRD_ELOG_WR 8 0
    let rd := s.fld Reg.GRD_ELOG_RD 8 0
    let at' := Reg.GRD_ELOG_W0 (w % 256)
    let newest := Reg.GRD_ELOG_W0 ((w + 255) % 256)
    let merges := w ≠ rd ∧ bits (s.rd newest).toNat 31 8 = bits (reportWord0 r) 31 8 ∧
      (s.rd (newest + 4)).toNat = r.master % 2 ^ 12
    (merges →
      exec (.guardReport r) s = .next (s.seal (State.guardEdge
        (((s.setFld (newest + 0x18) 31 16 (min (s.fld (newest + 0x18) 31 16 + 1) 0xFFFF)).wr64 (newest + 0x10) s.time.toNat).setFld
          Reg.GRD_INT_STATUS 0 0 1)))) ∧
    (¬ merges → 256 ≤ (w + 512 - rd) % 512 →
      exec (.guardReport r) s = .next (s.seal (State.guardEdge
        ((s.setFld Reg.GRD_ELOG_LOST 31 0 (min (s.fld Reg.GRD_ELOG_LOST 31 0 + 1) 0xFFFFFFFF)).setFld Reg.GRD_INT_STATUS 2 2 1)))) ∧
    (¬ merges → (w + 512 - rd) % 512 < 256 →
      let u := ((s.wrWords at' (reportWords r s.time.toNat)).setFld Reg.GRD_ELOG_WR 8 0 ((w + 1) % 512)).setFld Reg.GRD_INT_STATUS 0 0 1
      exec (.guardReport r) s =
        .next (s.seal (if r.severity = 3 ∨ r.severity = 4 then u.setFld Reg.GRD_INT_STATUS 1 1 1 else u).guardEdge))

/-- Writes of grants (R36, R37) and of affinity blocks (R28, R29). Where the spec leaves a point open, the model's
choice: log entries 15, 17. -/
def Obligations.GrantsAndAffinityTakeTheirWrites : Prop :=
  (∀ (s t : State) (m i g k : Nat) (v : Word), m < 4096 → i < 12 → g < 128 → k < 6 →
    s.domainGate (.reg (grantAt i g + 4 * k)) m (regDpa (grantAt i g + 4 * k)) = none →
    t = s.wakeTile (.reg (grantAt i g + 4 * k)) →
    (regRow? (grantAt i g + 4 * k)).isSome = true →
    (k % 2 = 0 → isPairLo (grantAt i g + 4 * k) = true →
      exec (.grantWrite m i g k v) s =
        .next (s.seal (State.acked { t with held := FMap.setD t.held (grantAt i g + 4 * k) (some ⟨m, v⟩) }))) ∧
    (k % 2 = 1 → isPairLo (grantAt i g + 4 * k - 4) = true → isPairLo (grantAt i g + 4 * k) = false → ∀ h, FMap.getD t.held (grantAt i g + 4 * k - 4) = some h → h.master = m →
      let u := State.pairCodes { t with held := FMap.setD t.held (grantAt i g + 4 * k - 4) none } m (grantAt i g + 4 * k - 4)
        (some h.value) v
      exec (.grantWrite m i g k v) s = .next (s.seal
        (if k = 1 then { u with grantFaulted := FMap.setD u.grantFaulted (128 * i + g) false } else u).acked))) ∧
  (∀ (s t : State) (m n : Nat) (v : Word), m < 4096 → n < 8 → s.Reaches m (Reg.GLB_AFF n) t →
    let off := Reg.GLB_AFF n
    let span (w : Word) : Nat × Nat := (2 ^ 32 * bits w.toNat 7 0, 2 ^ 32 * (bits w.toNat 7 0 + bits w.toNat 15 8))
    let size := bits v.toNat 15 8
    let base := bits v.toNat 7 0
    let other (a b : Nat × Nat) : Prop := a.1 < b.2 ∧ b.1 < a.2
    (t.bringUpAdmits m = false →
      exec (.affinityWrite m n v) s = .next (s.seal (t.refuse m off St.accessDenied).acked)) ∧
    (t.bringUpAdmits m = true → v.toNat.testBit 31 = true →
      (size = 0 ∨ 24 < base + size ∨ ∃ i, i < 8 ∧ i ≠ n ∧ t.bit (Reg.GLB_AFF i) 31 = true ∧ other (span v) (span (t.rd (Reg.GLB_AFF i)))) →
      t.bit off 31 = false →
      exec (.affinityWrite m n v) s =
        .next (s.seal (((t.plainWrite m off v).setFld off 31 31 0).refuse m off St.invalidField).acked)) ∧
    (t.bringUpAdmits m = true → t.bit off 31 = false → t.otherMirrors 8 = [] →
      (v.toNat.testBit 31 = false ∨ (0 < size ∧ base + size ≤ 24 ∧
        ∀ i, i < 8 → i ≠ n → t.bit (Reg.GLB_AFF i) 31 = true → ¬ other (span v) (span (t.rd (Reg.GLB_AFF i))))) →
      let u := t.plainWrite m off v
      exec (.affinityWrite m n v) s =
        .next (s.seal (if u.bit off 31 then u.loseRange (span (u.rd off)).1 (span (u.rd off)).2 else u).acked)))

/-- Reclamation and replacement of storage (R48, R60, R61). Where the spec leaves a point open, the model's
choice: log entries 39, 40, 43, 117. -/
def Obligations.StorageIsReclaimedAndReplacedUnderNoReader : Prop :=
  (∀ s : State, s.catalogHeld = false →
    (s.oldReader = true → exec .storageReclaim s = .next (s.seal s)) ∧
    (s.oldReader = false → exec .storageReclaim s = .next (s.seal (s.tables.foldl (fun u e =>
      match e.2 with
      | none => u
      | some t =>
        let dead := (List.range t.nseg).filter (fun g => (t.seg g).isSome && t.dead u.floor g && !u.segHeld e.1 g)
        if t.maker = none ∧ t.drop ≤ u.floor then u.setTable e.1 none
        else if dead = [] then u
        else u.changeTable e.1 (dead.foldl (fun t g => t.setSeg g none) t)) s)))) ∧
  (∀ (s : State) (id c g dpa : Nat) (codec : BitVec 64) (stored : List Byte),
    id < 16777216 → c < 4096 → g < 4294967296 → dpa < 281474976710656 → s.catalogHeld = false →
    let cmd := exec (.segmentReplace id c g codec stored dpa) s
    (s.table id = none → cmd = .next (s.seal s)) ∧
    (∀ t, s.table id = some t →
      (t.seg g = none → cmd = .next (s.seal s)) ∧
      (∀ v k, t.seg g = some v → v.cols[c + 2]? = some k →
        (s.segHeld id g = true ∨ v.sealed = false ∨ t.fmts.length ≤ c → cmd = .next (s.seal s)) ∧
        (s.segHeld id g = false → v.sealed = true → c < t.fmts.length →
          let f := t.fmts.getD c 0
          let k' := { k with dpa := dpa, len := stored.length, codec := codec.toNat }
          ∀ vs ns p s1, s.readPart (Mid.headstock 0) 65536 f k [] = (.ok (vs, ns, p), s1) →
            let old := s1.partValues t g c
            let sib := match fmtSib f with | some n => ((old.2.partValues t g n).1).getD [] | none => []
            let fits := old.1 ≠ none ∧ partBytes s.rev21 f k' 65536 stored sib = old.1 ∧ dpa % 64 = 0
            let wrote := hdsThen (St.ok, old.2) dpa stored
            let all := if fmtNullable f then hdsThen wrote k.mapAt ns else wrote
            (¬ fits → cmd = .next (s.seal s)) ∧
            (fits → all.1 = St.ok →
              let d := all.2.digestPart f k'
              cmd = .next (s.seal (d.2.changeTable id (t.setSeg g (some { v with cols := v.cols.set (c + 2) d.1 })))))))))

/-- ALU and ALUI (R77 to R79): the result in XD, the sticky flags, the PC, and nothing else. Where the spec leaves a point open, the model's
choice: log entry 13. -/
def Obligations.AluInstructionsWriteResultAndStickyFlags : Prop :=
  ∀ (s : State) (c : Nat) (w : Word), s.Runs c →
    (∀ r, major w = 0x01 → fn4 w ≤ 1 → (0x18 ≤ fn6 w → fn6 w ≤ 0x1B → fB w = 31) →
      aluOp (fn6 w) (fn4 w = 1) ((s.core c).xreg (fA w)) ((s.core c).xreg (fB w)) = some r →
      exec (.alu c none w) s =
        .next (s.seal (s.retire c
          { (s.core c).setX (fD w) r.value with sflags := stickyFlags (s.core c).sflags r, pc := (s.core c).pc + 4 }))) ∧
    (∀ pfx r, major w = 0x02 → (prefixOf? pfx).immOk = true → (fn4 w = 0xC → fA w = 0) →
      (4 ≤ fn4 w → fn4 w ≤ 7 → shiftImmOk (prefixOf? pfx) w = true) →
      aluiOp (fn4 w) ((s.core c).xreg (fA w)) (immediate (prefixOf? pfx) w) (s.core c).pc = some r →
      exec (.alui c pfx w) s =
        .next (s.seal (s.retire c
          { (s.core c).setX (fD w) r.value with
            sflags := stickyFlags (s.core c).sflags r
            pc := (s.core c).pc + (if pfx.isSome then 8 else 4) })))

/-- LOAD and STORE (R80): what the load writes to XD and what the store sends, through any window, and in particular through a tile's
bench window (R86). Where the spec leaves a point open, the model's
choice: log entries 13, 22, 28, 97, 105. -/
def Obligations.ScalarLoadsAndStoresCompleteThroughWindows : Prop :=
  ∀ (s : State) (c : Nat) (pfx : Option Word) (w : Word), s.Runs c → (prefixOf? pfx).immOk = true →
    (major w = 0x04 → fn4 w ≤ 6 →
      let ea := (s.core c).xreg (fA w) + dw (immediate (prefixOf? pfx) w)
      let k := 2 ^ (fn4 w % 4)
      misaligned ea k = false →
      (∀ d t, s.load (s.ctx c pfx w) ea k = (.data d, t) →
        exec (.scalarLoad c pfx w) s =
          .next (s.seal (t.retire c
            { (t.core c).setX (fD w)
                (if fn4 w < 4 then dw (sext (8 * d.length) (leNat d)) else BitVec.ofNat 64 (leNat d)) with
              pc := (s.core c).pc + (if pfx.isSome then 8 else 4) }))) ∧
      (c < 64 → canonical ea = true → 0xFFFFFFE00000 ≤ ea.toNat % 2 ^ 48 → ea.toNat % 2 ^ 48 + k ≤ 2 ^ 48 →
        s.anyPoison (benchAt c (ea.toNat % 2 ^ 48 - 0xFFFFFFE00000)) k = false →
        s.load (s.ctx c pfx w) ea k = (.data (s.bytes (benchAt c (ea.toNat % 2 ^ 48 - 0xFFFFFFE00000)) k), s)) ∧
      (c < 64 → InBench ea k → s.anyPoison (benchAt c (benchOff ea)) k = false →
        let d := s.bytes (benchAt c (benchOff ea)) k
        exec (.scalarLoad c pfx w) s =
          .next (s.seal (s.retire c
            { (s.core c).setX (fD w)
                (if fn4 w < 4 then dw (sext (8 * d.length) (leNat d)) else BitVec.ofNat 64 (leNat d)) with
              pc := (s.core c).pc + (if pfx.isSome then 8 else 4) })))) ∧
    (major w = 0x05 → fn4 w ≤ 3 →
      let ea := (s.core c).xreg (fA w) + dw (immediate (prefixOf? pfx) w)
      let d := natLE (2 ^ fn4 w) ((s.core c).xreg (fD w)).toNat
      misaligned ea (2 ^ fn4 w) = false →
      (∀ t, s.store (s.ctx c pfx w) ea d = (.done, t) →
        exec (.scalarStore c pfx w) s =
          .next (s.seal (t.retire c
            { t.core c with pc := (s.core c).pc + (if pfx.isSome then 8 else 4) }))) ∧
      (c < 64 → canonical ea = true → 0xFFFFFFE00000 ≤ ea.toNat % 2 ^ 48 → ea.toNat % 2 ^ 48 + 2 ^ fn4 w ≤ 2 ^ 48 →
        s.store (s.ctx c pfx w) ea d = (.done, s.benchStore c (ea.toNat % 2 ^ 48 - 0xFFFFFFE00000) d false)) ∧
      (c < 64 → InBench ea (2 ^ fn4 w) →
        let t := s.benchStore c (benchOff ea) d false
        exec (.scalarStore c pfx w) s =
          .next (s.seal (t.retire c { t.core c with pc := (s.core c).pc + (if pfx.isSome then 8 else 4) }))))

/-- The jumps (R81, R84): where they go, what they write, and the fault of a target that is not canonical. Where the spec leaves a point open, the model's
choice: log entry 13. -/
def Obligations.BranchesAndJumpsReachTheirTargets : Prop :=
  ∀ (s : State) (c : Nat) (pfx : Option Word) (w : Word), s.Runs c →
    let k := s.core c
    let next := k.pc + BitVec.ofNat 48 (if pfx.isSome then 8 else 4)
    let near := paExtend k.pc + dw (offset21 w * 4)
    (major w = 0x08 → (prefixOf? pfx).immOk = true →
      let far := paExtend k.pc + dw (immediate (prefixOf? pfx) w * 4)
      (brTaken (fn4 w) (k.xreg (fA w)) (k.xreg (fD w)) = some false →
        exec (.br c pfx w) s = .next (s.seal (s.retire c { k with pc := next }))) ∧
      (brTaken (fn4 w) (k.xreg (fA w)) (k.xreg (fD w)) = some true → canonical far = true →
        exec (.br c pfx w) s = .next (s.seal (s.retire c { k with pc := BitVec.ofNat 48 (far.toNat / 4 * 4) }))) ∧
      (brTaken (fn4 w) (k.xreg (fA w)) (k.xreg (fD w)) = some true → canonical far = false →
        exec (.br c pfx w) s = .next (s.seal (s.trapped c k (Exc.fetchFault far))))) ∧
    (major w = 0x09 → pfx = none → fn4 w = wf w 31 28 →
      (canonical near = true →
        exec (.call c pfx w) s =
          .next (s.seal (s.retire c { k.setX 30 (paExtend next) with pc := BitVec.ofNat 48 (near.toNat / 4 * 4) }))) ∧
      (canonical near = false →
        exec (.call c pfx w) s = .next (s.seal (s.trapped c k (Exc.fetchFault near))))) ∧
    (major w = 0x0B → pfx = none → fn4 w = wf w 31 28 →
      (canonical near = true →
        exec (.jump c pfx w) s = .next (s.seal (s.retire c { k with pc := BitVec.ofNat 48 (near.toNat / 4 * 4) }))) ∧
      (canonical near = false →
        exec (.jump c pfx w) s = .next (s.seal (s.trapped c k (Exc.fetchFault near))))) ∧
    (major w = 0x0A → (prefixOf? pfx).immOk = true → fn4 w = 0 →
      let t := BitVec.ofNat 64 ((k.xreg (fA w) + dw (immediate (prefixOf? pfx) w)).toNat / 4 * 4)
      (canonical t = true →
        exec (.callr c pfx w) s =
          .next (s.seal (s.retire c { k.setX (fD w) (paExtend next) with pc := BitVec.ofNat 48 (t.toNat / 4 * 4) }))) ∧
      (canonical t = false →
        exec (.callr c pfx w) s = .next (s.seal (s.trapped c k (Exc.fetchFault t)))))

/-- The system instructions without an operand (R82, R91, R93), by their one word each. Where the spec leaves a point open, the model's
choice: log entries 13, 28, 58, 110. -/
def Obligations.FencesCallsAndEndTakeEffect : Prop :=
  ∀ (s : State) (c : Nat), s.Runs c →
    let k := s.core c
    let d : Core := { k with l1d := Cache.empty }
    (∀ i, k.imprecise = some i →
      let t := s.trapped c { k with imprecise := none } i.exc
      exec (.fence c none 0x03FFF80C) s = .next (s.seal t) ∧
      exec (.fenceW c none 0x07FFF80C) s = .next (s.seal t) ∧
      exec (.fenceX c none 0x0BFFF80C) s = .next (s.seal t) ∧
      (c < 64 → exec (.endProgram c none 0x2BFFF80C) s = .next (s.seal t)) ∧
      ((c < 64 → s.tileHalting c = false) →
        exec (.impreciseException c) s = .next (s.seal ((s.setCore c { k with imprecise := none }).except c i.exc))) ∧
      (c < 64 → s.tileHalting c = true → exec (.impreciseException c) s = .next (s.seal s))) ∧
    (k.imprecise = none → s.unperformed c = false →
      (c < 64 → exec (.fence c none 0x03FFF80C) s = .next (s.seal ((s.setCore c d).retire c { d with pc := k.pc + 4 }))) ∧
      (128 ≤ c →
        let t := ((s.setCore c d).setCore c { d with pc := k.pc + 4 }).slotFence (c - 128)
        exec (.fence c none 0x03FFF80C) s = .next (s.seal (t.retire c (t.core c)))) ∧
      exec (.fenceX c none 0x0BFFF80C) s =
        .next (s.seal ((s.setCore c { k with l1i := Cache.empty }).retire c { k with l1i := Cache.empty, pc := k.pc + 4 })) ∧
      (c < 64 → exec (.endProgram c none 0x2BFFF80C) s =
        .next (s.seal ((((s.setCore c { k with pc := k.pc + 4 }).tileStop c 2 k.pc).purgeFar (coreMaster c)).afterInsn c false)))) ∧
    (k.imprecise = none → s.far.any (fun f => f.req.master = coreMaster c && f.req.kind = .write) = false →
      exec (.fenceW c none 0x07FFF80C) s = .next (s.seal (s.retire c { k with pc := k.pc + 4 }))) ∧
    exec (.rtcall c none 0x23FFF80C) s = .next (s.seal (s.trapped c k ⟨0x0A, St.ok, 0, 0⟩)) ∧
    exec (.dbgstop c none 0x27FFF80C) s = .next (s.seal (s.trapped c k (Exc.plain 0x09)))

/-- The four SRA instructions (R83): values, prior values, read-only registers and the exceptions. Where the spec leaves a point open, the model's
choice: log entries 9, 13, 109. -/
def Obligations.SystemRegisterInstructionsReadAndWrite : Prop :=
  ∀ (s : State) (c : Nat) (w : Word), s.Runs c → major w = 0x0D →
    let k := s.core c
    let n := wf w 31 21
    let row : Nat → Host.Outcome State Fault Refusal := fun f =>
      match f with
      | 0 => exec (.srr c none w) s
      | 1 => exec (.srw c none w) s
      | 2 => exec (.srs c none w) s
      | _ => exec (.src c none w) s
    (∀ f writable prior t, f ≤ 3 → fn4 w = f → (f = 0 → fA w = 0) → s.sysAccess c n = some (true, writable) →
      s.sysRead c n = (prior, t) →
      (f = 0 ∨ writable = false → row f = .next (s.seal (t.retire c { k.setX (fD w) prior with pc := k.pc + 4 }))) ∧
      (f ≠ 0 → writable = true →
        let v := if f = 1 then k.xreg (fA w) else if f = 2 then prior ||| k.xreg (fA w) else prior &&& ~~~k.xreg (fA w)
        (∀ k', s.sysWrite c n v = some k' →
          row f = .next (s.seal (t.retire c { k'.setX (fD w) prior with pc := k.pc + 4 }))) ∧
        (s.sysWrite c n v = none → row f = .next (s.seal (s.trapped c k Exc.illegal))))) ∧
    (∀ f x, f ≤ 3 → fn4 w = f → (f = 0 → fA w = 0) → s.sysAccess c n = some (false, x) →
      row f = .next (s.seal (s.trapped c k Exc.privileged))) ∧
    (∀ f, f ≤ 3 → fn4 w = f → (f = 0 → fA w = 0) → s.sysAccess c n = none →
      row f = .next (s.seal (s.trapped c k Exc.illegal))) ∧
    s.sysRead c 0x000 = (k.sflags.setWidth 64, s) ∧ s.sysRead c 0x001 = (BitVec.ofNat 64 (coreMaster c), s) ∧
    s.sysRead c 0x003 = (s.time, s) ∧ s.sysRead c 0x100 = (k.hstatus, s) ∧ s.sysRead c 0x102 = (k.hepc, s) ∧
    (∀ r, 0x100 ≤ r → r ≤ 0x105 → s.sysAccess c r = some (decide (128 ≤ c) && k.hstatus.toNat.testBit 0, true)) ∧
    (let r := s.sysRead c n
      let after (k' : Core) : Host.Outcome State Fault Refusal :=
        .next (s.seal (r.2.retire c { k'.setX (fD w) r.1 with pc := k.pc + 4 }))
      let writes (p : DWord → Bool) (f : DWord → Core) : Prop :=
        (fn4 w = 1 → p (k.xreg (fA w)) = true → exec (.srw c none w) s = after (f (k.xreg (fA w)))) ∧
        (fn4 w = 2 → p (r.1 ||| k.xreg (fA w)) = true → exec (.srs c none w) s = after (f (r.1 ||| k.xreg (fA w)))) ∧
        (fn4 w = 3 → p (r.1 &&& ~~~k.xreg (fA w)) = true → exec (.src c none w) s = after (f (r.1 &&& ~~~k.xreg (fA w))))
      let headMode := 128 ≤ c ∧ k.hstatus.toNat.testBit 0 = true
      (fn4 w = 0 → fA w = 0 → n ≤ 3 ∨ (c < 128 ∧ (0x10 ≤ n ∧ n ≤ 0x12 ∨ 0x120 ≤ n ∧ n < 0x160)) ∨
        (headMode ∧ (0x100 ≤ n ∧ n ≤ 0x105 ∨ 0x120 ≤ n ∧ n < 0x160)) → exec (.srr c none w) s = after k) ∧
      (1 ≤ n → n ≤ 3 → writes (fun _ => true) (fun _ => k)) ∧
      (c < 128 → 0x120 ≤ n → n < 0x160 → writes (fun _ => true) (fun _ => k)) ∧
      (n = 0 → writes (fun _ => true) (fun v => { k with sflags := v.setWidth 3 })) ∧
      (c < 128 → 0x10 ≤ n → n ≤ 0x12 →
        let word (v : DWord) := if n = 0x10 then v.toNat else if n = 0x11 then setBits k.vcfg.word 44 32 v.toNat
          else setBits k.vcfg.word 55 48 v.toNat
        writes (fun v => vcfgOk (word v)) (fun v => { k with vcfg := VCfg.ofWord (word v) })) ∧
      (headMode → 0x100 ≤ n → n ≤ 0x105 →
        writes (fun _ => true) (fun v => if n = 0x100 then { k with hstatus := (v &&& 0xE) ||| (k.hstatus &&& 1) }
          else if n = 0x101 then { k with htvec := v &&& 0xFFFFFFFFFFFC }
          else if n = 0x102 then { k with hepc := v &&& 0xFFFFFFFFFFFC }
          else if n = 0x103 then { k with hecause := v &&& 0xFFFFFFFF00FF }
          else if n = 0x104 then { k with headdr := v } else { k with hscratch := v })) ∧
      (headMode → 0x120 ≤ n → n < 0x160 →
        let i := (n - 0x120) % 4
        writes (fun v => windowOk (fun j => s.winWord c ((n - 0x120) / 4) j) i v)
          (fun v => { k with win := FMap.setD k.win (n - 0x120) (windowBits i v) })))

/-- Trap entry and TRAPRET (R97), and the preemption that R97 forbids. -/
def Obligations.HeadstockTrapEntryAndTrapret : Prop :=
  (∀ (s : State) (c : Nat) (e : Exc), 128 ≤ c → e.cause < 2 ^ 16 → e.status < 2 ^ 16 → e.info < 2 ^ 16 →
    ¬ ((s.core c).hstatus.toNat.testBit 0 = true ∧ (s.core c).hstatus.toNat.testBit 2 = false) →
    let k := s.core c
    let u := s.except c e
    (u.core c).hepc.toNat = k.pc.toNat ∧
    bits (u.core c).hecause.toNat 15 0 = e.cause ∧ bits (u.core c).hecause.toNat 31 16 = e.status ∧
    bits (u.core c).hecause.toNat 47 32 = e.info ∧ (u.core c).headdr = e.addr ∧
    (u.core c).hstatus.toNat.testBit 3 = k.hstatus.toNat.testBit 2 ∧ (u.core c).hstatus.toNat.testBit 2 = false ∧
    (u.core c).hstatus.toNat.testBit 1 = k.hstatus.toNat.testBit 0 ∧ (u.core c).hstatus.toNat.testBit 0 = true ∧
    (u.core c).pc = BitVec.ofNat 48 (k.htvec.toNat / 4 * 4) ∧
    (u.core c).x = k.x ∧ (u.core c).sflags = k.sflags ∧ (u.core c).win = k.win ∧ (u.core c).htvec = k.htvec ∧
    (u.core c).hscratch = k.hscratch ∧ (∀ d, d ≠ c → u.core d = s.core d) ∧
    (∀ off, off ≠ Reg.HDS_CORE_STATUS (c - 128) → u.rd off = s.rd off) ∧ u.mem = s.mem) ∧
  (∀ (s : State) (c : Nat), s.Runs c →
    let k := s.core c
    (s.supervisor c = true →
      let k' : Core := { k with pc := k.hepc.setWidth 48, hstatus := trapretStatus k.hstatus }
      exec (.trapret c none 0x43FFF80C) s =
        .next (s.seal ((s.setFld (Reg.HDS_CORE_STATUS (c - 128)) 5 5 (trapretStatus k.hstatus).toNat).retire c k'))) ∧
    (s.supervisor c = false → exec (.trapret c none 0x43FFF80C) s = .next (s.seal (s.trapped c k Exc.privileged))) ∧
    (trapretStatus k.hstatus).toNat.testBit 0 = k.hstatus.toNat.testBit 1 ∧
    (trapretStatus k.hstatus).toNat.testBit 2 = k.hstatus.toNat.testBit 3 ∧
    (trapretStatus k.hstatus).toNat.testBit 1 = k.hstatus.toNat.testBit 1 ∧
    (trapretStatus k.hstatus).toNat.testBit 3 = k.hstatus.toNat.testBit 3) ∧
  (∀ (s : State) (p n : Nat), s.victimCore p = some n → (s.core (128 + n)).hstatus.toNat.testBit 2 = true)

/-- Tile run control (R85, R95, R96, R486). Where the spec leaves a point open, the model's
choice: log entries 12, 32, 33, 116. -/
def Obligations.TileRunControlFollowsItsRegister : Prop :=
  ∀ (s t : State) (m p n : Nat), m < 4096 → p < 128 → s.localTile p = some n →
    (s.Reaches m (Reg.TIL_CTL n) t →
      (t.tileRetired n = false →
        let u := (t.setFld (Reg.TIL_CTL n) 0 0 1).setCore n { t.core n with stepping := false }
        exec (.tileRun m p) s =
          .next (s.seal ((if u.pllStopped n then u.relockPll (tileQuadrant n) else u.ungate n).setFld
            (Reg.TIL_STATUS n) 3 0 0).acked)) ∧
      (t.tileRetired n = true →
        exec (.tileRun m p) s = .next (s.seal (t.refuse m (Reg.TIL_CTL n) St.accessDenied).acked)) ∧
      exec (.tileHalt m p) s = .next (s.seal (t.setFld (Reg.TIL_CTL n) 0 0 0).acked) ∧
      (t.tileRetired n = false → t.halted n = true →
        exec (.tileStep m p) s =
          .next (s.seal (((t.setFld (Reg.TIL_STATUS n) 3 0 0).setCore n { t.core n with stepping := true }).runFetched
            bus n).acked))) ∧
    (s.tileHalting n = true → (s.core n).vsent = 0 → s.unperformed n = false →
      ((s.core n).imprecise = none → exec (.tileHalted p) s = .next (s.seal (s.tileStop n 1 (s.core n).pc))) ∧
      (∀ i, (s.core n).imprecise = some i →
        exec (.tileHalted p) s =
          .next (s.seal ((s.setCore n { s.core n with imprecise := none }).except n i.exc)))) ∧
    (∀ w i v off, w < 16 → i < 7 → off = 0x801000 + 0x10000 * n + 0x20 * w + 4 * i →
      s.domainGate (.reg off) m (regDpa off) = none →
      exec (.windowWrite m p w i v) s = .next (s.seal ((s.wakeTile (.reg off)).regIn (busAt 65) m off v).acked)) ∧
    (∀ e : Exc, e.status < 2 ^ 16 → e.info < 2 ^ 16 → n < 64 →
      let u := s.except n e
      u.fld (Reg.TIL_STATUS n) 3 0 = 3 ∧ u.fld (Reg.TIL_STATUS n) 15 8 = e.cause % 256 ∧ u.bit (Reg.TIL_CTL n) 0 = false ∧
      u.rd64 (Reg.TIL_EXC_PC_LO n) = (s.core n).pc.toNat ∧ u.rd64 (Reg.TIL_EXC_ADDR_LO n) = e.addr.toNat ∧
      (u.rd (Reg.TIL_EXC_DETAIL n)).toNat = 2 ^ 16 * e.status + e.info ∧ (u.core n).pc = (s.core n).pc ∧
      (u.core n).x = (s.core n).x ∧ u.mem = s.mem)

/-- The values and flags of the ALU's operations (R77, R78), in the arithmetic of words of the operation's width. -/
def Obligations.AluOperationsComputeTheirTable : Prop :=
  (∀ (narrow : Bool) (a b : DWord),
    let w : Nat := if narrow then 32 else 64
    let x : BitVec w := a.setWidth w
    let y : BitVec w := b.setWidth w
    let n : Nat := b.toNat % w
    let flagged (f : Nat) (v : BitVec w) (ovs ovu dz : Bool) : Prop :=
      aluOp f narrow a b = some ⟨v.signExtend 64, ovs, ovu, dz⟩
    let plain (f : Nat) (v : BitVec w) : Prop := flagged f v false false false
    let truth (t : Bool) : BitVec w := if t then 1#w else 0#w
    let lowest : Bool := x == BitVec.intMin w && y == BitVec.allOnes w
    flagged 0x00 (x + y) (x.saddOverflow y) (x.uaddOverflow y) false ∧
    flagged 0x01 (x - y) (x.ssubOverflow y) (x.usubOverflow y) false ∧
    flagged 0x10 (x * y) (x.smulOverflow y) (x.umulOverflow y) false ∧
    plain 0x02 (x &&& y) ∧ plain 0x03 (x ||| y) ∧ plain 0x04 (x ^^^ y) ∧ plain 0x05 (x &&& ~~~y) ∧
    plain 0x06 (x <<< n) ∧ plain 0x07 (x >>> n) ∧ plain 0x08 (x.sshiftRight n) ∧ plain 0x09 (x.rotateRight n) ∧
    plain 0x0A (truth (x.slt y)) ∧ plain 0x0B (truth (x.ult y)) ∧
    plain 0x0C (if x.sle y then x else y) ∧ plain 0x0D (if x.sle y then y else x) ∧
    plain 0x0E (if x.ule y then x else y) ∧ plain 0x0F (if x.ule y then y else x) ∧
    plain 0x11 ((x.signExtend (2 * w) * y.signExtend (2 * w)) >>> w |>.setWidth w) ∧
    plain 0x12 ((x.setWidth (2 * w) * y.setWidth (2 * w)) >>> w |>.setWidth w) ∧
    (y ≠ 0 → flagged 0x13 (x.sdiv y) lowest false false ∧ flagged 0x15 (x.srem y) lowest false false ∧
      plain 0x14 (x / y) ∧ plain 0x16 (x % y)) ∧
    (y = 0 → flagged 0x13 0 false false true ∧ flagged 0x14 0 false false true ∧ flagged 0x15 0 false false true ∧
      flagged 0x16 0 false false true)) ∧
  (∀ (f : Nat) (a b : DWord), 0x18 ≤ f → f ≤ 0x1D →
    ∃ v : DWord, aluOp f false a b = some (AluResult.quiet v) ∧
      (f = 0x18 → v.toNat ≤ 64 ∧ (∀ i, i < v.toNat → a.getLsbD (63 - i) = false) ∧
        (v.toNat < 64 → a.getLsbD (63 - v.toNat) = true)) ∧
      (f = 0x19 → v.toNat ≤ 64 ∧ (∀ i, i < v.toNat → a.getLsbD i = false) ∧ (v.toNat < 64 → a.getLsbD v.toNat = true)) ∧
      (f = 0x1A → v.toNat = ((List.range 64).filter a.getLsbD).length) ∧
      (f = 0x1B → ∀ i, i < 8 → v.extractLsb' (8 * i) 8 = a.extractLsb' (8 * (7 - i)) 8) ∧
      (f = 0x1C → ∀ i, i < 64 → v.getLsbD i = a.getLsbD (min i (b.toNat % 64))) ∧
      (f = 0x1D → ∀ i, i < 64 → v.getLsbD i = (decide (i ≤ b.toNat % 64) && a.getLsbD i)))

/-- Vector arithmetic, predicates and moves (R105 to R120). Where the spec leaves a point open, the model's
choice: log entries 9, 29, 113, 114, 115. -/
def Obligations.VectorArithmeticActsOnActiveElements : Prop :=
  ∀ (s : State) (c : Nat) (pfx : Option Word) (w : Word), s.Runs c → c < 64 → prefixOf? pfx ≠ .illegal →
    let k := s.core c
    let d := fD w
    let a := fA w
    let b := fB w
    let g := fn4 w
    let xa := k.xreg a
    let xb := k.xreg b
    let ends (k' : Core) : Host.Outcome State Fault Refusal :=
      .next (s.seal (s.retire c { k' with pc := k.pc + (if pfx.isSome then 8 else 4) }))
    let second (i : Nat) : Nat := if major w % 2 = 1 then broadcast k.et xb else k.elem k.eb b i
    let groups := k.groupsOk ([d, a] ++ (if major w % 2 = 1 then [] else [b])) = true
    (major w = 0x2F → pfx = none → g = 0 → wf w 24 21 ≤ 0xB → wf w 31 27 ≤ 18 →
      let mx := vlmax (wf w 24 21) (wf w 26 25)
      let vl := if a = 31 then mx else min xa.toNat mx
      exec (.vsetcfg c pfx w) s =
        ends (Core.setX { k with vcfg := ⟨BitVec.ofNat 4 (wf w 24 21), BitVec.ofNat 2 (wf w 26 25), BitVec.ofNat 5 (wf w 31 27),
          BitVec.ofNat 13 vl, k.vcfg.vflags, 0⟩ } d (BitVec.ofNat 64 (if a = 31 then 0 else xa.toNat - vl)))) ∧
    (major w = 0x20 ∨ major w = 0x21 →
      let op := vintOp (fn6 w) k.et k.vcfg.scale.toNat
      k.predsOk [g] = true → (op 0 1 0).isSome = true → groups →
      (fn6 w ≠ 0x13 → pfx = none → (vintUnary (fn6 w) = true → b = 0) →
        exec (.vintegerOp c pfx w) s =
          ends ((k.mapActive k.eb g d (fun i => (op (k.elem k.eb a i) (second i) 0).getD (0, 0))).setVbegin 0)) ∧
      (∀ r, fn6 w = 0x13 → prefixOf? pfx = .operands r 0 → k.groupsOk [r] = true →
        exec (.vintegerOp c pfx w) s =
          ends ((k.mapActive k.eb g d (fun i => (op (k.elem k.eb a i) (second i) (k.elem k.eb r i)).getD (0, 0))).setVbegin 0))) ∧
    (major w = 0x22 ∨ major w = 0x23 →
      let op := vfloatOp (fn6 w) k.et
      k.predsOk [g] = true → etFloat k.et = true → (op 0 1 0).isSome = true → groups →
      (fn6 w ≠ 0x09 → fn6 w ≠ 0x0A → pfx = none → (vfloatUnary (fn6 w) = true → b = 0) →
        exec (.vfloatOp c pfx w) s =
          ends ((k.mapActive k.eb g d (fun i => (op (k.elem k.eb a i) (second i) 0).getD (0, 0))).setVbegin 0)) ∧
      (∀ r, fn6 w = 0x09 ∨ fn6 w = 0x0A → prefixOf? pfx = .operands r 0 → k.groupsOk [r] = true →
        exec (.vfloatOp c pfx w) s =
          ends ((k.mapActive k.eb g d (fun i => (op (k.elem k.eb a i) (second i) (k.elem k.eb r i)).getD (0, 0))).setVbegin 0))) ∧
    (major w = 0x24 ∨ major w = 0x25 → pfx = none → fn6 w ≤ 5 →
      k.groupsOk ([a] ++ (if major w % 2 = 1 then [] else [b])) = true → k.predsOk [d, g] = true →
      let r (i : Nat) := vcmpOp (fn6 w) k.et (k.elem k.eb a i) (second i)
      let fl := (List.range k.vl).foldl (fun f i => if k.governs k.eb g i then f ||| (r i).2 else f) 0
      exec (.vcompare c pfx w) s =
        ends (((k.putPred d (fun i => k.governs k.eb g i && (r i).1)).addVflags fl).setVbegin 0)) ∧
    (major w = 0x26 → pfx = none → g = 0 →
      let full := 2 ^ 512 - 1
      let bitwise (f : Nat → Nat → Nat) :=
        exec (.predicateOp c pfx w) s = ends ((bitwisePred k d (fun r => f (k.preg (a + r)) (k.preg (b + r)))).setVbegin 0)
      let sets (f : Nat → Bool) := exec (.predicateOp c pfx w) s = ends ((k.putPred d f).setVbegin 0)
      (k.predsOk [d, a, b] = true →
        (fn6 w = 0x00 → bitwise (fun p q => p &&& q)) ∧ (fn6 w = 0x01 → bitwise (fun p q => p ||| q)) ∧
        (fn6 w = 0x02 → bitwise (fun p q => p ^^^ q)) ∧ (fn6 w = 0x03 → bitwise (fun p q => p &&& (full - q))) ∧
        (fn6 w = 0x04 → b = 0 → bitwise (fun p _ => full - p))) ∧
      (k.predsOk [d] = true →
        (fn6 w = 0x08 → sets (fun i => decide (xa.toInt + i < xb.toInt))) ∧
        (fn6 w = 0x09 → sets (fun i => decide (xa.toNat + i < xb.toNat))) ∧
        (fn6 w = 0x0A → sets (fun i => decide (xa.toInt + i ≤ xb.toInt))) ∧
        (fn6 w = 0x0C → a = 0 → b = 0 → sets (fun _ => true)) ∧ (fn6 w = 0x0D → a = 0 → b = 0 → sets (fun _ => false))) ∧
      (b = 0 → k.predsOk [a] = true →
        (fn6 w = 0x10 →
          exec (.predicateOp c pfx w) s = ends ((k.setX d (BitVec.ofNat 64 (k.tally a).length)).setVbegin 0)) ∧
        (fn6 w = 0x11 →
          exec (.predicateOp c pfx w) s = ends ((k.setX d (BitVec.ofNat 64 ((k.tally a).headD k.vl))).setVbegin 0)))) ∧
    (major w = 0x27 → pfx = none →
      let lane (i : Nat) := k.elem k.eb a i
      let n := xb.toNat
      let moves (k' : Core) := exec (.vectorMove c pfx w) s = ends (k'.setVbegin 0)
      (fn6 w = 0x00 → b = 0 → k.groupsOk [d, a] = true → k.predsOk [g] = true → moves (k.mapActive k.eb g d (fun i => (lane i, 0)))) ∧
      (fn6 w = 0x01 → k.groupsOk [d, a, b] = true → k.predsOk [g] = true →
        moves ((List.range k.vl).foldl
          (fun c i => c.putElem k.eb d i (if k.governs k.eb g i then lane i else k.elem k.eb b i)) k)) ∧
      (fn6 w = 0x02 → b = 0 → k.groupsOk [d] = true → k.predsOk [g] = true →
        moves (k.mapActive k.eb g d (fun _ => (broadcast k.et xa, 0)))) ∧
      (fn6 w = 0x03 → a = 0 → b = 0 → k.groupsOk [d] = true → k.predsOk [g] = true →
        moves (k.mapActive k.eb g d (fun i => (i, 0)))) ∧
      (fn6 w = 0x04 → g = 0 → k.groupsOk [a] = true → moves (k.setX d (if n < k.vl then elemScalar k.et (lane n) else 0))) ∧
      (fn6 w = 0x05 → g = 0 → k.groupsOk [d] = true → moves (if n < k.vl then k.putElem k.eb d n (broadcast k.et xa) else k)) ∧
      (fn6 w = 0x06 → d ≠ a → k.groupsOk [d, a] = true → k.predsOk [g] = true →
        moves (k.mapActive k.eb g d (fun i => (if i + n < k.vl then lane (i + n) else 0, 0)))) ∧
      (fn6 w = 0x07 → d ≠ a → k.groupsOk [d, a] = true → k.predsOk [g] = true →
        moves ((List.range k.vl).foldl
          (fun c i => if k.governs k.eb g i && decide (n ≤ i) then c.putElem k.eb d i (lane (i - n)) else c) k))) ∧
    (major w = 0x28 → pfx = none → b = 0 → fn6 w < 32 →
      let dt := fn6 w % 16
      let gd := max 1 (k.grp * etBytes dt / k.eb)
      dt ≤ 0xB → gd ≤ 8 → ¬ (k.et = 0xA ∧ dt = 0xA) → d % gd = 0 → k.groupsOk [a] = true → k.predsOk [g] = true →
      (gd = k.grp ∨ d + gd ≤ a ∨ a + k.grp ≤ d) →
      let r := cvtAll k s.fresh dt (decide (16 ≤ fn6 w)) a g d
      exec (.vcvt c pfx w) s =
        .next (s.seal (State.retire { s with fresh := r.2 } c
          { r.1.setVbegin 0 with pc := k.pc + (if pfx.isSome then 8 else 4) })))

/-- Analytic instructions over elements (R128 to R138). Where the spec leaves a point open, the model's
choice: log entries 30, 112. -/
def Obligations.AnalyticInstructionsComputeOverActiveElements : Prop :=
  ∀ (s : State) (c : Nat) (pfx : Option Word) (w : Word), s.Runs c → c < 64 → prefixOf? pfx ≠ .illegal →
    let x := s.ctx c pfx w
    let k := s.core c
    let d := fD w
    let a := fA w
    let b := fB w
    let g := fn4 w
    let ends (k' : Core) : Host.Outcome State Fault Refusal :=
      .next (s.seal (s.retire c { k'.setVbegin 0 with pc := k.pc + (if pfx.isSome then 8 else 4) }))
    let act (n : Nat) := k.activeElems g n
    (isFn 0x40 0 0 w = true → plainOk x [d, a] = true → b = 0 → sharesGroup k d 1 a 1 = false →
      exec (.vcompress c pfx w) s = ends (k.putElems d (act a))) ∧
    (isFn 0x40 1 1 w = true → plainOk x [d, a] = true → b = 0 → sharesGroup k d 1 a 1 = false →
      let at' := (List.range k.vl).filter (fun i => k.governs k.eb g i)
      exec (.vexpand c pfx w) s =
        ends ((at'.zip (List.range at'.length)).foldl (fun c e => c.putElem k.eb d e.1 (k.elem k.eb a e.2)) k)) ∧
    (∀ u, isFn 0x41 u u w = true → u ≤ 1 → plainOk x ([d, a] ++ (if u = 1 then [] else [b])) = true →
      let seed (i : Nat) := if u = 1 then (k.xreg b).toNat else k.elem k.eb b i % 2 ^ 64
      exec (.vhash c pfx w) s = ends (k.mapActive k.eb g d (fun i =>
        (if k.et = 0xB then clatanMix (k.elem k.eb a i / 2 ^ 64) (clatanMix (k.elem k.eb a i % 2 ^ 64) (seed i))
          else clatanMix (k.elem k.eb a i) (seed i) % 2 ^ (8 * k.eb), 0)))) ∧
    (∀ u, isFn 0x42 u u w = true → u ≤ 1 → plainOk x [d, a] = true → b = 0 → sharesGroup k d 1 a 1 = false →
      exec (.vsort c pfx w) s = ends (k.putElems d (sortBy (sortLe k.et (u = 1)) (act a)))) ∧
    (∀ u, isFn 0x42 u u w = true → plainOk x [d, a, b] = true → d + 2 * k.grp ≤ 32 → sharesGroup k d 2 a 1 = false →
      sharesGroup k d 2 b 1 = false →
      (u = 2 ∨ u = 3 →
        let kv := sortBy (fun p q => sortLe k.et (u = 3) p.1 q.1) ((act a).zip (act b))
        exec (.vsortkv c pfx w) s = ends ((k.putElems d (kv.map (·.1))).putElems (d + k.grp) (kv.map (·.2)))) ∧
      (u = 4 ∨ u = 5 →
        exec (.vmerge c pfx w) s =
          ends (k.putElems d
            (mergeRuns (fun p q => !sortLe k.et (u = 5) q p) ((act a).length + (act b).length) (act a) (act b))))) ∧
    (∀ u id step, isFn 0x43 u u w = true → reduceOp (u % 16) k.et = some (id, step) →
      (u ≤ 8 → plainOk x [d, a] = true → b = 0 →
        let r := reduceAll step (act a) id
        exec (.vred c pfx w) s = ends ((k.putElem k.eb d 0 r.1).addVflags r.2)) ∧
      (∀ ps, 0x10 ≤ u → u ≤ 0x18 → prefixOf? pfx = .operands 0 ps → k.groupsOk [d, a] = true → b = 0 →
        k.predsOk [g, ps] = true →
        let rs := (segments (fun i => k.governs k.eb ps i) k.vl).map (fun seg =>
          reduceAll step ((seg.filter (fun i => k.governs k.eb g i)).map (k.elem k.eb a)) id)
        exec (.vsred c pfx w) s =
          ends ((k.putElems d (rs.map (·.1))).addVflags (rs.foldl (fun f r => f ||| r.2) 0)))) ∧
    (plainOk x [d, a] = true → sharesGroup k d 1 a 1 = false →
      (packFields x = none →
        (isFn 0x44 0 0 w = true → exec (.vpack c pfx w) s = .next (s.seal (s.trapped c k Exc.operand))) ∧
        (isFn 0x44 1 1 w = true → exec (.vunpack c pfx w) s = .next (s.seal (s.trapped c k Exc.operand)))) ∧
      (∀ n o, packFields x = some (n, o) →
        (isFn 0x44 0 0 w = true →
          let v := (act a).zip (List.range (act a).length)
          let bits' := v.foldl (fun q e => setBits q (o + e.2 * n + n - 1) (o + e.2 * n) e.1) (k.groupBits d)
          let excess (e : Nat) := if etSigned k.et then (if fitsSigned n (etInt k.et e) then 0 else flOVS)
            else (if e < 2 ^ n then 0 else flOVU)
          exec (.vpack c pfx w) s =
            ends ((k.setGroupBits d bits').addVflags ((act a).foldl (fun f e => f ||| excess e) 0))) ∧
        (isFn 0x44 1 1 w = true →
          let field (i : Nat) := bits (k.groupBits a) (o + i * n + n - 1) (o + i * n)
          exec (.vunpack c pfx w) s = ends (k.mapActive k.eb g d (fun i =>
            (if etSigned k.et then wrap (8 * k.eb) (sext n (field i)) else field i, 0)))))) ∧
    (k.et = 0xB →
      let chunk (i : Nat) := chunkResult (k.elem 16 a i) (k.elem 16 b i)
      (isFn 0x45 0 0 w = true → plainOk x [d, a, b] = true →
        exec (.vstrcmp c pfx w) s = ends (k.mapActive 16 g d (fun i => (chunk i, 0)))) ∧
      (∀ vc, isFn 0x45 1 1 w = true → prefixOf? pfx = .operands vc 0 → k.groupsOk [d, a, b, vc] = true → k.predsOk [g] = true →
        exec (.vstrcmpC c pfx w) s = ends (k.mapActive 16 g d (fun i =>
          (if k.elem 16 vc i % 2 ^ 64 ≠ 0 then k.elem 16 vc i else chunk i, 0)))) ∧
      (∀ u, isFn 0x45 u u w = true → 8 ≤ u → u ≤ 0xD → pfx = none → k.groupsOk [a, b] = true → k.predsOk [d, g] = true →
        let holds (o : Int) : Bool :=
          match u - 8 with
          | 0 => o = 0
          | 1 => o ≠ 0
          | 2 => decide (o < 0)
          | 3 => decide (o ≤ 0)
          | 4 => decide (0 < o)
          | _ => decide (0 ≤ o)
        exec (.vstrcmpPredicate c pfx w) s =
          ends (k.putPred d (fun i => k.governs k.eb g i && holds (chunkCompare (k.elem 16 a i) (k.elem 16 b i)).1))))

/-- Vector memory instructions (R109, R121 to R126). Where the spec leaves a point open, the model's
choice: log entries 9, 105. -/
def Obligations.VectorAccessesGoElementByElement : Prop :=
  ∀ (s : State) (c : Nat) (w : Word), s.Runs c → c < 64 →
    let x := s.ctx c none w
    let k := s.core c
    let d := fD w
    let b := fB w
    let g := fn4 w
    let at' (n : Nat) : DWord := k.xreg (fA w) + BitVec.ofNat 64 n
    let f := fn6 w - 2
    let record (i : Nat) : List DWord := (List.range f).map (fun j => at' ((i * f + j) * k.eb))
    let index (i : Nat) : Nat := k.elem k.eb b i % 2 ^ 64
    let ends (t : State) (k' : Core) : Host.Outcome State Fault Refusal :=
      .next (s.seal (t.retire c { k' with pc := k.pc + 4 }))
    let through (r : VProg × State) : Host.Outcome State Fault Refusal :=
      match r.1 with
      | .go => ends r.2 ((r.2.core c).setVbegin 0)
      | .fault i e => .next (s.seal (r.2.trapped c ((r.2.core c).setVbegin i) ⟨vectorCause e.cause, e.status, i, e.addr⟩))
      | .wait i => .next (s.seal ((r.2.setCore c ((r.2.core c).setVbegin i)).afterInsn c true))
    (k.groupsOk [d] = true → k.predsOk [g] = true →
      (isFn 0x30 0 0 w = true → b = 0 → exec (.vld c none w) s = through (s.vload x g d (fun i => [at' (i * k.eb)]))) ∧
      (isFn 0x31 0 0 w = true → b = 0 → exec (.vst c none w) s = through (s.vstore x g d (fun i => [at' (i * k.eb)]))) ∧
      (isFn 0x30 1 1 w = true → exec (.vlds c none w) s = through (s.vload x g d (fun i => [at' (i * (k.xreg b).toNat)]))) ∧
      (isFn 0x31 1 1 w = true → exec (.vsts c none w) s = through (s.vstore x g d (fun i => [at' (i * (k.xreg b).toNat)]))) ∧
      (isFn 0x30 4 6 w = true → b = 0 → d + f * k.grp ≤ 32 → exec (.ldf c none w) s = through (s.vload x g d record)) ∧
      (isFn 0x31 4 6 w = true → b = 0 → d + f * k.grp ≤ 32 → exec (.stf c none w) s = through (s.vstore x g d record)) ∧
      (k.groupsOk [b] = true →
        (isFn 0x30 2 2 w = true → exec (.gather c none w) s = through (s.vload x g d (fun i => [at' (index i * k.eb)]))) ∧
        (isFn 0x31 2 2 w = true → exec (.scatter c none w) s = through (s.vstore x g d (fun i => [at' (index i * k.eb)]))) ∧
        (isFn 0x30 3 3 w = true →
          let r := s.vload x g d (fun i => [at' (index i * k.eb)])
          (∀ i e, r.1 = .fault i e →
            exec (.gatherF c none w) s = ends r.2 ((((r.2.core c).clearFrom g i).addVflags flFF).setVbegin 0)) ∧
          ((∀ i e, r.1 ≠ .fault i e) → exec (.gatherF c none w) s = through r)))) ∧
    (let inside (store : Bool) (eas : Nat → List DWord) : Prop :=
        ∀ i, k.vbegin ≤ i → i < k.vl → k.governs k.eb g i = true → ∀ ea ∈ eas i,
          InBench ea k.eb ∧ (store = false → s.anyPoison (benchAt c (benchOff ea)) k.eb = false)
      let done (r : VProg × State) : Host.Outcome State Fault Refusal := ends r.2 ((r.2.core c).setVbegin 0)
      k.groupsOk [d] = true → k.predsOk [g] = true →
      (let eas := fun i => [at' (i * k.eb)];
        (isFn 0x30 0 0 w = true → b = 0 → inside false eas → exec (.vld c none w) s = done (s.vload x g d eas)) ∧
        (isFn 0x31 0 0 w = true → b = 0 → inside true eas → exec (.vst c none w) s = done (s.vstore x g d eas))) ∧
      (let eas := fun i => [at' (i * (k.xreg b).toNat)];
        (isFn 0x30 1 1 w = true → inside false eas → exec (.vlds c none w) s = done (s.vload x g d eas)) ∧
        (isFn 0x31 1 1 w = true → inside true eas → exec (.vsts c none w) s = done (s.vstore x g d eas))) ∧
      (d + f * k.grp ≤ 32 →
        (isFn 0x30 4 6 w = true → b = 0 → inside false record → exec (.ldf c none w) s = done (s.vload x g d record)) ∧
        (isFn 0x31 4 6 w = true → b = 0 → inside true record → exec (.stf c none w) s = done (s.vstore x g d record))) ∧
      (let eas := fun i => [at' (index i * k.eb)];
        k.groupsOk [b] = true →
        (isFn 0x30 2 2 w = true → inside false eas → exec (.gather c none w) s = done (s.vload x g d eas)) ∧
        (isFn 0x31 2 2 w = true → inside true eas → exec (.scatter c none w) s = done (s.vstore x g d eas)) ∧
        (isFn 0x30 3 3 w = true → inside false eas → exec (.gatherF c none w) s = done (s.vload x g d eas)))) ∧
    (∀ eas, (∀ i, k.vbegin ≤ i → i < k.vl → k.governs k.eb g i = false) →
      s.vload x g d eas = (.go, s) ∧ s.vstore x g d eas = (.go, s)) ∧
    (∀ eas i vs t, k.vbegin = i → k.vl = i + 1 → k.governs k.eb g i = true → s.loadFields x k.eb (eas i) = (.inl vs, t) →
      s.vload x g d eas = (.go, t.setCore c ((vs.zip (List.range vs.length)).foldl
        (fun q p => q.putElem k.eb (d + p.2 * k.grp) i p.1) (t.core c)))) ∧
    (∀ eas i e t, k.vbegin = i → i < k.vl → k.governs k.eb g i = true → s.loadFields x k.eb (eas i) = (.inr (.exc e), t) →
      s.vload x g d eas = (.fault i e, t))

/-- Counters, streams, decoder contexts and atomics (R139 to R151). Where the spec leaves a point open, the model's
choice: log entries 9, 31, 35, 36, 110, 111. -/
def Obligations.CountersStreamsDecodersAndAtomicsComplete : Prop :=
  ∀ (s : State) (c : Nat) (pfx : Option Word) (w : Word), s.Runs c → prefixOf? pfx ≠ .illegal →
    let x := s.ctx c pfx w
    let k := s.core c
    let d := fD w
    let a := fA w
    let b := fB w
    let g := fn4 w
    let xa := k.xreg a
    let v := (k.xreg b).toNat
    let ends (t : State) (k' : Core) : Host.Outcome State Fault Refusal :=
      .next (s.seal (t.retire c { k'.setVbegin 0 with pc := k.pc + (if pfx.isSome then 8 else 4) }))
    let traps (t : State) (k' : Core) (e : Exc) : Host.Outcome State Fault Refusal := .next (s.seal (t.trapped c k' e))
    let waits (t : State) : Host.Outcome State Fault Refusal := .next (s.seal (t.afterInsn c true))
    (c < 64 →
      (∀ k' t, (∀ u, isFn 0x46 u u w = true → u ≤ 1 → plainOk x [b] = true → d = 0 →
          s.histogram x (if u = 0 then 4 else 8) (fun _ => 1) = .next (k'.setVbegin 0) t → exec (.vhist c pfx w) s = ends t k') ∧
        (isFn 0x46 2 2 w = true → plainOk x [d, b] = true → k.eb = 8 → s.histogram x 8 (k.elem 8 d) = .next (k'.setVbegin 0) t →
          exec (.vhistadd64 c pfx w) s = ends t k')) ∧
      (∀ k' t e, (∀ u, isFn 0x46 u u w = true → u ≤ 1 → plainOk x [b] = true → d = 0 →
          s.histogram x (if u = 0 then 4 else 8) (fun _ => 1) = .trap e k' t → exec (.vhist c pfx w) s = traps t k' e) ∧
        (isFn 0x46 2 2 w = true → plainOk x [d, b] = true → k.eb = 8 → s.histogram x 8 (k.elem 8 d) = .trap e k' t →
          exec (.vhistadd64 c pfx w) s = traps t k' e)) ∧
      (∀ cb weight i, k.vbegin = i → k.vl = i + 1 → k.governs k.eb g i = true →
        let ea := xa + BitVec.ofNat 64 (cb * k.elem k.eb b i)
        let off := ea.toNat % 2 ^ 48 - 0xFFFFFFE00000
        canonical ea = true → ea.toNat % cb = 0 → 0xFFFFFFE00000 ≤ ea.toNat % 2 ^ 48 → ea.toNat % 2 ^ 48 + cb ≤ 2 ^ 48 →
        s.anyPoison (benchAt c off) cb = false →
        let n := leNat (s.bytes (benchAt c off) cb) + weight i
        let t := s.benchStore c off (natLE cb n) false
        s.histogram x cb weight =
          .next (((t.core c).addVflags (if 2 ^ (8 * cb) ≤ n then flOVU else 0)).setVbegin 0) t) ∧
      (∀ i, k.vbegin = i → k.vl = i + 1 → k.governs k.eb g i = true →
        let ea (cb : Nat) := xa + BitVec.ofNat 64 (cb * k.elem k.eb b i)
        let counts (cb weight : Nat) : Host.Outcome State Fault Refusal :=
          let n := leNat (s.bytes (benchAt c (benchOff (ea cb))) cb) + weight
          let t := s.benchStore c (benchOff (ea cb)) (natLE cb n) false
          ends t ((t.core c).addVflags (if 2 ^ (8 * cb) ≤ n then flOVU else 0))
        let free (cb : Nat) : Prop := InBench (ea cb) cb ∧ s.anyPoison (benchAt c (benchOff (ea cb))) cb = false
        (isFn 0x46 0 0 w = true → plainOk x [b] = true → d = 0 → free 4 → exec (.vhist c pfx w) s = counts 4 1) ∧
        (isFn 0x46 1 1 w = true → plainOk x [b] = true → d = 0 → free 8 → exec (.vhist c pfx w) s = counts 8 1) ∧
        (isFn 0x46 2 2 w = true → plainOk x [d, b] = true → k.eb = 8 → free 8 →
          exec (.vhistadd64 c pfx w) s = counts 8 (k.elem 8 d i))) ∧
      (isFn 0x47 0 0 w = true → k.et = 6 → plainOk x [d, a] = true → v < 2 ^ 16 → bits v 7 4 = 0 → bits v 15 8 ≠ 255 →
        ∀ wd u0, s.tileTable (bits v 3 0) = (true, wd, u0) → 0 < wd → (1 < wd → sharesGroup k d 1 a 1 = false) →
        k.vl = wd → k.vbegin = 0 → k.governs 8 g 0 = true →
        let key := (List.range wd).map (fun u => BitVec.ofNat 64 (k.elem 8 a u))
        (∀ r t, u0.tileSearch x (bits v 3 0) (bits v 15 8) key = (r, t) →
          (r.status = St.ok →
            exec (.vgauge c pfx w) s =
              (let t' := t.setCore c ((t.core c).putElem 8 d 0 r.word); ends t' (t'.core c))) ∧
          (r.status ≠ St.ok → r.status ≠ St.held →
            exec (.vgauge c pfx w) s = traps t ((t.core c).setVbegin 0) ⟨0x23, r.status, 0, 0⟩) ∧
          (r.status = St.held → exec (.vgauge c pfx w) s = waits t)) ∧
        (s.role ≠ some true → s.GaugeIdle → s.Searches (coreMaster c) (bits v 3 0) key →
          let ms := s.gMatches (bits v 3 0) key
          let t := s.countWrap (Reg.GAU_TBL_SEARCHES (bits v 3 0))
          let t' := t.setCore c ((t.core c).putElem 8 d 0 (gResult ms[bits v 15 8]? ms.length))
          exec (.vgauge c pfx w) s = ends t' (t'.core c))) ∧
      (isFn 0x48 0 0 w = true → plainOk x [a] = true → b = 0 →
        (s.ochValid c d = false → exec (.vsend c pfx w) s = traps s k (analyticExc 0x24 d)) ∧
        (s.ochValid c d = true → s.ochEb c d = k.eb →
          (s.ochClosed c d = true → exec (.vsend c pfx w) s = traps s k (analyticExc 0x25 d)) ∧
          (s.ochClosed c d = false →
            let rest := (k.activeElems g a).drop k.vsent
            let r := s.sendElems c d rest
            (r.1 = rest.length →
              exec (.vsend c pfx w) s = ends r.2 { r.2.core c with chWait := none, vsent := 0 }) ∧
            (r.1 ≠ rest.length →
              exec (.vsend c pfx w) s =
                waits (r.2.setCore c { r.2.core c with chWait := some (false, d), vsent := k.vsent + r.1 })) ∧
            (let m := s.ochMsg c d (.elems rest true false);
              0 < rest.length → rest.length ≤ s.ochCredit c d → s.ochKind c d ≠ 1 → s.crosses m = false →
              exec (.vsend c pfx w) s =
                ends (State.wr { s with noc := s.noc ++ [m] } (Reg.TIL_OCH_CREDIT c d)
                  (BitVec.ofNat 32 (s.ochCredit c d - rest.length))) { k with chWait := none, vsent := 0 })))) ∧
      (isFn 0x48 1 1 w = true → plainOk x [d] = true → b = 0 →
        (s.ichValid c a = false → exec (.vrecv c pfx w) s = traps s k (analyticExc 0x24 a)) ∧
        (s.ichValid c a = true → s.ichEb c a = k.eb →
          let q := s.buffered c a
          (q.length < k.vl → s.ichEnd c a = false →
            exec (.vrecv c pfx w) s = waits (s.setCore c { k with chWait := some (true, a), vsent := 0 })) ∧
          ((k.vl ≤ q.length ∨ s.ichEnd c a = true) → (∃ e ∈ q.take (min k.vl q.length), e.bad = true) →
            exec (.vrecv c pfx w) s = traps s { k with chWait := none, vsent := 0 } (Exc.ofStatus St.poisonedData 0)) ∧
          ((k.vl ≤ q.length ∨ s.ichEnd c a = true) → (∀ e ∈ q.take (min k.vl q.length), e.bad = false) →
            let n := min k.vl q.length
            let r := takeElems k.eb s.fresh (q.take n)
            let t := (State.setBuffered { s with fresh := r.2 } c a (q.drop n)).returnCredit c a n
            exec (.vrecv c pfx w) s =
              ends t { ((t.core c).putElems d r.1).putPred g (fun i => decide (i < n)) with chWait := none, vsent := 0 }))) ∧
      (isFn 0x48 2 2 w = true → pfx = none → a = 0 → b = 0 → g = 0 →
        (s.ochValid c d = false → exec (.sclose c pfx w) s = traps s k (analyticExc 0x24 d)) ∧
        (s.ochValid c d = true → s.ochClosed c d = true → exec (.sclose c pfx w) s = traps s k (analyticExc 0x25 d)) ∧
        (s.ochValid c d = true → s.ochClosed c d = false → ∀ left t, s.closeChannel c d = (left, t) →
          exec (.sclose c pfx w) s = if left then ends t (t.core c) else waits t) ∧
        (let m := s.ochMsg c d .endMark;
          s.ochValid c d = true → s.ochClosed c d = false → s.ochKind c d ≠ 1 → s.crosses m = false →
          exec (.sclose c pfx w) s = ends (State.setFld { s with noc := s.noc ++ [m] } (Reg.TIL_OCH_CTL c d) 1 1 1) k)) ∧
      (pfx = none → b = 0 → g = 0 →
        (isFn 0x48 3 3 w = true →
          exec (.sstatOut c pfx w) s = ends s (k.setX d (BitVec.ofNat 64
            (2 ^ 63 * bit01 (s.ochClosed c a) + 2 ^ 62 * bit01 (s.ochValid c a) + s.ochCredit c a)))) ∧
        (isFn 0x48 4 4 w = true →
          exec (.sstatIn c pfx w) s = ends s (k.setX d (BitVec.ofNat 64
            (2 ^ 63 * bit01 (s.ichEnd c a) + 2 ^ 62 * bit01 (s.ichValid c a) + (s.buffered c a).length)))) ∧
        (isFn 0x49 2 2 w = true → a ≤ 1 →
          let dc := k.dec a
          exec (.vdstat c pfx w) s = ends s (k.setX d (BitVec.ofNat 64 (if dc.opened then
            2 ^ 62 * (if dc.error.isSome then 3 else if dc.delivered = dc.count then 2 else 1) + 2 ^ 32 * dc.error.getD 0
              + (dc.count - dc.delivered) else 0)))) ∧
        (isFn 0x49 3 3 w = true → d = 0 → a ≤ 1 →
          exec (.vdclose c pfx w) s = ends s (k.setDec a { k.dec a with opened := false, error := none }))) ∧
      (∀ xc, isFn 0x49 0 0 w = true → prefixOf? pfx = .operands xc 0 → d ≤ 1 → g = 0 →
        let cw := k.xreg xc
        let cd := Codec.ofWord cw.toNat
        xa.toNat % 64 = 0 → v < 2 ^ 57 → 0 < bits v 56 32 → bits v 56 32 ≤ 16777216 → 0 < bits v 31 0 → cw.toNat < 2 ^ 17 →
        cd.ok = true → (cd.sibEn = true → d = 1 ∧ k.dec0.opened = true ∧ k.dec0.error = none ∧ k.dec0.count = bits v 56 32 ∧
          k.dec0.delivered ≤ siblingReach k.dec0 ∧ k.dec0.fields.width = cd.sibWidth) →
        exec (.vdopen c pfx w) s = ends s (k.setDec d
          { Decoder.closed with opened := true, base := xa, count := bits v 56 32, length := bits v 31 0, codec := cw })) ∧
      (isFn 0x49 1 1 w = true → plainOk x [d] = true → b = 0 → a ≤ 1 →
        let dc := k.dec a
        (dc.opened = false → exec (.vdecode c pfx w) s = traps s k (decodeState a)) ∧
        (dc.opened = true → dc.error = none → dc.fields.eb = k.eb →
          let n := min k.vl (dc.count - dc.delivered)
          (siblingInStep k a n = true → ∀ ready t, s.decodeAhead x a (dc.delivered + n) = (ready, t) →
          (ready = false → exec (.vdecode c pfx w) s = waits t) ∧
          (ready = true →
            let dd := (t.core c).dec a
            (dd.values.length < dc.delivered + n →
              let e := dd.fail.getD (St.lengthMismatch, dd.base.toNat)
              exec (.vdecode c pfx w) s =
                traps t ((t.core c).setDec a { dd with error := some e.1 }) ⟨0x27, e.1, a, BitVec.ofNat 64 e.2⟩) ∧
            (dc.delivered + n ≤ dd.values.length →
              let out := (dd.values.drop dc.delivered).take n
              let k' := (out.zip (List.range n)).foldl
                (fun q e => if k.governs k.eb g e.2 then q.putElem k.eb d e.2 e.1 else q) (t.core c)
              exec (.vdecode c pfx w) s = ends t (k'.setDec a { dd with delivered := dc.delivered + n })))) ∧
          (siblingInStep k a n = true → (a = 1 → dc.fields.sibEn = false) → dc.delivered + n ≤ dc.values.length →
            let k' := (((dc.values.drop dc.delivered).take n).zip (List.range n)).foldl
              (fun q e => if k.governs k.eb g e.2 then q.putElem k.eb d e.2 e.1 else q) k
            exec (.vdecode c pfx w) s = ends (s.setCore c k) (k'.setDec a { dc with delivered := dc.delivered + n })))) ∧
      (∀ op (new : Nat → Nat), major w = 0x4A → vamoOp (fn6 w) (etSigned k.et) = some op → k.eb = 4 ∨ k.eb = 8 →
        k.groupsOk [d, b] = true → k.predsOk [g] = true → (fn6 w ≠ 6 → pfx = none ∧ ∀ i, new i = 0) →
        (fn6 w = 6 → ∃ r, prefixOf? pfx = .operands r 0 ∧ k.groupsOk [r] = true ∧ ∀ i, new i = k.elem k.eb r i) →
        ((∀ i, k.vbegin ≤ i → i < k.vl → k.governs k.eb g i = false) → exec (.vamo c pfx w) s = ends s k) ∧
        (∀ i, k.vbegin = i → k.vl = i + 1 → k.governs k.eb g i = true →
          let ea := xa + BitVec.ofNat 64 (k.elem k.eb b i % 2 ^ 64 * k.eb)
          (misaligned ea k.eb = true →
            exec (.vamo c pfx w) s = traps s (k.setVbegin i) (elemExc (Exc.misaligned ea) i)) ∧
          (∀ o t, misaligned ea k.eb = false → s.atomic x op ea k.eb (BitVec.ofNat 64 (k.elem k.eb d i)) (BitVec.ofNat 64 (new i)) = (.data o, t) →
            exec (.vamo c pfx w) s =
              (let t' := t.setCore c ((t.core c).putElem k.eb d i (leNat o)); ends t' (t'.core c))) ∧
          (InBench ea k.eb → s.anyPoison (benchAt c (benchOff ea)) k.eb = false →
            let o := leNat (s.bytes (benchAt c (benchOff ea)) k.eb)
            let t := s.benchStore c (benchOff ea) (natLE k.eb (amoResult op (8 * k.eb) o (BitVec.ofNat 64 (k.elem k.eb d i)).toNat
              (BitVec.ofNat 64 (new i)).toNat)) false
            let t' := t.setCore c ((t.core c).putElem k.eb d i o)
            exec (.vamo c pfx w) s = ends t' (t'.core c))))) ∧
    (major w = 0x4B → g = 0 → 2 ≤ fn6 w % 4 → fn6 w / 4 ≤ 6 →
      let n := 2 ^ (fn6 w % 4)
      ∀ new, (fn6 w / 4 ≠ 6 → pfx = none ∧ new = 0) →
        (fn6 w / 4 = 6 → ∃ r, prefixOf? pfx = .operands r 0 ∧ new = k.xreg r) →
        (misaligned xa n = true → exec (.amo c pfx w) s = traps s k (Exc.misaligned xa)) ∧
        (misaligned xa n = false →
          (∀ o t, s.atomic x (fn6 w / 4) xa n (k.xreg b) new = (.data o, t) →
            exec (.amo c pfx w) s = ends t ((t.core c).setX d (dw (sext (8 * n) (leNat o))))) ∧
          (∀ e t, s.atomic x (fn6 w / 4) xa n (k.xreg b) new = (.exc e, t) →
            exec (.amo c pfx w) s = traps t (t.core c) e) ∧
          (∀ t, s.atomic x (fn6 w / 4) xa n (k.xreg b) new = (.wait, t) → exec (.amo c pfx w) s = waits t)) ∧
        (c < 64 → InBench xa n → s.anyPoison (benchAt c (benchOff xa)) n = false →
          let o := leNat (s.bytes (benchAt c (benchOff xa)) n)
          let t := s.benchStore c (benchOff xa) (natLE n (amoResult (fn6 w / 4) (8 * n) o (k.xreg b).toNat new.toNat)) false
          exec (.amo c pfx w) s = ends t ((t.core c).setX d (dw (sext (8 * n) o)))))

/-- Windows (R85), stream arrivals (R162, R163) and channel resets (R165). Where the spec leaves a point open, the model's
choice: log entries 15, 20, 36. -/
def Obligations.TileWindowsAndChannelsTakeTheirCommands : Prop :=
  (∀ (s u : State) (m t n w k : Nat) (v : Word), m < 4096 → t < 128 → s.localTile t = some n → n < 64 → w < 16 → k < 7 →
    let off := Reg.TIL_WIN_PBASE_LO n w + 4 * k
    s.domainGate (.reg off) m (regDpa off) = none → u = s.wakeTile (.reg off) → (regRow? off).isSome = true →
    (u.halted n = false → exec (.windowWrite m t w k v) s = .next (s.seal (u.refuse m off St.accessDenied).acked)) ∧
    (u.halted n = true →
      (k < 6 → k % 2 = 0 → isPairLo off = true →
        exec (.windowWrite m t w k v) s = .next (s.seal (State.acked { u with held := FMap.setD u.held off (some ⟨m, v⟩) }))) ∧
      (k < 6 → k % 2 = 1 → isPairLo (off - 4) = true → isPairLo off = false →
        ∀ h, FMap.getD u.held (off - 4) = some h → h.master = m →
          exec (.windowWrite m t w k v) s = .next (s.seal
            (State.windowWrite { u with held := FMap.setD u.held (off - 4) none } m n w (k / 2)
              (BitVec.ofNat 64 (h.value.toNat + 2 ^ 32 * v.toNat))).acked)) ∧
      (k = 6 → isPairLo (off - 4) = false → isPairLo off = false →
        exec (.windowWrite m t w k v) s = .next (s.seal (u.windowWrite m n w 3 (v.setWidth 64)).acked)))) ∧
  (∀ (s : State) (m n w i : Nat) (v : DWord), i < 4 →
    let word := if i = 3 then v &&& 0x1F else v &&& 0xFFFFFFFFF000
    let f (j : Nat) : Nat := (if j = i then word else s.winWord n w j).toNat
    let legal := (f 3).testBit 0 = false ∨ (f 0 ≤ f 1 ∧ f 2 + (f 1 - f 0) ≤ 0xFFFFFFFFF000)
    let put (x : DWord) : State := s.setCore n { s.core n with win := FMap.setD (s.core n).win (4 * w + i) x }
    let off := Reg.TIL_WIN_PBASE_LO n w + 8 * i
    (w = 15 → s.windowWrite m n w i v = s) ∧
    (w < 15 → legal → s.windowWrite m n w i v = put word) ∧
    (w < 15 → ¬ legal → i < 3 → s.windowWrite m n w i v = s.refuse m off St.invalidField) ∧
    (w < 15 → ¬ legal → i = 3 → s.windowWrite m n w i v = (put (word &&& 0x1E)).refuse m off St.invalidField)) ∧
  (∀ (s : State) (t ch n : Nat) (payload : Ecc), t < 128 → ch < 32 → s.localTile t = some n → s.pllStopped n = false →
    let waits (fwd : Bool) (m : NocMsg) : Bool :=
      m.kind = 0 && m.tile = t && m.ch = ch && (nocForward m == fwd) && !(m.sender < 64 && s.meshHolds m.sender n)
    (∀ m, s.noc.find? (waits true) = some m →
      let u := State.ungate { s with noc := s.noc.eraseP (waits true) } n
      (u.ichValid n ch = true → u.ichGen n ch = m.gen →
        (∀ es l b, m.body = .elems es l b →
          exec (.streamElementArrive t ch none payload) s =
            .next (s.seal (u.setBuffered n ch (u.buffered n ch ++ es.map (fun e => ⟨e, false, b || payload = .uncorrectable⟩))))) ∧
        (m.body = .endMark →
          exec (.streamElementArrive t ch none payload) s = .next (s.seal (u.setFld (Reg.TIL_ICH_CTL n ch) 1 1 1)))) ∧
      (u.ichValid n ch = false ∨ u.ichGen n ch ≠ m.gen → exec (.streamElementArrive t ch none payload) s = .next (s.seal u))) ∧
    (∀ m k, s.noc.find? (waits false) = some m → m.body = .credit k →
      let u := State.ungate { s with noc := s.noc.eraseP (waits false) } n
      (u.ochValid n ch = true → u.ochGen n ch = m.gen →
        exec (.streamCreditReturn t ch none) s =
          .next (s.seal (u.wr (Reg.TIL_OCH_CREDIT n ch) (BitVec.ofNat 32 (min (u.ochCredit n ch + k) 0xFFFFFFFF))))) ∧
      (u.ochValid n ch = false ∨ u.ochGen n ch ≠ m.gen → exec (.streamCreditReturn t ch none) s = .next (s.seal u))) ∧
    (∀ m, okFar (some m) = true → m.kind = 0 → m.tile = t → m.ch = ch →
      (nocForward m = true →
        exec (.streamElementArrive t ch (some m) payload) s =
          .next (s.seal (s.streamArrive n ch m.gen (checkedBody payload m.body)))) ∧
      (∀ k, m.body = .credit k →
        exec (.streamCreditReturn t ch (some m)) s = .next (s.seal (s.creditArrive n ch m.gen k))))) ∧
  (∀ (s u : State) (m t n ch : Nat) (inbound : Bool) (v : Word), m < 4096 → t < 128 → ch < 32 → s.localTile t = some n →
    s.Reaches m (if inbound then Reg.TIL_ICH_CTL n ch else Reg.TIL_OCH_CTL n ch) u →
    (v.toNat.testBit 0 = false → exec (.channelReset m t inbound ch v) s = .next (s.seal u.acked)) ∧
    (v.toNat.testBit 0 = true →
      let e := if inbound then (u.setBuffered n ch []).setFld (Reg.TIL_ICH_CTL n ch) 1 1 0
        else (u.wr (Reg.TIL_OCH_CREDIT n ch) 0).setFld (Reg.TIL_OCH_CTL n ch) 1 1 0
      ((e.core n).chWait = some (inbound, ch) → e.running n = true →
        exec (.channelReset m t inbound ch v) s = .next (s.seal
          ((e.setCore n { e.core n with chWait := none, vsent := 0 }).except n ⟨0x26, v.toNat / 2 ^ 16, ch, 0⟩).acked)) ∧
      ((e.core n).chWait ≠ some (inbound, ch) ∨ e.running n = false → exec (.channelReset m t inbound ch v) s = .next (s.seal e.acked))))

/-- Programs and RUNs (R155 to R159, R272, R273). Where the spec leaves a point open, the model's
choice: log entries 37, 38, 39, 121, 123, 135. -/
def Obligations.ProgramsAreInstalledRemovedAndRun : Prop :=
  ∀ (s : State) (tag : Nat), tag < 8448 →
    (∀ host at', at' < 281474976710656 → s.running? tag 0x45 = none →
      exec (.installProgram tag host at') s = .next (s.seal s) ∧ exec (.programRemove tag) s = .next (s.seal s)) ∧
    (∀ c at', at' < 281474976710656 → s.catalogHeld = false → s.running? tag 0x45 = some c → c.flags.testBit 0 = false →
      let cmd (h : HostRead) := exec (.installProgram tag h at') s
      cmd .denied = .next (s.seal ((s.aer c.fn .readRefused).complete tag St.accessDenied 0)) ∧
      cmd .poisoned = .next (s.seal ((s.aer c.fn .readPoisoned).complete tag St.poisonedData 0)) ∧
      (∀ img n st, s.imgCheck c.len img = some (n, st) →
        (n ≠ 2 → n ≠ 5 → cmd (.data img) = .next (s.seal (s.complete tag st 0))) ∧
        (n = 2 ∨ n = 5 → cmd (.data img) = .next (s.seal ((s.report ⟨st, Tgt.headstock, 2, Mid.headstock 0, at', tag, 0⟩).complete
          tag st 0)))) ∧
      (∀ img, s.imgCheck c.len img = none →
        let same (i : Nat) : Bool := match s.image i with
          | some m => !m.removed && decide (imgDigest m.bytes = imgDigest img)
          | none => false
        let total := s.images.foldl (fun n e => match e.2 with | some m => n + m.bytes.length | none => n) 0
        (∀ i m, (List.range 256).find? same = some i → s.image i = some m →
          cmd (.data img) = .next (s.seal (s.complete tag St.ok (imageHandle i m)))) ∧
        ((List.range 256).find? same = none →
          ((List.range 256).find? (fun i => (s.image i).isNone) = none ∨ 2 ^ 30 < total + img.length →
            cmd (.data img) = .next (s.seal (s.complete tag St.tableFull 0))) ∧
          (∀ i t, (List.range 256).find? (fun i => (s.image i).isNone) = some i → total + img.length ≤ 2 ^ 30 →
            s.hdsWrite at' img = (St.ok, t) →
            let g := FMap.getD t.imageGens i
            let m : Image := ⟨g, img, at', false⟩
            cmd (.data img) = .next (s.seal (State.complete { t with
              images := FMap.setD t.images i (some m), imageGens := FMap.setD t.imageGens i ((g + 1) % 256) }
              tag St.ok (imageHandle i m))))))) ∧
    (∀ c, s.running? tag 0x45 = some c → c.flags.testBit 0 = true →
      (s.imageOf (c.arg 0x20 2) = none → exec (.programRemove tag) s = .next (s.seal (s.complete tag St.invalidField 0))) ∧
      (∀ m, s.imageOf (c.arg 0x20 2) = some m →
        exec (.programRemove tag) s = .next (s.seal ((State.freeImages { s with
          images := FMap.setD s.images (c.arg 0x20 2 % 256) (some { m with removed := true }) }).complete tag St.ok (c.arg 0x20 2))))) ∧
    (∀ p room, s.running? tag 0x44 = none ∨ (s.run tag).isSome → exec (.run tag p room none) s = .next (s.seal s)) ∧
    (∀ c room, s.running? tag 0x44 = some c → s.run tag = none →
      let cmd (h : HostRead) := exec (.run tag h room none) s
      cmd .denied = .next (s.seal ((s.aer c.fn .readRefused).complete tag St.accessDenied 0)) ∧
      cmd .poisoned = .next (s.seal ((s.aer c.fn .readPoisoned).complete tag St.poisonedData 0)) ∧
      (∀ b, (∀ m, s.image (c.arg 0x20 1) = some m → m.gen ≠ c.arg 0x21 1) → cmd (.data b) = .next (s.seal (s.complete tag St.invalidField 0))) ∧
      (∀ b m, s.image (c.arg 0x20 1) = some m → m.gen = c.arg 0x21 1 → b.length = c.len →
        let bad := 8 < (blockSpaces b).length ∨ ∃ k, k < 16 ∧ s.tilesInService.length < stageMin m.bytes k
        (bad → cmd (.data b) = .next (s.seal (s.complete tag St.invalidField 0))) ∧
        (¬ bad → room = none → cmd (.data b) = .next (s.seal (s.complete tag St.tableFull 0))) ∧
        (∀ a, ¬ bad → room = some a → a % 4096 = 0 →
          let first := ((imgFragList m.bytes).map (·.stage)).foldl min 15
          let r : Run := ⟨c.arg 0x20 1, b, a, s.tilesInService.length, 0, 0, 0, .waiting, [], none, [], [], [], [], [], []⟩
          let u := State.setRun { s with waits := s.waits + 1 } tag
            (some { r with stage := first, since := s.waits, waitFrom := s.time.toNat })
          (8192 ≤ tag ∨ s.runPeers c r = [] → s.txs.length ≤ 4096 → cmd (.data b) = .next (s.seal u)) ∧
          (tag < 8192 → s.txs.length + (s.runPeers c r).length ≤ 4096 →
            cmd (.data b) = .next (s.seal (u.submitParts tag c r (s.runPeers c r))))))) ∧
    (∀ p b room, okPart (some p) = true → 8192 ≤ tag → s.cmd tag = none →
      let slot := (List.range 256).find? (fun i => match s.image i with
        | some m => !m.removed && imgDigest m.bytes = p.digest
        | none => false)
      let handle := (slot.bind (fun i => (s.image i).map (imageHandle i))).getD 0
      let entry := p.entry.take 0x20 ++ natLE 2 handle ++ p.entry.drop 0x22
      let own := (runNodesOf entry b).find? (fun n => s.ownFid = some n.1)
      let c : Cmd := ⟨8192, p.src, 128, s.fetches, entry, 0, 0, 0, b, [], 0, .waiting, none, [], 0, none, none⟩
      let u : State := { s with fetches := s.fetches + 1 }
      let refused (c : Cmd) := exec (.run tag (.data b) room (some p)) s =
        .next (s.seal ((u.setCmd tag (some c)).complete tag St.invalidField 0))
      (slot = none ∨ own = none → refused c) ∧
      (∀ n, slot ≠ none → own = some n →
        let c' : Cmd := { c with epoch := n.2, descs := u.blockDescs b }
        (u.tablesOk c' b false = false → refused c') ∧
        (u.tablesOk c' b false = true →
          exec (.run tag (.data b) room (some p)) s = .next (s.seal (u.stepSix tag c' 1000)))))

/-- The stages of a RUN and its end (R157 to R171). Where the spec leaves a point open, the model's
choice: log entries 38, 39, 73, 93, 94, 122, 123. -/
def Obligations.RunStagesArePlacedStartedAndEnded : Prop :=
  ∀ (s : State) (tag : Nat), tag < 8448 →
    (s.run tag = none →
      (∀ l b a, exec (.stagePlace tag l b a) s = .next (s.seal s)) ∧ (∀ gen, gen < 16 → exec (.stageStart tag gen) s = .next (s.seal s)) ∧
      (∀ st node, exec (.runEnd tag st node) s = .next (s.seal s)) ∧ exec (.runTimeLimit tag) s = .next (s.seal s)) ∧
    (∀ r, s.run tag = some r →
      let img := s.runImage r
      let need := stageMin img r.stage
      let counts := stageCounts img r.stage s.freeTiles.length
      (∀ tiles before after,
        let place := exec (.stagePlace tag tiles before after) s
        (r.phase ≠ .waiting ∨ s.waitsBefore r.since = true → place = .next (s.seal s)) ∧
        (r.phase = .waiting → s.waitsBefore r.since = false → s.tilesInService.length < need →
          place = .next (s.seal (s.runStop tag r St.invalidField))) ∧
        (r.phase = .waiting → s.waitsBefore r.since = false → need ≤ s.tilesInService.length → s.freeTiles.length < need →
          place = .next (s.seal s)) ∧
        (r.phase = .waiting → s.waitsBefore r.since = false → need ≤ s.tilesInService.length → need ≤ s.freeTiles.length →
          tiles.length = (counts.map (·.2)).foldl (· + ·) 0 → noRepeats (tiles.map (fun t => (t, 0))) = true →
          (∀ t, t ∈ tiles → s.freeTiles.contains t = true ∧ ∀ n, s.localTile t = some n → s.halted n = true) →
          place = .next (s.seal (s.setRun tag (some { r with
            phase := .placed, insts := makeInsts before after counts tiles,
            deadline := r.deadline.map (fun d => d + (s.time.toNat - r.waitFrom)) }))))) ∧
      (∀ c gen, s.cmd tag = some c → gen < 16 →
        (r.phase = .placed → s.genFits img r gen = false → exec (.stageStart tag gen) s = .next (s.seal s)) ∧
        (r.phase = .placed → s.genFits img r gen = true →
          let limit := r.deadline.getD (s.time.toNat + 1000000 * runLimitMs c img)
          let r' := { r with phase := .running, deadline := some limit }
          let u := s.setRun tag (some r')
          let v := if r.deadline = none then (u.hdsWrite r.room (List.replicate (mib * imgShared img) 0)).2 else u
          exec (.stageStart tag gen) s =
            .next (s.seal (r.insts.foldl (fun x i => x.startInst c r' i) ((v.placeCode img r').configChannels img tag r' gen)))) ∧
        (r.stageOver = true → exec (.stageStart tag gen) s =
          .next (s.seal (match nextStage img r.stage with | some st => s.stageWait tag r st | none => s)))) ∧
      (s.runHalted tag r = true ↔
        (∀ n ∈ s.runTiles tag r, s.fld (Reg.TIL_STATUS n) 3 0 ≠ 0 ∧ s.bit (Reg.TIL_CTL n) 0 = false) ∧
          (∀ i ∈ s.peerInsts r, r.halted.contains i.tile = true) ∧
          (8192 ≤ tag ∨ ∀ i ∈ r.insts, ∀ f, i.fid = some f → r.heard.contains f = true) ∧ s.untold tag r = []) ∧
      (∀ (st : BitVec 16) (node : Option Nat),
        (∀ x, r.phase = .ending x →
          let q := match node with | some f => r.hear f | none => r
          let u := match node with | some _ => s.setRun tag (some q) | none => s
          let tiles := u.runTiles tag q
          (u.runHalted tag q = false → exec (.runEnd tag st node) s = .next (s.seal ((u.askPeers q).tellParts tag x))) ∧
          (u.runHalted tag q = true →
            let v := tiles.foldl (fun u n => u.resetChannels n x) u
            let v := (v.peerInsts q).foldl (fun u i => u.resetPeer i.tile x) v
            exec (.runEnd tag st node) s = .next (s.seal (State.runOver { v with
              noc := v.noc.filter (fun m => !((m.kind = 2 || m.kind = 3) && tiles.contains m.sender)) } tag x 0)))) ∧
        ((∀ x, r.phase ≠ .ending x) →
          (∀ n, s.stoppedTile r = some n →
            let cause := s.fld (Reg.TIL_EXC_DETAIL n) 31 16
            let x := if cause = St.ok then St.programFault else cause
            let u := s.runStop tag r x
            exec (.runEnd tag st node) s = .next (s.seal (match u.run tag with | some r' => u.runFinish tag r' x | none => u))) ∧
          (s.stoppedTile r = none →
            (st.toNat = St.ok → node = none → exec (.runEnd tag st node) s = .next (s.seal (s.askPeers r))) ∧
            (∀ f, st.toNat = St.ok → node = some f → exec (.runEnd tag st node) s = .next (s.seal (s.setRun tag (some (r.hear f))))) ∧
            (st.toNat ≠ St.ok → exec (.runEnd tag st node) s = .next (s.seal (s.runStop tag r st.toNat)))))) ∧
      (r.phase = .running → r.stageOver = false ∨ r.stage ≠ lastStage img →
        exec (.runTimeLimit tag) s =
          .next (s.seal ((s.atTime (r.deadline.getD 0)).runStop tag r St.programTimeout))) ∧
      (r.phase ≠ .running → exec (.runTimeLimit tag) s = .next (s.seal s)))

/-- The sinks of a RUN and its commit point (R166 to R170). Where the spec leaves a point open, the model's
choice: log entries 11, 39, 43. -/
def Obligations.SinksDeliverAndRunsCommit : Prop :=
  (∀ (s : State) (t ch : Nat) (far : Option NocMsg) (payload : Ecc), t < 128 → ch < 32 → okFar far = true →
    (∀ m u tag r c es last bad, s.sinkTake 2 t ch far = some (m, u) →
      s.runOfTile t = some (tag, r) → s.cmd tag = some c → checkedBody payload m.body = .elems es last bad →
      (∀ x, r.phase = .ending x → ∀ sent, exec (.hostSinkWrite t ch far sent payload) s = .next (s.seal u)) ∧
      ((∀ x, r.phase ≠ .ending x) →
        let k := m.tile % 16
        (∀ o, FMap.getD r.owner k = some o → o ≠ 64 * t + ch →
          ∀ sent, exec (.hostSinkWrite t ch far sent payload) s = .next (s.seal s)) ∧
        (FMap.getD r.owner k = none ∨ FMap.getD r.owner k = some (64 * t + ch) →
          (∀ sent, sent = false ∨ s.hostUp c.fn = false →
            exec (.hostSinkWrite t ch far sent payload) s = .next (s.seal (u.runStop tag r St.accessDenied))) ∧
          (s.hostUp c.fn = true →
            let start := FMap.getD r.sinks k
            let left := (fieldLE r.block (0x48 + 16 * k) 8 - start) / m.eb
            let r' := { r with
              sinks := FMap.setD r.sinks k (start + m.eb * (es.take left).length)
              owner := FMap.setD r.owner k (if last then none else some (64 * t + ch)) }
            let w := (u.hostPut c (fieldLE r.block (0x40 + 16 * k) 8 + start) ((es.take left).flatMap (natLE m.eb)) bad).setRun tag (some r')
            (left < es.length →
              exec (.hostSinkWrite t ch far true payload) s = .next (s.seal (w.runStop tag r' St.bufferOverflow))) ∧
            (es.length ≤ left → bad = true →
              exec (.hostSinkWrite t ch far true payload) s = .next (s.seal (w.runStop tag r' St.poisonedData))) ∧
            (es.length ≤ left → bad = false →
              exec (.hostSinkWrite t ch far true payload) s = .next (s.seal (w.sinkCredit t m es.length))))))) ∧
    (∀ m u tag r es last bad, s.sinkTake 3 t ch far = some (m, u) → s.runOfTile t = some (tag, r) →
      checkedBody payload m.body = .elems es last bad →
      (∀ x, r.phase = .ending x → exec (.columnSinkWrite t ch far payload) s = .next (s.seal u)) ∧
      ((∀ x, r.phase ≠ .ending x) →
        (bad = true → exec (.columnSinkWrite t ch far payload) s = .next (s.seal (u.runStop tag r St.poisonedData))) ∧
        (bad = false → exec (.columnSinkWrite t ch far payload) s = .next (s.seal ((u.setRun tag (some { r with
          columns := FMap.setD r.columns (m.tile % 4096) (FMap.getD r.columns (m.tile % 4096) ++ es) })).sinkCredit t m es.length)))))) ∧
  (∀ (s : State) (tag : Nat) (r : Run) (c : Cmd) (room : Option Room), tag < 8448 → s.run tag = some r → s.cmd tag = some c →
    let img := s.runImage r
    (imgTableOut img = false ∨ s.catalogHeld = false) →
    let finished := r.stageOver = true ∧ nextStage img r.stage = none ∧
      ∀ i ∈ r.insts, i.fid = none → s.sinkPending i.tile = false
    let rows := (FMap.getD r.columns 0).length
    let even := ∀ k < (imgColumns img).length, (FMap.getD r.columns k).length = rows
    (¬ finished → exec (.runCommit tag room) s = .next (s.seal s)) ∧
    (finished → 8192 ≤ tag → exec (.runCommit tag room) s = .next (s.seal (s.runOver tag St.ok 0))) ∧
    (finished → tag < 8192 →
      (imgTableOut img = false →
        exec (.runCommit tag room) s = .next (s.seal
          ((s.setStage tag .committed).runOver tag St.ok ((r.sinks.map (·.2)).foldl (· + ·) 0 % 2 ^ 40)))) ∧
      (imgTableOut img = true → ¬ even → exec (.runCommit tag room) s = .next (s.seal (s.runOver tag St.lengthMismatch 0))) ∧
      (imgTableOut img = true → even →
        (room = none → exec (.runCommit tag room) s = .next (s.seal (s.runOver tag St.tableFull 0))) ∧
        (∀ a, room = some a → (s.publishOut c r a tag).1 ≠ St.held →
          let (st, u) := s.publishOut c r a tag
          exec (.runCommit tag room) s = .next (s.seal (u.runOver tag st (if st = St.ok then rows else 0)))))))

/-- Searches of the Gauge (R174 to R191). Where the spec leaves a point open, the model's
choice: log entries 9, 56. -/
def Obligations.GaugeSearchesAnswerTheRankedMatch : Prop :=
  (∀ (s : State) (w b j : Nat) (key : List DWord),
    s.gHits w b j key = true ↔
      ∀ i < w, (key.getD i 0 ^^^ (s.gRow b (j + i)).value) &&& (s.gRow b (j + i)).care = 0) ∧
  (∀ (s j : State) (m t v : Nat) (key : List DWord) (pick : List GMatch → Option GMatch),
    (s.gLost t = true → s.gLookup m t key pick = (⟨St.halfLost, 0, none⟩, s)) ∧
    (s.gLost t = false → s.judge 0x01 m searchGranule (8 * s.gWidth t) Rights.read = (v, j) →
      (v ≠ St.ok → s.gLookup m t key pick = (⟨v, 0, none⟩, j)) ∧
      (v = St.ok →
        let within := j.fld (Reg.GAU_TBL_ACL t) 11 0 ≤ m ∧ m ≤ j.fld (Reg.GAU_TBL_ACL t) 23 12
        (¬ within → s.gLookup m t key pick =
          (⟨(j.denyAt 0x01 m searchGranule).1.status, 0, none⟩, (j.denyAt 0x01 m searchGranule).2)) ∧
        (within → j.bit (Reg.GAU_TBL_CFG t) 30 = true → s.gLookup m t key pick = (⟨St.poisonedData, 0, none⟩, j)) ∧
        (within → j.bit (Reg.GAU_TBL_CFG t) 30 = false → (∀ f, pick (j.gMatches t key) = some f → f.row.bad = false) →
          s.gLookup m t key pick = (⟨St.ok, gResult (pick (j.gMatches t key)) (j.gMatches t key).length, pick (j.gMatches t key)⟩,
            j.wr (Reg.GAU_TBL_SEARCHES t) (j.rd (Reg.GAU_TBL_SEARCHES t) + 1)))))) ∧
  (∀ (s u : State) (m t rank : Nat) (key : List DWord) (parity : Bool), m < 4096 → t < 16 → rank < 255 →
    let cmd := exec (.gaugeSearch m t rank key parity) s
    (s.role = some true → cmd = .next (s.seal s)) ∧
    (s.role ≠ some true → s.domainGate (.reg 0x350000) m (regDpa 0x350000) = none → u = s.wakeTile (.reg 0x350000) →
      (u.gTable t = false ∨ key.length ≠ u.gWidth t → cmd = .next (s.seal (u.mcAnswer (MemAnswer.stop St.invalidField)))) ∧
      (u.gTable t = true → key.length = u.gWidth t → u.arbFrozen 3 = true →
        u.gaugeDone.find? (fun d => d.1 = ⟨t, m, some rank, key, none⟩) = none →
        cmd = .next (s.seal ((u.gEnqueue ⟨t, m, some rank, key, none⟩).mcAnswer (MemAnswer.stop St.held)))) ∧
      (u.gTable t = true → key.length = u.gWidth t →
        let w := if parity then u.gaugeSpoil t rank key else u
        w.GaugeIdle →
        let l := w.gLookup m t key (fun ms => ms[rank]?)
        cmd = .next (s.seal (l.2.mcAnswer ⟨l.1.status, if l.1.status = St.ok then natLE 8 l.1.word else [], false⟩))) ∧
      (parity = false → u.GaugeIdle → u.Searches m t key →
        cmd = .next (s.seal ((u.countWrap (Reg.GAU_TBL_SEARCHES t)).mcAnswer
          ⟨St.ok, natLE 8 (gResult (u.gMatches t key)[rank]? (u.gMatches t key).length), false⟩))))) ∧
  (∀ (s t : State) (m slot : Nat) (v : Word), m < 4096 → slot < 16 → s.Reaches m (Reg.GAU_SLOT_CMD slot) t →
    t.bit (Reg.GAU_SLOT_STATUS slot) 31 = false → v.toNat.testBit 31 = true →
    let put := t.plainWrite m (Reg.GAU_SLOT_CMD slot) v
    let u : State := { put with gaugeLast := FMap.setD put.gaugeLast slot (v.toNat % 256) }
    let tb := bits v.toNat 11 8
    let last := FMap.getD put.gaugeLast slot
    let key := u.gUnits slot
    let ends (x : GAnswer × State) : State := (x.2.gStoreResult slot x.1).wr (Reg.GAU_SLOT_STATUS slot) (BitVec.ofNat 32 x.1.status)
    let held : State :=
      { u.wr (Reg.GAU_SLOT_STATUS slot) (BitVec.ofNat 32 (2 ^ 31)) with gaugeQueue := u.gaugeQueue ++ [u.gSlotAsk m slot tb] }
    let bad := u.wr (Reg.GAU_SLOT_STATUS slot) (BitVec.ofNat 32 St.invalidField)
    put.GaugeIdle ∨ put.arbFrozen 3 = true → u.gTable tb = true → u.gLost tb = false →
    (v.toNat % 256 = 5 → u.gSlotOp slot = 5 →
      let rank := u.fld (Reg.GAU_SLOT_CMD slot) 23 16
      (rank = 255 → exec (.gaugeSlotSearch m slot v) s = .next (s.seal bad.acked)) ∧
      (rank ≠ 255 → put.arbFrozen 3 = true → exec (.gaugeSlotSearch m slot v) s = .next (s.seal held.acked)) ∧
      (rank ≠ 255 → put.arbFrozen 3 = false →
        exec (.gaugeSlotSearch m slot v) s = .next (s.seal (ends (u.gLookup m tb key (fun ms => ms[rank]?))).acked))) ∧
    (v.toNat % 256 = 6 → u.gSlotOp slot = 6 →
      (last ≠ 5 → last ≠ 6 → exec (.gaugeNext m slot v) s = .next (s.seal bad.acked)) ∧
      (last = 5 ∨ last = 6 →
        let res := (u.rd (Reg.GAU_SLOT_RESULT_HI slot)).toNat
        let pos := (u.rd (Reg.GAU_SLOT_RPOS slot)).toNat
        let after (x : GMatch) : Bool :=
          res.testBit 31 && (decide (res % 2 ^ 16 < x.prio) || (x.prio = res % 2 ^ 16 &&
            (decide (bits pos 20 16 < x.bank) || (x.bank = bits pos 20 16 && decide (bits pos 12 0 < x.index)))))
        (put.arbFrozen 3 = true → exec (.gaugeNext m slot v) s = .next (s.seal held.acked)) ∧
        (put.arbFrozen 3 = false → exec (.gaugeNext m slot v) s =
          .next (s.seal (ends (u.gLookup m tb key (fun ms => ms.find? after))).acked)))))

/-- The commands of the Gauge but its searches (R177 to R192). Where the spec leaves a point open, the model's
choice: log entries 12, 43, 57, 126, 127, 128, 133 to 128. -/
def Obligations.GaugeCommandsMaintainItsTables : Prop :=
  (∀ (s t : State) (m slot op : Nat) (v : Word) (back : BitVec 16) (i : Instr), m < 4096 → slot < 16 →
    (op, i) ∈ [(1, Instr.gaugeCreate m slot v back), (2, .gaugeDestroy m slot v), (3, .gaugeSetAcl m slot v),
      (4, .gaugeWrite m slot v back none), (5, .gaugeSlotSearch m slot v), (6, .gaugeNext m slot v),
      (7, .gaugeReload m slot v back), (8, .moveBank m slot v), (9, .gaugeRead m slot v)] →
    (v.toNat.testBit 31 = false ∨ v.toNat % 256 ≠ op → exec i s = .next (s.seal s)) ∧
    (v.toNat.testBit 31 = true → v.toNat % 256 = op → s.Reaches m (Reg.GAU_SLOT_CMD slot) t →
    (t.bit (Reg.GAU_SLOT_STATUS slot) 31 = true →
      exec i s = .next (s.seal (t.refuse m (Reg.GAU_SLOT_CMD slot) St.accessDenied).acked)) ∧
    (t.bit (Reg.GAU_SLOT_STATUS slot) 31 = false →
      let put := (t.plainWrite m (Reg.GAU_SLOT_CMD slot) v).gServe
      let u : State := { put with gaugeLast := FMap.setD put.gaugeLast slot op }
      let tb := bits v.toNat 11 8
      let ends (x : State) (st : Nat) : Host.Outcome State Fault Refusal :=
        .next (s.seal (x.wr (Reg.GAU_SLOT_STATUS slot) (BitVec.ofNat 32 st)).acked)
      let w := u.gWidth tb
      let wlog := u.fld (Reg.GAU_TBL_CFG tb) 17 16
      (2 ≤ op → u.gTable tb = false → exec i s = ends u St.invalidField) ∧
      (3 ≤ op → u.gTable tb = true → u.gLost tb = true → exec i s = ends u St.halfLost) ∧
      (op = 1 →
        let mask := (u.rd (Reg.GAU_SLOT_BANKS slot)).toNat
        let banks := (List.range 32).filter mask.testBit
        let wl := u.fld (Reg.GAU_SLOT_CMD slot) 17 16
        let illegal := u.fld (Reg.GAU_SLOT_CMD slot) 23 18 ≠ 0 ∨ wl = 3 ∨ banks = [] ∨ (∃ b ∈ banks, u.gUsable b = false) ∨
          u.gShadowOk = false
        ((∀ n < 16, u.gTable n = true) → exec i s = ends u St.tableFull) ∧
        (∀ n, (List.range 16).find? (fun t => !u.gTable t) = some n →
          (illegal → exec i s = ends u St.invalidField) ∧
          (¬ illegal →
            let r := if u.gRecreates then (St.ok, u) else u.gZeroBanks banks
            let st := if r.1 = St.ok ∧ ∃ b ∈ banks, r.2.gOwns b = false then back.toNat else r.1
            (st ≠ St.ok → exec i s = ends r.2 st) ∧
            (st = St.ok →
              let x := ((r.2.gClear mask).wr (Reg.GAU_TBL_CFG n) (BitVec.ofNat 32 (2 ^ 31 + 2 ^ 16 * wl))).wr (Reg.GAU_TBL_BANKS n)
                (BitVec.ofNat 32 mask)
              let y := (x.wr (Reg.GAU_TBL_ACL n) (x.rd (Reg.GAU_SLOT_ACL slot))).wr (Reg.GAU_TBL_SEARCHES n) 0
              exec i s = ends ((((y.setFld Reg.GAU_STATUS n n 1).gFreeBanks).gTell n).setFld (Reg.GAU_SLOT_CMD slot) 11 8 n) St.ok)))) ∧
      (op = 2 → u.gTable tb = true →
        ((∃ q ∈ u.gaugeQueue, q.table = tb) → exec i s = .next (s.seal (State.acked (u.gHold slot)))) ∧
        ((∀ q ∈ u.gaugeQueue, q.table ≠ tb) →
          let y := (((u.gClear (u.rd (Reg.GAU_TBL_BANKS tb)).toNat).wr (Reg.GAU_TBL_CFG tb) 0).wr (Reg.GAU_TBL_BANKS tb) 0).wr
            (Reg.GAU_TBL_ACL tb) 0
          exec i s = ends (((y.gTell tb).setFld Reg.GAU_STATUS tb tb 0).gFreeBanks) St.ok)) ∧
      (u.gTable tb = true → u.gLost tb = false →
        (op = 3 → exec i s = ends ((u.wr (Reg.GAU_TBL_ACL tb) (u.rd (Reg.GAU_SLOT_ACL slot))).gTell tb) St.ok) ∧
        (op = 4 →
          (u.gMoving tb = true → exec i s = .next (s.seal (State.acked (u.gHold slot)))) ∧
          (u.gMoving tb = false → u.gEntry tb (u.fld (Reg.GAU_SLOT_ENTRY slot) 17 0) = none → exec i s = ends u St.invalidField) ∧
          (∀ b e, u.gMoving tb = false → u.gEntry tb (u.fld (Reg.GAU_SLOT_ENTRY slot) 17 0) = some (b, e) →
            let r := (List.range w).foldl (fun (a : Nat × State) k =>
              if a.1 ≠ St.ok then a else a.2.gWriteShadow b (e * w + k) (a.2.gWriteRow slot wlog k)) (St.ok, u)
            let st := if r.1 = St.ok ∧ r.2.gOwns b = false then back.toNat else r.1
            (st ≠ St.ok → exec i s = ends r.2 st) ∧
            (st = St.ok → exec i s = ends (((List.range w).foldl
              (fun z k => z.setGRow b (e * w + k) (z.gWriteRow slot wlog k)) r.2).gCountFaults tb) St.ok))) ∧
        (op = 7 →
          let r := u.gLoadBanks tb (u.gBanks tb)
          exec i s = ends (r.2.gCountFaults tb)
            (if r.1 = St.ok ∧ ∃ b ∈ r.2.gBanks tb, r.2.gOwns b = false then back.toNat else r.1)) ∧
        (op = 8 →
          let src := u.fld (Reg.GAU_SLOT_MOVE slot) 4 0
          let dst := u.fld (Reg.GAU_SLOT_MOVE slot) 12 8
          let legal := (u.gBanks tb).contains src = true ∧ u.gUsable dst = true
          (¬ legal → exec i s = ends u St.invalidField) ∧
          (legal → exec i s = ends ((List.range 8192).foldl (fun z j =>
            let r := z.gReadShadow src j
            if r.1.status ≠ St.ok ∨ r.1.poison = true then
              let z := r.2.setGRow dst j (r.2.gRow src j)
              z.setGRow dst (j / w * w) { z.gRow dst (j / w * w) with faulted := true }
            else
              let n := { GRow.ofBytes r.1.data with faulted := (r.2.gRow src j).faulted }
              ((r.2.gWriteShadow dst j n).2).setGRow dst j n) u) (2 ^ 31))) ∧
        (op = 9 →
          (u.gEntry tb (u.fld (Reg.GAU_SLOT_ENTRY slot) 17 0) = none → exec i s = ends u St.invalidField) ∧
          (∀ b e, u.gEntry tb (u.fld (Reg.GAU_SLOT_ENTRY slot) 17 0) = some (b, e) →
            ((∃ k < w, (u.gRow b (e * w + k)).bad = true) → exec i s = ends u St.poisonedData) ∧
            ((∀ k < w, (u.gRow b (e * w + k)).bad = false) →
              let y := (u.wr (Reg.GAU_SLOT_META slot) ((u.gRow b (e * w)).hdr &&& 0x8000FFFF)).wr (Reg.GAU_SLOT_DATA slot)
                (u.gRow b (e * w)).data
              exec i s = ends ((List.range w).foldl (fun z k =>
                (z.wr64 (Reg.GAU_SLOT_U_VALUE_LO slot k) (z.gRow b (e * w + k)).value.toNat).wr64 (Reg.GAU_SLOT_U_CARE_LO slot k)
                  (z.gRow b (e * w + k)).care.toNat) y) St.ok))))))) ∧
  (∀ (s : State) (m slot : Nat) (v : Word) (back : BitVec 16), m < 4096 → slot < 16 →
    (∀ f, okGaugeFar (some f) = true → s.role ≠ some true → exec (.gaugeWrite m slot v back (some f)) s = .next (s.seal s)) ∧
    (∀ b j rec, okGaugeFar (some (.row b j rec)) = true → s.role = some true →
      let g := GRow.ofBytes rec
      let w := s.gWriteShadow b j g
      (w.1 = St.ok → exec (.gaugeWrite m slot v back (some (.row b j rec))) s = .next (s.seal (w.2.setGRow b j g))) ∧
      (w.1 ≠ St.ok → exec (.gaugeWrite m slot v back (some (.row b j rec))) s = .next (s.seal w.2))) ∧
    (∀ tb cfg banks acl, tb < 16 → s.role = some true →
      exec (.gaugeWrite m slot v back (some (.table tb cfg banks acl))) s = .next (s.seal
        (((((s.wr (Reg.GAU_TBL_CFG tb) cfg).wr (Reg.GAU_TBL_BANKS tb) banks).wr (Reg.GAU_TBL_ACL tb) acl).setFld
          Reg.GAU_STATUS tb tb (bit01 (cfg.toNat.testBit 31))).gFreeBanks)))) ∧
  (∀ (s : State) (slot : Nat), slot < 16 →
    let tb := s.fld (Reg.GAU_SLOT_CMD slot) 11 8
    let src := s.fld (Reg.GAU_SLOT_MOVE slot) 4 0
    let dst := s.fld (Reg.GAU_SLOT_MOVE slot) 12 8
    let moving := s.bit (Reg.GAU_SLOT_STATUS slot) 31 = true ∧ s.fld (Reg.GAU_SLOT_CMD slot) 7 0 = 8
    let legal := s.gTable tb = true ∧ (s.gBanks tb).contains src = true ∧ s.gUsable dst = true
    let goesOn (y : State) : State :=
      let y := if y.gOwned dst then y else y.gClear (2 ^ dst)
      let mine (k : Nat) : Bool := y.gSlotOp k = 4 && y.fld (Reg.GAU_SLOT_CMD k) 11 8 = tb
      (y.gaugeWaits.filter mine).foldl (fun z k => if z.gLost tb then z.gDone k St.halfLost else z.gWriteEntry k tb St.ok)
        { y with gaugeWaits := y.gaugeWaits.filter (fun k => !mine k) }
    (¬ moving → exec (.moveBankSwitch slot) s = .next (s.seal s)) ∧
    (moving → s.gLost tb = true → exec (.moveBankSwitch slot) s = .next (s.seal (goesOn (s.gDone slot St.halfLost)))) ∧
    (moving → s.gLost tb = false → ¬ legal → exec (.moveBankSwitch slot) s = .next (s.seal (goesOn (s.gDone slot St.invalidField)))) ∧
    (moving → s.gLost tb = false → legal →
      let u := s.wr (Reg.GAU_TBL_BANKS tb) (BitVec.ofNat 32 (setBits (setBits (s.rd (Reg.GAU_TBL_BANKS tb)).toNat src src 0) dst dst 1))
      exec (.moveBankSwitch slot) s = .next (s.seal (goesOn
        (((u.gMoveFaults src dst).foldl (fun z j => (z.raise Reg.GAU_INT_STATUS 0).gReport dst j St.poisonedData 3)
          ((((u.gClear (2 ^ src)).gCountFaults tb).gFreeBanks).gTell tb)).gDone slot St.ok))))) ∧
  (∀ (s : State) (bad : List Nat),
    (s.bit Reg.GAU_CTL 0 = false ∨ s.domState 9 ≠ 0 → exec (.gaugeScrubStep bad) s = .next (s.seal s)) ∧
    (s.bit Reg.GAU_CTL 0 = true → s.domState 9 = 0 →
      let j := s.gaugeScrub
      let u := bad.foldl (fun z b => if z.gOwns b then z.setGRow b j { z.gRow b j with bad := true } else z) s
      let x := (List.range 16).foldl (fun z t =>
        if z.gTable t then (z.gBanks t).foldl (fun z b => if z.gOwns b then z.gScrubRow t b j else z) z else z) u
      let y := (List.range 32).foldl (fun z b => if z.gOwns b && !z.gOwned b then z.gScrubFree b j else z) x
      exec (.gaugeScrubStep bad) s = .next (s.seal
        (if j + 1 = 8192 then State.countWrap { y with gaugeScrub := 0 } Reg.GAU_SCRUB_PASSES else { y with gaugeScrub := j + 1 })))) ∧
  (∀ (s t : State) (m : Nat) (v : Word), m < 4096 → s.Reaches m Reg.GAU_BANK_RETIRED t →
    ((∃ b < 16, v.toNat.testBit b = true ∧ t.gOwned (if t.gBack then b + 16 else b) = true) →
      exec (.gaugeBankRetire m v) s = .next (s.seal (t.refuse m Reg.GAU_BANK_RETIRED St.invalidField).acked)) ∧
    ((∀ b < 16, v.toNat.testBit b = true → t.gOwned (if t.gBack then b + 16 else b) = false) →
      exec (.gaugeBankRetire m v) s = .next (s.seal ((t.plainWrite m Reg.GAU_BANK_RETIRED v).gFreeBanks).acked))) ∧
  (∀ (s : State) (m : Nat) (v : Word), m < 4096 →
    (s.domainGate (.reg Reg.GAU_SHADOW_BASE_LO) m (regDpa Reg.GAU_SHADOW_BASE_LO) = none →
      ((∃ n < 16, s.gTable n = true) → exec (.gaugeShadowBaseWrite m false v) s =
        .next (s.seal (s.refuse m Reg.GAU_SHADOW_BASE_LO St.accessDenied).acked)) ∧
      ((∀ n < 16, s.gTable n = false) → exec (.gaugeShadowBaseWrite m false v) s =
        .next (s.seal (State.acked { s with held := FMap.setD s.held Reg.GAU_SHADOW_BASE_LO (some ⟨m, v⟩) })))) ∧
    (s.domainGate (.reg Reg.GAU_SHADOW_BASE_HI) m (regDpa Reg.GAU_SHADOW_BASE_HI) = none → (∀ n < 16, s.gTable n = false) →
      ∀ h, FMap.getD s.held Reg.GAU_SHADOW_BASE_LO = some h → h.master = m →
        exec (.gaugeShadowBaseWrite m true v) s = .next (s.seal (State.pairCodes
          { s with held := FMap.setD s.held Reg.GAU_SHADOW_BASE_LO none } m Reg.GAU_SHADOW_BASE_LO (some h.value) v).acked)))

/-- The jobs of Stipple (R203 to R209). Where the spec leaves a point open, the model's
choice: log entries 9, 19, 35, 105. -/
def Obligations.StippleJobsCompleteByTheirChecks : Prop :=
  (∀ (s : State) (e : Nat), e < 16 →
    (s.stpJob e 1 = none → ∀ frame, exec (.stippleCompress e frame) s = .next (s.seal s)) ∧
    (s.stpJob e 2 = none → exec (.stippleDecompress e) s = .next (s.seal s))) ∧
  (∀ (s : State) (e : Nat) (frame : List Byte) (j : Job), e < 16 → s.stpJob e 1 = some j →
    let n := stpSrcLen j.entry
    let c := stpCodec j.entry
    let cmd := exec (.stippleCompress e frame) s
    let ends (x : State) (st : Nat) := cmd = .next (s.seal (x.stpEnd j st 0))
    let writes (x : State) (out : List Byte) :=
      let w := x.writeMem Mid.stipple (stpDst j.entry) out
      (w.1 = St.ok → cmd = .next (s.seal (w.2.stpEnd j St.ok out.length))) ∧
      (w.1 = St.held → cmd = .next (s.seal (w.2.setJob j { j with out := some out }))) ∧
      (w.1 ≠ St.ok → w.1 ≠ St.held → ends (w.2.scramble Mid.stipple (stpDst j.entry) out.length) w.1)
    (stpStep1 s.rev21 j.entry = false → ends s St.invalidField) ∧
    (stpStep1 s.rev21 j.entry = true → n < 33 → ends s St.codecNoGain) ∧
    (stpStep1 s.rev21 j.entry = true → 33 ≤ n → stpCap j.entry < n - 16 → ends s St.bufferOverflow) ∧
    (stpStep1 s.rev21 j.entry = true → 33 ≤ n → n - 16 ≤ stpCap j.entry →
      (∀ out, j.out = some out → writes s out) ∧
      (j.out = none →
        (∀ st u, s.stpRead s.rev21 j = (.error st, u) →
          (st = St.held → cmd = .next (s.seal u)) ∧ (st ≠ St.held → ends u st)) ∧
        (∀ src sib u, s.stpRead s.rev21 j = (.ok (src, sib), u) →
          let w := u.wr64 (Reg.STP_ENG_BYTES_LO j.engine) ((u.rd64 (Reg.STP_ENG_BYTES_LO j.engine) + n) % 2 ^ 64)
          let good := decodeWhole c s.rev21 frame sib src.length = .ok (storedElems c.eb src (src.length / c.eb))
          (¬ good → (n - 16 < frame.length → ends w St.codecNoGain) ∧
            (frame.length ≤ n - 16 → cmd = .next (s.seal (w.stpVerifyFail j)))) ∧
          (good →
            let f := w.stpMake s.rev21 j.entry src sib frame
            (n - 16 < f.1.length → ends f.2 St.codecNoGain) ∧
            (f.1.length ≤ n - 16 → writes f.2 f.1)))))) ∧
  (∀ (s : State) (rev21 : Bool) (j : Job),
    let e := j.entry
    let a := if j.got = [] then s.readMem Mid.stipple (stpSrc e) (stpSrcLen e) else (⟨St.ok, j.got.headD [], false⟩, s)
    let n := stpSibBytes e (stpRows rev21 e a.1.data)
    let b := a.2.readMem Mid.stipple (stpSib e) n
    (dataStatus a.1 ≠ St.ok → s.stpRead rev21 j = (.error (dataStatus a.1), a.2)) ∧
    (dataStatus a.1 = St.ok → n = 0 → s.stpRead rev21 j = (.ok (a.1.data, []), a.2)) ∧
    (dataStatus a.1 = St.ok → n ≠ 0 → dataStatus b.1 = St.held →
      s.stpRead rev21 j = (.error St.held, b.2.setJob j { j with got := [a.1.data] })) ∧
    (dataStatus a.1 = St.ok → n ≠ 0 → dataStatus b.1 ≠ St.held → dataStatus b.1 ≠ St.ok →
      s.stpRead rev21 j = (.error (dataStatus b.1), b.2)) ∧
    (dataStatus a.1 = St.ok → n ≠ 0 → dataStatus b.1 = St.ok → s.stpRead rev21 j = (.ok (a.1.data, b.1.data), b.2))) ∧
  (∀ (s : State) (rev21 : Bool) (e src sib frame : List Byte),
    let key := bits (stpParam e) 20 4
    let same (m : Coded) : Bool := m.rev21 = rev21 && m.codec = key && m.src = src && m.sib = sib
    (∀ m, s.stpMade.find? same = some m → s.stpMake rev21 e src sib frame = (m.frame, s)) ∧
    (s.stpMade.find? same = none → s.stpMake rev21 e src sib frame = (padFrame (stpCodec e) rev21 frame sib,
      { s with stpMade := s.stpMade ++ [⟨rev21, key, src, sib, padFrame (stpCodec e) rev21 frame sib⟩] }))) ∧
  (∀ (s : State) (e : Nat) (j : Job), e < 16 → s.stpJob e 2 = some j →
    let n := stpSrcLen j.entry
    let c := stpCodec j.entry
    let cmd := exec (.stippleDecompress e) s
    let ends (x : State) (st : Nat) := cmd = .next (s.seal (x.stpEnd j st 0))
    let writes (x : State) (out : List Byte) :=
      let w := x.writeOn bus Mid.stipple (stpDst j.entry) out
      (w.1 = St.ok → cmd = .next (s.seal (w.2.stpEnd j St.ok out.length))) ∧
      (w.1 = St.held → cmd = .next (s.seal (w.2.setJob j { j with out := some out }))) ∧
      (w.1 ≠ St.ok → w.1 ≠ St.held → ends (w.2.scramble Mid.stipple (stpDst j.entry) out.length) w.1)
    (stpStep1 s.rev21 j.entry = false → ends s St.invalidField) ∧
    (stpStep1 s.rev21 j.entry = true →
      (∀ out, j.out = some out → writes s out) ∧
      (j.out = none →
        (∀ st u, s.stpRead s.rev21 j = (.error st, u) →
          (st = St.held → cmd = .next (s.seal u)) ∧ (st ≠ St.held → ends u st)) ∧
        (∀ src sib u, s.stpRead s.rev21 j = (.ok (src, sib), u) →
          let w := u.wr64 (Reg.STP_ENG_BYTES_LO j.engine) ((u.rd64 (Reg.STP_ENG_BYTES_LO j.engine) + n) % 2 ^ 64)
          (∀ st, decodeWhole c s.rev21 src sib (stpCap j.entry) = .error st → ends w st) ∧
          (∀ vs, decodeWhole c s.rev21 src sib (stpCap j.entry) = .ok vs → writes w (vs.flatMap (natLE c.eb))))))) ∧
  (∀ (s t : State) (m : Nat) (v : Word), m < 4096 → s.Reaches m Reg.STP_ENG_RETIRED t →
    exec (.stippleEngineRetire m v) s = .next (s.seal (State.acked ((List.range 16).foldl (fun u e =>
      if v.toNat.testBit e && !u.bit Reg.STP_ENG_RETIRED e then
        if u.bit Reg.STP_STATUS e then { u with stpRetire := setBits u.stpRetire e e 1 }
        else (u.setFld Reg.STP_ENG_RETIRED e e 1).raise Reg.STP_INT_STATUS 1
      else u) t))))

/-- The operations of Proof (R214 to R219). Where the spec leaves a point open, the model's
choice: log entries 9, 55, 105, 131. -/
def Obligations.ProofOperationsCompleteOnTheirSlot : Prop :=
  (∀ (s : State) (e i op : Nat) (c : Instr), e < 8 → i < 8 →
    (op, c) ∈ [(1, Instr.proofUpdate e i), (2, .proofRead e i), (3, .proofCompare e i), (4, .proofSave e i), (5, .proofRestore e i),
      (6, .proofRelease e i)] →
    s.prfJob e i op = none ∨ (s.prfPass e).prfServes e i = false → exec c s = .next (s.seal s)) ∧
  (∀ (b s : State) (e i op : Nat) (c : Instr) (j : Job) (v : Slot), e < 8 → i < 8 → s = b.prfPass e → b.prfJob e i op = some j → s.prfServes e i = true →
    s.slot j.eng j.slt = some v →
    (op, c) ∈ [(2, Instr.proofRead e i), (3, .proofCompare e i), (4, .proofSave e i)] →
    let x := j.entry
    let ends (u : State) (st result : Nat) := exec c b = .next (b.seal (u.prfEnd j st result))
    let st := if prfCheck x ≠ St.ok then prfCheck x else slotStatus x v
    let digest := algResult v.alg v.words
    let writes (data : List Byte) :=
      let w := s.writeMem Mid.proof (prfDst x) data
      (w.1 = St.ok → ends w.2 St.ok data.length) ∧ (w.1 = St.held → exec c b = .next (b.seal w.2)) ∧
      (w.1 ≠ St.ok → w.1 ≠ St.held → ends (w.2.scramble Mid.proof (prfDst x) data.length) w.1 0)
    (st ≠ St.ok → st ≠ St.digestNotReady ∨ op ≠ 2 → ends s st 0) ∧
    (op = 2 → st = St.digestNotReady →
      let n := algDigest (prfAlg x)
      let w := s.writeMem Mid.proof (prfDst x) (List.replicate n 0)
      (w.1 = St.ok → ends w.2 St.digestNotReady n) ∧ (w.1 = St.held → exec c b = .next (b.seal w.2)) ∧
      (w.1 ≠ St.ok → w.1 ≠ St.held → ends (w.2.scramble Mid.proof (prfDst x) n) St.digestNotReady 0)) ∧
    (op = 2 → st = St.ok → writes digest) ∧
    (op = 3 → st = St.ok →
      let r := s.readMem Mid.proof (prfSrc x) (prfLen x)
      (r.1.status = St.held → exec c b = .next (b.seal r.2)) ∧
      (r.1.status ≠ St.held → dataStatus r.1 ≠ St.ok → ends r.2 (dataStatus r.1) 0) ∧
      (r.1.status ≠ St.held → dataStatus r.1 = St.ok → ends r.2 St.ok (if r.1.data = digest then 1 else 0))) ∧
    (op = 4 → st = St.ok → writes (slotImage v))) ∧
  (∀ (b s : State) (e i : Nat) (j : Job), e < 8 → i < 8 → s = b.prfPass e → b.prfJob e i 1 = some j → s.prfServes e i = true →
    let x := j.entry
    let ends (u : State) (st result : Nat) := exec (.proofUpdate e i) b = .next (b.seal (u.prfEnd j st result))
    let old := s.slot j.eng j.slt
    let got := j.prog.desc
    let st := if got ≠ 0 then St.ok else if prfCheck x ≠ St.ok then prfCheck x else (old.map (slotStatus x)).getD St.ok
    let fresh : Slot := ⟨(ringOfKey j.ring).n, prfStream x, prfAlg x, false, false, prfSeal x, 0, algStart (prfAlg x)⟩
    let v := if prfStart x && decide (got = 0) then fresh else old.getD fresh
    let blk := algBlock (prfAlg x)
    let k := s.prfTake16 j
    let r := if k = 0 then (⟨St.ok, [], false⟩, s) else s.readMem Mid.proof (prfSrc x + blk * got) (blk * k)
    (st ≠ St.ok → ends s st 0) ∧
    (st = St.ok → k = 0 → prfLen x ≠ 0 → exec (.proofUpdate e i) b = .next (b.seal s)) ∧
    (st = St.ok → k ≠ 0 ∨ prfLen x = 0 →
      (r.1.status = St.held → exec (.proofUpdate e i) b = .next (b.seal r.2)) ∧
      (r.1.status ≠ St.held → dataStatus r.1 ≠ St.ok →
        ends (r.2.setSlot j.eng j.slt (some { v with failed := true, final := false })) (dataStatus r.1) 0) ∧
      (r.1.status ≠ St.held → dataStatus r.1 = St.ok →
        let last := decide (prfLen x ≤ blk * (got + k))
        let u := (r.2.setSlot j.eng j.slt (some { v with
          words := algAbsorbAll (prfAlg x) k v.words r.1.data, blocks := (v.blocks + k) % 2 ^ 64,
          final := prfFinal x && last })).count64 (Reg.PRF_ENG_BLOCKS_LO j.eng) k
        (last = true → ends u St.ok (prfLen x)) ∧
        (last = false → exec (.proofUpdate e i) b = .next (b.seal
          (State.setJob { u with prfUsed := FMap.setD u.prfUsed j.eng (FMap.getD u.prfUsed j.eng + k) } j
            { j with prog := { j.prog with desc := got + k } })))))) ∧
  (∀ (s : State) (j : Job),
    let left := prfLen j.entry / algBlock (prfAlg j.entry) - j.prog.desc
    (s.slotAlone j.eng j.slt = true → s.prfTake16 j = left) ∧
    (s.slotAlone j.eng j.slt = false → s.prfTake16 j = min left (16 - FMap.getD s.prfUsed j.eng))) ∧
  (∀ (b s : State) (e i : Nat) (j : Job), e < 8 → i < 8 → s = b.prfPass e → b.prfJob e i 5 = some j → s.prfServes e i = true →
    let x := j.entry
    let ends (u : State) (st result : Nat) := exec (.proofRestore e i) b = .next (b.seal (u.prfEnd j st result))
    let st := if prfCheck x ≠ St.ok then prfCheck x else ((s.slot j.eng j.slt).map (slotStatus x)).getD St.ok
    let r := s.readMem Mid.proof (prfSrc x) 256
    (st ≠ St.ok → ends s st 0) ∧
    (st = St.ok → r.1.status = St.held → exec (.proofRestore e i) b = .next (b.seal r.2)) ∧
    (st = St.ok → r.1.status ≠ St.held →
      (dataStatus r.1 ≠ St.ok → ends r.2 (dataStatus r.1) 0) ∧
      (dataStatus r.1 = St.ok → imageStatus x r.1.data ≠ St.ok → ends r.2 (imageStatus x r.1.data) 0) ∧
      (dataStatus r.1 = St.ok → imageStatus x r.1.data = St.ok →
        ends (r.2.setSlot j.eng j.slt (some ⟨(ringOfKey j.ring).n, prfStream x, prfAlg x, fieldLE r.1.data 0 1 % 4 = 2, false, false,
          fieldLE r.1.data 8 8, algOfImage (prfAlg x) (subBytes r.1.data 0x20 200)⟩)) St.ok 0))) ∧
  (∀ (b s : State) (e i : Nat) (j : Job), e < 8 → i < 8 → s = b.prfPass e → b.prfJob e i 6 = some j → s.prfServes e i = true →
    let x := j.entry
    let ends (u : State) (st result : Nat) := exec (.proofRelease e i) b = .next (b.seal (u.prfEnd j st result))
    (prfCheck x ≠ St.ok → ends s (prfCheck x) 0) ∧
    (prfCheck x = St.ok → s.slot j.eng j.slt = none → ends s St.ok 0) ∧
    (∀ v, prfCheck x = St.ok → s.slot j.eng j.slt = some v →
      (v.alg ≠ prfAlg x → ends s St.invalidField 0) ∧
      (v.alg = prfAlg x → ends (s.setSlot j.eng j.slt none) St.ok 0))) ∧
  (∀ (s : State) (e : Nat),
    let cur := FMap.getD s.prfTurn e
    (s.slotBusy e cur = true → s.prfPass e = s) ∧
    (s.slotBusy e cur = false → ∀ d, (rangeFrom 1 8).find? (fun d => s.slotBusy e ((cur + d) % 8)) = some d →
      s.prfPass e = { s with prfTurn := FMap.setD s.prfTurn e ((cur + d) % 8), prfUsed := FMap.setD s.prfUsed e 0 })) ∧
  (∀ (s : State) (e : Nat), e < 8 →
    let cur := FMap.getD s.prfTurn e
    let usedUp := 16 ≤ FMap.getD s.prfUsed e ∨ s.slotBusy e cur = false
    (¬ usedUp → exec (.proofQuantumEnd e) s = .next (s.seal s)) ∧
    (usedUp → ∀ d, (rangeFrom 1 8).find? (fun d => s.slotBusy e ((cur + d) % 8)) = some d →
      exec (.proofQuantumEnd e) s = .next (s.seal { s with
        prfTurn := FMap.setD s.prfTurn e ((cur + d) % 8), prfUsed := FMap.setD s.prfUsed e 0 })) ∧
    ((∀ i < 8, s.slotBusy e i = false) → exec (.proofQuantumEnd e) s = .next (s.seal s)))

/-- What every work ring does (R278 to R287). Where the spec leaves a point open, the model's
choice: log entries 53, 54, 132. -/
def Obligations.WorkRingsFetchPostAndReset : Prop :=
  ∀ (s : State) (r : Ring), r.ok = true →
    (∀ (t : State) (m : Nat) (v : Word), m < 4096 → s.Reaches m (ringReg r + 8) t → ringExists r = true →
      (t.ringError r = true → exec (.ringDoorbell m r v) s = .next (s.seal t.acked)) ∧
      (t.ringError r = false → r.unit = .dma → t.bit Reg.DMA_CTL 1 = true →
        exec (.ringDoorbell m r v) s = .next (s.seal (t.refuse m (ringReg r + 8) St.accessDenied).acked)) ∧
      (t.ringError r = false → r.unit ≠ .dma ∨ t.bit Reg.DMA_CTL 1 = false →
        exec (.ringDoorbell m r v) s = .next (s.seal (t.setRing r { t.ring r with pending := true }).acked))) ∧
    (∀ again, ringExists r = false ∨ s.ringOn r = false ∨ s.ringError r = true ∨ (s.ring r).pending = false ∨ s.unitTakes r = false →
      exec (.ringFetch r again) s = .next (s.seal s)) ∧
    (∀ again, s.ringOutbid r = true → exec (.ringFetch r again) s = .next (s.seal s)) ∧
    (r.unit ≠ .stp → r.unit ≠ .prf → s.ringOutbid r = false) ∧
    (r.unit = .stp → (s.ringOutbid r = true ↔
      ∃ d < (r.n + 16 - FMap.getD s.ringNext 0) % 16, s.ringAsks ⟨.stp, (FMap.getD s.ringNext 0 + d) % 16⟩ = true)) ∧
    (r.unit = .prf →
      let e := s.prfEngine r.n
      let start := FMap.getD s.ringNext (1 + e)
      (s.ringOutbid r = true ↔ ∃ d < (r.n + 32 - start) % 32,
        s.prfEngine ((start + d) % 32) = e ∧ s.ringAsks ⟨.prf, (start + d) % 32⟩ = true)) ∧
    (∀ again, s.ringOutbid r = false → ringExists r = true → s.ringOn r = true → s.ringError r = false → (s.ring r).pending = true → s.unitTakes r = true →
      let g := s.ring r
      let fails (u : State) (cause st a : Nat) := exec (.ringFetch r again) s = .next (s.seal (u.ringFail r cause g.head st a))
      ∀ a s1, s.readMem (ringMaster r.unit) (s.ringCtxAt r) 64 = (a, s1) →
        (dataStatus a = St.held → exec (.ringFetch r again) s = .next (s.seal s)) ∧
        (dataStatus a ≠ St.held → dataStatus a ≠ St.ok → fails s1 4 (dataStatus a) (s.ringCtxAt r)) ∧
        (dataStatus a = St.ok →
          (s1.ctxCheck a.data g.ctx ≠ St.ok → fails s1 5 (s1.ctxCheck a.data g.ctx) (s.ringCtxAt r)) ∧
          (s1.ctxCheck a.data g.ctx = St.ok →
            let u := s1.setRing r { s1.ring r with ctx := some a.data, attr := ctxAttr a.data }
            let at' := ctxSub a.data + 64 * g.head
            ∀ e s2, u.readMem (ringMaster r.unit) at' 64 = (e, s2) →
              (dataStatus e = St.held → exec (.ringFetch r again) s = .next (s.seal s)) ∧
              (dataStatus e ≠ St.held → dataStatus e ≠ St.ok → fails s2 4 (dataStatus e) at') ∧
              (dataStatus e = St.ok → (fieldLE e.data 0 4).testBit 31 ≠ g.phase →
                exec (.ringFetch r again) s = .next (s.seal (s2.setRing r { s2.ring r with pending := again }))) ∧
              (dataStatus e = St.ok → (fieldLE e.data 0 4).testBit 31 = g.phase →
                ctxCmpDepth a.data - 1 ≤ s2.fetched r + s2.unreleased r →
                exec (.ringFetch r again) s = .next (s.seal s2)) ∧
              (dataStatus e = St.ok → (fieldLE e.data 0 4).testBit 31 = g.phase →
                s2.fetched r + s2.unreleased r < ctxCmpDepth a.data - 1 →
                exec (.ringFetch r again) s = .next (s.seal (s2.ringTake r a.data e.data at')) ∧
                (∀ cause, entryMalformed r.unit e.data = some cause →
                  s2.ringTake r a.data e.data at' = (s2.ringAdvance r a.data).ringFail r cause (s2.ring r).head
                    (if cause = 2 then St.complementMismatch else St.malformedEntry) at') ∧
                (∀ en, entryMalformed r.unit e.data = none → s2.unitTake r e.data = .engine en →
                  let w := (s2.ringAdvance r a.data).ringGranted r
                  let w := if r.unit = .prf then w.prfGoOn r.n else w
                  s2.ringTake r a.data e.data at' =
                    State.unitBusy { w with jobs := w.jobs ++ [jobOf r (s2.ring r).head en e.data] } r en) ∧
                (entryMalformed r.unit e.data = none → s2.unitTake r e.data = .wait →
                  s2.ringTake r a.data e.data at' = if r.unit = .prf then s2.prfWait r.n else s2) ∧
                (∀ st result, entryMalformed r.unit e.data = none → s2.unitTake r e.data = .finish st result →
                  ¬ (r.unit = .prf ∧ prfOp e.data = 2 ∧ st = St.digestNotReady) →
                  let w := (s2.ringAdvance r a.data).ringGranted r
                  let w := if r.unit = .prf then w.prfGoOn r.n else w
                  s2.ringTake r a.data e.data at' =
                    { w with jobs := w.jobs ++ [{ jobOf r (s2.ring r).head 0 e.data with done := some (st, result) }] }) ∧
                (∀ st result, entryMalformed r.unit e.data = none → s2.unitTake r e.data = .finish st result →
                  r.unit = .prf → prfOp e.data = 2 → st = St.digestNotReady →
                  let z := s2.prfZeros e.data
                  (z.1 = St.held → s2.ringTake r a.data e.data at' = z.2) ∧
                  (z.1 ≠ St.held →
                    let x := z.2.zerosResult e.data z.1
                    let w := ((x.2.ringAdvance r a.data).ringGranted r).prfGoOn r.n
                    s2.ringTake r a.data e.data at' =
                      { w with jobs := w.jobs ++ [{ jobOf r (s2.ring r).head 0 e.data with done := some (st, x.1) }] })))))) ∧
    (∀ tag : BitVec 16,
      let mine (j : Job) : Bool := j.ring = ringKey r && j.tag = tag.toNat && j.done.isSome
      (s.jobs.find? mine = none → exec (.ringCompletionPost r tag) s = .next (s.seal s)) ∧
      (∀ j st result, s.jobs.find? mine = some j → j.done = some (st, result) →
        exec (.ringCompletionPost r tag) s =
          .next (s.seal (State.ringPost { s with jobs := s.jobs.erase j } r st result tag.toNat)))) ∧
    (∀ (t : State) (m : Nat) (v : Word), m < 4096 → s.Reaches m (ringChead r) t →
      let h := v.toNat % 65536
      let old := t.fld (ringChead r) 15 0
      let legal := ∀ c, (t.ring r).ctx = some c → h < ctxCmpDepth c ∧ (h + ctxCmpDepth c - old) % ctxCmpDepth c ≤ t.unreleased r
      ((t.ring r).ctx ≠ none → legal → exec (.ringCheadWrite m r v) s = .next (s.seal (t.setFld (ringChead r) 15 0 h).acked)) ∧
      (¬ legal → exec (.ringCheadWrite m r v) s = .next (s.seal (t.refuse m (ringChead r) St.invalidField).acked))) ∧
    (∀ (t : State) (m : Nat), m < 4096 → s.Reaches m (ringCtl r) t → ringExists r = true →
      let a := (t.jobs.filter (fun j => j.ring = ringKey r && j.done.isNone)).foldl (fun u j => u.jobAbort r j) t
      let d := a.ringDrain r a.jobs.length
      let f := if r.unit = .prf then (d.prfFreeRing r.n).prfGoOn r.n else d
      exec (.ringReset m r) s = .next (s.seal ((((f.setRing r RingState.reset).wr (ringChead r) 0).wr (ringStatus r) 0).setFld
        (ringCtl r) 0 0 0).acked))

/-- The DMA engine (R287 to R296). Where the spec leaves a point open, the model's
choice: log entries 9, 52, 105. -/
def Obligations.DmaRunsListsTransfersAndTimers : Prop :=
  (∀ (s : State) (ch : Nat) (host : List HostRead), ch < 64 →
    (s.dmaJob ch = none ∨ s.dmaMay ch = false → exec (.dmaRunList ch host) s = .next (s.seal s)) ∧
    (∀ j, s.dmaJob ch = some j → s.dmaMay ch = true →
      exec (.dmaRunList ch host) s = .next (s.seal (s.dmaList bus ch j 65537 host j.prog)) ∧
      (∀ b u, j.prog.desc ≠ 65536 → s.fetchDesc j.prog = (.ok b, u) →
        let d := Desc.ofBytes b
        let m := u.moveAll bus ch d (host.headD (.data [])) { j.prog with cur := some b }
        d.next = 0 → m.1 = St.ok → m.2.1.sullied = false →
        exec (.dmaRunList ch host) s = .next (s.seal (m.2.2.dmaEnd ch j St.ok (dmaResult false 0 (m.2.1.moved + d.count))))))) ∧
  (∀ (s : State) (ch : Nat),
    (s.dmaMay ch = true ↔ ch ∈ s.dmaStalled ∨ (s.bit Reg.DMA_CTL 0 = true ∧ s.arbFrozen 0 = false ∧ s.dmaPick = some ch)) ∧
    (∀ t, s.dmaTop.find? s.dmaAsks = some t → s.dmaPick = some t) ∧
    (s.dmaTop.find? s.dmaAsks = none → s.dmaPick = some ch →
      s.dmaAsks ch = true ∧ ∀ c < 64, s.dmaAsks c = true → s.fld (Reg.DMA_CH_CFG c) 1 0 ≤ s.fld (Reg.DMA_CH_CFG ch) 1 0) ∧
    (s.dmaGrant ch).dmaLast = ch ∧ ch ∉ (s.dmaGrant ch).dmaTop) ∧
  (∀ (s : State) (p : Progress),
    (∀ b, p.cur = some b → s.fetchDesc p = (.ok b, s)) ∧
    (p.cur = none →
      let r := s.readMem Mid.dma p.next 64
      (dataStatus r.1 ≠ St.ok → s.fetchDesc p = (.error (4, dataStatus r.1), r.2)) ∧
      (dataStatus r.1 = St.ok → r.2.descCheck r.1.data ≠ St.ok → s.fetchDesc p = (.error (3, r.2.descCheck r.1.data), r.2)) ∧
      (dataStatus r.1 = St.ok → r.2.descCheck r.1.data = St.ok → s.fetchDesc p = (.ok r.1.data, r.2)))) ∧
  (∀ (s : State) (bus : Bus) (ch fuel : Nat) (j : Job) (host : List HostRead) (p : Progress),
    let run := s.dmaList bus ch j (fuel + 1) host p
    (p.desc = 65536 → run = s.dmaEnd ch j St.invalidField (dmaResult true 65536 p.moved)) ∧
    (p.desc ≠ 65536 →
      (∀ cause st u, s.fetchDesc p = (.error (cause, st), u) →
        (st = St.held → run = u.setJob j { j with prog := p }) ∧ (st ≠ St.held → run = u.dmaBreak ch j cause st p.next)) ∧
      (∀ b u, s.fetchDesc p = (.ok b, u) →
        let d := Desc.ofBytes b
        ∀ st q v, u.moveAll bus ch d (host.headD (.data [])) { p with cur := some b } = (st, q, v) →
          (st = St.held → run = v.setJob j { j with prog := q }) ∧
          (st ≠ St.held → st ≠ St.ok → run = v.dmaEnd ch j st (dmaResult true q.desc q.moved)) ∧
          (st = St.ok → d.next = 0 → q.sullied = false → run = v.dmaEnd ch j St.ok (dmaResult false 0 (q.moved + d.count))) ∧
          (st = St.ok → d.next = 0 → q.sullied = true → run = v.dmaEnd ch j St.poisonedData (dmaResult true q.desc q.moved)) ∧
          (st = St.ok → d.next ≠ 0 → run = v.dmaList bus ch j fuel (if d.srcHost then host.drop 1 else host)
            { q with desc := q.desc + 1, next := d.next, off := 0, moved := q.moved + d.count, cur := none,
                     loose := if d.order || d.dstHost then q.loose else q.loose ++ [(d.dst, d.count)],
                     dests := if d.dstHost then q.dests else q.dests ++ [(d.dst, d.count)] })))) ∧
  (∀ (s t : State) (m ch : Nat) (v : Word), m < 4096 → ch < 64 → s.Reaches m (Reg.DMA_CH_REG_CTL ch) t → v.toNat.testBit 31 = true →
    let d := t.regDesc ch v
    let illegal := d.count = 0 ∨ (d.srcHost = false ∧ 2 ^ 48 ≤ d.src) ∨ (d.dstHost = false ∧ 2 ^ 48 ≤ d.dst) ∨
      ((d.srcHost = true ∨ d.dstHost = true) ∧ t.fnEnabled d.fn = false)
    let busy := t.bit (Reg.DMA_CH_REG_STATUS ch) 31
    let refused (st : Nat) := exec (.dmaRegGo m ch v) s = .next (s.seal (t.refuse m (Reg.DMA_CH_REG_CTL ch) st).acked)
    (t.bit Reg.DMA_CTL 1 = false → refused St.accessDenied) ∧
    (t.bit Reg.DMA_CTL 1 = true → illegal → refused St.invalidField) ∧
    (t.bit Reg.DMA_CTL 1 = true → ¬ illegal → busy = true → refused St.accessDenied) ∧
    (t.bit Reg.DMA_CTL 1 = true → ¬ illegal → busy = false →
      let u := (t.plainWrite m (Reg.DMA_CH_REG_CTL ch) v).setFld (Reg.DMA_CH_REG_STATUS ch) 31 31 1
      exec (.dmaRegGo m ch v) s =
        .next (s.seal (State.dmaBusy { u with dmaReg := FMap.setD u.dmaReg ch (some Progress.start) } ch true).acked))) ∧
  (∀ (s : State) (ch : Nat) (host : HostRead), ch < 64 →
    (FMap.getD s.dmaReg ch = none ∨ s.dmaMay ch = false → exec (.dmaRegDone ch host) s = .next (s.seal s)) ∧
    (∀ p, FMap.getD s.dmaReg ch = some p → s.dmaMay ch = true →
      let d := s.regDesc ch (s.rd (Reg.DMA_CH_REG_CTL ch))
      let wraps := addrOk d.srcHost d.src d.count = false ∨ addrOk d.dstHost d.dst d.count = false
      let ends (w : State) (st : Nat) := exec (.dmaRegDone ch host) s = .next (s.seal ((State.dmaLetGo
        { w.wr (Reg.DMA_CH_REG_STATUS ch) (BitVec.ofNat 32 (2 ^ 30 + st)) with
          dmaReg := FMap.setD (w.wr (Reg.DMA_CH_REG_STATUS ch) (BitVec.ofNat 32 (2 ^ 30 + st))).dmaReg ch none } ch).raise
        Reg.DMA_INT_STATUS 1))
      (wraps → p.sullied = false → ends s St.invalidField) ∧
      (¬ wraps → ∀ st q w, s.moveAll bus ch d host p = (st, q, w) →
        (st = St.held → exec (.dmaRegDone ch host) s = .next (s.seal { w with dmaReg := FMap.setD w.dmaReg ch (some q) })) ∧
        (st ≠ St.held → ends w (if st = St.ok ∧ q.sullied = true then St.poisonedData else st))))) ∧
  (∀ (s t : State) (m : Nat) (v : Word), m < 4096 → s.Reaches m Reg.DMA_CTL t →
    let used := ∃ c < 64, t.dmaIsBusy c = true ∨ t.ringOn ⟨.dma, c⟩ = true
    let boot := if t.firmwareStage then m < 0x140 ∨ 0x14F < m else t.mode = .bringUp ∧ v.toNat.testBit 1 = false
    (v.toNat.testBit 1 ≠ t.bit Reg.DMA_CTL 1 → used ∨ boot →
      exec (.dmaModeWrite m v) s = .next (s.seal (t.refuse m Reg.DMA_CTL St.accessDenied).acked)) ∧
    (v.toNat.testBit 1 = t.bit Reg.DMA_CTL 1 ∨ (¬ used ∧ ¬ boot) →
      exec (.dmaModeWrite m v) s = .next (s.seal (t.plainWrite m Reg.DMA_CTL v).acked))) ∧
  (∀ (s : State) (n : Nat), n < 16 →
    let u := (s.atTime (FMap.getD s.timerDue n)).dmaTrigger 1 n
    (s.bit (Reg.DMA_TMR_CTL n) 0 = false → exec (.dmaTimerExpire n) s = .next (s.seal s)) ∧
    (s.bit (Reg.DMA_TMR_CTL n) 0 = true → u.bit (Reg.DMA_TMR_CTL n) 1 = true →
      exec (.dmaTimerExpire n) s = .next (s.seal (u.setFld (Reg.DMA_TMR_CTL n) 0 0 0))) ∧
    (s.bit (Reg.DMA_TMR_CTL n) 0 = true → u.bit (Reg.DMA_TMR_CTL n) 1 = false →
      exec (.dmaTimerExpire n) s = .next (s.seal { u with
        timerDue := FMap.setD u.timerDue n (u.time.toNat + max 1000 (u.rd (Reg.DMA_TMR_PERIOD n)).toNat) }))) ∧
  (∀ (s : State) (ch : Nat), ch < 64 →
    (s.dmaIsBusy ch = true → ch ∉ s.dmaTop →
      exec (.dmaBurstPromote ch) s = .next (s.seal { s with dmaTop := s.dmaTop ++ [ch] })) ∧
    (s.dmaIsBusy ch = false ∨ ch ∈ s.dmaTop → exec (.dmaBurstPromote ch) s = .next (s.seal s)))

/-- The dispatcher (R300 to R313). Where the spec leaves a point open, the model's
choice: log entries 12, 58, 59. -/
def Obligations.DispatcherServesSlotsEventsAndCores : Prop :=
  (∀ (s t : State) (m n op : Nat) (v : Word) (i : Instr), m < 4096 → n < 17 →
    (op, i) ∈ [(1, Instr.spawn m n v), (2, .wait m n v), (3, .yield m n v), (4, .exit m n v), (5, .signal m n v), (6, .kill m n v),
      (7, .setprio m n v), (8, .resume m n v)] →
    (v.toNat.testBit 31 = false ∨ v.toNat % 16 ≠ op → exec i s = .next (s.seal s)) ∧
    (v.toNat.testBit 31 = true → v.toNat % 16 = op → s.Reaches m (Reg.HDS_SLOT_CMD n) t →
    (t.bit (Reg.HDS_SLOT_STATUS n) 31 = true → exec i s = .next (s.seal (t.refuse m (Reg.HDS_SLOT_CMD n) St.accessDenied).acked)) ∧
    (t.bit (Reg.HDS_SLOT_STATUS n) 31 = false →
      let u := t.plainWrite m (Reg.HDS_SLOT_CMD n) v
      let th := bits v.toNat 25 16
      let e := u.rd64 (Reg.HDS_SLOT_ARG_LO n) % 1024
      let ends (x : State) (st : Nat) := exec i s = .next (s.seal (x.wr (Reg.HDS_SLOT_STATUS n) (BitVec.ofNat 32 st)).acked)
      (op = 1 →
        (u.freeThread = none → ends (u.count Reg.HDS_SPAWN_FULL 31 0 1) St.threadTableFull) ∧
        (∀ k, u.freeThread = some k →
          let src := u.rd64 (Reg.HDS_SLOT_ARG_LO n)
          (src % 64 ≠ 0 → ends u St.invalidField) ∧
          (src % 64 = 0 →
            let r := u.readNow (slotMaster n) src 512
            let w := r.2.setWait n none
            (r.1.status = St.held → exec i s = .next (s.seal ((w.slotEnd n (2 ^ 31)).setWait n (some (1, 0))).acked)) ∧
            (r.1.status ≠ St.held → dataStatus r.1 ≠ St.ok → ends w (dataStatus r.1)) ∧
            (r.1.status ≠ St.held → dataStatus r.1 = St.ok →
              let prio := bits (fieldLE r.1.data 0x1F0 4) 4 0
              let above := w.aboveFloor (fieldLE r.1.data 0x108 8 % 2 = 0) prio
              (imageCheck r.1.data ≠ St.ok → ends w (imageCheck r.1.data)) ∧
              (imageCheck r.1.data = St.ok → above = true → ends w St.invalidField) ∧
              (imageCheck r.1.data = St.ok → above = false →
                let z := w.writeNow (slotMaster n) (w.imageAt k) r.1.data
                (z.1 ≠ St.ok → ends z.2 z.1) ∧
                (z.1 = St.ok → exec i s = .next (s.seal (z.2.spawned n k prio).acked))))))) ∧
      (2 ≤ op → op ≤ 4 →
        (16 ≤ n ∨ u.coreState n ≠ 1 → ends u St.invalidField) ∧
        (n < 16 → u.coreState n = 1 →
          exec i s = .next (s.seal ((u.slotEnd n (2 ^ 31)).setWait n (some (op, if op = 2 then e else 0))).acked))) ∧
      (op = 5 → ends (u.signal e) St.ok) ∧
      (op = 6 → (u.thrState th = 0 → ends u St.invalidField) ∧ (u.thrState th ≠ 0 → ends (u.kill th) St.ok)) ∧
      (op = 7 →
        (u.thrState th = 0 → ends u St.invalidField) ∧
        (u.thrState th ≠ 0 →
          let p := bits v.toNat 12 8
          let x := u.userThread n th
          (x.2.aboveFloor x.1 p = true → ends x.2 St.invalidField) ∧
          (x.2.aboveFloor x.1 p = false →
            let ev := x.2.fld (Reg.HDS_THR_STATE th) 25 16
            let y := x.2.setFld (Reg.HDS_THR_STATE th) 4 0 p
            let moved : State :=
              if x.2.thrState th = 1 then
                let r := FMap.setD y.ready (x.2.thrPrio th) ((FMap.getD y.ready (x.2.thrPrio th)).erase th)
                { y with ready := FMap.setD r p (FMap.getD r p ++ [th]) }
              else if x.2.thrState th = 3 then
                { y with waiters := FMap.setD y.waiters ev (insertWaiter y.waiterBefore th ((FMap.getD y.waiters ev).erase th)) }
              else y
            ends (match (List.range 16).find? (fun c => moved.runsThread th c) with
              | some c => moved.setFld (Reg.HDS_CORE_STATUS c) 4 0 p
              | none => { moved with prioSet := moved.prioSet.erase th ++ [th] }) St.ok))) ∧
      (op = 8 → (u.thrState th ≠ 4 → ends u St.invalidField) ∧ (u.thrState th = 4 → ends (u.makeReady th) St.ok))))) ∧
  (∀ (s : State) (n t prio : Nat), s.spawned n t prio =
    (((((s.dropPrio t).setFld (Reg.HDS_THR_STATE t) 4 0 prio).setThr t 1 0).makeReady t).setFld (Reg.HDS_SLOT_CMD n) 25 16 t).slotEnd n St.ok) ∧
  (∀ (s : State) (e : Nat), e < 1024 →
    (s.spineOn = false ∨ s.eventSourced e = false → exec (.hardwareEvent e) s = .next (s.seal s)) ∧
    (s.eventSourced e = false ↔ 64 ≤ e ∧ e < 128 ∧ s.role ≠ some false) ∧
    (s.spineOn = true → s.eventSourced e = true →
      let ends (u : State) := exec (.hardwareEvent e) s = .next (s.seal (u.peerStopped e))
      (∀ t rest, FMap.getD s.waiters e = t :: rest →
        ends (State.makeReady { s with waiters := FMap.setD s.waiters e rest, waitOrder := s.waitOrder.erase t } t)) ∧
      (FMap.getD s.waiters e = [] → s.fld (Reg.HDS_EVT e) 15 0 ≠ 0xFFFF →
        ends (s.setFld (Reg.HDS_EVT e) 15 0 (s.fld (Reg.HDS_EVT e) 15 0 + 1))) ∧
      (FMap.getD s.waiters e = [] → s.fld (Reg.HDS_EVT e) 15 0 = 0xFFFF → ends (s.setFld Reg.HDS_STATUS 31 31 1)))) ∧
  (∀ (s : State) (n t : Nat) (img : List Byte), FMap.getD s.headSlots n = some (t, St.ok, img) → imageCheck img = St.ok →
    let u : State := { s with headSlots := FMap.setD s.headSlots n none }
    let w := u.setFld (Reg.HDS_THR_STATE t) 4 0 (u.startPrio t img)
    let x : State := { w with placements := w.placements + 1, prioSet := w.prioSet.erase t }
    s.loadThread n t =
      (some true, ((x.setCore (128 + n) (x.coreOfImage img (x.core (128 + n)))).setThr t 2 0).setCoreStatus n 1 t)) ∧
  (∀ (s : State) (n : Nat), n < 16 →
    let on := s.bit Reg.HDS_CTL 0 = true ∧ s.domState 3 = 0
    (¬ on ∨ s.idleCore ≠ some n → exec (.threadPlace n) s = .next (s.seal s)) ∧
    (on → s.idleCore = some n → s.headReady = none → exec (.threadPlace n) s = .next (s.seal s)) ∧
    (∀ p t, on → s.idleCore = some n → s.headReady = some (p, t) →
      let r := (s.dropHead p).loadThread n t
      (r.1 = some true → exec (.threadPlace n) s = .next (s.seal r.2)) ∧
      (r.1 = some false → exec (.threadPlace n) s = .next (s.seal (r.2.takeThread n 1023))) ∧
      (r.1 = none → exec (.threadPlace n) s = .next (s.seal { r.2 with ready := s.ready }))) ∧
    (s.givesWay ≠ some n → exec (.preempt n) s = .next (s.seal s)) ∧
    (s.givesWay = some n →
      (FMap.getD s.slotWaits n = none → exec (.preempt n) s = .next (s.seal (s.preempt n))) ∧
      (FMap.getD s.slotWaits n ≠ none →
        ((s.slotFence n).givesWay = some n → exec (.preempt n) s = .next (s.seal ((s.slotFence n).preempt n))) ∧
        ((s.slotFence n).givesWay ≠ some n → exec (.preempt n) s = .next (s.seal (s.slotFence n)))))) ∧
  (∀ (s : State) (n : Nat),
    (s.givesWay = some n ↔ ∃ p t, s.headReady = some (p, t) ∧ s.domState 3 = 0 ∧ s.idleCore = none ∧ s.victimCore p = some n) ∧
    (let old := s.coreThread n
     let img := imageOf (s.core (128 + n)) (s.thrPrio old)
     let u := (s.leaveCore n).setThr old 1 0
     let w : State := { u with ready := FMap.setD u.ready (u.thrPrio old) (old :: FMap.getD u.ready (u.thrPrio old)) }
     ∀ p q, w.headReady = some (p, q) → q ≠ old → w.domState 3 = 0 → w.bit Reg.HDS_CTL 0 = false ∨ w.idleCore = some n →
      let r := (w.dropHead p).loadThread n q
      (r.1 = some true → s.preempt n = r.2.putImage n old img) ∧
      (r.1 = some false → s.preempt n = (r.2.putImage n old img).takeThread n 1024) ∧
      (r.1 = none → s.preempt n = State.putImage { r.2 with ready := w.ready } n old img))) ∧
  (∀ (s t : State) (m n : Nat), m < 4096 → n < 16 → s.Reaches m (Reg.HDS_CORE_CTL n) t →
    (t.coreState n ≠ 2 → exec (.coreRestart m n) s = .next (s.seal (t.refuse m (Reg.HDS_CORE_CTL n) St.invalidField).acked)) ∧
    (t.coreState n = 2 →
      let w := ((t.slotDrop n).dropReads (Mid.headstock n)).wr (Reg.HDS_CORE_STATUS n) 0
      exec (.coreRestart m n) s = .next (s.seal (w.writeNow (Mid.headstock n) (w.imageAt (t.coreThread n))
        (imageOf (t.core (128 + n)) (t.thrPrio (t.coreThread n)))).2.acked)))

/-- The memory controllers (R321 to R330). Where the spec leaves a point open, the model's
choice: log entries 14, 24, 25, 60, 61. -/
def Obligations.ControllersReadWriteFreezeAndSwitch : Prop :=
  (∀ (s : State) (n m dpa kind : Nat),
    let a := s.storage dpa
    let read := s.mcRead n m dpa kind
    (s.mcState n = 1 → read.1 = MemAnswer.stop St.channelFrozen) ∧
    (s.mcState n ≠ 1 → s.poisoned a = true → read = (⟨St.ok, s.bytes a 64, true⟩, s)) ∧
    (s.mcState n ≠ 1 → s.poisoned a = false →
      (s.cells a = .clean → read = (⟨St.ok, s.bytes a 64, false⟩, s)) ∧
      (s.cells a = .corrected →
        read = (⟨St.ok, s.bytes a 64, false⟩, (s.count (Reg.MC_CE_COUNT n) 31 0 1).mcReport n m dpa St.ok 0)) ∧
      (s.cells a = .transient →
        let w := ((s.setCells a .clean).count (Reg.MC_TRANSIENT_COUNT n) 31 0 1).raise (Reg.MC_INT_STATUS n) 0
        read = (⟨St.ok, w.bytes a 64, false⟩, w.mcReport n m dpa St.ok 1)) ∧
      (s.cells a = .uncorrectable → read = (⟨St.ok, s.bytes a 64, true⟩, s.freezeController n m dpa kind))) ∧
    (∀ data bad, data.length = 64 → s.mcState n ≠ 1 →
      s.mcWrite n m dpa 0 data bad = (St.ok, ((s.putBytes a data).setPoison a bad).setCells a .clean))) ∧
  (∀ (s : State) (m dpa : Nat) (found : Ecc) (data : List Byte), m < 4096 → dpa < 0x3000000000 → data ≠ [] →
    s.domainGate (.hbm dpa) m dpa = none →
    let base := dpa - dpa % 64
    let rd := exec (.hbmRead m dpa found) s
    let wr := exec (.hbmWrite m dpa data found) s
    let rq (w : Bool) : Request :=
      if w then ⟨m, dpa, data.length, .write, data, false⟩ else ⟨m, base, 64, .read, [], false⟩
    let c (w : Bool) := s.controller (rq w).dpa
    let waits (w : Bool) : State := State.mcAnswer
      { s with mcWaiting := s.mcWaiting ++ [⟨c w, s.hbmClass m, s.time.toNat, rq w, found⟩] } (MemAnswer.stop St.held)
    (s.hbmLimit < base + 64 → rd = .next (s.seal ((s.unmapped m base).mcAnswer (MemAnswer.stop St.accessDenied)))) ∧
    (s.hbmLimit < dpa + data.length → wr = .next (s.seal ((s.unmapped m dpa).mcAnswer (MemAnswer.stop St.accessDenied)))) ∧
    (base + 64 ≤ s.hbmLimit →
      (s.switching (c false / 16) = true → rd = .next (s.seal (waits false))) ∧
      (s.switching (c false / 16) = false → s.moving base = false → s.primaryWindow base = none →
        let u := s.setCells (s.storage base) found
        rd = .next (s.seal ((u.mcRead (u.controller base) m base 0).2.mcAnswer (u.mcRead (u.controller base) m base 0).1)))) ∧
    (dpa + data.length ≤ s.hbmLimit →
      (s.switching (c true / 16) = true → wr = .next (s.seal (waits true))) ∧
      (s.switching (c true / 16) = false → wr = .next (s.seal (s.mcServe (rq true) found))))) ∧
  (∀ (s : State) (mc : Nat), mc < 64 →
    exec (.requestAgePromote mc) s = .next (s.seal { s with mcWaiting := s.mcWaiting.map (fun w =>
      if w.mc = mc ∧ w.since + 2000 ≤ s.time.toNat then { w with cls := 0 } else w) })) ∧
  (∀ (s : State) (k : Nat) (t : BitVec 8), k < 4 →
    (s.domState (13 + k) ≠ 0 → exec (.stackTempRead k t) s = .next (s.seal s)) ∧
    (s.domState (13 + k) = 0 → exec (.stackTempRead k t) s = .next (s.seal ((rangeFrom (16 * k) 16).foldl (fun u n =>
      let u := u.setFld (Reg.MC_TEMP n) 7 0 t.toNat
      if 85 < t.toNat then u.setFld (Reg.MC_STATUS n) 8 8 1 else if t.toNat ≤ 80 then u.setFld (Reg.MC_STATUS n) 8 8 0 else u) s)))) ∧
  (∀ (s t : State) (m k : Nat), m < 4096 → k < 4 → s.Reaches m (Reg.MC_STACK_CTL (16 * k)) t →
    let off := Reg.MC_STACK_CTL (16 * k)
    let refused (st : Nat) := exec (.stackSwitch m k) s = .next (s.seal (t.refuse m off st).acked)
    (t.bit off 30 = true → refused St.accessDenied) ∧
    (t.bit off 30 = false → (∃ n ∈ rangeFrom (16 * k) 16, t.shadowOk n = false) → refused St.invalidField) ∧
    (t.bit off 30 = false → (∀ n ∈ rangeFrom (16 * k) 16, t.shadowOk n = true) →
      let u := t.setFld off 30 30 1
      exec (.stackSwitch m k) s = .next (s.seal (State.acked
        (if u.bit Reg.GLB_HBM_RETIRE_CMD 30 then { u with switchWaits := setBits u.switchWaits k k 1 } else u))))) ∧
  (∀ (s : State) (k : Nat), k < 4 →
    (s.switching k = false → exec (.stackSwitchDone k) s = .next (s.seal s)) ∧
    (s.switching k = true →
      let u := (rangeFrom (16 * k) 16).foldl (fun u n => u.setFld (Reg.MC_STATUS n) 7 7 (1 - u.fld (Reg.MC_STATUS n) 7 7)) s
      let v := u.setFld (Reg.MC_STACK_CTL (16 * k)) 30 30 0
      let w := v.serveWaits k v.mcWaiting.length
      exec (.stackSwitchDone k) s = .next (s.seal
        (if w.retireWaits && w.fld Reg.GLB_HBM_RETIRE_CMD 21 20 = k then w.retireBegin else w)))) ∧
  (∀ (s t : State) (m n : Nat) (v : Word), m < 4096 → n < 64 → s.Reaches m (Reg.MC_CTL n) t →
    (t.mcState n = 2 ∨ v.toNat.testBit 0 = false → exec (.mcThaw m n v) s = .next (s.seal t.acked)) ∧
    (t.mcState n ≠ 1 → t.mcState n ≠ 2 → v.toNat.testBit 0 = true →
      exec (.mcThaw m n v) s = .next (s.seal (t.refuse m (Reg.MC_CTL n) St.invalidField).acked)) ∧
    (t.mcState n = 1 → v.toNat.testBit 0 = true →
      let a := t.storage (t.rd64 (Reg.MC_CAP_DPA_LO n))
      exec (.mcThaw m n v) s = .next (s.seal
        ((if v.toNat.testBit 1 then (t.setPoison a true).setCells a .clean else t).setFld (Reg.MC_STATUS n) 31 30 0).acked)))

/-- Repair, retirement, mirrors and scrub (R331 to R338). Where the spec leaves a point open, the model's
choice: log entries 7, 24, 61, 64, 65, 66, 100. -/
def Obligations.RepairRetirementMirrorsAndScrub : Prop :=
  (∀ (s t : State) (m n : Nat) (v : Word), m < 4096 → n < 64 → s.Reaches m (Reg.MC_PPR n) t →
    let done (u : State) := exec (.ppr m n v) s = .next (s.seal u.acked)
    (t.mcState n = 2 → done t) ∧
    (t.mcState n ≠ 2 → v.toNat.testBit 31 = false → done (if t.bit (Reg.MC_PPR_STATUS n) 31 = true
      then t.refuse m (Reg.MC_PPR n) St.accessDenied else t.plainWrite m (Reg.MC_PPR n) v)) ∧
    (v.toNat.testBit 31 = true → t.mcState n = 0 ∨ t.mcState n = 3 ∨ (t.mcState n = 1 ∧ t.bit (Reg.MC_PPR_STATUS n) 31 = true) →
      done ((t.setFld (Reg.MC_PPR_STATUS n) 1 0 3).refuse m (Reg.MC_PPR n) St.accessDenied)) ∧
    (v.toNat.testBit 31 = true → t.mcState n = 1 → t.bit (Reg.MC_PPR_STATUS n) 31 = false →
      done ((t.plainWrite m (Reg.MC_PPR n) v).setFld (Reg.MC_PPR_STATUS n) 31 31 1))) ∧
  (∀ (s : State) (n : Nat) (r : BitVec 2), n < 64 →
    (s.bit (Reg.MC_PPR_STATUS n) 31 = false ∨ r = 3 → exec (.pprDone n r) s = .next (s.seal s)) ∧
    (s.bit (Reg.MC_PPR_STATUS n) 31 = true → r ≠ 3 →
      let u := (s.setFld (Reg.MC_PPR_STATUS n) 31 31 0).setFld (Reg.MC_PPR_STATUS n) 1 0 r.toNat
      exec (.pprDone n r) s = .next (s.seal (if r = 0 then (u.pprRow n).foldl (fun u b => u.loseBurst b) u else u)))) ∧
  (∀ (s t : State) (m : Nat) (v : Word), m < 4096 → s.Reaches m Reg.GLB_HBM_RETIRE_CMD t →
    let off := Reg.GLB_HBM_RETIRE_CMD
    let done (u : State) := exec (.channelRetire m v) s = .next (s.seal u.acked)
    let u := t.plainWrite m off v
    let c := u.fld off 21 16
    let illegal := u.retired c = true ∨ 8 ≤ u.retiredCount 0 64 ∨ u.reachesAbove (u.hbmLimit - 3 * 2 ^ 29) = true
    (t.bit off 30 = true → done (t.refuse m off St.accessDenied)) ∧
    (v.toNat.testBit 31 = false → t.bit off 30 = false → done u) ∧
    (v.toNat.testBit 31 = true → t.bit off 30 = false →
      (illegal → done (u.setFld off 15 0 St.invalidField)) ∧
      (¬ illegal →
        let w := (u.recordRetired (u.plate.record.retired.filter (· ≠ c) ++ [c])).setFld off 30 30 1
        (w.switching (c / 16) = true → done { w with retireWaits := true }) ∧
        (w.switching (c / 16) = false → done (State.setFld { w with retireWaits := false } (Reg.MC_STATUS (w.fld off 21 16)) 31 30 2))))) ∧
  (∀ s : State,
    (s.bit Reg.GLB_HBM_RETIRE_CMD 30 = false ∨ s.retireWaits = true → exec .channelRetireDone s = .next (s.seal s)) ∧
    (s.bit Reg.GLB_HBM_RETIRE_CMD 30 = true → s.retireWaits = false →
      let c := s.fld Reg.GLB_HBM_RETIRE_CMD 21 16
      let limit := s.hbmLimit - 3 * 2 ^ 29
      let a := ((State.setFld { s with switchWaits := 0 } (Reg.MC_STATUS c) 31 30 2).wr64 Reg.GLB_HBM_RETIRED_LO
        (setBits ((State.setFld { s with switchWaits := 0 } (Reg.MC_STATUS c) 31 30 2).rd64 Reg.GLB_HBM_RETIRED_LO) c c 1)).setFld
        Reg.GLB_HBM_LIMIT 7 0 (limit / 2 ^ 29)
      ∃ b : State, b.poisonFrom = min a.poisonFrom (limit / 64) ∧ b.regs = a.regs ∧ b.mem = a.mem ∧
        exec .channelRetireDone s = .next (s.seal
          ((((b.setFld Reg.GLB_HBM_RETIRE_CMD 15 0 St.ok).setFld Reg.GLB_HBM_RETIRE_CMD 30 30 0).report
            ⟨St.channelRetired, Tgt.channel c, 4, Mid.none, 0, 0xFFFF, 0⟩).showLimit)))) ∧
  (∀ (s t : State) (m n : Nat) (v : Word), m < 4096 → n < 8 → s.Reaches m (Reg.GLB_MIR_CFG n) t →
    let off := Reg.GLB_MIR_CFG n
    let done (u : State) := exec (.mirrorEnable m n v) s = .next (s.seal u.acked)
    (t.bringUpAdmits m = false → done (t.refuse m off St.accessDenied)) ∧
    (t.bringUpAdmits m = true → v.toNat.testBit 31 = true → t.mirrorOk n v = false →
      done ((t.setFld off 31 31 0).refuse m off St.invalidField)) ∧
    (t.bringUpAdmits m = true → v.toNat.testBit 31 = false ∨ t.mirrorOk n v = true → done (t.plainWrite m off v))) ∧
  (∀ (s t : State) (m n : Nat), m < 4096 → n < 8 → s.Reaches m (Reg.GLB_MIR_CTL n) t →
    (t.bit (Reg.GLB_MIR_CTL n) 30 = true →
      exec (.mirrorSync m n) s = .next (s.seal (t.refuse m (Reg.GLB_MIR_CTL n) St.accessDenied).acked)) ∧
    (t.bit (Reg.GLB_MIR_CTL n) 30 = false →
      exec (.mirrorSync m n) s = .next (s.seal (t.setFld (Reg.GLB_MIR_CTL n) 30 30 1).acked))) ∧
  (∀ (s : State) (n : Nat), n < 8 →
    (s.bit (Reg.GLB_MIR_CTL n) 30 = false → exec (.mirrorSyncDone n) s = .next (s.seal s)) ∧
    (s.bit (Reg.GLB_MIR_CTL n) 30 = true →
      let mask := s.rd64 (Reg.GLB_MIR_DEG_LO n)
      let cfg := (s.rd (Reg.GLB_MIR_CFG n)).toNat
      let granules := if mask = 0 ∨ cfg.testBit 31 = false then 0 else 2 ^ 22 * bits cfg 23 16
      let u := (List.range granules).foldl (fun u i => u.syncPair n mask (2 ^ 30 * bits cfg 7 0 + 256 * i)) s
      let left := (List.range 64).foldl (fun k c => if mask.testBit c && u.mcState c = 1 then setBits k c c 1 else k) 0
      exec (.mirrorSyncDone n) s = .next (s.seal (((u.wr64 (Reg.GLB_MIR_DEG_LO n) left).setFld (Reg.GLB_MIR_CTL n) 0 0
        (if left = 0 then 0 else 1)).setFld (Reg.GLB_MIR_CTL n) 30 30 0)))) ∧
  (∀ (s : State) (n : Nat) (found : Ecc), n < 64 →
    (s.domState (13 + n / 16) ≠ 0 ∨ s.mcState n ≠ 0 ∨ s.switching (n / 16) = true →
      exec (.patrolScrubStep n found) s = .next (s.seal s)) ∧
    (s.domState (13 + n / 16) = 0 → s.mcState n = 0 → s.switching (n / 16) = false →
      let pos := s.fld (Reg.MC_SCRUB_POS n) 22 0
      let dpa := Config.scrubGranule n pos - Config.scrubGranule n pos % 256
      let u := (List.range 4).foldl (fun u i => u.scrubBurst n (dpa + 64 * i)) (s.setCells (s.storage dpa) found)
      exec (.patrolScrubStep n found) s = .next (s.seal
        (if pos + 1 < 6291456 then u.setFld (Reg.MC_SCRUB_POS n) 22 0 (pos + 1)
         else (u.setFld (Reg.MC_SCRUB_POS n) 22 0 0).countWrap (Reg.MC_SCRUB_PASSES n)))))

/-- The caches (R341 to R352). Where the spec leaves a point open, the model's
choice: log entries 22, 23, 67, 105. -/
def Obligations.CachesServeInvalidateEnableAndRange : Prop :=
  (∀ (s : State) (m ln o k : Nat) (data : List Byte) (p stream : Bool),
    let i := homeSlice (128 * ln)
    let set := cacheSet (128 * ln)
    let touched (u : State) (w : Nat) := u.setSlice i ((u.slice i).touch 16 set w)
    (∀ w l, (s.slice i).find 16 set ln = some w → (s.slice i).at 16 set w = some l →
      let u := s.countWrap (Reg.SCS_HITS i)
      s.lineRead m ln o k stream = (lineAnswer l o k, touched u w) ∧
      s.lineWrite m ln o data p stream =
        (St.ok, u.setSlice i (((u.slice i).put 16 set w (some (l.merge o data p))).touch 16 set w))) ∧
    ((s.slice i).find 16 set ln = none →
      let u := s.countWrap (Reg.SCS_MISSES i)
      (∀ l, u.inWriteBack i ln = some l → s.lineRead m ln o k stream = (lineAnswer l o k, u)) ∧
      (∀ st l v, u.inWriteBack i ln = none → u.fetchLine m ln = (st, l, v) →
        (st ≠ St.ok → s.lineRead m ln o k stream = (MemAnswer.stop st, v)) ∧
        (st = St.ok → s.lineRead m ln o k stream =
          (lineAnswer l o k, if stream then v else (v.allocate m l).prefetch m ln))))) ∧
  (∀ (s : State) (r : Request) (err : CacheErr), r.ok = true →
    let answer (u : State) := exec (.cacheRequest r err) s = .next (s.seal ((u.request memoryBus r false).2.mcAnswer (u.request memoryBus r false).1))
    ((∀ dpa, s.region r.dpa r.len ≠ .hbm dpa) → exec (.cacheRequest r err) s = .next (s.seal s)) ∧
    (∀ dpa, s.region r.dpa r.len = .hbm dpa →
      let i := homeSlice dpa
      let set := cacheSet dpa
      let serves := s.verdict 0 r.master r.dpa r.len ((Region.hbm dpa).rights r) = St.ok ∧ s.sliceServes i = true ∧
        s.wayHolds (.hbm dpa) r.master r.len = false
      (err = .none ∨ ¬serves → answer s) ∧
      (serves → ∀ w y l, (s.slice i).find 16 set (lineNo dpa) = some y → (s.slice i).at 16 set y = some l →
        (err = .single w → answer (s.count (Reg.SCS_CE_COUNT i) 31 0 1)) ∧
        (err = .double w → answer ((s.putLine i (set * 16 + y) (some { l with
          poison := if w < 8 then [true, l.poison.getD 1 false] else [l.poison.getD 0 false, true] })).count (Reg.SCS_UE_COUNT i) 31 0 1))) ∧
      (serves → ∀ way, way < 16 → err = .tag way →
        answer (((s.flushSlice r.master i (some (set * 16 + way))).setFld (Reg.SCS_STATUS i) 1 1 1).report
          ⟨St.poisonedData, Tgt.cache, 4, r.master, dpa, 0xFFFF, 16 * set + way⟩)))) ∧
  (∀ (s t : State) (m : Nat), m < 4096 → s.Reaches m Reg.SC_CTL t →
    let off := Reg.SC_CTL
    (t.bit off 0 = true ∨ t.bit off 4 = true →
      exec (.scInvalidate m) s = .next (s.seal (t.refuse m off St.accessDenied).acked)) ∧
    (t.bit off 0 = false → t.bit off 4 = false →
      exec (.scInvalidate m) s = .next (s.seal (State.acked { t with slices := [], writeBacks := [], scInv := true })) ∧
      exec (.scDisable m) s = .next (s.seal t.acked)) ∧
    (t.bit off 0 = true → exec (.scEnable m) s = .next (s.seal t.acked)) ∧
    (t.bit off 0 = false → t.bit off 3 = true → exec (.scEnable m) s = .next (s.seal (t.setFld off 0 0 1).acked)) ∧
    (t.bit off 0 = false → t.bit off 3 = false → exec (.scEnable m) s = .next (s.seal (t.refuse m off St.invalidField).acked)) ∧
    (t.bit off 0 = true → t.bit off 4 = true → exec (.scDisable m) s = .next (s.seal t.acked)) ∧
    (t.bit off 0 = true → t.bit off 4 = false →
      exec (.scDisable m) s = .next (s.seal
        ((List.range 64).foldl (fun u i => u.flushSlice m i none) (t.setFld off 4 4 1)).acked))) ∧
  (∀ s : State,
    exec .scInvalidateDone s = .next (s.seal (if s.scInv then State.setFld { s with scInv := false } Reg.SC_CTL 3 3 1 else s)) ∧
    exec .scDisableDone s = .next (s.seal
      (if s.bit Reg.SC_CTL 4 then (s.setFld Reg.SC_CTL 4 4 0).setFld Reg.SC_CTL 0 0 0 else s)) ∧
    exec .scRangeDone s = .next (s.seal
      (if s.bit Reg.SC_RANGE_CMD 30 then (s.setFld Reg.SC_RANGE_CMD 30 30 0).setFld Reg.SC_RANGE_CMD 15 0 St.ok else s))) ∧
  (∀ (s t : State) (m op : Nat) (c : Instr), m < 4096 → s.Reaches m Reg.SC_RANGE_CMD t →
    (op, c) ∈ [(1, Instr.scRangeInvalidate m), (2, .scRangeClean m), (3, .scRangeCleanInvalidate m), (4, .scRangeLockFill m)] →
    let off := Reg.SC_RANGE_CMD
    let base := t.rd64 Reg.SC_RANGE_BASE_LO
    let len := t.rd64 Reg.SC_RANGE_LEN_LO
    let bad := len = 0 ∨ base % 128 ≠ 0 ∨ len % 128 ≠ 0 ∨ t.hbmLimit < base + len
    let u := t.plainWrite m off (rangeWord op)
    (t.bit off 30 = true → exec c s = .next (s.seal (t.refuse m off St.accessDenied).acked)) ∧
    (t.bit off 30 = false → bad → exec c s = .next (s.seal (u.setFld off 15 0 St.invalidField).acked)) ∧
    (t.bit off 30 = false → ¬bad →
      let v := (List.range 64).foldl (fun x i => x.drainAll m i) (u.setFld off 30 30 1)
      exec c s = .next (s.seal (State.acked
        (if op = 4 then (rangeFrom (base / 128) (len / 128)).foldl (fun x ln => x.lockFill m ln) v
        else (List.range 64).foldl (fun x i =>
          ((x.sliceLines i).filter (fun e => base ≤ 128 * e.2.tag && 128 * e.2.tag < base + len)).foldl
            (fun x e => x.rangeLine m op i e.1 e.2) x) v))))) ∧
  (∀ (s : State) (m i key : Nat) (l : Line),
    let out (u : State) := if u.wayLocked (key % 16) then u.count Reg.SC_LOCK_INVAL_COUNT 31 0 1 else u
    s.rangeLine m 1 i key l = out (s.putLine i key none) ∧
    (l.dirty = true →
      s.rangeLine m 2 i key l = (s.writeLine m l.tag l).putLine i key (some { l with dirty := false }) ∧
      s.rangeLine m 3 i key l = out ((s.writeLine m l.tag l).putLine i key none)) ∧
    (l.dirty = false → s.rangeLine m 3 i key l = out (s.putLine i key none))) ∧
  (∀ (s t : State) (m tile n : Nat), m < 4096 → tile < 128 → s.localTile tile = some n → s.Reaches m (Reg.TIL_L1_CTL n) t →
    let off := Reg.TIL_L1_CTL n
    (t.halted n = false → exec (.l1Invalidate m tile) s = .next (s.seal (t.refuse m off St.accessDenied).acked)) ∧
    (t.halted n = true → exec (.l1Invalidate m tile) s = .next (s.seal (State.acked
      (State.setCore { t with l1Inv := setBits t.l1Inv n n 1 } n { t.core n with l1d := Cache.empty, l1i := Cache.empty })))) ∧
    (t.bit off 0 = true → exec (.l1Enable m tile) s = .next (s.seal t.acked)) ∧
    (t.bit off 0 = false → t.bit off 3 = true → exec (.l1Enable m tile) s = .next (s.seal (t.setFld off 0 0 1).acked)) ∧
    (t.bit off 0 = false → t.bit off 3 = false → exec (.l1Enable m tile) s = .next (s.seal (t.refuse m off St.invalidField).acked))) ∧
  (∀ (s : State) (tile n : Nat), tile < 128 → s.localTile tile = some n →
    exec (.l1InvalidateDone tile) s = .next (s.seal
      (if s.l1Inv.testBit n then State.setFld { s with l1Inv := setBits s.l1Inv n n 0 } (Reg.TIL_L1_CTL n) 3 3 1 else s)))

/-- The mesh (R355 to R364): ports 0 to 3 are N, E, S and W. Where the spec leaves a point open, the model's
choice: log entries 10, 68. -/
def Obligations.MeshCountsRetransmissionsMarksLinksAndFreezes : Prop :=
  (∀ (s : State) (r p : Nat) (control : Bool), r < 64 → p < 4 → s.domState 1 = 0 →
    let hi := if control then 31 else 15
    let counted := s.setFld (Reg.MSH_RETX r p) hi (hi - 15) (min (s.fld (Reg.MSH_RETX r p) hi (hi - 15) + 1) 65535)
    let key := linkKey r p
    let recent := (FMap.getD s.meshRetx key).filter (fun t => s.time.toNat < t + 1000000) ++ [s.time.toNat]
    let u : State := { counted with meshRetx := FMap.setD s.meshRetx key recent }
    let faulty := 17 ≤ recent.length ∧ s.bit (Reg.MSH_LINK r) p = false
    (faulty → exec (.flitRetransmit r p control) s = .next (s.seal ((u.markLink r p 0 0).linkReport r p))) ∧
    (¬faulty → exec (.flitRetransmit r p control) s = .next (s.seal u))) ∧
  (∀ (s : State) (r p lo int : Nat),
    let mark (u : State) (r p : Nat) := (u.setFld (Reg.MSH_LINK r) (lo + p) (lo + p) 1).raise (Reg.MSH_INT_STATUS r) int
    (∀ q o, linkEnd r p = some (q, o) → s.markLink r p lo int = mark (mark s r p) q o) ∧
    (linkEnd r p = none → s.markLink r p lo int = mark s r p)) ∧
  (∀ r q p o : Nat, r < 64 → p < 4 → linkEnd r p = some (q, o) → q < 64 ∧ o < 4 ∧ linkEnd q o = some (r, p) ∧ linkKey q o = linkKey r p ∧
    q = (if p = 0 then r - 8 else if p = 1 then r + 1 else if p = 2 then r + 8 else r - 1)) ∧
  (∀ (s : State) (r p : Nat), r < 64 → p < 4 → s.domState 1 = 0 →
    (s.bit (Reg.MSH_LINK r) (4 + p) = true → exec (.linkDead r p) s = .next (s.seal s)) ∧
    (s.bit (Reg.MSH_LINK r) (4 + p) = false → exec (.linkDead r p) s = .next (s.seal ((s.markLink r p 4 1).linkReport r p))) ∧
    (linkEnd r p = none → exec (.deadLinkAcknowledge r p) s = .next (s.seal (s.setFld (Reg.MSH_LINK r) (4 + p) (4 + p) 0))) ∧
    (∀ q o, linkEnd r p = some (q, o) → exec (.deadLinkAcknowledge r p) s = .next (s.seal
      ((s.setFld (Reg.MSH_LINK r) (4 + p) (4 + p) 0).setFld (Reg.MSH_LINK q) (4 + o) (4 + o) 0)))) ∧
  (∀ (s : State) (r p : Nat) (control : Bool), r < 64 → p < 4 → s.domState 1 ≠ 0 →
    exec (.flitRetransmit r p control) s = .next (s.seal s) ∧ exec (.linkDead r p) s = .next (s.seal s) ∧
      exec (.deadLinkAcknowledge r p) s = .next (s.seal s)) ∧
  (∀ (s t : State) (m r : Nat), m < 4096 → r < 64 → s.Reaches m (Reg.MSH_CTL r) t →
    let on := t.plainWrite m (Reg.MSH_CTL r) 1
    (t.bit (Reg.MSH_STATUS r) 0 = false → exec (.routerFreeze m r) s = .next (s.seal (State.acked
      (State.setFld { on with meshFroze := FMap.setD t.meshFroze r t.time.toNat } (Reg.MSH_STATUS r) 0 0 1)))) ∧
    (t.bit (Reg.MSH_STATUS r) 0 = true → exec (.routerFreeze m r) s = .next (s.seal on.acked)) ∧
    exec (.routerUnfreeze m r) s = .next (s.seal ((t.plainWrite m (Reg.MSH_CTL r) 0).setFld (Reg.MSH_STATUS r) 0 0 0).acked)) ∧
  (∀ (s : State) (r : Nat), r < 64 →
    (s.bit (Reg.MSH_STATUS r) 0 = false → exec (.routerFreezeExpire r) s = .next (s.seal s)) ∧
    (s.bit (Reg.MSH_STATUS r) 0 = true → exec (.routerFreezeExpire r) s = .next (s.seal
      (((s.atTime (FMap.getD s.meshFroze r + 2000)).setFld (Reg.MSH_STATUS r) 0 0 0).setFld (Reg.MSH_STATUS r) 1 1 1)))) ∧
  (∀ (s t : State) (m r d : Nat) (v : Word), m < 4096 → r < 64 → d < 64 → s.Reaches m (Reg.MSH_ROUTE r d) t →
    let off := Reg.MSH_ROUTE r d
    let mode := bits v.toNat 15 14
    let refused (st : Nat) := exec (.routeWrite m r d v) s = .next (s.seal (t.refuse m off st).acked)
    (t.bit (Reg.MSH_STATUS r) 0 = false → refused St.accessDenied) ∧
    (t.bit (Reg.MSH_STATUS r) 0 = true →
      (mode = 3 → refused St.invalidField) ∧
      (mode = 1 ∨ mode = 2 → t.revision < 0x21 → refused St.invalidField) ∧
      (mode = 0 ∨ (mode ≠ 3 ∧ 0x21 ≤ t.revision) →
        exec (.routeWrite m r d v) s = .next (s.seal (t.plainWrite m off v).acked))))

/-- The Hatch link layer (R367 to R372). Where the spec leaves a point open, the model's
choice: log entries 69, 129. -/
def Obligations.PortsAcknowledgeReplayTrainAndRetire : Prop :=
  (∀ (s : State) (p a : Nat) (c : Codeword), p < 8 → c.ok = true → s.portState p ≠ 2 → s.portState p ≠ 5 →
    exec (.linkFlitReceive p c) s = .next (s.seal s) ∧ exec (.nak p (BitVec.ofNat 12 a)) s = .next (s.seal s) ∧
      exec (.replayTimeout p) s = .next (s.seal s) ∧ exec (.portRetrain p) s = .next (s.seal s)) ∧
  (∀ (s : State) (p : Nat) (c : Codeword), p < 8 → c.ok = true → s.portState p = 2 ∨ s.portState p = 5 →
    let w := match c.fec with
      | .clean => s
      | .corrected => s.count (Reg.HAT_PORT_FEC_CORR p) 31 0 1
      | .uncorrectable => s.count (Reg.HAT_PORT_FEC_UNCORR p) 31 0 1
    let lanes := w.activeLanes p
    let mine := cwLane c = c.lane ∧ lanes[cwNumber c % lanes.length]? = some c.lane
    (¬mine → exec (.linkFlitReceive p c) s = .next (s.seal w)) ∧
    (mine → exec (.linkFlitReceive p c) s = .next (s.seal
      (((w.hatPort p).gather c).2.foldl (fun u f => u.flitReceive p f) (w.setHatPort p ((w.hatPort p).gather c).1))))) ∧
  (∀ (h : HatPort) (c : Codeword), h.rxHeld = [] →
    let bytes := h.rxBytes ++ c.piece
    let n := bytes.length / 144
    (cwNumber c = h.rxNext → h.gather c =
      ({ h with rxNext := (h.rxNext + 1) % 65536, rxBytes := bytes.drop (144 * n) },
        (List.range n).map (fun i => (bytes.drop (144 * i)).take 144))) ∧
    (0 < (cwNumber c + 65536 - h.rxNext) % 65536 → (cwNumber c + 65536 - h.rxNext) % 65536 < 32768 → h.rxBytes.length < 144 →
      h.gather c = ({ h with rxHeld := [(cwNumber c, c.piece)] }, []))) ∧
  (∀ (s : State) (p : Nat) (f : List Byte), p < 8 → s.portState p = 2 ∨ s.portState p = 5 →
    (flitIntact f = false →
      (flitType f ≠ 1 ∨ (s.hatPort p).rxBad = true → s.flitReceive p f = s) ∧
      (flitType f = 1 → (s.hatPort p).rxBad = false → s.flitReceive p f =
        State.setHatPort { s with sent := s.sent ++ [Sent.linkAck p true (s.hatPort p).rxLast 0 0] } p
          { s.hatPort p with rxBad := true })) ∧
    (flitIntact f = true →
      let u : State := { s with hat := { s.hat with
        hingeAt := if 6 ≤ p then FMap.setD s.hat.hingeAt p s.time.toNat else s.hat.hingeAt } }
      let h := (s.hatPort p).take (flitAck f)
      let h := { h with credits := h.credits.set (flitCvc f) (h.credits.getD (flitCvc f) 0 + flitCredits f) }
      let u := u.setHatPort p h
      (flitType f = 0 → s.flitReceive p f = u.flushPort p) ∧
      (flitType f = 1 → flitSeq f = (h.rxLast + 1) % 4096 → s.flitReceive p f =
        (State.setHatPort { u with sent := u.sent ++ [Sent.linkAck p false (flitSeq f) (flitBvc f) 1] } p
          { h with rxLast := flitSeq f, rxBad := false }).flushPort p) ∧
      (flitType f = 1 → flitSeq f ≠ (h.rxLast + 1) % 4096 →
        s.flitReceive p f = (u.dropFlit p).flushPort p) ∧
      (flitType f = 2 → s.flitReceive p f = (u.nak p (flitAck f)).flushPort p))) ∧
  (∀ (h : HatPort) (ack : Nat),
    ((ack + 4096 - h.txAcked) % 4096 ≤ h.unacked → h.take ack = { h with txAcked := ack }) ∧
    (h.unacked < (ack + 4096 - h.txAcked) % 4096 → h.take ack = h)) ∧
  (∀ (s : State) (p : Nat) (ack : BitVec 12), p < 8 → s.portState p = 2 ∨ s.portState p = 5 →
    let h := s.hatPort p
    let recent := h.replays.filter (fun t => s.time.toNat < t + 1000000) ++ [s.time.toNat]
    let u := (s.setHatPort p { h with replays := recent }).count (Reg.HAT_PORT_REPLAYS p) 31 0 1
    let u : State := { u with sent := u.sent ++ [.linkReplay p ((h.txAcked + 1) % 4096)] }
    (h.unacked = 0 → exec (.replayTimeout p) s = .next (s.seal s)) ∧
    (h.unacked ≠ 0 → recent.length < 65 → exec (.replayTimeout p) s = .next (s.seal u)) ∧
    (h.unacked ≠ 0 → 65 ≤ recent.length → exec (.replayTimeout p) s = .next (s.seal (u.retrain p))) ∧
    exec (.nak p ack) s = .next (s.seal (((s.setHatPort p (h.take ack.toNat)).replay p).flushPort p)) ∧
    exec (.portRetrain p) s = .next (s.seal (s.trainPort p (s.fld (Reg.HAT_PORT_STATE p) 5 4) h.lanes))) ∧
  (∀ (s : State) (p width lanes : Nat),
    let b := if s.portState p = 0 ∨ s.portState p = 4 then
      { HatPort.new with nbr := (s.hatPort p).nbr, eventDue := (s.hatPort p).eventDue } else s.hatPort p
    let u := s.setHatPort p { b with width := width, lanes := lanes, fails := 0, replays := [], rxNext := 0, rxHeld := [], rxBytes := [] }
    let v := ((u.setFld (Reg.HAT_PORT_STATE p) 2 0 (if s.steady.cables.testBit p && s.steady.href then 1 else 0)).setFld
      (Reg.HAT_PORT_STATE p) 5 4 0)
    let v := if 6 ≤ p then v.setFld Reg.GLB_PAIR_STATUS (20 + p) (20 + p) 0 else v
    s.trainPort p width lanes = (v.setHatPort p { v.hatPort p with eventDue := true }).raise Reg.HAT_INT_STATUS 0) ∧
  (∀ (s : State) (p : Nat) (lanes : BitVec 4), p < 8 →
    let h := s.hatPort p
    let usable := lanes.toNat &&& h.lanes
    let u := (s.count (Reg.HAT_PORT_RETRAINS p) 31 0 1).setFld (Reg.HAT_PORT_STATE p) 11 8 lanes.toNat
    (s.portState p ≠ 1 → exec (.trainingAttemptEnd p lanes) s = .next (s.seal s)) ∧
    (s.portState p = 1 →
      (∀ l, lanesFor h.width usable = some l →
        exec (.trainingAttemptEnd p lanes) s = .next (s.seal ((u.portUp p h.width).helloSend p))) ∧
      (lanesFor h.width usable = none →
        let dead := exec (.trainingAttemptEnd p lanes) s = .next (s.seal (((u.retirePort p).raise Reg.HAT_INT_STATUS 1).report
          ⟨St.fabricPortRetired, Tgt.hatch, 4, 0x200, 0, 0xFFFF, p⟩))
        (usable = 0 → dead) ∧
        (usable ≠ 0 → h.fails < 2 → widthNeeds h.width ≤ laneCount usable →
          exec (.trainingAttemptEnd p lanes) s = .next (s.seal (u.setHatPort p { h with fails := h.fails + 1 }))) ∧
        (usable ≠ 0 → 2 ≤ h.fails ∨ laneCount usable < widthNeeds h.width →
          (h.width ≤ 1 → dead) ∧
          (1 < h.width → exec (.trainingAttemptEnd p lanes) s = .next (s.seal
            (u.setHatPort p { h with width := h.width - 1, lanes := usable, fails := 0 }))))))) ∧
  (∀ (s t : State) (m p : Nat), m < 4096 → p < 8 → s.Reaches m (Reg.HAT_PORT_CTL p) t →
    let off := Reg.HAT_PORT_CTL p
    let u (w : Word) := t.plainWrite m off w
    let restore := t.cmdWord off 1 2 2 1
    let retire := t.cmdWord off 1 1 1 1
    (t.bit off 0 = true ∨ t.bit Reg.HAT_CTL 0 = false → exec (.portRestore m p) s = .next (s.seal (u restore).acked)) ∧
    (t.bit off 0 = false → t.bit Reg.HAT_CTL 0 = true →
      exec (.portRestore m p) s = .next (s.seal ((u restore).trainPort p 3 15).acked)) ∧
    exec (.portRetire m p) s = .next (s.seal ((u retire).retirePort p).acked)) ∧
  (∀ (s : State) (p : Nat),
    s.retirePort p = (FMap.getD s.portQueue p).foldl (fun u k =>
      match u.ownTx k with
      | some x => u.endTx memoryBus x St.fabricPortRetired [] false
      | none => u) (State.setPort { s with portQueue := FMap.setD s.portQueue p [] } p 4 0))

/-- Discovery, wardens and management packets (R374 to R380). Where the spec leaves a point open, the model's
choice: log entries 71, 130. -/
def Obligations.NeighboursWardensAndManagementPackets : Prop :=
  (∀ (s : State) (p : Nat), p < 8 →
    (s.portState p = 2 → exec (.helloSend p) s = .next (s.seal (s.putPacket p (s.helloPacket p)))) ∧
    (s.portState p ≠ 2 → exec (.helloSend p) s = .next (s.seal s))) ∧
  (∀ (s : State) (p : Nat) (k : Packet), p < 8 → k.ok = true → s.Receives p 0x20 k →
    (packetBad k = true → exec (.hello p k) s = .next (s.seal (s.count Reg.HAT_RX_DISCARDS 31 0 1))) ∧
    (packetBad k = false →
      let n : Neighbour := ⟨fieldLE k.payload 0 8, fieldLE k.payload 8 4, fieldLE k.payload 0xC 4, fieldLE k.payload 0x10 4,
        fieldLE k.payload 0x14 2 % 8, s.time.toNat⟩
      let u := s.setHatPort p { s.hatPort p with nbr := some n }
      let seen := BitVec.ofNat 32 (2 ^ 31 + 2 ^ 18 * (n.port % 8) + n.fid % 2 ^ 18)
      let v := if s.rd (Reg.HAT_PORT_NBR p) = seen then u else (u.wr (Reg.HAT_PORT_NBR p) seen).portChange p
      let learns := bits n.group 25 16 = v.fld Reg.HAT_GROUP_CFG 25 16 ∧ n.warden.testBit 31 = true ∧ v.bit Reg.HAT_WARDEN 31 = false
      (learns → exec (.hello p k) s = .next (s.seal (v.wr Reg.HAT_WARDEN (BitVec.ofNat 32 (2 ^ 31 + n.warden % 2 ^ 18))).helloAll)) ∧
      (¬learns → exec (.hello p k) s = .next (s.seal v)))) ∧
  (∀ (s : State) (p : Nat), p < 8 →
    ((s.hatPort p).nbr = none → exec (.neighbourTimeout p) s = .next (s.seal s)) ∧
    (∀ n, (s.hatPort p).nbr = some n →
      let u := s.atTime (n.heard + 35000000)
      exec (.neighbourTimeout p) s = .next (s.seal
        (((u.setHatPort p { s.hatPort p with nbr := none }).wr (Reg.HAT_PORT_NBR p) 0).portChange p)))) ∧
  (∀ (s : State) (w : Nat), w < 262144 →
    let group := s.fld Reg.HAT_GROUP_CFG 25 16
    let prio := s.fld Reg.HAT_GROUP_CFG 7 0
    let mine (n : Neighbour) := (∃ p < 8, (s.hatPort p).nbr = some n ∧ (s.inPair = true → p < 6)) ∧ bits n.group 25 16 = group
    let leads := prio ≠ 0 ∧ ∀ n, mine n →
      bits n.group 7 0 < prio ∨ (bits n.group 7 0 = prio ∧ s.nodeSerial ≤ n.serial)
    (bits w 17 8 = group → exec (.wardenElect (some w) false) s = .next (s.seal
      (s.wr Reg.HAT_WARDEN (BitVec.ofNat 32 (2 ^ 31 + w % 2 ^ 18))).helloAll)) ∧
    (bits w 17 8 ≠ group → exec (.wardenElect (some w) false) s = .next (s.seal s)) ∧
    (prio = 0 → (∀ n, mine n → bits n.group 7 0 = 0) → exec (.wardenElect none false) s = .next (s.seal
      (s.wr Reg.HAT_WARDEN 0).helloAll)) ∧
    (prio ≠ 0 ∨ (∃ n, mine n ∧ bits n.group 7 0 ≠ 0) → exec (.wardenElect none false) s = .next (s.seal s)) ∧
    (¬leads → exec (.wardenElect (some w) true) s = .next (s.seal s)) ∧
    (leads →
      let n := s.memberFor group Config.serial.toNat
      let numbers (u : State) : State :=
        (List.range 8).foldl (fun x p => x.assignNeighbour group p)
          (u.wr Reg.HAT_WARDEN (BitVec.ofNat 32 (2 ^ 31 + 2 ^ 30 + u.srcFid % 2 ^ 18))).helloAll
      (s.role = some true → exec (.wardenElect (some w) true) s = .next (s.seal
        (s.wr Reg.HAT_WARDEN (BitVec.ofNat 32 (2 ^ 31 + 2 ^ 30 + s.srcFid % 2 ^ 18))).helloAll)) ∧
      (s.role ≠ some true → (∀ f, s.ownFid = some f → bits f 17 8 ≠ group) → exec (.wardenElect (some w) true) s = .next (s.seal
        (numbers ((s.giveMember Config.serial.toNat n).fidWrite 0x140 (BitVec.ofNat 32 (2 ^ 31 + 256 * group + n)))))) ∧
      (s.role ≠ some true → ∀ f, s.ownFid = some f → bits f 17 8 = group →
        exec (.wardenElect (some w) true) s = .next (s.seal (numbers (s.giveMember Config.serial.toNat (f % 256))))))) ∧
  (∀ (s : State) (group p : Nat) (n : Neighbour), (s.hatPort p).nbr = some n → bits n.group 25 16 = group →
    let keeps := n.fid.testBit 31 = true ∧ bits n.fid 17 8 = group ∧ s.fidTwin p n = false
    let dst := if n.fid.testBit 31 then n.fid % 2 ^ 18 else 0x3FFFF
    (keeps → s.assignNeighbour group p = s.giveMember n.serial (n.fid % 256)) ∧
    (¬keeps →
      let num := s.memberFor group n.serial
      s.assignNeighbour group p = (s.giveMember n.serial num).putPacket p { Packet.plain 0x22 2 s.srcFid dst (s.freeTag.getD 0) 4 with
        hops := 1, addr := 4, payload := natLE 4 (2 ^ 31 + 256 * group + num) })) ∧
  (∀ (s : State) (p : Nat) (k : Packet) (c : Instr), p < 8 → k.ok = true →
    (c = .mgmtRead p k ∧ s.Receives p 0x21 k) ∨ (c = .mgmtWrite p k ∧ s.Receives p 0x22 k) →
    (packetBad k = true → exec c s = .next (s.seal s.rxDiscard)) ∧
    (packetBad k = false → k.dst ≠ 0x3FFFF → s.ownFid ≠ some k.dst → exec c s = .next (s.seal (s.forward k))) ∧
    (packetBad k = false → k.dst ≠ 0x3FFFF → s.ownFid = some k.dst → s.role = some true → exec c s = .next (s.seal (s.crossHinge k))) ∧
    (packetBad k = false → k.dst ≠ 0x3FFFF → s.ownFid = some k.dst → s.role ≠ some true → k.aux.testBit 3 = true →
      exec c s = .next (s.seal (State.putPacket { s with hat := { s.hat with
        proxies := s.hat.proxies ++ [⟨k.aux % 8, k.tag, k.src⟩] } } (k.aux % 8) { k with hops := 1, dst := 0x3FFFF })))) ∧
  (∀ (s : State) (p : Nat) (k : Packet), p < 8 → k.ok = true → packetBad k = false →
    k.dst = 0x3FFFF ∨ (s.ownFid = some k.dst ∧ s.role ≠ some true ∧ k.aux.testBit 3 = false) →
    let known := s.fromWarden p k = true ∨ s.fromManager k = true
    let denied (c : Instr) := exec c s = .next (s.seal ((s.report ⟨St.accessDenied, Tgt.hatch, 2, 0x200,
      regDpa (0x700000 + k.addr % 0x80000), k.tag, k.src⟩).mgmtAnswer p k St.accessDenied []))
    let ws := (List.range (k.len / 4)).map (fun i => (k.addr + 4 * i, writeWord k.payload (4 * i)))
    (s.Receives p 0x21 k →
      (¬known → denied (.mgmtRead p k)) ∧
      (known → mgmtOk k = false → exec (.mgmtRead p k) s = .next (s.seal (s.mgmtAnswer p k St.invalidField []))) ∧
      (known → mgmtOk k = true →
        let r := (List.range (k.len / 4)).foldl (fun (a : List Byte × State) i =>
          let w := a.2.regReadBytes 0x200 (0x700000 + k.addr + 4 * i) 4
          (a.1 ++ w.1, w.2)) ([], s)
        exec (.mgmtRead p k) s = .next (s.seal (r.2.mgmtAnswer p k St.ok r.1)))) ∧
    (s.Receives p 0x22 k →
      (mgmtOk k = false → known → exec (.mgmtWrite p k) s = .next (s.seal (s.mgmtAnswer p k St.invalidField []))) ∧
      (mgmtOk k = true → (∃ w ∈ ws, s.mgmtMay p k w.1 w.2 = false) → denied (.mgmtWrite p k)) ∧
      (mgmtOk k = true → (∀ w ∈ ws, s.mgmtMay p k w.1 w.2 = true) → exec (.mgmtWrite p k) s = .next (s.seal
        ((ws.foldl (fun u w => bus.reg u 0x200 (0x700000 + w.1) w.2) s).mgmtAnswer p k St.ok []))))) ∧
  (∀ (s : State) (p : Nat) (k : Packet) (o : Nat) (v : Word), mgmtOk k = true →
    let shadow := 0x10000 + 0x8000 * (1 - s.activeBank)
    (s.mgmtMay p k o v = true ↔
      (s.fromWarden p k = true ∧ (o = 4 ∨ (shadow + 0x2000 ≤ o ∧ o < shadow + 0x2800) ∨ (o = 0x10 ∧ v = 0x80000000))) ∨
      (s.fromManager k = true ∧ (o = 8 ∨ (0x40 ≤ o ∧ o < 0x50) ∨ (shadow ≤ o ∧ o < shadow + 0x2000) ∨ (o = 0x10 ∧ v = 0x80000000))))) ∧
  (∀ (s : State) (p : Nat) (k : Packet), p < 8 → k.ok = true → s.Receives p 0x23 k → packetBad k = false →
    let hit := s.hat.proxies.find? (fun x => x.port = p && x.tag = k.tag)
    (∀ x, hit = some x → exec (.mgmtRsp p k) s = .next (s.seal
      (State.sendPacket { s with hat := { s.hat with proxies := s.hat.proxies.erase x } } { k with hops := 32, dst := x.src }).2)) ∧
    (hit = none → k.dst ≠ 0x3FFFF → s.ownFid ≠ some k.dst → exec (.mgmtRsp p k) s = .next (s.seal (s.forward k))) ∧
    (hit = none → k.dst ≠ 0x3FFFF → s.ownFid = some k.dst → s.role = some true →
      exec (.mgmtRsp p k) s = .next (s.seal (s.crossHinge k))) ∧
    (hit = none → k.dst = 0x3FFFF ∨ (s.ownFid = some k.dst ∧ s.role ≠ some true) → exec (.mgmtRsp p k) s = .next (s.seal
      (if 6 ≤ p ∧ s.hat.freeze.isSome then { s with hat := { s.hat with freeze := none } } else s)))) ∧
  (∀ (s : State) (p : Nat), p < 8 →
    ((s.hatPort p).eventDue = false → exec (.linkEvent p) s = .next (s.seal s)) ∧
    ((s.hatPort p).eventDue = true →
      let u := s.setHatPort p { s.hatPort p with eventDue := false }
      let body := natLE 4 p ++ natLE 4 (u.rd (Reg.HAT_PORT_STATE p)).toNat ++ natLE 4 (u.rd (Reg.HAT_PORT_NBR p)).toNat
      let dests := ((([Reg.HAT_WARDEN, Reg.HAT_FM 0, Reg.HAT_FM 1, Reg.HAT_FM 2, Reg.HAT_FM 3].filter (fun r => u.bit r 31)).map
        (fun r => u.fld r 17 0)).eraseDups.filter (fun d => u.ownFid ≠ some d))
      exec (.linkEvent p) s = .next (s.seal
        (dests.foldl (fun x d => (x.sendPacket { Packet.plain 0x24 2 x.srcFid d 0 12 with payload := body }).2) u)))) ∧
  (∀ (s t : State) (m : Nat), m < 4096 → s.Reaches m Reg.HAT_ROUTE_CTL t →
    (t.bit Reg.HAT_ROUTE_CTL 30 = true → exec (.routeSwap m) s = .next (s.seal t.acked)) ∧
    (t.bit Reg.HAT_ROUTE_CTL 30 = false →
      let u := (t.setFld Reg.HAT_ROUTE_CTL 0 0 (1 - t.activeBank)).raise Reg.HAT_INT_STATUS 5
      (u.role ≠ some false → exec (.routeSwap m) s = .next (s.seal u.acked)) ∧
      (u.role = some false → exec (.routeSwap m) s = .next (s.seal (State.acked { u with sent := u.sent ++ [.hinge 0
        { master := 0x200, dpa := regDpa Reg.HAT_ROUTE_CTL, len := 4, kind := .write, data := natLE 4 (2 ^ 31), stream := false } false] })))))

/-- Packets (R379 to R390). Where the spec leaves a point open, the model's
choice: log entry 70. -/
def Obligations.PacketsAreForwardedServedAndAnswered : Prop :=
  (∀ (s : State) (p : Nat) (k : Packet), p < 8 → k.ok = true → s.Receives p k.op k →
    let runs (u : State) := exec (.hatchPacketForward p k) s = .next (s.seal u)
    let mine := s.ownFid = some k.dst
    let ours := 6 ≤ p ∧ s.pairRole ≠ 0 ∧ packetBad k = false ∧ (k.op = 0x27 → k.aux % 256 = 1 ∨ k.aux % 256 = 2)
    (k.op = 0x20 → packetBad k = false → runs s) ∧
    (k.op ∈ [0x25, 0x26, 0x27] → (ours → runs s) ∧ (¬ours → runs (s.count Reg.HAT_RX_DISCARDS 31 0 1))) ∧
    (k.op ∉ [0x20, 0x25, 0x26, 0x27] →
    (packetBad k = true ∨ (k.hops = 0 ∧ ¬mine) → runs (s.count Reg.HAT_RX_DISCARDS 31 0 1)) ∧
    (packetBad k = false → mine → runs s) ∧
    (packetBad k = false → k.hops ≠ 0 → ¬mine →
      let u := (s.route k.dst).2
      (∀ q, (s.route k.dst).1 = .port q ∨ (s.route k.dst).1 = .hold q → runs (u.putPacket q { k with hops := k.hops - 1 })) ∧
      ((s.route k.dst).1 = .unreachable →
        (k.vc = 0 ∨ k.vc = 3 → runs (u.replyTo k (if k.op = 1 then 0x10 else 0x11) 1 St.fabricUnreachable 0 [] false)) ∧
        (k.vc ≠ 0 → k.vc ≠ 3 → runs u))))) ∧
  (∀ (s : State) (d : Nat), s.ownFid ≠ some d →
    let e := s.rd64 (s.routeAt (s.fld Reg.HAT_ROUTE_CTL 0 0) d)
    let p := bits e 3 0
    let a := bits e 7 4
    let alt := e.testBit 30 = true
    let r := (s.route d).1
    (cp32Ok e = false → s.route d = (.unreachable, (s.raise Reg.HAT_INT_STATUS 2).report
      ⟨St.complementMismatch, Tgt.hatch, 2, 0x200, regDpa (s.routeAt (s.fld Reg.HAT_ROUTE_CTL 0 0) d), 0xFFFF, d⟩)) ∧
    (cp32Ok e = true → (s.route d).2 = s ∧
      (e.testBit 31 = false → r = .unreachable) ∧
      (e.testBit 31 = true →
        (s.portTakes p = true → r = .port p) ∧
        (s.portTakes p = false → alt → s.portTakes a = true → r = .port a) ∧
        (s.portTakes p = false → ¬(alt ∧ s.portTakes a = true) →
          (s.portTrains p = true → r = .hold p) ∧
          (s.portTrains p = false → alt → s.portTrains a = true → r = .hold a) ∧
          (s.portTrains p = false → ¬(alt ∧ s.portTrains a = true) → r = .unreachable))))) ∧
  (∀ (s : State) (p : Nat) (k : Packet), p < 8 → k.ok = true →
    let q := FMap.getD s.portQueue p
    (s.portState p = 3 ∨ k ∉ q → exec (.packetPortTimeout p k) s = .next (s.seal s)) ∧
    (s.portState p ≠ 3 → k ∈ q → exec (.packetPortTimeout p k) s = .next (s.seal
      (State.count { s with portQueue := FMap.setD s.portQueue p (q.erase k) } (Reg.HAT_PORT_DROPS p) 31 0 1)))) ∧
  (∀ (s : State) (p op : Nat) (k : Packet) (c : Instr), p < 8 → k.ok = true → s.Receives p op k →
    (op, c) ∈ [(1, Instr.hatchRead p k), (2, .hatchWrite p k), (3, .hatchSubmit p k), (4, .hatchNotify p k), (5, .hatchStream p k),
      (6, .hatchStreamEnd p k), (0x10, .readData p k), (0x11, .hatchAck p k), (0x12, .streamCredit p k)] →
    (packetBad k = true → exec c s = .next (s.seal s.rxDiscard)) ∧
    (packetBad k = false → s.ownFid ≠ some k.dst → exec c s = .next (s.seal (s.forward k))) ∧
    (packetBad k = false → s.ownFid = some k.dst →
      (s.role = some true → op ≤ 4 → exec c s = .next (s.seal { s with sent := s.sent ++ [.packet 16 k] })) ∧
      (s.role ≠ some true → op = 1 ∨ op = 2 →
        let n := if op = 1 then Rights.read else Rights.write
        let answer := if op = 1 then 0x10 else 0x11
        (∀ st u, s.ingress k n = (.error st, u) → exec c s = .next (s.seal (u.replyTo k answer 1 st 0 [] false))) ∧
        (∀ dpa m u, s.ingress k n = (.ok (dpa, m), u) →
          let r : Request := if op = 1 then ⟨m, dpa, k.len, .read, [], false⟩ else ⟨m, dpa, k.len, .write, k.payload, false⟩
          ∀ a v, u.request memoryBus r (op = 2 && k.poison) = (a, v) →
            let w : State := { v with far := v.far.filter (fun f => f.done.isNone || f.req ≠ r) }
            (a.status = St.held → exec c s = .next (s.seal v)) ∧
            (a.status ≠ St.held →
              (op = 1 →
                let st := if a.status ≠ St.ok then a.status else if a.poison then St.poisonedData else St.ok
                exec c s = .next (s.seal (w.replyTo k 0x10 1 st 0 (if st = St.ok then a.data else []) false))) ∧
              (op = 2 → exec c s = .next (s.seal (w.replyTo k 0x11 1 a.status 0 [] false)))))) ∧
      (s.role ≠ some true → op = 3 ∨ op = 4 →
        let q := k.aux % 64
        let at' := 0x800000000000 + 65536 * q
        (∀ u, s.sourceClass k = (none, u) → exec c s = .next (s.seal ((u.report
          ⟨St.accessDenied, Tgt.hatch, 2, 0x200, at', k.tag, k.src⟩).replyTo k 0x11 1 St.accessDenied 0 [] false))) ∧
        (∀ cl u v w, s.sourceClass k = (some cl, u) → u.judge 0x09 (0x200 + cl) at' 128 Rights.write = (v, w) →
          (v ≠ St.ok → exec c s = .next (s.seal (w.replyTo k 0x11 1 v 0 [] false))) ∧
          (v = St.ok → ∀ st x, w.landing k q = (st, x) → st ≠ St.held →
            exec c s = .next (s.seal (x.replyTo k 0x11 1 st 0 [] false))))) ∧
      (op = 5 ∨ op = 6 → ∀ n, s.localTile (bits k.aux 15 9) = some n →
        let ch := bits k.aux 8 4
        let mine := s.ichValid n ch = true ∧ s.bit (Reg.TIL_ICH_CFG n ch) 24 = true ∧ s.fld (Reg.TIL_ICH_SRC n ch) 29 12 = k.src
        let body : NocBody := if op = 5 then .elems (elemsOf (s.ichEb n ch) k.payload) true k.poison else .endMark
        (mine → exec c s = .next (s.seal ((s.streamArrive n ch (k.aux % 16) body).replyTo k 0x11 1 St.ok 0 [] false))) ∧
        (¬mine → exec c s = .next (s.seal (s.replyTo k 0x11 1 St.ok 0 [] false)))) ∧
      (op = 0x12 → ∀ n, s.localTile (bits k.aux 15 9) = some n →
        exec c s = .next (s.seal (s.creditArrive n (bits k.aux 8 4) (k.aux % 16) k.aux2))) ∧
      (op = 0x10 ∨ op = 0x11 →
        (s.txOf k.tag = none → exec c s = .next (s.seal s)) ∧
        (∀ x, s.txOf k.tag = some x → exec c s = .next (s.seal (s.endTx bus x k.status k.payload k.poison)))))) ∧
  (∀ (s u : State) (k : Packet) (n : Rights) (cl : Nat), s.sourceClass k = (some cl, u) →
    let w := bits k.addr 46 40
    let o := bits k.addr 39 0
    let denied := s.ingress k n = (.error St.accessDenied,
      u.report ⟨St.accessDenied, Tgt.hatch, 2, 0x200 + cl, k.addr % 2 ^ 48, k.tag, w⟩)
    (k.len = 0 ∨ 4096 < k.len → s.ingress k n = (.error St.invalidField, u)) ∧
    (0 < k.len → k.len ≤ 4096 →
      (u.bit (Reg.HAT_EXP_SIZE w) 31 = false → denied) ∧
      (65536 * u.fld (Reg.HAT_EXP_SIZE w) 23 0 < o + k.len → denied) ∧
      (u.bit (Reg.HAT_EXP_SIZE w) 31 = true → o + k.len ≤ 65536 * u.fld (Reg.HAT_EXP_SIZE w) 23 0 →
        ∀ v x, u.judge 0x09 (0x200 + cl) (k.addr % 2 ^ 47) k.len n = (v, x) →
          (v ≠ St.ok → s.ingress k n = (.error v, x)) ∧
          (v = St.ok → s.ingress k n = (.ok (x.rd64 (Reg.HAT_EXP_BASE_LO w) + o, 0x200 + cl), x))))) ∧
  (∀ (s : State) (k : Packet) (q : Nat),
    (s.bit (Reg.HAT_LQ_CTL q) 0 = false ∨ s.bit (Reg.HAT_LQ_STATUS q) 31 = true → s.landing k q = (St.invalidField, s)) ∧
    (s.bit (Reg.HAT_LQ_CTL q) 0 = true → s.bit (Reg.HAT_LQ_STATUS q) 31 = false →
      ∀ a u, s.readMem 0x200 (s.rd64 (Reg.HAT_LQ_CTX_LO q)) 64 = (a, u) → a.status = St.ok → a.poison = false →
        let c := a.data
        let good := (pair64At c 0 && pair64At c 0x10 && pair32At c 0x20 && pair32At c 0x28) = true
        let d := ctxDepth c
        let tail := u.fld (Reg.HAT_LQ_STATUS q) 15 0
        let u' : State := { u with hat := { u.hat with lqDepth := FMap.setD u.hat.lqDepth q d } }
        (¬good → s.landing k q = (St.complementMismatch, u.lqMismatch k q)) ∧
        (good → u.lqCtxOk c = false → s.landing k q = (St.invalidField, u.lqFail q)) ∧
        (good → u.lqCtxOk c = true → (tail + 1) % d = u'.fld (Reg.HAT_LQ_HEAD q) 15 0 → s.landing k q = (St.tableFull, u')) ∧
        (good → u.lqCtxOk c = true → (tail + 1) % d ≠ u'.fld (Reg.HAT_LQ_HEAD q) 15 0 → tail + 1 ≠ d → (ctxAttr c).testBit 31 = false →
          let e := lqEntry k
          ∀ v w, u'.writeMem 0x200 (ctxSub c + 128 * tail + 4) (e.drop 4) = (St.ok, v) →
            v.writeMem 0x200 (ctxSub c + 128 * tail) (natLE 4 (fieldLE e 0 4 + 2 ^ 31 * bit01 (v.lqPhase q))) = (St.ok, w) →
            s.landing k q = (St.ok, w.setFld (Reg.HAT_LQ_STATUS q) 15 0 (tail + 1)))))

/-- Remote operations of this node (R384 to R388, R394). Where the spec leaves a point open, the model's
choice: log entries 10, 14, 70. -/
def Obligations.ApertureRequestsJobsTimeoutsAndLandingQueues : Prop :=
  (∀ (s : State) (r : Request), r.ok = true →
    ((∀ n o, s.region r.dpa r.len ≠ .remote n o) → exec (.remoteApertureRequest r) s = .next (s.seal s)) ∧
    (∀ n o, s.region r.dpa r.len = .remote n o → (r.kind = .read ∨ r.kind = .write) →
      s.wayHolds (.remote n o) r.master r.len = false → s.domainGate (.remote n o) r.master r.dpa = none →
      let ends (a : MemAnswer) (u : State) := exec (.remoteApertureRequest r) s = .next (s.seal (u.mcAnswer a))
      let come := (s.far.find? (fun f => f.req = r && f.done.isSome)).bind (·.done)
      let check := s.apertureCheck n r.master (r.kind ≠ .write) (r.kind = .write)
      (∀ st d p, come = some (st, d, p) → ends ⟨st, d, p⟩ s) ∧
      (come = none → s.farBusy r = true → ends (MemAnswer.stop St.held) s) ∧
      (come = none → s.farBusy r = false →
        (check.1 ≠ St.ok → ends (MemAnswer.stop check.1) (s.report ⟨check.1, Tgt.hatch, 2, r.master, r.dpa, 0xFFFF, n⟩)) ∧
        (check.1 = St.ok →
          (s.freeTag = none → ends (MemAnswer.stop St.held) s) ∧
          (∀ tag e u, s.freeTag = some tag → s.sendPacket (aperturePacket s.srcFid check.2.1 check.2.2 o tag r false) = (e, u) →
            (∀ st, e = .error st → ends (MemAnswer.stop st) u) ∧
            (∀ port, e = .ok port → ends (MemAnswer.stop (if r.kind = .write ∧ 0x100 ≤ r.master ∧ r.master < 0x150 then St.ok else St.held))
              (State.openTx { u with far := u.far ++ [⟨r, BitVec.ofNat 64 r.dpa, tag, none⟩] } tag port .access))))))) ∧
  (∀ (s : State) (n m : Nat) (wr : Bool),
    let tgt := s.rd64 (Reg.HAT_RAP_TGT_LO n)
    let acl := s.rd64 (Reg.HAT_RAP_ACL_LO n)
    let admitted := tgt.testBit 31 = true ∧ bits acl 11 0 ≤ m ∧ m ≤ bits acl 23 12 ∧ acl.testBit (if wr then 25 else 24) = true
    (cp32Ok tgt = false ∨ cp32Ok acl = false → s.apertureCheck n m (!wr) wr = (St.complementMismatch, 0, 0)) ∧
    (cp32Ok tgt = true → cp32Ok acl = true →
      (admitted → s.apertureCheck n m (!wr) wr = (St.ok, bits tgt 17 0, bits tgt 24 18)) ∧
      (¬admitted → s.apertureCheck n m (!wr) wr = (St.accessDenied, 0, 0)))) ∧
  (∀ (s : State) (n op : Nat) (tag : BitVec 16) (c : Instr), n < 32 →
    (op, c) ∈ [(1, Instr.hatchJobRead n tag), (2, .hatchJobWrite n tag), (3, .hatchJobSubmit n tag), (4, .hatchJobNotify n tag)] →
    let ring := ringKey ⟨.hat, n⟩
    let mine := s.hat.late.filter (fun d => d.ring = ring && d.tag = tag.toNat)
    let w := s.jobAgain memoryBus ring tag.toNat
    (mine = [] → w = s) ∧
    (∀ d j, mine = [d] → s.hatJobOf ring tag.toNat = some j →
      w = State.jobLand { s with hat := { s.hat with late := s.hat.late.erase d } } memoryBus j d) ∧
    ((∀ j, w.hatJobOf ring tag.toNat = some j → hatOp j.entry ≠ op) → exec c s = .next (s.seal w)) ∧
    (∀ j, w.hatJobOf ring tag.toNat = some j → hatOp j.entry = op →
      let earlier := ∃ k ∈ w.jobs.takeWhile (fun k => k ≠ j), k.ring = ring ∧ k.done = none
      (hatOrder j.entry = true → earlier → exec c s = .next (s.seal w)) ∧
      (¬(hatOrder j.entry = true ∧ earlier) →
        (hatFieldsOk j.entry = false → exec c s = .next (s.seal (w.endJob j St.invalidField 0))) ∧
        (hatFieldsOk j.entry = true → exec c s = .next (s.seal (w.hatSend ring tag.toNat 4097)))))) ∧
  (∀ (s : State) (ring tag fuel : Nat) (j : Job), s.hatJobOf ring tag = some j →
    let e := j.entry
    let left := hatLen e - j.prog.off
    let done := (hatOp e ≠ 4 ∧ left = 0) ∨ (hatOp e = 4 ∧ j.prog.desc ≠ 0)
    (done → s.hatSend ring tag (fuel + 1) = s) ∧
    (¬done → s.freeTag = none → s.hatSend ring tag (fuel + 1) = s) ∧
    (¬done → ∀ tx, s.freeTag = some tx →
      let n := if hatOp e = 3 then 64 else if hatOp e = 4 then 0 else min left (4096 - (hatRemote e + j.prog.off) % 4096)
      let rd := if hatOp e = 2 ∨ hatOp e = 3 then s.readMem 0x200 (hatLocal e + j.prog.off) n else (⟨St.ok, [], false⟩, s)
      (rd.1.status = St.held → s.hatSend ring tag (fuel + 1) = rd.2) ∧
      (rd.1.status ≠ St.held → rd.1.status ≠ St.ok → s.hatSend ring tag (fuel + 1) = rd.2.hatFail j rd.1.status) ∧
      (rd.1.status = St.ok → ∀ x u, rd.2.sendPacket (hatPacket rd.2.srcFid tx e j.prog.off n rd.1.data rd.1.poison) = (x, u) →
        (∀ st, x = .error st → s.hatSend ring tag (fuel + 1) = u.hatFail j st) ∧
        (∀ port, x = .ok port → s.hatSend ring tag (fuel + 1) =
          State.hatSend ((u.setProg j { j.prog with off := j.prog.off + n, desc := j.prog.desc + 1 }).openTx tx port
            (.job ring tag (hatLocal e + j.prog.off) n (hatOp e = 1))) ring tag fuel)))) ∧
  (∀ (s : State) (bus : Bus) (ring tag dpa len : Nat) (j : Job), s.hatJobOf ring tag = some j →
    let p := { j.prog with moved := j.prog.moved + len }
    (∀ st, st ≠ St.ok → s.jobAnswer bus ring tag dpa len false st [] false = s.hatFail j st) ∧
    (p.moved = hatLen j.entry →
      s.jobAnswer bus ring tag dpa len false St.ok [] false = s.endJob j St.ok (hatLen j.entry)) ∧
    (∀ data poison, data.length = len →
      let d : LateData := ⟨ring, tag, dpa, data, poison⟩
      let a := s.request bus ⟨0x200, dpa, len, .write, data, false⟩ poison
      s.jobAnswer bus ring tag dpa len true St.ok data poison = s.jobLand bus j d ∧
      (a.1.status = St.held → s.jobLand bus j d = { a.2 with hat := { a.2.hat with late := a.2.hat.late ++ [d] } }) ∧
      (a.1.status ≠ St.held → a.1.status ≠ St.ok → s.jobLand bus j d = a.2.hatFail j a.1.status) ∧
      (a.1.status = St.ok → s.jobLand bus j d = a.2.jobMoved j len)) ∧
    (p.moved ≠ hatLen j.entry → s.jobAnswer bus ring tag dpa len false St.ok [] false =
      { s with jobs := s.jobs.map (fun k => if k = j then { j with prog := p } else k) })) ∧
  (∀ (s : State) (tag : Nat), tag < 65536 →
    (s.txOf tag = none → exec (.transactionTimeout tag) s = .next (s.seal s)) ∧
    (∀ x, s.txOf tag = some x →
      let waking := x.port < 8 ∧ s.portState x.port = 3 ∧ ∃ k ∈ FMap.getD s.portQueue x.port, k.tag = tag ∧ k.src = s.srcFid
      let u := (s.atTime (x.sentAt + 1000000)).count Reg.HAT_TIMEOUTS 31 0 1
      (x.port = 16 ∨ waking → exec (.transactionTimeout tag) s = .next (s.seal s)) ∧
      (x.port ≠ 16 → ¬waking → exec (.transactionTimeout tag) s = .next (s.seal (State.endTx { u with
        txDead := u.txDead.filter (fun d => u.time.toNat < d.2 + 2000000) ++ [(tag, u.time.toNat)] } memoryBus x St.fabricTimeout [] false))))) ∧
  (∀ (s t : State) (m q : Nat), m < 4096 → q < 64 → s.Reaches m (Reg.HAT_LQ_CTL q) t →
    let u := t.plainWrite m (Reg.HAT_LQ_CTL q) (t.cmdWord (Reg.HAT_LQ_CTL q) 1 1 1 1)
    let v : State := { u with hat := { u.hat with
      lqPhase := FMap.set (fun _ => true) u.hat.lqPhase q true, lqDepth := FMap.setD u.hat.lqDepth q 0 } }
    exec (.landingQueueReset m q) s = .next (s.seal ((v.wr (Reg.HAT_LQ_STATUS q) 0).wr (Reg.HAT_LQ_HEAD q) 0).acked)) ∧
  (∀ (s t : State) (m q : Nat) (v : Word), m < 4096 → q < 64 → s.Reaches m (Reg.HAT_LQ_HEAD q) t →
    let d := FMap.getD t.hat.lqDepth q
    let h := v.toNat % 2 ^ 16
    let old := t.fld (Reg.HAT_LQ_HEAD q) 15 0
    let tail := t.fld (Reg.HAT_LQ_STATUS q) 15 0
    let beyond := d ≤ h ∨ (tail + d - old) % d < (h + d - old) % d
    (beyond → exec (.landingQueueHeadWrite m q v) s = .next (s.seal (t.refuse m (Reg.HAT_LQ_HEAD q) St.invalidField).acked)) ∧
    (¬beyond → exec (.landingQueueHeadWrite m q v) s = .next (s.seal (t.setFld (Reg.HAT_LQ_HEAD q) 15 0 h).acked)))

/-- Diptych (R395 to R410). Where the spec leaves a point open, the model's
choice: log entries 72, 73, 107. -/
def Obligations.PairsFormStartAndLoseAHalf : Prop :=
  (∀ (s t : State) (m : Nat), m < 4096 → s.Reaches m Reg.GLB_PAIR_CTL t →
    let off := Reg.GLB_PAIR_CTL
    let commits (u : State) := exec (.pairCommit m) s = .next (s.seal u.acked)
    let unpairs (u : State) := exec (.pairUnpair m) s = .next (s.seal u.acked)
    let u := t.plainWrite m off (t.cmdWord off 2 31 31 1)
    let v := t.plainWrite m off (t.cmdWord off 2 30 30 1)
    (t.bringUpAdmits m = false → commits (t.refuse m off St.accessDenied) ∧ unpairs (t.refuse m off St.accessDenied)) ∧
    (t.bringUpAdmits m = true → t.bit Reg.GLB_PAIR_STATUS 25 = true → commits u ∧ unpairs v) ∧
    (t.mode = .bringUp → t.bit Reg.GLB_PAIR_STATUS 25 = false →
      let begun : State := { u with hat := { u.hat with commitAt := some u.time.toNat, replies := [] } }
      commits ([6, 7].foldl (fun x p => if x.hingeUp p then x.pairAsk p else if x.portState p = 1 then x else x.trainPort p 3 15)
        (begun.setFld Reg.GLB_PAIR_STATUS 25 25 1)) ∧
      (let x := v.setPlate { v.plate with record := { v.plate.record with role := 0, peer := 0 } }
       let y := x.dropImages
       unpairs (((y.setFld Reg.GLB_PAIR_STATUS 31 30 0).setFld Reg.GLB_PAIR_STATUS 15 0 St.ok).showPair)))) ∧
  (∀ (s : State) (p : Nat), p < 8 →
    let wants := 6 ≤ p ∧ (s.hat.commitAt.isSome = true ∨ s.forming = true) ∧ (s.reply 6 = none ∨ s.reply 7 = none)
    (wants → s.hingeUp p = true → exec (.pairQueryRepeat p) s = .next (s.seal (s.pairSend p 0x25 0 0 0 (s.pairRecord p)))) ∧
    (¬wants ∨ s.hingeUp p = false → exec (.pairQueryRepeat p) s = .next (s.seal s))) ∧
  (∀ s : State,
    (s.hat.commitAt = none → exec .pairCommitTimeout s = .next (s.seal s)) ∧
    (∀ t, s.hat.commitAt = some t →
      let st := if s.reply 6 = none ∧ s.reply 7 = none then St.fabricUnreachable else St.invalidField
      let u := s.atTime (t + 1000000000)
      exec .pairCommitTimeout s = .next (s.seal (u.commitEnd st)))) ∧
  (∀ (s : State) (st : Nat), s.commitEnd st =
    (State.setFld { s with hat := { s.hat with commitAt := none } } Reg.GLB_PAIR_STATUS 15 0 st).setFld Reg.GLB_PAIR_STATUS 25 25 0) ∧
  (∀ (s : State) (p : Nat) (k : Packet), p < 8 → k.ok = true →
    let takes := 6 ≤ p ∧ s.pairRole ≠ 0 ∧ packetBad k = false
    (s.Receives p 0x25 k →
      (¬takes → exec (.pairQuery p k) s = .next (s.seal s.rxDiscard)) ∧
      (takes →
        let u := s.pairSend p 0x26 k.tag 0 0 (s.pairRecord p)
        (u.reply p = none → exec (.pairQuery p k) s = .next (s.seal u)) ∧
        (u.reply p ≠ none → exec (.pairQuery p k) s = .next (s.seal (u.setReply p (some (pairRecOf k.payload))).commitCheck)))) ∧
    (s.Receives p 0x26 k →
      (¬takes → exec (.pairReply p k) s = .next (s.seal s.rxDiscard)) ∧
      (takes → k.status ≠ St.ok → exec (.pairReply p k) s = .next (s.seal s)) ∧
      (takes → k.status = St.ok → exec (.pairReply p k) s = .next (s.seal (s.setReply p (some (pairRecOf k.payload))).commitCheck)))) ∧
  (∀ (s : State) (t : Nat) (a b : PairRec), s.hat.commitAt = some t → s.reply 6 = some a → s.reply 7 = some b →
    let good := a.serial = b.serial ∧ a.word % 8 = 6 ∧ b.word % 8 = 7 ∧ s.identOk a = true ∧
      ((s.pairRole = 1 ∧ a.role = 2) ∨ (s.pairRole = 2 ∧ a.role = 1)) ∧ s.mode = .bringUp
    let ready := peerCommits a = true ∨ peerCommits b = true
    (¬good → s.commitCheck = s.commitEnd St.invalidField) ∧
    (good → ¬ready → s.commitCheck = s) ∧
    (good → ready →
      (s.storeFailed = true → s.commitCheck = s.commitEnd St.plateInvalid) ∧
      (s.storeFailed = false →
        let gen := if bits a.word 7 6 = 1 ∧ a.peer = Config.serial.toNat then a.gen else max s.plate.record.pairGen a.gen + 1
        let u := s.setPlate { s.plate with record := { s.plate.record with role := s.pairRole, peer := a.serial, pairGen := gen } }
        let v := u.dropImages
        s.commitCheck = ((v.showPair).setFld Reg.GLB_PAIR_STATUS 31 30 1).commitEnd St.ok))) ∧
  (∀ s : State,
    let fails (u : State) (st : Nat) := ((u.setFld Reg.GLB_PAIR_STATUS 31 30 3).setFld Reg.GLB_PAIR_STATUS 15 0 st).enterService .solo
    (s.forming = false → exec .pairForm s = .next (s.seal s) ∧ exec .pairFormTimeout s = .next (s.seal s)) ∧
    (s.forming = true →
      (s.reply 6 = none ∨ s.reply 7 = none → exec .pairForm s = .next (s.seal s)) ∧
      (∀ a b, s.reply 6 = some a → s.reply 7 = some b →
        (s.formOk a b = true → exec .pairForm s = .next (s.seal s.formDone)) ∧
        (s.formOk a b = false → exec .pairForm s = .next (s.seal (fails s St.invalidField)))) ∧
      exec .pairFormTimeout s = .next (s.seal (fails (s.atTime (s.boot.printedAt + 10000000000))
        (if s.reply 6 = none ∧ s.reply 7 = none then St.fabricUnreachable else St.invalidField))))) ∧
  (∀ (s : State) (a b : PairRec),
    s.formOk a b = true ↔
      (a.serial = b.serial ∧ a.word % 8 = 6 ∧ b.word % 8 = 7) ∧ a.serial = s.plate.record.peer ∧
      ((s.plate.record.role = 1 ∧ a.role = 2) ∨ (s.plate.record.role = 2 ∧ a.role = 1)) ∧ s.identOk a = true ∧
      a.gen = s.plate.record.pairGen ∧ a.published = s.imageP) ∧
  (∀ (s : State) (p : Nat), p < 8 →
    (s.inPair = false → exec .halfLost s = .next (s.seal s)) ∧
    (s.inPair = true → exec .halfLost s = .next (s.seal
      (s.atTime (max (FMap.getD s.hat.hingeAt 6) (FMap.getD s.hat.hingeAt 7) + 10000000)).declareLost)) ∧
    (p < 6 ∨ s.pairRole = 0 → exec (.pairNoticePowerFail p) s = .next (s.seal s.rxDiscard)) ∧
    (6 ≤ p → s.pairRole ≠ 0 → exec (.pairNoticePowerFail p) s = .next (s.seal s.declareLost))) ∧
  (∀ s : State, s.inPair = true →
    let w := s.cutHinge.forgetPeer
    (s.role = some true → w.bit Reg.HAT_FID 31 = false → s.declareLost = w.leavePair .solo) ∧
    (s.role = some true → w.bit Reg.HAT_FID 31 = true →
      s.declareLost = (((w.setFld Reg.HAT_FID 31 31 0).raise Reg.HAT_INT_STATUS 6).helloAll).leavePair .solo) ∧
    (s.role ≠ some true → s.declareLost = w.leavePair (if w.bit Reg.HAT_FID 31 then .fabric else .solo))) ∧
  (∀ s : State,
    let u := ((List.range 64).foldl (fun x n => x.cutChannels n) s).cutRuns
    s.cutHinge = (u.txs.filter (fun x => x.port = 16)).foldl (fun w x => w.endTx memoryBus x St.halfLost [] false) u) ∧
  (∀ s : State,
    let v : State := { s with hat := { s.hat with freeze := none }, peerRetired := 0, peerGens := [] }
    let w := (v.setFld Reg.GLB_PAIR_STATUS 31 30 3).setFld Reg.GLB_PAIR_STATUS 27 26 0
    s.forgetPeer = [6, 7].foldl (fun x p => if x.portState p = 5 then x.setPort p 0 0 else x) w) ∧
  (∀ (s : State) (md : Mode),
    (s.mode = .vigil → s.leavePair md = { s with steady := { s.steady with vigilFrom := md.code } }) ∧
    (s.mode ≠ .vigil → s.pltState = 2 → s.leavePair md = s) ∧
    (s.mode ≠ .vigil → s.pltState ≠ 2 → s.leavePair md = s.setMode md)) ∧
  (∀ (s : State) (p tag : Nat) (f : BitVec 64), p < 8 → tag < 65536 →
    (p < 6 ∨ s.pairRole ≠ 2 → exec (.pairNoticeFreeze p f tag) s = .next (s.seal s.rxDiscard)) ∧
    (6 ≤ p → s.pairRole = 2 → exec (.pairNoticeFreeze p f tag) s = .next (s.seal
      (((s.setPlate { s.plate with freeze := f.toNat }).wr64 Reg.PLT_FREEZE_EPOCH_LO f.toNat).pairSend p 0x23 tag 0 0 [])))) ∧
  (∀ s : State,
    (∀ f, s.hat.freeze = some f → s.role = some false → exec .freezeNoticeRepeat s = .next (s.seal
      ((s.pairSend 6 0x27 0 2 f []).pairSend 7 0x27 0 2 f []))) ∧
    (s.hat.freeze = none ∨ s.role ≠ some false → exec .freezeNoticeRepeat s = .next (s.seal s)) ∧
    (s.inPair = false → s.mode ≠ .dormant → s.functions = 0 → exec .backHostLinkPresent s = .next (s.seal { s with functions := 128 })) ∧
    (s.inPair = true ∨ s.mode = .dormant ∨ s.functions ≠ 0 → exec .backHostLinkPresent s = .next (s.seal s)))

/-- Regions, copies and etches (R412 to R424). Where the spec leaves a point open, the model's
choice: log entries 10, 74, 75, 125. -/
def Obligations.RegionsLoadChunksCopyAndEtchesRun : Prop :=
  (∀ (s t : State) (m : Nat) (v : Word), m < 4096 → s.Reaches m Reg.PLT_REGION_CMD t →
    let runs (u : State) := exec (.regionLoad m v) s = .next (s.seal u.acked)
    let u := t.plainWrite m Reg.PLT_REGION_CMD v
    (v.toNat.testBit 31 = false → runs u) ∧
    (v.toNat.testBit 31 = true →
      (bits v.toNat 24 16 = 0 ∨ 256 < bits v.toNat 24 16 → runs (u.setFld Reg.PLT_REGION_CMD 15 0 St.invalidField)) ∧
      (0 < bits v.toNat 24 16 → bits v.toNat 24 16 ≤ 256 →
        ∀ a w, u.readMem Mid.plate (u.rd64 Reg.PLT_REGION_BASE_LO) (32 * bits v.toNat 24 16) = (a, w) → a.status ≠ St.held →
        let es := (List.range (bits v.toNat 24 16)).map (fun i => subBytes a.data (32 * i) 32)
        let whole := ∀ e ∈ es, (pair64At e 0 && pair32At e 0x10 && pair32At e 0x18) = true
        let fields := es.map (fun e => (fieldLE e 0 8, fieldLE e 0x10 4, fieldLE e 0x18 4))
        let ends (st : Nat) := runs (w.setFld Reg.PLT_REGION_CMD 15 0 st)
        (a.status ≠ St.ok → ends a.status) ∧
        (a.status = St.ok → a.poison = true → ends St.poisonedData) ∧
        (a.status = St.ok → a.poison = false →
          (¬whole → ends St.complementMismatch) ∧
          (whole → w.regionsOk fields = false → ends St.invalidField) ∧
          (whole → w.regionsOk fields = true →
            let rs := (fields.filter (fun e => e.2.2.testBit 31)).map regionMake
            let x := w.setFld Reg.PLT_REGION_CMD 15 0 St.ok
            let x := x.setPlate { x.plate with regions := rs }
            runs ((x.setFld Reg.PLT_RESIDENT 16 0 ((rs.map (·.chunks)).foldl (· + ·) 0)).showLimit)))))) ∧
  (∀ (s : State) (k loc : Nat) (comp : Option (List Byte)), k < 98304 →
    let runs (u : State) := exec (.backgroundCopy k loc comp) s = .next (s.seal u)
    (s.mayCopy k = false ∨ s.plate.locFree loc = false → runs s) ∧
    (s.mayCopy k = true → s.plate.locFree loc = true → ∀ st raw ps u,
      (s.setPlate (s.plate.clean k)).readGranules (2 ^ 20 * k) (List.range 16384) = ((st, raw, ps), u) →
      (st ≠ St.ok → st ≠ St.held → runs { u with plate := { u.plate with dirty := s.plate.dirty } }) ∧
      (st = St.ok → ∀ stored, comp = none ∧ stored = raw ∨
          (comp = some stored ∧ s.bit Reg.PLT_CTL 2 = true ∧ stored.length < 2 ^ 20 ∧ chunkRaw true stored = some raw) →
        let c : ChunkCopy := ⟨loc, comp.isSome, stored.length, if ps.isEmpty then none else some (poisonMap ps), shaDigest 0 raw⟩
        let p := u.plate
        runs ((u.setPlate { p with
          work := FMap.setD p.work k (some c), store := FMap.setD p.store loc stored, copied := k
          etch := p.etch.map (fun e => { e with todo := e.todo.erase k, bytes := e.bytes + stored.length }) }).putWork k (some c))))) ∧
  (∀ (s : State) (k : Nat), s.storeFailed = false →
    (s.pltState = 1 → (s.mayCopy k = true ↔ s.bit Reg.PLT_CTL 1 = true ∧ s.plate.nextChunk = some k)) ∧
    (s.pltState = 2 → (s.mayCopy k = true ↔ k ∈ s.plate.dirtyChunks)) ∧
    (∀ e, s.pltState = 4 → s.plate.etch = some e → (s.mayCopy k = true ↔ k ∈ e.todo)) ∧
    (s.pltState = 0 → s.mayCopy k = false)) ∧
  (∀ s : State,
    let due := s.bit Reg.STY_SUPPLY 31 = true ∧ s.mode ≠ .dormant ∧ s.bit Reg.PLT_CTL 0 = true ∧ s.pltState ≠ 2
    (¬due → ∀ worn, exec (.powerFailEtch worn) s = .next (s.seal s)) ∧
    (due → ∀ worn, (s.judgeSlots worn).startEtch.pltState = 2 →
      exec (.powerFailEtch worn) s = .next (s.seal (s.judgeSlots worn).startEtch.sendPowerFail))) ∧
  (∀ (s : State) (b : Bool) (h : List Byte) (worn : List (Bool × List Byte)),
    s.judgeSlots [] = s.showSlots ∧
    (s.plate.slot b = none → s.judgeSlots ((b, h) :: worn) = s.judgeSlots worn) ∧
    (s.plate.slot b ≠ none →
      let u := s.setPlate (s.plate.setSlot b none)
      (headerPairsOk h = true → s.judgeSlots ((b, h) :: worn) = u.judgeSlots worn) ∧
      (headerPairsOk h = false → s.judgeSlots ((b, h) :: worn) =
        State.judgeSlots (u.report ⟨St.complementMismatch, Tgt.plate, 3, Mid.plate, 0, 0xFFFF, bit01 b⟩) worn))) ∧
  (∀ s : State, s.boot.live = none → s.mode ≠ .vigil →
    let u := (s.endEtchCmds St.aborted 0).endPlateCmds 2 St.aborted 0
    let n := (u.plate.etch.map (·.bytes)).getD 0
    let v : State := { u with fetchHold := true, plate := { u.plate with etch := some ⟨u.time.toNat, [], n⟩, go := false }, boot := { u.boot with live := none } }
    u.boot.live = none → v.mode ≠ .vigil →
    s.startEtch = ((v.setFld Reg.STY_VIGIL_CTL 30 30 0).setFld Reg.PLT_STATUS 31 29 2).endUncommitted) ∧
  (∀ (s t : State) (m : Nat) (worn : List (Bool × List Byte)), m < 4096 → s.Reaches m Reg.PLT_ETCH_GO t →
    let j := if t.pltState = 1 then t.judgeSlots worn else t
    exec (.etchGo m worn) s = .next (s.seal (j.etchGo m).acked)) ∧
  (∀ (t : State) (m : Nat),
    let runs (u : State) := t.etchGo m = u
    (t.pltState = 2 → t.plate.go = true → runs t) ∧
    (t.pltState = 2 → t.plate.go = false → runs ((t.setPlate { t.plate with go := true, shut := true }).forceOff [4, 5, 6, 7, 9, 12, 2])) ∧
    (t.pltState = 1 → t.storeFailed = false →
      runs ((t.setPlate { t.plate with etch := some ⟨t.time.toNat, t.plate.dirtyChunks, 0⟩ }).setFld Reg.PLT_STATUS 31 29 4)) ∧
    (t.pltState = 1 → t.storeFailed = true →
      runs ((((t.setPlate { t.plate.setSlot t.plate.working none with etch := none }).showSlots.logEtch 2 St.plateInvalid 4).setFld Reg.PLT_STATUS 15 0 St.plateInvalid).endEtchCmds
        St.plateInvalid 0)) ∧
    (t.pltState ≠ 1 → t.pltState ≠ 2 → runs (t.refuse m Reg.PLT_ETCH_GO St.invalidField))) ∧
  (∀ s : State,
    let start := (s.plate.etch.map (·.start)).getD 0
    let waits := s.pltState = 2 ∧ s.plate.go = false
    let late := s.pltState = 2 ∧ s.plate.dirtyChunks ≠ []
    (waits → exec .etchGoTimeout s = .next (s.seal ((s.atTime (start + 10000000)).abandonEtch 1))) ∧
    (¬waits → exec .etchGoTimeout s = .next (s.seal s)) ∧
    (late → exec .etchDeadline s = .next (s.seal
      ((s.atTime (start + 1000000 * (s.fld Reg.PLT_ETCH_DEADLINE 12 0 - 10))).abandonEtch 2))) ∧
    (¬late → exec .etchDeadline s = .next (s.seal s)) ∧
    (s.pltState = 2 → exec .bankReserveReached s = .next (s.seal
      (((s.setFld Reg.PLT_BANK_ENERGY 15 0 40).setFld Reg.PLT_BANK_STATUS 0 0 0).abandonEtch 3))) ∧
    (s.pltState ≠ 2 → exec .bankReserveReached s = .next (s.seal s))) ∧
  (∀ (s : State) (why : Nat), s.pltState = 4 →
    let cause := if s.storeFailed then 4 else why
    let u := (s.logEtch 2 St.plateInvalid cause).setFld Reg.PLT_STATUS 15 0 St.plateInvalid
    let v := (u.setPlate { u.plate.setSlot u.plate.working none with etch := none }).showSlots
    s.abandonEtch why = ((v.setFld Reg.PLT_STATUS 31 29 (if v.bit Reg.PLT_CTL 0 then 1 else 0)).raise Reg.PLT_INT_STATUS 0).endEtchCmds
      St.plateInvalid 0) ∧
  (∀ s : State,
    let ready := ∃ e, s.plate.etch = some e ∧
      ((s.pltState = 2 ∧ s.plate.go = true ∧ s.plate.dirtyChunks = []) ∨ (s.pltState = 4 ∧ e.todo = []))
    (¬ready → exec .etchComplete s = .next (s.seal s.orderlyNext)) ∧
    (ready → s.storeFailed = true → exec .etchComplete s = .next (s.seal (s.abandonEtch 4).orderlyNext)) ∧
    (ready → s.storeFailed = false → s.pltState = 4 →
      let v := s.slotImage
      let p := s.plate
      let maps := (v.chunks.filter (fun e => match e.2 with | some c => c.map.isSome | none => false)).length
      let laid := s.setPlate { p.setSlot p.working (some v) with
        work := v.chunks, etch := p.etch.map (fun e => { e with bytes := e.bytes + (64 * 98304 + 2048 * maps + 16384) }) }
      let w := (laid.showSlots.logEtch 2 St.ok 0).setFld Reg.PLT_STATUS 15 0 St.ok
      let x := w.setPlate { w.plate with etch := none }
      exec .etchComplete s = .next (s.seal (State.orderlyNext
        (((x.setFld Reg.PLT_STATUS 31 29 (bit01 (x.bit Reg.PLT_CTL 0))).raise Reg.PLT_INT_STATUS 0).endEtchCmds St.ok w.plate.etchLog.bytes)))))

/-- The print, plate jobs and plate devices (R425 to R431). Where the spec leaves a point open, the model's
choice: log entries 74, 77, 125. -/
def Obligations.PrintsRestoreImagesAndPlateJobsCheckCopies : Prop :=
  (∀ (s : State) (bad : List Nat) (worn : List (Bool × List Byte)),
    let runs (u : State) := exec (.print bad worn) s = .next (s.seal u)
    let u := s.judgeSlots worn
    let failed (st : Nat) : State :=
      let v := (u.setFld Reg.PLT_STATUS 15 0 st).raise Reg.PLT_INT_STATUS 1
      (v.setPlate { v.plate with printLog := ⟨0xFFFF, st, 0⟩ }).printEnd false
    let good (v : State) : State := ((v.setFld Reg.PLT_STATUS 15 0 St.ok).printEnd true).restoreHatch
    (s.printDue = false → runs s) ∧
    (s.printDue = true →
      (u.plate.newest = none → u.plate.record.role = 0 → (good u).plate.record.role = 0 → runs (good u)) ∧
      (∀ b, u.plate.newest = some b →
        (u.storeFailed = true → runs (failed St.plateInvalid)) ∧
        (u.storeFailed = false →
          (∀ v, u.printSlot bad b = some v → (good v).plate.record.role = 0 → runs (good v)) ∧
          (∀ v, u.printSlot bad b = some v → (good v).plate.record.role ≠ 0 →
            runs (((good v).trainPort 6 3 15).trainPort 7 3 15)) ∧
          (u.printSlot bad b = none →
            (∀ v, u.printSlot bad (!b) = some v → (good v).plate.record.role = 0 → runs (good v)) ∧
            (u.printSlot bad (!b) = none → runs (failed St.plateDigestMismatch))))))) ∧
  (∀ (s : State) (bad : List Nat) (v : PltSlot) (k : Nat) (c : Option ChunkCopy) (r : List (Nat × Option ChunkCopy)),
    s.printChunks bad v [] = some s ∧
    (c = none → s.printChunks bad v ((k, c) :: r) = s.printChunks bad v r) ∧
    (∀ x, c = some x →
      (s.plate.copyBytes bad x = none → s.printChunks bad v ((k, c) :: r) = none) ∧
      (∀ raw, s.plate.copyBytes bad x = some raw →
        let u := s.printChunk k (x.map.getD []) (v.raw k raw)
        s.printChunks bad v ((k, c) :: r) = (u.setPlate (u.plate.clean k)).printChunks bad v r))) ∧
  (∀ (e n : Nat) (bs : List Byte),
    capWords e 0 bs = [] ∧
    (leNat (bs.take 8) ≤ e → capWords e (n + 1) bs = bs.take 8 ++ capWords e n (bs.drop 8)) ∧
    (e < leNat (bs.take 8) → capWords e (n + 1) bs = List.replicate 8 0xFF ++ capWords e n (bs.drop 8))) ∧
  (∀ (s : State) (bad : List Nat) (good left st a : Nat) (broken : Bool) (x : MemAnswer) (u : State),
    s.readMem Mid.plate (s.ownDpa a) 256 = (x, u) →
    let r := s.reprintGranule bad (good, left, broken, st) a
    let kept := r = ((good, left + 1, broken, st), u)
    (x.status ≠ St.ok → r = ((good, left, broken, if st = St.ok then x.status else st), u)) ∧
    (x.status = St.ok → x.poison = false → r = ((good, left, broken, st), u)) ∧
    (x.status = St.ok → x.poison = true →
      (FMap.getD u.plate.dirty (a / 65536) = true ∨ u.storeFailed = true → kept) ∧
      (FMap.getD u.plate.dirty (a / 65536) = false → u.storeFailed = false →
        (FMap.getD u.plate.work (a / 2 ^ 20) = none → kept) ∧
        (∀ c, FMap.getD u.plate.work (a / 2 ^ 20) = some c →
          (u.plate.copyBytes bad c = none → r = ((good, left + 1, true, st), u)) ∧
          (∀ raw, u.plate.copyBytes bad c = some raw →
            let marked := ∃ g ∈ rangeFrom (a % 2 ^ 20 / 64) 4, mapBit (c.map.getD []) g = true
            (marked → kept) ∧
            (¬marked → r = ((good + 1, left, broken, st), u.printWrite a (subBytes raw (a % 2 ^ 20) 256) false))))))) ∧
  (∀ (s : State) (ring : Nat) (tag : BitVec 16) (bad : List Nat), ring < 4 →
    (s.pltJob ring tag.toNat 1 = none → exec (.reprint ring tag bad) s = .next (s.seal s)) ∧
    (s.pltJob ring tag.toNat 2 = none → exec (.verify ring tag bad) s = .next (s.seal s)) ∧
    (∀ j, s.pltJob ring tag.toNat 1 = some j → ∀ good left broken st u,
      (rangeFrom 0 (pltLen j.entry / 256)).foldl (fun (acc : (Nat × Nat × Bool × Nat) × State) i =>
        acc.2.reprintGranule bad acc.1 (pltDpa j.entry + 256 * i)) ((0, 0, false, St.ok), s) = ((good, left, broken, st), u) →
      let ends (status : Nat) := exec (.reprint ring tag bad) s = .next (s.seal (u.endJob j status (good + 2 ^ 32 * left)))
      (st = St.ok → broken = false → left = 0 → ends St.ok) ∧
      (st = St.ok → broken = false → left ≠ 0 → ends St.plateInvalid) ∧
      (st = St.ok → broken = true → ends St.plateDigestMismatch) ∧
      (st ≠ St.ok → st ≠ St.held → ends st)) ∧
    (∀ j, s.pltJob ring tag.toNat 2 = some j →
      let a := pltDpa j.entry
      let r := s.plate.verify bad (rangeFrom (a / 2 ^ 20) ((a + pltLen j.entry - 1) / 2 ^ 20 - a / 2 ^ 20 + 1)) 0
      exec (.verify ring tag bad) s = .next (s.seal
        (s.endJob j (if s.storeFailed then St.plateInvalid else if r.2 then St.plateDigestMismatch else St.ok) r.1)))) ∧
  (∀ (s : State) (d : Nat) (warn used spare : BitVec 8) (units errors : BitVec 128), d < 4 →
    let up := s.fld (Reg.PLT_DEV_STATUS d) 31 30 = 1
    let tried (b : Nat) (u : State) := u.setPlate { u.plate with retried := setBits u.plate.retried d d b }
    (¬up → exec (.nvmeCommandComplete d true) s = .next (s.seal s) ∧ exec (.nvmeCommandTimeout d) s = .next (s.seal s) ∧
      exec (.smartPoll d warn used spare units errors) s = .next (s.seal s)) ∧
    (up →
      exec (.nvmeCommandComplete d true) s = .next (s.seal (tried 0 s)) ∧
      (∀ c ∈ [Instr.nvmeCommandComplete d false, .nvmeCommandTimeout d],
        (s.plate.retried.testBit d = false → exec c s = .next (s.seal (tried 1 s))) ∧
        (s.plate.retried.testBit d = true → exec c s = .next (s.seal ((State.showLimit (State.report (State.raise
          (((tried 0 s).setFld (Reg.PLT_DEV_STATUS d) 31 30 2).setFld Reg.PLT_STATUS 28 28 1) Reg.PLT_INT_STATUS 4)
          ⟨St.plateInvalid, Tgt.plate, 4, Mid.plate, 0, 0xFFFF, d⟩)).abandonEtch 4)))) ∧
      (let u := (s.setFld (Reg.PLT_DEV_STATUS d) 15 8 warn.toNat).setFld (Reg.PLT_DEV_STATUS d) 7 0 used.toNat
       let v := u.setPlate { u.plate with devs := FMap.setD u.plate.devs d (some ⟨spare.toNat, units.toNat, errors.toNat⟩) }
       (warn = 0 → exec (.smartPoll d warn used spare units errors) s = .next (s.seal v)) ∧
       (warn ≠ 0 → exec (.smartPoll d warn used spare units errors) s = .next (s.seal ((v.raise Reg.PLT_INT_STATUS 4).report
        ⟨St.plateInvalid, Tgt.plate, 2, Mid.plate, 0, 0xFFFF, d⟩))))))

/-- The bank and PLATE_CONTROL (R266, R423, R424, R432, R433). Where the spec leaves a point open, the model's
choice: log entries 75, 76. -/
def Obligations.BankIsTestedAndPlateControlActs : Prop :=
  (∀ s : State,
    let due := s.domState 11 = 0 ∧ s.steady.good = true ∧ s.bit Reg.PLT_BANK_STATUS 3 = false
    (¬due → exec .bankTestTimer s = .next (s.seal s)) ∧
    (due →
      let u := s.atTime s.plate.testDue
      exec .bankTestTimer s = .next (s.seal
        ((u.setPlate { u.plate with testDue := s.plate.testDue + 86400000000000 }).setFld Reg.PLT_BANK_STATUS 3 3 1)))) ∧
  (∀ (s : State) (usable esr : Nat), usable < 65536 → esr < 65536 →
    (s.bit Reg.PLT_BANK_STATUS 3 = false → exec (.bankTestDone usable esr) s = .next (s.seal s)) ∧
    (s.bit Reg.PLT_BANK_STATUS 3 = true →
      let bad := usable < 1800 ∨ 500 < esr
      let u := ((s.setFld Reg.PLT_BANK_STATUS 3 3 0).setFld Reg.PLT_BANK_STATUS 31 16 esr).setFld Reg.PLT_BANK_USABLE 15 0 usable
      let kept (b : Nat) : State :=
        let v := u.setFld Reg.PLT_BANK_STATUS 2 2 b
        v.setPlate { v.plate with testAt := v.time.toNat, record := { v.plate.record with usable := some usable } }
      let ends (v : State) : State := (v.cmds.filterMap (fun e => e.2.bind (fun c =>
        if c.op = 0x0B && c.flags % 16 = 2 && c.done.isNone && c.stage = .committed then some e.1 else none))).foldl
          (fun x t => x.complete t St.ok usable) v
      (¬bad → exec (.bankTestDone usable esr) s = .next (s.seal (ends (kept 0).showLimit))) ∧
      (bad → exec (.bankTestDone usable esr) s = .next (s.seal (ends (((kept 1).raise Reg.PLT_INT_STATUS 3).report
        ⟨St.plateInvalid, Tgt.plate, 2, Mid.plate, 0, 0xFFFF, 0⟩).showLimit))))) ∧
  (∀ (s : State) (joules : Nat) (charging : Bool), joules < 65536 →
    exec (.bankReady joules charging) s = .next (s.seal
      ((s.setFld Reg.PLT_BANK_ENERGY 15 0 joules).setFld Reg.PLT_BANK_STATUS 1 1 (bit01 charging)).showLimit)) ∧
  (∀ s : State,
    let t := min (s.fld Reg.PLT_ETCH_DEADLINE 12 0) (5 * s.plate.record.usable.getD 1800)
    let limit := if s.storeFailed then 0 else min (s.hbmLimit / 2 ^ 20) (56000000 * (t - 50) / 2 ^ 20)
    let u := s.setFld Reg.PLT_LIMIT 16 0 limit
    let excess := limit < s.resident
    let v := u.setFld Reg.PLT_STATUS 27 27 (if excess then 1 else 0)
    let w := v.setFld Reg.PLT_BANK_STATUS 0 0 (bit01 v.bankReady)
    (excess → u.bit Reg.PLT_STATUS 27 = false → s.showLimit = w.raise Reg.PLT_INT_STATUS 2) ∧
    (¬excess ∨ u.bit Reg.PLT_STATUS 27 = true → s.showLimit = w) ∧
    (s.bankReady = true ↔ 50 ≤ s.fld Reg.PLT_BANK_ENERGY 15 0 ∧
      200 * s.resident * 2 ^ 20 ≤ (s.fld Reg.PLT_BANK_ENERGY 15 0 - 50) * 56000000000)) ∧
  (∀ (s : State) (tag act : Nat) (worn : List (Bool × List Byte)) (c : Instr), tag < 8448 →
    (act, c) ∈ [(1, Instr.plateEtch tag worn), (2, .plateBankTest tag), (3, .plateInvalidate tag), (4, .plateSanitize tag)] →
    s.plateCmd tag act = none → exec c s = .next (s.seal s)) ∧
  (∀ (s : State) (tag : Nat) (worn : List (Bool × List Byte)) (x : Cmd), tag < 8448 →
    (s.plateCmd tag 1 = some x →
      (s.pltState ≠ 1 → exec (.plateEtch tag worn) s = .next (s.seal (s.complete tag St.invalidField 0))) ∧
      (s.pltState = 1 →
        let j := (s.judgeSlots worn).setStage tag .committed
        exec (.plateEtch tag worn) s = .next (s.seal ((j.setPlate { j.plate with freeze := j.published }).etchGo 0x140)))) ∧
    (s.plateCmd tag 2 = some x → exec (.plateBankTest tag) s = .next (s.seal
      ((s.setStage tag .committed).setFld Reg.PLT_BANK_STATUS 3 3 1))) ∧
    (s.plateCmd tag 3 = some x →
      let b : Bool := x.arg 0x20 1 = 1
      let only := (s.plate.slot b).isSome = true ∧ (s.plate.slot (!b)).isNone = true
      (only → exec (.plateInvalidate tag) s = .next (s.seal (s.complete tag St.invalidField 0))) ∧
      (¬only → exec (.plateInvalidate tag) s = .next (s.seal
        (((s.setPlate (s.plate.setSlot b none)).showSlots).complete tag St.ok 0)))) ∧
    (s.plateCmd tag 4 = some x →
      (s.mode ≠ .bringUp → exec (.plateSanitize tag) s = .next (s.seal (s.complete tag St.invalidField 0))) ∧
      (s.mode = .bringUp → s.storeFailed = true → exec (.plateSanitize tag) s = .next (s.seal (s.complete tag St.plateInvalid 0))) ∧
      (s.mode = .bringUp → s.storeFailed = false → exec (.plateSanitize tag) s = .next (s.seal
        (((s.setPlate { s.plate with slotA := none, slotB := none, work := [], store := [], record := Record.new }).showSlots).complete
          tag St.ok 0)))))

/-- Power domains, clocks and throttling (R439 to R457). Where the spec leaves a point open, the model's
choice: log entries 14, 78, 88. -/
def Obligations.PowerDomainsClocksAndThrottling : Prop :=
  (∀ (s : State) (m d : Nat) (drained : Bool), m < 4096 → d < 17 →
    let u := s.plainWrite m (Reg.STY_DOM_CTL d) (s.cmdWord (Reg.STY_DOM_CTL d) 1 31 31 1)
    let runs (v : State) := exec (.domainPowerDown m d drained) s = .next (s.seal v.acked)
    (d < 2 → runs (u.refuseDomain d Tgt.steady 3)) ∧
    (2 ≤ d → u.domState d ≠ 0 → runs u) ∧
    (2 ≤ d → u.domState d = 0 →
      (2 ≤ u.fld Reg.PLT_STATUS 31 29 → runs (u.refuseDomain d Tgt.plate 4)) ∧
      (u.fld Reg.PLT_STATUS 31 29 < 2 →
        (u.modeLetsOff d = false → runs (u.refuseDomain d Tgt.steady 3)) ∧
        (u.modeLetsOff d = true →
          (∀ x, u.domainBusy d = some x → runs (u.refuseDomain d x 2)) ∧
          (u.domainBusy d = none → drained = true → runs (u.cutDomain d)) ∧
          (u.domainBusy d = none → drained = false → runs (u.setFld (Reg.STY_DOM_STATUS d) 31 30 1)))))) ∧
  (∀ (s : State) (d : Nat),
    (s.modeLetsOff d = true → 3 ≤ d ∧ d ≠ 11 ∧ d < 13) ∧
    (s.mode ≠ .vigil → s.modeLetsOff 3 = false) ∧ (s.mode = .bringUp → s.modeLetsOff 10 = false) ∧
    (s.domainBusy 8 = none ↔ s.bit Reg.SC_CTL 0 = false ∧ s.bit Reg.SC_CTL 4 = false) ∧
    (s.domainBusy 9 = none ↔ ∀ t < 16, s.gTable t = false) ∧
    (s.domainBusy 12 = none ↔ ∀ p < 8, s.portState p ≠ 2 ∧ s.portState p ≠ 5)) ∧
  (∀ (s : State) (d unit reason : Nat),
    let u := s.setFld (Reg.STY_DOM_STATUS d) 15 0 (min (s.fld (Reg.STY_DOM_STATUS d) 15 0 + 1) 65535)
    let i := u.fld Reg.STY_RLOG_WR 4 0
    let v := (u.wr (Reg.STY_RLOG_INFO i) (BitVec.ofNat 32 (2 ^ 24 * d + 2 ^ 16 * unit + 2 ^ 8 * reason))).wr64 (Reg.STY_RLOG_TIME_LO i) s.time.toNat
    s.refuseDomain d unit reason = ((v.setFld Reg.STY_RLOG_WR 4 0 ((i + 1) % 32)).raise Reg.STY_INT_STATUS 2).signal 131) ∧
  (∀ (s : State) (d : Nat) (holder : BitVec 8), d < 17 →
    let runs (v : State) := exec (.drainTimeout d holder) s = .next (s.seal v)
    (s.domState d ≠ 1 → runs s) ∧
    (s.domState d = 1 → s.plate.shut = true → runs ((s.report
      ⟨St.domainPoweredDown, holder.toNat, 2, Mid.steady, 0, 0xFFFF, d⟩).cutDomain d)) ∧
    (s.domState d = 1 → s.plate.shut = false →
      let u := (s.setFld (Reg.STY_DOM_STATUS d) 31 30 0).refuseDomain d holder.toNat 1
      runs { u with steady := { u.steady with onLater := setBits u.steady.onLater d d 0 } })) ∧
  (∀ (s t : State) (m d : Nat), m < 4096 → d < 17 →
    let up (u v : State) : Prop :=
      (d = 0 → v = u.refuseDomain 0 Tgt.steady 3) ∧
      (d ≠ 0 → u.domState d = 1 → v = { u with steady := { u.steady with onLater := setBits u.steady.onLater d d 1 } }) ∧
      (d ≠ 0 → u.domState d = 2 → u.plate.shut = true → v = u) ∧
      (d ≠ 0 → u.domState d = 2 → u.plate.shut = false → v = u.setFld (Reg.STY_DOM_STATUS d) 31 30 3) ∧
      (d ≠ 0 → u.domState d ≠ 1 → u.domState d ≠ 2 → v = u)
    (s.Reaches m (Reg.STY_DOM_CTL d) t → ∃ v, exec (.domainPowerUp m d false) s = .next (s.seal v.acked) ∧
      up (t.plainWrite m (Reg.STY_DOM_CTL d) (t.cmdWord (Reg.STY_DOM_CTL d) 1 30 30 1)) v) ∧
    (s.domState d = 2 → s.bit (Reg.STY_DOM_CTL d) 0 = true → ∃ v, exec (.domainPowerUp m d true) s = .next (s.seal v) ∧ up s v) ∧
    (s.domState d ≠ 2 ∨ s.bit (Reg.STY_DOM_CTL d) 0 = false → exec (.domainPowerUp m d true) s = .next (s.seal s))) ∧
  (∀ (s : State) (d : Nat), d < 17 →
    (s.domState d ≠ 3 → exec (.domainPowerUpDone d) s = .next (s.seal s)) ∧
    (s.domState d = 3 →
      let u := (s.restoreDomain bus d).setFld (Reg.STY_DOM_STATUS d) 31 30 0
      exec (.domainPowerUpDone d) s = .next (s.seal (if 4 ≤ d ∧ d < 8 then u.setFld (Reg.STY_QPLL (d - 4)) 31 31 1 else u)))) ∧
  (∀ (s : State) (r : Request), r.ok = true →
    let d := s.domainOf (s.region r.dpa r.len)
    (s.domState d = 0 → exec (.domainRequestHeld r) s = .next (s.seal s)) ∧
    (s.domState d ≠ 0 → ∀ a u, s.request bus r false = (a, u) → exec (.domainRequestHeld r) s = .next (s.seal (u.mcAnswer a)))) ∧
  (∀ (s : State) (t n : Nat), t < 128 → n < 64 → s.localTile t = some n →
    let idle := (s.bit (Reg.TIL_CTL n) 0 = false ∨ (s.core n).chWait ≠ none) ∧ s.unperformed n = false ∧
      ∀ x ∈ s.noc, ¬(s.localTile x.tile = some n ∧ x.kind < 2) ∧ x.sender ≠ n
    (idle → exec (.tileClockGate t) s = .next (s.seal { s with steady := { s.steady with gated := setBits s.steady.gated n n 1 } })) ∧
    (¬idle → exec (.tileClockGate t) s = .next (s.seal s))) ∧
  (∀ (s : State) (k : Nat), k < 4 →
    let all := (∀ n ∈ quadrantTiles k, s.steady.gated.testBit n = true) ∧ s.bit (Reg.STY_QPLL k) 3 = false ∧ s.domState (4 + k) = 0
    (all → exec (.quadrantPllStop k) s = .next (s.seal ((s.setFld (Reg.STY_QPLL k) 30 30 1).setFld (Reg.STY_QPLL k) 31 31 0))) ∧
    (¬all → exec (.quadrantPllStop k) s = .next (s.seal s)) ∧
    (s.bit (Reg.STY_QPLL k) 30 = true → exec (.quadrantPllRelock k) s = .next (s.seal (s.relockPll k))) ∧
    (s.bit (Reg.STY_QPLL k) 30 = false → exec (.quadrantPllRelock k) s = .next (s.seal s)) ∧
    exec (.frequencyPointChange k) s = .next (s.seal (s.setFld (Reg.STY_QPLL k) 6 4
      (max (s.fld (Reg.STY_QPLL k) 2 0) (s.fld Reg.STY_THERM_STATUS (3 * k + 2) (3 * k)))))) ∧
  (∀ (s : State) (k : Nat), k < 4 →
    let limit := s.fld Reg.STY_THERM_CTL 7 0
    let watts := if s.steady.shed then min (s.fld Reg.STY_PWR_LIMIT 9 0) 300 else s.fld Reg.STY_PWR_LIMIT 9 0
    let hot := limit ≤ s.quadrantTemp k ∨ watts < s.fld Reg.STY_POWER 15 0
    let cur := s.imposed k
    let top := s.fld (Reg.STY_QPLL k) 2 0
    let point (p : Nat) := s.setFld Reg.STY_THERM_STATUS (3 * k + 2) (3 * k) p
    let p := min 4 (max cur top + 1)
    (hot → cur ≤ top → top < p → exec (.throttleStep k) s = .next (s.seal ((point p).raise Reg.STY_INT_STATUS 3))) ∧
    (hot → ¬(cur ≤ top ∧ top < p) → exec (.throttleStep k) s = .next (s.seal (point p))) ∧
    (¬hot → s.quadrantTemp k + 5 < limit → top < cur → exec (.throttleStep k) s = .next (s.seal (point (cur - 1)))) ∧
    (¬hot → ¬(s.quadrantTemp k + 5 < limit ∧ top < cur) → exec (.throttleStep k) s = .next (s.seal s))) ∧
  (∀ (s : State) (temps : List (BitVec 8)) (power input : BitVec 16),
    let u := (List.range 16).foldl (fun v i => v.setFld (Reg.STY_TSENS i) 7 0 (temps.getD i 0).toNat) s
    let v := u.setFld Reg.STY_THERM_STATUS 31 24 u.dieTemp
    exec (.thermalSample temps power input) s = .next (s.seal
      ((v.setFld Reg.STY_POWER 15 0 power.toNat).setFld Reg.STY_SUPPLY 15 0 input.toNat).otherSensors))

/-- Vigil, wake sources and supply failure (R449 to R454). Where the spec leaves a point open, the model's
choice: log entries 79, 80, 81. -/
def Obligations.VigilWakeSourcesAndSupplyFailure : Prop :=
  let woken (s : State) (b : Nat) (v : State) : Prop :=
    let u := (s.setFld Reg.STY_WAKE_CAUSE b b 1).raise Reg.STY_INT_STATUS 1
    let vigil := u.mode = .vigil ∨ u.bit Reg.STY_VIGIL_CTL 30 = true
    (b ≠ 7 → u.bit Reg.STY_WAKE_EN b = false → v = u) ∧
    (b = 7 ∨ u.bit Reg.STY_WAKE_EN b = true →
      (vigil → v = { u with steady := { u.steady with waking := true } }) ∧
      (¬vigil → u.mayBoot = true → v = (u.setFld Reg.STY_SUPPLY 31 31 0).dieReset 1) ∧
      (¬vigil → u.mayBoot = false → v = u))
  (∀ s : State, s.vigilBlock = none ↔
    (s.mode = .solo ∨ s.mode = .fabric ∨ s.mode = .diptych) ∧ s.tagsHeld = 0 ∧ s.jobs = [] ∧
    (∀ n < 64, s.bit (Reg.TIL_CTL n) 0 = false) ∧ s.pltState = 1 ∧ (∀ k < 4, s.bit (Reg.MC_STACK_CTL (16 * k)) 30 = false) ∧
    s.bit Reg.GLB_HBM_RETIRE_CMD 30 = false ∧ s.bit Reg.SC_RANGE_CMD 30 = false ∧ ∀ w < 8, s.bit (Reg.GLB_MIR_CTL w) 30 = false) ∧
  (∀ (s t : State) (m : Nat), m < 4096 → s.Reaches m Reg.STY_VIGIL_CTL t →
    let runs (v : State) := exec (.vigilEnter m) s = .next (s.seal v.acked)
    (t.bit Reg.STY_VIGIL_CTL 30 = true → runs (t.refuse m Reg.STY_VIGIL_CTL St.accessDenied)) ∧
    (t.bit Reg.STY_VIGIL_CTL 30 = false →
      (∀ u, t.vigilBlock = some u → runs ((t.setFld Reg.STY_VIGIL_CTL 15 0 St.aborted).logRefusal 0 u 2)) ∧
      (t.vigilBlock = none → runs
        (State.setFld { t with fetchHold := true, steady := { t.steady with waking := false } } Reg.STY_VIGIL_CTL 30 30 1)))) ∧
  (∀ (s : State) (refused : Bool),
    let runs (v : State) := exec (.vigilEntryDone refused) s = .next (s.seal v)
    let stay (v : State) : State := State.setFld { v with fetchHold := false } Reg.STY_VIGIL_CTL 30 30 0
    (s.bit Reg.STY_VIGIL_CTL 30 = false → runs s) ∧
    (s.bit Reg.STY_VIGIL_CTL 30 = true → refused = true → s.role = some false → runs ((stay s).vigilRefuse Tgt.hatch)) ∧
    (s.bit Reg.STY_VIGIL_CTL 30 = true → ¬(refused = true ∧ s.role = some false) →
      (∀ d u off v, s.vigilCut [] s.vigilCuts = (some (d, u), off, v) →
        runs (stay (off.foldl (fun w e => w.wakeDomain bus e) ((v.count (Reg.STY_DOM_STATUS d) 15 0 1).vigilRefuse u)))) ∧
      (∀ off v, s.vigilCut [] s.vigilCuts = (none, off, v) →
        let w := (List.range 8).foldl
          (fun w p => if w.portState p = 2 then w.setPort p 3 (w.fld (Reg.HAT_PORT_STATE p) 5 4) else w) v
        runs (((State.setMode { w with steady := { w.steady with vigilFrom := w.mode.code } } .vigil).setFld
          Reg.STY_VIGIL_CTL 15 0 St.ok).setFld Reg.STY_VIGIL_CTL 30 30 0)))) ∧
  (∀ s : State,
    (s.mode ≠ .vigil ∨ s.steady.waking = false ∨ s.pltState = 2 → exec .vigilExit s = .next (s.seal s)) ∧
    (s.mode = .vigil → s.steady.waking = true → s.pltState ≠ 2 →
      let u := (s.wakeDomain bus 3).setMode s.vigilBack
      let u := State.wdogStart { u with fetchHold := false, steady := { u.steady with waking := false } }
      let up (v : State) : State := (List.range 8).foldl
        (fun v p => if v.portState p = 3 then v.portUp p (v.fld (Reg.HAT_PORT_STATE p) 5 4) else v) v
      (u.mode ≠ .diptych → exec .vigilExit s = .next (s.seal (up u))) ∧
      (u.mode = .diptych → exec .vigilExit s = .next (s.seal (up { u with sent := u.sent ++ [.wake 6 3, .wake 7 3] }))))) ∧
  (∀ (s : State) (b : Nat), b < 8 →
    let counts := (b = 0 → s.mode = .vigil) ∧ (b = 5 → s.domState 1 = 0) ∧ (b = 7 → s.mayBoot = true)
    (counts → ∃ v, woken s b v ∧ exec (.wakeSource b) s = .next (s.seal v)) ∧
    (¬counts → exec (.wakeSource b) s = .next (s.seal s))) ∧
  (∀ (s : State) (p : Nat) (words : List Word), p < 8 →
    let runs (v : State) := exec (.wakePattern p words) s = .next (s.seal v)
    let hears := s.portState p = 3 ∨ s.portState p = 0
    (¬hears ∨ acceptReason words = none → runs s) ∧
    (hears → acceptReason words = some 0 →
      (∀ n, (s.hatPort p).nbr = some n → runs (s.setHatPort p { s.hatPort p with nbr := some { n with heard := s.time.toNat } })) ∧
      ((s.hatPort p).nbr = none → runs s)) ∧
    (∀ r, hears → acceptReason words = some r →
      (4 ≤ r → r < 0x80 → runs s) ∧
      (1 ≤ r → r ≤ 3 ∨ 0x80 ≤ r → ∃ v, runs v ∧
        woken ((s.setFld Reg.STY_WAKE_CAUSE 15 8 r).setFld Reg.STY_WAKE_CAUSE 18 16 p) 4 v)) ∧
    (s.portState p = 3 → exec (.keepaliveSend p) s = .next (s.seal { s with sent := s.sent ++ [.wake p 0] })) ∧
    (s.portState p ≠ 3 → exec (.keepaliveSend p) s = .next (s.seal s))) ∧
  (∀ (a b c : Word) (rest : List Word),
    (∀ r, wakeReason a = some r ↔ a.toNat % 65536 = 0x5555 ∧ bits a.toNat 23 16 = r ∧ bits a.toNat 31 24 = 255 - r) ∧
    acceptReason [a, b] = none ∧
    (∀ r, wakeReason a = some r → b = a → c = a → acceptReason (a :: b :: c :: rest) = some r) ∧
    (wakeReason a = none ∨ b ≠ a ∨ c ≠ a → acceptReason (a :: b :: c :: rest) = acceptReason (b :: c :: rest))) ∧
  (∀ (s t : State) (m : Nat) (v : Word), m < 4096 → s.Reaches m Reg.STY_WAKE_SEND t →
    (v.toNat % 256 < 0x80 → exec (.wakeSend m v) s = .next (s.seal (t.refuse m Reg.STY_WAKE_SEND St.invalidField).acked)) ∧
    (0x80 ≤ v.toNat % 256 →
      let ports := (List.range 8).filter (fun p => v.toNat.testBit (8 + p) && (t.portState p = 3 || t.portState p = 0))
      exec (.wakeSend m v) s = .next (s.seal
        (State.acked { t with sent := t.sent ++ ports.map (fun p => .wake p (v.toNat % 256)) })))) ∧
  (∀ s : State,
    (s.steady.alarmed = true → exec .alarm s = .next (s.seal s)) ∧
    (s.steady.alarmed = false → ∃ v, exec .alarm s = .next (s.seal v) ∧
      (let u := s.atTime (s.rd64 Reg.STY_ALARM_LO)
       woken { u with steady := { u.steady with alarmed := true } } 6 v)) ∧
    (s.bit Reg.STY_SUPPLY 31 = true → exec .supplyFailure s = .next (s.seal s)) ∧
    (s.bit Reg.STY_SUPPLY 31 = false → ∃ g : Bool,
      (g = true → s.steady.good = true) ∧
      let u := (State.setFld { s with steady := { s.steady with good := g } } Reg.STY_SUPPLY 31 31 1).raise Reg.STY_INT_STATUS 0
      (u.bit Reg.PLT_CTL 0 = true → u.mode ≠ .dormant → exec .supplyFailure s = .next (s.seal u)) ∧
      (u.bit Reg.PLT_CTL 0 = false ∨ u.mode = .dormant → exec .supplyFailure s = .next (s.seal u.goDormant))))

/-- Resets, boot and modes (R437, R459 to R471). Where the spec leaves a point open, the model's
choice: log entries 81, 82, 83, 84, 86, 87. -/
def Obligations.ResetsBootWatchdogAndModes : Prop :=
  (∀ (s : State) (c : Nat), c < 16 →
    let t := s.dieReset c
    t.mode = .dormant ∧ t.fld Reg.GLB_RESET_CAUSE 3 0 = c ∧ t.boot.due = true ∧ t.pending = s.pending ∧ t.time = s.time ∧
    (∀ off, steadyReg off = false → t.rd off = State.reset.rd off) ∧ (∀ d, 1 ≤ d → d < 17 → t.domState d = 2)) ∧
  (∀ (s t : State) (m : Nat), m < 4096 → s.Reaches m Reg.GLB_RESET t →
    let orderly (v : State) := exec (.orderlyReset m) s = .next (s.seal v.acked)
    let immediate (v : State) := exec (.immediateReset m) s = .next (s.seal v.acked)
    let waiting : State := { t with boot := { t.boot with orderly := some 2 } }
    (t.pltState = 2 → orderly (t.refuse m Reg.GLB_RESET St.accessDenied) ∧ immediate (t.refuse m Reg.GLB_RESET St.accessDenied)) ∧
    (t.pltState = 3 ∨ t.pltState = 4 → orderly waiting) ∧
    (t.pltState = 1 → t.mode ≠ .dormant → orderly waiting.startEtch) ∧
    (t.pltState = 0 ∨ (t.pltState = 1 ∧ t.mode = .dormant) → orderly (t.dieReset 2)) ∧
    (t.pltState = 4 → immediate (State.dieReset { t with plate := t.plate.setSlot t.plate.working none } 3)) ∧
    (t.pltState ≠ 2 → t.pltState ≠ 4 → immediate (t.dieReset 3))) ∧
  (∀ s : State,
    let lost := s.steady.good = false ∧ s.steady.aux = false ∧ s.mode = .dormant
    (lost → ∃ t, exec .coldReset s = .next (s.seal t) ∧
      (∀ off, t.rd off = State.reset.rd off) ∧ t.time = 0 ∧ t.mem = [] ∧ t.boot.slot1 = s.boot.slot1 ∧ t.boot.slot2 = s.boot.slot2 ∧
      t.boot.hold = false ∧ t.boot.wdogs = 0 ∧ t.pending = s.pending) ∧
    (¬lost → exec .coldReset s = .next (s.seal s))) ∧
  (∀ s : State,
    (s.boot.due = false → exec .boot s = .next (s.seal s)) ∧
    (s.boot.due = true →
      let u := State.bootPower { s with boot := { s.boot with due := false, log := [] } }
      let v : State := { u with boot := u.boot.dropTried }
      (∀ w, v.trySlots v.boot.order = (none, w) → exec .boot s = .next (s.seal w.romRecovery)) ∧
      (∀ k w, v.trySlots v.boot.order = (some k, w) →
        let tried := if k = w.boot.waiting ∧ k ≠ 0 then { w.boot with trials := w.boot.trials + 1, gen := w.boot.gen + 1 } else w.boot
        let x : State := { w with boot := tried }
        let i := x.boot.image k
        exec .boot s = .next (s.seal (((if k = 0 then x else x.retireRecorded).storeWrite bootWindow i false).startImage i 2 k 60000))))) ∧
  (∀ (s : State) (k : Nat) (ks : List Nat) (i : List Byte),
    (s.trySlots [] = (none, s)) ∧
    (let u : State := { s with boot := { s.boot with log := FMap.setD s.boot.log k (some (fwLogOf (s.boot.image k) (s.fwCheck (s.boot.image k) k))) } }
     let v := u.setFld Reg.GLB_BOOT_STATUS 15 0 (fwStatus (s.fwCheck (s.boot.image k) k))
     (s.fwCheck (s.boot.image k) k = 0 → s.trySlots (k :: ks) = (some k, v)) ∧
     (s.fwCheck (s.boot.image k) k ≠ 0 → s.trySlots (k :: ks) = v.trySlots ks)) ∧
    (s.fwCheck i k = 0 ↔
      fwHeadOk i = true ∧ fwMin i ≤ s.revision ∧
      (shaDigest 1 (fwPubkey i) = Config.fuseKey (fwKey i) ∧ Config.fusesProgrammed.getLsbD (fwKey i) = true ∧
        Config.fusesRevoked.getLsbD (fwKey i) = false) ∧
      fwSigned i = true ∧ (fwGolden i = true → k = 0) ∧ (fwGolden i = true ∨ s.minSvn ≤ fwSvn i))) ∧
  (∀ (s : State) (i : List Byte) (stage slot ms : Nat), stage < 16 → slot < 4 → ms < 65536 →
    let t := s.startImage i stage slot ms
    (t.core 128).pc = BitVec.ofNat 48 (bootWindow + fwEntry i) ∧ (t.core 128).xreg 1 = BitVec.ofNat 64 bootWindow ∧
      (t.core 128).xreg 2 = BitVec.ofNat 64 i.length ∧ t.fld Reg.GLB_BOOT_STATUS 31 28 = stage ∧ t.fld Reg.GLB_BOOT_STATUS 27 26 = slot ∧
      t.bit Reg.GLB_WDOG_CTL 31 = true ∧ t.fld Reg.GLB_WDOG_CTL 15 0 = ms ∧ t.steady.wdogDue = s.time.toNat + 1000000 * ms ∧ t.boot.slot = slot ∧ t.thrState 0 = 2) ∧
  (∀ (s : State),
    let running := s.bit Reg.GLB_WDOG_CTL 31 = true ∧ s.pltState ≠ 2 ∧ s.pltState ≠ 3 ∧ s.mode ≠ .vigil
    (running →
      let u := (s.atTime s.steady.wdogDue).dieReset 4
      exec .watchdogExpire s = .next (s.seal { u with boot := { u.boot with wdogs := min (u.boot.wdogs + 1) 0xFFFFFFFF } })) ∧
    (¬running → exec .watchdogExpire s = .next (s.seal s))) ∧
  (∀ (s t : State) (m : Nat) (v : Word), m < 4096 → s.Reaches m Reg.GLB_WDOG_KICK t →
    exec (.watchdogKick m v) s = .next (s.seal (State.acked
      { t with steady := { t.steady with wdogDue := t.time.toNat + 1000000 * t.fld Reg.GLB_WDOG_CTL 15 0 } }))) ∧
  (∀ (s t : State) (m : Nat) (v : Word), m < 4096 → s.Reaches m Reg.GLB_BOOT_OK t →
    let u := t.plainWrite m Reg.GLB_BOOT_OK v
    let b := u.boot
    let runs (w : State) := exec (.bootOk m v) s = .next (s.seal w.acked)
    (v.toNat.testBit 0 = false → runs u) ∧
    (v.toNat.testBit 0 = true → b.waiting ≠ 0 → b.slot = b.waiting →
      runs { u with boot := { b with active := b.slot, waiting := 0, trials := 0, gen := b.gen + 1, svn := max b.svn b.raise } }) ∧
    (v.toNat.testBit 0 = true → ¬(b.waiting ≠ 0 ∧ b.slot = b.waiting) → runs { u with boot := { b with svn := max b.svn b.raise } })) ∧
  (∀ (s t : State) (m : Nat) (v : Word), m < 4096 → s.Reaches m Reg.GLB_MODE_CTL t →
    let md := v.toNat % 8
    let runs (w : State) := exec (.modeEnter m v) s = .next (s.seal w.acked)
    let stage := t.mode = .dormant ∧ (t.fld Reg.GLB_BOOT_STATUS 31 28 = 2 ∨ t.fld Reg.GLB_BOOT_STATUS 31 28 = 4) ∧ t.bit Reg.STY_SUPPLY 31 = false
    let may (n : Mode) := t.namedMode = some n ∧ md = n.code ∧ 0x140 ≤ m ∧ m ≤ 0x14F ∧ t.fld Reg.GLB_BOOT_STATUS 31 28 = 2 ∧
      (t.boot.slot = 1 ∨ t.boot.slot = 2) ∧ t.boot.hold = false ∧ t.boot.printed = some true
    (stage → md = 2 → runs (t.enterBringUp t.bringUpReason)) ∧
    (stage → md ≠ 2 → may .diptych → runs t.formDone) ∧
    (∀ n, stage → md ≠ 2 → n ≠ .diptych → may n → runs (t.enterService n)) ∧
    (¬stage ∨ (md ≠ 2 ∧ ∀ n, ¬may n) → runs (t.refuse m Reg.GLB_MODE_CTL St.invalidField)) ∧
    (t.plate.record.role = 0 → t.namedMode = some (if t.bit Reg.HAT_FID 31 then .fabric else .solo))) ∧
  (∀ (s t : State) (m : Nat) (v : Word), m < 4096 → s.Reaches m Reg.GLB_BOOT_CTL t →
    let len := v.toNat % 2 ^ 26
    let legal := 8192 ≤ len ∧ len ≤ 2 ^ 25 ∧ len % 4096 = 0
    let u := t.plainWrite m Reg.GLB_BOOT_CTL v
    let runs (w : State) := exec (.recoveryGo m v) s = .next (s.seal w.acked)
    (v.toNat.testBit 31 = false → runs u) ∧
    (v.toNat.testBit 31 = true → t.fld Reg.GLB_BOOT_STATUS 31 28 ≠ 3 → runs (u.refuse m Reg.GLB_BOOT_CTL St.accessDenied)) ∧
    (v.toNat.testBit 31 = true → t.fld Reg.GLB_BOOT_STATUS 31 28 = 3 →
      (¬legal → runs (t.refuse m Reg.GLB_BOOT_CTL St.invalidField)) ∧
      (legal →
        let c := if u.anyPoison bootWindow len then 4 else u.fwCheck (u.bytes bootWindow len) 3
        (c = 0 → runs (u.startImage (u.bytes bootWindow len) 4 3 60000)) ∧
        (c = 1 → runs (u.setFld Reg.GLB_BOOT_STATUS 15 0 St.complementMismatch)) ∧
        (2 ≤ c → runs (u.setFld Reg.GLB_BOOT_STATUS 15 0 St.invalidField)))))

/-- The host link, doorbells and admin pairs (R228 to R250, R461). Where the spec leaves a point open, the model's
choice: log entries 27, 49, 51, 54. -/
def Obligations.HostLinkDoorbellsAndAdminPairs : Prop :=
  let dropAll (s : State) (fs : List Nat) : State := fs.foldl (fun u f => (u.deletePairsOf f).clearFnView f) s
  (∀ s : State,
    let change (a : Bool) (sris : Bool) : State := { s with steady := { s.steady with perst := a, sris := sris } }
    exec (.perst s.steady.perst) s = .next (s.seal s) ∧
    (s.steady.perst = false → exec (.perst true) s = .next (s.seal
      ((dropAll (change true s.steady.sris) (List.range s.functions)).wake 1))) ∧
    (s.steady.perst = true → exec (.perst false) s = .next (s.seal ((change false Config.clkModeOpen).wake 1))) ∧
    exec .hotReset s = .next (s.seal (dropAll s (List.range s.functions))) ∧
    exec .linkDown s = .next (s.seal (dropAll s (List.range s.functions)))) ∧
  (∀ (s : State) (fn : Nat), fn < 128 →
    (s.functions ≤ fn → exec (.flr fn) s = .next (s.seal s)) ∧
    (fn < s.functions → fn ≠ 0 → exec (.flr fn) s = .next (s.seal (dropAll s [fn]))) ∧
    (0 < s.functions → exec (.flr 0) s = .next (s.seal (dropAll s (List.range s.functions))))) ∧
  (∀ (s : State) (q : Nat),
    (s.pair q = none → s.deletePair q = s) ∧
    (∀ p, s.pair q = some p → p.state = 3 → s.deletePair q = s) ∧
    (∀ p, s.pair q = some p → p.state ≠ 3 →
      s.deletePair q = ((s.setPair q (some { p with state := 3, pending := false })).stopPair q).endDelete q ∧
      (s.inFlight q = 0 → (s.deletePair q).pair q = none))) ∧
  (∀ (s : State) (m q : Nat) (v : Word), m < 4096 → q < 8192 →
    let kicks (u : State) := exec (.sqKick m q) s = .next (s.seal u.acked)
    let heads (u : State) := exec (.cqHead m q v) s = .next (s.seal u.acked)
    let both := s.domainGate (.door (64 * q)) m (0x20001000000 + 64 * q) = none
    let bothH := s.domainGate (.door (64 * q + 8)) m (0x20001000000 + (64 * q + 8)) = none
    (s.bit Reg.QE_CTL 0 = false → (both → kicks s) ∧ (bothH → heads s)) ∧
    (s.bit Reg.QE_CTL 0 = true → s.pair q = none ∨ m ≠ s.pairFn q →
      (both → kicks (s.doorDeny m q (64 * q) St.accessDenied)) ∧ (bothH → heads (s.doorDeny m q (64 * q + 8) St.accessDenied))) ∧
    (∀ p, s.bit Reg.QE_CTL 0 = true → s.pair q = some p → m = s.pairFn q →
      (p.state ≠ 1 → (both → kicks s) ∧ (bothH → heads s)) ∧
      (p.state = 1 →
        let d := qcCqDepth p.ctx
        let legal := v.toNat < d ∧ (v.toNat + d - p.chead) % d ≤ (p.ctail + d - p.chead) % d
        (both → kicks (s.setPair q (some { p with pending := true })).countWaits) ∧
        (bothH → legal → heads ((s.setPair q (some { p with chead := v.toNat })).flushNotices).countWaits) ∧
        (bothH → ¬legal → heads (s.doorDeny m q (64 * q + 8) St.invalidField))))) ∧
  (∀ (s t : State) (fn : Nat), fn < 128 →
    let creates (u : State) := exec (.adminPairCreate fn) s = .next (s.seal u)
    let deletes (u : State) := exec (.adminPairDelete fn) s = .next (s.seal u)
    (s.hostUp fn = false → creates s ∧ deletes s) ∧
    (s.hostUp fn = true → s.Reaches fn Reg.QE_FN_AQ_CTL t →
      (t.bit (aqReg fn 0) 0 = true → creates t.acked ∧ deletes (((t.setFld (aqReg fn 0) 0 0 0).deletePair fn).acked)) ∧
      (t.bit (aqReg fn 0) 0 = false → deletes t.acked ∧
        (t.bit Reg.QE_CTL 0 = false ∨ t.pair fn ≠ none → creates (t.refuse fn 0x10000 St.accessDenied).acked) ∧
        (t.bit Reg.QE_CTL 0 = true → t.pair fn = none →
          (t.fld (aqReg fn 8) 15 0 = 0 ∨ t.fld (aqReg fn 8) 31 16 = 0 → creates (t.refuse fn 0x10000 St.invalidField).acked) ∧
          (t.fld (aqReg fn 8) 15 0 ≠ 0 → t.fld (aqReg fn 8) 31 16 ≠ 0 →
            ∀ st u, t.writeMem Mid.qe (t.ctxDpa fn) (t.aqCtx fn) = (st, u) →
              (st = St.held → creates t.acked) ∧
              (st = St.ok → creates (((u.setPair fn (some (Pair.fresh (t.aqCtx fn) 1000))).setFld (aqReg fn 0) 0 0 1)).acked) ∧
              (st ≠ St.held → st ≠ St.ok → creates (u.refuseDetail fn 0x10000 st (2 ^ 16 * fn)).acked))))))

/-- The queue engine at work (R235 to R249, R258 to R260, R276). Where the spec leaves a point open, the model's
choice: log entries 10, 42, 47, 48, 50. -/
def Obligations.FetchPostClampsAndTimeouts : Prop :=
  (∀ (s : State) (q : Nat) (entry block : HostRead) (again : Bool) (tag : Nat), q < 8192 → tag < 8448 →
    let runs (u : State) := exec (.sqFetch q entry block again tag) s = .next (s.seal u)
    let may := s.arbFrozen 1 = false ∧ s.bit Reg.QE_CTL 0 = true ∧ s.fetchHold = false ∧ s.cmd tag = none ∧ tag < s.tagCount
    (¬may → runs s) ∧
    (may → (∀ u, s.arbitrate ≠ some (q, u)) ∨ s.pair q = none → runs s) ∧
    (∀ s1 p, may → s.arbitrate = some (q, s1) → s.pair q = some p →
      (∀ st s2, s1.readCtx q = (.error st, s2) →
        (st = St.held → runs s) ∧ (st ≠ St.held → runs (s2.queueError q 6 p.head st))) ∧
      (∀ ctx s2, s1.readCtx q = (.ok ctx, s2) →
        let p' := { p with ctx := ctx }
        (entry = .denied → runs (((s2.setPair q (some p')).aer (s2.pairFn q) .readRefused).queueError q 4 p.head St.accessDenied)) ∧
        (entry = .poisoned → runs (((s2.setPair q (some p')).aer (s2.pairFn q) .readPoisoned).queueError q 5 p.head St.poisonedData)) ∧
        (∀ e, entry = .data e → e.length = 64 →
          ((fieldLE e 0 4).testBit 31 ≠ p.phase → runs (s2.setPair q (some { p' with pending := again }))) ∧
          ((fieldLE e 0 4).testBit 31 = p.phase → runs (s2.take q tag p' e block)))))) ∧
  (∀ (s : State) (q : Nat),
    let r := s.readMem Mid.qe (s.ctxDpa q) 64
    (r.1.status ≠ St.ok → s.readCtx q = (.error r.1.status, r.2)) ∧
    (r.1.status = St.ok → r.1.poison = true → s.readCtx q = (.error St.poisonedData, r.2)) ∧
    (r.1.status = St.ok → r.1.poison = false → qcOk r.1.data = false → s.readCtx q = (.error St.complementMismatch, r.2)) ∧
    (r.1.status = St.ok → r.1.poison = false → qcOk r.1.data = true → s.readCtx q = (.ok r.1.data, r.2))) ∧
  (∀ s : State,
    (∀ q cls, q ∈ s.eligible cls ↔ s.tagsHeld < s.tagCount ∧
      ∃ p, (q, some p) ∈ s.pairs ∧ s.wantsFetch q p = true ∧ (if q < 128 then 4 else qcClass p.ctx) = cls) ∧
    (∀ q, s.nextPair 4 = some q → s.arbitrate = some (q, { s with arbLast := FMap.setD s.arbLast 4 q })) ∧
    (s.nextPair 4 = none → (∀ c < 4, s.eligible c = []) → s.arbitrate = none) ∧
    (∀ q, s.nextPair 4 = none → (∃ c < 4, s.eligible c ≠ []) →
      let u := State.arbTurn 5 s
      u.nextPair u.arbClass = some q →
      s.arbitrate = some (q, { u with arbLast := FMap.setD u.arbLast u.arbClass q
                                      arbCredit := FMap.setD u.arbCredit u.arbClass (FMap.getD u.arbCredit u.arbClass - 1) }))) ∧
  (∀ (s : State) (q tag : Nat) (p : Pair) (e : List Byte) (block : HostRead),
    let wraps := p.head + 1 = qcSqDepth p.ctx
    let u := s.setPair q (some { p with head := if wraps then 0 else p.head + 1, phase := if wraps then !p.phase else p.phase })
    (entryCause e ≠ 0 → s.take q tag p e block =
      u.queueError q (entryCause e) p.head (if entryCause e = 2 then St.complementMismatch else St.malformedEntry)) ∧
    (entryCause e = 0 →
      let c := u.cmdOf q e
      let v := State.countWaits { (u.setCmd tag (some c)).showTags with fetches := u.fetches + 1 }
      (v.opAllowed q c.fn c.op = false → s.take q tag p e block = v.complete tag St.invalidOpcode 0) ∧
      (v.opAllowed q c.fn c.op = true → c.op ≠ 0x46 →
        s.take q tag p e block = v.admission tag c (if p.clampMs = 0 then 1000 else p.clampMs) block) ∧
      (v.opAllowed q c.fn c.op = true → c.op = 0x46 →
        s.take q tag p e block = State.admission
          (if c.flags.testBit 0 = false then { v with named := max v.named (c.arg 0x28 8) } else v)
          tag c (if p.clampMs = 0 then 1000 else p.clampMs) block)) ∧
    (entryCause e = 0 ↔
      (bits (fieldLE e 0 4) 30 24 = 0 ∧ bits (fieldLE e 0 4) 23 16 ∈ adminOps ++ ioOps) ∧
      (pair64At e 8 = true ∧ pair32At e 0x18 = true) ∧ (fieldLE e 0x18 4 = 0 ∨ fieldLE e 8 8 + fieldLE e 0x18 4 ≤ 2 ^ 64))) ∧
  (∀ (s : State) (tag : Nat), tag < 8448 →
    let runs (u : State) := exec (.completionPost tag) s = .next (s.seal u)
    (s.arbFrozen 2 = true ∨ s.nextSlot ≠ some tag → runs s) ∧
    (∀ c0 c s1, s.arbFrozen 2 = false → s.nextSlot = some tag → s.cmd tag = some c0 →
      (c0.brokenRange = none ∧ s1 = { s with collector := tag }) ∨
        (∃ i, c0.brokenRange = some i ∧ s1 = State.clampBreak { s with collector := tag } tag i) →
      s1.cmd tag = some c →
      (8192 ≤ tag → runs (s1.answerPart tag c)) ∧
      (tag < 8192 → s1.discards c.pair = true → runs (s1.release tag)) ∧
      (∀ p st result, tag < 8192 → s1.discards c.pair = false → s1.pair c.pair = some p → c.done = some (st, result) →
        (∀ e s2, s1.readCtx c.pair = (.error e, s2) →
          (e = St.held → runs s) ∧ (e ≠ St.held → runs ((s2.queueError c.pair 6 p.head e).release tag))) ∧
        (∀ ctx s2, s1.readCtx c.pair = (.ok ctx, s2) →
          runs ((s2.postEntry c.pair p ctx c.pair p.head st c.cid result).release tag))))) ∧
  (∀ (s : State) (q sqid head status cid result : Nat) (p : Pair) (ctx : List Byte),
    let t := s.postEntry q p ctx sqid head status cid result
    let w := 2 ^ 31 * bit01 p.cphase + 2 ^ 16 * sqid + head
    let entry : Sent := .hostWrite (s.pairFn q) (qcCq ctx + 16 * p.ctail)
      (natLE 8 result ++ natLE 4 w ++ natLE 4 (2 ^ 16 * status + cid)) false false
    let fire := qcIen ctx = true ∧ (max 1 (qcCoalCount ctx) ≤ p.unsent + 1 ∨ status ≠ St.ok ∨ qcClass ctx = 4)
    (¬fire → t.sent = s.sent ++ [entry]) ∧
    (fire → s.bit (msixWord (s.pairFn q) (qcVector ctx) 3) 0 = false → t.sent = s.sent ++ [entry, .msix (s.pairFn q) (qcVector ctx)
      (s.rd64 (msixWord (s.pairFn q) (qcVector ctx) 0)) (s.rd (msixWord (s.pairFn q) (qcVector ctx) 2))]) ∧
    (fire → s.bit (msixWord (s.pairFn q) (qcVector ctx) 3) 0 = true → t.sent = s.sent ++ [entry] ∧
      t.bit (pbaWord (s.pairFn q) (qcVector ctx)) (qcVector ctx % 32) = true) ∧
    (∃ p', t.pair q = some p' ∧ p'.state = p.state ∧ p'.chead = p.chead ∧
      (p.ctail + 1 = qcCqDepth ctx → p'.ctail = 0 ∧ p'.cphase = !p.cphase) ∧
      (p.ctail + 1 ≠ qcCqDepth ctx → p'.ctail = p.ctail + 1 ∧ p'.cphase = p.cphase))) ∧
  (∀ (s : State) (q : Nat), q < 8192 →
    (s.pair q = none → exec (.coalesceTimeout q) s = .next (s.seal s)) ∧
    (∀ p, s.pair q = some p →
      let due := p.unsent ≠ 0 ∧ qcCoalTime p.ctx ≠ 0 ∧ qcIen p.ctx = true
      (¬due → exec (.coalesceTimeout q) s = .next (s.seal s)) ∧
      (due → exec (.coalesceTimeout q) s = .next (s.seal
        (((s.atTime (p.firstAt + 1000 * qcCoalTime p.ctx)).setPair q (some { p with unsent := 0 })).msix (s.pairFn q)
          (qcVector p.ctx)))))) ∧
  (∀ (s : State) (tag : Nat), tag < 8448 →
    let u := s.regrant
    let waits (c : Cmd) := c.stage = .waiting ∧ c.done = none
    (u.cmd tag = none → exec (.clampGrant tag) s = .next (s.seal u)) ∧
    (∀ c, u.cmd tag = some c →
      (waits c → (∀ r ∈ c.clamps, r.granted = true) → ¬(c.op = 0x46 ∧ u.publishWaits c = true) → exec (.clampGrant tag) s = .next (s.seal (u.passCmd tag))) ∧
      (¬(waits c ∧ (∀ r ∈ c.clamps, r.granted = true) ∧ ¬(c.op = 0x46 ∧ u.publishWaits c = true)) → exec (.clampGrant tag) s = .next (s.seal u))) ∧
    (s.cmd tag = none → exec (.clampTimeout tag) s = .next (s.seal s)) ∧
    (∀ c, s.cmd tag = some c →
      (waits c → (∃ r ∈ c.clamps, r.granted = false) → exec (.clampTimeout tag) s = .next (s.seal
        (State.cancel { s.atTime c.due with clampTimeouts := min ((s.atTime c.due).clampTimeouts + 1) 0xFFFFFFFF } tag St.clampTimeout))) ∧
      (¬(waits c ∧ ∃ r ∈ c.clamps, r.granted = false) → exec (.clampTimeout tag) s = .next (s.seal s)))) ∧
  (∀ (s : State) (tag q ch : Nat) (c : Cmd), tag < 8448 →
    let times (u : State) := exec (.hostCompletionTimeout (.command tag)) s = .next (s.seal u)
    (s.cmd tag = none → times s) ∧
    (s.cmd tag = some c →
      (c.op = 0x07 → times (s.fwDownload tag .denied)) ∧ (c.op = 0x41 → times (s.loadCmd tag .denied [] none)) ∧
      (c.op = 0x42 → times (s.patchCmd tag .denied [] none)) ∧ (c.op = 0x44 → times (s.runTake tag .denied none)) ∧
      (c.op = 0x45 → times (s.install tag .denied 0)) ∧ (c.op ∉ [0x07, 0x41, 0x42, 0x44, 0x45] → times s)) ∧
    (q < 8192 → exec (.hostCompletionTimeout (.fetch q tag)) s = .next (s.seal (s.fetchSq q .denied .denied false tag))) ∧
    (ch < 64 → FMap.getD s.dmaReg ch = none → exec (.hostCompletionTimeout (.dma ch)) s = .next (s.seal (s.dmaRun bus ch [.denied]))) ∧
    (ch < 64 → FMap.getD s.dmaReg ch ≠ none → exec (.hostCompletionTimeout (.dma ch)) s = .next (s.seal (s.dmaRegRun bus ch .denied))))

/-- The admin commands (R261 to R265, R275, R487). Where the spec leaves a point open, the model's
choice: log entries 45, 46, 85, 118, 124. -/
def Obligations.AdminCommandsAnswer : Prop :=
  (∀ (s : State) (tag : Nat) (d : HostRead) (b : Bool) (w : BitVec 16), tag < 8448 →
    (s.running? tag 0x01 = none → exec (.identify tag) s = .next (s.seal s)) ∧
    (s.running? tag 0x02 = none → exec (.getLog tag) s = .next (s.seal s)) ∧
    (s.running? tag 0x03 = none → exec (.setFeature tag) s = .next (s.seal s)) ∧
    (s.running? tag 0x04 = none → exec (.getFeature tag) s = .next (s.seal s)) ∧
    (s.running? tag 0x05 = none → exec (.createQp tag) s = .next (s.seal s)) ∧
    (s.running? tag 0x06 = none → exec (.deleteQp tag) s = .next (s.seal s)) ∧
    (s.running? tag 0x07 = none → exec (.fwDownload tag d) s = .next (s.seal s)) ∧
    (s.running? tag 0x08 = none → exec (.fwCommit tag w) s = .next (s.seal s)) ∧
    (s.running? tag 0x08 = none → s.boot.live = none → exec (.liveFirmwareUpdate tag b w) s = .next (s.seal s)) ∧
    (s.running? tag 0x09 = none → exec (.abort tag) s = .next (s.seal s)) ∧
    (s.running? tag 0x0A = none → exec (.tileService tag) s = .next (s.seal s))) ∧
  (∀ (s : State) (tag : Nat) (c : Cmd), tag < 8448 →
    let gives (u : State) (b : List Byte) := exec (.identify tag) s = .next (s.seal ((u.hostPut c c.ptr b false).complete tag St.ok 0))
    let cns := bits c.flags 7 0
    let q := c.arg 0x20 2
    (s.running? tag 0x01 = some c →
      (cns = 0 → gives (s.identDevice c.fn).2 (s.identDevice c.fn).1) ∧
      (cns = 1 → s.pair q = none → exec (.identify tag) s = .next (s.seal (s.complete tag St.invalidField 0))) ∧
      (∀ p a u, cns = 1 → s.pair q = some p → s.readMem Mid.qe (s.ctxDpa q) 64 = (a, u) → a.status = St.ok → a.poison = false →
        gives u (layout 4096 [(0, a.data), (0x40, natLE 4 (2 ^ 30 * p.state + p.clampMs))])) ∧
      (∀ p a u, cns = 1 → s.pair q = some p → s.readMem Mid.qe (s.ctxDpa q) 64 = (a, u) → a.status ≠ St.ok ∨ a.poison = true →
        exec (.identify tag) s = .next (s.seal (if a.status = St.held then s
          else u.complete tag (if a.status = St.ok then St.poisonedData else a.status) 0))) ∧
      (cns = 2 → gives s (s.identSpace (c.arg 0x20 1))) ∧ (3 ≤ cns → gives s s.identFabric)) ∧
    (s.running? tag 0x02 = some c → exec (.getLog tag) s = .next (s.seal ((s.hostPut c c.ptr
      (subBytes (s.logBytes (bits c.flags 7 0)) (c.arg 0x20 4) (c.arg 0x24 4)) false).complete tag St.ok 0)))) ∧
  (∀ (s : State) (tag : Nat) (c : Cmd), tag < 8448 → s.running? tag 0x03 = some c →
    let fid := c.flags % 65536
    let sel := c.arg 0x28 4
    let v := c.arg 0x20 8
    let sets (u : State) := exec (.setFeature tag) s = .next (s.seal (u.complete tag St.ok 0))
    let bad := exec (.setFeature tag) s = .next (s.seal (s.complete tag St.invalidField 0))
    let others := ((s.quotas.filter (fun e => e.1 ≠ sel)).map (·.2)).foldl (· + ·) 0
    (c.fn ≠ 0 → 1 ≤ fid → fid ≤ 4 → bad) ∧ (fid = 0 ∨ 7 ≤ fid → bad) ∧
    (fid = 1 → c.fn = 0 → sel = 0 ∧ v < 65536 → sets { s with retain := v }) ∧ (fid = 1 → c.fn = 0 → ¬(sel = 0 ∧ v < 65536) → bad) ∧
    (fid = 2 → c.fn = 0 → sel < 128 ∧ v < 8192 ∧ others + v ≤ 8064 ∧ s.pairsHeld sel ≤ v → sets { s with quotas := FMap.setD s.quotas sel v }) ∧
    (fid = 2 → c.fn = 0 → ¬(sel < 128 ∧ v < 8192 ∧ others + v ≤ 8064 ∧ s.pairsHeld sel ≤ v) → bad) ∧
    (fid = 3 → c.fn = 0 → sel = 0 ∧ v < 2 ^ 32 → sets (s.wr Reg.QE_ARB_WEIGHT (BitVec.ofNat 32 v))) ∧
    (fid = 3 → c.fn = 0 → ¬(sel = 0 ∧ v < 2 ^ 32) → bad) ∧
    (fid = 4 → c.fn = 0 → 256 ≤ sel ∨ 4 ≤ v → bad) ∧
    (fid = 4 → c.fn = 0 → sel < 256 → v < 4 → FMap.getD s.spaces sel = none →
      sets (if v % 2 = 1 then { s with spaces := FMap.setD s.spaces sel (some ⟨decide (v = 3), false⟩) } else s)) ∧
    (∀ sp, fid = 4 → c.fn = 0 → sel < 256 → v < 4 → FMap.getD s.spaces sel = some sp →
      (v % 2 = 1 → sp.mirrored = decide (v = 3) → sets s) ∧ (v % 2 = 1 → sp.mirrored ≠ decide (v = 3) → bad) ∧
      (v % 2 = 0 → (s.tablesOf sel).any (fun e => s.floor < e.2.drop) = true → bad) ∧
      (v % 2 = 0 → (s.tablesOf sel).any (fun e => s.floor < e.2.drop) = false → sets { s with spaces := FMap.setD s.spaces sel none })) ∧
    (∀ p, fid = 6 → s.ownsIo c.fn sel = true → v < 65536 → s.pair sel = some p →
      sets (s.setPair sel (some { p with clampMs := if v = 0 then 1000 else v }))) ∧
    (∀ st u, fid = 5 → s.ownsIo c.fn sel = true → v < 65536 → s.setCoal sel (v / 256) (v % 256) = (st, u) → st ≠ St.held →
      exec (.setFeature tag) s = .next (s.seal (u.complete tag st 0))) ∧
    (∀ u, fid = 5 → s.ownsIo c.fn sel = true → v < 65536 → s.setCoal sel (v / 256) (v % 256) = (St.held, u) →
      exec (.setFeature tag) s = .next (s.seal s)) ∧
    (fid = 5 ∨ fid = 6 → s.ownsIo c.fn sel = false ∨ 65536 ≤ v → bad)) ∧
  (∀ (s : State) (tag : Nat) (c : Cmd), tag < 8448 → s.running? tag 0x04 = some c →
    let v := s.featureGet c.fn (c.flags % 65536) (c.arg 0x28 4)
    (∀ x, v = some x → exec (.getFeature tag) s = .next (s.seal (s.complete tag St.ok x))) ∧
    (v = none → exec (.getFeature tag) s = .next (s.seal (s.complete tag St.invalidField 0))) ∧
    (c.flags % 65536 = 1 → c.fn = 0 → c.arg 0x28 4 = 0 → v = some s.retain)) ∧
  (∀ (s : State) (tag : Nat) (c : Cmd), tag < 8448 → s.running? tag 0x05 = some c →
    let d := c.arg 0x30 4
    let ms := bits c.flags 15 0
    let owner := setBits (setBits c.fn 31 24 (bits c.flags 31 24)) 23 16 (bits c.flags 23 16)
    let ctx := qcBytes c.ptr (c.arg 0x20 8) (bits d 15 0) (bits d 31 16) (c.arg 0x38 4) owner
    let full := exec (.createQp tag) s = .next (s.seal (s.complete tag St.tableFull 0))
    (FMap.getD s.quotas c.fn ≤ s.pairsHeld c.fn → full) ∧
    ((∀ q, 128 ≤ q → q < 8192 → (s.pair q).isSome = true) → full) ∧
    (∀ q st u, s.pairsHeld c.fn < FMap.getD s.quotas c.fn → 128 ≤ q → q < 8192 → s.pair q = none →
      (∀ k, 128 ≤ k → k < q → (s.pair k).isSome = true) → s.makePair q ctx (if ms = 0 then 1000 else ms) = (st, u) →
      (st = St.ok → exec (.createQp tag) s = .next (s.seal (u.complete tag St.ok q)) ∧
        u.pair q = some (Pair.fresh ctx (if ms = 0 then 1000 else ms))) ∧
      (st ≠ St.ok → st ≠ St.held → exec (.createQp tag) s = .next (s.seal (u.complete tag st 0))))) ∧
  (∀ (s : State) (tag : Nat) (c : Cmd) (d : HostRead) (w : BitVec 16), tag < 8448 →
    let loads (u : State) := exec (.fwDownload tag d) s = .next (s.seal u)
    let commits (u : State) := exec (.fwCommit tag w) s = .next (s.seal u)
    (s.running? tag 0x06 = some c → c.stage = .passed →
      (s.pair (c.arg 0x20 2) = none → exec (.deleteQp tag) s = .next (s.seal (s.complete tag St.ok 0))) ∧
      (s.pair (c.arg 0x20 2) ≠ none →
        exec (.deleteQp tag) s = .next (s.seal ((s.setStage tag .committed).deletePair (c.arg 0x20 2))))) ∧
    (s.running? tag 0x07 = some c →
      (d = .denied → loads ((s.aer c.fn .readRefused).complete tag St.accessDenied 0)) ∧ (d = .poisoned → loads ((s.aer c.fn .readPoisoned).complete tag St.poisonedData 0)) ∧
      (∀ b, d = .data b → b.length = c.len → loads (State.complete { s with boot :=
        { s.boot with buf := FMap.store (fun _ => 0) s.boot.buf (c.arg 0x20 4) b,
                      ranges := (c.arg 0x20 4, c.arg 0x20 4 + b.length) :: s.boot.ranges } } tag St.ok 0))) ∧
    (s.running? tag 0x08 = some c → bits c.flags 7 4 < 3 →
      let action := bits c.flags 7 4
      let slot := c.flags % 16
      let st := s.fwCommitCheck action slot (c.arg 0x20 4)
      (st ≠ St.ok → commits (s.complete tag st 0)) ∧
      (st = St.ok →
        let b := s.boot.writeSlot slot (c.arg 0x20 4) w.toNat
        (action ≠ 2 → w.toNat ≠ St.ok → commits (State.complete { s with boot := b } tag w.toNat 0)) ∧
        (action = 0 → w.toNat = St.ok → commits (State.complete { s with boot := b } tag St.ok 0)) ∧
        (action = 1 → w.toNat = St.ok →
          commits (State.complete { s with boot := { b with waiting := slot, trials := 0, gen := b.gen + 1 } } tag St.ok 1)) ∧
        (action = 2 → commits (State.complete { s with boot := { s.boot with waiting := slot, trials := 0, gen := s.boot.gen + 1 } }
          tag St.ok 1)) ∧
        (slot = 1 ∨ slot = 2)))) ∧
  (∀ (s : State) (tag : Nat) (taken : Bool) (w : BitVec 16) (c : Cmd), tag < 8448 →
    let runs (u : State) := exec (.liveFirmwareUpdate tag taken w) s = .next (s.seal u)
    let slot := c.flags % 16
    let st := s.fwCommitCheck 3 slot (c.arg 0x20 4)
    (s.boot.live = none → s.running? tag 0x08 = some c → bits c.flags 7 4 = 3 → c.stage ≠ .committed →
      (st ≠ St.ok → runs (s.complete tag st 0)) ∧
      (st = St.ok →
        let b := s.boot.writeSlot slot (c.arg 0x20 4) w.toNat
        (w.toNat ≠ St.ok → runs (State.complete { s with boot := b } tag w.toNat 0)) ∧
        (w.toNat = St.ok → runs (State.setStage
          { s with fetchHold := true, boot := { b with live := some ⟨tag, slot, s.time.toNat, 0⟩ } } tag .committed)))) ∧
    (∀ u, s.boot.live = some u →
      (u.tag ≠ tag → runs s) ∧
      (u.tag = tag →
        (u.phase = 0 → s.othersInFlight tag = true → runs (s.atTime (u.start + 1000000000)).endUncommitted) ∧
        (u.phase = 0 → s.othersInFlight tag = false →
          let v : State := { s with boot := { s.boot with live := some { u with phase := 1 } } }
          (v.pltState = 1 → runs (State.etchGo { v with plate := { v.plate with freeze := v.published } } 0x140)) ∧
          (v.pltState ≠ 1 → runs v)) ∧
        (u.phase = 1 → s.pltState = 4 → runs s) ∧ (u.phase = 1 → s.pltState ≠ 4 → runs (s.liveStart u)) ∧
        (u.phase = 2 → taken = false → runs s) ∧
        (u.phase = 2 → taken = true →
          let x := (s.setFld Reg.PLT_CTL 1 0 (if s.plate.regions.isEmpty then 0 else 3)).setFld Reg.PLT_STATUS 31 29
            (bit01 (!s.plate.regions.isEmpty))
          let v := x.bootOk 0x140 1
          runs (State.complete { v with fetchHold := false, boot := { v.boot with live := none } } tag St.ok 0))))) ∧
  (∀ (s : State) (tag : Nat) (c : Cmd), tag < 8448 → s.running? tag 0x09 = some c →
    let q := c.arg 0x22 2
    let named (e : Nat × Option Cmd) : Option (Nat × Cmd) :=
      e.2.bind (fun d => if d.pair = q && d.cid = c.arg 0x20 2 then some (e.1, d) else none)
    let hits := s.cmds.filterMap named
    (hits = [] → exec (.abort tag) s = .next (s.seal (s.complete tag St.ok 0))) ∧
    (∀ t d, (t, d) ∈ hits → (∀ x ∈ hits, x ≠ (t, d) → d.order < x.2.order) →
      let may := c.flags = 0 ∧ c.noData = true ∧ c.spare [(0x20, 4)] = true ∧ q < 8192 ∧ c.cid ≠ 0xFFFF ∧
        (s.pair q).isSome = true ∧ s.pairFn q = c.fn ∧ s.canAbort t d = true
      (¬may → exec (.abort tag) s = .next (s.seal (s.complete tag St.ok 0))) ∧
      (∀ e, may → (s.cancel t St.aborted).cmd tag = some e →
        exec (.abort tag) s = .next (s.seal (((s.cancel t St.aborted).setCmd tag (some { e with after := some d.order })).complete tag St.ok 1))))) ∧
  (∀ (s : State) (tag : Nat) (c : Cmd), tag < 8448 → s.running? tag 0x0A = some c →
    let t := c.arg 0x20 1
    let runs (u : State) := exec (.tileService tag) s = .next (s.seal u)
    let bad := (if s.mapRole = some false then 128 else 64) ≤ t ∨ s.pairRetired t = true
    let off (b : Nat) : State := { s with offline := setBits s.offline t t b }
    let kept : State := if c.stage = .staged then s else (off 1).setStage tag .staged
    (bad → runs (s.complete tag St.invalidField 0)) ∧
    (¬bad → 64 ≤ t → s.role = none → runs (s.complete tag St.halfLost 0)) ∧
    (¬bad → t < 64 ∨ s.role ≠ none → c.flags.testBit 0 = true → runs ((off 0).complete tag St.ok (off 0).tilesInService.length)) ∧
    (¬bad → t < 64 ∨ s.role ≠ none → c.flags.testBit 0 = false →
      (kept.tileHeld t = true → runs kept) ∧
      (kept.tileHeld t = false → runs (kept.complete tag St.ok kept.tilesInService.length))))

/-- The data commands (R54 to R71, R267 to R274, R486). Where the spec leaves a point open, the model's
choice: log entries 40, 41, 42, 43, 44, 95, 118, 119. -/
def Obligations.DataCommandsStagePublishAndAnswer : Prop :=
  (∀ (s : State) (tag : Nat) (dir : HostRead) (cols : List HostRead) (room : Option Room), tag < 8448 →
    let loads (u : State) := exec (.load tag dir cols room) s = .next (s.seal u)
    let patches (u : State) := exec (.patch tag dir cols room) s = .next (s.seal u)
    let phase (u : State) := exec (.loadPublishPhase tag) s = .next (s.seal u)
    ((∀ c, s.running? tag 0x41 = some c → c.stage ≠ .passed) → loads s) ∧
    ((∀ c, s.running? tag 0x42 = some c → c.stage ≠ .passed) → patches s) ∧
    (∀ c, s.running? tag 0x41 = some c → c.stage = .passed →
      (s.table (c.arg 0x20 3) = none → loads (s.complete tag St.invalidField 0)) ∧
      (∀ t, s.table (c.arg 0x20 3) = some t →
        let made := c.flags.testBit 0
        let r := s.columnsIn made t.fmts (c.arg 0x30 2) c.count dir cols
        (∀ e, r = .error e → loads ((s.aerStatus c.fn e).complete tag e 0)) ∧
        (∀ fs ds, r = .ok (fs, ds) → loads (s.stageRun tag c (if made then { t with fmts := fs } else t) made ds room)))) ∧
    (∀ c, s.running? tag 0x42 = some c → c.stage = .passed →
      (s.table (c.arg 0x20 3) = none → patches (s.complete tag St.invalidField 0)) ∧
      (∀ t, s.table (c.arg 0x20 3) = some t →
        let twice := ∃ r ∈ patchDeletes c t, t.delOf r ≠ never
        let r := s.columnsIn false t.fmts (c.arg 0x30 2) c.count dir cols
        (c.flags.testBit 0 = true → t.drop = never → patches (s.setStage tag .staged)) ∧
        (c.flags.testBit 0 = true → t.drop ≠ never → patches (s.complete tag St.invalidField 0)) ∧
        (c.flags.testBit 0 = false → twice → patches (s.complete tag St.invalidField 0)) ∧
        (c.flags.testBit 0 = false → ¬twice →
          (c.count = 0 → patches (s.stageRun tag c t false [] room)) ∧
          (c.count ≠ 0 → (∀ e, r = .error e → patches ((s.aerStatus c.fn e).complete tag e 0)) ∧
            (∀ fs ds, r = .ok (fs, ds) → patches (s.stageRun tag c t false ds room)))))) ∧
    (∀ c, s.cmd tag = some c →
      let staged := (c.op = 0x41 ∨ c.op = 0x42) ∧ c.stage = .staged ∧ c.done = none
      let u := s.setStage tag .committed
      let w := c.arg 0x28 8
      (¬staged ∨ s.catalogHeld = true → phase s) ∧
      (staged → s.catalogHeld = false → s.table (c.arg 0x20 3) = none → phase (s.complete tag St.invalidField 0)) ∧
      (∀ t, staged → s.catalogHeld = false → s.table (c.arg 0x20 3) = some t →
        (c.op = 0x41 → phase ((u.publishRows (c.arg 0x20 3) (if c.flags.testBit 0 then { t with create := w } else t) w c.first c.count [] c.room false).complete
          tag St.ok c.first)) ∧
        (c.op = 0x42 → c.flags.testBit 0 = true → phase ((u.changeTable (c.arg 0x20 3) { t with drop := w }).complete tag St.ok 0xFFFFFFFFFFFF)) ∧
        (c.op = 0x42 → c.flags.testBit 0 = false → phase ((u.publishRows (c.arg 0x20 3) t w c.first c.count (patchDeletes c t) c.room false).complete
          tag St.ok (if c.count = 0 then 0xFFFFFFFFFFFF else c.first)))))) ∧
  (∀ (s : State) (made : Bool) (old : List Nat) (n rows : Nat) (dir : HostRead) (cols : List HostRead),
    let r := s.columnsIn made old n rows dir cols
    (dir = .denied → r = .error St.accessDenied) ∧ (dir = .poisoned → r = .error St.poisonedData) ∧
    (∀ b, dir = .data b → b.length < 16 * n → r = .error St.lengthMismatch) ∧
    (∀ b, dir = .data b → 16 * n ≤ b.length →
      let fs := (List.range n).map (fun i => fieldLE b (16 * i + 12) 4)
      let good := if made then (fs.zipIdx.all (fun p => fmtOk s.rev21 n p.2 p.1)) = true else fs = old
      let sized := ∀ p ∈ fs.zipIdx, fieldLE b (16 * p.2 + 8) 4 = colBytes p.1 rows
      (¬good → r = .error St.invalidField) ∧ (good → ¬sized → r = .error St.lengthMismatch) ∧
      (∀ e, good → sized → readCols rows fs cols = .error e → r = .error e) ∧
      (∀ ds, good → sized → readCols rows fs cols = .ok ds → r = .ok (fs, ds)))) ∧
  (∀ (s : State) (tag : Nat) (c : Cmd) (t : Table) (made : Bool) (ds : List ColData) (room : Option Room),
    let r := s.stageRun tag c t made ds room
    (room = none → c.count ≠ 0 ∨ made = true → r = s.complete tag St.tableFull 0) ∧
    (∀ m, (room = some m ∧ (c.count ≠ 0 ∨ made = true)) ∨ (m = ⟨0, 0, 0⟩ ∧ c.count = 0 ∧ made = false) →
      let t' := if made then { t with at' := m.catalog } else t
      (roomAligned m = false → r = s) ∧
      (roomAligned m = true → s.roomMirrored t' m c.first c.count = false → r = s.complete tag St.tableFull 0) ∧
      (roomAligned m = true → s.roomMirrored t' m c.first c.count = true → s.plateOf (c.arg 0x20 3) t' = true → s.overPlate (t'.growth c.first c.count) = true → r = s.complete tag St.tableFull 0) ∧
      (∀ st u, roomAligned m = true → s.roomMirrored t' m c.first c.count = true → s.plateOf (c.arg 0x20 3) t' = false ∨ s.overPlate (t'.growth c.first c.count) = false →
        s.stageRows m (c.arg 0x20 3) t' c.first c.count ds = (st, u) →
        (st = St.held → r = s) ∧ (st ≠ St.held → st ≠ St.ok → r = u.complete tag st 0) ∧
        (st = St.ok → r = u.setCmd tag (some { c with stage := .staged, room := if made then m.catalog + 64 else m.catalog }))))) ∧
  (∀ (s : State) (tag : Nat), tag < 8448 →
    let runs (u : State) := exec (.exportRows tag) s = .next (s.seal u)
    (s.running? tag 0x43 = none → runs s) ∧
    (∀ c, s.running? tag 0x43 = some c → c.snap = none → runs (s.complete tag St.invalidField 0)) ∧
    (∀ c t, s.running? tag 0x43 = some c → c.snap = some t →
      let first := c.arg 0x30 6
      let count := c.arg 0x24 4
      let cols := rangeFrom (bits (c.arg 0x38 4) 11 0) (bits (c.arg 0x38 4) 27 16 + 1)
      let gs := (t.segs.map (·.1)).filter (fun g => first < 65536 * (g + 1) && 65536 * g < first + count)
      let linked := gs.filter (fun g => (t.seg g).any (·.link.isSome))
      (∀ st u, s.checkDescs t cols linked = (st, u) → st ≠ 0 → runs (if st = St.held then s else u.complete tag st 0)) ∧
      (∀ s0 t', s.checkDescs t cols linked = (0, s0) → t' = s0.mapsNow (c.arg 0x20 3) t →
       (∀ st u, s0.exportRows t' c.epoch first count gs = (.error st, u) → runs (if st = St.held then s else u.complete tag st 0)) ∧
       (∀ ps u, s0.exportRows t' c.epoch first count gs = (.ok ps, u) →
        (∀ st v, u.exportCols t' ps cols = (.error st, v) → runs (if st = St.held then s else v.complete tag st 0)) ∧
        (∀ ds v, u.exportCols t' ps cols = (.ok ds, v) →
          let rows := ps.flatMap (fun p => p.2.map (fun r => 65536 * p.1 + r))
          let parts := exportRegions (cols.map (fun k => t'.fmts.getD k 0)) count (if c.flags.testBit 1 then some rows else none) ds
          let w := v.hostPut c c.ptr (natLE 8 rows.length ++ natLE 8 c.epoch ++ List.replicate 48 0) false
          let x := parts.foldl (fun y r => y.hostPut c (c.ptr + r.1) r.2.1 r.2.2) w
          ((∀ d ∈ ds, d.2.2 = false) → runs (x.complete tag St.ok rows.length)) ∧
          ((∃ d ∈ ds, d.2.2 = true) → runs (x.complete tag St.poisonedData 0))))))) ∧
  (∀ (s : State) (tag : Nat) (c : Cmd), tag < 8448 → s.running? tag 0x46 = some c →
    let w := c.arg 0x28 8
    let names (u : State) := exec (.publishEpoch tag) s = .next (s.seal u)
    let commits (u : State) := exec (.publishCommit tag) s = .next (s.seal u)
    let reverses (u : State) := exec (.epochWithdraw tag) s = .next (s.seal u)
    (c.flags.testBit 0 = true →
      names s ∧ commits s ∧
      (s.publishWaits c = true → reverses s) ∧
      (s.publishWaits c = false → w ≤ s.published → reverses (s.complete tag St.invalidField 0)) ∧
      (s.publishWaits c = false → s.published < w →
        (s.writersBefore c w = true ∨ s.catalogHeld = true → reverses s) ∧
        (s.writersBefore c w = false → s.catalogHeld = false →
          reverses (((s.setStage tag .committed).withdraw w).complete tag St.ok s.published)))) ∧
    (c.flags.testBit 0 = false →
      reverses s ∧
      (c.stage = .passed → commits s ∧ (s.publishWaits c = true → names s) ∧
        (s.publishWaits c = false → w ≤ s.published → names (s.complete tag St.invalidField 0)) ∧
        (s.publishWaits c = false → s.published < w → names (s.setStage tag .staged))) ∧
      (c.stage = .staged → names s ∧
        (s.writersBefore c w = true ∨ s.bit Reg.PLT_BANK_STATUS 0 = false ∨ s.catalogHeld = true → commits s) ∧
        (s.writersBefore c w = false → s.bit Reg.PLT_BANK_STATUS 0 = true → s.catalogHeld = false →
          let v := (s.setStage tag .committed).publish w
          (s.role ≠ some false → commits (v.complete tag St.ok w)) ∧
          (s.role = some false → s.freeTag = none → commits s) ∧
          (s.role = some false → ∀ t, s.freeTag = some t → commits (State.openTx
            { v with sent := v.sent ++ [.catalogCopy t v.published v.floor v.catalogNow] } t 16 (.copy tag))))))) ∧
  (∀ (s : State) (x : Tx) (tag st : Nat) (c : Cmd) (data : List Byte) (bad : Bool), x.kind = .copy tag → (s.closeTx x.tag).cmd tag = some c →
    s.endTx bus x st data bad = (s.closeTx x.tag).complete tag st (c.arg 0x28 8)) ∧
  (∀ (s : State) (w : Nat) (id : Nat) (t : Table),
    (s.tables = [] → (s.publish w).published = w ∧ (s.publish w).floor = max s.floor (w - s.retain)) ∧
    (t.create = w → s.withdrawTable w id t = s.setTable id none)) ∧
  (∀ (s : State) (tag : Nat) (c : Cmd), tag < 8448 → s.running? tag 0x47 = some c →
    let marks (u : State) := exec (.plateMark tag) s = .next (s.seal u)
    let mode := bits c.flags 1 0
    let id := c.arg 0x20 3
    let n := c.arg 0x22 1
    (s.catalogHeld = true → marks s) ∧
    (s.catalogHeld = false → c.flags.testBit 2 = true → marks (s.markSpace tag n (decide (mode = 1)))) ∧
    (s.catalogHeld = false → c.flags.testBit 2 = false →
      (s.table id = none → marks (s.complete tag St.invalidField 0)) ∧
      (∀ t, s.table id = some t →
        let t' := { t with plate := if mode = 2 then none else some (decide (mode = 1)) }
        let growth := if s.plateOf id t' && !s.plateOf id t then t.bytesHeld else 0
        (s.overPlate growth = true → marks (s.complete tag St.tableFull 0)) ∧
        (s.overPlate growth = false → marks ((s.changeTable id t').complete tag St.ok 0))))) ∧
  (∀ (s : State) (tag n : Nat) (on : Bool) (sp : Space), FMap.getD s.spaces n = some sp →
    let follow := (s.tablesOf n).filter (fun e => e.2.plate.isNone)
    let growth := if on && !sp.plate then (follow.map (fun e => e.2.bytesHeld)).foldl (· + ·) 0 else 0
    (s.overPlate growth = true → s.markSpace tag n on = s.complete tag St.tableFull 0) ∧
    (s.overPlate growth = false → s.markSpace tag n on =
      (follow.foldl (fun (u : State) e => u.changeTable e.1 e.2) { s with spaces := FMap.setD s.spaces n (some { sp with plate := on }) }).complete
        tag St.ok 0)) ∧
  (∀ (s t : State) (m : Nat) (hi : Bool) (v : Word), m < 4096 →
    let off := if hi then Reg.GLB_TILE_RETIRED_HI else Reg.GLB_TILE_RETIRED_LO
    s.domainGate (.reg off) m (regDpa off) = none → t = s.wakeTile (.reg off) →
    exec (.tileRetire m hi v false) s = .next (s.seal (State.regIn (busAt 65) t m off v).acked)) ∧
  (∀ (s : State) (m : Nat) (hi : Bool) (v : Word), m < 4096 →
    exec (.tileRetire m hi v true) s = .next (s.seal (s.peerRetire (if hi then 2 ^ 32 * v.toNat else v.toNat) s.tileHeld))) ∧
  (∀ (s : State) (m v : Nat) (held : Nat → Bool),
    let clash := ∃ t, t < 64 ∧ v.testBit t = true ∧ s.tileRetired t = false ∧ (s.halted t = false ∨ held t = true)
    (clash → s.tileRetire m v held = s.refuse m Reg.GLB_TILE_RETIRED_LO St.invalidField) ∧
    (¬clash → s.tileRetire m v held = s.wr64 Reg.GLB_TILE_RETIRED_LO (s.rd64 Reg.GLB_TILE_RETIRED_LO ||| v % 2 ^ 64)))

/-- The module's connectors and supplies (R437, R494 to R500). Where the spec leaves a point open, the model's
choice: log entries 69, 91. -/
def Obligations.InsertionSuppliesCablesAndClock : Prop :=
  let lost (s v : State) : Prop :=
    let u : State := { s with steady := { s.steady with switchOn := false, good := false } }
    let f := ((u.setFld Reg.STY_SUPPLY 31 31 1).raise Reg.STY_INT_STATUS 0).setFld Reg.PLT_BANK_STATUS 3 3 0
    (s.bit Reg.STY_SUPPLY 31 = true → v = u) ∧
    (s.bit Reg.STY_SUPPLY 31 = false → f.bit Reg.PLT_CTL 0 = true → f.mode ≠ .dormant → v = f) ∧
    (s.bit Reg.STY_SUPPLY 31 = false → f.bit Reg.PLT_CTL 0 = false ∨ f.mode = .dormant → v = f.goDormant)
  (∀ s : State,
    exec .insertion s = .next (s.seal
      { s with steady := { s.steady with present := true, switchOn := s.steady.switchOn || decide (s.mode = .dormant) } }) ∧
    (∀ b, exec (.shed b) s = .next (s.seal { s with steady := { s.steady with shed := b } })) ∧
    (∀ b, exec (.auxiliaryInputChange b) s = .next (s.seal { s with steady := { s.steady with aux := b } })) ∧
    (s.steady.present = false → exec .removal s = .next (s.seal s)) ∧
    (s.steady.present = true → ∃ v, exec .removal s = .next (s.seal v) ∧ lost { s with steady := { s.steady with present := false } } v) ∧
    (s.steady.switchOn = false → exec .overcurrentCutoff s = .next (s.seal s)) ∧
    (s.steady.switchOn = true → ∃ v, exec .overcurrentCutoff s = .next (s.seal v) ∧ lost s v)) ∧
  (∀ s : State,
    let counts := s.steady.present = true ∧ s.steady.switchOn = true ∧ s.steady.good = false
    let u : State := { s with
      steady := { s.steady with good := true }, plate := { s.plate with testDue := s.time.toNat + 60000000000 } }
    (¬counts → exec .powerGood s = .next (s.seal s)) ∧
    (counts → s.mode = .dormant → exec .powerGood s = .next (s.seal ((u.wake 7).setFld Reg.PLT_BANK_STATUS 1 1 1))) ∧
    (counts → s.mode ≠ .dormant → exec .powerGood s = .next (s.seal (u.setFld Reg.PLT_BANK_STATUS 1 1 1)))) ∧
  (∀ (s : State) (p : Nat) (b : Bool), p < 8 →
    let u : State := { s with steady := { s.steady with cables := setBits s.steady.cables p p (bit01 b) } }
    (s.steady.cables.testBit p = b → exec (.cablePresence p b) s = .next (s.seal s)) ∧
    (s.steady.cables.testBit p = false → b = true → exec (.cablePresence p b) s = .next (s.seal (u.portTry p))) ∧
    (s.steady.cables.testBit p = true → b = false → exec (.cablePresence p b) s = .next (s.seal (u.portLost p)))) ∧
  (∀ (s : State) (b : Bool),
    let u : State := { s with steady := { s.steady with href := b } }
    (s.steady.href = b → exec (.hrefclkChange b) s = .next (s.seal s)) ∧
    (s.steady.href = false → b = true → exec (.hrefclkChange b) s = .next (s.seal ((List.range 8).foldl (fun v p => v.portTry p) u))) ∧
    (s.steady.href = true → b = false → exec (.hrefclkChange b) s = .next (s.seal ((List.range 8).foldl (fun v p => v.portLost p) u)))) ∧
  (∀ (s : State) (p : Nat),
    let may := s.bit Reg.HAT_CTL 0 = true ∧ s.bit (Reg.HAT_PORT_CTL p) 0 = false ∧ s.portState p = 0 ∧ s.portMay p = true
    (may → s.portTry p = s.trainPort p 3 15) ∧ (¬may → s.portTry p = s) ∧
    (s.portState p = 0 ∨ s.portState p = 4 → s.portLost p = s) ∧ (s.portState p ≠ 0 → s.portState p ≠ 4 → s.portLost p = s.portFall p 0))

/-- The management endpoint, the I3C target and the TAP (R503 to R508). The layout of MCTP control messages (log entry 62) and the
I3C codes (log entry 63) are PRESUMED. -/
def Obligations.ManagementMessagesAreAnswered : Prop :=
  let serves (row : List Byte → Instr) (code n : Nat) (f : State → List Byte → VendorAnswer × State) : Prop :=
    ∀ (s : State) (req : List Byte),
      let c := byteAt req 4
      let mine := vendorRequest req = true ∧ (c = code ∨ c = 0 ∨ 7 < c) ∧ s.mgtAnswers = true
      let u := s.mgtTouched
      let tells (v : State) (st : Nat) (d : List Byte) := exec (row req) s = .next (s.seal (v.mctpSend (vendorResponse req st d)))
      let off := u.spineOn = false ∧ (c = 0 ∨ 3 < c)
      let clean := byteAt req 3 / 32 % 4 = 0 ∧ byteAt req 5 = 0 ∧ req.length = 6 + n
      (¬mine → exec (row req) s = .next (s.seal s)) ∧
      (mine → off → tells u St.domainPoweredDown []) ∧
      (mine → ¬off → c = 0 ∨ 7 < c → tells u St.invalidOpcode []) ∧
      (mine → ¬off → c = code → ¬clean → tells u St.invalidField []) ∧
      (mine → ¬off → c = code → clean → ∀ a v, f u req = (a, v) →
        (∀ st d, a = some (st, d) → tells v st d) ∧ (a = none → exec (row req) s = .next (s.seal v)))
  let access (u : State) (o : Nat) (value : Option Word) : VendorAnswer × State :=
    if o % 4 ≠ 0 ∨ 0x1000000 ≤ o then (some (St.invalidField, []), u)
    else
      let r := u.debugAccess o value
      (if r.1.status = St.held then none else some (r.1.status, if value.isSome then [] else r.1.data), r.2)
  serves .mctpStatus 1 0 (fun u _ =>
    (some (St.ok, natLE 1 u.mode.code ++ [0] ++ natLE 4 u.healthWord ++ natLE 4 (u.rd Reg.STY_SUPPLY).toNat), u)) ∧
  serves .sensorRead 2 1 (fun u req =>
    let n := byteAt req 6
    (if u.spineOn = false ∧ 0x10 ≤ n ∧ n < 0x24 then some (St.domainPoweredDown, [])
     else match u.sensor n with
       | some v => some (St.ok, natLE 4 (v % (2 ^ 32 : Int)).toNat)
       | none => some (St.invalidField, []), u)) ∧
  serves .fruRead 3 3 (fun u req => (some (rangeAnswer (fieldLE req 6 2) (byteAt req 8) 2048 Config.fru), u)) ∧
  serves .logRead 4 6 (fun u req =>
    let l := byteAt req 6
    (some (if l = 0 ∨ 6 < l then (St.invalidField, [])
      else rangeAnswer (fieldLE req 7 4) (byteAt req 11) (logSize l) (fun i => (u.logBytes l).getD i 0)), u)) ∧
  serves .regRead 5 4 (fun u req => access u (fieldLE req 6 4) none) ∧
  serves .regWrite 6 8 (fun u req => access u (fieldLE req 6 4) (some (writeWord req 10))) ∧
  (∀ (s : State) (req : List Byte), ∃ t : State, exec (.mctpReset req) s = .next (s.seal t) ∧
    (vendorRequest req = true → byteAt req 4 = 7 → s.spineOn = true → byteAt req 3 / 32 % 4 = 0 → byteAt req 5 = 0 → req.length = 8 →
      let u := s.mgtTouched
      (fieldLE req 6 2 = 0xD1E5 → t = (u.mctpSend (vendorResponse req St.ok [])).orderlyReset 5) ∧
      (fieldLE req 6 2 ≠ 0xD1E5 → t = u.mctpSend (vendorResponse req St.invalidField []))) ∧
    (¬(vendorRequest req = true ∧ byteAt req 4 = 7 ∧ s.spineOn = true ∧ byteAt req 3 / 32 % 4 = 0 ∧ byteAt req 5 = 0 ∧ req.length = 8 ∧
        fieldLE req 6 2 = 0xD1E5) →
      t = s.vendor req 7 2 (fun u => (some (if fieldLE req 6 2 = 0xD1E5 then St.ok else St.invalidField, []), u)))) ∧
  (∀ (off len size : Nat) (get : Nat → Byte),
    (len = 0 → rangeAnswer off len size get = (St.invalidField, [])) ∧
    (56 < len → rangeAnswer off len size get = (St.bufferOverflow, [])) ∧
    (0 < len → len ≤ 56 → size < off + len → rangeAnswer off len size get = (St.invalidField, [])) ∧
    (0 < len → len ≤ 56 → off + len ≤ size → ∃ d, rangeAnswer off len size get = (St.ok, d) ∧ d.length = len ∧
      ∀ i < len, d.getD i 0 = get (off + i))) ∧
  (∀ (s : State) (req : List Byte),
    let mine := byteAt req 0 = 0 ∧ 128 ≤ byteAt req 1 ∧ 3 ≤ req.length ∧ s.mgtAnswers = true
    let u := s.mgtTouched
    let tells (v : State) (code : Nat) (d : List Byte) := exec (.mctpControl req) s = .next (s.seal (v.mctpSend
      ([0, BitVec.ofNat 8 (byteAt req 1 % 32), BitVec.ofNat 8 (byteAt req 2), BitVec.ofNat 8 code] ++ d)))
    (¬mine → exec (.mctpControl req) s = .next (s.seal s)) ∧
    (mine → byteAt req 2 = 1 → req.length = 5 →
      (byteAt req 3 ≤ 1 → 8 ≤ byteAt req 4 → byteAt req 4 ≠ 0xFF →
        tells (u.setFld Reg.MGT_EID 7 0 (byteAt req 4)) 0 [0, BitVec.ofNat 8 (byteAt req 4), 0]) ∧
      (1 < byteAt req 3 ∨ byteAt req 4 < 8 ∨ byteAt req 4 = 0xFF → tells u 2 [])) ∧
    (mine → byteAt req 2 = 2 → req.length = 3 → tells u 0 [BitVec.ofNat 8 (u.fld Reg.MGT_EID 7 0), 0, 0]) ∧
    (mine → byteAt req 2 = 5 → req.length = 3 → tells u 0 [1, 0x7E]) ∧
    (mine → byteAt req 2 = 0 ∨ 6 < byteAt req 2 → tells u 5 [])) ∧
  (∀ (s : State) (ccc : BitVec 8) (d : List Byte),
    let runs (v : State) := exec (.i3cCcc ccc d) s = .next (s.seal v)
    let hears := s.mgtAnswers = true ∧ (s.spineOn = true → s.bit Reg.MGT_CTL 0 = true)
    let u := s.mgtTouched
    let addr (v : State) (a : Nat) : State := if v.bit Reg.MGT_I3C 31 then v else v.wr Reg.MGT_I3C (BitVec.ofNat 32 (2 ^ 31 + a % 128))
    let pid := (natLE 6 (2 ^ 32 * Config.i3cPid.toNat + Config.serial.toNat % 2 ^ 32)).reverse
    (¬hears → runs s) ∧
    (hears →
      (ccc = 0x06 → runs (u.wr Reg.MGT_I3C 0)) ∧ (ccc = 0x87 → runs (addr u (byteAt d 0 / 2))) ∧
      (ccc = 0x07 → runs (if u.bit Reg.MGT_I3C 31 then u else addr (u.cccSend (pid ++ [Config.i3cBcr, Config.i3cDcr])) (byteAt d 0 / 2))) ∧
      (ccc = 0x8D → runs (u.cccSend pid)) ∧ (ccc = 0x8E → runs (u.cccSend [Config.i3cBcr])) ∧ (ccc = 0x8F → runs (u.cccSend [Config.i3cDcr])) ∧
      (ccc = 0x00 ∨ ccc = 0x80 → runs { u with steady := { u.steady with i3cEvents := u.steady.i3cEvents || decide (byteAt d 0 % 2 = 1) } }) ∧
      (ccc = 0x01 ∨ ccc = 0x81 → runs { u with steady := { u.steady with i3cEvents := u.steady.i3cEvents && decide (byteAt d 0 % 2 = 0) } }) ∧
      (ccc = 0x2A ∨ ccc = 0x9A → runs { u with steady := { u.steady with i3cReset := byteAt d 0 } }) ∧
      (ccc = 0x90 → runs ((u.free 16).2.cccSend (natLE 2 (u.free 16).1.toNat))) ∧
      (ccc ∉ [0x00, 0x80, 0x01, 0x81, 0x06, 0x07, 0x87, 0x8D, 0x8E, 0x8F, 0x90, 0x2A, 0x9A] → runs u))) ∧
  (∀ (s : State) (off : Nat) (value : Option Word), off < 0x1000000 →
    let tap (n : Nat) : State := { s with steady := { s.steady with tap := n } }
    let runs (i : JtagInsn) (v : State) := exec (.jtagInstruction i) s = .next (s.seal v)
    runs .tapReset (tap 0) ∧ runs .bypass (tap 1) ∧
    runs .idcode { tap 2 with answer := ⟨St.ok, natLE 4 Config.jtagIdcode.toNat, false, false⟩ } ∧
    (s.mode = .bringUp → runs .boundary (tap 3)) ∧ (s.mode ≠ .bringUp → runs .boundary (tap 1)) ∧
    (off % 4 ≠ 0 → runs (.debug off value) (tap 4)) ∧
    (∀ a v, off % 4 = 0 → (tap 4).debugAccess off value = (a, v) →
      runs (.debug off value) { v with answer := ⟨a.status, a.data, false, a.poison⟩ }))

/-- The grants that reset leaves (R38). -/
def Obligations.ResetGrantsAdmitFirmwarePfAndSteady : Prop :=
  (∀ (t g : Nat), t < 12 → g < 128 →
    State.reset.grantIntact t g = true ∧ FMap.getD State.reset.grantFaulted (128 * t + g) = false ∧
    ((3 ≤ g ∨ (g = 1 ∧ t ∉ [1, 2, 3, 4, 5, 6, 10]) ∨ (g = 2 ∧ t ≠ 10)) → ∀ k < 3, State.reset.rd64 (grantAt t g + 8 * k) = cp32 0)) ∧
  (∀ (t m addr len : Nat) (n : Rights), t < 12 → m < 4096 → 0 < len → addr + len ≤ 2 ^ 48 →
    let firmware := 0x140 ≤ m ∧ m ≤ 0x14F
    let pf := m = 0x000 ∧ n.x = false ∧ t ∈ [1, 2, 3, 4, 5, 6, 10]
    let steady := m = 0x300 ∧ n.x = false ∧ n.a = false ∧ t = 10
    State.reset.newlyBroken t = [] ∧
    (firmware ∨ pf ∨ steady → State.reset.judge t m addr len n = (St.ok, State.reset)) ∧
    (¬(firmware ∨ pf ∨ steady) → (State.reset.judge t m addr len n).1 = St.accessDenied))

/-- What reset leaves (R9, R440, R459); see ResetGrantsAdmitFirmwarePfAndSteady for its grants. Where the spec leaves a point open, the model's
choice: log entry 8. -/
def Obligations.ResetMeetsTheInvariants : Prop :=
  State.reset.guardSeen = true ∧ Memory.wf State.reset = true ∧ State.reset.mem = [] ∧ State.reset.pending = [] ∧
  State.reset.pairs = [] ∧ State.reset.cmds = [] ∧ State.reset.runs = [] ∧ State.reset.tables = [] ∧ State.reset.images = [] ∧
  State.reset.jobs = [] ∧ State.reset.txs = [] ∧ State.reset.mode = .dormant ∧ State.reset.domState 0 = 0 ∧
  (∀ d < 17, 1 ≤ d → State.reset.domState d = 2) ∧ State.reset.time = 0 ∧ (∀ n < 64, State.reset.bit (Reg.TIL_CTL n) 0 = false) ∧
  (∀ c < 144, State.reset.running c = false) ∧ State.reset.fld Reg.STY_WAKE_EN 7 0 = 0xFF

/-- The flat store (R441, R445, R459). What unlisted bytes read as is the model's choice, log entry 2. -/
def Obligations.FlatStoreReadsBackWhatIsPutThere : Prop :=
  (∀ (s : State) (a x : Nat) (bs : List Byte), Memory.wf s = true →
    Memory.wf (s.putBytes a bs) = true ∧ (s.putBytes a bs).bytes a bs.length = bs ∧
    (x < a ∨ a + bs.length ≤ x → (s.putBytes a bs).bytes x 1 = s.bytes x 1)) ∧
  (∀ (s : State) (a b x : Nat), Memory.wf s = true →
    Memory.wf (s.blur a b) = true ∧ (x < a ∨ b ≤ x → (s.blur a b).bytes x 1 = s.bytes x 1) ∧
    (a ≤ x → x < b → (s.blur a b).bytes x 1 = [Config.haze s.fresh x])) ∧
  (∀ (s : State) (a n x : Nat), Memory.wf s = true →
    Memory.wf (s.loseBytes a n) = true ∧ (x < a ∨ a + n ≤ x → (s.loseBytes a n).bytes x 1 = s.bytes x 1) ∧
    (a ≤ x → x < a + n → (s.loseBytes a n).bytes x 1 = [memDefault s.haze x])) ∧
  (∀ (s : State) (x : Nat), Memory.wf s = true →
    Memory.wf s.goDormant = true ∧ (inKeep x = false → s.goDormant.bytes x 1 = [0]) ∧
    (inKeep x = true → s.haze = [] → s.goDormant.bytes x 1 = s.bytes x 1)) ∧
  (∀ (s t : State), Memory.wf s = true → Memory.wf t = true → s.haze = t.haze → (∀ x, s.bytes x 1 = t.bytes x 1) → s.mem = t.mem)
end

