-- ==== Sys2Proof/Laws/Map.lean ====
section
/-! SUPPORT. The laws of sparse maps: a read after a write, and that writing keeps the canonical form. -/

namespace Sys2Proof.Machine

variable {α : Type}

@[simp] theorem FMap.get_nil (d : Nat → α) (k : Nat) : FMap.get d ([] : FMap α) k = d k := rfl

theorem FMap.get_entry (d : Nat → α) (e : Nat × α) (m : FMap α) (k : Nat) :
    FMap.get d (e :: m) k = if e.1 = k then e.2 else FMap.get d m k := rfl

theorem FMap.get_erase_self (d : Nat → α) (m : FMap α) (k : Nat) : FMap.get d (FMap.erase m k) k = d k := by
  induction m with
  | nil => rfl
  | cons e m ih =>
    by_cases h : e.1 = k
    · simpa [FMap.erase, List.filter_cons, h] using ih
    · simp only [FMap.erase, List.filter_cons, bne_iff_ne, ne_eq, h, not_false_eq_true, if_true, FMap.get_entry, if_false]
      exact ih

theorem FMap.get_erase_other (d : Nat → α) (m : FMap α) {k a : Nat} (h : a ≠ k) :
    FMap.get d (FMap.erase m k) a = FMap.get d m a := by
  induction m with
  | nil => rfl
  | cons e m ih =>
    by_cases hk : e.1 = k
    · have hn : ¬ e.1 = a := fun h' => h (h'.symm.trans hk)
      simp only [FMap.erase, List.filter_cons, bne_iff_ne, ne_eq, hk, not_true_eq_false, if_false, FMap.get_entry]
      rw [if_neg (fun h' : k = a => hn (hk.trans h'))]
      exact ih
    · simp only [FMap.erase, List.filter_cons, bne_iff_ne, ne_eq, hk, not_false_eq_true, if_true, FMap.get_entry]
      split
      · rfl
      · exact ih

variable [DecidableEq α]

theorem FMap.get_cons_self (d : Nat → α) (k : Nat) (v : α) (m : FMap α) (h : FMap.get d m k = d k) :
    FMap.get d (FMap.cons d k v m) k = v := by
  unfold FMap.cons
  split
  · next hv => rw [h, hv]
  · simp [FMap.get_entry]

theorem FMap.get_cons_other (d : Nat → α) {k a : Nat} (v : α) (m : FMap α) (h : a ≠ k) :
    FMap.get d (FMap.cons d k v m) a = FMap.get d m a := by
  unfold FMap.cons
  split
  · rfl
  · rw [FMap.get_entry, if_neg (fun h' => h h'.symm)]

/-- A read of the key that was written. -/
@[simp] theorem FMap.get_set_self (d : Nat → α) (m : FMap α) (k : Nat) (v : α) : FMap.get d (FMap.set d m k v) k = v := by
  induction m with
  | nil => exact FMap.get_cons_self d k v [] rfl
  | cons e m ih =>
    obtain ⟨k', v'⟩ := e
    unfold FMap.set
    split
    · next h =>
      apply FMap.get_cons_self
      rw [FMap.get_entry, if_neg (by simp only; omega)]
      exact FMap.get_erase_self d m k
    · split
      · exact FMap.get_cons_self d k v _ (FMap.get_erase_self d m k)
      · next h1 h2 =>
        rw [FMap.get_entry, if_neg (by simp only; omega)]
        exact ih

/-- A read of any other key. -/
theorem FMap.get_set_other (d : Nat → α) (m : FMap α) {k a : Nat} (v : α) (h : a ≠ k) :
    FMap.get d (FMap.set d m k v) a = FMap.get d m a := by
  induction m with
  | nil => exact FMap.get_cons_other d v [] h
  | cons e m ih =>
    obtain ⟨k', v'⟩ := e
    unfold FMap.set
    split
    · rw [FMap.get_cons_other d v _ h, FMap.get_entry, FMap.get_entry, FMap.get_erase_other d m h]
    · split
      · next h1 h2 =>
        rw [FMap.get_cons_other d v _ h, FMap.get_erase_other d m h, FMap.get_entry,
          if_neg (fun h' : k' = a => h (h'.symm.trans h2.symm))]
      · rw [FMap.get_entry, FMap.get_entry, ih]

/-- What key `a` reads as after key `k` took `v`. -/
theorem FMap.get_set (d : Nat → α) (m : FMap α) (k a : Nat) (v : α) :
    FMap.get d (FMap.set d m k v) a = if a = k then v else FMap.get d m a := by
  split
  · next h => subst h; exact FMap.get_set_self d m a v
  · next h => exact FMap.get_set_other d m v h

@[simp] theorem FMap.getD_setD_self [Inhabited α] (m : FMap α) (k : Nat) (v : α) : FMap.getD (FMap.setD m k v) k = v :=
  FMap.get_set_self _ m k v

theorem FMap.getD_setD_other [Inhabited α] (m : FMap α) {k a : Nat} (v : α) (h : a ≠ k) :
    FMap.getD (FMap.setD m k v) a = FMap.getD m a :=
  FMap.get_set_other _ m v h

theorem FMap.wfFrom_mono (d : Nat → α) {b c : Nat} (h : b ≤ c) : ∀ m : FMap α, FMap.wfFrom d c m = true → FMap.wfFrom d b m = true
  | [], _ => rfl
  | (k, v) :: m, hm => by
    simp only [FMap.wfFrom, Bool.and_eq_true, decide_eq_true_eq] at hm ⊢
    exact ⟨⟨by omega, hm.1.2⟩, hm.2⟩

theorem FMap.erase_of_above (d : Nat → α) {k : Nat} : ∀ {b : Nat} (_ : k < b) (m : FMap α), FMap.wfFrom d b m = true → FMap.erase m k = m
  | _, _, [], _ => rfl
  | b, h, (k', v) :: m, hm => by
    simp only [FMap.wfFrom, Bool.and_eq_true, decide_eq_true_eq] at hm
    have hk : k' ≠ k := by omega
    have := FMap.erase_of_above d (show k < k' + 1 by omega) m hm.2
    simp only [FMap.erase, List.filter_cons, bne_iff_ne, ne_eq, hk, not_false_eq_true, if_true] at this ⊢
    rw [this]

theorem FMap.wfFrom_cons (d : Nat → α) {b k : Nat} (v : α) {m : FMap α} (h : b ≤ k) (hm : FMap.wfFrom d (k + 1) m = true) :
    FMap.wfFrom d b (FMap.cons d k v m) = true := by
  unfold FMap.cons
  split
  · exact FMap.wfFrom_mono d (by omega) m hm
  · next hv => simp [FMap.wfFrom, h, hv, hm]

theorem FMap.wfFrom_set (d : Nat → α) {b k : Nat} (v : α) (h : b ≤ k) :
    ∀ m : FMap α, FMap.wfFrom d b m = true → FMap.wfFrom d b (FMap.set d m k v) = true
  | [], _ => FMap.wfFrom_cons d v h rfl
  | (k', v') :: m, hm => by
    have hm0 := hm
    simp only [FMap.wfFrom, Bool.and_eq_true, decide_eq_true_eq] at hm
    unfold FMap.set
    split
    · next hk =>
      apply FMap.wfFrom_cons d v h
      rw [FMap.erase_of_above d (show k < k' + 1 by omega) m hm.2]
      simp only [FMap.wfFrom, Bool.and_eq_true, decide_eq_true_eq]
      exact ⟨⟨by omega, hm.1.2⟩, hm.2⟩
    · split
      · next hk =>
        subst hk
        apply FMap.wfFrom_cons d v h
        rw [FMap.erase_of_above d (Nat.lt_succ_self k) m hm.2]
        exact hm.2
      · next h1 h2 =>
        simp only [FMap.wfFrom, Bool.and_eq_true, decide_eq_true_eq]
        exact ⟨hm.1, FMap.wfFrom_set d v (by omega) m hm.2⟩

/-- A write keeps the canonical form. -/
theorem FMap.wf_set (d : Nat → α) (m : FMap α) (k : Nat) (v : α) (h : FMap.wf d m = true) : FMap.wf d (FMap.set d m k v) = true :=
  FMap.wfFrom_set d v (Nat.zero_le k) m h

/-- A store of bytes keeps the canonical form. -/
theorem FMap.wf_store (d : Nat → Byte) : ∀ (bs : List Byte) (m : FMap Byte) (a : Nat), FMap.wf d m = true →
    FMap.wf d (FMap.store d m a bs) = true
  | [], _, _, h => h
  | b :: bs, m, a, h => FMap.wf_store d bs _ (a + 1) (FMap.wf_set d m a b h)

/-- Leaving entries out keeps the canonical form. -/
theorem FMap.wfFrom_keep (d : Nat → α) (p : Nat → α → Bool) : ∀ (m : FMap α) (b : Nat), FMap.wfFrom d b m = true →
    FMap.wfFrom d b (FMap.keep m p) = true
  | [], _, _ => rfl
  | (k, v) :: m, b, h => by
    simp only [FMap.wfFrom, Bool.and_eq_true, decide_eq_true_eq] at h
    have ih := FMap.wfFrom_keep d p m (k + 1) h.2
    unfold FMap.keep at ih ⊢
    rw [List.filter_cons]
    split
    · simp only [FMap.wfFrom, Bool.and_eq_true, decide_eq_true_eq]
      exact ⟨h.1, ih⟩
    · exact FMap.wfFrom_mono d (by omega) _ ih

/-- A byte stored at `a` and after it: what each address reads as. -/
theorem FMap.get_store (d : Nat → Byte) : ∀ (bs : List Byte) (m : FMap Byte) (a x : Nat),
    FMap.get d (FMap.store d m a bs) x = if a ≤ x ∧ x < a + bs.length then bs.getD (x - a) 0 else FMap.get d m x
  | [], m, a, x => by rw [if_neg (by simp only [List.length_nil]; omega)]; rfl
  | b :: bs, m, a, x => by
    rw [FMap.store, FMap.get_store d bs, FMap.get_set]
    by_cases h1 : a + 1 ≤ x ∧ x < a + 1 + bs.length
    · rw [if_pos h1, if_pos (by simp only [List.length_cons]; omega), show x - a = (x - (a + 1)) + 1 by omega]
      simp
    · rw [if_neg h1]
      by_cases h2 : x = a
      · subst h2; simp
      · rw [if_neg h2, if_neg (by simp only [List.length_cons]; omega)]

end Sys2Proof.Machine
end

