-- ==== Sys2Proof/Laws/State.lean ====
section
/-! SUPPORT. What the updates of the state that every unit shares leave of each field, and the laws of register words and of the
bytes of memory. -/

namespace Sys2Proof.Machine

/-! The fields after `wr`. -/

@[simp] theorem State.wr_regs (s : State) (off : Nat) (v : Word) : (s.wr off v).regs = FMap.set regReset s.regs off v := rfl
@[simp] theorem State.wr_held (s : State) (off : Nat) (v : Word) : (s.wr off v).held = s.held := rfl
@[simp] theorem State.wr_captured (s : State) (off : Nat) (v : Word) : (s.wr off v).captured = s.captured := rfl
@[simp] theorem State.wr_mem (s : State) (off : Nat) (v : Word) : (s.wr off v).mem = s.mem := rfl
@[simp] theorem State.wr_haze (s : State) (off : Nat) (v : Word) : (s.wr off v).haze = s.haze := rfl
@[simp] theorem State.wr_poison (s : State) (off : Nat) (v : Word) : (s.wr off v).poison = s.poison := rfl
@[simp] theorem State.wr_poisonFrom (s : State) (off : Nat) (v : Word) : (s.wr off v).poisonFrom = s.poisonFrom := rfl
@[simp] theorem State.wr_array (s : State) (off : Nat) (v : Word) : (s.wr off v).array = s.array := rfl
@[simp] theorem State.wr_switchWaits (s : State) (off : Nat) (v : Word) : (s.wr off v).switchWaits = s.switchWaits := rfl
@[simp] theorem State.wr_retireWaits (s : State) (off : Nat) (v : Word) : (s.wr off v).retireWaits = s.retireWaits := rfl
@[simp] theorem State.wr_mcWaiting (s : State) (off : Nat) (v : Word) : (s.wr off v).mcWaiting = s.mcWaiting := rfl
@[simp] theorem State.wr_cores (s : State) (off : Nat) (v : Word) : (s.wr off v).cores = s.cores := rfl
@[simp] theorem State.wr_slices (s : State) (off : Nat) (v : Word) : (s.wr off v).slices = s.slices := rfl
@[simp] theorem State.wr_writeBacks (s : State) (off : Nat) (v : Word) : (s.wr off v).writeBacks = s.writeBacks := rfl
@[simp] theorem State.wr_scInv (s : State) (off : Nat) (v : Word) : (s.wr off v).scInv = s.scInv := rfl
@[simp] theorem State.wr_l1Inv (s : State) (off : Nat) (v : Word) : (s.wr off v).l1Inv = s.l1Inv := rfl
@[simp] theorem State.wr_meshRetx (s : State) (off : Nat) (v : Word) : (s.wr off v).meshRetx = s.meshRetx := rfl
@[simp] theorem State.wr_meshFroze (s : State) (off : Nat) (v : Word) : (s.wr off v).meshFroze = s.meshFroze := rfl
@[simp] theorem State.wr_grantFaulted (s : State) (off : Nat) (v : Word) : (s.wr off v).grantFaulted = s.grantFaulted := rfl
@[simp] theorem State.wr_guardRaised (s : State) (off : Nat) (v : Word) : (s.wr off v).guardRaised = s.guardRaised := rfl
@[simp] theorem State.wr_far (s : State) (off : Nat) (v : Word) : (s.wr off v).far = s.far := rfl
@[simp] theorem State.wr_noc (s : State) (off : Nat) (v : Word) : (s.wr off v).noc = s.noc := rfl
@[simp] theorem State.wr_inbound (s : State) (off : Nat) (v : Word) : (s.wr off v).inbound = s.inbound := rfl
@[simp] theorem State.wr_txs (s : State) (off : Nat) (v : Word) : (s.wr off v).txs = s.txs := rfl
@[simp] theorem State.wr_txDead (s : State) (off : Nat) (v : Word) : (s.wr off v).txDead = s.txDead := rfl
@[simp] theorem State.wr_portQueue (s : State) (off : Nat) (v : Word) : (s.wr off v).portQueue = s.portQueue := rfl
@[simp] theorem State.wr_hat (s : State) (off : Nat) (v : Word) : (s.wr off v).hat = s.hat := rfl
@[simp] theorem State.wr_members (s : State) (off : Nat) (v : Word) : (s.wr off v).members = s.members := rfl
@[simp] theorem State.wr_gauge (s : State) (off : Nat) (v : Word) : (s.wr off v).gauge = s.gauge := rfl
@[simp] theorem State.wr_gaugeScrub (s : State) (off : Nat) (v : Word) : (s.wr off v).gaugeScrub = s.gaugeScrub := rfl
@[simp] theorem State.wr_gaugeRepairs (s : State) (off : Nat) (v : Word) : (s.wr off v).gaugeRepairs = s.gaugeRepairs := rfl
@[simp] theorem State.wr_gaugeLast (s : State) (off : Nat) (v : Word) : (s.wr off v).gaugeLast = s.gaugeLast := rfl
@[simp] theorem State.wr_gaugeWaits (s : State) (off : Nat) (v : Word) : (s.wr off v).gaugeWaits = s.gaugeWaits := rfl
@[simp] theorem State.wr_gaugeQueue (s : State) (off : Nat) (v : Word) : (s.wr off v).gaugeQueue = s.gaugeQueue := rfl
@[simp] theorem State.wr_gaugeDone (s : State) (off : Nat) (v : Word) : (s.wr off v).gaugeDone = s.gaugeDone := rfl
@[simp] theorem State.wr_rings (s : State) (off : Nat) (v : Word) : (s.wr off v).rings = s.rings := rfl
@[simp] theorem State.wr_ringNext (s : State) (off : Nat) (v : Word) : (s.wr off v).ringNext = s.ringNext := rfl
@[simp] theorem State.wr_jobs (s : State) (off : Nat) (v : Word) : (s.wr off v).jobs = s.jobs := rfl
@[simp] theorem State.wr_dmaTop (s : State) (off : Nat) (v : Word) : (s.wr off v).dmaTop = s.dmaTop := rfl
@[simp] theorem State.wr_dmaLast (s : State) (off : Nat) (v : Word) : (s.wr off v).dmaLast = s.dmaLast := rfl
@[simp] theorem State.wr_dmaStalled (s : State) (off : Nat) (v : Word) : (s.wr off v).dmaStalled = s.dmaStalled := rfl
@[simp] theorem State.wr_dmaReg (s : State) (off : Nat) (v : Word) : (s.wr off v).dmaReg = s.dmaReg := rfl
@[simp] theorem State.wr_timerDue (s : State) (off : Nat) (v : Word) : (s.wr off v).timerDue = s.timerDue := rfl
@[simp] theorem State.wr_stpFails (s : State) (off : Nat) (v : Word) : (s.wr off v).stpFails = s.stpFails := rfl
@[simp] theorem State.wr_stpRetire (s : State) (off : Nat) (v : Word) : (s.wr off v).stpRetire = s.stpRetire := rfl
@[simp] theorem State.wr_stpMade (s : State) (off : Nat) (v : Word) : (s.wr off v).stpMade = s.stpMade := rfl
@[simp] theorem State.wr_slots (s : State) (off : Nat) (v : Word) : (s.wr off v).slots = s.slots := rfl
@[simp] theorem State.wr_prfTurn (s : State) (off : Nat) (v : Word) : (s.wr off v).prfTurn = s.prfTurn := rfl
@[simp] theorem State.wr_prfUsed (s : State) (off : Nat) (v : Word) : (s.wr off v).prfUsed = s.prfUsed := rfl
@[simp] theorem State.wr_waiters (s : State) (off : Nat) (v : Word) : (s.wr off v).waiters = s.waiters := rfl
@[simp] theorem State.wr_waitOrder (s : State) (off : Nat) (v : Word) : (s.wr off v).waitOrder = s.waitOrder := rfl
@[simp] theorem State.wr_ready (s : State) (off : Nat) (v : Word) : (s.wr off v).ready = s.ready := rfl
@[simp] theorem State.wr_headSlots (s : State) (off : Nat) (v : Word) : (s.wr off v).headSlots = s.headSlots := rfl
@[simp] theorem State.wr_slotWaits (s : State) (off : Nat) (v : Word) : (s.wr off v).slotWaits = s.slotWaits := rfl
@[simp] theorem State.wr_prioSet (s : State) (off : Nat) (v : Word) : (s.wr off v).prioSet = s.prioSet := rfl
@[simp] theorem State.wr_placements (s : State) (off : Nat) (v : Word) : (s.wr off v).placements = s.placements := rfl
@[simp] theorem State.wr_time (s : State) (off : Nat) (v : Word) : (s.wr off v).time = s.time := rfl
@[simp] theorem State.wr_fresh (s : State) (off : Nat) (v : Word) : (s.wr off v).fresh = s.fresh := rfl
@[simp] theorem State.wr_pairs (s : State) (off : Nat) (v : Word) : (s.wr off v).pairs = s.pairs := rfl
@[simp] theorem State.wr_cmds (s : State) (off : Nat) (v : Word) : (s.wr off v).cmds = s.cmds := rfl
@[simp] theorem State.wr_fetches (s : State) (off : Nat) (v : Word) : (s.wr off v).fetches = s.fetches := rfl
@[simp] theorem State.wr_arbClass (s : State) (off : Nat) (v : Word) : (s.wr off v).arbClass = s.arbClass := rfl
@[simp] theorem State.wr_arbCredit (s : State) (off : Nat) (v : Word) : (s.wr off v).arbCredit = s.arbCredit := rfl
@[simp] theorem State.wr_arbLast (s : State) (off : Nat) (v : Word) : (s.wr off v).arbLast = s.arbLast := rfl
@[simp] theorem State.wr_fetchHold (s : State) (off : Nat) (v : Word) : (s.wr off v).fetchHold = s.fetchHold := rfl
@[simp] theorem State.wr_lastWait (s : State) (off : Nat) (v : Word) : (s.wr off v).lastWait = s.lastWait := rfl
@[simp] theorem State.wr_clampWaits (s : State) (off : Nat) (v : Word) : (s.wr off v).clampWaits = s.clampWaits := rfl
@[simp] theorem State.wr_clampTimeouts (s : State) (off : Nat) (v : Word) : (s.wr off v).clampTimeouts = s.clampTimeouts := rfl
@[simp] theorem State.wr_collector (s : State) (off : Nat) (v : Word) : (s.wr off v).collector = s.collector := rfl
@[simp] theorem State.wr_notices (s : State) (off : Nat) (v : Word) : (s.wr off v).notices = s.notices := rfl
@[simp] theorem State.wr_quotas (s : State) (off : Nat) (v : Word) : (s.wr off v).quotas = s.quotas := rfl
@[simp] theorem State.wr_published (s : State) (off : Nat) (v : Word) : (s.wr off v).published = s.published := rfl
@[simp] theorem State.wr_floor (s : State) (off : Nat) (v : Word) : (s.wr off v).floor = s.floor := rfl
@[simp] theorem State.wr_retain (s : State) (off : Nat) (v : Word) : (s.wr off v).retain = s.retain := rfl
@[simp] theorem State.wr_named (s : State) (off : Nat) (v : Word) : (s.wr off v).named = s.named := rfl
@[simp] theorem State.wr_spaces (s : State) (off : Nat) (v : Word) : (s.wr off v).spaces = s.spaces := rfl
@[simp] theorem State.wr_tables (s : State) (off : Nat) (v : Word) : (s.wr off v).tables = s.tables := rfl
@[simp] theorem State.wr_images (s : State) (off : Nat) (v : Word) : (s.wr off v).images = s.images := rfl
@[simp] theorem State.wr_imageGens (s : State) (off : Nat) (v : Word) : (s.wr off v).imageGens = s.imageGens := rfl
@[simp] theorem State.wr_runs (s : State) (off : Nat) (v : Word) : (s.wr off v).runs = s.runs := rfl
@[simp] theorem State.wr_waits (s : State) (off : Nat) (v : Word) : (s.wr off v).waits = s.waits := rfl
@[simp] theorem State.wr_offline (s : State) (off : Nat) (v : Word) : (s.wr off v).offline = s.offline := rfl
@[simp] theorem State.wr_peerRetired (s : State) (off : Nat) (v : Word) : (s.wr off v).peerRetired = s.peerRetired := rfl
@[simp] theorem State.wr_peerGens (s : State) (off : Nat) (v : Word) : (s.wr off v).peerGens = s.peerGens := rfl
@[simp] theorem State.wr_functions (s : State) (off : Nat) (v : Word) : (s.wr off v).functions = s.functions := rfl
@[simp] theorem State.wr_relaxed (s : State) (off : Nat) (v : Word) : (s.wr off v).relaxed = s.relaxed := rfl
@[simp] theorem State.wr_pcie (s : State) (off : Nat) (v : Word) : (s.wr off v).pcie = s.pcie := rfl
@[simp] theorem State.wr_plate (s : State) (off : Nat) (v : Word) : (s.wr off v).plate = s.plate := rfl
@[simp] theorem State.wr_steady (s : State) (off : Nat) (v : Word) : (s.wr off v).steady = s.steady := rfl
@[simp] theorem State.wr_boot (s : State) (off : Nat) (v : Word) : (s.wr off v).boot = s.boot := rfl
@[simp] theorem State.wr_sent (s : State) (off : Nat) (v : Word) : (s.wr off v).sent = s.sent := rfl
@[simp] theorem State.wr_answer (s : State) (off : Nat) (v : Word) : (s.wr off v).answer = s.answer := rfl
@[simp] theorem State.wr_pending (s : State) (off : Nat) (v : Word) : (s.wr off v).pending = s.pending := rfl

/-! The fields after `setCore`. -/

@[simp] theorem State.setCore_regs (s : State) (c : Nat) (k : Core) : (s.setCore c k).regs = s.regs := rfl
@[simp] theorem State.setCore_held (s : State) (c : Nat) (k : Core) : (s.setCore c k).held = s.held := rfl
@[simp] theorem State.setCore_captured (s : State) (c : Nat) (k : Core) : (s.setCore c k).captured = s.captured := rfl
@[simp] theorem State.setCore_mem (s : State) (c : Nat) (k : Core) : (s.setCore c k).mem = s.mem := rfl
@[simp] theorem State.setCore_haze (s : State) (c : Nat) (k : Core) : (s.setCore c k).haze = s.haze := rfl
@[simp] theorem State.setCore_poison (s : State) (c : Nat) (k : Core) : (s.setCore c k).poison = s.poison := rfl
@[simp] theorem State.setCore_poisonFrom (s : State) (c : Nat) (k : Core) : (s.setCore c k).poisonFrom = s.poisonFrom := rfl
@[simp] theorem State.setCore_array (s : State) (c : Nat) (k : Core) : (s.setCore c k).array = s.array := rfl
@[simp] theorem State.setCore_switchWaits (s : State) (c : Nat) (k : Core) : (s.setCore c k).switchWaits = s.switchWaits := rfl
@[simp] theorem State.setCore_retireWaits (s : State) (c : Nat) (k : Core) : (s.setCore c k).retireWaits = s.retireWaits := rfl
@[simp] theorem State.setCore_mcWaiting (s : State) (c : Nat) (k : Core) : (s.setCore c k).mcWaiting = s.mcWaiting := rfl
@[simp] theorem State.setCore_cores (s : State) (c : Nat) (k : Core) : (s.setCore c k).cores = FMap.set (fun _ => Core.reset) s.cores c k := rfl
@[simp] theorem State.setCore_slices (s : State) (c : Nat) (k : Core) : (s.setCore c k).slices = s.slices := rfl
@[simp] theorem State.setCore_writeBacks (s : State) (c : Nat) (k : Core) : (s.setCore c k).writeBacks = s.writeBacks := rfl
@[simp] theorem State.setCore_scInv (s : State) (c : Nat) (k : Core) : (s.setCore c k).scInv = s.scInv := rfl
@[simp] theorem State.setCore_l1Inv (s : State) (c : Nat) (k : Core) : (s.setCore c k).l1Inv = s.l1Inv := rfl
@[simp] theorem State.setCore_meshRetx (s : State) (c : Nat) (k : Core) : (s.setCore c k).meshRetx = s.meshRetx := rfl
@[simp] theorem State.setCore_meshFroze (s : State) (c : Nat) (k : Core) : (s.setCore c k).meshFroze = s.meshFroze := rfl
@[simp] theorem State.setCore_grantFaulted (s : State) (c : Nat) (k : Core) : (s.setCore c k).grantFaulted = s.grantFaulted := rfl
@[simp] theorem State.setCore_guardRaised (s : State) (c : Nat) (k : Core) : (s.setCore c k).guardRaised = s.guardRaised := rfl
@[simp] theorem State.setCore_far (s : State) (c : Nat) (k : Core) : (s.setCore c k).far = s.far := rfl
@[simp] theorem State.setCore_noc (s : State) (c : Nat) (k : Core) : (s.setCore c k).noc = s.noc := rfl
@[simp] theorem State.setCore_inbound (s : State) (c : Nat) (k : Core) : (s.setCore c k).inbound = s.inbound := rfl
@[simp] theorem State.setCore_txs (s : State) (c : Nat) (k : Core) : (s.setCore c k).txs = s.txs := rfl
@[simp] theorem State.setCore_txDead (s : State) (c : Nat) (k : Core) : (s.setCore c k).txDead = s.txDead := rfl
@[simp] theorem State.setCore_portQueue (s : State) (c : Nat) (k : Core) : (s.setCore c k).portQueue = s.portQueue := rfl
@[simp] theorem State.setCore_hat (s : State) (c : Nat) (k : Core) : (s.setCore c k).hat = s.hat := rfl
@[simp] theorem State.setCore_members (s : State) (c : Nat) (k : Core) : (s.setCore c k).members = s.members := rfl
@[simp] theorem State.setCore_gauge (s : State) (c : Nat) (k : Core) : (s.setCore c k).gauge = s.gauge := rfl
@[simp] theorem State.setCore_gaugeScrub (s : State) (c : Nat) (k : Core) : (s.setCore c k).gaugeScrub = s.gaugeScrub := rfl
@[simp] theorem State.setCore_gaugeRepairs (s : State) (c : Nat) (k : Core) : (s.setCore c k).gaugeRepairs = s.gaugeRepairs := rfl
@[simp] theorem State.setCore_gaugeLast (s : State) (c : Nat) (k : Core) : (s.setCore c k).gaugeLast = s.gaugeLast := rfl
@[simp] theorem State.setCore_gaugeWaits (s : State) (c : Nat) (k : Core) : (s.setCore c k).gaugeWaits = s.gaugeWaits := rfl
@[simp] theorem State.setCore_gaugeQueue (s : State) (c : Nat) (k : Core) : (s.setCore c k).gaugeQueue = s.gaugeQueue := rfl
@[simp] theorem State.setCore_gaugeDone (s : State) (c : Nat) (k : Core) : (s.setCore c k).gaugeDone = s.gaugeDone := rfl
@[simp] theorem State.setCore_rings (s : State) (c : Nat) (k : Core) : (s.setCore c k).rings = s.rings := rfl
@[simp] theorem State.setCore_ringNext (s : State) (c : Nat) (k : Core) : (s.setCore c k).ringNext = s.ringNext := rfl
@[simp] theorem State.setCore_jobs (s : State) (c : Nat) (k : Core) : (s.setCore c k).jobs = s.jobs := rfl
@[simp] theorem State.setCore_dmaTop (s : State) (c : Nat) (k : Core) : (s.setCore c k).dmaTop = s.dmaTop := rfl
@[simp] theorem State.setCore_dmaLast (s : State) (c : Nat) (k : Core) : (s.setCore c k).dmaLast = s.dmaLast := rfl
@[simp] theorem State.setCore_dmaStalled (s : State) (c : Nat) (k : Core) : (s.setCore c k).dmaStalled = s.dmaStalled := rfl
@[simp] theorem State.setCore_dmaReg (s : State) (c : Nat) (k : Core) : (s.setCore c k).dmaReg = s.dmaReg := rfl
@[simp] theorem State.setCore_timerDue (s : State) (c : Nat) (k : Core) : (s.setCore c k).timerDue = s.timerDue := rfl
@[simp] theorem State.setCore_stpFails (s : State) (c : Nat) (k : Core) : (s.setCore c k).stpFails = s.stpFails := rfl
@[simp] theorem State.setCore_stpRetire (s : State) (c : Nat) (k : Core) : (s.setCore c k).stpRetire = s.stpRetire := rfl
@[simp] theorem State.setCore_stpMade (s : State) (c : Nat) (k : Core) : (s.setCore c k).stpMade = s.stpMade := rfl
@[simp] theorem State.setCore_slots (s : State) (c : Nat) (k : Core) : (s.setCore c k).slots = s.slots := rfl
@[simp] theorem State.setCore_prfTurn (s : State) (c : Nat) (k : Core) : (s.setCore c k).prfTurn = s.prfTurn := rfl
@[simp] theorem State.setCore_prfUsed (s : State) (c : Nat) (k : Core) : (s.setCore c k).prfUsed = s.prfUsed := rfl
@[simp] theorem State.setCore_waiters (s : State) (c : Nat) (k : Core) : (s.setCore c k).waiters = s.waiters := rfl
@[simp] theorem State.setCore_waitOrder (s : State) (c : Nat) (k : Core) : (s.setCore c k).waitOrder = s.waitOrder := rfl
@[simp] theorem State.setCore_ready (s : State) (c : Nat) (k : Core) : (s.setCore c k).ready = s.ready := rfl
@[simp] theorem State.setCore_headSlots (s : State) (c : Nat) (k : Core) : (s.setCore c k).headSlots = s.headSlots := rfl
@[simp] theorem State.setCore_slotWaits (s : State) (c : Nat) (k : Core) : (s.setCore c k).slotWaits = s.slotWaits := rfl
@[simp] theorem State.setCore_prioSet (s : State) (c : Nat) (k : Core) : (s.setCore c k).prioSet = s.prioSet := rfl
@[simp] theorem State.setCore_placements (s : State) (c : Nat) (k : Core) : (s.setCore c k).placements = s.placements := rfl
@[simp] theorem State.setCore_time (s : State) (c : Nat) (k : Core) : (s.setCore c k).time = s.time := rfl
@[simp] theorem State.setCore_fresh (s : State) (c : Nat) (k : Core) : (s.setCore c k).fresh = s.fresh := rfl
@[simp] theorem State.setCore_pairs (s : State) (c : Nat) (k : Core) : (s.setCore c k).pairs = s.pairs := rfl
@[simp] theorem State.setCore_cmds (s : State) (c : Nat) (k : Core) : (s.setCore c k).cmds = s.cmds := rfl
@[simp] theorem State.setCore_fetches (s : State) (c : Nat) (k : Core) : (s.setCore c k).fetches = s.fetches := rfl
@[simp] theorem State.setCore_arbClass (s : State) (c : Nat) (k : Core) : (s.setCore c k).arbClass = s.arbClass := rfl
@[simp] theorem State.setCore_arbCredit (s : State) (c : Nat) (k : Core) : (s.setCore c k).arbCredit = s.arbCredit := rfl
@[simp] theorem State.setCore_arbLast (s : State) (c : Nat) (k : Core) : (s.setCore c k).arbLast = s.arbLast := rfl
@[simp] theorem State.setCore_fetchHold (s : State) (c : Nat) (k : Core) : (s.setCore c k).fetchHold = s.fetchHold := rfl
@[simp] theorem State.setCore_lastWait (s : State) (c : Nat) (k : Core) : (s.setCore c k).lastWait = s.lastWait := rfl
@[simp] theorem State.setCore_clampWaits (s : State) (c : Nat) (k : Core) : (s.setCore c k).clampWaits = s.clampWaits := rfl
@[simp] theorem State.setCore_clampTimeouts (s : State) (c : Nat) (k : Core) : (s.setCore c k).clampTimeouts = s.clampTimeouts := rfl
@[simp] theorem State.setCore_collector (s : State) (c : Nat) (k : Core) : (s.setCore c k).collector = s.collector := rfl
@[simp] theorem State.setCore_notices (s : State) (c : Nat) (k : Core) : (s.setCore c k).notices = s.notices := rfl
@[simp] theorem State.setCore_quotas (s : State) (c : Nat) (k : Core) : (s.setCore c k).quotas = s.quotas := rfl
@[simp] theorem State.setCore_published (s : State) (c : Nat) (k : Core) : (s.setCore c k).published = s.published := rfl
@[simp] theorem State.setCore_floor (s : State) (c : Nat) (k : Core) : (s.setCore c k).floor = s.floor := rfl
@[simp] theorem State.setCore_retain (s : State) (c : Nat) (k : Core) : (s.setCore c k).retain = s.retain := rfl
@[simp] theorem State.setCore_named (s : State) (c : Nat) (k : Core) : (s.setCore c k).named = s.named := rfl
@[simp] theorem State.setCore_spaces (s : State) (c : Nat) (k : Core) : (s.setCore c k).spaces = s.spaces := rfl
@[simp] theorem State.setCore_tables (s : State) (c : Nat) (k : Core) : (s.setCore c k).tables = s.tables := rfl
@[simp] theorem State.setCore_images (s : State) (c : Nat) (k : Core) : (s.setCore c k).images = s.images := rfl
@[simp] theorem State.setCore_imageGens (s : State) (c : Nat) (k : Core) : (s.setCore c k).imageGens = s.imageGens := rfl
@[simp] theorem State.setCore_runs (s : State) (c : Nat) (k : Core) : (s.setCore c k).runs = s.runs := rfl
@[simp] theorem State.setCore_waits (s : State) (c : Nat) (k : Core) : (s.setCore c k).waits = s.waits := rfl
@[simp] theorem State.setCore_offline (s : State) (c : Nat) (k : Core) : (s.setCore c k).offline = s.offline := rfl
@[simp] theorem State.setCore_peerRetired (s : State) (c : Nat) (k : Core) : (s.setCore c k).peerRetired = s.peerRetired := rfl
@[simp] theorem State.setCore_peerGens (s : State) (c : Nat) (k : Core) : (s.setCore c k).peerGens = s.peerGens := rfl
@[simp] theorem State.setCore_functions (s : State) (c : Nat) (k : Core) : (s.setCore c k).functions = s.functions := rfl
@[simp] theorem State.setCore_relaxed (s : State) (c : Nat) (k : Core) : (s.setCore c k).relaxed = s.relaxed := rfl
@[simp] theorem State.setCore_pcie (s : State) (c : Nat) (k : Core) : (s.setCore c k).pcie = s.pcie := rfl
@[simp] theorem State.setCore_plate (s : State) (c : Nat) (k : Core) : (s.setCore c k).plate = s.plate := rfl
@[simp] theorem State.setCore_steady (s : State) (c : Nat) (k : Core) : (s.setCore c k).steady = s.steady := rfl
@[simp] theorem State.setCore_boot (s : State) (c : Nat) (k : Core) : (s.setCore c k).boot = s.boot := rfl
@[simp] theorem State.setCore_sent (s : State) (c : Nat) (k : Core) : (s.setCore c k).sent = s.sent := rfl
@[simp] theorem State.setCore_answer (s : State) (c : Nat) (k : Core) : (s.setCore c k).answer = s.answer := rfl
@[simp] theorem State.setCore_pending (s : State) (c : Nat) (k : Core) : (s.setCore c k).pending = s.pending := rfl

/-! The fields after `mcAnswer`. -/

@[simp] theorem State.mcAnswer_regs (s : State) (a : MemAnswer) : (s.mcAnswer a).regs = s.regs := rfl
@[simp] theorem State.mcAnswer_held (s : State) (a : MemAnswer) : (s.mcAnswer a).held = s.held := rfl
@[simp] theorem State.mcAnswer_captured (s : State) (a : MemAnswer) : (s.mcAnswer a).captured = s.captured := rfl
@[simp] theorem State.mcAnswer_mem (s : State) (a : MemAnswer) : (s.mcAnswer a).mem = s.mem := rfl
@[simp] theorem State.mcAnswer_haze (s : State) (a : MemAnswer) : (s.mcAnswer a).haze = s.haze := rfl
@[simp] theorem State.mcAnswer_poison (s : State) (a : MemAnswer) : (s.mcAnswer a).poison = s.poison := rfl
@[simp] theorem State.mcAnswer_poisonFrom (s : State) (a : MemAnswer) : (s.mcAnswer a).poisonFrom = s.poisonFrom := rfl
@[simp] theorem State.mcAnswer_array (s : State) (a : MemAnswer) : (s.mcAnswer a).array = s.array := rfl
@[simp] theorem State.mcAnswer_switchWaits (s : State) (a : MemAnswer) : (s.mcAnswer a).switchWaits = s.switchWaits := rfl
@[simp] theorem State.mcAnswer_retireWaits (s : State) (a : MemAnswer) : (s.mcAnswer a).retireWaits = s.retireWaits := rfl
@[simp] theorem State.mcAnswer_mcWaiting (s : State) (a : MemAnswer) : (s.mcAnswer a).mcWaiting = s.mcWaiting := rfl
@[simp] theorem State.mcAnswer_cores (s : State) (a : MemAnswer) : (s.mcAnswer a).cores = s.cores := rfl
@[simp] theorem State.mcAnswer_slices (s : State) (a : MemAnswer) : (s.mcAnswer a).slices = s.slices := rfl
@[simp] theorem State.mcAnswer_writeBacks (s : State) (a : MemAnswer) : (s.mcAnswer a).writeBacks = s.writeBacks := rfl
@[simp] theorem State.mcAnswer_scInv (s : State) (a : MemAnswer) : (s.mcAnswer a).scInv = s.scInv := rfl
@[simp] theorem State.mcAnswer_l1Inv (s : State) (a : MemAnswer) : (s.mcAnswer a).l1Inv = s.l1Inv := rfl
@[simp] theorem State.mcAnswer_meshRetx (s : State) (a : MemAnswer) : (s.mcAnswer a).meshRetx = s.meshRetx := rfl
@[simp] theorem State.mcAnswer_meshFroze (s : State) (a : MemAnswer) : (s.mcAnswer a).meshFroze = s.meshFroze := rfl
@[simp] theorem State.mcAnswer_grantFaulted (s : State) (a : MemAnswer) : (s.mcAnswer a).grantFaulted = s.grantFaulted := rfl
@[simp] theorem State.mcAnswer_guardRaised (s : State) (a : MemAnswer) : (s.mcAnswer a).guardRaised = s.guardRaised := rfl
@[simp] theorem State.mcAnswer_far (s : State) (a : MemAnswer) : (s.mcAnswer a).far = s.far := rfl
@[simp] theorem State.mcAnswer_noc (s : State) (a : MemAnswer) : (s.mcAnswer a).noc = s.noc := rfl
@[simp] theorem State.mcAnswer_inbound (s : State) (a : MemAnswer) : (s.mcAnswer a).inbound = s.inbound := rfl
@[simp] theorem State.mcAnswer_txs (s : State) (a : MemAnswer) : (s.mcAnswer a).txs = s.txs := rfl
@[simp] theorem State.mcAnswer_txDead (s : State) (a : MemAnswer) : (s.mcAnswer a).txDead = s.txDead := rfl
@[simp] theorem State.mcAnswer_portQueue (s : State) (a : MemAnswer) : (s.mcAnswer a).portQueue = s.portQueue := rfl
@[simp] theorem State.mcAnswer_hat (s : State) (a : MemAnswer) : (s.mcAnswer a).hat = s.hat := rfl
@[simp] theorem State.mcAnswer_members (s : State) (a : MemAnswer) : (s.mcAnswer a).members = s.members := rfl
@[simp] theorem State.mcAnswer_gauge (s : State) (a : MemAnswer) : (s.mcAnswer a).gauge = s.gauge := rfl
@[simp] theorem State.mcAnswer_gaugeScrub (s : State) (a : MemAnswer) : (s.mcAnswer a).gaugeScrub = s.gaugeScrub := rfl
@[simp] theorem State.mcAnswer_gaugeRepairs (s : State) (a : MemAnswer) : (s.mcAnswer a).gaugeRepairs = s.gaugeRepairs := rfl
@[simp] theorem State.mcAnswer_gaugeLast (s : State) (a : MemAnswer) : (s.mcAnswer a).gaugeLast = s.gaugeLast := rfl
@[simp] theorem State.mcAnswer_gaugeWaits (s : State) (a : MemAnswer) : (s.mcAnswer a).gaugeWaits = s.gaugeWaits := rfl
@[simp] theorem State.mcAnswer_gaugeQueue (s : State) (a : MemAnswer) : (s.mcAnswer a).gaugeQueue = s.gaugeQueue := rfl
@[simp] theorem State.mcAnswer_gaugeDone (s : State) (a : MemAnswer) : (s.mcAnswer a).gaugeDone = s.gaugeDone := rfl
@[simp] theorem State.mcAnswer_rings (s : State) (a : MemAnswer) : (s.mcAnswer a).rings = s.rings := rfl
@[simp] theorem State.mcAnswer_ringNext (s : State) (a : MemAnswer) : (s.mcAnswer a).ringNext = s.ringNext := rfl
@[simp] theorem State.mcAnswer_jobs (s : State) (a : MemAnswer) : (s.mcAnswer a).jobs = s.jobs := rfl
@[simp] theorem State.mcAnswer_dmaTop (s : State) (a : MemAnswer) : (s.mcAnswer a).dmaTop = s.dmaTop := rfl
@[simp] theorem State.mcAnswer_dmaLast (s : State) (a : MemAnswer) : (s.mcAnswer a).dmaLast = s.dmaLast := rfl
@[simp] theorem State.mcAnswer_dmaStalled (s : State) (a : MemAnswer) : (s.mcAnswer a).dmaStalled = s.dmaStalled := rfl
@[simp] theorem State.mcAnswer_dmaReg (s : State) (a : MemAnswer) : (s.mcAnswer a).dmaReg = s.dmaReg := rfl
@[simp] theorem State.mcAnswer_timerDue (s : State) (a : MemAnswer) : (s.mcAnswer a).timerDue = s.timerDue := rfl
@[simp] theorem State.mcAnswer_stpFails (s : State) (a : MemAnswer) : (s.mcAnswer a).stpFails = s.stpFails := rfl
@[simp] theorem State.mcAnswer_stpRetire (s : State) (a : MemAnswer) : (s.mcAnswer a).stpRetire = s.stpRetire := rfl
@[simp] theorem State.mcAnswer_stpMade (s : State) (a : MemAnswer) : (s.mcAnswer a).stpMade = s.stpMade := rfl
@[simp] theorem State.mcAnswer_slots (s : State) (a : MemAnswer) : (s.mcAnswer a).slots = s.slots := rfl
@[simp] theorem State.mcAnswer_prfTurn (s : State) (a : MemAnswer) : (s.mcAnswer a).prfTurn = s.prfTurn := rfl
@[simp] theorem State.mcAnswer_prfUsed (s : State) (a : MemAnswer) : (s.mcAnswer a).prfUsed = s.prfUsed := rfl
@[simp] theorem State.mcAnswer_waiters (s : State) (a : MemAnswer) : (s.mcAnswer a).waiters = s.waiters := rfl
@[simp] theorem State.mcAnswer_waitOrder (s : State) (a : MemAnswer) : (s.mcAnswer a).waitOrder = s.waitOrder := rfl
@[simp] theorem State.mcAnswer_ready (s : State) (a : MemAnswer) : (s.mcAnswer a).ready = s.ready := rfl
@[simp] theorem State.mcAnswer_headSlots (s : State) (a : MemAnswer) : (s.mcAnswer a).headSlots = s.headSlots := rfl
@[simp] theorem State.mcAnswer_slotWaits (s : State) (a : MemAnswer) : (s.mcAnswer a).slotWaits = s.slotWaits := rfl
@[simp] theorem State.mcAnswer_prioSet (s : State) (a : MemAnswer) : (s.mcAnswer a).prioSet = s.prioSet := rfl
@[simp] theorem State.mcAnswer_placements (s : State) (a : MemAnswer) : (s.mcAnswer a).placements = s.placements := rfl
@[simp] theorem State.mcAnswer_time (s : State) (a : MemAnswer) : (s.mcAnswer a).time = s.time := rfl
@[simp] theorem State.mcAnswer_fresh (s : State) (a : MemAnswer) : (s.mcAnswer a).fresh = s.fresh := rfl
@[simp] theorem State.mcAnswer_pairs (s : State) (a : MemAnswer) : (s.mcAnswer a).pairs = s.pairs := rfl
@[simp] theorem State.mcAnswer_cmds (s : State) (a : MemAnswer) : (s.mcAnswer a).cmds = s.cmds := rfl
@[simp] theorem State.mcAnswer_fetches (s : State) (a : MemAnswer) : (s.mcAnswer a).fetches = s.fetches := rfl
@[simp] theorem State.mcAnswer_arbClass (s : State) (a : MemAnswer) : (s.mcAnswer a).arbClass = s.arbClass := rfl
@[simp] theorem State.mcAnswer_arbCredit (s : State) (a : MemAnswer) : (s.mcAnswer a).arbCredit = s.arbCredit := rfl
@[simp] theorem State.mcAnswer_arbLast (s : State) (a : MemAnswer) : (s.mcAnswer a).arbLast = s.arbLast := rfl
@[simp] theorem State.mcAnswer_fetchHold (s : State) (a : MemAnswer) : (s.mcAnswer a).fetchHold = s.fetchHold := rfl
@[simp] theorem State.mcAnswer_lastWait (s : State) (a : MemAnswer) : (s.mcAnswer a).lastWait = s.lastWait := rfl
@[simp] theorem State.mcAnswer_clampWaits (s : State) (a : MemAnswer) : (s.mcAnswer a).clampWaits = s.clampWaits := rfl
@[simp] theorem State.mcAnswer_clampTimeouts (s : State) (a : MemAnswer) : (s.mcAnswer a).clampTimeouts = s.clampTimeouts := rfl
@[simp] theorem State.mcAnswer_collector (s : State) (a : MemAnswer) : (s.mcAnswer a).collector = s.collector := rfl
@[simp] theorem State.mcAnswer_notices (s : State) (a : MemAnswer) : (s.mcAnswer a).notices = s.notices := rfl
@[simp] theorem State.mcAnswer_quotas (s : State) (a : MemAnswer) : (s.mcAnswer a).quotas = s.quotas := rfl
@[simp] theorem State.mcAnswer_published (s : State) (a : MemAnswer) : (s.mcAnswer a).published = s.published := rfl
@[simp] theorem State.mcAnswer_floor (s : State) (a : MemAnswer) : (s.mcAnswer a).floor = s.floor := rfl
@[simp] theorem State.mcAnswer_retain (s : State) (a : MemAnswer) : (s.mcAnswer a).retain = s.retain := rfl
@[simp] theorem State.mcAnswer_named (s : State) (a : MemAnswer) : (s.mcAnswer a).named = s.named := rfl
@[simp] theorem State.mcAnswer_spaces (s : State) (a : MemAnswer) : (s.mcAnswer a).spaces = s.spaces := rfl
@[simp] theorem State.mcAnswer_tables (s : State) (a : MemAnswer) : (s.mcAnswer a).tables = s.tables := rfl
@[simp] theorem State.mcAnswer_images (s : State) (a : MemAnswer) : (s.mcAnswer a).images = s.images := rfl
@[simp] theorem State.mcAnswer_imageGens (s : State) (a : MemAnswer) : (s.mcAnswer a).imageGens = s.imageGens := rfl
@[simp] theorem State.mcAnswer_runs (s : State) (a : MemAnswer) : (s.mcAnswer a).runs = s.runs := rfl
@[simp] theorem State.mcAnswer_waits (s : State) (a : MemAnswer) : (s.mcAnswer a).waits = s.waits := rfl
@[simp] theorem State.mcAnswer_offline (s : State) (a : MemAnswer) : (s.mcAnswer a).offline = s.offline := rfl
@[simp] theorem State.mcAnswer_peerRetired (s : State) (a : MemAnswer) : (s.mcAnswer a).peerRetired = s.peerRetired := rfl
@[simp] theorem State.mcAnswer_peerGens (s : State) (a : MemAnswer) : (s.mcAnswer a).peerGens = s.peerGens := rfl
@[simp] theorem State.mcAnswer_functions (s : State) (a : MemAnswer) : (s.mcAnswer a).functions = s.functions := rfl
@[simp] theorem State.mcAnswer_relaxed (s : State) (a : MemAnswer) : (s.mcAnswer a).relaxed = s.relaxed := rfl
@[simp] theorem State.mcAnswer_pcie (s : State) (a : MemAnswer) : (s.mcAnswer a).pcie = s.pcie := rfl
@[simp] theorem State.mcAnswer_plate (s : State) (a : MemAnswer) : (s.mcAnswer a).plate = s.plate := rfl
@[simp] theorem State.mcAnswer_steady (s : State) (a : MemAnswer) : (s.mcAnswer a).steady = s.steady := rfl
@[simp] theorem State.mcAnswer_boot (s : State) (a : MemAnswer) : (s.mcAnswer a).boot = s.boot := rfl
@[simp] theorem State.mcAnswer_sent (s : State) (a : MemAnswer) : (s.mcAnswer a).sent = s.sent := rfl
@[simp] theorem State.mcAnswer_answer (s : State) (a : MemAnswer) : (s.mcAnswer a).answer = ⟨a.status, a.data, false, a.poison⟩ := rfl
@[simp] theorem State.mcAnswer_pending (s : State) (a : MemAnswer) : (s.mcAnswer a).pending = s.pending := rfl

/-! The fields after `putBytes`. -/

@[simp] theorem State.putBytes_regs (s : State) (a : Nat) (bs : List Byte) : (s.putBytes a bs).regs = s.regs := rfl
@[simp] theorem State.putBytes_held (s : State) (a : Nat) (bs : List Byte) : (s.putBytes a bs).held = s.held := rfl
@[simp] theorem State.putBytes_captured (s : State) (a : Nat) (bs : List Byte) : (s.putBytes a bs).captured = s.captured := rfl
@[simp] theorem State.putBytes_mem (s : State) (a : Nat) (bs : List Byte) : (s.putBytes a bs).mem = FMap.store (memDefault s.haze) s.mem a bs := rfl
@[simp] theorem State.putBytes_haze (s : State) (a : Nat) (bs : List Byte) : (s.putBytes a bs).haze = s.haze := rfl
@[simp] theorem State.putBytes_poison (s : State) (a : Nat) (bs : List Byte) : (s.putBytes a bs).poison = s.poison := rfl
@[simp] theorem State.putBytes_poisonFrom (s : State) (a : Nat) (bs : List Byte) : (s.putBytes a bs).poisonFrom = s.poisonFrom := rfl
@[simp] theorem State.putBytes_array (s : State) (a : Nat) (bs : List Byte) : (s.putBytes a bs).array = s.array := rfl
@[simp] theorem State.putBytes_switchWaits (s : State) (a : Nat) (bs : List Byte) : (s.putBytes a bs).switchWaits = s.switchWaits := rfl
@[simp] theorem State.putBytes_retireWaits (s : State) (a : Nat) (bs : List Byte) : (s.putBytes a bs).retireWaits = s.retireWaits := rfl
@[simp] theorem State.putBytes_mcWaiting (s : State) (a : Nat) (bs : List Byte) : (s.putBytes a bs).mcWaiting = s.mcWaiting := rfl
@[simp] theorem State.putBytes_cores (s : State) (a : Nat) (bs : List Byte) : (s.putBytes a bs).cores = s.cores := rfl
@[simp] theorem State.putBytes_slices (s : State) (a : Nat) (bs : List Byte) : (s.putBytes a bs).slices = s.slices := rfl
@[simp] theorem State.putBytes_writeBacks (s : State) (a : Nat) (bs : List Byte) : (s.putBytes a bs).writeBacks = s.writeBacks := rfl
@[simp] theorem State.putBytes_scInv (s : State) (a : Nat) (bs : List Byte) : (s.putBytes a bs).scInv = s.scInv := rfl
@[simp] theorem State.putBytes_l1Inv (s : State) (a : Nat) (bs : List Byte) : (s.putBytes a bs).l1Inv = s.l1Inv := rfl
@[simp] theorem State.putBytes_meshRetx (s : State) (a : Nat) (bs : List Byte) : (s.putBytes a bs).meshRetx = s.meshRetx := rfl
@[simp] theorem State.putBytes_meshFroze (s : State) (a : Nat) (bs : List Byte) : (s.putBytes a bs).meshFroze = s.meshFroze := rfl
@[simp] theorem State.putBytes_grantFaulted (s : State) (a : Nat) (bs : List Byte) : (s.putBytes a bs).grantFaulted = s.grantFaulted := rfl
@[simp] theorem State.putBytes_guardRaised (s : State) (a : Nat) (bs : List Byte) : (s.putBytes a bs).guardRaised = s.guardRaised := rfl
@[simp] theorem State.putBytes_far (s : State) (a : Nat) (bs : List Byte) : (s.putBytes a bs).far = s.far := rfl
@[simp] theorem State.putBytes_noc (s : State) (a : Nat) (bs : List Byte) : (s.putBytes a bs).noc = s.noc := rfl
@[simp] theorem State.putBytes_inbound (s : State) (a : Nat) (bs : List Byte) : (s.putBytes a bs).inbound = s.inbound := rfl
@[simp] theorem State.putBytes_txs (s : State) (a : Nat) (bs : List Byte) : (s.putBytes a bs).txs = s.txs := rfl
@[simp] theorem State.putBytes_txDead (s : State) (a : Nat) (bs : List Byte) : (s.putBytes a bs).txDead = s.txDead := rfl
@[simp] theorem State.putBytes_portQueue (s : State) (a : Nat) (bs : List Byte) : (s.putBytes a bs).portQueue = s.portQueue := rfl
@[simp] theorem State.putBytes_hat (s : State) (a : Nat) (bs : List Byte) : (s.putBytes a bs).hat = s.hat := rfl
@[simp] theorem State.putBytes_members (s : State) (a : Nat) (bs : List Byte) : (s.putBytes a bs).members = s.members := rfl
@[simp] theorem State.putBytes_gauge (s : State) (a : Nat) (bs : List Byte) : (s.putBytes a bs).gauge = s.gauge := rfl
@[simp] theorem State.putBytes_gaugeScrub (s : State) (a : Nat) (bs : List Byte) : (s.putBytes a bs).gaugeScrub = s.gaugeScrub := rfl
@[simp] theorem State.putBytes_gaugeRepairs (s : State) (a : Nat) (bs : List Byte) : (s.putBytes a bs).gaugeRepairs = s.gaugeRepairs := rfl
@[simp] theorem State.putBytes_gaugeLast (s : State) (a : Nat) (bs : List Byte) : (s.putBytes a bs).gaugeLast = s.gaugeLast := rfl
@[simp] theorem State.putBytes_gaugeWaits (s : State) (a : Nat) (bs : List Byte) : (s.putBytes a bs).gaugeWaits = s.gaugeWaits := rfl
@[simp] theorem State.putBytes_gaugeQueue (s : State) (a : Nat) (bs : List Byte) : (s.putBytes a bs).gaugeQueue = s.gaugeQueue := rfl
@[simp] theorem State.putBytes_gaugeDone (s : State) (a : Nat) (bs : List Byte) : (s.putBytes a bs).gaugeDone = s.gaugeDone := rfl
@[simp] theorem State.putBytes_rings (s : State) (a : Nat) (bs : List Byte) : (s.putBytes a bs).rings = s.rings := rfl
@[simp] theorem State.putBytes_ringNext (s : State) (a : Nat) (bs : List Byte) : (s.putBytes a bs).ringNext = s.ringNext := rfl
@[simp] theorem State.putBytes_jobs (s : State) (a : Nat) (bs : List Byte) : (s.putBytes a bs).jobs = s.jobs := rfl
@[simp] theorem State.putBytes_dmaTop (s : State) (a : Nat) (bs : List Byte) : (s.putBytes a bs).dmaTop = s.dmaTop := rfl
@[simp] theorem State.putBytes_dmaLast (s : State) (a : Nat) (bs : List Byte) : (s.putBytes a bs).dmaLast = s.dmaLast := rfl
@[simp] theorem State.putBytes_dmaStalled (s : State) (a : Nat) (bs : List Byte) : (s.putBytes a bs).dmaStalled = s.dmaStalled := rfl
@[simp] theorem State.putBytes_dmaReg (s : State) (a : Nat) (bs : List Byte) : (s.putBytes a bs).dmaReg = s.dmaReg := rfl
@[simp] theorem State.putBytes_timerDue (s : State) (a : Nat) (bs : List Byte) : (s.putBytes a bs).timerDue = s.timerDue := rfl
@[simp] theorem State.putBytes_stpFails (s : State) (a : Nat) (bs : List Byte) : (s.putBytes a bs).stpFails = s.stpFails := rfl
@[simp] theorem State.putBytes_stpRetire (s : State) (a : Nat) (bs : List Byte) : (s.putBytes a bs).stpRetire = s.stpRetire := rfl
@[simp] theorem State.putBytes_stpMade (s : State) (a : Nat) (bs : List Byte) : (s.putBytes a bs).stpMade = s.stpMade := rfl
@[simp] theorem State.putBytes_slots (s : State) (a : Nat) (bs : List Byte) : (s.putBytes a bs).slots = s.slots := rfl
@[simp] theorem State.putBytes_prfTurn (s : State) (a : Nat) (bs : List Byte) : (s.putBytes a bs).prfTurn = s.prfTurn := rfl
@[simp] theorem State.putBytes_prfUsed (s : State) (a : Nat) (bs : List Byte) : (s.putBytes a bs).prfUsed = s.prfUsed := rfl
@[simp] theorem State.putBytes_waiters (s : State) (a : Nat) (bs : List Byte) : (s.putBytes a bs).waiters = s.waiters := rfl
@[simp] theorem State.putBytes_waitOrder (s : State) (a : Nat) (bs : List Byte) : (s.putBytes a bs).waitOrder = s.waitOrder := rfl
@[simp] theorem State.putBytes_ready (s : State) (a : Nat) (bs : List Byte) : (s.putBytes a bs).ready = s.ready := rfl
@[simp] theorem State.putBytes_headSlots (s : State) (a : Nat) (bs : List Byte) : (s.putBytes a bs).headSlots = s.headSlots := rfl
@[simp] theorem State.putBytes_slotWaits (s : State) (a : Nat) (bs : List Byte) : (s.putBytes a bs).slotWaits = s.slotWaits := rfl
@[simp] theorem State.putBytes_prioSet (s : State) (a : Nat) (bs : List Byte) : (s.putBytes a bs).prioSet = s.prioSet := rfl
@[simp] theorem State.putBytes_placements (s : State) (a : Nat) (bs : List Byte) : (s.putBytes a bs).placements = s.placements := rfl
@[simp] theorem State.putBytes_time (s : State) (a : Nat) (bs : List Byte) : (s.putBytes a bs).time = s.time := rfl
@[simp] theorem State.putBytes_fresh (s : State) (a : Nat) (bs : List Byte) : (s.putBytes a bs).fresh = s.fresh := rfl
@[simp] theorem State.putBytes_pairs (s : State) (a : Nat) (bs : List Byte) : (s.putBytes a bs).pairs = s.pairs := rfl
@[simp] theorem State.putBytes_cmds (s : State) (a : Nat) (bs : List Byte) : (s.putBytes a bs).cmds = s.cmds := rfl
@[simp] theorem State.putBytes_fetches (s : State) (a : Nat) (bs : List Byte) : (s.putBytes a bs).fetches = s.fetches := rfl
@[simp] theorem State.putBytes_arbClass (s : State) (a : Nat) (bs : List Byte) : (s.putBytes a bs).arbClass = s.arbClass := rfl
@[simp] theorem State.putBytes_arbCredit (s : State) (a : Nat) (bs : List Byte) : (s.putBytes a bs).arbCredit = s.arbCredit := rfl
@[simp] theorem State.putBytes_arbLast (s : State) (a : Nat) (bs : List Byte) : (s.putBytes a bs).arbLast = s.arbLast := rfl
@[simp] theorem State.putBytes_fetchHold (s : State) (a : Nat) (bs : List Byte) : (s.putBytes a bs).fetchHold = s.fetchHold := rfl
@[simp] theorem State.putBytes_lastWait (s : State) (a : Nat) (bs : List Byte) : (s.putBytes a bs).lastWait = s.lastWait := rfl
@[simp] theorem State.putBytes_clampWaits (s : State) (a : Nat) (bs : List Byte) : (s.putBytes a bs).clampWaits = s.clampWaits := rfl
@[simp] theorem State.putBytes_clampTimeouts (s : State) (a : Nat) (bs : List Byte) : (s.putBytes a bs).clampTimeouts = s.clampTimeouts := rfl
@[simp] theorem State.putBytes_collector (s : State) (a : Nat) (bs : List Byte) : (s.putBytes a bs).collector = s.collector := rfl
@[simp] theorem State.putBytes_notices (s : State) (a : Nat) (bs : List Byte) : (s.putBytes a bs).notices = s.notices := rfl
@[simp] theorem State.putBytes_quotas (s : State) (a : Nat) (bs : List Byte) : (s.putBytes a bs).quotas = s.quotas := rfl
@[simp] theorem State.putBytes_published (s : State) (a : Nat) (bs : List Byte) : (s.putBytes a bs).published = s.published := rfl
@[simp] theorem State.putBytes_floor (s : State) (a : Nat) (bs : List Byte) : (s.putBytes a bs).floor = s.floor := rfl
@[simp] theorem State.putBytes_retain (s : State) (a : Nat) (bs : List Byte) : (s.putBytes a bs).retain = s.retain := rfl
@[simp] theorem State.putBytes_named (s : State) (a : Nat) (bs : List Byte) : (s.putBytes a bs).named = s.named := rfl
@[simp] theorem State.putBytes_spaces (s : State) (a : Nat) (bs : List Byte) : (s.putBytes a bs).spaces = s.spaces := rfl
@[simp] theorem State.putBytes_tables (s : State) (a : Nat) (bs : List Byte) : (s.putBytes a bs).tables = s.tables := rfl
@[simp] theorem State.putBytes_images (s : State) (a : Nat) (bs : List Byte) : (s.putBytes a bs).images = s.images := rfl
@[simp] theorem State.putBytes_imageGens (s : State) (a : Nat) (bs : List Byte) : (s.putBytes a bs).imageGens = s.imageGens := rfl
@[simp] theorem State.putBytes_runs (s : State) (a : Nat) (bs : List Byte) : (s.putBytes a bs).runs = s.runs := rfl
@[simp] theorem State.putBytes_waits (s : State) (a : Nat) (bs : List Byte) : (s.putBytes a bs).waits = s.waits := rfl
@[simp] theorem State.putBytes_offline (s : State) (a : Nat) (bs : List Byte) : (s.putBytes a bs).offline = s.offline := rfl
@[simp] theorem State.putBytes_peerRetired (s : State) (a : Nat) (bs : List Byte) : (s.putBytes a bs).peerRetired = s.peerRetired := rfl
@[simp] theorem State.putBytes_peerGens (s : State) (a : Nat) (bs : List Byte) : (s.putBytes a bs).peerGens = s.peerGens := rfl
@[simp] theorem State.putBytes_functions (s : State) (a : Nat) (bs : List Byte) : (s.putBytes a bs).functions = s.functions := rfl
@[simp] theorem State.putBytes_relaxed (s : State) (a : Nat) (bs : List Byte) : (s.putBytes a bs).relaxed = s.relaxed := rfl
@[simp] theorem State.putBytes_pcie (s : State) (a : Nat) (bs : List Byte) : (s.putBytes a bs).pcie = s.pcie := rfl
@[simp] theorem State.putBytes_plate (s : State) (a : Nat) (bs : List Byte) : (s.putBytes a bs).plate = s.plate := rfl
@[simp] theorem State.putBytes_steady (s : State) (a : Nat) (bs : List Byte) : (s.putBytes a bs).steady = s.steady := rfl
@[simp] theorem State.putBytes_boot (s : State) (a : Nat) (bs : List Byte) : (s.putBytes a bs).boot = s.boot := rfl
@[simp] theorem State.putBytes_sent (s : State) (a : Nat) (bs : List Byte) : (s.putBytes a bs).sent = s.sent := rfl
@[simp] theorem State.putBytes_answer (s : State) (a : Nat) (bs : List Byte) : (s.putBytes a bs).answer = s.answer := rfl
@[simp] theorem State.putBytes_pending (s : State) (a : Nat) (bs : List Byte) : (s.putBytes a bs).pending = s.pending := rfl

/-! The fields after `setMark`. -/

@[simp] theorem State.setMark_regs (s : State) (g : Nat) (p : Bool) : (s.setMark g p).regs = s.regs := rfl
@[simp] theorem State.setMark_held (s : State) (g : Nat) (p : Bool) : (s.setMark g p).held = s.held := rfl
@[simp] theorem State.setMark_captured (s : State) (g : Nat) (p : Bool) : (s.setMark g p).captured = s.captured := rfl
@[simp] theorem State.setMark_mem (s : State) (g : Nat) (p : Bool) : (s.setMark g p).mem = s.mem := rfl
@[simp] theorem State.setMark_haze (s : State) (g : Nat) (p : Bool) : (s.setMark g p).haze = s.haze := rfl
@[simp] theorem State.setMark_poison (s : State) (g : Nat) (p : Bool) : (s.setMark g p).poison = FMap.set (markDefault s.poisonFrom) s.poison g p := rfl
@[simp] theorem State.setMark_poisonFrom (s : State) (g : Nat) (p : Bool) : (s.setMark g p).poisonFrom = s.poisonFrom := rfl
@[simp] theorem State.setMark_array (s : State) (g : Nat) (p : Bool) : (s.setMark g p).array = s.array := rfl
@[simp] theorem State.setMark_switchWaits (s : State) (g : Nat) (p : Bool) : (s.setMark g p).switchWaits = s.switchWaits := rfl
@[simp] theorem State.setMark_retireWaits (s : State) (g : Nat) (p : Bool) : (s.setMark g p).retireWaits = s.retireWaits := rfl
@[simp] theorem State.setMark_mcWaiting (s : State) (g : Nat) (p : Bool) : (s.setMark g p).mcWaiting = s.mcWaiting := rfl
@[simp] theorem State.setMark_cores (s : State) (g : Nat) (p : Bool) : (s.setMark g p).cores = s.cores := rfl
@[simp] theorem State.setMark_slices (s : State) (g : Nat) (p : Bool) : (s.setMark g p).slices = s.slices := rfl
@[simp] theorem State.setMark_writeBacks (s : State) (g : Nat) (p : Bool) : (s.setMark g p).writeBacks = s.writeBacks := rfl
@[simp] theorem State.setMark_scInv (s : State) (g : Nat) (p : Bool) : (s.setMark g p).scInv = s.scInv := rfl
@[simp] theorem State.setMark_l1Inv (s : State) (g : Nat) (p : Bool) : (s.setMark g p).l1Inv = s.l1Inv := rfl
@[simp] theorem State.setMark_meshRetx (s : State) (g : Nat) (p : Bool) : (s.setMark g p).meshRetx = s.meshRetx := rfl
@[simp] theorem State.setMark_meshFroze (s : State) (g : Nat) (p : Bool) : (s.setMark g p).meshFroze = s.meshFroze := rfl
@[simp] theorem State.setMark_grantFaulted (s : State) (g : Nat) (p : Bool) : (s.setMark g p).grantFaulted = s.grantFaulted := rfl
@[simp] theorem State.setMark_guardRaised (s : State) (g : Nat) (p : Bool) : (s.setMark g p).guardRaised = s.guardRaised := rfl
@[simp] theorem State.setMark_far (s : State) (g : Nat) (p : Bool) : (s.setMark g p).far = s.far := rfl
@[simp] theorem State.setMark_noc (s : State) (g : Nat) (p : Bool) : (s.setMark g p).noc = s.noc := rfl
@[simp] theorem State.setMark_inbound (s : State) (g : Nat) (p : Bool) : (s.setMark g p).inbound = s.inbound := rfl
@[simp] theorem State.setMark_txs (s : State) (g : Nat) (p : Bool) : (s.setMark g p).txs = s.txs := rfl
@[simp] theorem State.setMark_txDead (s : State) (g : Nat) (p : Bool) : (s.setMark g p).txDead = s.txDead := rfl
@[simp] theorem State.setMark_portQueue (s : State) (g : Nat) (p : Bool) : (s.setMark g p).portQueue = s.portQueue := rfl
@[simp] theorem State.setMark_hat (s : State) (g : Nat) (p : Bool) : (s.setMark g p).hat = s.hat := rfl
@[simp] theorem State.setMark_members (s : State) (g : Nat) (p : Bool) : (s.setMark g p).members = s.members := rfl
@[simp] theorem State.setMark_gauge (s : State) (g : Nat) (p : Bool) : (s.setMark g p).gauge = s.gauge := rfl
@[simp] theorem State.setMark_gaugeScrub (s : State) (g : Nat) (p : Bool) : (s.setMark g p).gaugeScrub = s.gaugeScrub := rfl
@[simp] theorem State.setMark_gaugeRepairs (s : State) (g : Nat) (p : Bool) : (s.setMark g p).gaugeRepairs = s.gaugeRepairs := rfl
@[simp] theorem State.setMark_gaugeLast (s : State) (g : Nat) (p : Bool) : (s.setMark g p).gaugeLast = s.gaugeLast := rfl
@[simp] theorem State.setMark_gaugeWaits (s : State) (g : Nat) (p : Bool) : (s.setMark g p).gaugeWaits = s.gaugeWaits := rfl
@[simp] theorem State.setMark_gaugeQueue (s : State) (g : Nat) (p : Bool) : (s.setMark g p).gaugeQueue = s.gaugeQueue := rfl
@[simp] theorem State.setMark_gaugeDone (s : State) (g : Nat) (p : Bool) : (s.setMark g p).gaugeDone = s.gaugeDone := rfl
@[simp] theorem State.setMark_rings (s : State) (g : Nat) (p : Bool) : (s.setMark g p).rings = s.rings := rfl
@[simp] theorem State.setMark_ringNext (s : State) (g : Nat) (p : Bool) : (s.setMark g p).ringNext = s.ringNext := rfl
@[simp] theorem State.setMark_jobs (s : State) (g : Nat) (p : Bool) : (s.setMark g p).jobs = s.jobs := rfl
@[simp] theorem State.setMark_dmaTop (s : State) (g : Nat) (p : Bool) : (s.setMark g p).dmaTop = s.dmaTop := rfl
@[simp] theorem State.setMark_dmaLast (s : State) (g : Nat) (p : Bool) : (s.setMark g p).dmaLast = s.dmaLast := rfl
@[simp] theorem State.setMark_dmaStalled (s : State) (g : Nat) (p : Bool) : (s.setMark g p).dmaStalled = s.dmaStalled := rfl
@[simp] theorem State.setMark_dmaReg (s : State) (g : Nat) (p : Bool) : (s.setMark g p).dmaReg = s.dmaReg := rfl
@[simp] theorem State.setMark_timerDue (s : State) (g : Nat) (p : Bool) : (s.setMark g p).timerDue = s.timerDue := rfl
@[simp] theorem State.setMark_stpFails (s : State) (g : Nat) (p : Bool) : (s.setMark g p).stpFails = s.stpFails := rfl
@[simp] theorem State.setMark_stpRetire (s : State) (g : Nat) (p : Bool) : (s.setMark g p).stpRetire = s.stpRetire := rfl
@[simp] theorem State.setMark_stpMade (s : State) (g : Nat) (p : Bool) : (s.setMark g p).stpMade = s.stpMade := rfl
@[simp] theorem State.setMark_slots (s : State) (g : Nat) (p : Bool) : (s.setMark g p).slots = s.slots := rfl
@[simp] theorem State.setMark_prfTurn (s : State) (g : Nat) (p : Bool) : (s.setMark g p).prfTurn = s.prfTurn := rfl
@[simp] theorem State.setMark_prfUsed (s : State) (g : Nat) (p : Bool) : (s.setMark g p).prfUsed = s.prfUsed := rfl
@[simp] theorem State.setMark_waiters (s : State) (g : Nat) (p : Bool) : (s.setMark g p).waiters = s.waiters := rfl
@[simp] theorem State.setMark_waitOrder (s : State) (g : Nat) (p : Bool) : (s.setMark g p).waitOrder = s.waitOrder := rfl
@[simp] theorem State.setMark_ready (s : State) (g : Nat) (p : Bool) : (s.setMark g p).ready = s.ready := rfl
@[simp] theorem State.setMark_headSlots (s : State) (g : Nat) (p : Bool) : (s.setMark g p).headSlots = s.headSlots := rfl
@[simp] theorem State.setMark_slotWaits (s : State) (g : Nat) (p : Bool) : (s.setMark g p).slotWaits = s.slotWaits := rfl
@[simp] theorem State.setMark_prioSet (s : State) (g : Nat) (p : Bool) : (s.setMark g p).prioSet = s.prioSet := rfl
@[simp] theorem State.setMark_placements (s : State) (g : Nat) (p : Bool) : (s.setMark g p).placements = s.placements := rfl
@[simp] theorem State.setMark_time (s : State) (g : Nat) (p : Bool) : (s.setMark g p).time = s.time := rfl
@[simp] theorem State.setMark_fresh (s : State) (g : Nat) (p : Bool) : (s.setMark g p).fresh = s.fresh := rfl
@[simp] theorem State.setMark_pairs (s : State) (g : Nat) (p : Bool) : (s.setMark g p).pairs = s.pairs := rfl
@[simp] theorem State.setMark_cmds (s : State) (g : Nat) (p : Bool) : (s.setMark g p).cmds = s.cmds := rfl
@[simp] theorem State.setMark_fetches (s : State) (g : Nat) (p : Bool) : (s.setMark g p).fetches = s.fetches := rfl
@[simp] theorem State.setMark_arbClass (s : State) (g : Nat) (p : Bool) : (s.setMark g p).arbClass = s.arbClass := rfl
@[simp] theorem State.setMark_arbCredit (s : State) (g : Nat) (p : Bool) : (s.setMark g p).arbCredit = s.arbCredit := rfl
@[simp] theorem State.setMark_arbLast (s : State) (g : Nat) (p : Bool) : (s.setMark g p).arbLast = s.arbLast := rfl
@[simp] theorem State.setMark_fetchHold (s : State) (g : Nat) (p : Bool) : (s.setMark g p).fetchHold = s.fetchHold := rfl
@[simp] theorem State.setMark_lastWait (s : State) (g : Nat) (p : Bool) : (s.setMark g p).lastWait = s.lastWait := rfl
@[simp] theorem State.setMark_clampWaits (s : State) (g : Nat) (p : Bool) : (s.setMark g p).clampWaits = s.clampWaits := rfl
@[simp] theorem State.setMark_clampTimeouts (s : State) (g : Nat) (p : Bool) : (s.setMark g p).clampTimeouts = s.clampTimeouts := rfl
@[simp] theorem State.setMark_collector (s : State) (g : Nat) (p : Bool) : (s.setMark g p).collector = s.collector := rfl
@[simp] theorem State.setMark_notices (s : State) (g : Nat) (p : Bool) : (s.setMark g p).notices = s.notices := rfl
@[simp] theorem State.setMark_quotas (s : State) (g : Nat) (p : Bool) : (s.setMark g p).quotas = s.quotas := rfl
@[simp] theorem State.setMark_published (s : State) (g : Nat) (p : Bool) : (s.setMark g p).published = s.published := rfl
@[simp] theorem State.setMark_floor (s : State) (g : Nat) (p : Bool) : (s.setMark g p).floor = s.floor := rfl
@[simp] theorem State.setMark_retain (s : State) (g : Nat) (p : Bool) : (s.setMark g p).retain = s.retain := rfl
@[simp] theorem State.setMark_named (s : State) (g : Nat) (p : Bool) : (s.setMark g p).named = s.named := rfl
@[simp] theorem State.setMark_spaces (s : State) (g : Nat) (p : Bool) : (s.setMark g p).spaces = s.spaces := rfl
@[simp] theorem State.setMark_tables (s : State) (g : Nat) (p : Bool) : (s.setMark g p).tables = s.tables := rfl
@[simp] theorem State.setMark_images (s : State) (g : Nat) (p : Bool) : (s.setMark g p).images = s.images := rfl
@[simp] theorem State.setMark_imageGens (s : State) (g : Nat) (p : Bool) : (s.setMark g p).imageGens = s.imageGens := rfl
@[simp] theorem State.setMark_runs (s : State) (g : Nat) (p : Bool) : (s.setMark g p).runs = s.runs := rfl
@[simp] theorem State.setMark_waits (s : State) (g : Nat) (p : Bool) : (s.setMark g p).waits = s.waits := rfl
@[simp] theorem State.setMark_offline (s : State) (g : Nat) (p : Bool) : (s.setMark g p).offline = s.offline := rfl
@[simp] theorem State.setMark_peerRetired (s : State) (g : Nat) (p : Bool) : (s.setMark g p).peerRetired = s.peerRetired := rfl
@[simp] theorem State.setMark_peerGens (s : State) (g : Nat) (p : Bool) : (s.setMark g p).peerGens = s.peerGens := rfl
@[simp] theorem State.setMark_functions (s : State) (g : Nat) (p : Bool) : (s.setMark g p).functions = s.functions := rfl
@[simp] theorem State.setMark_relaxed (s : State) (g : Nat) (p : Bool) : (s.setMark g p).relaxed = s.relaxed := rfl
@[simp] theorem State.setMark_pcie (s : State) (g : Nat) (p : Bool) : (s.setMark g p).pcie = s.pcie := rfl
@[simp] theorem State.setMark_plate (s : State) (g : Nat) (p : Bool) : (s.setMark g p).plate = s.plate := rfl
@[simp] theorem State.setMark_steady (s : State) (g : Nat) (p : Bool) : (s.setMark g p).steady = s.steady := rfl
@[simp] theorem State.setMark_boot (s : State) (g : Nat) (p : Bool) : (s.setMark g p).boot = s.boot := rfl
@[simp] theorem State.setMark_sent (s : State) (g : Nat) (p : Bool) : (s.setMark g p).sent = s.sent := rfl
@[simp] theorem State.setMark_answer (s : State) (g : Nat) (p : Bool) : (s.setMark g p).answer = s.answer := rfl
@[simp] theorem State.setMark_pending (s : State) (g : Nat) (p : Bool) : (s.setMark g p).pending = s.pending := rfl

/-! Register words. -/

/-- A register reads as the word last put there. -/
@[simp] theorem State.rd_wr_self (s : State) (off : Nat) (v : Word) : (s.wr off v).rd off = v :=
  FMap.get_set_self regReset s.regs off v

/-- A register other than the one written keeps its word. -/
theorem State.rd_wr_other (s : State) {off a : Nat} (v : Word) (h : a ≠ off) : (s.wr off v).rd a = s.rd a :=
  FMap.get_set_other regReset s.regs v h

/-- The word of every register after one was written. -/
theorem State.rd_wr (s : State) (off a : Nat) (v : Word) : (s.wr off v).rd a = if a = off then v else s.rd a :=
  FMap.get_set regReset s.regs off a v

@[simp] theorem State.rd_setCore (s : State) (c : Nat) (k : Core) (a : Nat) : (s.setCore c k).rd a = s.rd a := rfl
@[simp] theorem State.rd_mcAnswer (s : State) (x : MemAnswer) (a : Nat) : (s.mcAnswer x).rd a = s.rd a := rfl
@[simp] theorem State.rd_putBytes (s : State) (b : Nat) (bs : List Byte) (a : Nat) : (s.putBytes b bs).rd a = s.rd a := rfl

/-- The raw update of one register changes no other. -/
theorem State.rd_setFld_other (s : State) {off a : Nat} (hi lo v : Nat) (h : a ≠ off) : (s.setFld off hi lo v).rd a = s.rd a :=
  s.rd_wr_other _ h

/-! Cores. -/

@[simp] theorem State.core_setCore_self (s : State) (c : Nat) (k : Core) : (s.setCore c k).core c = k :=
  FMap.get_set_self _ s.cores c k

theorem State.core_setCore_other (s : State) {c d : Nat} (k : Core) (h : d ≠ c) : (s.setCore c k).core d = s.core d :=
  FMap.get_set_other _ s.cores k h

@[simp] theorem State.core_wr (s : State) (off : Nat) (v : Word) (c : Nat) : (s.wr off v).core c = s.core c := rfl

/-! Memory. -/

/-- What each byte of the flat store reads as after bytes were put into it. -/
theorem State.byte_putBytes (s : State) (a x : Nat) (bs : List Byte) :
    FMap.get (memDefault s.haze) (s.putBytes a bs).mem x =
      if a ≤ x ∧ x < a + bs.length then bs.getD (x - a) 0 else FMap.get (memDefault s.haze) s.mem x :=
  FMap.get_store (memDefault s.haze) bs s.mem a x

end Sys2Proof.Machine
end

