-- ==== Sys2Proof/Laws/Bits.lean ====
section
/-! SUPPORT. Bit fields: what a field reads as after it, or another field of its word, was set. -/

namespace Sys2Proof.Machine

theorem bits_eq (n hi lo : Nat) : bits n hi lo = n / 2 ^ lo % 2 ^ (hi + 1 - lo) := by
  unfold bits; rw [Nat.shiftRight_eq_div_pow]

theorem bits_lt (n hi lo : Nat) : bits n hi lo < 2 ^ (hi + 1 - lo) := by
  rw [bits_eq]; exact Nat.mod_lt _ (Nat.two_pow_pos _)

theorem testBit_bits (n hi lo i : Nat) : (bits n hi lo).testBit i = (decide (i < hi + 1 - lo) && n.testBit (lo + i)) := by
  unfold bits; rw [Nat.testBit_mod_two_pow, Nat.testBit_shiftRight]

/-- A word is its low part, its field and what lies above. -/
theorem bits_split (n hi lo : Nat) :
    n = n % 2 ^ lo + 2 ^ lo * (bits n hi lo + 2 ^ (hi + 1 - lo) * (n / 2 ^ lo / 2 ^ (hi + 1 - lo))) := by
  rw [bits_eq, Nat.mod_add_div, Nat.mod_add_div]

theorem setBits_eq (n hi lo v : Nat) :
    setBits n hi lo v =
      n % 2 ^ lo + 2 ^ lo * (v % 2 ^ (hi + 1 - lo) + 2 ^ (hi + 1 - lo) * (n / 2 ^ lo / 2 ^ (hi + 1 - lo))) := by
  have h := bits_split n hi lo
  unfold setBits
  rw [Nat.shiftLeft_eq, Nat.shiftLeft_eq]
  generalize n / 2 ^ lo / 2 ^ (hi + 1 - lo) = q at *
  generalize bits n hi lo = b at *
  generalize v % 2 ^ (hi + 1 - lo) = x at *
  generalize 2 ^ (hi + 1 - lo) = w at *
  generalize 2 ^ lo = l at *
  have e1 : l * (b + w * q) = b * l + l * (w * q) := by rw [Nat.mul_add, Nat.mul_comm l]
  have e2 : l * (x + w * q) = x * l + l * (w * q) := by rw [Nat.mul_add, Nat.mul_comm l]
  rw [e1] at h
  rw [e2]
  omega

theorem testBit_setBits (n hi lo v i : Nat) :
    (setBits n hi lo v).testBit i = if lo ≤ i ∧ i < lo + (hi + 1 - lo) then v.testBit (i - lo) else n.testBit i := by
  rw [setBits_eq]
  rw [show ∀ a b c d : Nat, a + 2 ^ lo * (b + d) = 2 ^ lo * (b + d) + a from fun a b c d => Nat.add_comm _ _ ]
  · rw [Nat.testBit_two_pow_mul_add _ (Nat.mod_lt _ (Nat.two_pow_pos lo))]
    by_cases h : i < lo
    · rw [if_pos h, if_neg (by omega), Nat.testBit_mod_two_pow]; simp [h]
    · rw [if_neg h, Nat.add_comm (v % 2 ^ (hi + 1 - lo)), Nat.testBit_two_pow_mul_add _ (Nat.mod_lt _ (Nat.two_pow_pos _))]
      by_cases h2 : i - lo < hi + 1 - lo
      · rw [if_pos h2, if_pos (by omega), Nat.testBit_mod_two_pow]; simp [h2]
      · rw [if_neg h2, if_neg (by omega), ← Nat.shiftRight_eq_div_pow, ← Nat.shiftRight_eq_div_pow, Nat.testBit_shiftRight,
          Nat.testBit_shiftRight]
        congr 1; omega
  · exact 0

theorem setBits_lt (n hi lo v k : Nat) (hn : n < 2 ^ k) (hk : lo + (hi + 1 - lo) ≤ k) : setBits n hi lo v < 2 ^ k := by
  apply Nat.lt_pow_two_of_testBit
  intro i hi'
  rw [testBit_setBits, if_neg (by omega)]
  exact Nat.testBit_lt_two_pow (Nat.lt_of_lt_of_le hn (Nat.pow_le_pow_right (by decide) hi'))

theorem bits_setBits_self (n hi lo v : Nat) : bits (setBits n hi lo v) hi lo = v % 2 ^ (hi + 1 - lo) := by
  apply Nat.eq_of_testBit_eq
  intro i
  rw [testBit_bits, testBit_setBits, Nat.testBit_mod_two_pow]
  by_cases h : i < hi + 1 - lo
  · rw [if_pos (by omega)]; simp [h]
  · simp [h]

theorem bits_setBits_other (n hi lo v hi' lo' : Nat) (h : hi' < lo ∨ hi < lo') :
    bits (setBits n hi lo v) hi' lo' = bits n hi' lo' := by
  apply Nat.eq_of_testBit_eq
  intro i
  rw [testBit_bits, testBit_bits, testBit_setBits]
  by_cases h1 : i < hi' + 1 - lo'
  · rw [if_neg (by omega)]
  · simp [h1]

theorem toNat_setBits (w : Word) (hi lo v : Nat) (h : lo + (hi + 1 - lo) ≤ 32) :
    (BitVec.ofNat 32 (setBits w.toNat hi lo v)).toNat = setBits w.toNat hi lo v := by
  rw [BitVec.toNat_ofNat]
  exact Nat.mod_eq_of_lt (setBits_lt _ _ _ _ _ w.isLt h)

/-- A field reads as what was put into it. -/
theorem State.fld_setFld_self (s : State) (off hi lo v : Nat) (h : lo + (hi + 1 - lo) ≤ 32) :
    (s.setFld off hi lo v).fld off hi lo = v % 2 ^ (hi + 1 - lo) := by
  unfold State.fld State.setFld
  rw [State.rd_wr_self, toNat_setBits _ _ _ _ h, bits_setBits_self]

/-- A field that shares no bit with the one set keeps its value. -/
theorem State.fld_setFld_other (s : State) (off hi lo v hi' lo' : Nat) (h : lo + (hi + 1 - lo) ≤ 32) (hd : hi' < lo ∨ hi < lo') :
    (s.setFld off hi lo v).fld off hi' lo' = s.fld off hi' lo' := by
  unfold State.fld State.setFld
  rw [State.rd_wr_self, toNat_setBits _ _ _ _ h, bits_setBits_other _ _ _ _ _ _ hd]

/-- A field of another register keeps its value. -/
theorem State.fld_setFld_reg (s : State) {off a : Nat} (hi lo v hi' lo' : Nat) (h : a ≠ off) :
    (s.setFld off hi lo v).fld a hi' lo' = s.fld a hi' lo' := by
  unfold State.fld; rw [State.rd_setFld_other s hi lo v h]

/-- A pair reads as what was put into it. -/
theorem State.rd64_wr64_self (s : State) (off v : Nat) (h : v < 2 ^ 64) : (s.wr64 off v).rd64 off = v := by
  unfold State.rd64 State.wr64
  rw [State.rd_wr_other _ _ (by omega : off ≠ off + 4), State.rd_wr_self, State.rd_wr_self, BitVec.toNat_ofNat, BitVec.toNat_ofNat]
  omega

theorem State.rd_wr64_other (s : State) {off a : Nat} (v : Nat) (h : a ≠ off) (h4 : a ≠ off + 4) : (s.wr64 off v).rd a = s.rd a := by
  unfold State.wr64; rw [State.rd_wr_other _ _ h4, State.rd_wr_other _ _ h]

end Sys2Proof.Machine
end

