-- ==== Sys2Proof/Laws/Insn.lean ====
section
/-! SUPPORT. What a command answers, and what an instruction of a core comes to once its meaning is known: one lemma for each way an
instruction ends. -/

namespace Sys2Proof.Machine

/-- A well-formed command answers the state that its effect makes. -/
@[simp] theorem done_true (s t : State) : done true s t = .next (s.seal t) := rfl

/-- A command out of its ranges changes nothing. -/
@[simp] theorem done_false (s t : State) : done false s t = .next s := rfl

theorem done_of {ok : Bool} (h : ok = true) (s t : State) : done ok s t = .next (s.seal t) := by subst h; rfl

theorem State.insn_of {s : State} {c : Nat} {pfx : Option Word} {w : Word} {f : Ctx → State → Out} {o : Out}
    (h : Executable c pfx w) (hf : f (s.ctx c pfx w) s = o) :
    s.insn bus c pfx w f = ((s.ctx c pfx w).finish o).afterInsn c o.waits := by
  obtain ⟨hp, hw, hm⟩ := h
  have hon : onCore f (s.ctx c pfx w) s = o := by
    have hno : ¬ (c ≥ 128 ∧ headMajor w = false) := by
      rintro ⟨h1, h2⟩
      rcases hm with hm | hm
      · omega
      · rw [hm] at h2; cases h2
    rw [← hf]
    unfold onCore
    rw [if_neg]
    simpa [State.ctx] using hno
  unfold State.insn
  rw [State.ctx] at hon
  rw [State.ctx]
  simp [hp, hw, hon]

theorem State.runRow_of {s : State} {c : Nat} {pfx : Option Word} {w : Word} {is : Word → Bool} {f : Ctx → State → Out} {o : Out}
    (hr : s.running c = true) (hi : is w = true) (h : Executable c pfx w) (hf : f (s.ctx c pfx w) s = o) :
    s.runRow bus c pfx w is f = ((s.ctx c pfx w).finish o).afterInsn c o.waits := by
  unfold State.runRow
  rw [if_neg (by simp [hr]), if_pos hi]
  exact State.insn_of h hf

/-- An instruction that completes. -/
theorem State.runRow_next {s t : State} {c : Nat} {pfx : Option Word} {w : Word} {is : Word → Bool} {f : Ctx → State → Out} {k : Core}
    (hr : s.running c = true) (hi : is w = true) (h : Executable c pfx w) (hf : f (s.ctx c pfx w) s = .next k t) :
    s.runRow bus c pfx w is f = t.retire c { k with pc := (s.core c).pc + (if pfx.isSome then 8 else 4) } := by
  rw [State.runRow_of hr hi h hf]
  cases pfx <;> rfl

/-- An instruction that jumps. -/
theorem State.runRow_goto {s t : State} {c : Nat} {pfx : Option Word} {w : Word} {is : Word → Bool} {f : Ctx → State → Out} {k : Core}
    {pc : BitVec 48} (hr : s.running c = true) (hi : is w = true) (h : Executable c pfx w)
    (hf : f (s.ctx c pfx w) s = .goto pc k t) :
    s.runRow bus c pfx w is f = t.retire c { k with pc := pc } := by
  rw [State.runRow_of hr hi h hf]
  rfl

/-- An instruction that raises an exception. -/
theorem State.runRow_trap {s t : State} {c : Nat} {pfx : Option Word} {w : Word} {is : Word → Bool} {f : Ctx → State → Out} {k : Core}
    {e : Exc} (hr : s.running c = true) (hi : is w = true) (h : Executable c pfx w) (hf : f (s.ctx c pfx w) s = .trap e k t) :
    s.runRow bus c pfx w is f = t.trapped c k e := by
  rw [State.runRow_of hr hi h hf]
  rfl

/-! A register command that reaches its unit. -/

theorem State.regDo_of {s t : State} {m off : Nat} (h : s.Reaches m off t) (act : State → State) :
    s.regDo m off act = (act t).acked := by
  obtain ⟨hg, ht, hs⟩ := h
  subst ht
  unfold State.regDo State.arrive
  rw [hg]
  simp only [hs]
  rfl

theorem State.regPut_of {s t : State} {m off : Nat} (h : s.domainGate (.reg off) m (regDpa off) = none) (ht : t = s.wakeTile (.reg off))
    (v : Word) : s.regPut m off v = (State.regIn (busAt 65) t m off v).acked := by
  subst ht
  unfold State.regPut State.arrive
  rw [h]
  rfl

theorem State.packetIn_of {s : State} {p op : Nat} {k : Packet} (h : s.Receives p op k) (act : State → State) :
    s.packetIn p op k act = act s := by
  obtain ⟨h1, h2, h3⟩ := h
  unfold State.packetIn
  rw [if_neg (by rcases h3 with h | h | h <;> simp [h2, h]), if_neg (by simp [h1])]

/-- The bits of a command word with one single-bit field put in: the kept bits below `k` as they stand, every other bit 0. -/
theorem State.cmdWord_testBit (s : State) (off k f b i : Nat) :
    (s.cmdWord off k f f b).toNat.testBit i =
      (decide (i < 32) && (if f = i then b.testBit 0 else decide (i < k) && s.bit off i)) := by
  unfold State.cmdWord State.bit
  rw [BitVec.toNat_ofNat, Nat.testBit_mod_two_pow, testBit_setBits, Nat.testBit_mod_two_pow]
  by_cases h : f = i
  · subst h; simp
  · have : ¬ (f ≤ i ∧ i < f + (f + 1 - f)) := by omega
    rw [if_neg this]; simp [h]

theorem State.putBit_same {t : State} {off i : Nat} {v : Word} (h : v.toNat.testBit i = t.bit off i) : t.putBit off i v = t := by
  unfold State.putBit; rw [if_pos h]

end Sys2Proof.Machine
end

