-- ==== Sys2Proof/Laws/Bench.lean ====
section
/-! SUPPORT. What an access of a tile's core does through its bench window (R86): every load, store and atomic, and the vector loads
and stores made of them, goes through. -/

namespace Sys2Proof.Machine

theorem natLE_length : ∀ (k n : Nat), (natLE k n).length = k
  | 0, _ => rfl
  | k + 1, n => by simp [natLE, natLE_length k]

theorem InBench.aligned {ea : DWord} {k : Nat} (h : InBench ea k) : misaligned ea k = false := by
  unfold misaligned; simp [h.2.1]

theorem State.translate_bench (s : State) {c : Nat} {ea : DWord} {k : Nat} {n : Need} (hc : c < 64) (h : InBench ea k)
    (hn : n ≠ .fetch) : s.translate c ea k n = .ok (.bench (benchOff ea)) := by
  obtain ⟨h1, _, h2, h3⟩ := h
  unfold State.translate
  rw [if_neg (by simp [h1])]
  dsimp only
  rw [if_neg (by simp [State.supervisor]; omega), if_pos (by simp; omega), if_neg hn, if_pos h3]
  rfl

theorem State.load_bench (s : State) {x : Ctx} {ea : DWord} {k : Nat} (hc : x.c < 64) (h : InBench ea k)
    (hp : s.anyPoison (benchAt x.c (benchOff ea)) k = false) :
    s.load x ea k = (.data (s.bytes (benchAt x.c (benchOff ea)) k), s) := by
  unfold State.load
  rw [s.translate_bench hc h (by decide)]
  show (loadedOf _ ea, s) = _
  simp only [State.storeRead, hp]
  rfl

theorem State.store_bench (s : State) {x : Ctx} {ea : DWord} {d : List Byte} (hc : x.c < 64) (h : InBench ea d.length) :
    s.store x ea d = (.done, s.benchStore x.c (benchOff ea) d false) := by
  unfold State.store
  rw [s.translate_bench hc h (by decide)]
  rfl

theorem State.atomic_bench (s : State) {x : Ctx} {op : Nat} {ea : DWord} {k : Nat} {v new : DWord} (hc : x.c < 64) (h : InBench ea k)
    (hp : s.anyPoison (benchAt x.c (benchOff ea)) k = false) :
    s.atomic x op ea k v new =
      (.data (s.bytes (benchAt x.c (benchOff ea)) k), s.benchStore x.c (benchOff ea)
        (natLE k (amoResult op (8 * k) (leNat (s.bytes (benchAt x.c (benchOff ea)) k)) v.toNat new.toNat)) false) := by
  unfold State.atomic
  rw [s.translate_bench hc h (by decide)]
  dsimp only [State.storeRead]
  rw [hp]
  rfl

/-- Fields in the bench are all loaded, and loading them changes nothing. -/
theorem State.loadFields_bench (s : State) {x : Ctx} {eb : Nat} (hc : x.c < 64) : ∀ (eas : List DWord),
    (∀ ea ∈ eas, InBench ea eb ∧ s.anyPoison (benchAt x.c (benchOff ea)) eb = false) →
    s.loadFields x eb eas = (.inl (eas.map (fun ea => leNat (s.bytes (benchAt x.c (benchOff ea)) eb))), s)
  | [], _ => rfl
  | ea :: rest, h => by
    have h0 := h ea (by simp)
    unfold State.loadFields State.loadElem
    rw [if_neg (by simp [h0.1.aligned]), s.load_bench hc h0.1 h0.2]
    dsimp only
    rw [s.loadFields_bench hc rest (fun e he => h e (by simp [he]))]
    rfl

theorem State.storeFields_bench {x : Ctx} {eb : Nat} (hc : x.c < 64) : ∀ (es : List (DWord × Nat)) (s : State),
    (∀ e ∈ es, InBench e.1 eb) → (s.storeFields x eb es).1 = .done
  | [], _, _ => rfl
  | (ea, v) :: rest, s, h => by
    have h0 : InBench ea eb := h (ea, v) (by simp)
    unfold State.storeFields State.storeElem
    rw [if_neg (by simp [h0.aligned]), s.store_bench hc (by rw [natLE_length]; exact h0)]
    exact State.storeFields_bench hc rest _ (fun e he => h e (by simp [he]))

theorem State.checkFields_bench (s : State) {x : Ctx} {eb : Nat} (hc : x.c < 64) {eas : List DWord}
    (h : ∀ ea ∈ eas, InBench ea eb) : s.checkFields x eb eas = none := by
  unfold State.checkFields
  rw [List.findSome?_eq_none_iff]
  intro ea hea
  rw [if_neg (by simp [(h ea hea).aligned]), s.translate_bench hc (h ea hea) (by decide)]

theorem mem_strip {k : Core} {i : Nat} (h : i ∈ k.strip) : k.vbegin ≤ i ∧ i < k.vl := by
  unfold Core.strip rangeFrom at h
  simp at h
  obtain ⟨q, hq, rfl⟩ := h
  omega

/-- A fold that goes on from every state with `P`, and keeps `P`, goes through. -/
theorem foldl_go {P : State → Prop} {F : VProg × State → Nat → VProg × State} :
    ∀ (l : List Nat) (s : State), P s → (∀ i ∈ l, ∀ t, P t → (F (.go, t) i).1 = .go ∧ P (F (.go, t) i).2) → (l.foldl F (.go, s)).1 = .go
  | [], _, _, _ => rfl
  | i :: l, s, hs, h => by
    have h0 := h i (by simp) s hs
    rw [List.foldl_cons]
    have : F (.go, s) i = (.go, (F (.go, s) i).2) := Prod.ext h0.1 rfl
    rw [this]
    exact foldl_go l _ h0.2 (fun j hj => h j (by simp [hj]))

/-- A vector load whose active elements all lie in the bench, unpoisoned, goes through. -/
theorem State.vload_bench (s : State) {x : Ctx} (pg vd : Nat) (eas : Nat → List DWord) (hc : x.c < 64)
    (h : ∀ i, x.k.vbegin ≤ i → i < x.k.vl → x.k.governs x.k.eb pg i = true → ∀ ea ∈ eas i,
      InBench ea x.k.eb ∧ s.anyPoison (benchAt x.c (benchOff ea)) x.k.eb = false) : (s.vload x pg vd eas).1 = .go := by
  unfold State.vload
  refine foldl_go (P := fun t => t.poison = s.poison ∧ t.poisonFrom = s.poisonFrom) _ _ ⟨rfl, rfl⟩ ?_
  intro i hi t ht
  have hm := mem_strip hi
  have hp : ∀ a n, t.anyPoison a n = s.anyPoison a n := by
    intro a n; unfold State.anyPoison State.mark; rw [ht.1, ht.2]
  dsimp only
  split
  · next hg =>
    rw [t.loadFields_bench hc (eas i) (fun e he => by rw [hp]; exact h i hm.1 hm.2 hg e he)]
    exact ⟨rfl, ht⟩
  · exact ⟨rfl, ht⟩

/-- A vector store whose active elements all lie in the bench goes through. -/
theorem State.vstore_bench (s : State) {x : Ctx} (pg vd : Nat) (eas : Nat → List DWord) (hc : x.c < 64)
    (h : ∀ i, x.k.vbegin ≤ i → i < x.k.vl → x.k.governs x.k.eb pg i = true → ∀ ea ∈ eas i, InBench ea x.k.eb) :
    (s.vstore x pg vd eas).1 = .go := by
  unfold State.vstore
  refine foldl_go (P := fun _ => True) _ _ trivial ?_
  intro i hi t _
  have hm := mem_strip hi
  dsimp only
  split
  · next hg =>
    have hb := h i hm.1 hm.2 hg
    rw [t.checkFields_bench hc hb]
    dsimp only
    have hd := State.storeFields_bench hc ((eas i).zip ((List.range (eas i).length).map (fun j => x.k.elem x.k.eb (vd + j * x.k.grp) i))) t
      (fun e he => hb e.1 (List.of_mem_zip he).1)
    generalize t.storeFields _ _ _ = r at hd ⊢
    obtain ⟨r1, r2⟩ := r
    dsimp only at hd
    subst hd
    exact ⟨rfl, trivial⟩
  · exact ⟨rfl, trivial⟩

end Sys2Proof.Machine
end

