-- ==== Sys2Proof/Laws/Gauge.lean ====
section
/-! SUPPORT. What a search of an idle Gauge comes to where nothing is in its way: the match that is picked, and one more search
counted. -/

namespace Sys2Proof.Machine

theorem State.judge_ok {s : State} {t m a n : Nat} {r : Rights} (hb : s.newlyBroken t = []) (hv : s.verdict t m a n r = St.ok) :
    s.judge t m a n r = (St.ok, s) := by
  unfold State.judge
  dsimp only
  rw [hb, hv]
  rfl

theorem State.gLookup_free {s : State} {m t : Nat} {key : List DWord} {pick : List GMatch → Option GMatch} (h : s.Searches m t key)
    (hp : ∀ ms f, pick ms = some f → f ∈ ms) :
    s.gLookup m t key pick =
      (⟨St.ok, gResult (pick (s.gMatches t key)) (s.gMatches t key).length, pick (s.gMatches t key)⟩,
        s.countWrap (Reg.GAU_TBL_SEARCHES t)) := by
  obtain ⟨_, _, h3, h4, h5, h6, h7, h8, h9⟩ := h
  have e : s.gSearch t key pick (s.gauge.length + 1) =
      (⟨St.ok, gResult (pick (s.gMatches t key)) (s.gMatches t key).length, pick (s.gMatches t key)⟩, s) := by
    rw [State.gSearch]
    dsimp only
    cases hf : pick (s.gMatches t key) with
    | none => rfl
    | some f => dsimp only; rw [if_neg (by simp [h9 f (hp _ _ hf)])]
  unfold State.gLookup
  rw [if_neg (by simp [h3]), State.judge_ok h4 h5]
  dsimp only
  rw [if_neg (by simp), if_neg (by simp; omega), if_neg (by simp [h8]), e]
  rfl

theorem State.gServe_idle {s : State} (h : s.GaugeIdle) : s.gServe = s := by
  obtain ⟨h1, _, h3, h4⟩ := h
  have hf : s.gaugeWaits.filter (fun k => s.gSlotOp k ≠ 4) = [] := by
    rw [List.filter_eq_nil_iff]; intro k hk; simp [h4 k hk]
  have hg : s.gaugeWaits.filter (fun k => s.gSlotOp k = 4) = s.gaugeWaits := by
    rw [List.filter_eq_self]; intro k hk; simp [h4 k hk]
  have hs : ({ s with gaugeQueue := [] } : State) = s := by rw [← h1]
  unfold State.gServe
  rw [if_neg (by simp [h3]), h1, hs]
  dsimp only [List.foldl]
  rw [hf, hg]
  rfl

theorem State.gAsk_free {s : State} {m t rank : Nat} {key : List DWord} (hi : s.GaugeIdle) (h : s.Searches m t key) :
    s.gAsk ⟨t, m, some rank, key, none⟩ =
      (St.ok, gResult (s.gMatches t key)[rank]? (s.gMatches t key).length, s.countWrap (Reg.GAU_TBL_SEARCHES t)) := by
  unfold State.gAsk
  dsimp only
  rw [State.gServe_idle hi, hi.2.1]
  dsimp only [List.find?]
  rw [if_neg (by simp [hi.2.2.1])]
  unfold State.gMake
  dsimp only
  rw [State.gLookup_free h (fun ms f hf => List.mem_of_getElem? hf)]

end Sys2Proof.Machine
end

