-- ==== Sys2Proof/Laws/Guard.lean ====
section
/-! SUPPORT. What signalling a thread, sending a vector and Guard's own sending leave of the registers: everything that Guard's
interrupt condition reads. -/

namespace Sys2Proof.Machine

/-- A register that no thread event and no pending bit of a vector is held in. -/
abbrev Calm (k : Nat) : Prop := k ≠ 0x200004 ∧ ¬ (0x202000 ≤ k ∧ k < 0x205000) ∧ k < 0x1000000

theorem any64_congr {p q : Nat → Bool} (h : ∀ n, n < 64 → p n = q n) : (List.range 64).any p = (List.range 64).any q := by
  rw [Bool.eq_iff_iff]; simp only [List.any_eq_true, List.mem_range]
  constructor <;> rintro ⟨n, hn, hp⟩ <;> exact ⟨n, hn, by simpa [h n hn] using hp⟩

theorem State.intOn_congr {s t : State} (h : ∀ k, Calm k → t.rd k = s.rd k) {a b : Nat} (ha : Calm a) (hb : Calm b) :
    t.intOn a b = s.intOn a b := by unfold State.intOn; rw [h a ha, h b hb]

theorem State.unitInt_congr {s t : State} (h : ∀ k, Calm k → t.rd k = s.rd k) : t.unitInt = s.unitInt := by
  have hi : ∀ {a b : Nat}, Calm a → Calm b → t.intOn a b = s.intOn a b := fun ha hb => State.intOn_congr h ha hb
  have hT : t.rd64 Reg.GLB_TILE_FAILING_LO = s.rd64 Reg.GLB_TILE_FAILING_LO := by
    unfold State.rd64; rw [h _ (by unfold Calm Reg.GLB_TILE_FAILING_LO; omega), h _ (by unfold Calm Reg.GLB_TILE_FAILING_LO; omega)]
  unfold State.unitInt
  simp only []
  rw [hi (by decide) (by decide), hi (by decide) (by decide), hi (by decide) (by decide), hi (by decide) (by decide),
    hi (by decide) (by decide), hi (by decide) (by decide), hi (by decide) (by decide), hi (by decide) (by decide),
    any64_congr (p := fun r => t.intOn (Reg.MSH_INT_STATUS r) (Reg.MSH_INT_ENABLE r))
      (fun n hn => hi (by unfold Calm Reg.MSH_INT_STATUS; omega) (by unfold Calm Reg.MSH_INT_ENABLE; omega)),
    hi (by decide) (by decide),
    any64_congr (p := fun n => t.intOn (Reg.MC_INT_STATUS n) (Reg.MC_INT_ENABLE n))
      (fun n hn => hi (by unfold Calm Reg.MC_INT_STATUS; omega) (by unfold Calm Reg.MC_INT_ENABLE; omega)),
    hT,
    any64_congr (p := fun n => t.bit (Reg.SCS_STATUS n) 1) (q := fun n => s.bit (Reg.SCS_STATUS n) 1)
      (fun n hn => by unfold State.bit; rw [h _ (by unfold Calm Reg.SCS_STATUS; omega)])]

theorem State.guardCondition_congr {s t : State} (h : ∀ k, Calm k → t.rd k = s.rd k) : t.guardCondition = s.guardCondition := by
  unfold State.guardCondition
  rw [State.unitInt_congr h, State.intOn_congr h (by decide) (by decide)]

theorem State.rd_wr_fed (s : State) {off k : Nat} (v : Word) (ho : ¬ Calm off) (hk : Calm k) : (s.wr off v).rd k = s.rd k :=
  s.rd_wr_other v (fun e => ho (e ▸ hk))

theorem State.makeReady_rd (s : State) (t k : Nat) (hk : Calm k) : (s.makeReady t).rd k = s.rd k := by
  refine State.rd_wr_fed s _ ?_ hk
  unfold Calm Reg.HDS_THR_STATE; have := Nat.mod_lt t (show 1024 > 0 by decide); omega

theorem State.signal_rd (s : State) (e k : Nat) (he : e < 1024) (hk : Calm k) : (s.signal e).rd k = s.rd k := by
  unfold State.signal
  split
  · exact State.makeReady_rd _ _ _ hk
  · split
    · exact State.rd_wr_fed s _ (by unfold Calm Reg.HDS_STATUS; omega) hk
    · exact State.rd_wr_fed s _ (by unfold Calm Reg.HDS_EVT; omega) hk

theorem State.msix_rd (s : State) (v k : Nat) (hk : Calm k) : (s.msix 0 v).rd k = s.rd k := by
  unfold State.msix
  split
  · exact State.rd_wr_fed s _ (by unfold Calm pbaWord fnView; omega) hk
  · rfl

theorem State.guardSend_rd (s : State) (k : Nat) (hk : Calm k) : s.guardSend.rd k = s.rd k := by
  unfold State.guardSend
  simp only []
  split <;> split <;> simp only [State.signal_rd _ _ _ (by decide : (130 : Nat) < 1024) hk, State.msix_rd _ _ _ hk]

theorem State.signal_raised (s : State) (e : Nat) : (s.signal e).guardRaised = s.guardRaised := by
  unfold State.signal; split
  · rfl
  · split <;> rfl
theorem State.msix_raised (s : State) (f v : Nat) : (s.msix f v).guardRaised = s.guardRaised := by
  unfold State.msix; split <;> rfl
theorem State.guardSend_raised (s : State) : s.guardSend.guardRaised = s.guardRaised := by
  unfold State.guardSend; simp only []; split <;> split <;> simp [State.signal_raised, State.msix_raised]

theorem State.guardEdge_rd (s : State) (k : Nat) (hk : Calm k) : s.guardEdge.rd k = s.rd k := by
  unfold State.guardEdge
  simp only []
  split
  · exact State.guardSend_rd _ k hk
  · rfl

/-- With no READY thread, no prefetch slot filled and no slot command waiting, the dispatcher's turn changes nothing. -/
theorem State.dispatcherTurn_idle {s : State} (h : s.ready = []) (h1 : s.headSlots = []) (h2 : s.slotWaits = []) :
    s.dispatcherTurn = s := by
  unfold State.dispatcherTurn; rw [h, h1, h2]; rfl

/-- A sealed effect reads as the effect does, in every register but those that Guard's sending uses, where the dispatcher is idle. -/
theorem State.seal_rd (s t : State) (k : Nat) (hk : Calm k) (h : t.dispatcherTurn = t) : (s.seal t).rd k = t.rd k := by
  unfold State.seal; rw [State.guardEdge_rd _ k hk, h]; rfl

/-- A register that a report to Guard leaves alone. -/
abbrev Unlogged (k : Nat) : Prop := Calm k ∧ (k < 0x2000 ∨ 0x5000 ≤ k)

theorem State.wrWords_rd (k : Nat) : ∀ (ws : List Nat) (s : State) (off : Nat), (k < off ∨ off + 4 * ws.length ≤ k) →
    (s.wrWords off ws).rd k = s.rd k
  | [], _, _, _ => rfl
  | w :: ws, s, off, h => by
    have h' : k < off + 4 ∧ k < off ∨ off + 4 + 4 * ws.length ≤ k := by simp only [List.length_cons] at h; omega
    show ((s.wr off (BitVec.ofNat 32 w)).wrWords (off + 4) ws).rd k = _
    rw [State.wrWords_rd k ws _ _ (by omega), State.rd_wr_other _ _ (by omega)]

theorem State.storeReport_rd (s : State) (r : Report) (k : Nat) (hk : Unlogged k) : (s.storeReport r).rd k = s.rd k := by
  obtain ⟨hc, hk⟩ := hk
  unfold State.storeReport
  dsimp only
  split
  · rw [State.rd_setFld_other _ _ _ _ (by unfold Reg.GRD_INT_STATUS; omega)]
    unfold State.count
    rw [State.rd_setFld_other _ _ _ _ (by unfold Reg.GRD_ELOG_LOST; omega)]
  · have hb : ∀ (x : State) (w : Nat), ((((x.wrWords (Reg.GRD_ELOG_W0 (w % 256)) (reportWords r x.time.toNat)).setFld Reg.GRD_ELOG_WR 8 0
        ((w + 1) % 512)).setFld Reg.GRD_INT_STATUS 0 0 1)).rd k = x.rd k := by
      intro x w
      rw [State.rd_setFld_other _ _ _ _ (by unfold Reg.GRD_INT_STATUS; omega), State.rd_setFld_other _ _ _ _ (by unfold Reg.GRD_ELOG_WR; omega)]
      apply State.wrWords_rd
      have hl : (reportWords r x.time.toNat).length = 8 := rfl
      rw [hl]; unfold Reg.GRD_ELOG_W0; omega
    split
    · rw [State.rd_setFld_other _ _ _ _ (by unfold Reg.GRD_INT_STATUS; omega)]; exact hb s _
    · exact hb s _

theorem State.report_rd (s : State) (r : Report) (k : Nat) (hk : Unlogged k) : (s.report r).rd k = s.rd k := by
  have hk' := hk
  obtain ⟨hc, hk⟩ := hk'
  unfold State.report
  dsimp only
  rw [State.guardEdge_rd _ _ hc]
  split
  · unfold State.newestRecord
    rw [State.rd_setFld_other _ _ _ _ (by unfold Reg.GRD_INT_STATUS; omega), State.rd_wr64_other _ _ (by unfold Reg.GRD_ELOG_W0; omega) (by unfold Reg.GRD_ELOG_W0; omega)]
    unfold State.count
    rw [State.rd_setFld_other _ _ _ _ (by unfold Reg.GRD_ELOG_W0; omega)]
  · exact State.storeReport_rd s r k ⟨hc, hk⟩

/-! A report leaves Steady's state, and so the tile numbers of a pair, alone. -/

theorem State.signal_steady (s : State) (e : Nat) : (s.signal e).steady = s.steady := by
  unfold State.signal; split
  · rfl
  · split <;> rfl
theorem State.guardSend_steady (s : State) : s.guardSend.steady = s.steady := by
  have hm : ∀ v, (s.msix 0 v).steady = s.steady := by intro v; unfold State.msix; split <;> rfl
  unfold State.guardSend; dsimp only; split <;> split <;> simp [State.signal_steady, hm]
theorem State.guardEdge_steady (s : State) : s.guardEdge.steady = s.steady := by
  unfold State.guardEdge; dsimp only; split
  · exact State.guardSend_steady _
  · rfl
theorem State.wrWords_steady : ∀ (ws : List Nat) (s : State) (a : Nat), (s.wrWords a ws).steady = s.steady
  | [], _, _ => rfl
  | _ :: ws, _, _ => State.wrWords_steady ws _ _
theorem State.report_steady (s : State) (r : Report) : (s.report r).steady = s.steady := by
  unfold State.report State.storeReport
  dsimp only
  rw [State.guardEdge_steady]
  split
  · rfl
  · split
    · rfl
    · split <;> exact State.wrWords_steady _ _ _
theorem State.report_pairTile (s : State) (r : Report) (n : Nat) : (s.report r).pairTile n = s.pairTile n := by
  have h : ∀ k, Unlogged k → (s.report r).rd k = s.rd k := fun k hk => State.report_rd s r k hk
  unfold State.pairTile State.role State.inPair State.mode State.fld
  rw [h _ (by decide), h _ (by decide), h _ (by decide), State.report_steady]

end Sys2Proof.Machine
end

