-- ==== Sys2Proof/Laws/Memory.lean ====
section
/-! SUPPORT. The flat store of HBM, benches and keep store keeps its canonical form under every operation on it. -/

namespace Sys2Proof.Machine

/-- Leaving out every entry of a range under which alone the default changes keeps the canonical form. -/
theorem FMap.wfFrom_keep_default {α : Type} [DecidableEq α] (d e : Nat → α) (p : Nat → Bool) (h : ∀ k, p k = true → e k = d k) :
    ∀ (m : FMap α) (b : Nat), FMap.wfFrom d b m = true → FMap.wfFrom e b (FMap.keep m (fun k _ => p k)) = true
  | [], _, _ => rfl
  | (k, v) :: m, b, hm => by
    simp only [FMap.wfFrom, Bool.and_eq_true, decide_eq_true_eq] at hm
    have ih := FMap.wfFrom_keep_default d e p h m (k + 1) hm.2
    unfold FMap.keep at ih ⊢
    rw [List.filter_cons]
    split
    · next hp =>
      simp only [FMap.wfFrom, Bool.and_eq_true, decide_eq_true_eq]
      exact ⟨⟨hm.1.1, by rw [h k hp]; exact hm.1.2⟩, ih⟩
    · exact FMap.wfFrom_mono e (by omega) _ ih

theorem Memory.wf_reset : Memory.wf State.reset = true := rfl

/-- Bytes put into the store keep its form. -/
theorem Memory.wf_putBytes {s : State} (a : Nat) (bs : List Byte) (h : Memory.wf s = true) : Memory.wf (s.putBytes a bs) = true :=
  FMap.wf_store _ bs s.mem a h

/-- A range whose contents become undefined keeps its form. -/
theorem Memory.wf_blur {s : State} (a b : Nat) (h : Memory.wf s = true) : Memory.wf (s.blur a b) = true := by
  refine FMap.wfFrom_keep_default (memDefault s.haze) _ (fun k => !(decide (a ≤ k) && decide (k < b))) (fun k hk => ?_) s.mem 0 h
  show (if a ≤ k && k < b then _ else memDefault s.haze k) = _
  rw [if_neg (by simp at hk ⊢; omega)]

/-- What is lost with a domain's power leaves the form. -/
theorem Memory.wf_loseBytes {s : State} (a n : Nat) (h : Memory.wf s = true) : Memory.wf (s.loseBytes a n) = true := by
  exact FMap.wfFrom_keep (memDefault s.haze) (fun k _ => !(decide (a ≤ k) && decide (k < a + n))) s.mem 0 h

end Sys2Proof.Machine
end

