-- ==== Sys2Proof/Laws/PerInstr.lean ====
section
/-! SUPPORT. A fact about each command as syntax: the MSTID that a well-formed command carries has 12 bits (R33). -/
namespace Sys2Proof.Laws.F

/-- The MSTID of the sender that a command carries; `none` for an event of the block or of its pins. -/
def sender : Instr → Option Nat
  | .registerWrite m _ _ => some m
  | .pairLoRead m _ => some m
  | .pairHiRead m _ => some m
  | .pairLoWrite m _ _ => some m
  | .pairHiWrite m _ _ => some m
  | .unalignedRegisterAccess m _ _ _ => some m
  | .targetRequest r _ => some r.master
  | .bar4Access _ _ _ _ => none
  | .bar0Access _ _ _ _ => none
  | .bar2Access _ _ _ _ => none
  | .affinityWrite m _ _ => some m
  | .grantWrite m _ _ _ _ => some m
  | .guardReport r => some r.master
  | .storageReclaim => none
  | .segmentReplace _ _ _ _ _ _ => none
  | .alu _ _ _ => none
  | .alui _ _ _ => none
  | .scalarLoad _ _ _ => none
  | .scalarStore _ _ _ => none
  | .br _ _ _ => none
  | .call _ _ _ => none
  | .callr _ _ _ => none
  | .jump _ _ _ => none
  | .fence _ _ _ => none
  | .fenceW _ _ _ => none
  | .fenceX _ _ _ => none
  | .rtcall _ _ _ => none
  | .dbgstop _ _ _ => none
  | .endProgram _ _ _ => none
  | .trapret _ _ _ => none
  | .srr _ _ _ => none
  | .srw _ _ _ => none
  | .srs _ _ _ => none
  | .src _ _ _ => none
  | .impreciseException _ => none
  | .tileRun m _ => some m
  | .tileHalt m _ => some m
  | .tileHalted _ => none
  | .tileStep m _ => some m
  | .windowWrite m _ _ _ _ => some m
  | .vsetcfg _ _ _ => none
  | .vintegerOp _ _ _ => none
  | .vfloatOp _ _ _ => none
  | .vcompare _ _ _ => none
  | .predicateOp _ _ _ => none
  | .vectorMove _ _ _ => none
  | .vcvt _ _ _ => none
  | .vld _ _ _ => none
  | .vst _ _ _ => none
  | .vlds _ _ _ => none
  | .vsts _ _ _ => none
  | .gather _ _ _ => none
  | .scatter _ _ _ => none
  | .gatherF _ _ _ => none
  | .ldf _ _ _ => none
  | .stf _ _ _ => none
  | .vcompress _ _ _ => none
  | .vexpand _ _ _ => none
  | .vhash _ _ _ => none
  | .vsort _ _ _ => none
  | .vsortkv _ _ _ => none
  | .vmerge _ _ _ => none
  | .vred _ _ _ => none
  | .vsred _ _ _ => none
  | .vpack _ _ _ => none
  | .vunpack _ _ _ => none
  | .vstrcmp _ _ _ => none
  | .vstrcmpC _ _ _ => none
  | .vstrcmpPredicate _ _ _ => none
  | .vhist _ _ _ => none
  | .vhistadd64 _ _ _ => none
  | .vgauge _ _ _ => none
  | .vsend _ _ _ => none
  | .vrecv _ _ _ => none
  | .sclose _ _ _ => none
  | .sstatOut _ _ _ => none
  | .sstatIn _ _ _ => none
  | .vdopen _ _ _ => none
  | .vdecode _ _ _ => none
  | .vdstat _ _ _ => none
  | .vdclose _ _ _ => none
  | .vamo _ _ _ => none
  | .amo _ _ _ => none
  | .streamElementArrive _ _ _ _ => none
  | .streamCreditReturn _ _ _ => none
  | .channelReset m _ _ _ _ => some m
  | .installProgram _ _ _ => none
  | .programRemove _ => none
  | .run _ _ _ _ => none
  | .stagePlace _ _ _ _ => none
  | .stageStart _ _ => none
  | .runEnd _ _ _ => none
  | .runTimeLimit _ => none
  | .hostSinkWrite _ _ _ _ _ => none
  | .columnSinkWrite _ _ _ _ => none
  | .runCommit _ _ => none
  | .gaugeSearch m _ _ _ _ => some m
  | .gaugeCreate m _ _ _ => some m
  | .gaugeDestroy m _ _ => some m
  | .gaugeSetAcl m _ _ => some m
  | .gaugeWrite m _ _ _ _ => some m
  | .gaugeSlotSearch m _ _ => some m
  | .gaugeNext m _ _ => some m
  | .gaugeReload m _ _ _ => some m
  | .moveBank m _ _ => some m
  | .gaugeRead m _ _ => some m
  | .gaugeScrubStep _ => none
  | .gaugeBankRetire m _ => some m
  | .gaugeShadowBaseWrite m _ _ => some m
  | .stippleCompress _ _ => none
  | .stippleDecompress _ => none
  | .stippleEngineRetire m _ => some m
  | .proofUpdate _ _ => none
  | .proofRead _ _ => none
  | .proofCompare _ _ => none
  | .proofSave _ _ => none
  | .proofRestore _ _ => none
  | .proofRelease _ _ => none
  | .proofQuantumEnd _ => none
  | .ringDoorbell m _ _ => some m
  | .ringFetch _ _ => none
  | .ringCompletionPost _ _ => none
  | .ringCheadWrite m _ _ => some m
  | .ringReset m _ => some m
  | .dmaRunList _ _ => none
  | .dmaModeWrite m _ => some m
  | .dmaTimerExpire _ => none
  | .dmaBurstPromote _ => none
  | .dmaRegGo m _ _ => some m
  | .dmaRegDone _ _ => none
  | .spawn m _ _ => some m
  | .wait m _ _ => some m
  | .yield m _ _ => some m
  | .exit m _ _ => some m
  | .signal m _ _ => some m
  | .kill m _ _ => some m
  | .setprio m _ _ => some m
  | .resume m _ _ => some m
  | .hardwareEvent _ => none
  | .threadPlace _ => none
  | .preempt _ => none
  | .coreRestart m _ => some m
  | .hbmRead m _ _ => some m
  | .hbmWrite m _ _ _ => some m
  | .requestAgePromote _ => none
  | .stackTempRead _ _ => none
  | .stackSwitch m _ => some m
  | .stackSwitchDone _ => none
  | .mcThaw m _ _ => some m
  | .ppr m _ _ => some m
  | .pprDone _ _ => none
  | .channelRetire m _ => some m
  | .channelRetireDone => none
  | .mirrorEnable m _ _ => some m
  | .mirrorSync m _ => some m
  | .mirrorSyncDone _ => none
  | .patrolScrubStep _ _ => none
  | .cacheRequest r _ => some r.master
  | .scInvalidate m => some m
  | .scEnable m => some m
  | .scDisable m => some m
  | .scDisableDone => none
  | .scRangeInvalidate m => some m
  | .scRangeClean m => some m
  | .scRangeCleanInvalidate m => some m
  | .scRangeLockFill m => some m
  | .scRangeDone => none
  | .l1Invalidate m _ => some m
  | .l1Enable m _ => some m
  | .flitRetransmit _ _ _ => none
  | .linkDead _ _ => none
  | .routerFreeze m _ => some m
  | .routerUnfreeze m _ => some m
  | .routerFreezeExpire _ => none
  | .routeWrite m _ _ _ => some m
  | .linkFlitReceive _ _ => none
  | .nak _ _ => none
  | .replayTimeout _ => none
  | .portRetrain _ => none
  | .trainingAttemptEnd _ _ => none
  | .portRestore m _ => some m
  | .portRetire m _ => some m
  | .helloSend _ => none
  | .hello _ _ => none
  | .neighbourTimeout _ => none
  | .wardenElect _ _ => none
  | .mgmtRead _ _ => none
  | .mgmtWrite _ _ => none
  | .mgmtRsp _ _ => none
  | .linkEvent _ => none
  | .routeSwap m => some m
  | .hatchPacketForward _ _ => none
  | .packetPortTimeout _ _ => none
  | .hatchRead _ _ => none
  | .hatchWrite _ _ => none
  | .hatchSubmit _ _ => none
  | .hatchNotify _ _ => none
  | .hatchStream _ _ => none
  | .hatchStreamEnd _ _ => none
  | .readData _ _ => none
  | .hatchAck _ _ => none
  | .streamCredit _ _ => none
  | .remoteApertureRequest r => some r.master
  | .hatchJobRead _ _ => none
  | .hatchJobWrite _ _ => none
  | .hatchJobSubmit _ _ => none
  | .hatchJobNotify _ _ => none
  | .transactionTimeout _ => none
  | .landingQueueReset m _ => some m
  | .landingQueueHeadWrite m _ _ => some m
  | .pairCommit m => some m
  | .pairQueryRepeat _ => none
  | .pairCommitTimeout => none
  | .pairQuery _ _ => none
  | .pairReply _ _ => none
  | .pairNoticePowerFail _ => none
  | .pairNoticeFreeze _ _ _ => none
  | .pairUnpair m => some m
  | .pairForm => none
  | .pairFormTimeout => none
  | .halfLost => none
  | .backHostLinkPresent => none
  | .regionLoad m _ => some m
  | .backgroundCopy _ _ _ => none
  | .powerFailEtch _ => none
  | .etchGo m _ => some m
  | .etchGoTimeout => none
  | .etchDeadline => none
  | .bankReserveReached => none
  | .etchComplete => none
  | .print _ _ => none
  | .reprint _ _ _ => none
  | .verify _ _ _ => none
  | .nvmeCommandComplete _ _ => none
  | .nvmeCommandTimeout _ => none
  | .smartPoll _ _ _ _ _ _ => none
  | .bankTestTimer => none
  | .bankTestDone _ _ => none
  | .domainPowerDown m _ _ => some m
  | .drainTimeout _ _ => none
  | .domainPowerUp m _ _ => some m
  | .domainPowerUpDone _ => none
  | .domainRequestHeld r => some r.master
  | .tileClockGate _ => none
  | .quadrantPllStop _ => none
  | .quadrantPllRelock _ => none
  | .vigilEnter m => some m
  | .vigilExit => none
  | .wakeSource _ => none
  | .wakePattern _ _ => none
  | .keepaliveSend _ => none
  | .wakeSend m _ => some m
  | .alarm => none
  | .supplyFailure => none
  | .thermalSample _ _ _ => none
  | .throttleStep _ => none
  | .frequencyPointChange _ => none
  | .orderlyReset m => some m
  | .immediateReset m => some m
  | .coldReset => none
  | .boot => none
  | .watchdogExpire => none
  | .watchdogKick m _ => some m
  | .bootOk m _ => some m
  | .modeEnter m _ => some m
  | .recoveryGo m _ => some m
  | .perst _ => none
  | .flr _ => none
  | .hotReset => none
  | .linkDown => none
  | .sqKick m _ => some m
  | .cqHead m _ _ => some m
  | .sqFetch _ _ _ _ _ => none
  | .completionPost _ => none
  | .coalesceTimeout _ => none
  | .adminPairCreate _ => none
  | .adminPairDelete _ => none
  | .clampGrant _ => none
  | .clampTimeout _ => none
  | .identify _ => none
  | .getLog _ => none
  | .setFeature _ => none
  | .getFeature _ => none
  | .createQp _ => none
  | .deleteQp _ => none
  | .fwDownload _ _ => none
  | .fwCommit _ _ => none
  | .liveFirmwareUpdate _ _ _ => none
  | .abort _ => none
  | .tileService _ => none
  | .plateEtch _ _ => none
  | .plateBankTest _ => none
  | .plateInvalidate _ => none
  | .plateSanitize _ => none
  | .load _ _ _ _ => none
  | .loadPublishPhase _ => none
  | .patch _ _ _ _ => none
  | .exportRows _ => none
  | .publishEpoch _ => none
  | .publishCommit _ => none
  | .epochWithdraw _ => none
  | .plateMark _ => none
  | .tileRetire m _ _ _ => some m
  | .insertion => none
  | .powerGood => none
  | .removal => none
  | .overcurrentCutoff => none
  | .cablePresence _ _ => none
  | .shed _ => none
  | .mctpControl _ => none
  | .mctpStatus _ => none
  | .sensorRead _ => none
  | .fruRead _ => none
  | .logRead _ => none
  | .regRead _ => none
  | .regWrite _ => none
  | .mctpReset _ => none
  | .i3cCcc _ _ => none
  | .jtagInstruction _ => none
  | .deadLinkAcknowledge _ _ => none
  | .hostCompletionTimeout _ => none
  | .freezeNoticeRepeat => none
  | .bankReady _ _ => none
  | .auxiliaryInputChange _ => none
  | .hrefclkChange _ => none
  | .scInvalidateDone => none
  | .l1InvalidateDone _ => none
  | .vigilEntryDone _ => none
  | .moveBankSwitch _ => none

/-- A well-formed command that carries an MSTID carries one of 12 bits. -/
def Statement (i : Instr) : Prop := i.wf = true → ∀ m, sender i = some m → m < 4096

theorem left {a b : Bool} (h : (a && b) = true) : a = true := (Bool.and_eq_true_iff.1 h).1
theorem ofMaster {m : Nat} (h : okMaster m = true) : m < 4096 := of_decide_eq_true h
theorem ofRequest {r : Request} (h : r.ok = true) : r.master < 4096 := by
  unfold Request.ok at h
  simp only [Bool.and_eq_true] at h
  exact ofMaster h.1.1.1
theorem ofReport {r : Report} (h : r.ok = true) : r.master < 4096 := by
  unfold Report.ok at h
  simp only [Bool.and_eq_true] at h
  exact ofMaster h.1.1.1.2

theorem registerWrite : ∀ a0 a1 a2, Statement (.registerWrite a0 a1 a2) := fun a0 a1 a2 h _ e => by cases e; exact ofMaster (left h)
theorem pairLoRead : ∀ a0 a1, Statement (.pairLoRead a0 a1) := fun a0 a1 h _ e => by cases e; exact ofMaster (left h)
theorem pairHiRead : ∀ a0 a1, Statement (.pairHiRead a0 a1) := fun a0 a1 h _ e => by cases e; exact ofMaster (left h)
theorem pairLoWrite : ∀ a0 a1 a2, Statement (.pairLoWrite a0 a1 a2) := fun a0 a1 a2 h _ e => by cases e; exact ofMaster (left h)
theorem pairHiWrite : ∀ a0 a1 a2, Statement (.pairHiWrite a0 a1 a2) := fun a0 a1 a2 h _ e => by cases e; exact ofMaster (left h)
theorem unalignedRegisterAccess : ∀ a0 a1 a2 a3, Statement (.unalignedRegisterAccess a0 a1 a2 a3) := fun a0 a1 a2 a3 h _ e => by cases e; exact ofMaster (left (left h))
theorem targetRequest : ∀ a0 a1, Statement (.targetRequest a0 a1) := fun a0 a1 h _ e => by cases e; exact ofRequest h
theorem bar4Access : ∀ a0 a1 a2 a3, Statement (.bar4Access a0 a1 a2 a3) := fun a0 a1 a2 a3 _ _ e => by cases e
theorem bar0Access : ∀ a0 a1 a2 a3, Statement (.bar0Access a0 a1 a2 a3) := fun a0 a1 a2 a3 _ _ e => by cases e
theorem bar2Access : ∀ a0 a1 a2 a3, Statement (.bar2Access a0 a1 a2 a3) := fun a0 a1 a2 a3 _ _ e => by cases e
theorem affinityWrite : ∀ a0 a1 a2, Statement (.affinityWrite a0 a1 a2) := fun a0 a1 a2 h _ e => by cases e; exact ofMaster (left h)
theorem grantWrite : ∀ a0 a1 a2 a3 a4, Statement (.grantWrite a0 a1 a2 a3 a4) := fun a0 a1 a2 a3 a4 h _ e => by cases e; exact ofMaster (left (left (left h)))
theorem guardReport : ∀ a0, Statement (.guardReport a0) := fun a0 h _ e => by cases e; exact ofReport h
theorem storageReclaim : Statement (.storageReclaim) := fun _ _ e => by cases e
theorem segmentReplace : ∀ a0 a1 a2 a3 a4 a5, Statement (.segmentReplace a0 a1 a2 a3 a4 a5) := fun a0 a1 a2 a3 a4 a5 _ _ e => by cases e
theorem alu : ∀ a0 a1 a2, Statement (.alu a0 a1 a2) := fun a0 a1 a2 _ _ e => by cases e
theorem alui : ∀ a0 a1 a2, Statement (.alui a0 a1 a2) := fun a0 a1 a2 _ _ e => by cases e
theorem scalarLoad : ∀ a0 a1 a2, Statement (.scalarLoad a0 a1 a2) := fun a0 a1 a2 _ _ e => by cases e
theorem scalarStore : ∀ a0 a1 a2, Statement (.scalarStore a0 a1 a2) := fun a0 a1 a2 _ _ e => by cases e
theorem br : ∀ a0 a1 a2, Statement (.br a0 a1 a2) := fun a0 a1 a2 _ _ e => by cases e
theorem call : ∀ a0 a1 a2, Statement (.call a0 a1 a2) := fun a0 a1 a2 _ _ e => by cases e
theorem callr : ∀ a0 a1 a2, Statement (.callr a0 a1 a2) := fun a0 a1 a2 _ _ e => by cases e
theorem jump : ∀ a0 a1 a2, Statement (.jump a0 a1 a2) := fun a0 a1 a2 _ _ e => by cases e
theorem fence : ∀ a0 a1 a2, Statement (.fence a0 a1 a2) := fun a0 a1 a2 _ _ e => by cases e
theorem fenceW : ∀ a0 a1 a2, Statement (.fenceW a0 a1 a2) := fun a0 a1 a2 _ _ e => by cases e
theorem fenceX : ∀ a0 a1 a2, Statement (.fenceX a0 a1 a2) := fun a0 a1 a2 _ _ e => by cases e
theorem rtcall : ∀ a0 a1 a2, Statement (.rtcall a0 a1 a2) := fun a0 a1 a2 _ _ e => by cases e
theorem dbgstop : ∀ a0 a1 a2, Statement (.dbgstop a0 a1 a2) := fun a0 a1 a2 _ _ e => by cases e
theorem endProgram : ∀ a0 a1 a2, Statement (.endProgram a0 a1 a2) := fun a0 a1 a2 _ _ e => by cases e
theorem trapret : ∀ a0 a1 a2, Statement (.trapret a0 a1 a2) := fun a0 a1 a2 _ _ e => by cases e
theorem srr : ∀ a0 a1 a2, Statement (.srr a0 a1 a2) := fun a0 a1 a2 _ _ e => by cases e
theorem srw : ∀ a0 a1 a2, Statement (.srw a0 a1 a2) := fun a0 a1 a2 _ _ e => by cases e
theorem srs : ∀ a0 a1 a2, Statement (.srs a0 a1 a2) := fun a0 a1 a2 _ _ e => by cases e
theorem src : ∀ a0 a1 a2, Statement (.src a0 a1 a2) := fun a0 a1 a2 _ _ e => by cases e
theorem impreciseException : ∀ a0, Statement (.impreciseException a0) := fun a0 _ _ e => by cases e
theorem tileRun : ∀ a0 a1, Statement (.tileRun a0 a1) := fun a0 a1 h _ e => by cases e; exact ofMaster (left h)
theorem tileHalt : ∀ a0 a1, Statement (.tileHalt a0 a1) := fun a0 a1 h _ e => by cases e; exact ofMaster (left h)
theorem tileHalted : ∀ a0, Statement (.tileHalted a0) := fun a0 _ _ e => by cases e
theorem tileStep : ∀ a0 a1, Statement (.tileStep a0 a1) := fun a0 a1 h _ e => by cases e; exact ofMaster (left h)
theorem windowWrite : ∀ a0 a1 a2 a3 a4, Statement (.windowWrite a0 a1 a2 a3 a4) := fun a0 a1 a2 a3 a4 h _ e => by cases e; exact ofMaster (left (left (left h)))
theorem vsetcfg : ∀ a0 a1 a2, Statement (.vsetcfg a0 a1 a2) := fun a0 a1 a2 _ _ e => by cases e
theorem vintegerOp : ∀ a0 a1 a2, Statement (.vintegerOp a0 a1 a2) := fun a0 a1 a2 _ _ e => by cases e
theorem vfloatOp : ∀ a0 a1 a2, Statement (.vfloatOp a0 a1 a2) := fun a0 a1 a2 _ _ e => by cases e
theorem vcompare : ∀ a0 a1 a2, Statement (.vcompare a0 a1 a2) := fun a0 a1 a2 _ _ e => by cases e
theorem predicateOp : ∀ a0 a1 a2, Statement (.predicateOp a0 a1 a2) := fun a0 a1 a2 _ _ e => by cases e
theorem vectorMove : ∀ a0 a1 a2, Statement (.vectorMove a0 a1 a2) := fun a0 a1 a2 _ _ e => by cases e
theorem vcvt : ∀ a0 a1 a2, Statement (.vcvt a0 a1 a2) := fun a0 a1 a2 _ _ e => by cases e
theorem vld : ∀ a0 a1 a2, Statement (.vld a0 a1 a2) := fun a0 a1 a2 _ _ e => by cases e
theorem vst : ∀ a0 a1 a2, Statement (.vst a0 a1 a2) := fun a0 a1 a2 _ _ e => by cases e
theorem vlds : ∀ a0 a1 a2, Statement (.vlds a0 a1 a2) := fun a0 a1 a2 _ _ e => by cases e
theorem vsts : ∀ a0 a1 a2, Statement (.vsts a0 a1 a2) := fun a0 a1 a2 _ _ e => by cases e
theorem gather : ∀ a0 a1 a2, Statement (.gather a0 a1 a2) := fun a0 a1 a2 _ _ e => by cases e
theorem scatter : ∀ a0 a1 a2, Statement (.scatter a0 a1 a2) := fun a0 a1 a2 _ _ e => by cases e
theorem gatherF : ∀ a0 a1 a2, Statement (.gatherF a0 a1 a2) := fun a0 a1 a2 _ _ e => by cases e
theorem ldf : ∀ a0 a1 a2, Statement (.ldf a0 a1 a2) := fun a0 a1 a2 _ _ e => by cases e
theorem stf : ∀ a0 a1 a2, Statement (.stf a0 a1 a2) := fun a0 a1 a2 _ _ e => by cases e
theorem vcompress : ∀ a0 a1 a2, Statement (.vcompress a0 a1 a2) := fun a0 a1 a2 _ _ e => by cases e
theorem vexpand : ∀ a0 a1 a2, Statement (.vexpand a0 a1 a2) := fun a0 a1 a2 _ _ e => by cases e
theorem vhash : ∀ a0 a1 a2, Statement (.vhash a0 a1 a2) := fun a0 a1 a2 _ _ e => by cases e
theorem vsort : ∀ a0 a1 a2, Statement (.vsort a0 a1 a2) := fun a0 a1 a2 _ _ e => by cases e
theorem vsortkv : ∀ a0 a1 a2, Statement (.vsortkv a0 a1 a2) := fun a0 a1 a2 _ _ e => by cases e
theorem vmerge : ∀ a0 a1 a2, Statement (.vmerge a0 a1 a2) := fun a0 a1 a2 _ _ e => by cases e
theorem vred : ∀ a0 a1 a2, Statement (.vred a0 a1 a2) := fun a0 a1 a2 _ _ e => by cases e
theorem vsred : ∀ a0 a1 a2, Statement (.vsred a0 a1 a2) := fun a0 a1 a2 _ _ e => by cases e
theorem vpack : ∀ a0 a1 a2, Statement (.vpack a0 a1 a2) := fun a0 a1 a2 _ _ e => by cases e
theorem vunpack : ∀ a0 a1 a2, Statement (.vunpack a0 a1 a2) := fun a0 a1 a2 _ _ e => by cases e
theorem vstrcmp : ∀ a0 a1 a2, Statement (.vstrcmp a0 a1 a2) := fun a0 a1 a2 _ _ e => by cases e
theorem vstrcmpC : ∀ a0 a1 a2, Statement (.vstrcmpC a0 a1 a2) := fun a0 a1 a2 _ _ e => by cases e
theorem vstrcmpPredicate : ∀ a0 a1 a2, Statement (.vstrcmpPredicate a0 a1 a2) := fun a0 a1 a2 _ _ e => by cases e
theorem vhist : ∀ a0 a1 a2, Statement (.vhist a0 a1 a2) := fun a0 a1 a2 _ _ e => by cases e
theorem vhistadd64 : ∀ a0 a1 a2, Statement (.vhistadd64 a0 a1 a2) := fun a0 a1 a2 _ _ e => by cases e
theorem vgauge : ∀ a0 a1 a2, Statement (.vgauge a0 a1 a2) := fun a0 a1 a2 _ _ e => by cases e
theorem vsend : ∀ a0 a1 a2, Statement (.vsend a0 a1 a2) := fun a0 a1 a2 _ _ e => by cases e
theorem vrecv : ∀ a0 a1 a2, Statement (.vrecv a0 a1 a2) := fun a0 a1 a2 _ _ e => by cases e
theorem sclose : ∀ a0 a1 a2, Statement (.sclose a0 a1 a2) := fun a0 a1 a2 _ _ e => by cases e
theorem sstatOut : ∀ a0 a1 a2, Statement (.sstatOut a0 a1 a2) := fun a0 a1 a2 _ _ e => by cases e
theorem sstatIn : ∀ a0 a1 a2, Statement (.sstatIn a0 a1 a2) := fun a0 a1 a2 _ _ e => by cases e
theorem vdopen : ∀ a0 a1 a2, Statement (.vdopen a0 a1 a2) := fun a0 a1 a2 _ _ e => by cases e
theorem vdecode : ∀ a0 a1 a2, Statement (.vdecode a0 a1 a2) := fun a0 a1 a2 _ _ e => by cases e
theorem vdstat : ∀ a0 a1 a2, Statement (.vdstat a0 a1 a2) := fun a0 a1 a2 _ _ e => by cases e
theorem vdclose : ∀ a0 a1 a2, Statement (.vdclose a0 a1 a2) := fun a0 a1 a2 _ _ e => by cases e
theorem vamo : ∀ a0 a1 a2, Statement (.vamo a0 a1 a2) := fun a0 a1 a2 _ _ e => by cases e
theorem amo : ∀ a0 a1 a2, Statement (.amo a0 a1 a2) := fun a0 a1 a2 _ _ e => by cases e
theorem streamElementArrive : ∀ a0 a1 a2 a3, Statement (.streamElementArrive a0 a1 a2 a3) := fun a0 a1 a2 a3 _ _ e => by cases e
theorem streamCreditReturn : ∀ a0 a1 a2, Statement (.streamCreditReturn a0 a1 a2) := fun a0 a1 a2 _ _ e => by cases e
theorem channelReset : ∀ a0 a1 a2 a3 a4, Statement (.channelReset a0 a1 a2 a3 a4) := fun a0 a1 a2 a3 a4 h _ e => by cases e; exact ofMaster (left (left h))
theorem installProgram : ∀ a0 a1 a2, Statement (.installProgram a0 a1 a2) := fun a0 a1 a2 _ _ e => by cases e
theorem programRemove : ∀ a0, Statement (.programRemove a0) := fun a0 _ _ e => by cases e
theorem run : ∀ a0 a1 a2 a3, Statement (.run a0 a1 a2 a3) := fun a0 a1 a2 a3 _ _ e => by cases e
theorem stagePlace : ∀ a0 a1 a2 a3, Statement (.stagePlace a0 a1 a2 a3) := fun a0 a1 a2 a3 _ _ e => by cases e
theorem stageStart : ∀ a0 a1, Statement (.stageStart a0 a1) := fun a0 a1 _ _ e => by cases e
theorem runEnd : ∀ a0 a1 a2, Statement (.runEnd a0 a1 a2) := fun a0 a1 a2 _ _ e => by cases e
theorem runTimeLimit : ∀ a0, Statement (.runTimeLimit a0) := fun a0 _ _ e => by cases e
theorem hostSinkWrite : ∀ a0 a1 a2 a3 a4, Statement (.hostSinkWrite a0 a1 a2 a3 a4) := fun a0 a1 a2 a3 a4 _ _ e => by cases e
theorem columnSinkWrite : ∀ a0 a1 a2 a3, Statement (.columnSinkWrite a0 a1 a2 a3) := fun a0 a1 a2 a3 _ _ e => by cases e
theorem runCommit : ∀ a0 a1, Statement (.runCommit a0 a1) := fun a0 a1 _ _ e => by cases e
theorem gaugeSearch : ∀ a0 a1 a2 a3 a4, Statement (.gaugeSearch a0 a1 a2 a3 a4) := fun a0 a1 a2 a3 a4 h _ e => by cases e; exact ofMaster (left (left h))
theorem gaugeCreate : ∀ a0 a1 a2 a3, Statement (.gaugeCreate a0 a1 a2 a3) := fun a0 a1 a2 a3 h _ e => by cases e; exact ofMaster (left h)
theorem gaugeDestroy : ∀ a0 a1 a2, Statement (.gaugeDestroy a0 a1 a2) := fun a0 a1 a2 h _ e => by cases e; exact ofMaster (left h)
theorem gaugeSetAcl : ∀ a0 a1 a2, Statement (.gaugeSetAcl a0 a1 a2) := fun a0 a1 a2 h _ e => by cases e; exact ofMaster (left h)
theorem gaugeWrite : ∀ a0 a1 a2 a3 a4, Statement (.gaugeWrite a0 a1 a2 a3 a4) := fun a0 a1 a2 a3 a4 h _ e => by cases e; exact ofMaster (left (left h))
theorem gaugeSlotSearch : ∀ a0 a1 a2, Statement (.gaugeSlotSearch a0 a1 a2) := fun a0 a1 a2 h _ e => by cases e; exact ofMaster (left h)
theorem gaugeNext : ∀ a0 a1 a2, Statement (.gaugeNext a0 a1 a2) := fun a0 a1 a2 h _ e => by cases e; exact ofMaster (left h)
theorem gaugeReload : ∀ a0 a1 a2 a3, Statement (.gaugeReload a0 a1 a2 a3) := fun a0 a1 a2 a3 h _ e => by cases e; exact ofMaster (left h)
theorem moveBank : ∀ a0 a1 a2, Statement (.moveBank a0 a1 a2) := fun a0 a1 a2 h _ e => by cases e; exact ofMaster (left h)
theorem gaugeRead : ∀ a0 a1 a2, Statement (.gaugeRead a0 a1 a2) := fun a0 a1 a2 h _ e => by cases e; exact ofMaster (left h)
theorem gaugeScrubStep : ∀ a0, Statement (.gaugeScrubStep a0) := fun a0 _ _ e => by cases e
theorem gaugeBankRetire : ∀ a0 a1, Statement (.gaugeBankRetire a0 a1) := fun a0 a1 h _ e => by cases e; exact ofMaster (h)
theorem gaugeShadowBaseWrite : ∀ a0 a1 a2, Statement (.gaugeShadowBaseWrite a0 a1 a2) := fun a0 a1 a2 h _ e => by cases e; exact ofMaster (h)
theorem stippleCompress : ∀ a0 a1, Statement (.stippleCompress a0 a1) := fun a0 a1 _ _ e => by cases e
theorem stippleDecompress : ∀ a0, Statement (.stippleDecompress a0) := fun a0 _ _ e => by cases e
theorem stippleEngineRetire : ∀ a0 a1, Statement (.stippleEngineRetire a0 a1) := fun a0 a1 h _ e => by cases e; exact ofMaster (h)
theorem proofUpdate : ∀ a0 a1, Statement (.proofUpdate a0 a1) := fun a0 a1 _ _ e => by cases e
theorem proofRead : ∀ a0 a1, Statement (.proofRead a0 a1) := fun a0 a1 _ _ e => by cases e
theorem proofCompare : ∀ a0 a1, Statement (.proofCompare a0 a1) := fun a0 a1 _ _ e => by cases e
theorem proofSave : ∀ a0 a1, Statement (.proofSave a0 a1) := fun a0 a1 _ _ e => by cases e
theorem proofRestore : ∀ a0 a1, Statement (.proofRestore a0 a1) := fun a0 a1 _ _ e => by cases e
theorem proofRelease : ∀ a0 a1, Statement (.proofRelease a0 a1) := fun a0 a1 _ _ e => by cases e
theorem proofQuantumEnd : ∀ a0, Statement (.proofQuantumEnd a0) := fun a0 _ _ e => by cases e
theorem ringDoorbell : ∀ a0 a1 a2, Statement (.ringDoorbell a0 a1 a2) := fun a0 a1 a2 h _ e => by cases e; exact ofMaster (left h)
theorem ringFetch : ∀ a0 a1, Statement (.ringFetch a0 a1) := fun a0 a1 _ _ e => by cases e
theorem ringCompletionPost : ∀ a0 a1, Statement (.ringCompletionPost a0 a1) := fun a0 a1 _ _ e => by cases e
theorem ringCheadWrite : ∀ a0 a1 a2, Statement (.ringCheadWrite a0 a1 a2) := fun a0 a1 a2 h _ e => by cases e; exact ofMaster (left h)
theorem ringReset : ∀ a0 a1, Statement (.ringReset a0 a1) := fun a0 a1 h _ e => by cases e; exact ofMaster (left h)
theorem dmaRunList : ∀ a0 a1, Statement (.dmaRunList a0 a1) := fun a0 a1 _ _ e => by cases e
theorem dmaModeWrite : ∀ a0 a1, Statement (.dmaModeWrite a0 a1) := fun a0 a1 h _ e => by cases e; exact ofMaster (h)
theorem dmaTimerExpire : ∀ a0, Statement (.dmaTimerExpire a0) := fun a0 _ _ e => by cases e
theorem dmaBurstPromote : ∀ a0, Statement (.dmaBurstPromote a0) := fun a0 _ _ e => by cases e
theorem dmaRegGo : ∀ a0 a1 a2, Statement (.dmaRegGo a0 a1 a2) := fun a0 a1 a2 h _ e => by cases e; exact ofMaster (left h)
theorem dmaRegDone : ∀ a0 a1, Statement (.dmaRegDone a0 a1) := fun a0 a1 _ _ e => by cases e
theorem spawn : ∀ a0 a1 a2, Statement (.spawn a0 a1 a2) := fun a0 a1 a2 h _ e => by cases e; exact ofMaster (left h)
theorem wait : ∀ a0 a1 a2, Statement (.wait a0 a1 a2) := fun a0 a1 a2 h _ e => by cases e; exact ofMaster (left h)
theorem yield : ∀ a0 a1 a2, Statement (.yield a0 a1 a2) := fun a0 a1 a2 h _ e => by cases e; exact ofMaster (left h)
theorem exit : ∀ a0 a1 a2, Statement (.exit a0 a1 a2) := fun a0 a1 a2 h _ e => by cases e; exact ofMaster (left h)
theorem signal : ∀ a0 a1 a2, Statement (.signal a0 a1 a2) := fun a0 a1 a2 h _ e => by cases e; exact ofMaster (left h)
theorem kill : ∀ a0 a1 a2, Statement (.kill a0 a1 a2) := fun a0 a1 a2 h _ e => by cases e; exact ofMaster (left h)
theorem setprio : ∀ a0 a1 a2, Statement (.setprio a0 a1 a2) := fun a0 a1 a2 h _ e => by cases e; exact ofMaster (left h)
theorem resume : ∀ a0 a1 a2, Statement (.resume a0 a1 a2) := fun a0 a1 a2 h _ e => by cases e; exact ofMaster (left h)
theorem hardwareEvent : ∀ a0, Statement (.hardwareEvent a0) := fun a0 _ _ e => by cases e
theorem threadPlace : ∀ a0, Statement (.threadPlace a0) := fun a0 _ _ e => by cases e
theorem preempt : ∀ a0, Statement (.preempt a0) := fun a0 _ _ e => by cases e
theorem coreRestart : ∀ a0 a1, Statement (.coreRestart a0 a1) := fun a0 a1 h _ e => by cases e; exact ofMaster (left h)
theorem hbmRead : ∀ a0 a1 a2, Statement (.hbmRead a0 a1 a2) := fun a0 a1 a2 h _ e => by cases e; exact ofMaster (left h)
theorem hbmWrite : ∀ a0 a1 a2 a3, Statement (.hbmWrite a0 a1 a2 a3) := fun a0 a1 a2 a3 h _ e => by cases e; exact ofMaster (left (left h))
theorem requestAgePromote : ∀ a0, Statement (.requestAgePromote a0) := fun a0 _ _ e => by cases e
theorem stackTempRead : ∀ a0 a1, Statement (.stackTempRead a0 a1) := fun a0 a1 _ _ e => by cases e
theorem stackSwitch : ∀ a0 a1, Statement (.stackSwitch a0 a1) := fun a0 a1 h _ e => by cases e; exact ofMaster (left h)
theorem stackSwitchDone : ∀ a0, Statement (.stackSwitchDone a0) := fun a0 _ _ e => by cases e
theorem mcThaw : ∀ a0 a1 a2, Statement (.mcThaw a0 a1 a2) := fun a0 a1 a2 h _ e => by cases e; exact ofMaster (left h)
theorem ppr : ∀ a0 a1 a2, Statement (.ppr a0 a1 a2) := fun a0 a1 a2 h _ e => by cases e; exact ofMaster (left h)
theorem pprDone : ∀ a0 a1, Statement (.pprDone a0 a1) := fun a0 a1 _ _ e => by cases e
theorem channelRetire : ∀ a0 a1, Statement (.channelRetire a0 a1) := fun a0 a1 h _ e => by cases e; exact ofMaster (h)
theorem channelRetireDone : Statement (.channelRetireDone) := fun _ _ e => by cases e
theorem mirrorEnable : ∀ a0 a1 a2, Statement (.mirrorEnable a0 a1 a2) := fun a0 a1 a2 h _ e => by cases e; exact ofMaster (left h)
theorem mirrorSync : ∀ a0 a1, Statement (.mirrorSync a0 a1) := fun a0 a1 h _ e => by cases e; exact ofMaster (left h)
theorem mirrorSyncDone : ∀ a0, Statement (.mirrorSyncDone a0) := fun a0 _ _ e => by cases e
theorem patrolScrubStep : ∀ a0 a1, Statement (.patrolScrubStep a0 a1) := fun a0 a1 _ _ e => by cases e
theorem cacheRequest : ∀ a0 a1, Statement (.cacheRequest a0 a1) := fun a0 a1 h _ e => by cases e; exact ofRequest h
theorem scInvalidate : ∀ a0, Statement (.scInvalidate a0) := fun a0 h _ e => by cases e; exact ofMaster (h)
theorem scEnable : ∀ a0, Statement (.scEnable a0) := fun a0 h _ e => by cases e; exact ofMaster (h)
theorem scDisable : ∀ a0, Statement (.scDisable a0) := fun a0 h _ e => by cases e; exact ofMaster (h)
theorem scDisableDone : Statement (.scDisableDone) := fun _ _ e => by cases e
theorem scRangeInvalidate : ∀ a0, Statement (.scRangeInvalidate a0) := fun a0 h _ e => by cases e; exact ofMaster (h)
theorem scRangeClean : ∀ a0, Statement (.scRangeClean a0) := fun a0 h _ e => by cases e; exact ofMaster (h)
theorem scRangeCleanInvalidate : ∀ a0, Statement (.scRangeCleanInvalidate a0) := fun a0 h _ e => by cases e; exact ofMaster (h)
theorem scRangeLockFill : ∀ a0, Statement (.scRangeLockFill a0) := fun a0 h _ e => by cases e; exact ofMaster (h)
theorem scRangeDone : Statement (.scRangeDone) := fun _ _ e => by cases e
theorem l1Invalidate : ∀ a0 a1, Statement (.l1Invalidate a0 a1) := fun a0 a1 h _ e => by cases e; exact ofMaster (left h)
theorem l1Enable : ∀ a0 a1, Statement (.l1Enable a0 a1) := fun a0 a1 h _ e => by cases e; exact ofMaster (left h)
theorem flitRetransmit : ∀ a0 a1 a2, Statement (.flitRetransmit a0 a1 a2) := fun a0 a1 a2 _ _ e => by cases e
theorem linkDead : ∀ a0 a1, Statement (.linkDead a0 a1) := fun a0 a1 _ _ e => by cases e
theorem routerFreeze : ∀ a0 a1, Statement (.routerFreeze a0 a1) := fun a0 a1 h _ e => by cases e; exact ofMaster (left h)
theorem routerUnfreeze : ∀ a0 a1, Statement (.routerUnfreeze a0 a1) := fun a0 a1 h _ e => by cases e; exact ofMaster (left h)
theorem routerFreezeExpire : ∀ a0, Statement (.routerFreezeExpire a0) := fun a0 _ _ e => by cases e
theorem routeWrite : ∀ a0 a1 a2 a3, Statement (.routeWrite a0 a1 a2 a3) := fun a0 a1 a2 a3 h _ e => by cases e; exact ofMaster (left (left h))
theorem linkFlitReceive : ∀ a0 a1, Statement (.linkFlitReceive a0 a1) := fun a0 a1 _ _ e => by cases e
theorem nak : ∀ a0 a1, Statement (.nak a0 a1) := fun a0 a1 _ _ e => by cases e
theorem replayTimeout : ∀ a0, Statement (.replayTimeout a0) := fun a0 _ _ e => by cases e
theorem portRetrain : ∀ a0, Statement (.portRetrain a0) := fun a0 _ _ e => by cases e
theorem trainingAttemptEnd : ∀ a0 a1, Statement (.trainingAttemptEnd a0 a1) := fun a0 a1 _ _ e => by cases e
theorem portRestore : ∀ a0 a1, Statement (.portRestore a0 a1) := fun a0 a1 h _ e => by cases e; exact ofMaster (left h)
theorem portRetire : ∀ a0 a1, Statement (.portRetire a0 a1) := fun a0 a1 h _ e => by cases e; exact ofMaster (left h)
theorem helloSend : ∀ a0, Statement (.helloSend a0) := fun a0 _ _ e => by cases e
theorem hello : ∀ a0 a1, Statement (.hello a0 a1) := fun a0 a1 _ _ e => by cases e
theorem neighbourTimeout : ∀ a0, Statement (.neighbourTimeout a0) := fun a0 _ _ e => by cases e
theorem wardenElect : ∀ a0 a1, Statement (.wardenElect a0 a1) := fun a0 a1 _ _ e => by cases e
theorem mgmtRead : ∀ a0 a1, Statement (.mgmtRead a0 a1) := fun a0 a1 _ _ e => by cases e
theorem mgmtWrite : ∀ a0 a1, Statement (.mgmtWrite a0 a1) := fun a0 a1 _ _ e => by cases e
theorem mgmtRsp : ∀ a0 a1, Statement (.mgmtRsp a0 a1) := fun a0 a1 _ _ e => by cases e
theorem linkEvent : ∀ a0, Statement (.linkEvent a0) := fun a0 _ _ e => by cases e
theorem routeSwap : ∀ a0, Statement (.routeSwap a0) := fun a0 h _ e => by cases e; exact ofMaster (h)
theorem hatchPacketForward : ∀ a0 a1, Statement (.hatchPacketForward a0 a1) := fun a0 a1 _ _ e => by cases e
theorem packetPortTimeout : ∀ a0 a1, Statement (.packetPortTimeout a0 a1) := fun a0 a1 _ _ e => by cases e
theorem hatchRead : ∀ a0 a1, Statement (.hatchRead a0 a1) := fun a0 a1 _ _ e => by cases e
theorem hatchWrite : ∀ a0 a1, Statement (.hatchWrite a0 a1) := fun a0 a1 _ _ e => by cases e
theorem hatchSubmit : ∀ a0 a1, Statement (.hatchSubmit a0 a1) := fun a0 a1 _ _ e => by cases e
theorem hatchNotify : ∀ a0 a1, Statement (.hatchNotify a0 a1) := fun a0 a1 _ _ e => by cases e
theorem hatchStream : ∀ a0 a1, Statement (.hatchStream a0 a1) := fun a0 a1 _ _ e => by cases e
theorem hatchStreamEnd : ∀ a0 a1, Statement (.hatchStreamEnd a0 a1) := fun a0 a1 _ _ e => by cases e
theorem readData : ∀ a0 a1, Statement (.readData a0 a1) := fun a0 a1 _ _ e => by cases e
theorem hatchAck : ∀ a0 a1, Statement (.hatchAck a0 a1) := fun a0 a1 _ _ e => by cases e
theorem streamCredit : ∀ a0 a1, Statement (.streamCredit a0 a1) := fun a0 a1 _ _ e => by cases e
theorem remoteApertureRequest : ∀ a0, Statement (.remoteApertureRequest a0) := fun a0 h _ e => by cases e; exact ofRequest h
theorem hatchJobRead : ∀ a0 a1, Statement (.hatchJobRead a0 a1) := fun a0 a1 _ _ e => by cases e
theorem hatchJobWrite : ∀ a0 a1, Statement (.hatchJobWrite a0 a1) := fun a0 a1 _ _ e => by cases e
theorem hatchJobSubmit : ∀ a0 a1, Statement (.hatchJobSubmit a0 a1) := fun a0 a1 _ _ e => by cases e
theorem hatchJobNotify : ∀ a0 a1, Statement (.hatchJobNotify a0 a1) := fun a0 a1 _ _ e => by cases e
theorem transactionTimeout : ∀ a0, Statement (.transactionTimeout a0) := fun a0 _ _ e => by cases e
theorem landingQueueReset : ∀ a0 a1, Statement (.landingQueueReset a0 a1) := fun a0 a1 h _ e => by cases e; exact ofMaster (left h)
theorem landingQueueHeadWrite : ∀ a0 a1 a2, Statement (.landingQueueHeadWrite a0 a1 a2) := fun a0 a1 a2 h _ e => by cases e; exact ofMaster (left h)
theorem pairCommit : ∀ a0, Statement (.pairCommit a0) := fun a0 h _ e => by cases e; exact ofMaster (h)
theorem pairQueryRepeat : ∀ a0, Statement (.pairQueryRepeat a0) := fun a0 _ _ e => by cases e
theorem pairCommitTimeout : Statement (.pairCommitTimeout) := fun _ _ e => by cases e
theorem pairQuery : ∀ a0 a1, Statement (.pairQuery a0 a1) := fun a0 a1 _ _ e => by cases e
theorem pairReply : ∀ a0 a1, Statement (.pairReply a0 a1) := fun a0 a1 _ _ e => by cases e
theorem pairNoticePowerFail : ∀ a0, Statement (.pairNoticePowerFail a0) := fun a0 _ _ e => by cases e
theorem pairNoticeFreeze : ∀ a0 a1 a2, Statement (.pairNoticeFreeze a0 a1 a2) := fun a0 a1 a2 _ _ e => by cases e
theorem pairUnpair : ∀ a0, Statement (.pairUnpair a0) := fun a0 h _ e => by cases e; exact ofMaster (h)
theorem pairForm : Statement (.pairForm) := fun _ _ e => by cases e
theorem pairFormTimeout : Statement (.pairFormTimeout) := fun _ _ e => by cases e
theorem halfLost : Statement (.halfLost) := fun _ _ e => by cases e
theorem backHostLinkPresent : Statement (.backHostLinkPresent) := fun _ _ e => by cases e
theorem regionLoad : ∀ a0 a1, Statement (.regionLoad a0 a1) := fun a0 a1 h _ e => by cases e; exact ofMaster (h)
theorem backgroundCopy : ∀ a0 a1 a2, Statement (.backgroundCopy a0 a1 a2) := fun a0 a1 a2 _ _ e => by cases e
theorem powerFailEtch : ∀ a0, Statement (.powerFailEtch a0) := fun a0 _ _ e => by cases e
theorem etchGo : ∀ a0 a1, Statement (.etchGo a0 a1) := fun a0 a1 h _ e => by cases e; exact ofMaster (h)
theorem etchGoTimeout : Statement (.etchGoTimeout) := fun _ _ e => by cases e
theorem etchDeadline : Statement (.etchDeadline) := fun _ _ e => by cases e
theorem bankReserveReached : Statement (.bankReserveReached) := fun _ _ e => by cases e
theorem etchComplete : Statement (.etchComplete) := fun _ _ e => by cases e
theorem print : ∀ a0 a1, Statement (.print a0 a1) := fun a0 a1 _ _ e => by cases e
theorem reprint : ∀ a0 a1 a2, Statement (.reprint a0 a1 a2) := fun a0 a1 a2 _ _ e => by cases e
theorem verify : ∀ a0 a1 a2, Statement (.verify a0 a1 a2) := fun a0 a1 a2 _ _ e => by cases e
theorem nvmeCommandComplete : ∀ a0 a1, Statement (.nvmeCommandComplete a0 a1) := fun a0 a1 _ _ e => by cases e
theorem nvmeCommandTimeout : ∀ a0, Statement (.nvmeCommandTimeout a0) := fun a0 _ _ e => by cases e
theorem smartPoll : ∀ a0 a1 a2 a3 a4 a5, Statement (.smartPoll a0 a1 a2 a3 a4 a5) := fun a0 a1 a2 a3 a4 a5 _ _ e => by cases e
theorem bankTestTimer : Statement (.bankTestTimer) := fun _ _ e => by cases e
theorem bankTestDone : ∀ a0 a1, Statement (.bankTestDone a0 a1) := fun a0 a1 _ _ e => by cases e
theorem domainPowerDown : ∀ a0 a1 a2, Statement (.domainPowerDown a0 a1 a2) := fun a0 a1 a2 h _ e => by cases e; exact ofMaster (left h)
theorem drainTimeout : ∀ a0 a1, Statement (.drainTimeout a0 a1) := fun a0 a1 _ _ e => by cases e
theorem domainPowerUp : ∀ a0 a1 a2, Statement (.domainPowerUp a0 a1 a2) := fun a0 a1 a2 h _ e => by cases e; exact ofMaster (left h)
theorem domainPowerUpDone : ∀ a0, Statement (.domainPowerUpDone a0) := fun a0 _ _ e => by cases e
theorem domainRequestHeld : ∀ a0, Statement (.domainRequestHeld a0) := fun a0 h _ e => by cases e; exact ofRequest h
theorem tileClockGate : ∀ a0, Statement (.tileClockGate a0) := fun a0 _ _ e => by cases e
theorem quadrantPllStop : ∀ a0, Statement (.quadrantPllStop a0) := fun a0 _ _ e => by cases e
theorem quadrantPllRelock : ∀ a0, Statement (.quadrantPllRelock a0) := fun a0 _ _ e => by cases e
theorem vigilEnter : ∀ a0, Statement (.vigilEnter a0) := fun a0 h _ e => by cases e; exact ofMaster (h)
theorem vigilExit : Statement (.vigilExit) := fun _ _ e => by cases e
theorem wakeSource : ∀ a0, Statement (.wakeSource a0) := fun a0 _ _ e => by cases e
theorem wakePattern : ∀ a0 a1, Statement (.wakePattern a0 a1) := fun a0 a1 _ _ e => by cases e
theorem keepaliveSend : ∀ a0, Statement (.keepaliveSend a0) := fun a0 _ _ e => by cases e
theorem wakeSend : ∀ a0 a1, Statement (.wakeSend a0 a1) := fun a0 a1 h _ e => by cases e; exact ofMaster (h)
theorem alarm : Statement (.alarm) := fun _ _ e => by cases e
theorem supplyFailure : Statement (.supplyFailure) := fun _ _ e => by cases e
theorem thermalSample : ∀ a0 a1 a2, Statement (.thermalSample a0 a1 a2) := fun a0 a1 a2 _ _ e => by cases e
theorem throttleStep : ∀ a0, Statement (.throttleStep a0) := fun a0 _ _ e => by cases e
theorem frequencyPointChange : ∀ a0, Statement (.frequencyPointChange a0) := fun a0 _ _ e => by cases e
theorem orderlyReset : ∀ a0, Statement (.orderlyReset a0) := fun a0 h _ e => by cases e; exact ofMaster (h)
theorem immediateReset : ∀ a0, Statement (.immediateReset a0) := fun a0 h _ e => by cases e; exact ofMaster (h)
theorem coldReset : Statement (.coldReset) := fun _ _ e => by cases e
theorem boot : Statement (.boot) := fun _ _ e => by cases e
theorem watchdogExpire : Statement (.watchdogExpire) := fun _ _ e => by cases e
theorem watchdogKick : ∀ a0 a1, Statement (.watchdogKick a0 a1) := fun a0 a1 h _ e => by cases e; exact ofMaster (h)
theorem bootOk : ∀ a0 a1, Statement (.bootOk a0 a1) := fun a0 a1 h _ e => by cases e; exact ofMaster (h)
theorem modeEnter : ∀ a0 a1, Statement (.modeEnter a0 a1) := fun a0 a1 h _ e => by cases e; exact ofMaster (h)
theorem recoveryGo : ∀ a0 a1, Statement (.recoveryGo a0 a1) := fun a0 a1 h _ e => by cases e; exact ofMaster (h)
theorem perst : ∀ a0, Statement (.perst a0) := fun a0 _ _ e => by cases e
theorem flr : ∀ a0, Statement (.flr a0) := fun a0 _ _ e => by cases e
theorem hotReset : Statement (.hotReset) := fun _ _ e => by cases e
theorem linkDown : Statement (.linkDown) := fun _ _ e => by cases e
theorem sqKick : ∀ a0 a1, Statement (.sqKick a0 a1) := fun a0 a1 h _ e => by cases e; exact ofMaster (left h)
theorem cqHead : ∀ a0 a1 a2, Statement (.cqHead a0 a1 a2) := fun a0 a1 a2 h _ e => by cases e; exact ofMaster (left h)
theorem sqFetch : ∀ a0 a1 a2 a3 a4, Statement (.sqFetch a0 a1 a2 a3 a4) := fun a0 a1 a2 a3 a4 _ _ e => by cases e
theorem completionPost : ∀ a0, Statement (.completionPost a0) := fun a0 _ _ e => by cases e
theorem coalesceTimeout : ∀ a0, Statement (.coalesceTimeout a0) := fun a0 _ _ e => by cases e
theorem adminPairCreate : ∀ a0, Statement (.adminPairCreate a0) := fun a0 _ _ e => by cases e
theorem adminPairDelete : ∀ a0, Statement (.adminPairDelete a0) := fun a0 _ _ e => by cases e
theorem clampGrant : ∀ a0, Statement (.clampGrant a0) := fun a0 _ _ e => by cases e
theorem clampTimeout : ∀ a0, Statement (.clampTimeout a0) := fun a0 _ _ e => by cases e
theorem identify : ∀ a0, Statement (.identify a0) := fun a0 _ _ e => by cases e
theorem getLog : ∀ a0, Statement (.getLog a0) := fun a0 _ _ e => by cases e
theorem setFeature : ∀ a0, Statement (.setFeature a0) := fun a0 _ _ e => by cases e
theorem getFeature : ∀ a0, Statement (.getFeature a0) := fun a0 _ _ e => by cases e
theorem createQp : ∀ a0, Statement (.createQp a0) := fun a0 _ _ e => by cases e
theorem deleteQp : ∀ a0, Statement (.deleteQp a0) := fun a0 _ _ e => by cases e
theorem fwDownload : ∀ a0 a1, Statement (.fwDownload a0 a1) := fun a0 a1 _ _ e => by cases e
theorem fwCommit : ∀ a0 a1, Statement (.fwCommit a0 a1) := fun a0 a1 _ _ e => by cases e
theorem liveFirmwareUpdate : ∀ a0 a1 a2, Statement (.liveFirmwareUpdate a0 a1 a2) := fun a0 a1 a2 _ _ e => by cases e
theorem abort : ∀ a0, Statement (.abort a0) := fun a0 _ _ e => by cases e
theorem tileService : ∀ a0, Statement (.tileService a0) := fun a0 _ _ e => by cases e
theorem plateEtch : ∀ a0 a1, Statement (.plateEtch a0 a1) := fun a0 a1 _ _ e => by cases e
theorem plateBankTest : ∀ a0, Statement (.plateBankTest a0) := fun a0 _ _ e => by cases e
theorem plateInvalidate : ∀ a0, Statement (.plateInvalidate a0) := fun a0 _ _ e => by cases e
theorem plateSanitize : ∀ a0, Statement (.plateSanitize a0) := fun a0 _ _ e => by cases e
theorem load : ∀ a0 a1 a2 a3, Statement (.load a0 a1 a2 a3) := fun a0 a1 a2 a3 _ _ e => by cases e
theorem loadPublishPhase : ∀ a0, Statement (.loadPublishPhase a0) := fun a0 _ _ e => by cases e
theorem patch : ∀ a0 a1 a2 a3, Statement (.patch a0 a1 a2 a3) := fun a0 a1 a2 a3 _ _ e => by cases e
theorem exportRows : ∀ a0, Statement (.exportRows a0) := fun a0 _ _ e => by cases e
theorem publishEpoch : ∀ a0, Statement (.publishEpoch a0) := fun a0 _ _ e => by cases e
theorem publishCommit : ∀ a0, Statement (.publishCommit a0) := fun a0 _ _ e => by cases e
theorem epochWithdraw : ∀ a0, Statement (.epochWithdraw a0) := fun a0 _ _ e => by cases e
theorem plateMark : ∀ a0, Statement (.plateMark a0) := fun a0 _ _ e => by cases e
theorem tileRetire : ∀ a0 a1 a2 a3, Statement (.tileRetire a0 a1 a2 a3) := fun a0 a1 a2 a3 h _ e => by cases e; exact ofMaster (h)
theorem insertion : Statement (.insertion) := fun _ _ e => by cases e
theorem powerGood : Statement (.powerGood) := fun _ _ e => by cases e
theorem removal : Statement (.removal) := fun _ _ e => by cases e
theorem overcurrentCutoff : Statement (.overcurrentCutoff) := fun _ _ e => by cases e
theorem cablePresence : ∀ a0 a1, Statement (.cablePresence a0 a1) := fun a0 a1 _ _ e => by cases e
theorem shed : ∀ a0, Statement (.shed a0) := fun a0 _ _ e => by cases e
theorem mctpControl : ∀ a0, Statement (.mctpControl a0) := fun a0 _ _ e => by cases e
theorem mctpStatus : ∀ a0, Statement (.mctpStatus a0) := fun a0 _ _ e => by cases e
theorem sensorRead : ∀ a0, Statement (.sensorRead a0) := fun a0 _ _ e => by cases e
theorem fruRead : ∀ a0, Statement (.fruRead a0) := fun a0 _ _ e => by cases e
theorem logRead : ∀ a0, Statement (.logRead a0) := fun a0 _ _ e => by cases e
theorem regRead : ∀ a0, Statement (.regRead a0) := fun a0 _ _ e => by cases e
theorem regWrite : ∀ a0, Statement (.regWrite a0) := fun a0 _ _ e => by cases e
theorem mctpReset : ∀ a0, Statement (.mctpReset a0) := fun a0 _ _ e => by cases e
theorem i3cCcc : ∀ a0 a1, Statement (.i3cCcc a0 a1) := fun a0 a1 _ _ e => by cases e
theorem jtagInstruction : ∀ a0, Statement (.jtagInstruction a0) := fun a0 _ _ e => by cases e
theorem deadLinkAcknowledge : ∀ a0 a1, Statement (.deadLinkAcknowledge a0 a1) := fun a0 a1 _ _ e => by cases e
theorem hostCompletionTimeout : ∀ a0, Statement (.hostCompletionTimeout a0) := fun a0 _ _ e => by cases e
theorem freezeNoticeRepeat : Statement (.freezeNoticeRepeat) := fun _ _ e => by cases e
theorem bankReady : ∀ a0 a1, Statement (.bankReady a0 a1) := fun a0 a1 _ _ e => by cases e
theorem auxiliaryInputChange : ∀ a0, Statement (.auxiliaryInputChange a0) := fun a0 _ _ e => by cases e
theorem hrefclkChange : ∀ a0, Statement (.hrefclkChange a0) := fun a0 _ _ e => by cases e
theorem scInvalidateDone : Statement (.scInvalidateDone) := fun _ _ e => by cases e
theorem l1InvalidateDone : ∀ a0, Statement (.l1InvalidateDone a0) := fun a0 _ _ e => by cases e
theorem vigilEntryDone : ∀ a0, Statement (.vigilEntryDone a0) := fun a0 _ _ e => by cases e
theorem moveBankSwitch : ∀ a0, Statement (.moveBankSwitch a0) := fun a0 _ _ e => by cases e

end Sys2Proof.Laws.F
end

