-- ==== Sys2Proof/Tests/Base.lean ====
section
/-! SUPPORT. Small states for the tests: the block with every domain on, and cores that run. -/

namespace Sys2Proof.Tests
open Sys2Proof.Machine

/-- Some register words over their reset values. -/
def withRegs (ws : List (Nat × Word)) (s : State) : State := ws.foldl (fun s e => s.wr e.1 e.2) s

/-- The block after reset with domains 1 to 16 on. -/
def awake : State :=
  { State.reset with regs := (List.range 16).map (fun d => (Reg.STY_DOM_STATUS (d + 1), 0)) }

/-- The awake block with PERST# high. -/
def linked : State := { awake with steady := { awake.steady with perst := false } }

/-- Tile 0 runs with the core `k`. -/
def tileRuns (k : Core) : State :=
  { withRegs [(Reg.TIL_CTL 0, 1), (Reg.TIL_STATUS 0, 0)] awake with cores := [(0, k)] }

/-- Headstock core 0 runs thread 0 with the core `k`. -/
def headRuns (k : Core) : State :=
  { withRegs [(Reg.HDS_CORE_STATUS 0, 0x40000000)] awake with cores := [(128, k)] }

/-- A core with some X registers. -/
def coreX (xs : List (Nat × DWord)) : Core := { Core.reset with x := xs }

/-- A vector core: U32 elements, one register a group, VL 4, every bit of P0 set. -/
def vectorCore : Core :=
  { Core.reset with vcfg := ⟨4, 0, 0, 4, 0, 0⟩, p := [(0, BitVec.ofNat 512 (2 ^ 512 - 1))] }

/-- A 64-byte submission entry: its opcode, and (offset, bytes, value) fields. -/
def entryOf (op : Nat) (fs : List (Nat × Nat × Nat)) : List Byte :=
  ((2, 1, op) :: fs).foldl (fun e f => e.take f.1 ++ natLE f.2.1 f.2.2 ++ e.drop (f.1 + f.2.1)) (List.replicate 64 0)

/-- A command of an entry that the queue engine has passed to Headstock. -/
def passed (e : List Byte) : Cmd := ⟨0, 7, 0, 0, e, 0, 0, 0, [], [], 0, .passed, none, [], 0, none, none⟩

/-- Tag 1 holds the command `c`. -/
def inFlight (c : Cmd) (s : State) : State := { s with cmds := [(1, some c)] }

/-- A RUN of an image without fragments, in the phase given, with one instance on tile 0. -/
def oneRun (ph : RunPhase) : Run := ⟨2, [], 0, 64, 0, 0, 0, ph, [⟨0, 0, 0, none, false⟩], none, [], [], [], [], [], []⟩

/-- A RUN in the phase given holds tag 1. -/
def runAt (ph : RunPhase) : State :=
  { inFlight (passed (entryOf 0x44 [])) awake with
    runs := [(1, some (oneRun ph))], images := [(2, some ⟨1, List.replicate 512 0, 0, false⟩)] }

/-- Table 0 of width 1 on bank 0 with two entries that match any key: priority 2 at row 0, priority 1 at row 3. -/
def ruled : State :=
  { withRegs [(Reg.GAU_TBL_CFG 0, 0x80000000), (Reg.GAU_TBL_BANKS 0, 1), (Reg.GAU_TBL_ACL 0, 0xFFF000)] awake with
    gauge := [(0, ⟨0x80000002, 7, 0, 0, false, false⟩), (3, ⟨0x80000001, 8, 0, 0, false, false⟩)] }

/-- Grant 3 of an access table admits every master with every right to its whole range. -/
def opened (tbl : Nat) (s : State) : State :=
  let g := grantAt tbl 3
  withRegs [(g, 0x8FFFF000), (g + 4, 0x70000FFF), (g + 16, 0xFFFFFFFF), (g + 20, 0)] s

/-- Mode `md`, pair role `r`, ports 6 and 7 in a state. -/
def paired (md r st : Nat) : State :=
  withRegs [(Reg.STY_DEV_MODE, BitVec.ofNat 32 md), (Reg.GLB_PAIR_CTL, BitVec.ofNat 32 r), (Reg.HAT_PORT_STATE 6, BitVec.ofNat 32 st),
    (Reg.HAT_PORT_STATE 7, BitVec.ofNat 32 st)] awake

end Sys2Proof.Tests
end

