-- ==== Sys2Proof/Tests/Slice0.lean ====
section
/-! SUPPORT. The tests of the model: that each range check refuses an ill-formed command, small steps, and for every statement of
`Certificates/Slice0/Obligations.lean` with hypotheses a state and operands that meet them. -/
namespace Sys2Proof.Tests
open Sys2Proof.Machine
set_option Elab.async false

/-! The range checks of `Instr.wf`, each with a term it refuses. -/

theorem test_wf_master : (Instr.registerWrite 4096 0 0).wf = false := by decide
theorem test_wf_register : (Instr.registerWrite 0 16777216 0).wf = false := by decide
theorem test_wf_function : (Instr.flr 128).wf = false := by decide
theorem test_wf_tile : (Instr.tileRun 0 128).wf = false := by decide
theorem test_wf_core : (Instr.alu 64 none 0).wf = false := by decide
theorem test_wf_core_hole : (Instr.alu 127 none 0).wf = false ∧ (Instr.alu 128 none 0).wf = true ∧ (Instr.alu 144 none 0).wf = false := by decide
theorem test_wf_tag : (Instr.identify 8448).wf = false := by decide
theorem test_wf_pair : (Instr.sqKick 0 8192).wf = false := by decide
theorem test_wf_port : (Instr.helloSend 8).wf = false := by decide
theorem test_wf_dpa : (Instr.hbmRead 0 281474976710656 .clean).wf = false := by decide
theorem test_wf_access_length : (Instr.bar0Access 0 0 9 none).wf = false ∧ (Instr.bar0Access 0 0 0 none).wf = false := by decide
theorem test_wf_access_data : (Instr.bar0Access 0 0 2 (some [1])).wf = false := by decide
theorem test_wf_slice : (Instr.bar4Access 1 4294967296 1 none).wf = false ∧ (Instr.bar4Access 0 4294967296 1 none).wf = true := by decide
theorem test_wf_page : (Instr.bar4Access 0 4095 2 none).wf = false := by decide
theorem test_wf_bar2 : (Instr.bar2Access 0 524288 4 none).wf = false := by decide
theorem test_wf_request : (Instr.targetRequest ⟨0, 0, 0, .read, [], false⟩ .clean).wf = false ∧
    (Instr.targetRequest ⟨0, 281474976710655, 2, .read, [], false⟩ .clean).wf = false ∧
    (Instr.targetRequest ⟨0, 0, 2, .write, [1], false⟩ .clean).wf = false ∧
    (Instr.targetRequest ⟨0, 2, 4, .atomic 0 0, [0, 0, 0, 0], false⟩ .clean).wf = false ∧
    (Instr.targetRequest ⟨0, 4, 4, .atomic 0 0, [0, 0, 0, 0], false⟩ .clean).wf = true := by decide
theorem test_wf_report : (Instr.guardReport ⟨1, 256, 0, 0, 0, 0, 0⟩).wf = false ∧
    (Instr.guardReport ⟨1, 0, 5, 0, 0, 0, 0⟩).wf = false ∧ (Instr.guardReport ⟨65536, 0, 0, 0, 0, 0, 0⟩).wf = false ∧
    (Instr.guardReport ⟨0x105, 2, 4, 0xFFF, 0, 0, 0⟩).wf = true := by decide
theorem test_wf_ring : (Instr.ringFetch ⟨.plt, 4⟩ false).wf = false ∧ (Instr.ringFetch ⟨.dma, 63⟩ false).wf = true := by decide
/-- A READ packet carries no payload, whatever its LEN (R383). -/
theorem test_wf_packet : (Instr.hatchRead 0 ⟨1, 0, false, 1, 0, 0, 0, 8, 0, 0, 0, 0, [1], false, false⟩).wf = false ∧
    (Instr.hatchRead 0 ⟨1, 0, false, 1, 0, 0, 0, 8, 0, 0, 0, 0, [], false, false⟩).wf = true ∧
    (Instr.hatchRead 0 ⟨1, 4, false, 1, 0, 0, 0, 8, 0, 0, 0, 0, [], false, false⟩).wf = false := by decide
theorem test_wf_message : (Instr.streamElementArrive 0 0 (some ⟨0, 0, 0, 0, 0, 16, 4, .endMark⟩) .clean).wf = false := by decide
theorem test_wf_wait : (Instr.hostCompletionTimeout (.dma 64)).wf = false := by decide
theorem test_wf_debug : (Instr.jtagInstruction (.debug 16777216 none)).wf = false := by decide
theorem test_wf_indices : (Instr.affinityWrite 0 8 0).wf = false ∧ (Instr.grantWrite 0 12 0 0 0).wf = false ∧
    (Instr.grantWrite 0 0 128 0 0).wf = false ∧ (Instr.grantWrite 0 0 0 6 0).wf = false ∧
    (Instr.windowWrite 0 0 16 0 0).wf = false ∧ (Instr.windowWrite 0 0 0 7 0).wf = false := by decide
theorem test_wf_units : (Instr.gaugeCreate 0 16 0 0).wf = false ∧ (Instr.stippleCompress 16 []).wf = false ∧
    (Instr.proofUpdate 8 0).wf = false ∧ (Instr.proofUpdate 0 8).wf = false ∧ (Instr.dmaRunList 64 []).wf = false ∧
    (Instr.spawn 0 17 0).wf = false ∧ (Instr.hardwareEvent 1024).wf = false ∧ (Instr.preempt 16).wf = false := by decide
theorem test_wf_memory : (Instr.requestAgePromote 64).wf = false ∧ (Instr.stackTempRead 4 0).wf = false ∧
    (Instr.mirrorSync 0 8).wf = false ∧ (Instr.linkDead 64 0).wf = false ∧ (Instr.linkDead 0 4).wf = false ∧
    (Instr.hbmWrite 0 0 [] .clean).wf = false := by decide
theorem test_wf_modules : (Instr.landingQueueReset 0 64).wf = false ∧ (Instr.transactionTimeout 65536).wf = false ∧
    (Instr.hatchJobRead 32 0).wf = false ∧ (Instr.wardenElect (some 262144) false).wf = false ∧
    (Instr.backgroundCopy 98304 0 none).wf = false ∧ (Instr.print [] []).wf = true ∧ (Instr.reprint 4 0 []).wf = false ∧
    (Instr.domainPowerUpDone 17).wf = false ∧ (Instr.wakeSource 8).wf = false ∧ (Instr.bankReady 65536 true).wf = false := by decide
/-- A codeword's piece has 640 bytes (R367). -/
theorem test_wf_codeword : (Instr.linkFlitReceive 0 ⟨4, 0, List.replicate 640 0, .clean⟩).wf = false ∧
    (Instr.linkFlitReceive 0 ⟨0, 0, [], .clean⟩).wf = false := by decide
theorem test_wf_part : (Instr.run 8192 .denied none (some ⟨262144, [], []⟩)).wf = false ∧ (Instr.run 8448 .denied none none).wf = false := by decide

/-! Witnesses of `EmptyQueuePassesOneNanosecond`. -/

theorem witness_empty_queue : State.reset.pending = [] := rfl

/-! Witnesses of `IllFormedCommandChangesNothing`. -/

theorem witness_ill_formed : (Instr.tileRun 0 128).wf = false := by decide

/-! Witnesses of `EveryStepLeavesGuardInformed`. -/

theorem witness_guard_informed : State.reset.guardSeen = true := by decide +kernel

/-! Witnesses of `RegisterWritesActByAccessCode`. -/

theorem witness_register_write :
    awake.Reaches 0x140 Reg.GRD_ELOG_RD awake ∧ regRow? Reg.GRD_ELOG_RD = some ⟨0x2004, [], [⟨8, 0, .rw, 0⟩], false⟩ ∧
      isPairLo Reg.GRD_ELOG_RD = false ∧ isPairLo (Reg.GRD_ELOG_RD - 4) = false ∧
      awake.Reaches 0x140 Reg.QE_CTL awake ∧ awake.Reaches 0x140 Reg.MGT_CTL awake ∧
      awake.domainGate (.reg 0x2005) 0x140 (regDpa 0x2005) = none := by decide +kernel

/-! Witnesses of `RegisterPairsActWhole`. -/

theorem witness_pair :
    awake.domainGate (.reg Reg.QE_CTX_BASE_LO) 0x140 (regDpa Reg.QE_CTX_BASE_LO) = none ∧ isPairLo Reg.QE_CTX_BASE_LO = true ∧
      (regRow? Reg.QE_CTX_BASE_LO).isSome = true ∧ awake.regShut 0x140 Reg.QE_CTX_BASE_LO = false ∧
      awake.domainGate (.reg Reg.QE_CTX_BASE_HI) 0x140 (regDpa Reg.QE_CTX_BASE_HI) = none ∧ isPairLo Reg.QE_CTX_BASE_HI = false ∧
      (regRow? Reg.QE_CTX_BASE_HI).isSome = true ∧ awake.regShut 0x140 Reg.QE_CTX_BASE_HI = false ∧
      FMap.getD awake.held Reg.QE_CTX_BASE_LO = none ∧ FMap.getD awake.captured Reg.QE_CTX_BASE_LO = none := by decide +kernel

/-! Witnesses of `RequestsAreJudgedThenServed`. -/

theorem witness_request_denied :
    let r : Request := ⟨0x100, 0x10000000000, 8, .read, [], false⟩
    r.ok = true ∧ awake.region r.dpa r.len = .bench 0 0 ∧ awake.wayHolds (.bench 0 0) r.master 8 = false ∧
      awake.domainGate (.bench 0 0) r.master r.dpa = none ∧
      awake.newlyBroken 0x0B = [] ∧ awake.verdict 0x0B r.master r.dpa 8 Rights.read = St.accessDenied := by decide +kernel
theorem witness_request_admitted :
    awake.verdict 0x0B 0x140 0x10000000000 8 Rights.read = St.ok ∧ awake.verdict 0x0B 0x140 0x10000000000 8 Rights.write = St.ok ∧
      awake.region 0x20020000000 8 = .keep 0 ∧ awake.verdict 0x0A 0x140 0x20020000000 8 Rights.read = St.ok ∧
      awake.region 0x20000002000 4 = .reg 0x2000 ∧ awake.verdict 0x0A 0x140 0x20000002000 4 Rights.read = St.ok ∧
      awake.region 0x40000000000 8 = .unmapped ∧
      (withRegs [(Reg.GLB_PAIR_STATUS, 0xC0000000), (Reg.GLB_PAIR_CTL, 1)] awake).region 0x40000000 8 = .lost ∧
      (withRegs [(Reg.GLB_PAIR_STATUS, 0xC0000000), (Reg.GLB_PAIR_CTL, 1)] awake).region 0x80000000 8 = .hbm 0x40000000 ∧ awake.newlyBroken 0x0A = [] := by decide +kernel

/-! Witnesses of `HostAccessesPassTheirTables`. -/

/-- Function 0 reads through each BAR: BAR0 admitted for function 0 and denied to function 1, BAR4 stopped by its empty reset entry,
by a broken pair, and led to HBM, to a register and to nothing. -/
theorem witness_host_access :
    linked.hostUp 0 = true ∧ linked.hostUp 1 = true ∧ okAccess 4096 4 none = true ∧ linked.newlyBroken 0x06 = [] ∧ okSlice 0 0 = true ∧
      linked.verdict 0x06 0 0x20000000000 4 ((linked.region 0x20000000000 4).rights (hostRequest 0 0x20000000000 4 none)) = St.ok ∧
      linked.verdict 0x06 1 0x20000000000 4 ((linked.region 0x20000000000 4).rights (hostRequest 1 0x20000000000 4 none)) ≠ St.ok ∧
      cp32Ok (linked.rd64 (Reg.GLB_B4MAP_LO 0)) = true ∧ (linked.rd64 (Reg.GLB_B4MAP_LO 0)).testBit 31 = false ∧
      cp32Ok ((withRegs [(Reg.GLB_B4MAP_LO 0, 1)] linked).rd64 (Reg.GLB_B4MAP_LO 0)) = false := by decide +kernel
/-- Function 0's map entry 0 leads to the GiB `g`. -/
def mapped (g : Word) : State := withRegs [(Reg.GLB_B4MAP_LO 0, 0x80000000 + g), (Reg.GLB_B4MAP_HI 0, ~~~(0x80000000 + g))] linked
theorem witness_bar4_hbm :
    (mapped 0).hostUp 0 = true ∧ cp32Ok ((mapped 0).rd64 (Reg.GLB_B4MAP_LO 0)) = true ∧
      ((mapped 0).rd64 (Reg.GLB_B4MAP_LO 0)).testBit 31 = true ∧ (mapped 0).region 0 4 = .hbm 0 ∧
      (mapped 0).newlyBroken 0x08 = [] ∧ (mapped 0).verdict 0x08 0 0 4 Rights.read ≠ St.ok := by decide +kernel
/-- With a grant of table 0x08 to function 0, the same access is admitted. -/
theorem witness_bar4_admitted :
    let g := grantAt 0x08 3
    let t := withRegs [(g, 0x81000000), (g + 4, 0x7EFFFFFF), (g + 16, 0xFFFFFFFF), (g + 20, 0)] (mapped 0)
    t.newlyBroken 0x08 = [] ∧ t.verdict 0x08 0 0 4 Rights.read = St.ok := by decide +kernel
theorem witness_bar4_shut :
    (mapped 0x800).hostUp 0 = true ∧ cp32Ok ((mapped 0x800).rd64 (Reg.GLB_B4MAP_LO 0)) = true ∧
      ((mapped 0x800).rd64 (Reg.GLB_B4MAP_LO 0)).testBit 31 = true ∧
      ((mapped 0x800).region (2 ^ 30 * 0x800) 4).shutToBar4 = true := by decide +kernel
theorem witness_bar4_unmapped :
    (mapped 0x100).hostUp 0 = true ∧ cp32Ok ((mapped 0x100).rd64 (Reg.GLB_B4MAP_LO 0)) = true ∧
      ((mapped 0x100).rd64 (Reg.GLB_B4MAP_LO 0)).testBit 31 = true ∧
      (mapped 0x100).region (2 ^ 30 * 0x100) 4 = .unmapped := by decide +kernel

/-! Witnesses of `GuardMergesStoresOrCountsReports`. -/

def sampleReport (sev : Nat) : Report := ⟨St.accessDenied, 0x0A, sev, 0x100, 0x1000, 0xFFFF, 0⟩
/-- A report is stored by the fresh log, merged by one that holds it, and lost by one that is full of others. -/
theorem witness_guard_report :
    (sampleReport 2).ok = true ∧ State.reset.fld Reg.GRD_ELOG_WR 8 0 = 0 ∧ State.reset.fld Reg.GRD_ELOG_RD 8 0 = 0 ∧
      (let t := withRegs [(Reg.GRD_ELOG_WR, 1), (Reg.GRD_ELOG_W0 0, BitVec.ofNat 32 (reportWord0 (sampleReport 2))),
        (Reg.GRD_ELOG_W0 0 + 4, 0x100)] State.reset
      t.fld Reg.GRD_ELOG_WR 8 0 ≠ t.fld Reg.GRD_ELOG_RD 8 0 ∧
        bits (t.rd (Reg.GRD_ELOG_W0 0)).toNat 31 8 = bits (reportWord0 (sampleReport 2)) 31 8) ∧
      (let t := withRegs [(Reg.GRD_ELOG_WR, 256)] State.reset
      t.fld Reg.GRD_ELOG_WR 8 0 = 256 ∧ bits (t.rd (Reg.GRD_ELOG_W0 255)).toNat 31 8 ≠ bits (reportWord0 (sampleReport 2)) 31 8) := by
  decide +kernel
/-- Tile 3's bench reports an uncorrectable error. -/
theorem witness_bench_error :
    let r : Report := ⟨St.poisonedData, 0x53, 2, 0x100, 0x10000600000, 0xFFFF, 0⟩
    r.ok = true ∧ r.status = St.poisonedData ∧ r.severity = 2 ∧ Tgt.tile (State.reset.pairTile 3) = r.target := by decide +kernel

/-! Witnesses of `GrantsAndAffinityTakeTheirWrites`. -/

/-- CONTROL_LO and CONTROL_HI of grant 5 of table 0, the second with the first held. -/
theorem witness_grant_write :
    let a := grantAt 0 5
    (regRow? a).isSome = true ∧ isPairLo a = true ∧ (regRow? (a + 4)).isSome = true ∧ isPairLo (a + 4) = false ∧
      awake.domainGate (.reg a) 0x140 (regDpa a) = none ∧ awake.domainGate (.reg (a + 4)) 0x140 (regDpa (a + 4)) = none ∧
      FMap.getD (FMap.setD awake.held a (some ⟨0x140, 1⟩)) a = some ⟨0x140, 1⟩ := by decide +kernel
/-- An affinity block is refused to a host function, left disabled at size 0 and set, in the firmware stage. -/
theorem witness_affinity_write :
    let t := withRegs [(Reg.GLB_BOOT_STATUS, 0x20000000)] awake
    t.Reaches 0x140 (Reg.GLB_AFF 0) t ∧ t.bringUpAdmits 0x140 = true ∧ t.bringUpAdmits 0 = false ∧
      t.bit (Reg.GLB_AFF 0) 31 = false ∧ t.otherMirrors 8 = [] ∧ (∀ i, i < 8 → t.bit (Reg.GLB_AFF i) 31 = false) ∧
      bits 0x80000000 15 8 = 0 ∧ bits 0x80000101 15 8 = 1 ∧ bits 0x80000101 7 0 + 1 ≤ 24 := by decide +kernel

/-! Witnesses of `StorageIsReclaimedAndReplacedUnderNoReader`. -/

/-- An awake block whose table 5 has been dropped and reclaimed from, and whose table 6 stays. -/
def shelf : State :=
  { awake with tables :=
      [(5, some ⟨[], 1, 2, 0, 0, false, none, false, none, 0, 0, [], [], [], []⟩),
       (6, some ⟨[], 1, never, 0, 0, false, none, false, none, 0, 0, [], [], [], []⟩)], floor := 3 }
theorem witness_reclaim : shelf.catalogHeld = false ∧ shelf.oldReader = false ∧
    (shelf.reclaim.table 5).isNone = true ∧ (shelf.reclaim.table 6).isSome = true := by decide +kernel
/-- A command of snapshot 2 stands in flight while G is 3. -/
theorem witness_old_reader :
    State.oldReader (inFlight { passed (entryOf 0x44 []) with epoch := 2 } shelf) = true := by decide +kernel

/-! Witnesses of `AluInstructionsWriteResultAndStickyFlags`. -/

/-- ADD X3, X1, X2 and ADDI X5, X31, 0x12345678 with its prefix: the words of R76. -/
theorem witness_alu :
    (tileRuns (coreX [(1, 2), (2, 3)])).Runs 0 ∧ major 0x00411801#32 = 1 ∧ fn4 0x00411801#32 ≤ 1 ∧
      aluOp (fn6 0x00411801#32) (fn4 0x00411801#32 = 1) 2 3 = some ⟨5, false, false, false⟩ := by decide +kernel
theorem witness_alui :
    (headRuns (coreX [])).Runs 128 ∧ major 0xCF1F2802#32 = 2 ∧ (prefixOf? (some 0x1234507F#32)).immOk = true ∧
      aluiOp (fn4 0xCF1F2802#32) 0 (immediate (prefixOf? (some 0x1234507F#32)) 0xCF1F2802#32) 0
        = some (AluResult.quiet 0x12345678) := by decide +kernel

/-! Witnesses of `ScalarLoadsAndStoresCompleteThroughWindows`. -/

/-- LDD X1, [X2] and STD X1, [X2] of tile 0 at the first byte of its bench. -/
theorem witness_scalar_access :
    (tileRuns (coreX [(2, 0xFFFFFFFFFFE00000)])).Runs 0 ∧ major 0x00020984#32 = 4 ∧ fn4 0x00020984#32 = 3 ∧
      major 0x00020985#32 = 5 ∧ fn4 0x00020985#32 = 3 ∧ fA 0x00020984#32 = 2 ∧
      misaligned (0xFFFFFFFFFFE00000 + dw (immediate .none 0x00020984#32)) 8 = false ∧
      canonical (0xFFFFFFFFFFE00000 + dw (immediate .none 0x00020984#32)) = true ∧
      (tileRuns (coreX [])).anyPoison (benchAt 0 0) 8 = false := by decide +kernel

/-! Witnesses of `BranchesAndJumpsReachTheirTargets`. -/

/-- BR EQ X1, X31 with offset 2; BR NE likewise; CALL and JUMP with offset 2; CALLR X31, X30, 0: a target in each half of the canonical
range, and one that is not canonical. -/
theorem witness_branch :
    (tileRuns (coreX [])).Runs 0 ∧ major 0x0041F808#32 = 8 ∧ (prefixOf? none).immOk = true ∧
      brTaken (fn4 0x0041F808#32) 0 0 = some true ∧ brTaken (fn4 0x0041F888#32) 0 0 = some false ∧
      canonical (paExtend 0 + dw (immediate .none 0x0041F808#32 * 4)) = true ∧
      canonical (paExtend 0x7FFFFFFFFFFC + dw (immediate .none 0x0041F808#32 * 4)) = false := by decide +kernel
theorem witness_call :
    major 0x00001009#32 = 9 ∧ fn4 0x00001009#32 = wf 0x00001009#32 31 28 ∧ major 0x0000100B#32 = 0xB ∧
      canonical (paExtend 0 + dw (offset21 0x00001009#32 * 4)) = true ∧
      canonical (paExtend 0x7FFFFFFFFFFC + dw (offset21 0x00001009#32 * 4)) = false ∧
      major 0x001EF80A#32 = 0xA ∧ fn4 0x001EF80A#32 = 0 ∧ canonical 0xFFFF800000000000 = true ∧
      canonical 0x0000800000000000 = false := by decide +kernel

/-! Witnesses of `FencesCallsAndEndTakeEffect`. -/

theorem witness_fence_of_tile :
    (tileRuns (coreX [])).Runs 0 ∧ (coreX []).imprecise = none ∧ (tileRuns (coreX [])).unperformed 0 = false ∧
      (tileRuns (coreX [])).far = [] := by decide +kernel
theorem witness_fence_of_headstock :
    (headRuns (coreX [])).Runs 128 ∧ (headRuns (coreX [])).unperformed 128 = false := by decide +kernel
theorem witness_kept_answer :
    (tileRuns { coreX [] with imprecise := some ⟨0, St.accessDenied⟩ }).Runs 0 := by decide +kernel

/-! Witnesses of `SystemRegisterInstructionsReadAndWrite`. -/

/-- SRR X1, SFLAGS; SRW X1, SFLAGS, X2; SRW X1, MID, X2 (read-only); SRR X1, HSTATUS in a tile; an unlisted number. -/
theorem witness_system_register :
    (tileRuns (coreX [(2, 5)])).Runs 0 ∧ major 0x0000080D#32 = 0xD ∧ fn4 0x0000080D#32 = 0 ∧ fA 0x0000080D#32 = 0 ∧
      (tileRuns (coreX [])).sysAccess 0 0 = some (true, true) ∧ fn4 0x0002088D#32 = 1 ∧
      ((tileRuns (coreX [])).sysWrite 0 0 5).isSome = true ∧ (tileRuns (coreX [])).sysAccess 0 1 = some (true, false) ∧
      wf 0x2000080D#32 31 21 = 0x100 ∧ (tileRuns (coreX [])).sysAccess 0 0x100 = some (false, true) ∧
      (tileRuns (coreX [])).sysAccess 0 0x106 = none := by decide +kernel
theorem witness_window_word_refused :
    ((headRuns { coreX [] with hstatus := 1, win := [(3, 1)] }).sysWrite 128 0x120 0x1000).isNone = true := by decide +kernel

/-! Witnesses of `HeadstockTrapEntryAndTrapret`. -/

theorem witness_trap_entry :
    (headRuns { coreX [] with hstatus := 5, htvec := 0x1000 }).Runs 128 ∧
      ¬ ((headRuns { coreX [] with hstatus := 5 }).core 128).hstatus.toNat.testBit 2 = false ∧
      (headRuns { coreX [] with hstatus := 5 }).supervisor 128 = true ∧ (tileRuns (coreX [])).Runs 0 ∧
      (tileRuns (coreX [])).supervisor 0 = false := by decide +kernel
/-- A core of priority 1 with IE = 1 is preempted for a thread of priority 0. -/
theorem witness_preemption :
    (withRegs [(Reg.HDS_THR_STATE 0, 1)] (headRuns { coreX [] with hstatus := 4 })).victimCore 0 = some 0 := by decide +kernel

/-! Witnesses of `TileRunControlFollowsItsRegister`. -/

theorem witness_tile_halted : (withRegs [(Reg.TIL_STATUS 0, 0)] awake).tileHalting 0 = true ∧
    (withRegs [(Reg.TIL_STATUS 0, 0)] awake).unperformed 0 = false := by decide +kernel
theorem witness_tile_control :
    awake.localTile 0 = some 0 ∧ awake.Reaches 0x140 (Reg.TIL_CTL 0) awake ∧ awake.tileRetired 0 = false ∧
      awake.halted 0 = true ∧ awake.domainGate (.reg 0x801000) 0x140 (regDpa 0x801000) = none := by decide +kernel

/-! Witnesses of `AluOperationsComputeTheirTable`. -/

/-- A zero and a nonzero divisor, and an operation of each kind of 64 bits. -/
theorem witness_alu_table :
    (0 : DWord).setWidth 32 = 0#32 ∧ (5 : DWord).setWidth 64 ≠ 0#64 ∧ (0x18 ≤ 0x1A ∧ 0x1A ≤ 0x1D) ∧
      (3 : DWord).getLsbD 63 = false := by decide

/-! Witnesses of `VectorArithmeticActsOnActiveElements`. -/

/-- Words that meet the premises of each clause: VADD, VADD.X, VMAC with its OPERANDS prefix, compares, WHILELT, VMOV and VCVT. -/
theorem witness_vector_words :
    (tileRuns vectorCore).Runs 0 ∧ (tileRuns vectorCore).core 0 = vectorCore ∧ vectorCore.predsOk [0] = true ∧
      vectorCore.groupsOk [1, 2, 3] = true ∧ vectorCore.grp = 1 ∧ vectorCore.eb = 4 ∧ vectorCore.vl = 4 ∧ vectorCore.et = 4 ∧
      (∀ f ∈ [0x00, 0x02, 0x0D, 0x13], (vintOp f 4 0 0 1 0).isSome = true) ∧
      (∀ f ∈ [0x00, 0x06, 0x09], (vfloatOp f 8 0 1 0).isSome = true) ∧ etFloat 8 = true ∧
      major 0x20#32 = 0x20 ∧ major 0x22#32 = 0x22 ∧ major 0x24#32 = 0x24 ∧ major 0x26#32 = 0x26 ∧ major 0x27#32 = 0x27 ∧
      major 0x28#32 = 0x28 ∧ major 0x2F#32 = 0x2F ∧ fn6 0x28#32 < 32 ∧ etBytes 0 ≤ 8 := by decide +kernel

/-! Witnesses of `AnalyticInstructionsComputeOverActiveElements`. -/

/-- The words of each clause over the vector core: destinations V4 and V6, sources V1 and V2. -/
theorem witness_analytic_words :
    let x := (tileRuns vectorCore).ctx 0 none 0x00012040#32
    plainOk x [4, 1] = true ∧ plainOk x [4, 1, 2] = true ∧ sharesGroup vectorCore 4 1 1 1 = false ∧
      sharesGroup vectorCore 4 2 1 1 = false ∧ sharesGroup vectorCore 4 2 2 1 = false ∧ 4 + 2 * vectorCore.grp ≤ 32 ∧
      isFn 0x40 0 0 0x00012040#32 = true ∧ fD 0x00012040#32 = 4 ∧ fA 0x00012040#32 = 1 ∧ fB 0x00012040#32 = 0 ∧
      isFn 0x43 0x10 0x10 0x40012043#32 = true ∧ isFn 0x45 0xD 0xD 0x34012045#32 = true ∧ (reduceOp 0 4).isSome = true ∧
      prefixOf? (some 0x000000FF#32) = .operands 0 0 ∧
      packFields ((tileRuns { vectorCore with x := [(2, 0x0308)] }).ctx 0 none 0x00412044#32) = some (8, 3) ∧
      packFields ((tileRuns vectorCore).ctx 0 none 0x00412044#32) = none ∧
      Core.et { vectorCore with vcfg := ⟨0xB, 0, 0, 4, 0, 0⟩ } = 0xB := by decide +kernel

/-! Witnesses of `VectorAccessesGoElementByElement`. -/

/-- A vector core with the bench's first byte in X2 and element 0 only in P0. -/
def benchVector : Core :=
  { vectorCore with x := [(2, 0xFFFFFFFFFFE00000)] }
/-- VLD V4, VST V4, LD2 and ST2 over the bench: each goes through. -/
theorem witness_vector_access :
    (tileRuns benchVector).Runs 0 ∧ benchVector.groupsOk [4] = true ∧ benchVector.predsOk [0] = true ∧
      benchVector.groupsOk [0] = true ∧ fD 0x00022030#32 = 4 ∧ fA 0x00022030#32 = 2 ∧ fB 0x00022030#32 = 0 ∧
      isFn 0x30 0 0 0x00022030#32 = true ∧ isFn 0x31 0 0 0x00022031#32 = true ∧ isFn 0x30 4 6 0x10022030#32 = true ∧
      isFn 0x31 1 1 0x04022031#32 = true ∧ isFn 0x30 3 3 0x0C022030#32 = true ∧ 4 + 2 * benchVector.grp ≤ 32 ∧
      ((tileRuns benchVector).vload ((tileRuns benchVector).ctx 0 none 0x00022030#32) 0 4
        (fun i => [0xFFFFFFFFFFE00000 + BitVec.ofNat 64 (i * 4)])).1 = .go ∧
      ((tileRuns benchVector).vstore ((tileRuns benchVector).ctx 0 none 0x00022031#32) 0 4
        (fun i => [0xFFFFFFFFFFE00000 + BitVec.ofNat 64 (i * 4)])).1 = .go ∧
      ((tileRuns benchVector).vload ((tileRuns benchVector).ctx 0 none 0x0C022030#32) 0 4 (fun i => [BitVec.ofNat 64 (4 * i)])).1
        ≠ .go := by decide +kernel
/-- The elements of VLD and LD2 lie in the bench, unpoisoned. -/
theorem witness_inside_bench :
    benchVector.eb = 4 ∧ benchVector.vl = 4 ∧ ∀ n < 8, InBench (0xFFFFFFFFFFE00000 + BitVec.ofNat 64 (n * 4)) 4 ∧
      (tileRuns benchVector).anyPoison (benchAt 0 (benchOff (0xFFFFFFFFFFE00000 + BitVec.ofNat 64 (n * 4)))) 4 = false := by
  unfold InBench; decide +kernel

/-! Witnesses of `CountersStreamsDecodersAndAtomicsComplete`. -/

/-- A vector core with the bench's first byte in X2, two 64-bit elements, and its channel 1 open in both directions. -/
def streamCore : Core := { vectorCore with vcfg := ⟨6, 0, 0, 1, 0, 0⟩, x := [(2, 0xFFFFFFFFFFE00000), (3, 0)] }
def streamTile : State :=
  withRegs [(Reg.TIL_OCH_CFG 0 1, 0x80300000), (Reg.TIL_OCH_CREDIT 0 1, 8), (Reg.TIL_ICH_CFG 0 1, 0x80300000)] (tileRuns streamCore)
theorem witness_streams :
    streamTile.Runs 0 ∧ streamTile.ochValid 0 1 = true ∧ streamTile.ochEb 0 1 = streamCore.eb ∧ streamTile.ochClosed 0 1 = false ∧
      (streamTile.sendElems 0 1 ((streamCore.activeElems 0 1).drop 0)).1 = 1 ∧ streamTile.ochValid 0 2 = false ∧
      streamTile.ichValid 0 1 = true ∧ streamTile.ichEb 0 1 = streamCore.eb ∧ (streamTile.buffered 0 1).length < streamCore.vl ∧
      streamTile.ichEnd 0 1 = false ∧ (streamTile.closeChannel 0 1).1 = true ∧
      (State.ichEnd (withRegs [(Reg.TIL_ICH_CTL 0 1, 2)] streamTile) 0 1) = true ∧
      isFn 0x48 0 0 0x00010848#32 = true ∧ fD 0x00010848#32 = 1 ∧ fA 0x00010848#32 = 1 ∧
      plainOk (streamTile.ctx 0 none 0x00010848#32) [1] = true := by decide +kernel
/-- VHIST64, AMOADD and VDOPEN over the same core; AMOADD on a Headstock core. -/
theorem witness_counters_atomics :
    isFn 0x46 1 1 0x04620046#32 = true ∧ fB 0x04620046#32 = 3 ∧ plainOk (streamTile.ctx 0 none 0x04620046#32) [3] = true ∧
      (match streamTile.histogram (streamTile.ctx 0 none 0x04620046#32) 8 (fun _ => 1) with | .next k _ => k.vbegin == 0 | _ => false) = true ∧
      canonical (0xFFFFFFFFFFE00000 : DWord) = true ∧ streamTile.anyPoison (benchAt 0 0) 8 = false ∧
      major 0x0C62204B#32 = 0x4B ∧ fn6 0x0C62204B#32 = 3 ∧
      (match (streamTile.atomic (streamTile.ctx 0 none 0x0C62204B#32) 0 0xFFFFFFFFFFE00000 8 1 0).1 with
        | .data _ => true | _ => false) = true ∧
      vamoOp 0 false = some 0 ∧ major 0x0062204A#32 = 0x4A ∧ (Codec.ofWord 1).ok = true ∧ (Codec.ofWord 1).sibEn = false ∧
      prefixOf? (some 0x000000FF#32) = .operands 0 0 ∧ isFn 0x49 0 0 0x00620049#32 = true := by decide +kernel
/-- A tile that searches table 0: VGAUGE of the one key in V1 to V2; both entries match. -/
def gaugeTile : State :=
  opened 0x01 { withRegs [(Reg.TIL_CTL 0, 1), (Reg.TIL_STATUS 0, 0)] ruled with cores := [(0, { streamCore with x := [(3, 0)] })] }
theorem witness_vgauge :
    let x := gaugeTile.ctx 0 none 0x00610847#32
    gaugeTile.Runs 0 ∧ isFn 0x47 0 0 x.w = true ∧ fA x.w = 1 ∧ fB x.w = 3 ∧ fD x.w = 1 ∧ plainOk x [1, 1] = true ∧ x.k.et = 6 ∧
      gaugeTile.tileTable 0 = (true, 1, gaugeTile) ∧ x.k.vl = 1 ∧ x.k.governs 8 (fn4 x.w) 0 = true ∧ gaugeTile.role ≠ some true ∧
      gaugeTile.GaugeIdle ∧ gaugeTile.Searches (coreMaster 0) 0 [BitVec.ofNat 64 (x.k.elem 8 1 0)] := by
  unfold State.GaugeIdle State.Searches; decide +kernel
/-- VL is 1, element 0 counts at the bench's first bytes, V1 is empty, and channel 1's queue may hold a poisoned element. -/
theorem witness_counters_in_bench :
    streamCore.vl = 1 ∧ streamCore.vbegin = 0 ∧ streamCore.governs streamCore.eb 0 0 = true ∧
      InBench (0xFFFFFFFFFFE00000 + BitVec.ofNat 64 (8 * streamCore.elem streamCore.eb 3 0)) 8 ∧
      InBench (0xFFFFFFFFFFE00000 + BitVec.ofNat 64 (4 * streamCore.elem streamCore.eb 3 0)) 4 ∧ InBench 0xFFFFFFFFFFE00000 8 ∧
      streamTile.anyPoison (benchAt 0 (benchOff 0xFFFFFFFFFFE00000)) 8 = false ∧
      streamTile.ochKind 0 1 ≠ 1 ∧ streamTile.crosses (streamTile.ochMsg 0 1 .endMark) = false ∧
      (streamCore.activeElems 0 1).length = 1 ∧ (∃ e ∈ [Buffered.mk 5 false true].take 1, e.bad = true) := by
  unfold InBench; decide +kernel
/-- A context with a value decoded ahead. -/
theorem witness_vdecode_ready :
    let k : Core := { streamCore with dec0 := { Decoder.closed with opened := true, count := 1, codec := 4, values := [9] } }
    (k.dec 0).opened = true ∧ (k.dec 0).fields.eb = k.eb ∧ siblingInStep k 0 1 = true ∧
      (k.dec 0).delivered + 1 ≤ (k.dec 0).values.length := by decide +kernel

/-! Witnesses of `TileWindowsAndChannelsTakeTheirCommands`. -/

/-- PBASE of window 0 of tile 0, halted and running. -/
theorem witness_window_write :
    let a := Reg.TIL_WIN_PBASE_LO 0 0
    awake.localTile 0 = some 0 ∧ awake.domainGate (.reg a) 0x140 (regDpa a) = none ∧ (regRow? a).isSome = true ∧
      awake.halted 0 = true ∧ isPairLo a = true ∧ isPairLo (a + 4) = false ∧ (regRow? (a + 4)).isSome = true ∧
      (regRow? (a + 24)).isSome = true ∧ isPairLo (a + 24) = false ∧ isPairLo (a + 20) = false ∧
      State.halted (tileRuns Core.reset) 0 = false ∧
      FMap.getD (FMap.setD awake.held a (some ⟨0x140, 0x1000⟩)) a = some ⟨0x140, 0x1000⟩ := by decide +kernel
/-- A CTRL write that makes a window with PLIM below PBASE valid. -/
theorem witness_window_illegal :
    let s := State.setCore awake 0 { Core.reset with win := [(0, 0x2000), (1, 0x1000)] }
    windowOk (fun j => s.winWord 0 0 j) 3 1 = false ∧ windowOk (fun j => awake.winWord 0 0 j) 3 1 = true := by decide +kernel
def oneElement : NocMsg := ⟨0, 1, 0, 0, 2, 0, 4, .elems [7] true false⟩
def oneCredit : NocMsg := ⟨0, 1, 0, 0, 2, 0, 4, .credit 3⟩
theorem witness_stream_messages :
    let s : State := { withRegs [(Reg.TIL_ICH_CFG 0 2, 0x80200000), (Reg.TIL_OCH_CFG 0 2, 0x80200000)] awake with
      noc := [oneElement, oneCredit] }
    s.pllStopped 0 = false ∧ s.meshHolds 1 0 = false ∧ (s.ungate 0).ichValid 0 2 = true ∧ (s.ungate 0).ichGen 0 2 = 0 ∧
      (s.ungate 0).ochValid 0 2 = true ∧ (s.ungate 0).ochGen 0 2 = 0 ∧ nocForward oneElement = true ∧
      nocForward oneCredit = false ∧ okFar (some oneElement) = true ∧
      awake.Reaches 0x140 (Reg.TIL_ICH_CTL 0 2) awake ∧ awake.Reaches 0x140 (Reg.TIL_OCH_CTL 0 2) awake ∧
      State.running (tileRuns { Core.reset with chWait := some (true, 2) }) 0 = true := by decide +kernel

/-! Witnesses of `ProgramsAreInstalledRemovedAndRun`. -/

/-- A RUN, an install and a removal that Headstock has been passed. -/
theorem witness_program_commands :
    ((inFlight (passed (entryOf 0x45 [])) awake).running? 1 0x45 = some (passed (entryOf 0x45 []))) ∧
      (passed (entryOf 0x45 [])).flags.testBit 0 = false ∧ (passed (entryOf 0x45 [(4, 4, 1)])).flags.testBit 0 = true ∧
      ((inFlight (passed (entryOf 0x44 [])) awake).running? 1 0x44).isSome = true ∧ awake.catalogHeld = false ∧
      awake.running? 1 0x45 = none := by decide +kernel
/-- An image in slot 2 by handle 0x0102, and its RUN with an empty block. -/
def installed : State :=
  { inFlight (passed (entryOf 0x44 [(0x20, 2, 0x0102)])) awake with images := [(2, some ⟨1, List.replicate 512 0, 0, false⟩)] }
theorem witness_installed : (installed.imageOf 0x0102).isSome = true ∧ (installed.image 2).isSome = true ∧
    (blockSpaces []).length = 0 ∧ (passed (entryOf 0x44 [(0x20, 2, 0x0102)])).len = 0 ∧
    (List.range 16).all (fun k => decide (stageMin (List.replicate 512 0) k ≤ installed.tilesInService.length)) = true := by
  decide +kernel
/-- An image of the wrong length fails check 1. -/
theorem witness_image_check : (awake.imgCheck 1 []).isSome = true := by decide +kernel
/-- The image is the one its handle names; a part of a spanning RUN of an image that is not installed. -/
theorem witness_run_parts :
    (installed.image 2).map (·.gen) = some ((passed (entryOf 0x44 [(0x20, 2, 0x0102)])).arg 0x21 1) ∧ installed.txs.length = 0 ∧
      okPart (some ⟨1, List.replicate 48 0, List.replicate 64 0⟩) = true ∧ (installed.cmd 8192).isNone = true := by decide +kernel

/-! Witnesses of `RunStagesArePlacedStartedAndEnded`. -/

theorem witness_stage_waits :
    ((runAt .waiting).run 1 = some (oneRun .waiting)) ∧ (runAt .waiting).waitsBefore 0 = false ∧
      stageMin ((runAt .waiting).runImage (oneRun .waiting)) 0 = 0 ∧
      ((stageCounts ((runAt .waiting).runImage (oneRun .waiting)) 0 64).map (·.2)).foldl (· + ·) 0 = 0 := by decide +kernel
theorem witness_stage_placed : ((runAt .placed).run 1).isSome = true ∧ ((runAt .placed).cmd 1).isSome = true := by decide +kernel
theorem witness_stage_over : { oneRun .running with insts := [] }.stageOver = true ∧ (oneRun .running).stageOver = false := by
  decide +kernel
theorem witness_run_ends :
    (runAt (.ending 0x802)).runTiles 1 (oneRun (.ending 0x802)) = [0] ∧ (runAt (.ending 0x802)).fld (Reg.TIL_STATUS 0) 3 0 = 1 ∧
      (runAt (.ending 0x802)).bit (Reg.TIL_CTL 0) 0 = false ∧ (runAt .running).stoppedTile (oneRun .running) = none ∧
      (withRegs [(Reg.TIL_STATUS 0, 3)] (runAt .running)).stoppedTile (oneRun .running) = some 0 := by decide +kernel

/-! Witnesses of `SinksDeliverAndRunsCommit`. -/

/-- Tile 0 of a running RUN has two elements on their way to host sink 1, or to column 3. -/
def sinking (kind k : Nat) : State :=
  { runAt .running with
    noc := [⟨kind, 0, 5, k, 0, 0, 4, .elems [7, 8] true false⟩]
    runs := [(1, some { oneRun .running with block := List.replicate 0x240 (0xFF : Byte) })] }
theorem witness_host_sink :
    ((sinking 2 1).sinkTake 2 0 5 none).isSome = true ∧ ((sinking 2 1).runOfTile 0).map (·.1) = some 1 ∧
      ((sinking 2 1).cmd 1).isSome = true := by decide +kernel
theorem witness_column_sink :
    ((sinking 3 3).sinkTake 3 0 5 none).isSome = true ∧ ((sinking 3 3).runOfTile 0).map (·.1) = some 1 := by decide +kernel
theorem witness_run_commits :
    let r := { oneRun .running with insts := [⟨0, 0, 0, none, true⟩] }
    r.stageOver = true ∧ (nextStage ((runAt .running).runImage r) 0).isNone = true ∧ (runAt .running).sinkPending 0 = false ∧
      imgTableOut ((runAt .running).runImage r) = false ∧ (runAt .running).catalogHeld = false := by decide +kernel
/-- The part of another node's RUN ends by the same conditions. -/
theorem witness_part_commits :
    let s := { runAt .running with cmds := [(8192, some (passed (entryOf 0x44 [])))], runs := [(8192, some { oneRun .running with insts := [⟨0, 0, 0, none, true⟩] })] }
    ((s.run 8192).map s.runDone) = some true ∧ (s.cmd 8192).isSome = true ∧ (8192 : Nat) < 8448 := by decide +kernel
theorem witness_host_up :
    ({ linked with regs := linked.regs }.hostUp 0) = true ∧ (awake.hostUp 0) = false := by decide +kernel
/-- The image header with TABLE_OUT set, and no column binding: all output columns hold as many rows. -/
theorem witness_table_out :
    let img := (List.replicate 512 (0 : Byte)).set 0x48 2
    imgTableOut img = true ∧ (imgColumns img).length = 0 := by
  decide +kernel

/-! Witnesses of `GaugeSearchesAnswerTheRankedMatch`. -/

theorem witness_gauge_lookup :
    let j := (ruled.judge 0x01 0x140 searchGranule 8 Rights.read).2
    (ruled.judge 0x01 0x140 searchGranule 8 Rights.read).1 = St.ok ∧ ruled.gLost 0 = false ∧ ruled.gWidth 0 = 1 ∧
      j.fld (Reg.GAU_TBL_ACL 0) 11 0 = 0 ∧ j.fld (Reg.GAU_TBL_ACL 0) 23 12 = 0xFFF ∧ j.bit (Reg.GAU_TBL_CFG 0) 30 = false ∧
      (j.gMatches 0 [5]).map (fun m => m.row.bad) = [false, false] ∧
      (j.gMatches 0 [5]).map (fun m => m.row.data) = [8, 7] := by decide +kernel
theorem witness_gauge_searches : ruled.Searches 0x140 0 [5] ∧ ruled.GaugeIdle ∧
    ruled.gaugeDone.find? (fun d => d.1 = ⟨0, 0x140, some 0, [5], none⟩) = none := by
  unfold State.Searches State.GaugeIdle; decide +kernel
theorem witness_gauge_search : ruled.role = none ∧ ruled.domainGate (.reg 0x350000) 0x140 (regDpa 0x350000) = none ∧
    ruled.arbFrozen 3 = false ∧ ruled.gTable 0 = true ∧ ruled.gTable 1 = false ∧
    (withRegs [(Reg.GLB_ARB_FREEZE, 8)] ruled).arbFrozen 3 = true := by decide +kernel
theorem witness_gauge_slot : ruled.Reaches 0x140 (Reg.GAU_SLOT_CMD 3) ruled ∧ ruled.bit (Reg.GAU_SLOT_STATUS 3) 31 = false ∧
    (ruled.plainWrite 0x140 (Reg.GAU_SLOT_CMD 3) 0x80000005).gSlotOp 3 = 5 ∧
    (ruled.plainWrite 0x140 (Reg.GAU_SLOT_CMD 3) 0x80000006).gSlotOp 3 = 6 ∧
    (0x80000005 : Word).toNat % 256 = 5 ∧ (0x80FF0005 : Word).toNat.testBit 31 = true ∧
    FMap.getD { ruled with gaugeLast := [(3, 5)] }.gaugeLast 3 = 5 ∧
    (ruled.plainWrite 0x140 (Reg.GAU_SLOT_CMD 3) 0x80FF0005).fld (Reg.GAU_SLOT_CMD 3) 23 16 = 255 := by decide +kernel

/-! Witnesses of `GaugeCommandsMaintainItsTables`. -/

theorem witness_gauge_commands :
    let t := withRegs [(Reg.GAU_SLOT_BANKS 3, 2)] ruled
    let p := t.plainWrite 0x140 (Reg.GAU_SLOT_CMD 3) 0x80000001
    t.Reaches 0x140 (Reg.GAU_SLOT_CMD 3) t ∧ t.bit (Reg.GAU_SLOT_STATUS 3) 31 = false ∧
      (withRegs [(Reg.GAU_SLOT_STATUS 3, 0x80000000)] t).bit (Reg.GAU_SLOT_STATUS 3) 31 = true ∧
      (List.range 16).find? (fun t => !p.gTable t) = some 1 ∧ p.gUsable 1 = true ∧ p.gUsable 0 = false ∧ p.gShadowOk = true ∧
      (List.range 32).filter (p.rd (Reg.GAU_SLOT_BANKS 3)).toNat.testBit = [1] := by decide +kernel
theorem witness_gauge_carried :
    ((paired 5 2 5).role = some true ∧ awake.role ≠ some true) ∧ okGaugeFar (some (.row 16 8191 (List.replicate 64 0))) = true ∧
      okGaugeFar (some (.row 32 0 (List.replicate 64 0))) = false := by decide +kernel
theorem witness_gauge_queued :
    let q : GSearch := ⟨0, 0x140, some 0, [5], none⟩
    (({ ruled with gaugeQueue := [q] } : State).gaugeQueue.map (·.table)) = [0] ∧ awake.domState 9 = 0 ∧ State.reset.domState 9 ≠ 0 := by
  decide +kernel
theorem witness_gauge_entries :
    ruled.gEntry 0 5 = some (0, 5) ∧ ruled.gEntry 0 8192 = none ∧ ruled.gMoving 0 = false ∧ (ruled.gRow 0 5).bad = false ∧
      ({ ruled with gauge := [(5, ⟨0, 0, 0, 0, true, false⟩)] }.gRow 0 5).bad = true ∧
      (withRegs [(Reg.GAU_SLOT_STATUS 4, 0x80000000), (Reg.GAU_SLOT_CMD 4, 0x80000008)] ruled).gMoving 0 = true ∧
      ((opened 0 ruled).gWriteShadow 0 5 GRow.empty).1 = St.ok := by decide +kernel
/-- MOVE_BANK from bank 0 to bank 1, running in slot 4. -/
theorem witness_gauge_switch :
    let s := withRegs [(Reg.GAU_SLOT_STATUS 4, 0x80000000), (Reg.GAU_SLOT_CMD 4, 0x80000008), (Reg.GAU_SLOT_MOVE 4, 0x100)] ruled
    s.bit (Reg.GAU_SLOT_STATUS 4) 31 = true ∧ s.fld (Reg.GAU_SLOT_CMD 4) 7 0 = 8 ∧ (s.gBanks 0).contains 0 = true ∧
      s.fld (Reg.GAU_SLOT_MOVE 4) 12 8 = 1 ∧ s.gUsable 1 = true := by decide +kernel
theorem witness_gauge_banks :
    ruled.bit Reg.GAU_CTL 0 = true ∧ ruled.Reaches 0x140 Reg.GAU_BANK_RETIRED ruled ∧ ruled.gOwned 0 = true ∧
      ruled.gOwned 1 = false ∧ ruled.domainGate (.reg Reg.GAU_SHADOW_BASE_LO) 0x140 (regDpa Reg.GAU_SHADOW_BASE_LO) = none ∧
      ruled.domainGate (.reg Reg.GAU_SHADOW_BASE_HI) 0x140 (regDpa Reg.GAU_SHADOW_BASE_HI) = none ∧
      ruled.gTable 0 = true ∧ (∀ n < 16, awake.gTable n = false) ∧
      awake.domainGate (.reg Reg.GAU_SHADOW_BASE_HI) 0x140 (regDpa Reg.GAU_SHADOW_BASE_HI) = none := by decide +kernel

/-! Witnesses of `StippleJobsCompleteByTheirChecks`. -/

/-- A job of Stipple ring 0 on engine 3: an OP and flags, a source of `n` bytes at 0x10000 and a capacity of `cap` bytes at
0x20000, in a codec of 4-byte elements. -/
def stippling (op n cap : Nat) : State :=
  let e := (entryOf 0 [(4, 4, op + 0x30), (8, 8, 0x10000), (0x18, 8, 0x20000), (0x38, 4, n + 2 ^ 17 * (cap / 64))]).set 2 0
  { opened 0 awake with jobs := [⟨ringKey ⟨.stp, 0⟩, 0, 0, e, 3, .start, none, [], none⟩] }
theorem witness_stipple_compress :
    ((stippling 1 64 64).stpJob 3 1).isSome = true ∧ (awake.stpJob 3 1).isNone = true ∧
      (((stippling 1 64 64).stpJob 3 1).map (fun j => (stpStep1 awake.rev21 j.entry, stpSrcLen j.entry, stpCap j.entry)))
        = some (true, 64, 64) ∧
      ((stippling 1 32 64).stpJob 3 1).map (fun j => (stpStep1 awake.rev21 j.entry, stpSrcLen j.entry)) = some (true, 32) ∧
      ((stippling 1 96 64).stpJob 3 1).map (fun j => (stpStep1 awake.rev21 j.entry, stpSrcLen j.entry)) = some (true, 96) ∧
      ((stippling 1 63 64).stpJob 3 1).map (fun j => stpStep1 awake.rev21 j.entry) = some false := by decide +kernel
/-- A job that has its output waits for the write alone. -/
theorem witness_stipple_written :
    let s := stippling 1 64 64
    let r := (s.readMem Mid.stipple 0x10000 64).1
    (s.stpJob 3 1).map (fun j => (j.out, j.got)) = some (none, []) ∧ r.status = St.ok ∧ r.data.length = 64 ∧
      (s.writeMem Mid.stipple 0x20000 [1]).1 = St.ok := by decide +kernel

/-! Witnesses of `ProofOperationsCompleteOnTheirSlot`. -/

/-- A Proof job of ring 0 with the OP and flags `p` and a length, on slot 2 of engine 0, which holds `v`. -/
def proving (p len : Nat) (v : Option Slot) : State :=
  let e := (entryOf 0 [(4, 4, p), (8, 8, 0x10000), (0x18, 8, 0x20000), (0x28, 4, len), (0x30, 4, 4096)]).set 2 0
  let e := (e.set 4 (BitVec.ofNat 8 p))
  { opened 0 awake with jobs := [⟨ringKey ⟨.prf, 0⟩, 0, 0, e, 2, .start, none, [], none⟩], slots := [(2, v)] }
/-- A closed stream and an open one. -/
def hashed (final : Bool) : Slot := ⟨0, 0, 0, final, false, false, 1, algStart 0⟩
theorem witness_proof_jobs :
    ((proving 0x11 64 none).prfJob 0 2 1).isSome = true ∧ ((proving 0x11 64 none).prfPass 0).prfServes 0 2 = true ∧
      ((proving 0x11 64 none).prfJob 0 2 1).map (fun j => (j.eng, j.slt, prfCheck j.entry)) = some (0, 2, St.ok) ∧
      ((proving 2 0 (some (hashed true))).prfJob 0 2 2).map (fun j => (prfCheck j.entry, slotStatus j.entry (hashed true),
        slotStatus j.entry (hashed false))) = some (St.ok, St.ok, St.digestNotReady) ∧
      ((proving 3 (algDigest 0) (some (hashed true))).prfJob 0 2 3).map (fun j =>
        (prfCheck j.entry, slotStatus j.entry (hashed true))) = some (St.ok, St.ok) ∧
      ((proving 4 0 (some (hashed true))).prfJob 0 2 4).map (fun j => (prfCheck j.entry, slotStatus j.entry (hashed true))) =
        some (St.ok, St.ok) ∧
      ((proving 5 256 none).prfJob 0 2 5).map (fun j => prfCheck j.entry) = some St.ok ∧
      ((proving 6 0 none).prfJob 0 2 6).map (fun j => prfCheck j.entry) = some St.ok ∧
      ((proving 0x1011 64 none).prfJob 0 2 1).map (fun j => prfCheck j.entry) = some St.invalidField := by decide +kernel
theorem witness_proof_quantum :
    (rangeFrom 1 8).find? (fun d => (proving 6 0 none).slotBusy 0 ((0 + d) % 8)) = some 2 ∧
      (∀ i < 8, awake.slotBusy 0 i = false) := by decide +kernel

/-! Witnesses of `WorkRingsFetchPostAndReset`. -/

/-- Proof ring 0 is on and pending, with its context at 0x10000: 2 submission entries at 0x20000 and 4 completions at 0x30000. -/
def ringing (head : List Byte) : State :=
  let slot64 (v : Nat) : List Byte := natLE 8 v ++ natLE 8 (2 ^ 64 - 1 - v)
  let slot32 (v : Nat) : List Byte := natLE 4 v ++ natLE 4 (2 ^ 32 - 1 - v)
  let ctx := slot64 0x20000 ++ slot64 0x30000 ++ slot32 (1 + 2 ^ 16 * 3) ++ slot32 0 ++ List.replicate 16 0
  let r : Ring := ⟨.prf, 0⟩
  let s := withRegs [(ringReg r, 0x10000), (ringCtl r, 1), (Reg.PRF_CTL, 1)] (opened 0 awake)
  let s := State.setRing s r { RingState.reset with pending := true, ctx := some ctx }
  let s := (s.writeMem Mid.proof 0x10000 ctx).2
  if head = [] then s else (s.writeMem Mid.proof 0x20000 head).2
theorem witness_ring_fetch :
    let r : Ring := ⟨.prf, 0⟩
    let s := ringing []
    let a := s.readMem Mid.proof 0x10000 64
    r.ok = true ∧ s.ringOutbid r = false ∧ s.ringAsks r = false ∧ ringExists r = true ∧ s.ringOn r = true ∧ s.ringError r = false ∧ (s.ring r).pending = true ∧
      s.unitTakes r = true ∧ s.ringCtxAt r = 0x10000 ∧ dataStatus a.1 = St.ok ∧ a.2.ctxCheck a.1.data (s.ring r).ctx = St.ok ∧
      a.2.ctxCheck [] none ≠ St.ok := by decide +kernel
theorem witness_ring_entry :
    let r : Ring := ⟨.prf, 0⟩
    let s := ringing ((entryOf 0 [(0, 4, 2 ^ 31), (4, 4, 6), (0x10, 8, 2 ^ 64 - 1), (0x20, 8, 2 ^ 64 - 1), (0x2C, 4, 2 ^ 32 - 1),
      (0x34, 4, 2 ^ 32 - 1)]))
    let e := s.readMem Mid.proof 0x20000 64
    dataStatus e.1 = St.ok ∧ (fieldLE e.1.data 0 4).testBit 31 = true ∧ (s.ring r).phase = true ∧
      s.fetched r + s.unreleased r = 0 ∧ (entryMalformed .prf e.1.data).isNone = true ∧
      (entryMalformed .prf (List.replicate 64 0)) = some 1 := by decide +kernel
theorem witness_ring_registers :
    let r : Ring := ⟨.stp, 2⟩
    r.ok = true ∧ ringExists r = true ∧ awake.Reaches 0x140 (ringReg r + 8) awake ∧ awake.Reaches 0x140 (ringChead r) awake ∧
      awake.Reaches 0x140 (ringCtl r) awake ∧ awake.ringError r = false ∧
      (withRegs [(ringStatus r, 0x80000000)] awake).ringError r = true := by decide +kernel
/-- A finished job of tag 9, and a posted completion that CHEAD may release. -/
theorem witness_ring_post :
    let r : Ring := ⟨.stp, 2⟩
    let j : Job := ⟨ringKey r, 9, 0, [], 0, .start, some (0, 64), [], none⟩
    (State.jobs { awake with jobs := [j] }).find? (fun j : Job => j.ring = ringKey r && j.tag = 9 && j.done.isSome) = some j ∧
      (let s := State.setRing awake r { RingState.reset with ctx := some ((List.replicate 64 (0 : Byte)).set 0x22 3), ctail := 1 }
       s.unreleased r = 1 ∧ ctxCmpDepth ((List.replicate 64 (0 : Byte)).set 0x22 3) = 4) := by decide +kernel

/-! Witnesses of `DmaRunsListsTransfersAndTimers`. -/

/-- DMA channel 3 is busy with a job whose first descriptor lies at 0x10000. -/
def dmaWorks : State :=
  { withRegs [(Reg.DMA_CTL, 1), (Reg.DMA_BUSY_LO, 8)] (opened 0 awake) with
    jobs := [⟨ringKey ⟨.dma, 3⟩, 0, 0, [], 3, { Progress.start with next := 0x10000 }, none, [], none⟩] }
theorem witness_dma_list : dmaWorks.arbFrozen 0 = false ∧ (dmaWorks.dmaJob 3).isSome = true ∧ dmaWorks.dmaMay 3 = true ∧
    dataStatus (dmaWorks.readMem Mid.dma 0x10000 64).1 = St.ok ∧
    State.descCheck dmaWorks (dmaWorks.readMem Mid.dma 0x10000 64).1.data = St.complementMismatch ∧
    dmaWorks.dmaIsBusy 3 = true ∧ dmaWorks.dmaTop = [] ∧ dmaWorks.dmaIsBusy 4 = false := by decide +kernel
/-- A descriptor that copies 64 bytes of HBM and ends its list. -/
theorem witness_dma_descriptor :
    let slot64 (v : Nat) : List Byte := natLE 8 v ++ natLE 8 (2 ^ 64 - 1 - v)
    let b := slot64 0x20000 ++ slot64 0x30000 ++ slot64 0 ++ natLE 4 64 ++ natLE 4 (2 ^ 32 - 1 - 64) ++ natLE 8 0
    let r := dmaWorks.moveAll memoryBus 3 (Desc.ofBytes b) (.data []) Progress.start
    dmaWorks.descCheck b = St.ok ∧ (Desc.ofBytes b).next = 0 ∧ r.1 = St.ok ∧ r.2.1.sullied = false := by decide +kernel
theorem witness_dma_register_mode :
    let s := withRegs [(Reg.DMA_CTL, 3), (Reg.DMA_CH_REG_COUNT 2, 64)] (opened 0 awake)
    s.Reaches 0x140 (Reg.DMA_CH_REG_CTL 2) s ∧ s.bit Reg.DMA_CTL 1 = true ∧ s.bit (Reg.DMA_CH_REG_STATUS 2) 31 = false ∧
      (s.regDesc 2 0x80000000).count = 64 ∧ (s.regDesc 2 0x80000000).srcHost = false ∧ (s.regDesc 2 0x80000000).dstHost = false ∧
      (s.regDesc 2 0x80000000).src = 0 ∧ (s.regDesc 2 0x80000000).dst = 0 ∧
      (State.dmaMay { withRegs [(Reg.DMA_BUSY_LO, 4)] s with dmaReg := [(2, some Progress.start)] } 2) = true ∧ dmaWorks.bit Reg.DMA_CTL 1 = false ∧
      addrOk false 0 64 = true ∧ addrOk false (2 ^ 48 - 1) 64 = false := by decide +kernel
theorem witness_dma_mode :
    awake.Reaches 0x140 Reg.DMA_CTL awake ∧ dmaWorks.dmaIsBusy 3 = true ∧
      (∀ c < 64, awake.dmaIsBusy c = false ∧ awake.ringOn ⟨.dma, c⟩ = false) := by decide +kernel
theorem witness_dma_timer : (withRegs [(Reg.DMA_TMR_CTL 5, 3)] awake).bit (Reg.DMA_TMR_CTL 5) 0 = true ∧
    (((withRegs [(Reg.DMA_TMR_CTL 5, 3)] awake).atTime 0).dmaTrigger 1 5).bit (Reg.DMA_TMR_CTL 5) 1 = true ∧
    (((withRegs [(Reg.DMA_TMR_CTL 5, 1)] awake).atTime 0).dmaTrigger 1 5).bit (Reg.DMA_TMR_CTL 5) 1 = false := by decide +kernel

/-! Witnesses of `DispatcherServesSlotsEventsAndCores`. -/

/-- Thread 5 is in the state `st` and every dispatcher event is at rest. -/
def threaded (st : Nat) : State := withRegs [(Reg.HDS_THR_STATE 5, BitVec.ofNat 32 (2 ^ 29 * st + 7))] (opened 0 awake)
theorem witness_slot_commands :
    let s := threaded 4
    s.Reaches 0x140 (Reg.HDS_SLOT_CMD 3) s ∧ s.Reaches 0x140 (Reg.HDS_SLOT_CMD 16) s ∧ s.bit (Reg.HDS_SLOT_STATUS 3) 31 = false ∧
      (withRegs [(Reg.HDS_SLOT_STATUS 3, 0x80000000)] s).bit (Reg.HDS_SLOT_STATUS 3) 31 = true ∧
      s.thrState 5 = 4 ∧ s.thrState 6 = 0 ∧ s.coreState 3 = 0 ∧ (headRuns Core.reset).coreState 0 = 1 ∧
      s.bit (Reg.HDS_EVT 5) 0 = false ∧ bits (0x80050008 : Word).toNat 25 16 = 5 := by decide +kernel
/-- An image with a good CONTROL, and one without; the state has a free thread. -/
theorem witness_spawn :
    let img := List.replicate 0x1F0 (0 : Byte) ++ natLE 8 (cp32 9) ++ List.replicate 8 0
    awake.freeThread = some 0 ∧ imageCheck img = St.ok ∧ imageCheck (List.replicate 512 0) = St.complementMismatch ∧
      awake.rd64 (Reg.HDS_SLOT_ARG_LO 3) % 64 = 0 ∧ ((opened 0 awake).readNow (slotMaster 3) 0 512).1.status = St.ok ∧
      awake.aboveFloor false 9 = false ∧ (withRegs [(Reg.HDS_SVC_PRIO, 10)] awake).aboveFloor true 9 = true := by decide +kernel
/-- Thread 5 runs on core 2, in mode user. -/
theorem witness_setprio :
    let s := withRegs [(Reg.HDS_CORE_STATUS 2, 0x40050000)] (threaded 2)
    State.reset.eventSourced 64 = false ∧ State.reset.eventSourced 128 = true ∧
    (State.userThread { s with cores := [(130, { Core.reset with user := true })] } 3 5).1 = true ∧ (s.userThread 3 5).2 = s ∧ s.thrState 5 = 2 ∧ s.aboveFloor true 31 = false ∧
      (List.range 16).find? (fun c => (s.setFld (Reg.HDS_THR_STATE 5) 4 0 31).runsThread 5 c) = some 2 := by decide +kernel
theorem witness_events : awake.spineOn = true ∧ State.reset.spineOn = false ∧ (FMap.getD awake.waiters 9).isEmpty = true ∧
    awake.fld (Reg.HDS_EVT 9) 15 0 = 0 ∧ (withRegs [(Reg.HDS_EVT 9, 0xFFFF)] awake).fld (Reg.HDS_EVT 9) 15 0 = 0xFFFF := by
  decide +kernel
theorem witness_placing :
    let s := withRegs [(Reg.HDS_CTL, 1)] awake
    s.bit Reg.HDS_CTL 0 = true ∧ s.domState 3 = 0 ∧ s.idleCore = some 0 ∧ s.headReady = none ∧
      State.headReady { s with ready := [(7, [5])] } = some (7, 5) ∧ awake.coreState 4 ≠ 2 ∧
      (withRegs [(Reg.HDS_CORE_STATUS 4, 0x80000000)] awake).coreState 4 = 2 ∧
      awake.Reaches 0x140 (Reg.HDS_CORE_CTL 4) awake := by decide +kernel
/-- Every core runs a thread of priority 20 with preemption allowed, thread 5 of priority 7 is READY: core 0 gives way. -/
theorem witness_preempt :
    let s : State := { withRegs ((Reg.HDS_CTL, 1) :: (Reg.HDS_THR_STATE 0, 20) :: (Reg.HDS_THR_STATE 5, 0x20000007) ::
        (List.range 16).map (fun n => (Reg.HDS_CORE_STATUS n, 0x40000000))) awake with
      ready := [(7, [5])], cores := (List.range 16).map (fun n => (128 + n, { Core.reset with hstatus := 4 })) }
    s.headReady = some (7, 5) ∧ s.idleCore = none ∧ s.victimCore 7 = some 0 ∧ s.givesWay = some 0 ∧
      (FMap.getD s.slotWaits 0).isNone = true := by decide +kernel
/-- Thread 5's image is in the prefetch slot of core 0. -/
theorem witness_prefetched :
    let img := List.replicate 0x1F0 (0 : Byte) ++ natLE 8 (cp32 9) ++ List.replicate 8 0
    let s : State := { withRegs [(Reg.HDS_CTL, 1)] awake with headSlots := [(0, some (5, St.ok, img))], ready := [(7, [5])] }
    FMap.getD s.headSlots 0 = some (5, St.ok, img) ∧ imageCheck img = St.ok ∧ s.idleCore = some 0 ∧
      ((s.dropHead 7).loadThread 0 5).1 = some true := by decide +kernel

/-! Witnesses of `ControllersReadWriteFreezeAndSwitch`. -/

/-- The block with its HBM limit as after reset, burst 0x1000 in each condition of the array, and controller 0 frozen. -/
theorem witness_controller_reads :
    (∀ e ∈ [Ecc.clean, .corrected, .transient, .uncorrectable], (State.setCells awake 0x1000 e).cells 0x1000 = e) ∧
      awake.poisoned 0x1000 = false ∧ (State.setPoison awake 0x1000 true).poisoned 0x1000 = true ∧ awake.mcState 0 = 0 ∧
      (withRegs [(Reg.MC_STATUS 0, 0x40000000)] awake).mcState 0 = 1 ∧
      (withRegs [(Reg.MC_STATUS 0, 0x80000000)] awake).mcState 0 = 2 := by decide +kernel
theorem witness_hbm_commands :
    awake.domainGate (.hbm 0x1000) 0x140 0x1000 = none ∧ 0x1040 ≤ awake.hbmLimit ∧ awake.switching (awake.controller 0x1000 / 16) = false ∧
      awake.moving 0x1000 = false ∧ awake.primaryWindow 0x1000 = none ∧
      (withRegs [(Reg.GLB_HBM_LIMIT, 0)] awake).hbmLimit < 0x1040 ∧
      (withRegs [(Reg.GLB_HBM_LIMIT, 0)] awake).domainGate (.hbm 0x1000) 0x140 0x1000 = none ∧
      (withRegs [(Reg.MC_STACK_CTL (16 * (awake.controller 0x1000 / 16)), 0x40000000)] awake).switching
        (awake.controller 0x1000 / 16) = true := by decide +kernel
theorem witness_stack_switch :
    awake.Reaches 0x140 (Reg.MC_STACK_CTL 16) awake ∧ awake.bit (Reg.MC_STACK_CTL 16) 30 = false ∧
      (∀ n ∈ rangeFrom 16 16, awake.shadowOk n = true) ∧ (withRegs [(Reg.MC_TIM0 16 1, 0)] awake).shadowOk 16 = false ∧
      (withRegs [(Reg.MC_STACK_CTL 16, 0x40000000)] awake).switching 1 = true ∧ awake.switching 1 = false ∧
      awake.domState 14 = 0 ∧ State.reset.domState 14 ≠ 0 := by decide +kernel
theorem witness_thaw : awake.Reaches 0x140 (Reg.MC_CTL 5) awake ∧ awake.mcState 5 = 0 := by decide +kernel

/-! Witnesses of `RepairRetirementMirrorsAndScrub`. -/

/-- Controller 5 frozen, in service, and retired, without and with a repair running. -/
theorem witness_ppr :
    let frozen := withRegs [(Reg.MC_STATUS 5, 0x40000000)] awake
    frozen.Reaches 0x140 (Reg.MC_PPR 5) frozen ∧ frozen.mcState 5 = 1 ∧ frozen.bit (Reg.MC_PPR_STATUS 5) 31 = false ∧
      awake.Reaches 0x140 (Reg.MC_PPR 5) awake ∧ awake.mcState 5 = 0 ∧
      (withRegs [(Reg.MC_STATUS 5, 0x80000000)] awake).mcState 5 = 2 ∧
      (withRegs [(Reg.MC_PPR_STATUS 5, 0x80000000)] frozen).bit (Reg.MC_PPR_STATUS 5) 31 = true := by decide +kernel
theorem witness_retire :
    let u := awake.plainWrite 0x140 Reg.GLB_HBM_RETIRE_CMD 0x80070000
    awake.Reaches 0x140 Reg.GLB_HBM_RETIRE_CMD awake ∧ awake.bit Reg.GLB_HBM_RETIRE_CMD 30 = false ∧
      (withRegs [(Reg.GLB_HBM_RETIRE_CMD, 0x40000000)] awake).bit Reg.GLB_HBM_RETIRE_CMD 30 = true ∧
      u.fld Reg.GLB_HBM_RETIRE_CMD 21 16 = 7 ∧ u.retired 7 = false ∧ u.retiredCount 0 64 = 0 ∧
      u.reachesAbove (u.hbmLimit - 3 * 2 ^ 29) = false ∧ u.switching 0 = false ∧
      (withRegs [(Reg.GLB_HBM_RETIRED_LO, 128)] u).retired 7 = true ∧
      (withRegs [(Reg.MC_STACK_CTL 0, 0x40000000)] u).switching 0 = true := by decide +kernel
theorem witness_mirrors :
    let t := withRegs [(Reg.GLB_BOOT_STATUS, 0x20000000)] awake
    t.Reaches 0x140 (Reg.GLB_MIR_CFG 2) t ∧ t.bringUpAdmits 0x140 = true ∧ t.bringUpAdmits 0 = false ∧
      t.mirrorOk 2 0x80010800 = true ∧ t.mirrorOk 2 0x80000800 = false ∧ t.Reaches 0x140 (Reg.GLB_MIR_CTL 2) t ∧
      t.bit (Reg.GLB_MIR_CTL 2) 30 = false ∧ (withRegs [(Reg.GLB_MIR_CTL 2, 0x40000000)] t).bit (Reg.GLB_MIR_CTL 2) 30 = true := by
  decide +kernel
theorem witness_scrub : awake.domState 13 = 0 ∧ awake.mcState 5 = 0 ∧ awake.switching 0 = false ∧
    (withRegs [(Reg.MC_SCRUB_POS 5, 6291455)] awake).fld (Reg.MC_SCRUB_POS 5) 22 0 + 1 = 6291456 ∧
    State.reset.domState 13 ≠ 0 := by decide +kernel

/-! Witnesses of `CachesServeInvalidateEnableAndRange`. -/

/-- The system cache on, with line 0x20 in way 0 of its set, every master admitted to HBM. -/
def cached (dirty : Bool) : State :=
  { withRegs [(Reg.SC_CTL, 9)] (opened 0 awake) with
    slices := [(homeSlice 0x1000, { Cache.empty with lines := [(cacheSet 0x1000 * 16, some ⟨0x20, dirty, List.replicate 128 7, [false, false]⟩)] })] }
def readOf (m : Nat) : Request := ⟨m, 0x1000, 8, .read, [], false⟩
theorem witness_line_hit : ((cached true).slice (homeSlice 0x1000)).find 16 (cacheSet 0x1000) 0x20 = some 0 ∧
    (((cached true).slice (homeSlice 0x1000)).at 16 (cacheSet 0x1000) 0).isSome = true ∧
    ((cached true).slice (homeSlice 0x2000)).find 16 (cacheSet 0x2000) 0x40 = none := by decide +kernel
theorem witness_cache_request :
    (readOf 0x140).ok = true ∧ (cached true).region 0x1000 8 = .hbm 0x1000 ∧ lineNo 0x1000 = 0x20 ∧
      (cached true).sliceServes (homeSlice 0x1000) = true ∧ (cached true).wayHolds (.hbm 0x1000) 0x140 8 = false ∧
      awake.sliceServes (homeSlice 0x1000) = false := by decide +kernel
theorem witness_cache_admitted :
    (cached true).verdict 0 0x140 0x1000 8 ((Region.hbm 0x1000).rights (readOf 0x140)) = St.ok := by decide +kernel
theorem witness_cache_control :
    awake.Reaches 0x140 Reg.SC_CTL awake ∧ awake.bit Reg.SC_CTL 0 = false ∧ awake.bit Reg.SC_CTL 3 = false ∧
      (cached true).Reaches 0x140 Reg.SC_CTL (cached true) ∧ (cached true).bit Reg.SC_CTL 0 = true ∧
      (cached true).bit Reg.SC_CTL 4 = false ∧ (withRegs [(Reg.SC_CTL, 0x11)] awake).bit Reg.SC_CTL 4 = true ∧
      (withRegs [(Reg.SC_CTL, 8)] awake).Reaches 0x140 Reg.SC_CTL (withRegs [(Reg.SC_CTL, 8)] awake) := by decide +kernel
theorem witness_cache_range :
    let s := withRegs [(Reg.SC_RANGE_LEN_LO, 128)] awake
    s.Reaches 0x140 Reg.SC_RANGE_CMD s ∧ s.bit Reg.SC_RANGE_CMD 30 = false ∧ s.rd64 Reg.SC_RANGE_LEN_LO = 128 ∧
      s.rd64 Reg.SC_RANGE_BASE_LO = 0 ∧ 128 ≤ s.hbmLimit ∧ awake.rd64 Reg.SC_RANGE_LEN_LO = 0 ∧
      awake.Reaches 0x140 Reg.SC_RANGE_CMD awake ∧
      (withRegs [(Reg.SC_RANGE_CMD, 0x40000000)] awake).bit Reg.SC_RANGE_CMD 30 = true := by decide +kernel
theorem witness_tile_caches :
    awake.localTile 3 = some 3 ∧ awake.Reaches 0x140 (Reg.TIL_L1_CTL 3) awake ∧ awake.halted 3 = true ∧
      awake.bit (Reg.TIL_L1_CTL 3) 0 = false ∧ awake.bit (Reg.TIL_L1_CTL 3) 3 = false ∧ (tileRuns Core.reset).localTile 0 = some 0 ∧
      (tileRuns Core.reset).Reaches 0x140 (Reg.TIL_L1_CTL 0) (tileRuns Core.reset) ∧ (tileRuns Core.reset).halted 0 = false ∧
      (withRegs [(Reg.TIL_L1_CTL 3, 8)] awake).bit (Reg.TIL_L1_CTL 3) 3 = true ∧
      (withRegs [(Reg.TIL_L1_CTL 3, 9)] awake).bit (Reg.TIL_L1_CTL 3) 0 = true := by decide +kernel

/-! Witnesses of `MeshCountsRetransmissionsMarksLinksAndFreezes`. -/

/-- Router 9, whose eastern link needed 16 retransmissions at time 0. -/
def worn : State := { awake with meshRetx := FMap.setD awake.meshRetx (linkKey 9 1) (List.replicate 16 0) }
theorem witness_mesh_faulty :
    awake.domState 1 = 0 ∧ 17 ≤ ((FMap.getD worn.meshRetx (linkKey 9 1)).filter (fun t => worn.time.toNat < t + 1000000) ++ [0]).length ∧
      worn.bit (Reg.MSH_LINK 9) 1 = false ∧ linkEnd 9 1 = some (10, 3) ∧ linkEnd 7 1 = none ∧ State.reset.domState 1 ≠ 0 ∧
      (withRegs [(Reg.MSH_LINK 9, 0x20)] awake).bit (Reg.MSH_LINK 9) 5 = true ∧
      (withRegs [(Reg.MSH_LINK 9, 0x20)] awake).domState 1 = 0 := by decide +kernel
theorem witness_router_freeze :
    let f := withRegs [(Reg.MSH_STATUS 9, 1)] awake
    awake.Reaches 0x140 (Reg.MSH_CTL 9) awake ∧ awake.bit (Reg.MSH_STATUS 9) 0 = false ∧ f.Reaches 0x140 (Reg.MSH_CTL 9) f ∧
      f.bit (Reg.MSH_STATUS 9) 0 = true ∧ f.Reaches 0x140 (Reg.MSH_ROUTE 9 63) f ∧ awake.Reaches 0x140 (Reg.MSH_ROUTE 9 63) awake ∧
      0x21 ≤ f.revision ∧ (withRegs [(Reg.GLB_IDENT_HI, 0x02)] f).revision < 0x21 ∧
      (withRegs [(Reg.GLB_IDENT_HI, 0x02)] f).Reaches 0x140 (Reg.MSH_ROUTE 9 63) (withRegs [(Reg.GLB_IDENT_HI, 0x02)] f) ∧
      bits (0x4000 : Word).toNat 15 14 = 1 ∧ bits (0xC000 : Word).toNat 15 14 = 3 := by decide +kernel

/-! Witnesses of `PortsAcknowledgeReplayTrainAndRetire`. -/

/-- Port 2 in the state given, with Hatch on. -/
def porting (st : Nat) : State := withRegs [(Reg.HAT_PORT_STATE 2, BitVec.ofNat 32 st), (Reg.HAT_CTL, 1)] awake
/-- Port 2 UP with flits 0 to 4 sent and not acknowledged. -/
def replaying : State := (porting 2).setHatPort 2 { HatPort.new with txNext := 5 }
/-- An intact flit of a TYPE and SEQ, acknowledging flit 4095. -/
def flitOf (type seq : Nat) : List Byte :=
  let h := natLE 8 (2 ^ 60 * type + 2 ^ 48 * seq + 2 ^ 36 * 4095) ++ natLE 4 0
  h ++ natLE 4 (crc32 (h ++ List.replicate 128 0)).toNat ++ List.replicate 128 0
set_option maxRecDepth 200000 in
theorem witness_link_flits :
    flitIntact (flitOf 1 0) = true ∧ flitType (flitOf 1 0) = 1 ∧ flitSeq (flitOf 1 0) = 0 ∧
      (porting 2).portState 2 = 2 ∧ awake.portState 2 = 0 ∧ ((porting 2).hatPort 2).rxLast = 4095 ∧
      ((porting 2).hatPort 2).rxBad = false := by decide +kernel
set_option maxRecDepth 200000 in
theorem witness_link_flit_kinds :
    flitIntact (flitOf 1 3) = true ∧ flitSeq (flitOf 1 3) = 3 ∧ flitIntact (flitOf 0 0) = true ∧ flitIntact (flitOf 2 0) = true ∧
      flitType (flitOf 2 0) = 2 ∧ flitIntact (List.replicate 144 0x10) = false ∧ flitType (List.replicate 144 0x10) = 1 := by
  decide +kernel
/-- Port 2 UP at x4, every lane passed. -/
theorem witness_codewords :
    let s := porting 0xF32
    let c : Codeword := ⟨1, 0x10001, List.replicate 640 0, .clean⟩
    c.ok = true ∧ s.portState 2 = 2 ∧ s.activeLanes 2 = [0, 1, 2, 3] ∧ s.placed 2 c = true ∧ (s.hatPort 2).rxHeld = [] ∧
      s.placed 2 { c with lane := 2 } = false ∧ cwNumber c = (s.hatPort 2).rxNext + 1 ∧
      cwNumber { c with marker := 0 } = (s.hatPort 2).rxNext ∧ (s.hatPort 2).rxBytes = [] := by decide +kernel
theorem witness_replay :
    (replaying.hatPort 2).unacked = 5 ∧ replaying.portState 2 = 2 ∧ ((porting 2).hatPort 2).unacked = 0 ∧
      (HatPort.take { HatPort.new with txNext := 5 } 2).txAcked = 2 ∧ (HatPort.take { HatPort.new with txNext := 5 } 9).txAcked = 4095 := by
  decide +kernel
theorem witness_training :
    (porting 1).portState 2 = 1 ∧ lanesFor 3 (15 &&& 15) = some 15 ∧ lanesFor 3 (7 &&& 15) = none ∧ lanesFor 3 0 = none ∧
      laneCount 7 < widthNeeds 3 ∧ lanesFor 2 5 = none ∧ widthNeeds 2 ≤ laneCount 5 ∧ lanesFor 1 4 = some 4 := by decide +kernel
theorem witness_port_control :
    (porting 4).Reaches 0x140 (Reg.HAT_PORT_CTL 2) (porting 4) ∧ (porting 4).bit (Reg.HAT_PORT_CTL 2) 0 = false ∧
      (porting 4).bit Reg.HAT_CTL 0 = true ∧ awake.Reaches 0x140 (Reg.HAT_PORT_CTL 2) awake ∧ awake.bit Reg.HAT_CTL 0 = false := by
  decide +kernel

/-! Witnesses of `NeighboursWardensAndManagementPackets`. -/

/-- Port 2 UP, FID 0x105 of group 1, with warden 0x101. -/
def member : State :=
  withRegs [(Reg.HAT_PORT_STATE 2, 2), (Reg.HAT_CTL, 1), (Reg.HAT_FID, 0x80000105), (Reg.HAT_GROUP_CFG, 0x10003), (Reg.HAT_WARDEN, 0x80000101)] awake
/-- A management packet of an OP from a node to another. -/
def mgmt (op src dst aux addr : Nat) (data : List Byte) : Packet :=
  { Packet.plain op 2 src dst 9 (if data = [] then 4 else data.length) with aux := aux, addr := addr, payload := data }
theorem witness_hello :
    let k := mgmt 0x20 0x106 0x3FFFF 0 0 (List.replicate 64 0)
    k.ok = true ∧ member.Receives 2 0x20 k ∧ packetBad k = false ∧ packetBad { k with vc := 0 } = true ∧ member.portState 2 = 2 ∧
      awake.portState 2 ≠ 2 ∧ (member.hatPort 2).nbr = none ∧ (member.hatPort 2).eventDue = false := by decide +kernel
theorem witness_hello_learns :
    let b : List Byte := List.replicate 12 0 ++ natLE 4 0x10000 ++ natLE 4 0x80000101 ++ List.replicate 44 0
    let u := withRegs [(Reg.HAT_WARDEN, 0)] member
    (mgmt 0x20 0x106 0x3FFFF 0 0 b).ok = true ∧ bits (fieldLE b 0xC 4) 25 16 = u.fld Reg.HAT_GROUP_CFG 25 16 ∧
      (fieldLE b 0x10 4).testBit 31 = true ∧ u.bit Reg.HAT_WARDEN 31 = false ∧ u.Receives 2 0x20 (mgmt 0x20 0x106 0x3FFFF 0 0 b) := by
  decide +kernel
theorem witness_neighbour :
    let n : Neighbour := ⟨7, 0, 0x10000, 0, 3, 0⟩
    let u := member.setHatPort 2 { HatPort.new with nbr := some n, eventDue := true }
    (u.hatPort 2).nbr = some n ∧ (u.hatPort 2).eventDue = true ∧ bits n.group 25 16 = 1 ∧ n.fid.testBit 31 = false ∧
      (0x80000106 : Nat).testBit 31 = true ∧ bits 0x80000106 17 8 = 1 ∧ u.fidTwin 2 { n with fid := 0x80000106 } = false ∧
      u.fidTwin 2 { n with fid := 0x80000105 } = true := by decide +kernel
theorem witness_warden :
    bits 0x101 17 8 = member.fld Reg.HAT_GROUP_CFG 25 16 ∧ bits 0x201 17 8 ≠ member.fld Reg.HAT_GROUP_CFG 25 16 ∧
      member.fld Reg.HAT_GROUP_CFG 7 0 = 3 ∧ awake.fld Reg.HAT_GROUP_CFG 7 0 = 0 ∧ member.ownFid = some 0x105 ∧
      bits 0x105 17 8 = member.fld Reg.HAT_GROUP_CFG 25 16 ∧ (withRegs [(Reg.HAT_FID, 0)] member).ownFid = none ∧
      (withRegs [(Reg.HAT_FID, 0)] member).fld Reg.HAT_GROUP_CFG 7 0 = 3 := by decide +kernel
/-- A node no neighbour of which comes before it, one with such a neighbour, and one with no candidate at all. -/
theorem witness_election :
    let n : Neighbour := ⟨0, 0, 0x10009, 0, 3, 0⟩
    let u := member.setHatPort 2 { HatPort.new with nbr := some n }
    member.mayLead = true ∧ u.mayLead = false ∧ (u.hatPort 2).nbr = some n ∧ u.inPair = false ∧ bits n.group 25 16 = u.fld Reg.HAT_GROUP_CFG 25 16 ∧
      bits n.group 7 0 = 9 ∧ awake.fld Reg.HAT_GROUP_CFG 7 0 = 0 ∧ awake.groupNbrs = [] := by decide +kernel
/-- The same node as the BACK of a pair. -/
theorem witness_back_membership :
    let u := withRegs [(Reg.GLB_PAIR_CTL, 2), (Reg.STY_DEV_MODE, BitVec.ofNat 32 (Mode.code .diptych))] member
    let k := mgmt 0x21 0x101 0x105 0 4 []
    member.role ≠ some true ∧ u.role = some true ∧ u.fld Reg.HAT_GROUP_CFG 7 0 = 3 ∧ u.ownFid = some k.dst ∧
      u.Receives 2 0x21 k := by decide +kernel
theorem witness_management :
    let rd := mgmt 0x21 0x101 0x105 0 4 []
    let wr := mgmt 0x22 0x101 0x105 0 4 (natLE 4 0x80000105)
    rd.ok = true ∧ wr.ok = true ∧ member.Receives 2 0x21 rd ∧ member.Receives 2 0x22 wr ∧ packetBad rd = false ∧ packetBad wr = false ∧
      member.ownFid = some rd.dst ∧ rd.aux.testBit 3 = false ∧ member.fromWarden 2 rd = true ∧ mgmtOk rd = true ∧ mgmtOk wr = true ∧
      member.mgmtMay 2 wr 4 0x80000105 = true ∧ member.mgmtMay 2 wr 8 0 = false ∧ mgmtOk (mgmt 0x21 0x101 0x105 0 2 []) = false ∧
      member.fromWarden 2 (mgmt 0x21 0x102 0x105 0 4 []) = false ∧ member.fromManager (mgmt 0x21 0x102 0x105 0 4 []) = false ∧
      (mgmt 0x21 0x101 0x105 8 4 []).aux.testBit 3 = true := by decide +kernel
theorem witness_mgmt_rsp :
    let k := mgmt 0x23 0x106 0x101 0 0 []
    let k : Packet := { k with len := 0 }
    let u : State := { member with hat := { member.hat with proxies := [⟨2, 9, 0x101⟩] } }
    k.ok = true ∧ member.Receives 2 0x23 k ∧ packetBad k = false ∧ u.hat.proxies.find? (fun x => x.port = 2 && x.tag = k.tag) = some ⟨2, 9, 0x101⟩ ∧
      member.hat.proxies = [] ∧ member.ownFid ≠ some k.dst ∧ k.dst ≠ 0x3FFFF := by decide +kernel
theorem witness_route_swap :
    (withRegs [(Reg.GLB_PAIR_CTL, 1), (Reg.STY_DEV_MODE, BitVec.ofNat 32 (Mode.code .diptych))] awake).role = some false ∧ awake.role = none ∧
      awake.Reaches 0x140 Reg.HAT_ROUTE_CTL awake ∧ awake.bit Reg.HAT_ROUTE_CTL 30 = false ∧
      (withRegs [(Reg.HAT_ROUTE_CTL, 0x40000000)] awake).bit Reg.HAT_ROUTE_CTL 30 = true := by decide +kernel

/-! Witnesses of `PacketsAreForwardedServedAndAnswered`. -/

/-- FID 0x105 of group 1, port 2 UP, member 6 beyond port 2 in class 1 and member 7 beyond the DOWN port 3. -/
def routed : State :=
  let entry (r v : Nat) : List (Nat × Word) := [(r, BitVec.ofNat 32 v), (r + 4, BitVec.ofNat 32 (0xFFFFFFFF - v))]
  withRegs ([(Reg.HAT_PORT_STATE 2, 2), (Reg.HAT_CTL, 1), (Reg.HAT_FID, 0x80000105)] ++ entry (Reg.HAT_BANK_MBR_LO 0 6) 0x80010002 ++
    entry (Reg.HAT_BANK_MBR_LO 0 7) 0x80010003 ++ [(Reg.HAT_EXP_SIZE 0, 0x80000001)]) awake
/-- A packet from node 0x106. -/
def fromSix (op vc dst hops len : Nat) : Packet := { Packet.plain op vc 0x106 dst 4 len with hops := hops }
theorem witness_forward :
    (fromSix 1 0 0x106 3 64).ok = true ∧ routed.Receives 2 1 (fromSix 1 0 0x106 3 64) ∧ packetBad (fromSix 1 0 0x106 3 64) = false ∧
      routed.ownFid = some 0x105 ∧ (routed.route 0x106).1 = .port 2 ∧ packetBad (fromSix 1 1 0x106 3 64) = true ∧
      routed.portTakes 2 = true ∧ routed.portTakes 3 = false ∧ routed.portTrains 3 = false := by decide +kernel
theorem witness_routes :
    (routed.route 0x107).1 = .unreachable ∧ (awake.route 0x106).1 = .unreachable ∧
      (withRegs [(Reg.HAT_PORT_STATE 3, 1)] routed).portTrains 3 = true ∧
      ((withRegs [(Reg.HAT_PORT_STATE 3, 1)] routed).route 0x107).1 = .hold 3 := by decide +kernel
theorem witness_packet_timeout :
    let k := fromSix 1 0 0x106 3 64
    let u : State := { routed with portQueue := FMap.setD routed.portQueue 2 [k] }
    k ∈ FMap.getD u.portQueue 2 ∧ u.portState 2 ≠ 3 ∧ k ∉ FMap.getD routed.portQueue 2 := by decide +kernel
theorem witness_own_packets :
    (∀ e ∈ [(1, 0), (3, 0), (5, 3), (6, 3), (0x10, 1), (0x11, 1), (0x12, 1)],
      packetBad (fromSix e.1 e.2 0x105 3 0) = false ∧ routed.Receives 2 e.1 (fromSix e.1 e.2 0x105 3 0) ∧
        (e.1 = 1 ∨ (fromSix e.1 e.2 0x105 3 0).ok = true)) ∧
      (fromSix 1 0 0x105 3 64).ok = true ∧ routed.role = none ∧ routed.localTile 0 = some 0 ∧
      (routed.sourceClass (fromSix 1 0 0x105 3 64)).1 = some 1 ∧ (routed.sourceClass { fromSix 1 0 0x105 3 64 with src := 0x109 }).1 = none ∧
      routed.bit (Reg.HAT_EXP_SIZE 0) 31 = true ∧ routed.bit (Reg.HAT_EXP_SIZE 1) 31 = false ∧ routed.txOf 4 = none := by decide +kernel
theorem witness_ingress :
    (match ((opened 9 routed).ingress (fromSix 1 0 0x105 3 64) Rights.read).1 with
      | .ok (dpa, m) => dpa = 0 && m = 0x201
      | .error _ => false) = true := by decide +kernel
/-- Landing queue 0 on, its context of four entries at HBM address 0x1000, every master admitted to HBM. -/
def landed : State :=
  let comp (n v : Nat) : List Byte := natLE n v ++ natLE n (256 ^ n - 1 - v)
  let c := comp 8 0x20000 ++ comp 8 0 ++ comp 4 3 ++ comp 4 0 ++ List.replicate 16 0
  ((withRegs [(Reg.HAT_LQ_CTL 0, 1), (Reg.HAT_LQ_CTX_LO 0, 0x1000)] (opened 0 routed)).putBytes 0x1000 c)
theorem witness_landing :
    landed.bit (Reg.HAT_LQ_CTL 0) 0 = true ∧ landed.bit (Reg.HAT_LQ_STATUS 0) 31 = false ∧ routed.bit (Reg.HAT_LQ_CTL 0) 0 = false ∧
      ({ routed with txs := [⟨4, 0, 2, .access⟩] } : State).txOf 4 = some ⟨4, 0, 2, .access⟩ := by decide +kernel
theorem witness_landing_delivers :
    (landed.landing (fromSix 4 0 0x105 3 0) 0).1 = St.ok := by decide +kernel

/-! Witnesses of `ApertureRequestsJobsTimeoutsAndLandingQueues`. -/

/-- FID 0x105, port 2 UP, member 6 beyond it, aperture entry 0 for window 3 of member 6, every master, reads and writes. -/
def apertured (acl : Nat) : State :=
  let entry (r v : Nat) : List (Nat × Word) := [(r, BitVec.ofNat 32 v), (r + 4, BitVec.ofNat 32 (0xFFFFFFFF - v))]
  withRegs ([(Reg.HAT_PORT_STATE 2, 2), (Reg.HAT_CTL, 1), (Reg.HAT_FID, 0x80000105)] ++ entry (Reg.HAT_BANK_MBR_LO 0 6) 0x80010002 ++
    entry (Reg.HAT_RAP_TGT_LO 0) 0x800C0106 ++ entry (Reg.HAT_RAP_ACL_LO 0) acl) awake
def farRead (m : Nat) : Request := ⟨m, 0x800000001000, 64, .read, [], false⟩
theorem witness_aperture :
    let s := apertured 0x3FFF000
    (farRead 0x140).ok = true ∧ s.region 0x800000001000 64 = .remote 0 0x1000 ∧ s.wayHolds (.remote 0 0x1000) 0x140 64 = false ∧
      s.domainGate (.remote 0 0x1000) 0x140 0x800000001000 = none ∧ s.farBusy (farRead 0x140) = false ∧ s.far = [] ∧
      s.apertureCheck 0 0x140 true false = (St.ok, 0x106, 3) ∧ s.freeTag = some 0 ∧ (s.route 0x106).1 = .port 2 ∧
      (apertured 0x2FFF000).apertureCheck 0 0x140 true false = (St.accessDenied, 0, 0) ∧
      awake.apertureCheck 0 0x140 true false = (St.complementMismatch, 0, 0) := by decide +kernel
/-- A Hatch job of ring 0, an OP with ORDER or not, 64 bytes to member 6. -/
def sending (op len order : Nat) : State :=
  let e := (entryOf 0 [(4, 4, op + 16 * order), (8, 4, 0x106), (0x10, 8, 0x10000), (0x30, 4, len)]).set 2 0
  let e := e.set 4 (BitVec.ofNat 8 (op + 16 * order))
  { opened 0 (apertured 0x3FFF000) with jobs := [⟨ringKey ⟨.hat, 0⟩, 0, 0, e, 0, .start, none, [], none⟩] }
theorem witness_hatch_jobs :
    (∀ x ∈ [(1, 64), (2, 64), (3, 64), (4, 0)],
      ((sending x.1 x.2 1).hatJobOf (ringKey ⟨.hat, 0⟩) 0).map (fun j => (hatOp j.entry, hatOrder j.entry, hatFieldsOk j.entry, hatLen j.entry)) =
        some (x.1, true, true, x.2)) ∧
      ((sending 1 0 0).hatJobOf (ringKey ⟨.hat, 0⟩) 0).map (fun j => (hatOrder j.entry, hatFieldsOk j.entry)) = some (false, false) ∧
      (sending 1 64 0).freeTag = some 0 ∧
      (let d : LateData := ⟨ringKey ⟨.hat, 0⟩, 0, 0x10000, [1], false⟩
        let u : State := { sending 1 64 0 with hat := { (sending 1 64 0).hat with late := [d] } }
        u.hat.late.filter (fun d => d.ring = ringKey ⟨.hat, 0⟩ && d.tag = 0) = [d] ∧ (u.hatJobOf (ringKey ⟨.hat, 0⟩) 0).isSome = true) := by
  decide +kernel
theorem witness_tx_timeout :
    let x : Tx := ⟨4, 0, 2, .access⟩
    let s : State := { apertured 0 with txs := [x] }
    s.txOf 4 = some x ∧ s.portState 2 = 2 ∧ s.txOf 5 = none ∧ ({ s with txs := [⟨4, 0, 16, .access⟩] } : State).txOf 4 = some ⟨4, 0, 16, .access⟩ := by
  decide +kernel
theorem witness_landing_registers :
    let s : State := { withRegs [(Reg.HAT_LQ_STATUS 0, 3)] awake with hat := { awake.hat with lqDepth := [(0, 4)] } }
    awake.Reaches 0x140 (Reg.HAT_LQ_CTL 0) awake ∧ s.Reaches 0x140 (Reg.HAT_LQ_HEAD 0) s ∧ FMap.getD s.hat.lqDepth 0 = 4 ∧
      s.fld (Reg.HAT_LQ_STATUS 0) 15 0 = 3 ∧ s.fld (Reg.HAT_LQ_HEAD 0) 15 0 = 0 ∧ FMap.getD awake.hat.lqDepth 0 = 0 := by decide +kernel

/-! Witnesses of `PairsFormStartAndLoseAHalf`. -/

/-- A FRONT's record of a BACK with serial 9, COMMIT written, from port `p`. -/
def backRec (p : Nat) : PairRec := ⟨9, awake.rd64 Reg.GLB_IDENT_LO, 16 + p, 2, 3, 0, 0⟩
/-- Bring-up, FRONT, a COMMIT running, both replies held. -/
def committing : State :=
  let s := paired 2 1 2
  { s with hat := { s.hat with commitAt := some 0, replies := [(6, some (backRec 6)), (7, some (backRec 7))] } }
theorem witness_pair_control :
    (paired 2 1 2).Reaches 0x140 Reg.GLB_PAIR_CTL (paired 2 1 2) ∧ (paired 2 1 2).mode = .bringUp ∧ (paired 2 1 2).bringUpAdmits 0x140 = true ∧
      (paired 2 1 2).bit Reg.GLB_PAIR_STATUS 25 = false ∧ (paired 3 1 2).bringUpAdmits 0x140 = false ∧
      (paired 3 1 2).Reaches 0x140 Reg.GLB_PAIR_CTL (paired 3 1 2) ∧
      (withRegs [(Reg.GLB_PAIR_STATUS, 0x2000000)] (paired 2 1 2)).bit Reg.GLB_PAIR_STATUS 25 = true ∧
      (paired 2 1 2).hingeUp 6 = true ∧ (paired 2 1 0).hingeUp 6 = false := by decide +kernel
theorem witness_commit :
    committing.hat.commitAt = some 0 ∧ committing.reply 6 = some (backRec 6) ∧ committing.reply 7 = some (backRec 7) ∧
      committing.identOk (backRec 6) = true ∧ committing.pairRole = 1 ∧ peerCommits (backRec 6) = true ∧ committing.storeFailed = false ∧
      awake.hat.commitAt = none := by decide +kernel
theorem witness_hinge_messages :
    let q : Packet := { Packet.plain 0x25 2 0x3FFFF 0x3FFFF 1 64 with hops := 1, payload := List.replicate 64 0 }
    let r : Packet := { q with op := 0x26 }
    q.ok = true ∧ r.ok = true ∧ packetBad q = false ∧ packetBad r = false ∧ committing.Receives 6 0x25 q ∧ committing.Receives 6 0x26 r ∧
      (paired 2 0 2).pairRole = 0 ∧ (paired 2 1 2).reply 6 = none ∧ (paired 2 0 2).Receives 6 0x25 q := by decide +kernel
/-- Dormant after a good print, with a pair configuration whose peer is serial 9 and generation 3. -/
def formingPair : State :=
  let s := paired 0 1 2
  { s with
    boot := { s.boot with printed := some true }, plate := { s.plate with record := { s.plate.record with role := 1, peer := 9, pairGen := 3 } }
    hat := { s.hat with replies := [(6, some (backRec 6)), (7, some (backRec 7))] } }
theorem witness_form :
    formingPair.forming = true ∧ formingPair.reply 6 = some (backRec 6) ∧ formingPair.formOk (backRec 6) (backRec 7) = true ∧
      formingPair.formOk (backRec 6) (backRec 6) = false ∧ awake.forming = false ∧
      ({ formingPair with hat := { formingPair.hat with replies := [] } } : State).reply 6 = none := by decide +kernel
theorem witness_half_lost :
    (paired 5 1 5).inPair = true ∧ (paired 5 1 5).pltState ≠ 2 ∧ (paired 5 1 5).role = some false ∧ (paired 5 2 5).role = some true ∧ (paired 5 2 5).pairRole = 2 ∧
      awake.inPair = false ∧ awake.mode ≠ .vigil ∧ (paired 1 1 5).mode = .vigil ∧ (paired 3 1 2).inPair = false ∧ (paired 3 1 2).mode ≠ .dormant ∧ ({ paired 3 1 2 with functions := 0 } : State).functions = 0 ∧
      awake.functions ≠ 0 ∧ awake.hat.freeze = none := by decide +kernel

/-! Witnesses of `RegionsLoadChunksCopyAndEtchesRun`. -/

/-- One loaded region of chunk 1, Plate in STATE `st` with EN and BG_EN, chunk 1 dirty or not. -/
def etching (st : Nat) (dirty : Bool) : State :=
  let s := withRegs [(Reg.PLT_STATUS, BitVec.ofNat 32 (2 ^ 29 * st)), (Reg.PLT_CTL, 3), (Reg.STY_DEV_MODE, 3)] awake
  { s with plate := { s.plate with
      regions := [⟨1, 1, false⟩], dirty := if dirty then [(16, true)] else [], etch := some ⟨5, if dirty then [1] else [], 0⟩ } }
/-- A supply that has failed. -/
def failedSupply (s : State) : State := withRegs [(Reg.STY_SUPPLY, 0x80000000)] s
theorem witness_region_load :
    awake.Reaches 0x140 Reg.PLT_REGION_CMD awake ∧ bits (0x80010000 : Word).toNat 24 16 = 1 ∧ bits (0x80000000 : Word).toNat 24 16 = 0 ∧
      (0x80010000 : Word).toNat.testBit 31 = true ∧ awake.regionsOk [(0x100000, 1, 0x80000000)] = true ∧
      awake.regionsOk [(0x100000, 0, 0x80000000)] = false := by decide +kernel
theorem witness_region_table :
    let comp (n v : Nat) : List Byte := natLE n v ++ natLE n (256 ^ n - 1 - v)
    let e := comp 8 0x100000 ++ comp 4 1 ++ comp 4 0x80000000
    e.length = 32 ∧ (pair64At e 0 && pair32At e 0x10 && pair32At e 0x18) = true ∧
      (fieldLE e 0 8, fieldLE e 0x10 4, fieldLE e 0x18 4) = (0x100000, 1, 0x80000000) := by decide +kernel
theorem witness_copy :
    (etching 1 true).mayCopy 1 = true ∧ (etching 1 true).plate.locFree 7 = true ∧ (etching 1 false).mayCopy 1 = false ∧
      (etching 1 true).storeFailed = false ∧ (etching 1 true).pltState = 1 ∧ (etching 2 true).mayCopy 1 = true ∧
      (etching 4 true).mayCopy 1 = true ∧ (etching 0 true).mayCopy 1 = false := by decide +kernel
theorem witness_power_fail_etch :
    let s := failedSupply (etching 1 true)
    s.bit Reg.STY_SUPPLY 31 = true ∧ s.mode ≠ .dormant ∧ s.bit Reg.PLT_CTL 0 = true ∧ s.pltState = 1 ∧ s.boot.live = none ∧ s.mode ≠ .vigil ∧
      s.startEtch.pltState = 2 := by decide +kernel
/-- A slot that is valid, and a header copy whose pairs are intact beside one that reads as zeros. -/
theorem witness_judge :
    let h : List Byte := natLE 8 0xFFFFFFFF00000000 ++ natLE 8 0xFFFFFFFF00000000 ++ List.replicate 8 0 ++ List.replicate 8 255 ++
      List.replicate 8 0 ++ List.replicate 8 255 ++ natLE 8 0xFFFFFFFF00000000 ++ natLE 8 0xFFFFFFFF00000000 ++ natLE 8 0xFFFFFFFF00000000
    let s : State := { awake with plate := { awake.plate with slotA := some ⟨1, 5, 98304, 0, [], [], ⟨[], [], [], [], []⟩⟩ } }
    headerPairsOk h = true ∧ headerPairsOk (List.replicate 128 0) = false ∧ s.plate.slot false ≠ none ∧ s.plate.slot true = none := by
  decide +kernel
theorem witness_etch_go :
    (∀ st < 5, (etching st true).Reaches 0x140 Reg.PLT_ETCH_GO (etching st true) ∧ (etching st true).pltState = st) ∧
      (etching 2 true).plate.go = false ∧ (etching 2 true).plate.dirtyChunks = [1] ∧ (etching 2 false).plate.dirtyChunks = [] := by
  decide +kernel
theorem witness_etch_complete :
    (etching 4 false).plate.etch = some ⟨5, [], 0⟩ ∧ (etching 4 false).pltState = 4 ∧ (etching 4 false).storeFailed = false ∧
      (withRegs [(Reg.PLT_STATUS, 0x90000000)] (etching 4 false)).storeFailed = true := by decide +kernel

/-! Witnesses of `PrintsRestoreImagesAndPlateJobsCheckCopies`. -/

/-- Firmware of slot 1 runs, the print is due, and slot A holds an image of no chunks or of chunk 1. -/
def printing (cs : FMap (Option ChunkCopy)) (some' : Bool) : State :=
  let s := withRegs [(Reg.GLB_BOOT_STATUS, 0x24000000)] awake
  { s with boot := { s.boot with slot := 1 }, plate := { s.plate with
      slotA := if some' then some ⟨1, 5, 98304, 0, cs, [⟨1, 1, true⟩], ⟨[], [], [], [], []⟩⟩ else none } }
def lostCopy : ChunkCopy := ⟨7, false, 1048576, none, []⟩
theorem witness_print :
    (printing [] true).printDue = true ∧ (printing [] true).judgeSlots [] = (printing [] true).showSlots ∧
      ((printing [] true).judgeSlots [(false, [])]).plate.newest = none ∧ (printing [] true).showSlots.plate.newest = some false ∧
      ((printing [] true).showSlots.printSlot [] false).isSome = true ∧ (printing [] true).showSlots.storeFailed = false ∧
      (printing [] false).showSlots.plate.newest = none ∧ awake.printDue = false ∧
      ((printing [(1, some lostCopy)] true).showSlots.printSlot [7] false).isNone = true ∧
      ((printing [(1, some lostCopy)] true).showSlots.printSlot [7] true).isNone = true ∧
      (awake.plate.copyBytes [7] lostCopy).isNone = true ∧
      (withRegs [(Reg.PLT_STATUS, 0x10000000)] (printing [] true)).showSlots.storeFailed = true := by decide +kernel
theorem witness_cap_words : leNat ((natLE 8 9).take 8) = 9 ∧ (5 : Nat) < 9 := by decide +kernel
/-- A plate job of an OP over 256 bytes at 1 MiB. -/
def plating (op : Nat) : State :=
  let e := (entryOf 0 [(4, 4, op), (8, 8, 0x100000), (0x18, 4, 256)]).set 2 0
  let s := withRegs [(Reg.PLT_DEV_STATUS 0, 0x40000000)] (opened 0 awake)
  { s with jobs := [⟨ringKey ⟨.plt, 0⟩, 0, 0, e.set 4 (BitVec.ofNat 8 op), 0, .start, none, [], none⟩] }
theorem witness_plate_jobs :
    ((plating 1).pltJob 0 0 1).map (fun j => (pltLen j.entry, pltDpa j.entry)) = some (256, 0x100000) ∧
      ((plating 2).pltJob 0 0 2).isSome = true ∧ ((plating 2).pltJob 0 0 1).isNone = true ∧
      (plating 1).fld (Reg.PLT_DEV_STATUS 0) 31 30 = 1 ∧ awake.fld (Reg.PLT_DEV_STATUS 0) 31 30 ≠ 1 ∧
      (plating 1).plate.retried.testBit 0 = false ∧ (setBits 0 0 0 1).testBit 0 = true := by decide +kernel
theorem witness_plate_read : ((plating 1).readMem Mid.plate ((plating 1).ownDpa 0x100000) 256).1.status = St.ok := by decide +kernel

/-! Witnesses of `BankIsTestedAndPlateControlActs`. -/

/-- A PLATE_CONTROL command of an action holds tag 1, in a mode, with a test running or not. -/
def plateControl (act md bank : Nat) : State :=
  inFlight (passed (entryOf 0x0B [(4, 1, act)])) (withRegs [(Reg.STY_DEV_MODE, BitVec.ofNat 32 md), (Reg.PLT_STATUS, 0x20000000),
    (Reg.PLT_BANK_STATUS, BitVec.ofNat 32 bank)] { awake with steady := { awake.steady with good := true } })
theorem witness_bank :
    (plateControl 2 3 0).domState 11 = 0 ∧ (plateControl 2 3 0).steady.good = true ∧ (plateControl 2 3 0).bit Reg.PLT_BANK_STATUS 3 = false ∧
      (plateControl 2 3 8).bit Reg.PLT_BANK_STATUS 3 = true ∧ awake.steady.good = false := by decide +kernel
theorem witness_bank_limit :
    (withRegs [(Reg.PLT_RESIDENT, 0x1FFFF)] awake).resident = 131071 ∧ awake.resident = 0 ∧ awake.storeFailed = false ∧
      (awake.setFld Reg.PLT_LIMIT 16 0 0).bit Reg.PLT_STATUS 27 = false ∧ awake.hbmLimit / 2 ^ 20 < 131071 := by decide +kernel
theorem witness_plate_control :
    (∀ a ∈ [1, 2, 3, 4], ((plateControl a 3 0).plateCmd 1 a).isSome = true) ∧ ((plateControl 1 3 0).plateCmd 1 2).isNone = true ∧
      (plateControl 1 3 0).pltState = 1 ∧ awake.pltState ≠ 1 ∧ (plateControl 4 2 0).mode = .bringUp ∧ (plateControl 4 3 0).mode ≠ .bringUp ∧
      (plateControl 4 2 0).storeFailed = false ∧ (plateControl 3 3 0).plate.slotA = none := by decide +kernel

/-! Witnesses of `PowerDomainsClocksAndThrottling`. -/

theorem witness_power_down :
    let u := awake.plainWrite 0x140 (Reg.STY_DOM_CTL 9) (awake.cmdWord (Reg.STY_DOM_CTL 9) 1 31 31 1)
    u.domState 9 = 0 ∧ u.fld Reg.PLT_STATUS 31 29 = 0 ∧ u.modeLetsOff 9 = true ∧ u.domainBusy 9 = none ∧ u.modeLetsOff 3 = false ∧
      State.reset.domState 9 = 2 ∧ ruled.domainBusy 9 = some Tgt.gauge ∧ (withRegs [(Reg.PLT_STATUS, 0x40000000)] awake).fld Reg.PLT_STATUS 31 29 = 2 ∧
      awake.mode ≠ .vigil ∧ (withRegs [(Reg.STY_DEV_MODE, 2)] awake).mode = .bringUp := by decide +kernel
theorem witness_drain :
    (withRegs [(Reg.STY_DOM_STATUS 9, 0x40000000)] awake).domState 9 = 1 ∧ awake.domState 9 ≠ 1 ∧ awake.plate.shut = false ∧
      (withRegs [(Reg.STY_DOM_STATUS 9, 0xC0000000)] awake).domState 9 = 3 := by decide +kernel
theorem witness_power_up :
    State.reset.domState 9 = 2 ∧ State.reset.Reaches 0x140 (Reg.STY_DOM_CTL 9) State.reset ∧
      (withRegs [(Reg.STY_DOM_CTL 9, 1)] State.reset).bit (Reg.STY_DOM_CTL 9) 0 = true ∧ State.reset.bit (Reg.STY_DOM_CTL 9) 0 = false := by
  decide +kernel
theorem witness_held_request :
    let r : Request := ⟨0x140, 0x1000, 8, .read, [], false⟩
    r.ok = true ∧ State.reset.domState (State.reset.domainOf (State.reset.region 0x1000 8)) ≠ 0 ∧
      awake.domState (awake.domainOf (awake.region 0x1000 8)) = 0 := by decide +kernel
theorem witness_clocks :
    awake.localTile 3 = some 3 ∧ awake.bit (Reg.TIL_CTL 3) 0 = false ∧ awake.unperformed 3 = false ∧ (awake.core 3).chWait = none ∧ awake.noc = [] ∧
      (tileRuns Core.reset).bit (Reg.TIL_CTL 0) 0 = true ∧
      (let g : State := { awake with steady := { awake.steady with gated := 2 ^ 64 - 1 } }
       (∀ n ∈ quadrantTiles 1, g.steady.gated.testBit n = true) ∧ g.bit (Reg.STY_QPLL 1) 3 = false ∧ g.domState 5 = 0) ∧
      (withRegs [(Reg.STY_QPLL 1, 0x40000000)] awake).bit (Reg.STY_QPLL 1) 30 = true ∧ awake.bit (Reg.STY_QPLL 1) 30 = false := by decide +kernel
theorem witness_throttle :
    let hot := withRegs [(Reg.STY_TSENS 0, 110)] awake
    let cool := withRegs [(Reg.STY_THERM_STATUS, 2)] awake
    hot.fld Reg.STY_THERM_CTL 7 0 ≤ hot.quadrantTemp 0 ∧ hot.imposed 0 = 0 ∧ hot.fld (Reg.STY_QPLL 0) 2 0 = 1 ∧
      cool.quadrantTemp 0 + 5 < cool.fld Reg.STY_THERM_CTL 7 0 ∧ cool.imposed 0 = 2 ∧ cool.fld (Reg.STY_QPLL 0) 2 0 = 1 ∧
      cool.fld Reg.STY_POWER 15 0 ≤ cool.powerLimit ∧ awake.imposed 0 = 0 := by decide +kernel

/-! Witnesses of `VigilWakeSourcesAndSupplyFailure`. -/

/-- The module in Solo and Vigil. -/
def solo : State := (withRegs [(Reg.PLT_STATUS, 0x20000000)] awake).setMode .solo
def dozing : State := { awake.setMode .vigil with steady := { awake.steady with waking := true } }
def asleep : State := withRegs [(Reg.HAT_PORT_STATE 2, 3)] awake
def goodWord : Word := 0x7E815555
theorem witness_vigil_asked :
    solo.vigilBlock = none ∧ awake.vigilBlock = some Tgt.steady ∧ (tileRuns Core.reset).bit (Reg.TIL_CTL 0) 0 = true ∧
      solo.Reaches 0x140 Reg.STY_VIGIL_CTL solo ∧ solo.bit Reg.STY_VIGIL_CTL 30 = false ∧
      (withRegs [(Reg.STY_VIGIL_CTL, 0x40000000)] solo).bit Reg.STY_VIGIL_CTL 30 = true := by decide +kernel
theorem witness_vigil_entered :
    let u := withRegs [(Reg.STY_VIGIL_CTL, 0x40000000)] solo
    let cut (s : State) : Bool := (s.vigilCut [] s.vigilCuts).1 == none
    u.bit Reg.STY_VIGIL_CTL 30 = true ∧ u.role = none ∧ cut (withRegs ((List.range 16).map (fun d => (Reg.STY_DOM_STATUS (d + 1), 0x80000000))) u) = true ∧
      cut (withRegs [(Reg.STY_DOM_STATUS 4, 0)] (withRegs ((List.range 16).map (fun d => (Reg.STY_DOM_STATUS (d + 1), 0x80000000))) (withRegs [(Reg.TIL_STATUS 0, 0)] u))) = false := by
  decide +kernel
theorem witness_vigil_left :
    dozing.mode = .vigil ∧ dozing.steady.waking = true ∧ dozing.pltState ≠ 2 ∧ awake.steady.waking = false ∧ dozing.vigilBack ≠ .diptych := by decide +kernel
theorem witness_wake_source :
    (withRegs [(Reg.STY_WAKE_EN, 0x86)] dozing).bit Reg.STY_WAKE_EN 2 = true ∧ (withRegs [(Reg.STY_WAKE_EN, 0x80)] State.reset).bit Reg.STY_WAKE_EN 2 = false ∧
      State.reset.mayBoot = false ∧
      ({ State.reset with steady := { State.reset.steady with good := true } } : State).mayBoot = true ∧ awake.domState 1 = 0 := by
  decide +kernel
theorem witness_wake_words :
    wakeReason goodWord = some 0x81 ∧ acceptReason [goodWord, goodWord, goodWord] = some 0x81 ∧
      acceptReason [0xFF005555, 0xFF005555, 0xFF005555] = some 0 ∧ acceptReason [0xFB045555, 0xFB045555, 0xFB045555] = some 4 ∧
      wakeReason 0x7E805555 = none ∧ asleep.portState 2 = 3 ∧ asleep.portState 1 = 0 ∧
      asleep.Reaches 0x140 Reg.STY_WAKE_SEND asleep := by decide +kernel
theorem witness_alarm_supply :
    awake.steady.alarmed = false ∧ awake.bit Reg.STY_SUPPLY 31 = false ∧ awake.bit Reg.PLT_CTL 0 = false ∧
      (withRegs [(Reg.PLT_CTL, 1)] solo).bit Reg.PLT_CTL 0 = true ∧ solo.mode ≠ .dormant := by decide +kernel

/-! Witnesses of `ResetsBootWatchdogAndModes`. -/

/-- The die has been reset and the boot is due. -/
def bootDue : State := { State.reset with boot := { State.reset.boot with due := true } }
/-- A runtime of slot 1 runs after a good print. -/
def firmware : State :=
  { withRegs [(Reg.GLB_BOOT_STATUS, 0x24000000)] awake with boot := { awake.boot with slot := 1, printed := some true } }
theorem witness_resets :
    awake.Reaches 0x140 Reg.GLB_RESET awake ∧ awake.pltState = 0 ∧ (withRegs [(Reg.PLT_STATUS, 0x20000000)] awake).pltState = 1 ∧
      (withRegs [(Reg.STY_DEV_MODE, 2)] awake).mode ≠ .dormant ∧ awake.mode = .dormant ∧
      (withRegs [(Reg.PLT_STATUS, 0x80000000)] awake).pltState = 4 ∧ (withRegs [(Reg.PLT_STATUS, 0x40000000)] awake).pltState = 2 ∧
      State.reset.steady.good = false ∧ State.reset.steady.aux = false ∧ State.reset.mode = .dormant := by decide +kernel
theorem witness_boot :
    bootDue.boot.due = true ∧ State.reset.boot.due = false ∧
      (withRegs [(Reg.GLB_WDOG_CTL, 0x80001000)] awake).bit Reg.GLB_WDOG_CTL 31 = true ∧ awake.bit Reg.GLB_WDOG_CTL 31 = false ∧
      awake.mode ≠ .vigil ∧ awake.Reaches 0x140 Reg.GLB_WDOG_KICK awake := by decide +kernel
theorem witness_slot_refused : awake.fwCheck [] 1 = 1 ∧ awake.fwCheck [] 1 ≠ 0 := by decide +kernel
theorem witness_boot_ok :
    let b : State := { awake with boot := { awake.boot with waiting := 1, slot := 1 } }
    b.Reaches 0x140 Reg.GLB_BOOT_OK b ∧ (b.plainWrite 0x140 Reg.GLB_BOOT_OK 1).boot.waiting = 1 ∧
      (b.plainWrite 0x140 Reg.GLB_BOOT_OK 1).boot.slot = 1 ∧ awake.boot.waiting = 0 := by decide +kernel
theorem witness_mode_enter :
    firmware.Reaches 0x140 Reg.GLB_MODE_CTL firmware ∧ firmware.mode = .dormant ∧ firmware.fld Reg.GLB_BOOT_STATUS 31 28 = 2 ∧
      firmware.bit Reg.STY_SUPPLY 31 = false ∧ firmware.namedMode = some .solo ∧ Mode.solo.code ≠ 2 ∧ firmware.boot.slot = 1 ∧
      firmware.boot.hold = false ∧ firmware.boot.printed = some true ∧ firmware.plate.record.role = 0 ∧
      awake.fld Reg.GLB_BOOT_STATUS 31 28 = 0 := by decide +kernel
theorem witness_recovery :
    let r := withRegs [(Reg.GLB_BOOT_STATUS, 0x30000000)] awake
    r.Reaches 0x000 Reg.GLB_BOOT_CTL r ∧ r.fld Reg.GLB_BOOT_STATUS 31 28 = 3 ∧ awake.fld Reg.GLB_BOOT_STATUS 31 28 ≠ 3 ∧
      (let u := r.plainWrite 0 Reg.GLB_BOOT_CTL 0x80002000
       u.anyPoison bootWindow 8192 = false ∧ u.fwCheck [] 3 = 1) := by decide +kernel

/-! Witnesses of `HostLinkDoorbellsAndAdminPairs`. -/

/-- The queue engine is on and pair 0 is active, with a completion queue of 4 entries and one entry posted. -/
def pairOn : State :=
  State.setPair (withRegs [(Reg.QE_CTL, 1)] linked) 0
    (some { Pair.fresh (qcBytes 0x10000 0x20000 7 3 (2 ^ 20 * 63 + 2 ^ 19 + 2 ^ 16 * 4) 0) 1000 with ctail := 1 })
theorem witness_host_link :
    linked.steady.perst = false ∧ awake.steady.perst = true ∧ linked.functions = 128 ∧ linked.hostUp 3 = true ∧ awake.hostUp 3 = false := by
  decide +kernel
theorem witness_doorbells :
    pairOn.bit Reg.QE_CTL 0 = true ∧ linked.bit Reg.QE_CTL 0 = false ∧ (pairOn.pair 0).isSome = true ∧ pairOn.pair 5 = none ∧
      pairOn.pairFn 0 = 0 ∧ (pairOn.pair 0).any (fun p => p.state = 1 && qcCqDepth p.ctx = 4 && p.ctail = 1 && p.chead = 0) = true ∧
      pairOn.domainGate (.door 0) 0 0x20001000000 = none ∧ pairOn.domainGate (.door 8) 0 0x20001000008 = none ∧
      pairOn.inFlight 0 = 0 := by decide +kernel
theorem witness_admin_pair :
    let s := withRegs [(Reg.QE_CTL, 1), (aqReg 2 8, 0x00030007)] (opened 0 linked)
    s.Reaches 2 Reg.QE_FN_AQ_CTL s ∧ s.bit (aqReg 2 0) 0 = false ∧ s.pair 2 = none ∧ s.fld (aqReg 2 8) 15 0 = 7 ∧
      s.fld (aqReg 2 8) 31 16 = 3 ∧ (withRegs [(aqReg 2 0, 1)] s).bit (aqReg 2 0) 0 = true ∧ linked.fld (aqReg 2 8) 15 0 = 0 ∧
      (s.writeMem Mid.qe (s.ctxDpa 2) (s.aqCtx 2)).1 = St.ok := by decide +kernel

/-! Witnesses of `FetchPostClampsAndTimeouts`. -/

/-- Pair 0 is pending, its context stored. -/
def fetching : State :=
  let ctx := qcBytes 0x10000 0x20000 7 3 (2 ^ 20 * 63 + 2 ^ 19 + 2 ^ 16 * 4) 0
  let s := State.setPair (withRegs [(Reg.QE_CTL, 1)] (opened 0 linked)) 0 (some { Pair.fresh ctx 1000 with pending := true })
  (s.writeMem Mid.qe (s.ctxDpa 0) ctx).2
theorem witness_fetch :
    let s := fetching
    let p := (s.pair 0).getD (Pair.fresh [] 0)
    let s1 := { s with arbLast := FMap.setD s.arbLast 4 0 }
    let got := match s1.readCtx 0 with | (.ok b, _) => qcCqDepth b | _ => 0
    s.arbFrozen 1 = false ∧ s.bit Reg.QE_CTL 0 = true ∧ s.fetchHold = false ∧ s.cmd 9 = none ∧ 9 < s.tagCount ∧
      s.arbitrate = some (0, s1) ∧ (s.pair 0).isSome = true ∧ p.phase = true ∧ got = 4 := by decide +kernel
theorem witness_fetch_context :
    let s := State.setPair (withRegs [(Reg.QE_CTL, 1)] linked) 0 (some { Pair.fresh [] 1000 with pending := true })
    (match s.readCtx 0 with | (.error e, _) => e | _ => 0) ≠ 0 ∧ s.fetchHold = false ∧
      State.reset.bit Reg.QE_CTL 0 = false := by decide +kernel
theorem witness_arbiter :
    fetching.nextPair 4 = some 0 ∧ 0 ∈ fetching.eligible 4 ∧ linked.nextPair 4 = none ∧ (∀ c < 4, linked.eligible c = []) ∧
      qcOk (List.replicate 64 0) = false := by decide +kernel
theorem witness_entry :
    entryCause (entryOf 1 [(4, 4, 0), (8, 8, 0), (0x10, 8, 2 ^ 64 - 1), (0x18, 4, 0), (0x1C, 4, 2 ^ 32 - 1)]) = 0 ∧
      entryCause (entryOf 0x30 []) = 1 ∧ entryCause (entryOf 1 []) = 2 ∧
      fetching.opAllowed 0 0 1 = true ∧ fetching.opAllowed 0 0 0x44 = false := by decide +kernel
theorem witness_post :
    let c := { passed (entryOf 1 []) with done := some (0, 7) }
    let s := inFlight c fetching
    s.arbFrozen 2 = false ∧ s.nextSlot = some 1 ∧ s.cmd 1 = some c ∧ c.brokenRange = none ∧ c.pair = 0 ∧
      State.discards { s with collector := 1 } 0 = false ∧ s.discards 5 = true ∧ fetching.nextSlot = none := by decide +kernel
theorem witness_coalesce :
    let p := { Pair.fresh (qcBytes 0 0 7 3 (2 ^ 19) (2 ^ 24 * 5)) 1000 with unsent := 1 }
    p.unsent ≠ 0 ∧ qcCoalTime p.ctx = 5 ∧ qcIen p.ctx = true ∧ (fetching.pair 0).any (fun p => p.unsent = 0) = true ∧
      fetching.bit (msixWord 0 0 3) 0 = true := by decide +kernel
theorem witness_clamps :
    let held := { passed (entryOf 0x42 []) with stage := .waiting, clamps := [clampOf 4 true 0 9] }
    let first := { passed (entryOf 0x42 []) with order := 0, clamps := [{ clampOf 4 true 5 20 with granted := true }] }
    let s : State := { awake with cmds := [(1, some { held with order := 3 }), (2, some first)] }
    let u : State := s.regrant
    let free : State := inFlight held awake
    s.cmd 2 = some first ∧ (u.cmd 1).any (fun c => c.stage = .waiting && c.clamps.any (fun r => !r.granted)) = true ∧
      (free.regrant.cmd 1).any (fun c => c.stage = .waiting && c.clamps.all (fun r => r.granted)) = true := by decide +kernel
theorem witness_host_timeout :
    (inFlight (passed (entryOf 0x41 [])) awake).cmd 1 = some (passed (entryOf 0x41 [])) ∧ (passed (entryOf 0x41 [])).op = 0x41 ∧
      awake.cmd 1 = none ∧ FMap.getD awake.dmaReg 3 = none := by decide +kernel

/-! Witnesses of `AdminCommandsAnswer`. -/

/-- Tag 1 holds an admin command. -/
def asked (op : Nat) (fs : List (Nat × Nat × Nat)) : State := inFlight (passed (entryOf op fs)) awake
theorem witness_admin_running :
    ((asked 1 [(4, 4, 2)]).running? 1 0x01).any (fun c => bits c.flags 7 0 = 2 && c.stage = .passed) = true ∧
      ((asked 1 [(4, 4, 1)]).running? 1 0x01).any (fun c => (awake.pair (c.arg 0x20 2)).isNone) = true ∧
      ((asked 1 []).running? 1 0x01).any (fun c => bits c.flags 7 0 = 0) = true ∧
      ((asked 1 [(4, 4, 3)]).running? 1 0x01).any (fun c => bits c.flags 7 0 = 3) = true ∧
      ((asked 2 [(4, 4, 2)]).running? 1 0x02).isSome = true ∧ (awake.running? 1 0x02).isNone = true ∧ awake.boot.live = none := by
  decide +kernel
theorem witness_features :
    ((asked 3 [(4, 4, 1), (0x20, 8, 20)]).running? 1 0x03).any
        (fun c => c.flags % 65536 = 1 && c.fn = 0 && c.arg 0x28 4 = 0 && c.arg 0x20 8 = 20) = true ∧
      ((inFlight { passed (entryOf 3 [(4, 4, 4), (0x20, 8, 3)]) with fn := 3 } awake).running? 1 0x03).any (fun c => c.fn ≠ 0 && c.flags % 65536 = 4) = true ∧
      FMap.getD awake.spaces 0 = none ∧ (asked 4 [(4, 4, 1)]).featureGet 0 1 0 = some awake.retain ∧
      (asked 4 [(4, 4, 9)]).featureGet 0 9 0 = none ∧ awake.ownsIo 7 200 = false ∧ 0 + 4 ≤ 8064 := by decide +kernel
theorem witness_own_pair :
    let s := State.setPair awake 200 (some (Pair.fresh (qcBytes 0 0 7 3 0 7) 1000))
    s.ownsIo 7 200 = true ∧ (s.pair 200).isSome = true ∧ s.pairsHeld 7 = 1 ∧ FMap.getD s.quotas 7 = 0 ∧ s.pair 128 = none := by
  decide +kernel
theorem witness_create_pair :
    let s : State := inFlight { passed (entryOf 5 [(0x30, 4, 0x00030007)]) with fn := 2 } { opened 0 awake with quotas := [(2, 4)] }
    s.pairsHeld 2 < FMap.getD s.quotas 2 ∧ s.pair 128 = none ∧ (s.running? 1 0x05).isSome = true ∧
      (s.makePair 128 (qcBytes 0 0 7 3 0 2) 1000).1 = St.ok := by decide +kernel
theorem witness_firmware :
    ((asked 6 []).running? 1 0x06).any (fun c => c.stage = .passed) = true ∧
      ((asked 7 [(0x18, 4, 4)]).running? 1 0x07).any (fun c => c.len = 4) = true ∧
      ((asked 8 [(4, 4, 0x21)]).running? 1 0x08).any (fun c => bits c.flags 7 4 = 2 && c.flags % 16 = 1) = true ∧
      awake.fwCommitCheck 2 1 0 = St.invalidField ∧ awake.fwCommitCheck 2 1 5 = St.lengthMismatch ∧
      ((asked 8 [(4, 4, 0x31)]).running? 1 0x08).any (fun c => bits c.flags 7 4 = 3) = true ∧
      awake.othersInFlight 1 = false ∧ (inFlight (passed (entryOf 1 [])) awake).othersInFlight 2 = true ∧ awake.pltState ≠ 1 := by
  decide +kernel
theorem witness_abort :
    let d := { passed (entryOf 0x41 []) with pair := 200, cid := 6, order := 0 }
    let c := passed (entryOf 9 [(0x20, 2, 6), (0x22, 2, 200)])
    let s : State := State.setPair { awake with cmds := [(1, some c), (2, some d)] } 200 (some (Pair.fresh (qcBytes 0 0 7 3 0 0) 1000))
    s.running? 1 0x09 = some c ∧ c.arg 0x22 2 = 200 ∧ c.flags = 0 ∧ c.noData = true ∧ c.spare [(0x20, 4)] = true ∧
      (s.pair 200).isSome = true ∧ s.pairFn 200 = c.fn ∧ s.canAbort 2 d = true ∧ ((s.cancel 2 St.aborted).cmd 1).isSome = true := by
  decide +kernel
theorem witness_tile_service :
    ((asked 0xA [(4, 4, 1), (0x20, 1, 5)]).running? 1 0x0A).any (fun c => c.flags.testBit 0 && c.arg 0x20 1 = 5) = true ∧
      awake.mapRole ≠ some false ∧ awake.pairRetired 5 = false ∧ awake.tileHeld 5 = false ∧
      (runAt .running).tileHeld 0 = true := by decide +kernel

/-! Witnesses of `DataCommandsStagePublishAndAnswer`. -/

/-- A table of one U32 column and no rows. -/
def bare : Table := ⟨[4], 1, never, 0, 0, false, none, false, none, 0, 0, [], [], [], []⟩
def tabled (c : Cmd) : State := inFlight c { awake with tables := [(3, some bare)] }
theorem witness_load :
    let c := passed (entryOf 0x41 [(0x20, 3, 3), (0x30, 2, 1)])
    let s := tabled c
    (s.running? 1 0x41) = some c ∧ c.stage = .passed ∧ s.table 3 = some bare ∧ c.arg 0x20 3 = 3 ∧ s.table 4 = none ∧
      (awake.running? 1 0x41).isNone = true := by decide +kernel
theorem witness_columns :
    let dir := natLE 8 0 ++ natLE 4 8 ++ natLE 4 4
    let ok (e : Except Nat (List Nat × List ColData)) : Nat := match e with | .ok (f, _) => f.length | .error e => 1000 + e
    ok (awake.columnsIn false [4] 1 2 (.data dir) [.data (natLE 8 7)]) = 1 ∧ colBytes 4 2 = 8 ∧
      ok (awake.columnsIn false [5] 1 2 (.data dir) [.data (natLE 8 7)]) = 1000 + St.invalidField ∧
      ok (awake.columnsIn false [4] 1 3 (.data dir) [.data (natLE 8 7)]) = 1000 + St.lengthMismatch ∧
      ok (awake.columnsIn false [4] 1 2 (.data dir) [.denied]) = 1000 + St.accessDenied ∧
      ok (awake.columnsIn false [4] 2 2 (.data dir) []) = 1000 + St.lengthMismatch := by decide +kernel
theorem witness_patch :
    let c := passed (entryOf 0x42 [(0x20, 3, 3), (4, 4, 1)])
    let d := passed (entryOf 0x42 [(0x20, 3, 3)])
    (tabled c).running? 1 0x42 = some c ∧ c.flags.testBit 0 = true ∧ bare.drop = never ∧ d.flags.testBit 0 = false ∧ d.count = 0 ∧
      patchDeletes d bare = [] ∧
      (let e := { d with block := natLE 16 0, entry := entryOf 0x42 [(0x20, 3, 3), (0x34, 1, 1)] }
       let t := { bare with ins := [(0, 1)], del := [(0, 5)] }
       patchDeletes e t = [0] ∧ t.delOf 0 ≠ never) := by decide +kernel
theorem witness_stage :
    let c := passed (entryOf 0x42 [(0x20, 3, 3)])
    c.count = 0 ∧ awake.plateOf 3 bare = false ∧ awake.overPlate 1 = true ∧ awake.overPlate 0 = false ∧
      (awake.stageRows ⟨0, 0, 0⟩ 3 bare 0 0 []).1 = St.ok ∧
      (let g := { c with stage := .staged }
       g.stage = .staged ∧ g.done = none ∧ g.op = 0x42 ∧ (tabled g).catalogHeld = false ∧
         (withRegs [(Reg.PLT_STATUS, 0x80000000)] awake).catalogHeld = true) := by decide +kernel
theorem witness_export :
    let c := { passed (entryOf 0x43 [(0x24, 4, 4)]) with snap := some bare }
    let s := tabled c
    s.running? 1 0x43 = some c ∧ c.snap = some bare ∧
      (match s.exportRows bare 0 0 4 [] with
       | (.ok ps, u) => ps = [] && (match u.exportCols bare ps [0] with | (.ok ds, _) => ds.length = 1 | _ => false)
       | _ => false) = true := by decide +kernel
theorem witness_publish :
    let c := passed (entryOf 0x46 [(0x28, 8, 4)])
    let s := withRegs [(Reg.PLT_BANK_STATUS, 1)] (tabled c)
    s.running? 1 0x46 = some c ∧ c.flags.testBit 0 = false ∧ c.arg 0x28 8 = 4 ∧ s.published < 4 ∧ s.publishWaits c = false ∧
      s.writersBefore c 4 = false ∧ s.bit Reg.PLT_BANK_STATUS 0 = true ∧ s.catalogHeld = false ∧ awake.bit Reg.PLT_BANK_STATUS 0 = false ∧
      (passed (entryOf 0x46 [(4, 4, 1)])).flags.testBit 0 = true ∧ awake.tables = [] ∧ bare.create = 1 := by decide +kernel
/-- The same command on a FRONT, with and without a free transaction tag. -/
theorem witness_publish_front :
    let s := withRegs [(Reg.PLT_BANK_STATUS, 1), (Reg.GLB_PAIR_CTL, 1), (Reg.STY_DEV_MODE, BitVec.ofNat 32 (Mode.code .diptych))]
      (tabled { passed (entryOf 0x46 [(0x28, 8, 4)]) with stage := .staged })
    s.role = some false ∧ s.freeTag = some 0 ∧ (s.running? 1 0x46).isSome = true ∧
      State.freeTag { s with txs := List.replicate 4096 ⟨0, 0, 0, .access⟩ } = none ∧
      (State.closeTx { s with txs := [⟨3, 0, 16, .copy 1⟩] } 3).cmd 1 ≠ none := by decide +kernel
theorem witness_mark :
    let c := passed (entryOf 0x47 [(0x20, 3, 3), (4, 4, 1)])
    (tabled c).running? 1 0x47 = some c ∧ c.flags.testBit 2 = false ∧ bits c.flags 1 0 = 1 ∧ (tabled c).overPlate 0 = false ∧
      (passed (entryOf 0x47 [(4, 4, 5)])).flags.testBit 2 = true ∧
      FMap.getD (State.spaces { awake with spaces := [(0, some ⟨false, false⟩)] }) 0 = some ⟨false, false⟩ := by decide +kernel
theorem witness_tile_retire :
    awake.domainGate (.reg Reg.GLB_TILE_RETIRED_HI) 0x140 (regDpa Reg.GLB_TILE_RETIRED_HI) = none ∧ (2 : Nat).testBit 1 = true ∧
      awake.tileRetired 1 = false ∧ awake.halted 1 = true ∧ (tileRuns Core.reset).halted 0 = false := by decide +kernel

/-! Witnesses of `InsertionSuppliesCablesAndClock`. -/

theorem witness_supplies :
    let p : State := { State.reset with steady := { State.reset.steady with present := true, switchOn := true } }
    p.steady.present = true ∧ p.steady.switchOn = true ∧ p.steady.good = false ∧ p.mode = .dormant ∧ awake.steady.present = false ∧
      awake.steady.switchOn = false ∧ p.bit Reg.STY_SUPPLY 31 = false ∧ (withRegs [(Reg.STY_SUPPLY, 0x80000000)] p).bit Reg.STY_SUPPLY 31 = true ∧
      (withRegs [(Reg.STY_DEV_MODE, 3), (Reg.PLT_CTL, 1)] p).mode ≠ .dormant := by decide +kernel
theorem witness_cables :
    let on : State := withRegs [(Reg.HAT_CTL, 1)] { awake with steady := { awake.steady with cables := 255, href := true } }
    awake.steady.cables.testBit 3 = false ∧ on.steady.cables.testBit 3 = true ∧ awake.steady.href = false ∧ on.steady.href = true ∧
      on.bit Reg.HAT_CTL 0 = true ∧ on.bit (Reg.HAT_PORT_CTL 3) 0 = false ∧ on.portState 3 = 0 ∧ on.portMay 3 = true ∧ awake.portMay 3 = false ∧
      (withRegs [(Reg.HAT_PORT_STATE 3, 2)] on).portState 3 = 2 := by decide +kernel

/-! Witnesses of `ManagementMessagesAreAnswered`. -/

/-- A vendor request of a command with data. -/
def asks (c : Nat) (d : List Byte) : List Byte := natLE 6 (0x7E + 2 ^ 8 * 0x1C + 2 ^ 16 * 0xA7 + 2 ^ 24 * 0x81 + 2 ^ 32 * c) ++ d
theorem witness_vendor :
    vendorRequest (asks 1 []) = true ∧ byteAt (asks 2 [3]) 4 = 2 ∧ awake.mgtAnswers = true ∧ State.reset.mgtAnswers = false ∧
      awake.mgtTouched.spineOn = true ∧ byteAt (asks 1 []) 3 / 32 % 4 = 0 ∧ byteAt (asks 1 []) 5 = 0 ∧ (asks 2 [3]).length = 7 ∧
      byteAt (asks 9 []) 4 = 9 ∧ vendorRequest [0x7E] = false ∧
      (let aux : State := { State.reset with steady := { State.reset.steady with aux := true } }
       aux.mgtAnswers = true ∧ aux.mgtTouched.spineOn = false) := by decide +kernel
theorem witness_vendor_data :
    awake.sensor 1 = some 0 ∧ awake.sensor 0x30 = none ∧ logSize 6 = 64 ∧
      rangeAnswer 2040 8 2048 (fun _ => 0) = (St.ok, List.replicate 8 0) ∧ (awake.mctpAccess 0x1000004 none).1 = some (St.invalidField, []) ∧
      fieldLE (asks 7 [0xE5, 0xD1]) 6 2 = 0xD1E5 ∧ (asks 7 [0xE5, 0xD1]).length = 8 ∧ byteAt (asks 7 [0xE5, 0xD1]) 4 = 7 := by decide +kernel
theorem witness_mctp_control :
    byteAt [0, 0x81, 1, 0, 0x10] 2 = 1 ∧ ([0, 0x81, 1, 0, 0x10] : List Byte).length = 5 ∧ byteAt [0, 0x81, 1, 0, 0x10] 4 = 0x10 ∧
      128 ≤ byteAt [0, 0x81, 9] 1 ∧ byteAt [0, 0x81, 9] 2 = 9 ∧ byteAt [0, 0x81, 5] 2 = 5 ∧ byteAt [0, 0x81, 2] 2 = 2 := by decide +kernel
theorem witness_i3c_jtag :
    State.spineOn (withRegs [(Reg.MGT_CTL, 1)] awake) = true ∧ (withRegs [(Reg.MGT_CTL, 1)] awake).bit Reg.MGT_CTL 0 = true ∧
      awake.bit Reg.MGT_I3C 31 = false ∧ (withRegs [(Reg.STY_DEV_MODE, 2)] awake).mode = .bringUp ∧ awake.mode ≠ .bringUp ∧ 0x1000 % 4 = 0 := by
  decide +kernel

/-! Witnesses of `ResetGrantsAdmitFirmwarePfAndSteady`. -/

theorem witness_reset_grants :
    (11 : Nat) < 12 ∧ (127 : Nat) < 128 ∧ (0x3FFFF000 : Nat) + 64 ≤ 2 ^ 48 ∧ Rights.read.x = false ∧ (10 : Nat) ∈ [1, 2, 3, 4, 5, 6, 10] ∧
      ¬((0x140 : Nat) ≤ 7 ∧ (7 : Nat) ≤ 0x14F) := by decide

/-! Witnesses of `FlatStoreReadsBackWhatIsPutThere`. -/

theorem witness_flat_store :
    let s := State.reset.putBytes (keepAt 8) [7, 0, 9]
    Memory.wf s = true ∧ s.mem.length = 2 ∧ inKeep (keepAt 8) = true ∧ inKeep 0 = false ∧ s.haze = [] ∧
      s.bytes (keepAt 8) 3 = [7, 0, 9] := by decide +kernel

end Sys2Proof.Tests
end

section
/-! The reset state (R9, R440, R458, R459): what is found by running the model over every tile, core and domain. -/

namespace Sys2Proof.Machine

theorem State.reset_guardSeen : State.reset.guardSeen = true := by decide +kernel

theorem State.reset_til_ctl_run : ∀ n < 64, State.reset.bit (Reg.TIL_CTL n) 0 = false := by decide +kernel

theorem State.reset_not_running : ∀ c < 144, State.reset.running c = false := by decide +kernel

theorem State.reset_domState_off : ∀ d < 17, 1 ≤ d → State.reset.domState d = 2 := by decide +kernel

/-- Settles O58: the reset state's lists are empty by definition; its registers read as the register table's reset words. -/
theorem resetMeetsTheInvariants : Obligations.ResetMeetsTheInvariants := by
  have mode : State.reset.mode = .dormant := by decide
  have steady : State.reset.domState 0 = 0 := by decide
  have wake : State.reset.fld Reg.STY_WAKE_EN 7 0 = 0xFF := by decide
  exact ⟨State.reset_guardSeen, Memory.wf_reset, rfl, rfl, rfl, rfl, rfl, rfl, rfl, rfl, rfl, mode, steady,
    State.reset_domState_off, rfl, State.reset_til_ctl_run, State.reset_not_running, wake⟩

end Sys2Proof.Machine
end

section
/-! Register accesses: what a write does to each bit of a field (R5), and what each way in which an access can reach a register comes
to (R7, R8). -/

namespace Sys2Proof.Machine

/-- A bit of a field takes what its access code makes of the old and the written bit; a bit outside the field stays (R5). -/
theorem RegField.testBit_write (f : RegField) (old v w i : Nat) (h : f.lo ≤ f.hi) :
    (f.write old v w).testBit i =
      if f.lo ≤ i ∧ i ≤ f.hi then
        (match f.acc with
        | .rw => v.testBit i
        | .ro | .wo => old.testBit i
        | .w1c => old.testBit i && !v.testBit i
        | .w1s => old.testBit i || v.testBit i)
      else w.testBit i := by
  have put (x : Nat) : (setBits w f.hi f.lo x).testBit i =
      if f.lo ≤ i ∧ i ≤ f.hi then x.testBit (i - f.lo) else w.testBit i := by
    rw [testBit_setBits]
    congr 1
    exact propext (by omega)
  by_cases hin : f.lo ≤ i ∧ i ≤ f.hi
  · have get (n : Nat) : (bits n f.hi f.lo).testBit (i - f.lo) = n.testBit i := by
      rw [testBit_bits, Nat.add_sub_of_le hin.1]
      simp; omega
    unfold RegField.write
    cases f.acc with
    | w1c => cases ho : old.testBit i <;> simp [put, get, hin, ho]
    | _ => simp [put, get, hin]
  · unfold RegField.write
    cases f.acc <;> simp only [put, if_neg hin]

/-! The registers outside the function view are held at their own offsets (R226). -/

theorem regKey_of_no_view {m a : Nat} (h : a < 0x10000 ∨ 0x30000 ≤ a) : regKey m a = a := by
  unfold regKey
  rw [if_neg (by simp; omega)]

theorem ringAt_of_no_ring {a : Nat} (h : a < 0x301000 ∨ 0x782000 ≤ a) : ringAt a = none := by
  unfold ringAt
  repeat rw [if_neg (by simp; omega)]

/-- A register's word becomes its row's write over the word that it holds (R5). -/
theorem State.plainWrite_row {a : Nat} {r : RegRow} (hr : regRow? a = some r) (ha : a < 0x10000 ∨ 0x30000 ≤ a) (t : State)
    (m : Nat) (v : Word) : t.plainWrite m a v = t.wr a (BitVec.ofNat 32 (r.write (t.rd a).toNat v.toNat)) := by
  unfold State.plainWrite
  rw [hr, regKey_of_no_view ha]

/-- The single registers of the GRD, QE and MGT windows are written by access codes. -/
theorem State.wordTake_codes {a : Nat}
    (h : 0x2000 ≤ a ∧ a < 0x10000 ∨ 0x30000 ≤ a ∧ a < 0x200000 ∨ 0x7C0000 ≤ a ∧ a < 0x800000)
    (t : State) (b : Bus) (m : Nat) (v : Word) : t.wordTake b m a v = t.codeWrite m a v := by
  unfold State.wordTake
  rw [if_neg (by omega), if_neg (by omega)]
  rcases h with grd | qe | mgt
  · rw [if_pos grd.2]
  · rw [if_neg (by omega), if_neg (by omega), if_pos qe.2]
  · rw [if_neg (by omega), if_neg (by omega), if_neg (by omega), if_neg (by omega), ringAt_of_no_ring (by omega)]
    dsimp only
    rw [if_neg (by omega), if_neg (by omega), if_neg (by omega), if_neg (by omega), if_neg (by omega), if_pos mgt.2]

/-! An access that reaches its unit. -/

theorem accessOk {m a : Nat} (hm : m < 4096) (ha : a < 0x1000000) : (okMaster m && okReg a) = true := by
  simp only [okMaster, okReg, Bool.and_eq_true, decide_eq_true_eq]
  exact ⟨hm, ha⟩

theorem State.arrive_of {s t : State} {m a : Nat} (h : s.domainGate (.reg a) m (regDpa a) = none) (ht : t = s.wakeTile (.reg a))
    (act : State → MemAnswer × State) : s.arrive m a act = (act t).2.mcAnswer (act t).1 := by
  subst ht
  unfold State.arrive
  rw [h]

theorem State.regGet_of {s t : State} {m a : Nat} (h : s.domainGate (.reg a) m (regDpa a) = none) (ht : t = s.wakeTile (.reg a))
    (h4 : a % 4 = 0) : s.regGet m a = (t.regRead m a).2.mcAnswer ⟨St.ok, natLE 4 (t.regRead m a).1.toNat, false⟩ := by
  unfold State.regGet
  rw [State.arrive_of h ht]
  simp only [State.regReadBytes, h4]
  rfl

/-- No half of a pair depends on a held LO (R7): the view has no part of `held`. -/
theorem State.view_held (t : State) (h : FMap (Option Tagged)) (m a : Nat) : State.view { t with held := h } m a = t.view m a := rfl

/-! Reads of the halves of a pair (R7). -/

theorem State.regRead_lo {a : Nat} (hlo : isPairLo a = true) (t : State) (m : Nat) :
    t.regRead m a =
      (t.view m a, { t with captured := FMap.setD t.captured (regKey m a) (some ⟨m, t.view m (a + 4)⟩) }) := by
  unfold State.regRead
  rw [if_pos hlo]

section
variable {t : State} {m a : Nat} (h4 : 4 ≤ a) (hhi : isPairLo (a - 4) = true) (hlo : isPairLo a = false)
include h4 hhi hlo

theorem State.regRead_hi_own {c : Tagged} (hc : FMap.getD t.captured (regKey m a - 4) = some c) (hm : c.master = m) :
    t.regRead m a = (c.value, { t with captured := FMap.setD t.captured (regKey m a - 4) none }) := by
  unfold State.regRead
  rw [if_neg (by simp [hlo]), if_pos (by simp [h4, hhi])]
  rw [hc]
  exact if_pos hm

theorem State.regRead_hi_current (hc : ∀ c, FMap.getD t.captured (regKey m a - 4) = some c → c.master ≠ m) :
    t.regRead m a = (t.view m a, t) := by
  unfold State.regRead
  rw [if_neg (by simp [hlo]), if_pos (by simp [h4, hhi])]
  cases hf : FMap.getD t.captured (regKey m a - 4) with
  | none => rfl
  | some c => exact if_neg (hc c hf)

end

/-! Writes that the unit takes, by the register's place in a pair (R7). -/

section
variable {t : State} {m a : Nat} (hshut : t.regShut m a = false) (hrow : (regRow? a).isSome = true)
include hshut hrow

theorem State.regIn_single (hlo : isPairLo a = false) (hhi : 4 ≤ a → isPairLo (a - 4) = false) (b : Bus) (v : Word) :
    State.regIn b t m a v = t.wordTake b m a v := by
  unfold State.regIn
  rw [if_neg (by simp [hshut]), if_neg (by simpa using Option.isSome_iff_ne_none.mp hrow), if_neg (by simp [hlo]),
    if_neg (by simpa using hhi)]

theorem State.regIn_lo (hlo : isPairLo a = true) (b : Bus) (v : Word) :
    State.regIn b t m a v = { t with held := FMap.setD t.held (regKey m a) (some ⟨m, v⟩) } := by
  unfold State.regIn
  rw [if_neg (by simp [hshut]), if_neg (by simpa using Option.isSome_iff_ne_none.mp hrow), if_pos hlo]

section
variable (h4 : 4 ≤ a) (hhi : isPairLo (a - 4) = true) (hlo : isPairLo a = false)
include h4 hhi hlo

theorem State.regIn_hi_own {h : Tagged} (hh : FMap.getD t.held (regKey m a - 4) = some h) (hm : h.master = m) (b : Bus) (v : Word) :
    State.regIn b t m a v =
      State.pairTake { t with held := FMap.setD t.held (regKey m a - 4) none } m (a - 4) (some h.value) v := by
  unfold State.regIn
  rw [if_neg (by simp [hshut]), if_neg (by simpa using Option.isSome_iff_ne_none.mp hrow), if_neg (by simp [hlo]),
    if_pos (by simp [h4, hhi]), hh]
  exact if_pos hm

theorem State.regIn_hi_current (hh : ∀ h, FMap.getD t.held (regKey m a - 4) = some h → h.master ≠ m) (b : Bus) (v : Word) :
    State.regIn b t m a v = t.pairTake m (a - 4) none v := by
  unfold State.regIn
  rw [if_neg (by simp [hshut]), if_neg (by simpa using Option.isSome_iff_ne_none.mp hrow), if_neg (by simp [hlo]),
    if_pos (by simp [h4, hhi])]
  cases hf : FMap.getD t.held (regKey m a - 4) with
  | none => rfl
  | some h => exact if_neg (hh h hf)

end
end

/-! Narrow and misaligned accesses (R8). -/

theorem State.regWriteBytes_narrow {m a : Nat} {d : List Byte} (h4 : ¬ (d.length = 4 ∧ a % 4 = 0))
    (h8 : ¬ (d.length = 8 ∧ a % 8 = 0)) (t : State) (b : Bus) : t.regWriteBytes b m a d = t.refuse m a St.accessDenied := by
  unfold State.regWriteBytes
  rw [if_neg (by simpa using h4), if_neg (by simpa using h8)]

section
variable {s t : State} {m a len : Nat} (h0 : 0 < len) (h4 : ¬ (len = 4 ∧ a % 4 = 0)) (h8 : ¬ (len = 8 ∧ a % 8 = 0))
  (hg : s.domainGate (.reg a) m (regDpa a) = none) (ht : t = s.wakeTile (.reg a))
include h0 h4 h8 hg ht

theorem State.narrowAccess_read : s.narrowAccess m a len none = t.mcAnswer ⟨St.ok, t.regPeek m a len, false⟩ := by
  unfold State.narrowAccess
  rw [if_neg (by simp; omega), State.arrive_of hg ht]

theorem State.narrowAccess_write {d : List Byte} (hd : d.length = len) :
    s.narrowAccess m a len (some d) = (t.refuse m a St.accessDenied).acked := by
  unfold State.narrowAccess
  rw [if_neg (by simp; omega), State.arrive_of hg ht]
  dsimp only
  rw [State.regWriteBytes_narrow (hd ▸ h4) (hd ▸ h8), State.acked]

end

/-- Settles O6: a write that reaches a single register goes to its unit, one field's write is read off its bits, and a narrow or
misaligned access is a read without effect or a refused write. -/
theorem registerWritesActByAccessCode : Obligations.RegisterWritesActByAccessCode := by
  refine ⟨?_, RegField.testBit_write, ?_⟩
  · intro s t m a v r hm ha hreach hr hlo hhi
    obtain ⟨hg, ht, hshut⟩ := hreach
    refine ⟨?_, fun hwin => ?_⟩
    · have hput : s.regPut m a v = (t.wordTake (busAt 65) m a v).acked := by
        rw [State.regPut_of hg ht, State.regIn_single hshut (by simp [hr]) hlo hhi]
      rw [← hput]
      exact done_of (accessOk hm ha) s _
    · rw [State.wordTake_codes hwin, State.codeWrite, State.plainWrite_row hr (by omega)]
  · intro s t m a len wr hm ha h0 hlen h4 h8 hg ht
    have hdone (hwr : okAccess 8 len wr = true) :
        exec (.unalignedRegisterAccess m a len wr) s = .next (s.seal (s.narrowAccess m a len wr)) :=
      done_of (by rw [accessOk hm ha, hwr]; rfl) s _
    refine ⟨?_, ?_⟩
    · rintro rfl
      rw [hdone (by simp [okAccess, h0, hlen]), State.narrowAccess_read h0 h4 h8 hg ht]
    · rintro d rfl hd
      rw [hdone (by simp [okAccess, h0, hlen, hd]), State.narrowAccess_write h0 h4 h8 hg ht hd]

/-- Settles O7: each half of a pair is read and written by one of the cases of R7. -/
theorem registerPairsActWhole : Obligations.RegisterPairsActWhole := by
  intro s t m a v hm ha ha4 hg ht k
  have hok := accessOk hm ha
  have hget := State.regGet_of hg ht ha4
  have hput := State.regPut_of hg ht v
  refine ⟨fun hlo => ?_, fun h4 hhi hlo => ?_, fun h => t.view_held h m a⟩
  · have hat : pairLoAt a = true := hlo
    have hread : exec (.pairLoRead m a) s = .next (s.seal (s.regGet m a)) :=
      (done_of hok s _).trans (by rw [State.pairRead, if_pos hat])
    have hwrite : exec (.pairLoWrite m a v) s = .next (s.seal (s.regPut m a v)) :=
      (done_of hok s _).trans (by rw [State.pairWrite, if_pos hat])
    refine ⟨?_, fun hrow hshut => ?_⟩
    · rw [hread, hget, State.regRead_lo hlo]
    · rw [hwrite, hput, State.regIn_lo hshut hrow hlo]
  · have hat : pairHiAt a = true := by simp [pairHiAt, h4, hhi]
    have hread : exec (.pairHiRead m a) s = .next (s.seal (s.regGet m a)) :=
      (done_of hok s _).trans (by rw [State.pairRead, if_pos hat])
    have hwrite : exec (.pairHiWrite m a v) s = .next (s.seal (s.regPut m a v)) :=
      (done_of hok s _).trans (by rw [State.pairWrite, if_pos hat])
    refine ⟨fun c hc hcm => ?_, fun hc => ?_, fun hrow hshut => ⟨fun h hh hhm => ?_, fun hh => ?_⟩⟩
    · rw [hread, hget, State.regRead_hi_own h4 hhi hlo hc hcm]
    · rw [hread, hget, State.regRead_hi_current h4 hhi hlo hc]
    · rw [hwrite, hput, State.regIn_hi_own hshut hrow h4 hhi hlo hh hhm]
    · rw [hwrite, hput, State.regIn_hi_current hshut hrow h4 hhi hlo hh]

end Sys2Proof.Machine
end

section
/-! Grants (R36, R37): the two words of a slot are a register pair of the GRD window, which takes every write. -/

namespace Sys2Proof.Machine

/-- No rule shuts the registers of the GRD window. -/
theorem State.regShut_grd {a : Nat} (h : 0x2000 ≤ a ∧ a < 0x10000) (t : State) (m : Nat) : t.regShut m a = false := by
  have hb : a ≠ Reg.QE_CTX_BASE_LO ∧ a ≠ Reg.QE_CTX_BASE_HI := by unfold Reg.QE_CTX_BASE_LO Reg.QE_CTX_BASE_HI; omega
  have hs : a ≠ Reg.GAU_SHADOW_BASE_LO ∧ a ≠ Reg.GAU_SHADOW_BASE_HI := by
    unfold Reg.GAU_SHADOW_BASE_LO Reg.GAU_SHADOW_BASE_HI; omega
  have hw : a ≠ Reg.PLT_WORK_BASE_LO ∧ a ≠ Reg.PLT_WORK_BASE_HI := by unfold Reg.PLT_WORK_BASE_LO Reg.PLT_WORK_BASE_HI; omega
  unfold State.regShut
  rw [ringAt_of_no_ring (by omega)]
  rw [if_neg (by simp; omega), if_neg (by simp [hb]), if_neg (by simp; omega), if_neg (by simp; omega), if_neg (by simp; omega),
    if_neg (by simp [hs]), if_neg (by simp; omega), if_neg (by simp [hw]), if_neg (by simp; omega)]

/-- A slot of a grant takes effect by access codes; the CONTROL slot also clears the grant's faulted mark (R36, R37). -/
theorem State.pairTake_slot (t : State) (m : Nat) {i g j : Nat} (hi : i < 12) (hg : g < 128) (hj : j < 3) (held : Option Word)
    (v : Word) :
    t.pairTake m (grantAt i g + 8 * j) held v =
      let u := t.pairCodes m (grantAt i g + 8 * j) held v
      if j = 0 then { u with grantFaulted := FMap.setD u.grantFaulted (128 * i + g) false } else u := by
  have hat : grantAt i g + 8 * j = 0x5000 + (0xC00 * i + (0x18 * g + 8 * j)) := by
    unfold grantAt Reg.GRD_GRANT_CONTROL_LO; omega
  have hslot : (0xC00 * i + (0x18 * g + 8 * j)) % 0xC00 = 0x18 * g + 8 * j := by omega
  have htable : (0xC00 * i + (0x18 * g + 8 * j)) / 0xC00 = i := by omega
  have hgrant : (0x18 * g + 8 * j) / 0x18 = g := by omega
  have hword : (0x18 * g + 8 * j) % 0x18 = 8 * j := by omega
  have hcontrol : (8 * j = 0) = (j = 0) := propext (by omega)
  unfold State.pairTake
  rw [hat, if_pos (by simp; omega), Nat.add_sub_cancel_left, hslot, htable, hgrant, hword]
  simp only [hcontrol]

theorem exec_grantWrite {m i g k : Nat} (hm : m < 4096) (hi : i < 12) (hg : g < 128) (hk : k < 6) (v : Word) (s : State) :
    exec (.grantWrite m i g k v) s = .next (s.seal (s.regPut m (grantAt i g + 4 * k) v)) :=
  done_of (by simp [okMaster, hm, hi, hg, hk]) s _

/-! Affinity blocks (R28, R29). -/

/-- The byte range of an affinity block's word. -/
def affinitySpan (w : Word) : Nat × Nat := (2 ^ 32 * bits w.toNat 7 0, 2 ^ 32 * (bits w.toNat 7 0 + bits w.toNat 15 8))

/-- Block `n` cannot take the word `v`: it enables the block with a size of 0 or past the end, or with a range that meets another
enabled block or mirror window (R29, R335). -/
def State.affinityBad (t : State) (n : Nat) (v : Word) : Bool :=
  let others := (List.range 8).filter (fun i => i ≠ n && t.bit (Reg.GLB_AFF i) 31)
  v.toNat.testBit 31 &&
    (bits v.toNat 15 8 = 0 || 24 < bits v.toNat 15 8 || 24 < bits v.toNat 7 0 + bits v.toNat 15 8 ||
      (others.map (fun i => affinitySpan (t.rd (Reg.GLB_AFF i))) ++ t.otherMirrors 8).any (fun o => spansMeet (affinitySpan v) o))

theorem State.affinityBad_iff (t : State) (n : Nat) (v : Word) :
    t.affinityBad n v = true ↔
      v.toNat.testBit 31 = true ∧
        (bits v.toNat 15 8 = 0 ∨ 24 < bits v.toNat 7 0 + bits v.toNat 15 8 ∨
          (∃ i, i < 8 ∧ i ≠ n ∧ t.bit (Reg.GLB_AFF i) 31 = true ∧
            spansMeet (affinitySpan v) (affinitySpan (t.rd (Reg.GLB_AFF i))) = true) ∨
          ∃ o ∈ t.otherMirrors 8, spansMeet (affinitySpan v) o = true) := by
  have hend (x y : Nat) (p : Prop) : 24 < x ∨ 24 < y + x ∨ p ↔ 24 < y + x ∨ p := by
    rw [← or_assoc]
    exact or_congr_left (by omega)
  unfold State.affinityBad
  simp [List.any_append, or_assoc, and_assoc, hend]

/-- An admitted write of an affinity block, in the words of this part. -/
theorem State.affinityWrite_admitted {t : State} {m : Nat} (hadm : t.bringUpAdmits m = true) (n : Nat) (v : Word) :
    t.affinityWrite m n v =
      let old := t.rd (Reg.GLB_AFF n)
      let put := t.plainWrite m (Reg.GLB_AFF n) v
      let u := if t.affinityBad n v then (put.setFld (Reg.GLB_AFF n) 31 31 0).refuse m (Reg.GLB_AFF n) St.invalidField else put
      let new := u.rd (Reg.GLB_AFF n)
      if new = old then u
      else
        let w := if old.toNat.testBit 31 then u.loseRange (affinitySpan old).1 (affinitySpan old).2 else u
        if new.toNat.testBit 31 then w.loseRange (affinitySpan new).1 (affinitySpan new).2 else w := by
  unfold State.affinityWrite
  dsimp only
  rw [if_neg (by simp [hadm])]
  rfl

theorem State.affinityWrite_shut {t : State} {m : Nat} (hadm : t.bringUpAdmits m = false) (n : Nat) (v : Word) :
    t.affinityWrite m n v = t.refuse m (Reg.GLB_AFF n) St.accessDenied := by
  unfold State.affinityWrite
  exact if_pos (by simp [hadm])

theorem State.bit_setFld_clear (t : State) (a : Nat) {i : Nat} (hi : i < 32) : (t.setFld a i i 0).bit a i = false := by
  unfold State.bit State.setFld
  rw [State.rd_wr_self, toNat_setBits _ _ _ _ (by omega), testBit_setBits, if_pos (by omega)]
  exact Nat.zero_testBit _

theorem State.rd_refuse {k : Nat} (hk : Unlogged k) (t : State) (m a st : Nat) : (t.refuse m a st).rd k = t.rd k :=
  State.report_rd t _ k hk

/-- A bad word leaves EN 0 and a record; a block that was disabled stays so, and no data are lost. -/
theorem State.affinityWrite_bad {t : State} {m n : Nat} {v : Word} (hadm : t.bringUpAdmits m = true) (hn : n < 8)
    (hdis : t.bit (Reg.GLB_AFF n) 31 = false) (hbad : t.affinityBad n v = true) :
    t.affinityWrite m n v =
      ((t.plainWrite m (Reg.GLB_AFF n) v).setFld (Reg.GLB_AFF n) 31 31 0).refuse m (Reg.GLB_AFF n) St.invalidField := by
  have hcalm : Unlogged (Reg.GLB_AFF n) := by unfold Unlogged Calm Reg.GLB_AFF; omega
  have hclear := State.bit_setFld_clear (t.plainWrite m (Reg.GLB_AFF n) v) (Reg.GLB_AFF n) (i := 31) (by omega)
  unfold State.bit at hdis hclear
  rw [State.affinityWrite_admitted hadm]
  simp only [hbad, hdis, hclear, State.rd_refuse hcalm, if_true, Bool.false_eq_true, if_false, ite_self]

/-- Any other word is taken as it is; the data of the block that it enables are lost. -/
theorem State.affinityWrite_taken {t : State} {m n : Nat} {v : Word} (hadm : t.bringUpAdmits m = true)
    (hdis : t.bit (Reg.GLB_AFF n) 31 = false) (hgood : t.affinityBad n v = false) :
    t.affinityWrite m n v =
      let u := t.plainWrite m (Reg.GLB_AFF n) v
      let new := u.rd (Reg.GLB_AFF n)
      if u.bit (Reg.GLB_AFF n) 31 then u.loseRange (affinitySpan new).1 (affinitySpan new).2 else u := by
  rw [State.affinityWrite_admitted hadm]
  unfold State.bit at hdis ⊢
  simp only [hgood, hdis, Bool.false_eq_true, if_false]
  split
  · next same => rw [same, hdis]; rfl
  · rfl

theorem exec_affinityWrite {s t : State} {m n : Nat} (hm : m < 4096) (hn : n < 8) (hreach : s.Reaches m (Reg.GLB_AFF n) t) (v : Word) :
    exec (.affinityWrite m n v) s = .next (s.seal (t.affinityWrite m n v).acked) := by
  rw [← State.regDo_of hreach (fun s => s.affinityWrite m n v)]
  exact done_of (by simp [okMaster, hm, hn]) s _

/-- Settles O11: GRANT_WRITE is a write of a half of a pair, whose HI writes the slot; AFFINITY_WRITE is refused, taken without EN or
taken whole. -/
theorem grantsAndAffinityTakeTheirWrites : Obligations.GrantsAndAffinityTakeTheirWrites := by
  refine ⟨?_, ?_⟩
  · intro s t m i g k v hm hi hg hk hgate ht hrow
    have hoff : 0x5000 ≤ grantAt i g + 4 * k ∧ grantAt i g + 4 * k < 0xE000 := by
      unfold grantAt Reg.GRD_GRANT_CONTROL_LO; omega
    have hshut : t.regShut m (grantAt i g + 4 * k) = false := t.regShut_grd (by omega) m
    have hkey : regKey m (grantAt i g + 4 * k) = grantAt i g + 4 * k := regKey_of_no_view (by omega)
    have hput := State.regPut_of hgate ht v
    refine ⟨fun _ hlo => ?_, fun hodd hhi hlo h hh hhm => ?_⟩
    · rw [exec_grantWrite hm hi hg hk, hput, State.regIn_lo hshut hrow hlo, hkey]
    · obtain ⟨j, rfl⟩ : ∃ j, k = 2 * j + 1 := ⟨k / 2, by omega⟩
      have hslot : grantAt i g + 4 * (2 * j + 1) - 4 = grantAt i g + 8 * j := by omega
      have hcontrol : (2 * j + 1 = 1) = (j = 0) := propext (by omega)
      rw [← hkey] at hh
      rw [exec_grantWrite hm hi hg hk, hput, State.regIn_hi_own hshut hrow (by omega) hhi hlo hh hhm, hkey, hslot,
        State.pairTake_slot _ _ hi hg (by omega)]
      simp only [hcontrol]
  · intro s t m n v hm hn hreach off span size base other
    have hspan (w : Word) : span w = affinitySpan w := rfl
    have hother (a b : Nat × Nat) : spansMeet a b = true ↔ other a b := by simp [spansMeet, other]
    rw [exec_affinityWrite hm hn hreach]
    refine ⟨fun hadm => ?_, fun hadm hen hwhy hdis => ?_, fun hadm hdis hmir hgood => ?_⟩
    · rw [State.affinityWrite_shut hadm]
    · have hbad : t.affinityBad n v = true := by
        simp only [State.affinityBad_iff, hother, ← hspan]
        exact ⟨hen, hwhy.imp_right (.imp_right .inl)⟩
      rw [State.affinityWrite_bad hadm hn hdis hbad]
    · have hok : t.affinityBad n v = false := by
        rw [← Bool.not_eq_true, State.affinityBad_iff, hmir]
        simp only [hother, ← hspan]
        rintro ⟨hen, hwhy⟩
        obtain hoff | ⟨hpos, hend, hfree⟩ := hgood
        · rw [hoff] at hen; cases hen
        · obtain h | h | ⟨i, hi, hin, hbit, hmeet⟩ | ⟨o, ho, _⟩ := hwhy
          · omega
          · omega
          · exact hfree i hi hin hbit hmeet
          · cases ho
      rw [State.affinityWrite_taken hadm hdis hok]
      rfl

end Sys2Proof.Machine
end

section
/-! Requests to a target (R34, R35): the verdict of a table, what a region that only its table guards does with a request, and the
check of the payload (R41, R359). -/

namespace Sys2Proof.Machine

/-! The verdict of a table, and a lookup that finds no newly broken grant. -/

theorem State.verdict_eq_ok_iff (s : State) (t m addr len : Nat) (n : Rights) :
    s.verdict t m addr len n = St.ok ↔
      ∃ i, i < 128 ∧ s.isFaulted t i = false ∧ s.grantMatches t i m addr len n = true := by
  have admits : (List.range 128).any (fun g => !s.isFaulted t g && s.grantMatches t g m addr len n) = true ↔
      ∃ i, i < 128 ∧ s.isFaulted t i = false ∧ s.grantMatches t i m addr len n = true := by simp
  rw [← admits]
  unfold State.verdict
  split
  · next h => simp [h]
  · next h => split <;> simp [h]

theorem State.judge_denied {s : State} {t m a n : Nat} {r : Rights} (hb : s.newlyBroken t = []) (hv : s.verdict t m a n r ≠ St.ok) :
    s.judge t m a n r =
      (s.verdict t m a n r, s.reportDenied ⟨s.verdict t m a n r, t, 2, m, a, 0xFFFF, 0⟩) := by
  unfold State.judge
  dsimp only
  rw [hb, if_neg hv]
  rfl

/-! Bytes and marks do not depend on the clocks of the tiles. -/

theorem State.ungate_bytes (s : State) (n a k : Nat) : (s.ungate n).bytes a k = s.bytes a k := by
  unfold State.ungate
  split <;> rfl

theorem State.ungate_anyPoison (s : State) (n a k : Nat) : (s.ungate n).anyPoison a k = s.anyPoison a k := by
  unfold State.ungate
  split <;> rfl

theorem State.wakeTile_bench (s : State) (n o : Nat) : s.wakeTile (.bench n o) = s.ungate n := rfl

theorem State.wakeTile_keep (s : State) (o : Nat) : s.wakeTile (.keep o) = s := rfl

theorem State.bytes_ne_nil (s : State) (a : Nat) {k : Nat} (hk : 0 < k) : s.bytes a k ≠ [] := by
  cases k with
  | zero => exact absurd hk (Nat.lt_irrefl 0)
  | succ k => exact List.cons_ne_nil _ _

/-! What the check of the payload adds to an answer: it poisons good data, and nothing else. -/

theorem State.targetRequest_stop {s t : State} {r : Request} {payload : Ecc} {st : Nat}
    (h : s.request bus r (payload = .uncorrectable) = (MemAnswer.stop st, t)) :
    s.targetRequest r payload = t.mcAnswer ⟨st, [], false⟩ := by
  unfold State.targetRequest
  dsimp only
  rw [h]
  simp [MemAnswer.stop]

theorem State.targetRequest_data {s t : State} {r : Request} {payload : Ecc} {d : List Byte} {p : Bool} (hd : d ≠ [])
    (h : s.request bus r (payload = .uncorrectable) = (⟨St.ok, d, p⟩, t)) :
    s.targetRequest r payload = t.mcAnswer ⟨St.ok, d, p || payload = .uncorrectable⟩ := by
  have hfull : d.isEmpty = false := by simpa using hd
  unfold State.targetRequest
  dsimp only
  rw [h]
  simp [hfull]

/-! A request that nothing holds on its way, by the region it goes to (R25, R34). -/

theorem State.request_arrives {s : State} {r : Request} (hk : ∀ op new, r.kind ≠ .atomic op new)
    (hw : s.wayHolds (s.region r.dpa r.len) r.master r.len = false) (b : Bus) (p : Bool) : s.request b r p = s.atTarget b r p := by
  unfold State.request
  dsimp only
  rw [if_neg, if_neg (by simp [hw])]
  cases hr : r.kind with
  | atomic op new => exact absurd hr (hk op new)
  | _ => simp

theorem State.atTarget_unmapped {s : State} {r : Request} (hg : s.region r.dpa r.len = .unmapped) (b : Bus) (p : Bool) :
    s.atTarget b r p = (MemAnswer.stop St.accessDenied, s.unmapped r.master r.dpa) := by
  unfold State.atTarget
  rw [hg]

theorem State.atTarget_lost {s : State} {r : Request} (hg : s.region r.dpa r.len = .lost) (b : Bus) (p : Bool) :
    s.atTarget b r p = (MemAnswer.stop St.halfLost, s) := by
  unfold State.atTarget
  rw [hg]

/-- A region that a request enters by the verdict of its table alone: a bench, a register or the keep store. -/
def Region.tableOnly (g : Region) : Prop := (∃ n o, g = .bench n o) ∨ (∃ o, g = .reg o) ∨ (∃ o, g = .keep o)

section
variable {s : State} {r : Request} {g : Region} (hreg : s.region r.dpa r.len = g) (hg : g.tableOnly)
  (hgate : s.domainGate g r.master r.dpa = none) (hb : s.newlyBroken g.table = [])
include hreg hg hgate hb

theorem State.atTarget_denied (hv : s.verdict g.table r.master r.dpa r.len (g.rights r) ≠ St.ok) (b : Bus) (p : Bool) :
    let v := s.verdict g.table r.master r.dpa r.len (g.rights r)
    s.atTarget b r p = (MemAnswer.stop v, s.reportDenied ⟨v, g.table, 2, r.master, r.dpa, 0xFFFF, 0⟩) := by
  unfold State.atTarget
  dsimp only
  obtain ⟨n, o, rfl⟩ | ⟨o, rfl⟩ | ⟨o, rfl⟩ := hg <;> rw [hreg, hgate, State.judge_denied hb hv] <;> exact if_pos hv

theorem State.atTarget_admitted (hv : s.verdict g.table r.master r.dpa r.len (g.rights r) = St.ok) (b : Bus) (p : Bool) :
    s.atTarget b r p = (s.wakeTile g).serve b g r p := by
  unfold State.atTarget
  dsimp only
  obtain ⟨n, o, rfl⟩ | ⟨o, rfl⟩ | ⟨o, rfl⟩ := hg <;> rw [hreg, hgate, State.judge_ok hb hv] <;> rfl

end

/-! How the regions serve an admitted request. -/

theorem State.serve_bench_read {r : Request} (hk : r.kind = .read) (s : State) (b : Bus) (n o : Nat) (p : Bool) :
    s.serve b (.bench n o) r p = (⟨St.ok, s.bytes (benchAt n o) r.len, s.anyPoison (benchAt n o) r.len⟩, s) := by
  unfold State.serve
  rw [hk]
  rfl

theorem State.serve_bench_write {r : Request} (hk : r.kind = .write) (s : State) (b : Bus) (n o : Nat) (p : Bool) :
    s.serve b (.bench n o) r p = (MemAnswer.stop St.ok, s.benchStore n o r.data p) := by
  unfold State.serve
  rw [hk]

theorem State.serve_keep_read {r : Request} (hk : r.kind = .read) (s : State) (b : Bus) (o : Nat) (p : Bool) :
    s.serve b (.keep o) r p = (⟨St.ok, s.bytes (keepAt o) r.len, s.anyPoison (keepAt o) r.len⟩, s) := by
  unfold State.serve
  rw [hk]
  rfl

theorem State.serve_reg_read {r : Request} (hk : r.kind = .read) {o : Nat} (h4 : o % 4 = 0) (hlen : r.len = 4) (s : State) (b : Bus)
    (p : Bool) :
    s.serve b (.reg o) r p = (⟨St.ok, natLE 4 (s.regRead r.master o).1.toNat, false⟩, (s.regRead r.master o).2) := by
  unfold State.serve State.regReadBytes
  rw [hk, hlen]
  simp [h4]

theorem Request.len_pos {r : Request} (h : r.ok = true) : 0 < r.len := by
  unfold Request.ok at h
  simp only [Bool.and_eq_true, decide_eq_true_eq] at h
  obtain ⟨⟨⟨_, hlen⟩, _⟩, _⟩ := h
  exact hlen

/-- Settles O8: the command's answer follows from the request's way through `State.atTarget`, one case for each region and verdict. -/
theorem requestsAreJudgedThenServed : Obligations.RequestsAreJudgedThenServed := by
  intro s r payload hok hkind hway
  have hexec : exec (.targetRequest r payload) s = .next (s.seal (s.targetRequest r payload)) := done_of hok s _
  have harrive (p : Bool) : s.request bus r p = s.atTarget bus r p := State.request_arrives hkind hway bus p
  have hlen := Request.len_pos hok
  rw [hexec]
  refine ⟨fun hg => ?unmapped, fun hg => ?lost, fun g hreg hg hgate hb => ?judged⟩
  case unmapped =>
    rw [State.targetRequest_stop ((harrive _).trans (State.atTarget_unmapped hg bus _))]
    rfl
  case lost =>
    rw [State.targetRequest_stop ((harrive _).trans (State.atTarget_lost hg bus _))]
  case judged =>
    intro v
    refine ⟨State.verdict_eq_ok_iff .., fun hv => ?_, fun hv => ?_⟩
    · rw [State.targetRequest_stop ((harrive _).trans (State.atTarget_denied hreg hg hgate hb hv bus _))]
    · have hserve (p : Bool) : s.request bus r p = (s.wakeTile g).serve bus g r p :=
        (harrive p).trans (State.atTarget_admitted hreg hg hgate hb hv bus p)
      refine ⟨?_, ?_, ?_, ?_⟩
      · rintro n o rfl hread
        rw [State.targetRequest_data (State.bytes_ne_nil _ _ hlen) ((hserve _).trans (State.serve_bench_read hread ..)),
          State.wakeTile_bench, State.ungate_bytes, State.ungate_anyPoison]
      · rintro n o rfl hwrite
        rw [State.targetRequest_stop ((hserve _).trans (State.serve_bench_write hwrite ..)), State.wakeTile_bench]
        rfl
      · rintro o rfl hread
        rw [State.targetRequest_data (State.bytes_ne_nil _ _ hlen) ((hserve _).trans (State.serve_keep_read hread ..)),
          State.wakeTile_keep]
      · rintro o rfl h4 hr4 hread a
        have hfull : natLE 4 a.1.toNat ≠ [] := List.cons_ne_nil _ _
        rw [State.targetRequest_data hfull ((hserve _).trans (State.serve_reg_read hread h4 hr4 ..)), Bool.false_or]

end Sys2Proof.Machine
end

section
/-! HELLOs and what a port's change reports (R374, R377). -/

namespace Sys2Proof.Machine

/-- A command of an arriving packet acts on the packet once Hatch receives it. -/
theorem done_packetIn {s : State} {p op : Nat} {k : Packet} (hp : p < 8) (hk : k.ok = true) (hrec : s.Receives p op k)
    (act : State → State) : done (okPort p && k.ok) s (s.packetIn p op k act) = .next (s.seal (act s)) := by
  rw [State.packetIn_of hrec]
  exact done_of (by simp [okPort, hp, hk]) s _

/-- The neighbour `n` is recorded at port `p`, and a new word of HAT_PORTp_NBR is a change of the port (R374). -/
def State.noteNeighbour (s : State) (p : Nat) (n : Neighbour) : State :=
  let u := s.setHatPort p { s.hatPort p with nbr := some n }
  if s.rd (Reg.HAT_PORT_NBR p) = nbrWord n then u else (u.wr (Reg.HAT_PORT_NBR p) (nbrWord n)).portChange p

/-- The neighbour names a warden to a node of its own group that knows none (R375). -/
def State.learnsFrom (s : State) (n : Neighbour) : Bool :=
  bits n.group 25 16 = s.fld Reg.HAT_GROUP_CFG 25 16 && n.warden.testBit 31 && !s.bit Reg.HAT_WARDEN 31

theorem State.learnsFrom_iff (s : State) (n : Neighbour) :
    s.learnsFrom n = true ↔
      bits n.group 25 16 = s.fld Reg.HAT_GROUP_CFG 25 16 ∧ n.warden.testBit 31 = true ∧ s.bit Reg.HAT_WARDEN 31 = false := by
  simp [State.learnsFrom, and_assoc]

theorem State.hello_discarded {k : Packet} (hbad : packetBad k = true) (s : State) (p : Nat) : s.hello p k = s.rxDiscard := by
  unfold State.hello
  exact if_pos (by simp [hbad])

theorem State.hello_recorded {k : Packet} (hgood : packetBad k = false) (hop : k.op = 0x20) (s : State) (p : Nat) :
    let n := nbrOf k.payload s.time.toNat
    let v := s.noteNeighbour p n
    s.hello p k = if v.learnsFrom n then v.knowWarden (2 ^ 31 + n.warden % 2 ^ 18) else v := by
  unfold State.hello
  exact if_neg (by simp [hgood, hop])

theorem State.nbrTimeout_none {s : State} {p : Nat} (h : (s.hatPort p).nbr = none) : s.nbrTimeout p = s := by
  unfold State.nbrTimeout
  rw [h]

theorem State.nbrTimeout_some {s : State} {p : Nat} {n : Neighbour} (h : (s.hatPort p).nbr = some n) :
    s.nbrTimeout p =
      ((((s.atTime (n.heard + 35000000)).setHatPort p { s.hatPort p with nbr := none }).wr (Reg.HAT_PORT_NBR p) 0).portChange p) := by
  unfold State.nbrTimeout
  rw [h]

end Sys2Proof.Machine
end

section
/-! Wardens and the numbers they give (R375). -/

namespace Sys2Proof.Machine

/-- The neighbours that count in an election: those of the node's group, beyond ports that lead to another node (R19). -/
theorem State.mem_groupNbrs (s : State) (n : Neighbour) :
    n ∈ s.groupNbrs ↔
      (∃ p < 8, (s.hatPort p).nbr = some n ∧ (s.inPair = true → p < 6)) ∧ bits n.group 25 16 = s.fld Reg.HAT_GROUP_CFG 25 16 := by
  have ports : (∃ p < if s.inPair then 6 else 8, (s.hatPort p).nbr = some n) ↔
      ∃ p < 8, (s.hatPort p).nbr = some n ∧ (s.inPair = true → p < 6) := by
    refine exists_congr fun p => ?_
    cases s.inPair with
    | false => simp
    | true => exact ⟨fun ⟨hp, hn⟩ => ⟨Nat.lt_of_lt_of_le hp (by decide : 6 ≤ 8), hn, fun _ => hp⟩, fun ⟨_, hn, hp⟩ => ⟨hp rfl, hn⟩⟩
  unfold State.groupNbrs
  simp [ports]

theorem State.mayLead_iff (s : State) :
    s.mayLead = true ↔ s.fld Reg.HAT_GROUP_CFG 7 0 ≠ 0 ∧ ∀ n ∈ s.groupNbrs,
      bits n.group 7 0 < s.fld Reg.HAT_GROUP_CFG 7 0 ∨ (bits n.group 7 0 = s.fld Reg.HAT_GROUP_CFG 7 0 ∧ s.nodeSerial ≤ n.serial) := by
  unfold State.mayLead
  simp

/-! A warden elsewhere, or none. -/

theorem State.wardenElect_some (s : State) (w : Nat) :
    s.wardenElect (some w) false =
      if bits w 17 8 ≠ s.fld Reg.HAT_GROUP_CFG 25 16 then s else s.knowWarden (2 ^ 31 + w % 2 ^ 18) := rfl

theorem State.wardenElect_none (s : State) :
    s.wardenElect none false =
      if s.fld Reg.HAT_GROUP_CFG 7 0 = 0 && s.groupNbrs.all (fun n => bits n.group 7 0 = 0) then s.knowWarden 0 else s := rfl

/-! This node. -/

/-- The node publishes itself as warden and numbers the nodes beyond its ports. -/
def State.leadGroup (s : State) (group : Nat) : State :=
  (List.range 8).foldl (fun u p => u.assignNeighbour group p) (s.knowWarden (2 ^ 31 + 2 ^ 30 + s.srcFid % 2 ^ 18))

theorem State.wardenElect_behind {s : State} (h : s.mayLead = false) (w : Option Nat) : s.wardenElect w true = s := by
  unfold State.wardenElect
  dsimp only
  rw [if_pos rfl, if_pos (by simp [h])]

section
variable {s : State} (hlead : s.mayLead = true)
include hlead

theorem State.wardenElect_back (hrole : s.role = some true) (w : Option Nat) :
    s.wardenElect w true = s.knowWarden (2 ^ 31 + 2 ^ 30 + s.srcFid % 2 ^ 18) := by
  unfold State.wardenElect
  dsimp only
  rw [if_pos rfl, if_neg (by simp [hlead]), if_pos hrole]

theorem State.wardenElect_member (hrole : s.role ≠ some true) {f : Nat} (hf : s.ownFid = some f)
    (hgroup : bits f 17 8 = s.fld Reg.HAT_GROUP_CFG 25 16) (w : Option Nat) :
    s.wardenElect w true = (s.giveMember Config.serial.toNat (f % 256)).leadGroup (s.fld Reg.HAT_GROUP_CFG 25 16) := by
  have hown : s.ownFid.filter (fun f => bits f 17 8 = s.fld Reg.HAT_GROUP_CFG 25 16) = some f := by simp [hf, hgroup]
  unfold State.wardenElect
  dsimp only
  rw [if_pos rfl, if_neg (by simp [hlead]), if_neg hrole, hown]
  rfl

theorem State.wardenElect_new (hrole : s.role ≠ some true)
    (hf : ∀ f, s.ownFid = some f → bits f 17 8 ≠ s.fld Reg.HAT_GROUP_CFG 25 16) (w : Option Nat) :
    let group := s.fld Reg.HAT_GROUP_CFG 25 16
    let n := s.memberFor group Config.serial.toNat
    s.wardenElect w true =
      ((s.giveMember Config.serial.toNat n).fidWrite 0x140 (BitVec.ofNat 32 (2 ^ 31 + 256 * group + n))).leadGroup group := by
  have hown : s.ownFid.filter (fun f => bits f 17 8 = s.fld Reg.HAT_GROUP_CFG 25 16) = none := by
    simpa [Option.filter_eq_none_iff] using hf
  unfold State.wardenElect
  dsimp only
  rw [if_pos rfl, if_neg (by simp [hlead]), if_neg hrole, hown]
  rfl

end

section
variable {s : State} {group p : Nat} {n : Neighbour} (hn : (s.hatPort p).nbr = some n) (hg : bits n.group 25 16 = group)
include hn hg

theorem State.assignNeighbour_keeps (hk : n.fid.testBit 31 = true ∧ bits n.fid 17 8 = group ∧ s.fidTwin p n = false) :
    s.assignNeighbour group p = s.giveMember n.serial (n.fid % 256) := by
  obtain ⟨hvalid, hof, htwin⟩ := hk
  unfold State.assignNeighbour
  rw [hn]
  dsimp only
  rw [if_neg (fun hne => hne hg), if_pos (by simp [hvalid, hof, htwin])]

theorem State.assignNeighbour_gives (hk : ¬ (n.fid.testBit 31 = true ∧ bits n.fid 17 8 = group ∧ s.fidTwin p n = false)) :
    let num := s.memberFor group n.serial
    s.assignNeighbour group p = (s.giveMember n.serial num).putPacket p
      { Packet.plain 0x22 2 s.srcFid (if n.fid.testBit 31 then n.fid % 2 ^ 18 else 0x3FFFF) (s.freeTag.getD 0) 4 with
        hops := 1, addr := 4, payload := natLE 4 (2 ^ 31 + 256 * group + num) } := by
  unfold State.assignNeighbour
  rw [hn]
  dsimp only
  rw [if_neg (fun hne => hne hg), if_neg (by simpa [and_assoc] using hk)]

end

end Sys2Proof.Machine
end

section
/-! Management packets (R376, R377). -/

namespace Sys2Proof.Machine

/-! A packet that this node does not serve itself. -/

theorem State.passOn_bad {k : Packet} (h : packetBad k = true) (s : State) : s.passOn k = some s.rxDiscard := by
  unfold State.passOn
  exact if_pos h

section
variable {s : State} {k : Packet} (hgood : packetBad k = false)
include hgood

/-- The packet is for this node, by its FID or over a proxy (R376). -/
theorem State.passOn_here (h : k.dst = 0x3FFFF ∨ (s.ownFid = some k.dst ∧ s.role ≠ some true ∧ k.aux.testBit 3 = false)) :
    s.passOn k = none := by
  unfold State.passOn
  rw [if_neg (by simp [hgood])]
  by_cases hd : k.dst = 0x3FFFF
  · exact if_pos hd
  · obtain ⟨hown, hrole, haux⟩ := h.resolve_left hd
    rw [if_neg hd, if_neg (fun hne => hne hown), if_neg hrole, if_neg (by simp [haux])]

section
variable (hd : k.dst ≠ 0x3FFFF)
include hd

theorem State.passOn_transit (hown : s.ownFid ≠ some k.dst) : s.passOn k = some (s.forward k) := by
  unfold State.passOn
  rw [if_neg (by simp [hgood]), if_neg hd, if_pos hown]

theorem State.passOn_back (hown : s.ownFid = some k.dst) (hrole : s.role = some true) : s.passOn k = some (s.crossHinge k) := by
  unfold State.passOn
  rw [if_neg (by simp [hgood]), if_neg hd, if_neg (fun hne => hne hown), if_pos hrole]

theorem State.passOn_proxy (hown : s.ownFid = some k.dst) (hrole : s.role ≠ some true) (haux : k.aux.testBit 3 = true) :
    s.passOn k = some (State.putPacket
      { s with hat := { s.hat with proxies := s.hat.proxies ++ [⟨k.aux % 8, k.tag, k.src⟩] } } (k.aux % 8)
      { k with hops := 1, dst := 0x3FFFF }) := by
  unfold State.passOn
  rw [if_neg (by simp [hgood]), if_neg hd, if_neg (fun hne => hne hown), if_neg hrole, if_pos haux]

end
end

/-- A management request that is passed on leaves what `passOn` says, whether it reads or writes. -/
theorem exec_mgmt_passed {s t : State} {p : Nat} {k : Packet} {c : Instr} (hp : p < 8) (hk : k.ok = true)
    (hc : (c = .mgmtRead p k ∧ s.Receives p 0x21 k) ∨ (c = .mgmtWrite p k ∧ s.Receives p 0x22 k)) (h : s.passOn k = some t) :
    exec c s = .next (s.seal t) := by
  obtain ⟨rfl, hrec⟩ | ⟨rfl, hrec⟩ := hc
  · refine (done_packetIn hp hk hrec _).trans ?_
    rw [State.mgmtRead, h]
  · refine (done_packetIn hp hk hrec _).trans ?_
    rw [State.mgmtWrite, h]

/-! A management request that this node serves. -/

/-- The source may manage this node: its warden or a fabric manager. -/
def State.fromKnown (s : State) (p : Nat) (k : Packet) : Prop := s.fromWarden p k = true ∨ s.fromManager k = true

theorem State.not_fromKnown_iff (s : State) (p : Nat) (k : Packet) :
    (!(s.fromWarden p k || s.fromManager k)) = true ↔ ¬ s.fromKnown p k := by
  rw [State.fromKnown, ← Bool.or_eq_true, Bool.not_eq_true', Bool.eq_false_iff]

/-- The words of a MGMT_WRITE, at their HAT offsets. -/
def mgmtWords (k : Packet) : List (Nat × Word) :=
  (List.range (k.len / 4)).map (fun i => (k.addr + 4 * i, writeWord k.payload (4 * i)))

/-- The words of a MGMT_READ are read in order (R7). -/
def State.mgmtFetch (s : State) (k : Packet) : List Byte × State :=
  (List.range (k.len / 4)).foldl
    (fun acc i =>
      let w := acc.2.regReadBytes 0x200 (0x700000 + k.addr + 4 * i) 4
      (acc.1 ++ w.1, w.2)) ([], s)

section
variable {s : State} {p : Nat} {k : Packet} (hhere : s.passOn k = none)
include hhere

theorem State.mgmtRead_denied (hsrc : ¬ s.fromKnown p k) : s.mgmtRead p k = s.mgmtDeny p k := by
  unfold State.mgmtRead
  rw [hhere]
  exact if_pos ((s.not_fromKnown_iff p k).mpr hsrc)

theorem State.mgmtRead_invalid (hsrc : s.fromKnown p k) (hbad : mgmtOk k = false) :
    s.mgmtRead p k = s.mgmtAnswer p k St.invalidField [] := by
  unfold State.mgmtRead
  rw [hhere]
  dsimp only
  rw [if_neg (fun hno => (s.not_fromKnown_iff p k).mp hno hsrc), if_pos (by simp [hbad])]

theorem State.mgmtRead_done (hsrc : s.fromKnown p k) (hok : mgmtOk k = true) :
    s.mgmtRead p k = (s.mgmtFetch k).2.mgmtAnswer p k St.ok (s.mgmtFetch k).1 := by
  unfold State.mgmtRead
  rw [hhere]
  dsimp only
  rw [if_neg (fun hno => (s.not_fromKnown_iff p k).mp hno hsrc), if_neg (by simp [hok])]
  rfl

theorem State.mgmtWrite_invalid (hsrc : s.fromKnown p k) (hbad : mgmtOk k = false) (b : Bus) :
    s.mgmtWrite b p k = s.mgmtAnswer p k St.invalidField [] := by
  unfold State.mgmtWrite
  rw [hhere]
  dsimp only
  rw [if_pos (by simp [hbad]), if_pos ((Bool.or_eq_true ..).mpr hsrc)]

section
variable (hok : mgmtOk k = true) (hlen : k.payload.length = k.len)
include hok hlen

theorem State.mgmtWrite_denied (hno : ∃ w ∈ mgmtWords k, s.mgmtMay p k w.1 w.2 = false) (b : Bus) :
    s.mgmtWrite b p k = s.mgmtDeny p k := by
  have hsome : (!(mgmtWords k).all (fun w => s.mgmtMay p k w.1 w.2)) = true := by
    obtain ⟨w, hw, hmay⟩ := hno
    exact (Bool.not_eq_true' _).mpr (List.all_eq_false.mpr ⟨w, hw, Bool.eq_false_iff.mp hmay⟩)
  unfold State.mgmtWrite
  rw [hhere]
  dsimp only
  rw [if_neg (by simp [hok, hlen])]
  exact if_pos hsome

theorem State.mgmtWrite_done (hall : ∀ w ∈ mgmtWords k, s.mgmtMay p k w.1 w.2 = true) (b : Bus) :
    s.mgmtWrite b p k =
      ((mgmtWords k).foldl (fun u w => b.reg u 0x200 (0x700000 + w.1) w.2) s).mgmtAnswer p k St.ok [] := by
  have hevery : (!(mgmtWords k).all (fun w => s.mgmtMay p k w.1 w.2)) = false :=
    (Bool.not_eq_false' _).mpr (List.all_eq_true.mpr hall)
  unfold State.mgmtWrite
  rw [hhere]
  dsimp only
  rw [if_neg (by simp [hok, hlen])]
  exact if_neg (Bool.eq_false_iff.mp hevery)

end
end

/-- The words that a MGMT_WRITE may reach, by its source (R377). -/
theorem State.mgmtMay_iff (s : State) (p : Nat) (k : Packet) (o : Nat) (v : Word) :
    let shadow := 0x10000 + 0x8000 * (1 - s.activeBank)
    s.mgmtMay p k o v = true ↔
      (s.fromWarden p k = true ∧ (o = 4 ∨ (shadow + 0x2000 ≤ o ∧ o < shadow + 0x2800) ∨ (o = 0x10 ∧ v = 0x80000000))) ∨
      (s.fromManager k = true ∧ (o = 8 ∨ (0x40 ≤ o ∧ o < 0x50) ∨ (shadow ≤ o ∧ o < shadow + 0x2000) ∨ (o = 0x10 ∧ v = 0x80000000))) := by
  unfold State.mgmtMay
  simp only [Bool.or_eq_true, Bool.and_eq_true, decide_eq_true_eq, or_assoc]

theorem Packet.payload_length {k : Packet} (h : k.ok = true) (hop : k.op = 0x22) : k.payload.length = k.len := by
  unfold Packet.ok at h
  simpa [hop] using (Bool.and_eq_true_iff.mp h).2

/-! Answers to management requests (R376). -/

section
variable {s : State} {k : Packet} (hgood : packetBad k = false) (p : Nat)
include hgood

theorem State.mgmtRsp_proxied {x : Proxy} (hx : s.hat.proxies.find? (fun x => x.port = p && x.tag = k.tag) = some x) :
    s.mgmtRsp p k =
      (State.sendPacket { s with hat := { s.hat with proxies := s.hat.proxies.erase x } } { k with hops := 32, dst := x.src }).2 := by
  unfold State.mgmtRsp
  rw [if_neg (by simp [hgood]), hx]

section
variable (hx : s.hat.proxies.find? (fun x => x.port = p && x.tag = k.tag) = none)
include hx

theorem State.mgmtRsp_transit (hd : k.dst ≠ 0x3FFFF) (hown : s.ownFid ≠ some k.dst) : s.mgmtRsp p k = s.forward k := by
  unfold State.mgmtRsp
  rw [if_neg (by simp [hgood]), hx]
  exact if_pos (by simp [hd, hown])

theorem State.mgmtRsp_back (hd : k.dst ≠ 0x3FFFF) (hown : s.ownFid = some k.dst) (hrole : s.role = some true) :
    s.mgmtRsp p k = s.crossHinge k := by
  unfold State.mgmtRsp
  rw [if_neg (by simp [hgood]), hx]
  dsimp only
  rw [if_neg (by simp [hown]), if_pos (by simp [hd, hrole])]

theorem State.mgmtRsp_here (h : k.dst = 0x3FFFF ∨ (s.ownFid = some k.dst ∧ s.role ≠ some true)) :
    s.mgmtRsp p k = if 6 ≤ p ∧ s.hat.freeze.isSome then { s with hat := { s.hat with freeze := none } } else s := by
  have hstays : ¬ (k.dst ≠ 0x3FFFF ∧ s.ownFid ≠ some k.dst) ∧ ¬ (k.dst ≠ 0x3FFFF ∧ s.role = some true) := by
    refine ⟨fun ⟨hd, hown⟩ => ?_, fun ⟨hd, hrole⟩ => ?_⟩
    · exact hown (h.resolve_left hd).1
    · exact (h.resolve_left hd).2 hrole
  unfold State.mgmtRsp
  rw [if_neg (by simp [hgood]), hx]
  dsimp only
  rw [if_neg (by simpa using hstays.1), if_neg (by simpa using hstays.2)]
  simp

end
end

end Sys2Proof.Machine
end

section
/-! Port changes are reported, and the route banks swap (R377, R380). -/

namespace Sys2Proof.Machine

theorem State.linkEvent_none {s : State} {p : Nat} (h : (s.hatPort p).eventDue = false) : s.linkEvent p = s := by
  unfold State.linkEvent
  exact if_pos (by simp [h])

/-- The FIDs a port's change is reported to: the warden's and every valid fabric manager's, once each, but this node's own. -/
def State.eventDests (s : State) : List Nat :=
  ((([Reg.HAT_WARDEN, Reg.HAT_FM 0, Reg.HAT_FM 1, Reg.HAT_FM 2, Reg.HAT_FM 3].filter (fun r => s.bit r 31)).map
    (fun r => s.fld r 17 0)).eraseDups.filter (fun d => s.ownFid ≠ some d))

theorem State.linkEvent_due {s : State} {p : Nat} (h : (s.hatPort p).eventDue = true) :
    let u := s.setHatPort p { s.hatPort p with eventDue := false }
    let body := natLE 4 p ++ natLE 4 (u.rd (Reg.HAT_PORT_STATE p)).toNat ++ natLE 4 (u.rd (Reg.HAT_PORT_NBR p)).toNat
    s.linkEvent p =
      u.eventDests.foldl (fun x d => (x.sendPacket { Packet.plain 0x24 2 x.srcFid d 0 12 with payload := body }).2) u := by
  unfold State.linkEvent
  exact if_neg (by simp [h])

theorem State.routeSwap_busy {t : State} (h : t.bit Reg.HAT_ROUTE_CTL 30 = true) : t.routeSwap = t := by
  unfold State.routeSwap
  exact if_pos h

theorem State.routeSwap_idle {t : State} (h : t.bit Reg.HAT_ROUTE_CTL 30 = false) :
    t.routeSwap =
      let u := (t.setFld Reg.HAT_ROUTE_CTL 0 0 (1 - t.activeBank)).raise Reg.HAT_INT_STATUS 5
      if u.role = some false then u.hingeWord Reg.HAT_ROUTE_CTL (natLE 4 (2 ^ 31)) else u := by
  unfold State.routeSwap
  exact if_neg (by simp [h])

/-- Settles O41: each command by the cases of its own lemmas above. -/
theorem neighboursWardensAndManagementPackets : Obligations.NeighboursWardensAndManagementPackets := by
  refine ⟨fun s p hp => ?hello_send, fun s p k hp hk hrec => ?hello, fun s p hp => ?timeout, fun s w hw => ?elect,
    fun s group p n hn hg => ?assign, fun s p k c hp hk hc => ?passed, fun s p k hp hk hgood hhere => ?served,
    fun s p k o v _ => s.mgmtMay_iff p k o v, fun s p k hp hk hrec hgood => ?answered, fun s p hp => ?event,
    fun s t m hm hreach => ?swap⟩
  case hello_send =>
    have hexec : exec (.helloSend p) s = .next (s.seal (s.helloSend p)) := done_of (by simp [okPort, hp]) s _
    rw [hexec, State.helloSend]
    exact ⟨fun h => by rw [if_pos h], fun h => by rw [if_neg h]⟩
  case hello =>
    have hexec : exec (.hello p k) s = .next (s.seal (s.hello p k)) := done_packetIn hp hk hrec _
    rw [hexec]
    refine ⟨fun hbad => ?_, fun hgood => ?_⟩
    · rw [State.hello_discarded hbad]; rfl
    · intro n u seen v learns
      have hlearns : v.learnsFrom n = true ↔ learns := State.learnsFrom_iff v n
      have hhello : s.hello p k = if v.learnsFrom n then v.knowWarden (2 ^ 31 + n.warden % 2 ^ 18) else v :=
        State.hello_recorded hgood hrec.1 s p
      rw [hhello]
      exact ⟨fun hl => by rw [if_pos (hlearns.mpr hl)]; rfl, fun hl => by rw [if_neg (mt hlearns.mp hl)]⟩
  case timeout =>
    have hexec : exec (.neighbourTimeout p) s = .next (s.seal (s.nbrTimeout p)) := done_of (by simp [okPort, hp]) s _
    rw [hexec]
    exact ⟨fun h => by rw [State.nbrTimeout_none h], fun n h => by rw [State.nbrTimeout_some h]⟩
  case elect =>
    intro group prio mine leads
    have hexec (x : Option Nat) (hx : x = some w ∨ x = none) (self : Bool) :
        exec (.wardenElect x self) s = .next (s.seal (s.wardenElect x self)) :=
      done_of (by obtain rfl | rfl := hx <;> simp [hw]) s _
    have hmine (n : Neighbour) : n ∈ s.groupNbrs ↔ mine n := s.mem_groupNbrs n
    have hleads : s.mayLead = true ↔ leads := by
      rw [State.mayLead_iff]
      simp only [hmine]
      rfl
    rw [hexec _ (.inl rfl), hexec _ (.inl rfl), hexec _ (.inr rfl), State.wardenElect_none]
    refine ⟨fun h => ?_, fun h => ?_, fun hprio hnone => ?_, fun hsome => ?_, fun h => ?_, fun h => ?_⟩
    · rw [State.wardenElect_some, if_neg (fun hne => hne h)]; rfl
    · rw [State.wardenElect_some, if_pos h]
    · rw [if_pos (by simpa [hmine] using ⟨hprio, hnone⟩)]; rfl
    · rw [if_neg]
      intro hall
      simp only [Bool.and_eq_true, decide_eq_true_eq, List.all_eq_true, hmine] at hall
      obtain hprio | ⟨n, hn, hne⟩ := hsome
      · exact hprio hall.1
      · exact hne (hall.2 n hn)
    · rw [State.wardenElect_behind (by rwa [← Bool.not_eq_true, hleads])]
    · intro n numbers
      have hlead := hleads.mpr h
      refine ⟨fun hrole => ?_, fun hrole hf => ?_, fun hrole f hf hgroup => ?_⟩
      · rw [State.wardenElect_back hlead hrole]; rfl
      · rw [State.wardenElect_new hlead hrole hf]; rfl
      · rw [State.wardenElect_member hlead hrole hf hgroup]; rfl
  case assign =>
    exact ⟨fun hk => State.assignNeighbour_keeps hn hg hk, fun hk => State.assignNeighbour_gives hn hg hk⟩
  case passed =>
    refine ⟨fun hbad => ?_, fun hgood hd hown => ?_, fun hgood hd hown hrole => ?_, fun hgood hd hown hrole haux => ?_⟩ <;>
      refine exec_mgmt_passed hp hk hc ?_
    · exact State.passOn_bad hbad s
    · exact State.passOn_transit hgood hd hown
    · exact State.passOn_back hgood hd hown hrole
    · exact State.passOn_proxy hgood hd hown hrole haux
  case served =>
    have hnone := State.passOn_here hgood hhere
    refine ⟨fun hrec => ?_, fun hrec => ?_⟩
    · have hexec : exec (.mgmtRead p k) s = .next (s.seal (s.mgmtRead p k)) := done_packetIn hp hk hrec _
      refine ⟨fun hsrc => hexec.trans ?_, fun hsrc hbad => hexec.trans ?_, fun hsrc hok => hexec.trans ?_⟩
      · rw [State.mgmtRead_denied hnone hsrc]; rfl
      · rw [State.mgmtRead_invalid hnone hsrc hbad]
      · rw [State.mgmtRead_done hnone hsrc hok]; rfl
    · have hexec : exec (.mgmtWrite p k) s = .next (s.seal (s.mgmtWrite bus p k)) := done_packetIn hp hk hrec _
      have hlen := Packet.payload_length hk hrec.1
      refine ⟨fun hbad hsrc => hexec.trans ?_, fun hok hno => hexec.trans ?_, fun hok hall => hexec.trans ?_⟩
      · rw [State.mgmtWrite_invalid hnone hsrc hbad]
      · rw [State.mgmtWrite_denied hnone hok hlen hno]; rfl
      · rw [State.mgmtWrite_done hnone hok hlen hall]; rfl
  case answered =>
    have hexec : exec (.mgmtRsp p k) s = .next (s.seal (s.mgmtRsp p k)) := done_packetIn hp hk hrec _
    rw [hexec]
    refine ⟨fun x hx => ?_, fun hx hd hown => ?_, fun hx hd hown hrole => ?_, fun hx h => ?_⟩
    · rw [State.mgmtRsp_proxied hgood p hx]
    · rw [State.mgmtRsp_transit hgood p hx hd hown]
    · rw [State.mgmtRsp_back hgood p hx hd hown hrole]
    · rw [State.mgmtRsp_here hgood p hx h]
  case event =>
    have hexec : exec (.linkEvent p) s = .next (s.seal (s.linkEvent p)) := done_of (by simp [okPort, hp]) s _
    rw [hexec]
    exact ⟨fun h => by rw [State.linkEvent_none h], fun h => by rw [State.linkEvent_due h]; rfl⟩
  case swap =>
    have hexec : exec (.routeSwap m) s = .next (s.seal (t.routeSwap).acked) := by
      rw [← State.regDo_of hreach (fun s => s.routeSwap)]
      exact done_of (by simp [okMaster, hm]) s _
    rw [hexec]
    refine ⟨fun h => ?_, fun h => ?_⟩
    · rw [State.routeSwap_busy h]
    · rw [State.routeSwap_idle h]
      exact ⟨fun hrole => by rw [if_neg hrole], fun hrole => by rw [if_pos hrole]; rfl⟩

end Sys2Proof.Machine
end

section
/-! SEGMENT_REPLACE refuses a stored form that R195 to R206 do not allow, whatever values it holds. -/

namespace Sys2Proof.Machine

/-- A stored form that is neither raw nor well-formed frames is not taken (R195, R197, R200, R206). -/
theorem State.segReplace_illFormed {s : State} {id c g codec at' : Nat} {stored : List Byte} {t : Table} {v : Seg} {k : ColSeg}
    (ht : s.table id = some t) (hv : t.seg g = some v) (hk : v.cols[c + 2]? = some k)
    (hform : s.storedFormOk v (t.fmts.getD c 0) { k with dpa := at', len := stored.length, codec := codec } stored = false) :
    s.segReplace id c g codec at' stored = s := by
  unfold State.segReplace
  rw [ht]
  simp only [hv, hk, Option.map_some, Option.bind_some]
  split
  · rfl
  · split
    · rfl
    · exact if_pos (by rw [hform]; simp)

/-- Where the stored form of user column `c` of segment `g` lies. -/
def State.partDpa (s : State) (id g c : Nat) : Option Nat :=
  ((s.table id).bind (fun t => (t.seg g).bind (fun v => v.cols[c + 2]?))).map (·.dpa)

/-! The counterexample: a segment of single bytes whose raw part has one byte, so that the one byte again is a form of the same values,
and yet not a raw form of 65,536 rows. -/

/-- A raw part of the one byte at the start of HBM. -/
def shortPart : ColSeg := ⟨0, 1, 0, none, 0, []⟩

/-- A sealed segment: INS, DEL and one user column. -/
def shortSeg : Seg := ⟨some 1, 65536, true, [shortPart, shortPart, shortPart]⟩

/-- A table of that segment; it is not created yet, so it has no descriptors in HBM. -/
def shortTable : Table := ⟨[0], never, never, 65536, 0, false, none, false, none, 0, 0, [], [(0, some shortSeg)], [], []⟩

/-- The block after reset with domains 1 to 16 on and the table as number 5. -/
def shortStore : State :=
  { State.reset with regs := (List.range 16).map (fun d => (Reg.STY_DOM_STATUS (d + 1), 0)), tables := [(5, some shortTable)] }

/-- The block once the part has been read. -/
def shortRead : State := (shortStore.readPart (Mid.headstock 0) 65536 0 shortPart []).2

/-- The block as the statement has it after the replacement. -/
def shortMoved : State :=
  let wrote := hdsThen (St.ok, (shortRead.partValues shortTable 0 0).2) 64 [0]
  let d := wrote.2.digestPart (shortTable.fmts.getD 0 0)
    { shortPart with dpa := 64, len := List.length (α := Byte) [0], codec := BitVec.toNat (0 : BitVec 64) }
  d.2.changeTable 5 (shortTable.setSeg 0 (some { shortSeg with cols := shortSeg.cols.set (0 + 2) d.1 }))

theorem shortStore_catalogHeld : shortStore.catalogHeld = false := by decide +kernel

theorem except_eq_ok_of_toOption {ε α : Type} {e : Except ε α} {a : α} (h : e.toOption = some a) : e = .ok a := by
  cases e with
  | error x => cases h
  | ok b => exact congrArg Except.ok (Option.some.inj h)

theorem shortStore_readPart :
    shortStore.readPart (Mid.headstock 0) 65536 0 shortPart [] = (.ok ([0], [], false), shortRead) := by
  have gives : (shortStore.readPart (Mid.headstock 0) 65536 0 shortPart []).1.toOption = some ([0], [], false) := by decide +kernel
  exact Prod.ext (except_eq_ok_of_toOption gives) rfl

theorem shortRead_partValues : (shortRead.partValues shortTable 0 0).1 = some [0] := by decide +kernel

theorem shortRead_writes : (hdsThen (St.ok, (shortRead.partValues shortTable 0 0).2) 64 [0]).1 = St.ok := by decide +kernel

theorem shortStore_keeps_dpa : (shortStore.seal shortStore).partDpa 5 0 0 = some 0 := by decide +kernel

theorem shortMoved_dpa : (shortStore.seal shortMoved).partDpa 5 0 0 = some 64 := by decide +kernel

theorem exec_segmentReplace_short : exec (.segmentReplace 5 0 0 0 [0] 64) shortStore = .next (shortStore.seal shortStore) := by
  have hkeep : shortStore.segReplace 5 0 0 0 64 [0] = shortStore :=
    State.segReplace_illFormed (t := shortTable) (v := shortSeg) (k := shortPart) rfl rfl rfl (by decide +kernel)
  have hexec : exec (.segmentReplace 5 0 0 0 [0] 64) shortStore =
      .next (shortStore.seal (if shortStore.catalogHeld then shortStore else shortStore.segReplace 5 0 0 0 64 [0])) :=
    done_of (by decide) _ _
  rw [hexec, shortStore_catalogHeld, if_neg Bool.false_ne_true, hkeep]

/-- Refutes O12: the statement asks of a new stored form only that it holds the same values at a 64-byte boundary, and the model also
that it is raw with every row or well-formed frames (R195, R197, R200, R206). In `shortStore` the form `[0]` has the values of the
part and one byte; the statement moves the part to 64, and SEGMENT_REPLACE leaves it at 0. -/
theorem not_storageIsReclaimedAndReplacedUnderNoReader : ¬ Obligations.StorageIsReclaimedAndReplacedUnderNoReader := by
  rintro ⟨-, replaces⟩
  obtain ⟨-, ofTable⟩ :=
    replaces shortStore 5 0 0 64 0 [0] (by decide) (by decide) (by decide) (by decide) shortStore_catalogHeld
  obtain ⟨-, ofSegment⟩ := ofTable shortTable rfl
  obtain ⟨-, ofSealed⟩ := ofSegment shortSeg shortPart rfl rfl
  obtain ⟨-, taken⟩ := ofSealed (by decide) rfl (by decide) [0] [] false shortRead shortStore_readPart
  have raw : fmtNullable (shortTable.fmts.getD 0 0) = false := rfl
  simp only [raw, Bool.false_eq_true, if_false] at taken
  have holds := shortRead_partValues
  have moved : exec (.segmentReplace 5 0 0 0 [0] 64) shortStore = .next (shortStore.seal shortMoved) :=
    taken ⟨holds ▸ Option.some_ne_none _, holds.symm, trivial⟩ shortRead_writes
  rw [exec_segmentReplace_short] at moved
  have same : some 0 = some 64 :=
    calc some 0 = (shortStore.seal shortStore).partDpa 5 0 0 := shortStore_keeps_dpa.symm
      _ = (shortStore.seal shortMoved).partDpa 5 0 0 := congrArg (State.partDpa · 5 0 0) (Host.Outcome.next.inj moved)
      _ = some 64 := shortMoved_dpa
  exact absurd same (by decide)

end Sys2Proof.Machine
end

section
/-! The sinks of a RUN (R166, R167): a message that reaches a sink of a RUN that ends is dropped, any other is written, and credit goes
back or the RUN ends. -/

namespace Sys2Proof.Machine

/-- The next byte of the buffer of host sink `k`, counted from its first (R166). -/
def Run.sinkNext (r : Run) (k : Nat) : Nat := FMap.getD r.sinks k

/-- How many elements of a message the buffer of its host sink still holds (R166). -/
def Run.sinkLeft (r : Run) (m : NocMsg) : Nat :=
  (fieldLE r.block (0x48 + 16 * (m.tile % 16)) 8 - r.sinkNext (m.tile % 16)) / m.eb

/-- The RUN once its host sink has taken the message of `sender`: the bytes that fit are counted, and the sink is the sender's until
the last message of its VSEND. -/
def Run.sinkTook (r : Run) (m : NocMsg) (sender : Nat) (es : List Nat) (last : Bool) : Run :=
  let k := m.tile % 16
  { r with
    sinks := FMap.setD r.sinks k (r.sinkNext k + m.eb * (es.take (r.sinkLeft m)).length)
    owner := FMap.setD r.owner k (if last then none else some sender) }

/-- The elements that fit go to the buffer's next bytes, and the RUN becomes `r'`. -/
def State.sinkPut (u : State) (tag : Nat) (c : Cmd) (r r' : Run) (m : NocMsg) (es : List Nat) (bad : Bool) : State :=
  (u.hostPut c (fieldLE r.block (0x40 + 16 * (m.tile % 16)) 8 + r.sinkNext (m.tile % 16))
    ((es.take (r.sinkLeft m)).flatMap (natLE m.eb)) bad).setRun tag (some r')

section
variable {s u : State} {t ch tag : Nat} {far : Option NocMsg} {m : NocMsg} {r : Run}

theorem State.hostSink_ending (htake : s.sinkTake 2 t ch far = some (m, u)) (hrun : s.runOfTile t = some (tag, r)) {x : Nat}
    (hend : r.phase = .ending x) (sent : Bool) (payload : Ecc) : s.hostSink t ch far sent payload = u := by
  unfold State.hostSink
  rw [htake, hrun]
  dsimp only
  rw [hend]

theorem State.columnSink_ending (htake : s.sinkTake 3 t ch far = some (m, u)) (hrun : s.runOfTile t = some (tag, r)) {x : Nat}
    (hend : r.phase = .ending x) (payload : Ecc) : s.columnSink t ch far payload = u := by
  unfold State.columnSink
  rw [htake, hrun]
  dsimp only
  rw [hend]

section
variable {c : Cmd} {payload : Ecc} {es : List Nat} {last bad : Bool}
  (htake : s.sinkTake 2 t ch far = some (m, u)) (hrun : s.runOfTile t = some (tag, r)) (hcmd : s.cmd tag = some c)
  (hbody : checkedBody payload m.body = .elems es last bad) (hlive : ∀ x, r.phase ≠ .ending x)
include htake hrun hcmd hlive

theorem State.hostSink_other_sender {o : Nat} (ho : FMap.getD r.owner (m.tile % 16) = some o) (hne : o ≠ 64 * t + ch) (sent : Bool)
    (payload : Ecc) : s.hostSink t ch far sent payload = s := by
  unfold State.hostSink
  rw [htake, hrun]
  dsimp only
  rw [hcmd, ho]
  split
  · next hend => exact absurd hend (hlive _)
  · rfl
  · exact if_pos (by simpa using hne)

include hbody

/-- A message whose sender may use the host sink: it is refused where the HLU cannot send or the function is not reached, else
written. -/
theorem State.hostSink_own_sender
    (ho : FMap.getD r.owner (m.tile % 16) = none ∨ FMap.getD r.owner (m.tile % 16) = some (64 * t + ch)) (sent : Bool) :
    s.hostSink t ch far sent payload =
      if !sent || !s.hostUp c.fn then u.runStop tag r St.accessDenied
      else
        let r' := r.sinkTook m (64 * t + ch) es last
        let w := u.sinkPut tag c r r' m es bad
        if r.sinkLeft m < es.length then w.runStop tag r' St.bufferOverflow
        else if bad then w.runStop tag r' St.poisonedData
        else w.sinkCredit t m es.length := by
  unfold State.hostSink
  rw [htake, hrun]
  dsimp only
  rw [hcmd]
  split
  · next hend => exact absurd hend (hlive _)
  · next hnone _ => cases hnone
  · next hsome _ =>
    cases hsome
    rw [if_neg (by rcases ho with ho | ho <;> simp [ho]), hbody]
    rfl

end

theorem State.columnSink_live {payload : Ecc} {es : List Nat} {last bad : Bool} (htake : s.sinkTake 3 t ch far = some (m, u))
    (hrun : s.runOfTile t = some (tag, r)) (hbody : checkedBody payload m.body = .elems es last bad)
    (hlive : ∀ x, r.phase ≠ .ending x) :
    s.columnSink t ch far payload =
      if bad then u.runStop tag r St.poisonedData
      else
        (u.setRun tag (some { r with
          columns := FMap.setD r.columns (m.tile % 4096) (FMap.getD r.columns (m.tile % 4096) ++ es) })).sinkCredit t m es.length := by
  unfold State.columnSink
  rw [htake, hrun]
  dsimp only
  rw [hbody]
  split
  · next hend => exact absurd hend (hlive _)
  · next heq _ => cases heq; rfl
  · next hno => exact absurd rfl (hno _ _ _)

end

theorem sinkOk {t ch : Nat} {far : Option NocMsg} (ht : t < 128) (hch : ch < 32) (hfar : okFar far = true) :
    (okTile t && decide (ch < 32) && okFar far) = true := by
  simp [okTile, ht, hch, hfar]

end Sys2Proof.Machine
end

section
/-! The commit point of a RUN (R167, R170): nothing happens before its last stage is over, and then it completes in one of five
ways. -/

namespace Sys2Proof.Machine

theorem tagOk {tag : Nat} (h : tag < 8448) : okTag tag = true := decide_eq_true h

theorem State.runDone_iff (s : State) (r : Run) :
    s.runDone r = true ↔
      r.stageOver = true ∧ nextStage (s.runImage r) r.stage = none ∧ ∀ i ∈ r.insts, i.fid = none → s.sinkPending i.tile = false := by
  simp [State.runDone, and_assoc]

/-- The bytes that the host sinks of a RUN have taken, as its result holds them (R272). -/
def Run.sinkBytes (r : Run) : Nat := (r.sinks.map (·.2)).foldl (· + ·) 0 % 2 ^ 40

/-- The rows of column 0 of a RUN's output. -/
def Run.rows (r : Run) : Nat := (FMap.getD r.columns 0).length

/-- Every column of the output has the rows of column 0 (R167). -/
def Run.even (r : Run) (img : List Byte) : Prop := ∀ k < (imgColumns img).length, (FMap.getD r.columns k).length = r.rows

section
variable {s : State} {tag : Nat} {r : Run} {c : Cmd} (hrun : s.run tag = some r) (hcmd : s.cmd tag = some c)
include hrun

theorem exec_runCommit (htag : tag < 8448) (hfree : imgTableOut (s.runImage r) = false ∨ s.catalogHeld = false) (room : Option Room) :
    exec (.runCommit tag room) s = .next (s.seal (s.runCommit tag room)) := by
  have hgo : (s.runTableOut tag && s.catalogHeld) = false := by
    rw [State.runTableOut, hrun, Bool.and_eq_false_iff]
    exact hfree
  have hexec : exec (.runCommit tag room) s =
      .next (s.seal (if s.runTableOut tag && s.catalogHeld then s else s.runCommit tag room)) :=
    done_of (tagOk htag) s _
  rw [hexec, hgo, if_neg Bool.false_ne_true]

include hcmd

theorem State.runCommit_early (h : s.runDone r = false) (room : Option Room) : s.runCommit tag room = s := by
  unfold State.runCommit
  rw [hrun, hcmd]
  exact if_pos (by simp [h])

section
variable (hdone : s.runDone r = true)
include hdone

/-- A part of another node's RUN ends OK (R171). -/
theorem State.runCommit_part (htag : 8192 ≤ tag) (room : Option Room) : s.runCommit tag room = s.runOver tag St.ok 0 := by
  unfold State.runCommit
  rw [hrun, hcmd]
  dsimp only
  rw [if_neg (by simp [hdone]), if_pos htag]

section
variable (htag : tag < 8192)
include htag

theorem State.runCommit_no_table (hout : imgTableOut (s.runImage r) = false) (room : Option Room) :
    s.runCommit tag room = (s.setStage tag .committed).runOver tag St.ok r.sinkBytes := by
  unfold State.runCommit
  rw [hrun, hcmd]
  dsimp only
  rw [if_neg (by simp [hdone]), if_neg (by omega), if_pos (by simp [hout])]
  rfl

section
variable (hout : imgTableOut (s.runImage r) = true)
include hout

theorem State.runCommit_table (room : Option Room) :
    s.runCommit tag room =
      if (List.range (imgColumns (s.runImage r)).length).any (fun k => (FMap.getD r.columns k).length ≠ r.rows) then
        s.runOver tag St.lengthMismatch 0
      else
        match room with
        | none => s.runOver tag St.tableFull 0
        | some a =>
          if (s.publishOut c r a tag).1 = St.held then s
          else (s.publishOut c r a tag).2.runOver tag (s.publishOut c r a tag).1
            (if (s.publishOut c r a tag).1 = St.ok then r.rows else 0) := by
  unfold State.runCommit
  rw [hrun, hcmd]
  dsimp only
  rw [if_neg (by simp [hdone]), if_neg (by omega)]
  exact if_neg (by simp [hout])

theorem State.runCommit_uneven (h : ¬ r.even (s.runImage r)) (room : Option Room) :
    s.runCommit tag room = s.runOver tag St.lengthMismatch 0 := by
  rw [State.runCommit_table hrun hcmd hdone htag hout]
  exact if_pos (by simpa [Run.even] using h)

section
variable (heven : r.even (s.runImage r))
include heven

theorem State.runCommit_no_room : s.runCommit tag none = s.runOver tag St.tableFull 0 := by
  rw [State.runCommit_table hrun hcmd hdone htag hout]
  exact if_neg (by simpa [Run.even] using heven)

theorem State.runCommit_published {a : Room} (hheld : (s.publishOut c r a tag).1 ≠ St.held) :
    s.runCommit tag (some a) = (s.publishOut c r a tag).2.runOver tag (s.publishOut c r a tag).1
      (if (s.publishOut c r a tag).1 = St.ok then r.rows else 0) := by
  rw [State.runCommit_table hrun hcmd hdone htag hout, if_neg (by simpa [Run.even] using heven)]
  exact if_neg hheld

end
end
end
end
end

/-- Settles O28: a sink's message is dropped, left for its sender's turn, refused or written; a RUN's commit is one of the cases of
R170. -/
theorem sinksDeliverAndRunsCommit : Obligations.SinksDeliverAndRunsCommit := by
  refine ⟨fun s t ch far payload ht hch hfar => ⟨?hostSink, ?columnSink⟩, ?commit⟩
  case hostSink =>
    intro m u tag r c es last bad htake hrun hcmd hbody
    have hexec (sent : Bool) :
        exec (.hostSinkWrite t ch far sent payload) s = .next (s.seal (s.hostSink t ch far sent payload)) :=
      done_of (sinkOk ht hch hfar) s _
    refine ⟨fun x hend sent => ?_, fun hlive => ⟨fun o ho hne sent => ?_, fun ho => ⟨fun sent hno => ?_, fun hup => ?_⟩⟩⟩
    · rw [hexec, State.hostSink_ending htake hrun hend]
    · rw [hexec, State.hostSink_other_sender htake hrun hcmd hlive ho hne]
    · rw [hexec, State.hostSink_own_sender htake hrun hcmd hbody hlive ho, if_pos (by simpa using hno)]
    · have hwrites := State.hostSink_own_sender htake hrun hcmd hbody hlive ho true
      rw [if_neg (by simp [hup])] at hwrites
      rw [hexec, hwrites]
      refine ⟨fun hfull => ?_, fun hroom hbad => ?_, fun hroom hgood => ?_⟩
      · rw [if_pos (show r.sinkLeft m < es.length from hfull)]
        rfl
      · rw [if_neg (show ¬ r.sinkLeft m < es.length from Nat.not_lt.mpr hroom), if_pos hbad]
        rfl
      · rw [if_neg (show ¬ r.sinkLeft m < es.length from Nat.not_lt.mpr hroom), if_neg (by simp [hgood])]
        rfl
  case columnSink =>
    intro m u tag r es last bad htake hrun hbody
    have hexec : exec (.columnSinkWrite t ch far payload) s = .next (s.seal (s.columnSink t ch far payload)) :=
      done_of (sinkOk ht hch hfar) s _
    refine ⟨fun x hend => ?_, fun hlive => ?_⟩
    · rw [hexec, State.columnSink_ending htake hrun hend]
    · rw [hexec, State.columnSink_live htake hrun hbody hlive]
      exact ⟨fun hbad => by rw [if_pos hbad], fun hgood => by rw [if_neg (by simp [hgood])]⟩
  case commit =>
    intro s tag r c room htag hrun hcmd img hfree finished rows even
    have hdone : s.runDone r = true ↔ finished := s.runDone_iff r
    rw [exec_runCommit hrun htag hfree]
    refine ⟨fun hno => ?_, fun hfin hpart => ?_, fun hfin hown => ⟨fun hout => ?_, fun hout hun => ?_, fun hout hev => ⟨?_, ?_⟩⟩⟩
    · rw [State.runCommit_early hrun hcmd (Bool.eq_false_iff.mpr (mt hdone.mp hno))]
    · rw [State.runCommit_part hrun hcmd (hdone.mpr hfin) hpart]
    · rw [State.runCommit_no_table hrun hcmd (hdone.mpr hfin) hown hout]
      rfl
    · rw [State.runCommit_uneven hrun hcmd (hdone.mpr hfin) hown hout hun]
    · rintro rfl
      rw [State.runCommit_no_room hrun hcmd (hdone.mpr hfin) hown hout hev]
    · rintro a rfl hheld
      rw [State.runCommit_published hrun hcmd (hdone.mpr hfin) hown hout hev hheld]
      rfl

end Sys2Proof.Machine
end

section
/-! LOAD and PATCH stage their rows, and pass their commit point (R54, R267 to R270). -/

namespace Sys2Proof.Machine

/-! What a directory and its columns bring (R267). -/

/-- The FORMATs that a directory of `n` columns gives. -/
def dirFormats (b : List Byte) (n : Nat) : List Nat := (List.range n).map (fun i => fieldLE b (16 * i + 12) 4)

/-- The FORMATs suit the table: those of a table that is made may define its columns, any other's are its own. -/
def State.formatsFit (s : State) (made : Bool) (old fs : List Nat) (n : Nat) : Bool :=
  if made then fs.zipIdx.all (fun p => fmtOk s.rev21 n p.2 p.1) else fs = old

theorem State.formatsFit_iff (s : State) (made : Bool) (old fs : List Nat) (n : Nat) :
    s.formatsFit made old fs n = true ↔ if made then (fs.zipIdx.all (fun p => fmtOk s.rev21 n p.2 p.1)) = true else fs = old := by
  cases made <;> simp [State.formatsFit]

section
variable {b : List Byte} {n : Nat}

theorem State.columnsIn_short (h : b.length < 16 * n) (s : State) (made : Bool) (old : List Nat) (rows : Nat) (cols : List HostRead) :
    s.columnsIn made old n rows (.data b) cols = .error St.lengthMismatch := by
  unfold State.columnsIn
  exact if_pos h

section
variable (hlen : 16 * n ≤ b.length)
include hlen

theorem State.columnsIn_bad_format {s : State} {made : Bool} {old : List Nat} (h : s.formatsFit made old (dirFormats b n) n = false)
    (rows : Nat) (cols : List HostRead) : s.columnsIn made old n rows (.data b) cols = .error St.invalidField := by
  unfold State.columnsIn
  dsimp only
  rw [if_neg (Nat.not_lt.mpr hlen)]
  exact if_pos (by rw [Bool.not_eq_true']; exact h)

section
variable {s : State} {made : Bool} {old : List Nat} (hfit : s.formatsFit made old (dirFormats b n) n = true) {rows : Nat}
include hfit

theorem State.columnsIn_missized (h : ¬ ∀ p ∈ (dirFormats b n).zipIdx, fieldLE b (16 * p.2 + 8) 4 = colBytes p.1 rows)
    (cols : List HostRead) : s.columnsIn made old n rows (.data b) cols = .error St.lengthMismatch := by
  unfold State.columnsIn
  dsimp only
  rw [if_neg (Nat.not_lt.mpr hlen), if_neg (by rw [Bool.not_eq_true', Bool.not_eq_false]; exact hfit)]
  exact if_pos (by simpa [dirFormats] using h)

section
variable (hsize : ∀ p ∈ (dirFormats b n).zipIdx, fieldLE b (16 * p.2 + 8) 4 = colBytes p.1 rows) {cols : List HostRead}
include hsize

theorem State.columnsIn_unread {e : Nat} (h : readCols rows (dirFormats b n) cols = .error e) :
    s.columnsIn made old n rows (.data b) cols = .error e := by
  unfold dirFormats at h
  unfold State.columnsIn
  dsimp only
  rw [if_neg (Nat.not_lt.mpr hlen), if_neg (by rw [Bool.not_eq_true', Bool.not_eq_false]; exact hfit),
    if_neg (by simpa [dirFormats] using hsize), h]

theorem State.columnsIn_read {ds : List ColData} (h : readCols rows (dirFormats b n) cols = .ok ds) :
    s.columnsIn made old n rows (.data b) cols = .ok (dirFormats b n, ds) := by
  unfold dirFormats at h
  unfold State.columnsIn
  dsimp only
  rw [if_neg (Nat.not_lt.mpr hlen), if_neg (by rw [Bool.not_eq_true', Bool.not_eq_false]; exact hfit),
    if_neg (by simpa [dirFormats] using hsize), h]
  rfl

end
end

end
end

/-! LOAD's staging phase. -/

theorem exec_load {tag : Nat} (h : tag < 8448) (dir : HostRead) (cols : List HostRead) (room : Option Room) (s : State) :
    exec (.load tag dir cols room) s = .next (s.seal (s.loadCmd tag dir cols room)) := done_of (tagOk h) s _

theorem exec_patch {tag : Nat} (h : tag < 8448) (dir : HostRead) (cols : List HostRead) (room : Option Room) (s : State) :
    exec (.patch tag dir cols room) s = .next (s.seal (s.patchCmd tag dir cols room)) := done_of (tagOk h) s _

theorem exec_loadPublishPhase {tag : Nat} (h : tag < 8448) (s : State) :
    exec (.loadPublishPhase tag) s = .next (s.seal (s.publishPhase tag)) := done_of (tagOk h) s _

/-- No command of tag `tag` and opcode `op` stands before its staging phase. -/
theorem filter_passed_none {o : Option Cmd} (h : ∀ c, o = some c → c.stage ≠ .passed) :
    o.filter (fun c => c.stage = .passed) = none := by
  rw [Option.filter_eq_none_iff]
  simpa using h

theorem filter_passed_some {o : Option Cmd} {c : Cmd} (h : o = some c) (hs : c.stage = .passed) :
    o.filter (fun c => c.stage = .passed) = some c := by
  rw [h]
  simp [hs]

theorem State.loadCmd_idle {s : State} {tag : Nat} (h : ∀ c, s.running? tag 0x41 = some c → c.stage ≠ .passed) (dir : HostRead)
    (cols : List HostRead) (room : Option Room) : s.loadCmd tag dir cols room = s := by
  unfold State.loadCmd
  rw [filter_passed_none h]

theorem State.patchCmd_idle {s : State} {tag : Nat} (h : ∀ c, s.running? tag 0x42 = some c → c.stage ≠ .passed) (dir : HostRead)
    (cols : List HostRead) (room : Option Room) : s.patchCmd tag dir cols room = s := by
  unfold State.patchCmd
  rw [filter_passed_none h]

section
variable {s : State} {tag : Nat} {c : Cmd} (hc : s.running? tag 0x41 = some c) (hs : c.stage = .passed)
include hc hs

theorem State.loadCmd_no_table (ht : s.table (c.arg 0x20 3) = none) (dir : HostRead) (cols : List HostRead) (room : Option Room) :
    s.loadCmd tag dir cols room = s.complete tag St.invalidField 0 := by
  unfold State.loadCmd
  rw [filter_passed_some hc hs]
  dsimp only
  rw [ht]

section
variable {t : Table} (ht : s.table (c.arg 0x20 3) = some t) {dir : HostRead} {cols : List HostRead}
include ht

theorem State.loadCmd_refused {e : Nat}
    (hr : s.columnsIn (c.flags.testBit 0) t.fmts (c.arg 0x30 2) c.count dir cols = .error e) (room : Option Room) :
    s.loadCmd tag dir cols room = (s.aerStatus c.fn e).complete tag e 0 := by
  unfold State.loadCmd
  rw [filter_passed_some hc hs]
  dsimp only
  rw [ht]
  dsimp only
  rw [hr]

theorem State.loadCmd_stages {fs : List Nat} {ds : List ColData}
    (hr : s.columnsIn (c.flags.testBit 0) t.fmts (c.arg 0x30 2) c.count dir cols = .ok (fs, ds)) (room : Option Room) :
    s.loadCmd tag dir cols room =
      s.stageRun tag c (if c.flags.testBit 0 then { t with fmts := fs } else t) (c.flags.testBit 0) ds room := by
  unfold State.loadCmd
  rw [filter_passed_some hc hs]
  dsimp only
  rw [ht]
  dsimp only
  rw [hr]

end
end

/-! PATCH's staging phase. -/

/-- Some row that a PATCH deletes is deleted already (R58, R270). -/
theorem deletes_twice_iff (c : Cmd) (t : Table) :
    (patchDeletes c t).any (fun r => t.delOf r ≠ never) = true ↔ ∃ r ∈ patchDeletes c t, t.delOf r ≠ never := by
  simp

section
variable {s : State} {tag : Nat} {c : Cmd} (hc : s.running? tag 0x42 = some c) (hs : c.stage = .passed)
include hc hs

theorem State.patchCmd_no_table (ht : s.table (c.arg 0x20 3) = none) (dir : HostRead) (cols : List HostRead) (room : Option Room) :
    s.patchCmd tag dir cols room = s.complete tag St.invalidField 0 := by
  unfold State.patchCmd
  rw [filter_passed_some hc hs]
  dsimp only
  rw [ht]

section
variable {t : Table} (ht : s.table (c.arg 0x20 3) = some t)
include ht

theorem State.patchCmd_drop (hdrop : c.flags.testBit 0 = true) (dir : HostRead) (cols : List HostRead) (room : Option Room) :
    s.patchCmd tag dir cols room = if t.drop = never then s.setStage tag .staged else s.complete tag St.invalidField 0 := by
  unfold State.patchCmd
  rw [filter_passed_some hc hs]
  dsimp only
  rw [ht]
  exact if_pos hdrop

section
variable (hrows : c.flags.testBit 0 = false)
include hrows

theorem State.patchCmd_twice (h : ∃ r ∈ patchDeletes c t, t.delOf r ≠ never) (dir : HostRead) (cols : List HostRead)
    (room : Option Room) : s.patchCmd tag dir cols room = s.complete tag St.invalidField 0 := by
  unfold State.patchCmd
  rw [filter_passed_some hc hs]
  dsimp only
  rw [ht]
  dsimp only
  rw [if_neg (by simp [hrows]), if_pos ((deletes_twice_iff c t).mpr h)]

section
variable (hfresh : ¬ ∃ r ∈ patchDeletes c t, t.delOf r ≠ never)
include hfresh

/-- A PATCH that only deletes reads no directory. -/
theorem State.patchCmd_no_rows (hcount : c.count = 0) (dir : HostRead) (cols : List HostRead) (room : Option Room) :
    s.patchCmd tag dir cols room = s.stageRun tag c t false [] room := by
  unfold State.patchCmd
  rw [filter_passed_some hc hs]
  dsimp only
  rw [ht]
  dsimp only
  rw [if_neg (by simp [hrows]), if_neg (mt (deletes_twice_iff c t).mp hfresh), if_pos hcount]

section
variable (hcount : c.count ≠ 0) {dir : HostRead} {cols : List HostRead}
include hcount

theorem State.patchCmd_refused {e : Nat} (hr : s.columnsIn false t.fmts (c.arg 0x30 2) c.count dir cols = .error e)
    (room : Option Room) : s.patchCmd tag dir cols room = (s.aerStatus c.fn e).complete tag e 0 := by
  unfold State.patchCmd
  rw [filter_passed_some hc hs]
  dsimp only
  rw [ht]
  dsimp only
  rw [if_neg (by simp [hrows]), if_neg (mt (deletes_twice_iff c t).mp hfresh), if_neg hcount, hr]

theorem State.patchCmd_stages {fs : List Nat} {ds : List ColData}
    (hr : s.columnsIn false t.fmts (c.arg 0x30 2) c.count dir cols = .ok (fs, ds)) (room : Option Room) :
    s.patchCmd tag dir cols room = s.stageRun tag c t false ds room := by
  unfold State.patchCmd
  rw [filter_passed_some hc hs]
  dsimp only
  rw [ht]
  dsimp only
  rw [if_neg (by simp [hrows]), if_neg (mt (deletes_twice_iff c t).mp hfresh), if_neg hcount, hr]

end
end

end
end
end

/-! The staging of rows. -/

/-- The room that a command stages in: one that brings no row and makes no table needs none. -/
def stageRoom (c : Cmd) (made : Bool) (room : Option Room) : Option Room :=
  if c.count = 0 && !made then some ⟨0, 0, 0⟩ else room

/-- The table as it is staged: one that is made has its descriptor where the room says (R61). -/
def Table.placed (t : Table) (made : Bool) (m : Room) : Table := if made then { t with at' := m.catalog } else t

section
variable {s : State} {tag : Nat} {c : Cmd} {t : Table} {made : Bool} {room : Option Room}

theorem State.stageRun_no_room (hroom : stageRoom c made room = none) (ds : List ColData) :
    s.stageRun tag c t made ds room = s.complete tag St.tableFull 0 := by
  unfold stageRoom at hroom
  unfold State.stageRun
  dsimp only
  rw [hroom]

theorem State.stageRun_room {m : Room} (hroom : stageRoom c made room = some m) (ds : List ColData) :
    s.stageRun tag c t made ds room =
      if !roomAligned m then s
      else if !s.roomMirrored (t.placed made m) m c.first c.count then s.complete tag St.tableFull 0
      else if s.plateOf (c.arg 0x20 3) (t.placed made m) && s.overPlate ((t.placed made m).growth c.first c.count) then
        s.complete tag St.tableFull 0
      else
        let staged := s.stageRows m (c.arg 0x20 3) (t.placed made m) c.first c.count ds
        if staged.1 = St.held then s
        else if staged.1 ≠ St.ok then staged.2.complete tag staged.1 0
        else staged.2.setCmd tag (some { c with stage := .staged, room := if made then m.catalog + 64 else m.catalog }) := by
  unfold stageRoom at hroom
  unfold State.stageRun
  dsimp only
  rw [hroom]
  rfl

section
variable {m : Room} (hroom : stageRoom c made room = some m) {ds : List ColData}
include hroom

theorem State.stageRun_unaligned (hal : roomAligned m = false) : s.stageRun tag c t made ds room = s :=
  (State.stageRun_room hroom ds).trans (if_pos (by simp [hal]))

section
variable (hal : roomAligned m = true)
include hal

theorem State.stageRun_unmirrored (hmir : s.roomMirrored (t.placed made m) m c.first c.count = false) :
    s.stageRun tag c t made ds room = s.complete tag St.tableFull 0 := by
  rw [State.stageRun_room hroom, if_neg (by simp [hal])]
  exact if_pos (by simp [hmir])

section
variable (hmir : s.roomMirrored (t.placed made m) m c.first c.count = true)
include hmir

theorem State.stageRun_over_plate (hplate : s.plateOf (c.arg 0x20 3) (t.placed made m) = true)
    (hover : s.overPlate ((t.placed made m).growth c.first c.count) = true) :
    s.stageRun tag c t made ds room = s.complete tag St.tableFull 0 := by
  rw [State.stageRun_room hroom, if_neg (by simp [hal]), if_neg (by simp [hmir])]
  exact if_pos (by simp [hplate, hover])

theorem State.stageRun_writes {st : Nat} {u : State}
    (hfits : s.plateOf (c.arg 0x20 3) (t.placed made m) = false ∨ s.overPlate ((t.placed made m).growth c.first c.count) = false)
    (hrows : s.stageRows m (c.arg 0x20 3) (t.placed made m) c.first c.count ds = (st, u)) :
    s.stageRun tag c t made ds room =
      if st = St.held then s
      else if st ≠ St.ok then u.complete tag st 0
      else u.setCmd tag (some { c with stage := .staged, room := if made then m.catalog + 64 else m.catalog }) := by
  rw [State.stageRun_room hroom, if_neg (by simp [hal]), if_neg (by simp [hmir]), hrows]
  exact if_neg (Bool.eq_false_iff.mp (Bool.and_eq_false_iff.mpr hfits))

end
end
end
end

/-! LOAD_PUBLISH_PHASE. -/

/-- The command is a LOAD or PATCH that stands at its commit point (R54). -/
def Cmd.atCommit (c : Cmd) : Prop := (c.op = 0x41 ∨ c.op = 0x42) ∧ c.stage = .staged ∧ c.done = none

section
variable {s : State} {tag : Nat} {c : Cmd} (hcmd : s.cmd tag = some c)
include hcmd

theorem State.publishPhase_idle (h : ¬ c.atCommit ∨ s.catalogHeld = true) : s.publishPhase tag = s := by
  unfold State.publishPhase
  rw [hcmd, Option.filter_some]
  split
  · rfl
  · next hsome =>
    split at hsome
    · next hat =>
      have hat : c.atCommit := by simpa [Cmd.atCommit, and_assoc] using hat
      exact if_pos (h.resolve_left (fun hno => hno hat))
    · cases hsome

section
variable (hat : c.atCommit) (hfree : s.catalogHeld = false)
include hat hfree

theorem State.publishPhase_no_table (ht : s.table (c.arg 0x20 3) = none) : s.publishPhase tag = s.complete tag St.invalidField 0 := by
  obtain ⟨hop, hstage, hdone⟩ := hat
  unfold State.publishPhase
  rw [hcmd, Option.filter_some, if_pos (by simp [hop, hstage, hdone])]
  dsimp only
  rw [hfree, if_neg Bool.false_ne_true, ht]

theorem State.publishPhase_table {t : Table} (ht : s.table (c.arg 0x20 3) = some t) :
    s.publishPhase tag =
      let u := s.setStage tag .committed
      let id := c.arg 0x20 3
      let w := c.arg 0x28 8
      if c.op = 0x41 then
        (u.publishRows id (if c.flags.testBit 0 then { t with create := w } else t) w c.first c.count [] c.room false).complete tag
          St.ok c.first
      else if c.flags.testBit 0 then (u.changeTable id { t with drop := w }).complete tag St.ok 0xFFFFFFFFFFFF
      else
        (u.publishRows id t w c.first c.count (patchDeletes c t) c.room false).complete tag St.ok
          (if c.count = 0 then 0xFFFFFFFFFFFF else c.first) := by
  obtain ⟨hop, hstage, hdone⟩ := hat
  unfold State.publishPhase
  rw [hcmd, Option.filter_some, if_pos (by simp [hop, hstage, hdone])]
  dsimp only
  rw [hfree, if_neg Bool.false_ne_true, ht]

end
end

end Sys2Proof.Machine
end

section
/-! EXPORT (R271): the descriptors are checked, the rows are found, the columns are read, and the host gets them. -/

namespace Sys2Proof.Machine

/-- The columns that an EXPORT names. -/
def Cmd.exportCols (c : Cmd) : List Nat := rangeFrom (bits (c.arg 0x38 4) 11 0) (bits (c.arg 0x38 4) 27 16 + 1)

/-- The segments of a table that the rows of an EXPORT lie in. -/
def Table.exportSegs (t : Table) (c : Cmd) : List Nat :=
  (t.segs.map (·.1)).filter (fun g => c.arg 0x30 6 < 65536 * (g + 1) && 65536 * g < c.arg 0x30 6 + c.arg 0x24 4)

/-- Those of them that are linked. -/
def Table.exportLinked (t : Table) (c : Cmd) : List Nat := (t.exportSegs c).filter (fun g => (t.seg g).any (·.link.isSome))

/-- The numbers of the rows that an EXPORT found, by segment and position. -/
def exportIds (ps : List (Nat × List Nat)) : List Nat := ps.flatMap (fun p => p.2.map (fun r => 65536 * p.1 + r))

/-- The header and the regions of an EXPORT go to the host. -/
def State.exportOut (v : State) (c : Cmd) (t : Table) (ps : List (Nat × List Nat)) (ds : List (List (List Byte) × List Bool × Bool)) :
    State :=
  (exportRegions (c.exportCols.map (fun k => t.fmts.getD k 0)) (c.arg 0x24 4)
      (if c.flags.testBit 1 then some (exportIds ps) else none) ds).foldl
    (fun y r => y.hostPut c (c.ptr + r.1) r.2.1 r.2.2)
    (v.hostPut c c.ptr (natLE 8 (exportIds ps).length ++ natLE 8 c.epoch ++ List.replicate 48 (0 : Byte)) false)

theorem exec_exportRows {tag : Nat} (h : tag < 8448) (s : State) :
    exec (.exportRows tag) s = .next (s.seal (s.exportTable tag)) := done_of (tagOk h) s _

theorem State.exportTable_idle {s : State} {tag : Nat} (h : s.running? tag 0x43 = none) : s.exportTable tag = s := by
  unfold State.exportTable
  rw [h]

section
variable {s : State} {tag : Nat} {c : Cmd} (hc : s.running? tag 0x43 = some c)
include hc

theorem State.exportTable_no_snap (h : c.snap = none) : s.exportTable tag = s.complete tag St.invalidField 0 := by
  unfold State.exportTable
  rw [hc]
  dsimp only
  rw [h]

section
variable {t : Table} (hsnap : c.snap = some t)
include hsnap

theorem State.exportTable_bad_desc {st : Nat} {u : State} (hd : s.checkDescs t c.exportCols (t.exportLinked c) = (st, u))
    (hst : st ≠ 0) : s.exportTable tag = if st = St.held then s else u.complete tag st 0 := by
  unfold Cmd.exportCols Table.exportLinked Table.exportSegs at hd
  unfold State.exportTable
  rw [hc]
  dsimp only
  rw [hsnap]
  dsimp only
  rw [hd]
  cases st with
  | zero => exact absurd rfl hst
  | succ n => rfl

section
variable {s0 : State} (hd : s.checkDescs t c.exportCols (t.exportLinked c) = (0, s0))
include hd

theorem State.exportTable_bad_rows {st : Nat} {u : State}
    (hr : s0.exportRows (s0.mapsNow (c.arg 0x20 3) t) c.epoch (c.arg 0x30 6) (c.arg 0x24 4) (t.exportSegs c) = (.error st, u)) :
    s.exportTable tag = if st = St.held then s else u.complete tag st 0 := by
  unfold Cmd.exportCols Table.exportLinked at hd
  unfold Table.exportSegs at hd hr
  unfold State.exportTable
  rw [hc]
  dsimp only
  rw [hsnap]
  dsimp only
  rw [hd]
  simp only
  rw [hr]

section
variable {ps : List (Nat × List Nat)} {u : State}
  (hr : s0.exportRows (s0.mapsNow (c.arg 0x20 3) t) c.epoch (c.arg 0x30 6) (c.arg 0x24 4) (t.exportSegs c) = (.ok ps, u))
include hr

theorem State.exportTable_bad_cols {st : Nat} {v : State}
    (hv : u.exportCols (s0.mapsNow (c.arg 0x20 3) t) ps c.exportCols = (.error st, v)) :
    s.exportTable tag = if st = St.held then s else v.complete tag st 0 := by
  unfold Table.exportLinked at hd
  unfold Table.exportSegs at hd hr
  unfold Cmd.exportCols at hd hv
  unfold State.exportTable
  rw [hc]
  dsimp only
  rw [hsnap]
  dsimp only
  rw [hd]
  simp only
  rw [hr]
  dsimp only
  rw [hv]

theorem State.exportTable_done {ds : List (List (List Byte) × List Bool × Bool)} {v : State}
    (hv : u.exportCols (s0.mapsNow (c.arg 0x20 3) t) ps c.exportCols = (.ok ds, v)) :
    s.exportTable tag =
      (v.exportOut c (s0.mapsNow (c.arg 0x20 3) t) ps ds).complete tag
        (if ds.any (fun d => d.2.2) then St.poisonedData else St.ok) (if ds.any (fun d => d.2.2) then 0 else (exportIds ps).length) := by
  unfold Table.exportLinked at hd
  unfold Table.exportSegs at hd hr
  unfold Cmd.exportCols at hd hv
  unfold State.exportTable
  rw [hc]
  dsimp only
  rw [hsnap]
  dsimp only
  rw [hd]
  simp only
  rw [hr]
  dsimp only
  rw [hv]
  rfl

end
end
end
end

end Sys2Proof.Machine
end

section
/-! PUBLISH_EPOCH and its withdraw form (R56, R57): the command names W, waits for earlier writers, and commits. -/

namespace Sys2Proof.Machine

theorem exec_publishEpoch {tag : Nat} (h : tag < 8448) (s : State) :
    exec (.publishEpoch tag) s = .next (s.seal (s.publishEpoch tag)) := done_of (tagOk h) s _

theorem exec_publishCommit {tag : Nat} (h : tag < 8448) (s : State) :
    exec (.publishCommit tag) s = .next (s.seal (s.publishCommit tag)) := done_of (tagOk h) s _

theorem exec_epochWithdraw {tag : Nat} (h : tag < 8448) (s : State) :
    exec (.epochWithdraw tag) s = .next (s.seal (s.epochWithdraw tag)) := done_of (tagOk h) s _

section
variable {s : State} {tag : Nat} {c : Cmd} (hc : s.running? tag 0x46 = some c)
include hc

/-! The withdraw form takes no part in steps 1 to 5 of R56, and the other form none in the reversal; each step of R56 is for its own
stage. -/

theorem State.publishEpoch_idle (h : c.flags.testBit 0 = true ∨ c.stage ≠ .passed) : s.publishEpoch tag = s := by
  unfold State.publishEpoch
  rw [hc, Option.filter_some, if_neg (by rcases h with h | h <;> simp [h])]

theorem State.publishCommit_idle (h : c.flags.testBit 0 = true ∨ c.stage ≠ .staged) : s.publishCommit tag = s := by
  unfold State.publishCommit
  rw [hc, Option.filter_some, if_neg (by rcases h with h | h <;> simp [h])]

theorem State.epochWithdraw_idle (h : c.flags.testBit 0 = false) : s.epochWithdraw tag = s := by
  unfold State.epochWithdraw
  rw [hc, Option.filter_some, if_neg (by simp [h])]

theorem State.publishEpoch_passed (hform : c.flags.testBit 0 = false) (hstage : c.stage = .passed) :
    s.publishEpoch tag =
      if s.publishWaits c then s
      else if c.arg 0x28 8 ≤ s.published then s.complete tag St.invalidField 0
      else s.setStage tag .staged := by
  unfold State.publishEpoch
  rw [hc, Option.filter_some, if_pos (by simp [hform, hstage])]

theorem State.epochWithdraw_named (hform : c.flags.testBit 0 = true) :
    s.epochWithdraw tag =
      if s.publishWaits c then s
      else if c.arg 0x28 8 ≤ s.published then s.complete tag St.invalidField 0
      else if s.writersBefore c (c.arg 0x28 8) || s.catalogHeld then s
      else ((s.setStage tag .committed).withdraw (c.arg 0x28 8)).complete tag St.ok s.published := by
  unfold State.epochWithdraw
  rw [hc, Option.filter_some, if_pos hform]

section
variable (hform : c.flags.testBit 0 = false) (hstage : c.stage = .staged)
include hform hstage

theorem State.publishCommit_waits
    (h : s.writersBefore c (c.arg 0x28 8) = true ∨ s.bit Reg.PLT_BANK_STATUS 0 = false ∨ s.catalogHeld = true) :
    s.publishCommit tag = s := by
  unfold State.publishCommit
  rw [hc, Option.filter_some, if_pos (by simp [hform, hstage])]
  exact if_pos (by simpa [or_assoc] using h)

section
variable (hwriters : s.writersBefore c (c.arg 0x28 8) = false) (hbank : s.bit Reg.PLT_BANK_STATUS 0 = true)
  (hfree : s.catalogHeld = false)
include hwriters hbank hfree

theorem State.publishCommit_alone (hrole : s.role ≠ some false) :
    s.publishCommit tag = ((s.setStage tag .committed).publish (c.arg 0x28 8)).complete tag St.ok (c.arg 0x28 8) := by
  unfold State.publishCommit
  rw [hc, Option.filter_some, if_pos (by simp [hform, hstage])]
  dsimp only
  rw [if_neg (by simp [hwriters, hbank, hfree])]
  exact if_pos hrole

theorem State.publishCommit_no_tag (hrole : s.role = some false) (htag : s.freeTag = none) : s.publishCommit tag = s := by
  unfold State.publishCommit
  rw [hc, Option.filter_some, if_pos (by simp [hform, hstage])]
  dsimp only
  rw [if_neg (by simp [hwriters, hbank, hfree]), if_neg (fun hne => hne hrole), htag]

/-- A FRONT sends the catalog's copy to its BACK under a transaction tag (R388, R402). -/
theorem State.publishCommit_front (hrole : s.role = some false) {t : Nat} (htag : s.freeTag = some t) :
    s.publishCommit tag =
      let v := (s.setStage tag .committed).publish (c.arg 0x28 8)
      State.openTx { v with sent := v.sent ++ [.catalogCopy t v.published v.floor v.catalogNow] } t 16 (.copy tag) := by
  unfold State.publishCommit
  rw [hc, Option.filter_some, if_pos (by simp [hform, hstage])]
  dsimp only
  rw [if_neg (by simp [hwriters, hbank, hfree]), if_neg (fun hne => hne hrole), htag]

end
end
end

/-- The answer to a catalog's copy completes its PUBLISH_EPOCH (R402). -/
theorem State.endTx_copy {s : State} {x : Tx} {tag : Nat} {c : Cmd} (hk : x.kind = .copy tag)
    (hcmd : (s.closeTx x.tag).cmd tag = some c) (b : Bus) (st : Nat) (data : List Byte) (bad : Bool) :
    s.endTx b x st data bad = (s.closeTx x.tag).complete tag st (c.arg 0x28 8) := by
  unfold State.endTx
  dsimp only
  rw [hk]
  dsimp only
  rw [hcmd]

theorem State.publish_no_tables {s : State} (h : s.tables = []) (w : Nat) :
    s.publish w = { s with published := w, floor := max s.floor (w - s.retain) } := by
  unfold State.publish
  dsimp only
  rw [h]
  rfl

theorem State.withdrawTable_created {t : Table} {w : Nat} (h : t.create = w) (s : State) (id : Nat) :
    s.withdrawTable w id t = s.setTable id none := by
  unfold State.withdrawTable
  exact if_pos h

end Sys2Proof.Machine
end

section
/-! PLATE_MARK (R68, R274) and the retirement of tiles (R486). -/

namespace Sys2Proof.Machine

theorem exec_plateMark {tag : Nat} (h : tag < 8448) (s : State) :
    exec (.plateMark tag) s = .next (s.seal (s.plateMark tag)) := done_of (tagOk h) s _

section
variable {s : State} {tag : Nat} {c : Cmd} (hc : s.running? tag 0x47 = some c)
include hc

theorem State.plateMark_held (h : s.catalogHeld = true) : s.plateMark tag = s := by
  unfold State.plateMark
  rw [hc]
  exact if_pos h

theorem State.plateMark_free (h : s.catalogHeld = false) :
    s.plateMark tag =
      if c.flags.testBit 2 then s.markSpace tag (c.arg 0x22 1) (bits c.flags 1 0 = 1)
      else s.markTable tag (c.arg 0x20 3) (if bits c.flags 1 0 = 2 then none else some (bits c.flags 1 0 = 1)) := by
  unfold State.plateMark
  rw [hc]
  exact if_neg (by simp [h])

end

theorem State.markTable_none {s : State} {id : Nat} (h : s.table id = none) (tag : Nat) (v : Option Bool) :
    s.markTable tag id v = s.complete tag St.invalidField 0 := by
  unfold State.markTable
  rw [h]

theorem State.markTable_some {s : State} {id : Nat} {t : Table} (h : s.table id = some t) (tag : Nat) (v : Option Bool) :
    s.markTable tag id v =
      let t' := { t with plate := v }
      if s.overPlate (if s.plateOf id t' && !s.plateOf id t then t.bytesHeld else 0) then s.complete tag St.tableFull 0
      else (s.changeTable id t').complete tag St.ok 0 := by
  unfold State.markTable
  rw [h]

/-- The tables of a space that follow its mark, having none of their own (R68). -/
def State.followers (s : State) (n : Nat) : List (Nat × Table) := (s.tablesOf n).filter (fun e => e.2.plate.isNone)

theorem State.markSpace_some {s : State} {n : Nat} {sp : Space} (h : FMap.getD s.spaces n = some sp) (tag : Nat) (on : Bool) :
    s.markSpace tag n on =
      if s.overPlate (if on && !sp.plate then ((s.followers n).map (fun e => e.2.bytesHeld)).foldl (· + ·) 0 else 0) then
        s.complete tag St.tableFull 0
      else
        ((s.followers n).foldl (fun (u : State) e => u.changeTable e.1 e.2)
          { s with spaces := FMap.setD s.spaces n (some { sp with plate := on }) }).complete tag St.ok 0 := by
  unfold State.markSpace
  rw [h]
  rfl

/-- Some tile of `v` that is not retired yet is not halted, or is held by a RUN (R486). -/
theorem State.retire_clash_iff (s : State) (v : Nat) (held : Nat → Bool) :
    (List.range 64).any (fun t => v.testBit t && !s.tileRetired t && (!s.halted t || held t)) = true ↔
      ∃ t, t < 64 ∧ v.testBit t = true ∧ s.tileRetired t = false ∧ (s.halted t = false ∨ held t = true) := by
  simp [and_assoc]

theorem exec_tileRetire {m : Nat} (h : m < 4096) (hi : Bool) (v : Word) (back : Bool) (s : State) :
    exec (.tileRetire m hi v back) s = .next (s.seal
      (if back then s.peerRetire (if hi then 2 ^ 32 * v.toNat else v.toNat) s.tileHeld
       else s.regPut m (if hi then Reg.GLB_TILE_RETIRED_HI else Reg.GLB_TILE_RETIRED_LO) v)) :=
  done_of (decide_eq_true h) s _

end Sys2Proof.Machine
end

section
/-! The data commands together (R54 to R71, R267 to R274, R486). -/

namespace Sys2Proof.Machine

/-- Settles O54: each command by the cases of its own lemmas above. -/
theorem dataCommandsStagePublishAndAnswer : Obligations.DataCommandsStagePublishAndAnswer := by
  refine ⟨fun s tag dir cols room htag => ⟨?loadIdle, ?patchIdle, ?load, ?patch, ?phase⟩, ?columns, ?staging, ?exported, ?publish,
    fun s x tag st c data bad hk hcmd => State.endTx_copy hk hcmd bus st data bad, ?tables, ?mark, ?space, ?retire, ?peer, ?clash⟩
  case loadIdle =>
    intro h
    rw [exec_load htag, State.loadCmd_idle h]
  case patchIdle =>
    intro h
    rw [exec_patch htag, State.patchCmd_idle h]
  case load =>
    intro c hc hs
    rw [exec_load htag]
    refine ⟨fun ht => ?_, fun t ht => ⟨fun e hr => ?_, fun fs ds hr => ?_⟩⟩
    · rw [State.loadCmd_no_table hc hs ht]
    · rw [State.loadCmd_refused hc hs ht hr]
    · rw [State.loadCmd_stages hc hs ht hr]
  case patch =>
    intro c hc hs
    rw [exec_patch htag]
    refine ⟨fun ht => ?_, fun t ht => ⟨fun hdrop hlive => ?_, fun hdrop hdead => ?_, fun hrows htwice => ?_,
      fun hrows honce => ⟨fun hcount => ?_, fun hcount => ⟨fun e hr => ?_, fun fs ds hr => ?_⟩⟩⟩⟩
    · rw [State.patchCmd_no_table hc hs ht]
    · rw [State.patchCmd_drop hc hs ht hdrop, if_pos hlive]
    · rw [State.patchCmd_drop hc hs ht hdrop, if_neg hdead]
    · rw [State.patchCmd_twice hc hs ht hrows htwice]
    · rw [State.patchCmd_no_rows hc hs ht hrows honce hcount]
    · rw [State.patchCmd_refused hc hs ht hrows honce hcount hr]
    · rw [State.patchCmd_stages hc hs ht hrows honce hcount hr]
  case phase =>
    intro c hcmd staged u w
    rw [exec_loadPublishPhase htag]
    refine ⟨fun h => ?_, fun hat hfree ht => ?_, fun t hat hfree ht => ?_⟩
    · rw [State.publishPhase_idle hcmd h]
    · rw [State.publishPhase_no_table hcmd hat hfree ht]
    · have hphase := State.publishPhase_table hcmd hat hfree ht
      have hload (hop : c.op = 0x42) : c.op ≠ 0x41 := by omega
      refine ⟨fun hop => ?_, fun hop hdrop => ?_, fun hop hrows => ?_⟩ <;> rw [hphase]
      · rw [if_pos hop]
      · rw [if_neg (hload hop), if_pos hdrop]
      · rw [if_neg (hload hop), if_neg (by simp [hrows])]
  case columns =>
    intro s made old n rows dir cols r
    refine ⟨?_, ?_, ?_, ?_⟩
    · rintro rfl; rfl
    · rintro rfl; rfl
    · rintro b rfl hshort
      exact State.columnsIn_short hshort ..
    · rintro b rfl hlen fs good sized
      have hgood : s.formatsFit made old (dirFormats b n) n = true ↔ good := s.formatsFit_iff made old (dirFormats b n) n
      exact ⟨fun hno => State.columnsIn_bad_format hlen (Bool.eq_false_iff.mpr (mt hgood.mp hno)) ..,
        fun hg hno => State.columnsIn_missized hlen (hgood.mpr hg) hno ..,
        fun e hg hs hread => State.columnsIn_unread hlen (hgood.mpr hg) hs hread,
        fun ds hg hs hread => State.columnsIn_read hlen (hgood.mpr hg) hs hread⟩
  case staging =>
    intro s tag c t made ds room r
    refine ⟨?_, fun m hm => ?_⟩
    · rintro rfl hneeds
      exact State.stageRun_no_room (if_neg (by rcases hneeds with h | h <;> simp [h])) ds
    · intro t'
      have hplaced : t' = t.placed made m := rfl
      clear_value t'
      subst hplaced
      have hroom : stageRoom c made room = some m := by
        obtain ⟨rfl, hneeds⟩ | ⟨rfl, hcount, hmade⟩ := hm
        · exact if_neg (by rcases hneeds with h | h <;> simp [h])
        · exact if_pos (by simp [hcount, hmade])
      refine ⟨fun hal => State.stageRun_unaligned hroom hal, fun hal hmir => State.stageRun_unmirrored hroom hal hmir,
        fun hal hmir hplate hover => State.stageRun_over_plate hroom hal hmir hplate hover,
        fun st u hal hmir hfits hrows => ?_⟩
      have hwrites := State.stageRun_writes (tag := tag) hroom hal hmir hfits hrows
      exact ⟨fun hheld => hwrites.trans (if_pos hheld), fun hnot hbad => hwrites.trans ((if_neg hnot).trans (if_pos hbad)),
        fun hok => hwrites.trans ((if_neg (fun hheld => absurd (hok.symm.trans hheld) (by decide))).trans (if_neg (fun hne => hne hok)))⟩
  case exported =>
    intro s tag htag runs
    refine ⟨fun hc => ?_, fun c hc hsnap => ?_, fun c t hc hsnap => ?_⟩
    · exact (exec_exportRows htag s).trans (by rw [State.exportTable_idle hc])
    · exact (exec_exportRows htag s).trans (by rw [State.exportTable_no_snap hc hsnap])
    · refine ⟨fun st u hd hst => ?_, ?_⟩
      · exact (exec_exportRows htag s).trans (by rw [State.exportTable_bad_desc hc hsnap hd hst])
      · rintro s0 _ hd rfl
        refine ⟨fun st u hr => ?_, fun ps u hr => ⟨fun st v hv => ?_, fun ds v hv => ?_⟩⟩
        · exact (exec_exportRows htag s).trans (by rw [State.exportTable_bad_rows hc hsnap hd hr])
        · exact (exec_exportRows htag s).trans (by rw [State.exportTable_bad_cols hc hsnap hd hr hv])
        · have hdone := State.exportTable_done hc hsnap hd hr hv
          refine ⟨fun hgood => ?_, fun hbad => ?_⟩ <;> refine (exec_exportRows htag s).trans ?_
          · have hany : ds.any (fun d => d.2.2) = false := by simpa using hgood
            rw [hdone, hany]
            rfl
          · have hany : ds.any (fun d => d.2.2) = true := by simpa using hbad
            rw [hdone, hany]
            rfl
  case publish =>
    intro s tag c htag hc w names commits reverses
    refine ⟨fun hform => ⟨?_, ?_, ?_⟩, fun hform => ⟨?_, fun hstage => ⟨?_, ?_⟩, fun hstage => ⟨?_, ?_, ?_⟩⟩⟩
    · exact (exec_publishEpoch htag s).trans (by rw [State.publishEpoch_idle hc (.inl hform)])
    · exact (exec_publishCommit htag s).trans (by rw [State.publishCommit_idle hc (.inl hform)])
    · have hexec := exec_epochWithdraw htag s
      rw [State.epochWithdraw_named hc hform] at hexec
      refine ⟨fun hwait => ?_, fun hturn hlow => ?_, fun hturn hhigh => ⟨fun hbusy => ?_, fun hidle hfree => ?_⟩⟩
      · exact hexec.trans (by rw [if_pos hwait])
      · exact hexec.trans (by rw [if_neg (by simp [hturn]), if_pos hlow])
      · exact hexec.trans (by rw [if_neg (by simp [hturn]), if_neg (Nat.not_le.mpr hhigh), if_pos (by simpa using hbusy)])
      · exact hexec.trans (by rw [if_neg (by simp [hturn]), if_neg (Nat.not_le.mpr hhigh), if_neg (by simpa [hfree] using hidle)])
    · exact (exec_epochWithdraw htag s).trans (by rw [State.epochWithdraw_idle hc hform])
    · exact (exec_publishCommit htag s).trans (by rw [State.publishCommit_idle hc (.inr (by simp [hstage]))])
    · have hexec := exec_publishEpoch htag s
      rw [State.publishEpoch_passed hc hform hstage] at hexec
      refine ⟨fun hwait => ?_, fun hturn hlow => ?_, fun hturn hhigh => ?_⟩
      · exact hexec.trans (by rw [if_pos hwait])
      · exact hexec.trans (by rw [if_neg (by simp [hturn]), if_pos hlow])
      · exact hexec.trans (by rw [if_neg (by simp [hturn]), if_neg (Nat.not_le.mpr hhigh)])
    · exact (exec_publishEpoch htag s).trans (by rw [State.publishEpoch_idle hc (.inr (by simp [hstage]))])
    · intro hwait
      exact (exec_publishCommit htag s).trans (by rw [State.publishCommit_waits hc hform hstage hwait])
    · intro hwriters hbank hfree v
      refine ⟨fun hrole => ?_, fun hrole hnone => ?_, fun hrole t hsome => ?_⟩ <;> refine (exec_publishCommit htag s).trans ?_
      · rw [State.publishCommit_alone hc hform hstage hwriters hbank hfree hrole]
      · rw [State.publishCommit_no_tag hc hform hstage hwriters hbank hfree hrole hnone]
      · rw [State.publishCommit_front hc hform hstage hwriters hbank hfree hrole hsome]
  case tables =>
    refine fun s w id t => ⟨fun h => ?_, fun h => State.withdrawTable_created h s id⟩
    rw [State.publish_no_tables h]
    exact ⟨rfl, rfl⟩
  case mark =>
    intro s tag c htag hc marks mode id n
    refine ⟨fun hheld => ?_, fun hfree hspace => ?_,
      fun hfree hone => ⟨fun ht => ?_, fun t ht => ⟨fun hover => ?_, fun hfits => ?_⟩⟩⟩ <;>
      refine (exec_plateMark htag s).trans ?_
    · rw [State.plateMark_held hc hheld]
    · rw [State.plateMark_free hc hfree, if_pos hspace]
    all_goals rw [State.plateMark_free hc hfree, if_neg (by simp [hone])]
    · rw [State.markTable_none ht]
    · rw [State.markTable_some ht]
      exact congrArg (fun u => Host.Outcome.next (s.seal u)) (if_pos hover)
    · rw [State.markTable_some ht]
      exact congrArg (fun u => Host.Outcome.next (s.seal u)) (if_neg (Bool.eq_false_iff.mp hfits))
  case space =>
    intro s tag n on sp hsp follow growth
    rw [State.markSpace_some hsp]
    exact ⟨fun hover => if_pos hover, fun hfits => if_neg (Bool.eq_false_iff.mp hfits)⟩
  case retire =>
    intro s t m hi v hm off hg ht
    rw [exec_tileRetire hm, if_neg Bool.false_ne_true, State.regPut_of hg ht]
  case peer =>
    intro s m hi v hm
    rw [exec_tileRetire hm, if_pos rfl]
  case clash =>
    intro s m v held clash
    have hclash := s.retire_clash_iff v held
    exact ⟨fun h => if_pos (hclash.mpr h), fun h => if_neg (mt hclash.mp h)⟩

end Sys2Proof.Machine
end

section
/-! How a tile's vector instruction completes, and what the elementwise operations, the compares and the configuration come to
where their words are legal (R105, R110 to R117). -/

namespace Sys2Proof.Machine

theorem isMajor_of {lo hi : Nat} {w : Word} (hlo : lo ≤ major w) (hhi : major w ≤ hi) : isMajor lo hi w = true := by
  simp [isMajor, hlo, hhi]

theorem isMajor_self {m : Nat} {w : Word} (h : major w = m) : isMajor m m w = true :=
  isMajor_of (Nat.le_of_eq h.symm) (Nat.le_of_eq h)

/-- The row of a tile's instruction that completes with the core `k` answers the state retired with `k` past the instruction. -/
theorem State.tileRow_next {s t : State} {c : Nat} {pfx : Option Word} {w : Word} {is : Word → Bool}
    {f : Ctx → State → Out} {k : Core} (hruns : s.Runs c) (hc : c < 64) (hpfx : prefixOf? pfx ≠ .illegal)
    (hm : major w < 0x7F) (hi : is w = true) (hf : f (s.ctx c pfx w) s = .next k t) :
    done (okCore c) s (s.runRow bus c pfx w is f) =
      .next (s.seal (t.retire c { k with pc := (s.core c).pc + (if pfx.isSome then 8 else 4) })) := by
  have hexec : Executable c pfx w := ⟨hpfx, by omega, .inl (by omega)⟩
  rw [done_of hruns.1, State.runRow_next hruns.2 hi hexec hf]

/-- The second operand of element `i`: XB broadcast for an odd major, else the element of VB (R110). -/
def Ctx.second (x : Ctx) (i : Nat) : Nat :=
  if major x.w % 2 = 1 then broadcast x.k.et x.xb else x.k.elem x.k.eb (fB x.w) i

/-- The register groups of the vector sources (R110). -/
def Ctx.sources (x : Ctx) : List Nat := fA x.w :: (if major x.w % 2 = 1 then [] else [fB x.w])

/-- The elementwise results of an operation with third operands `third`, over the active elements of VD (R107, R113). -/
def Ctx.results (x : Ctx) (op : Nat → Nat → Nat → Option (Nat × Nat)) (third : Nat → Nat) : Core :=
  x.k.mapActive x.k.eb (fn4 x.w) (fD x.w)
    (fun i => (op (x.k.elem x.k.eb (fA x.w) i) (x.second i) (third i)).getD (0, 0))

theorem Core.groupsOk_append (k : Core) (as bs : List Nat) : k.groupsOk (as ++ bs) = (k.groupsOk as && k.groupsOk bs) :=
  List.all_append

theorem vsetcfgInsn_next {x : Ctx} {s : State} (hp : x.p = .none) (hg : fn4 x.w = 0) (het : wf x.w 24 21 ≤ 0xB)
    (hscale : wf x.w 31 27 ≤ 18) :
    let mx := vlmax (wf x.w 24 21) (wf x.w 26 25)
    let vl := if fA x.w = 31 then mx else min x.xa.toNat mx
    vsetcfgInsn x s =
      .next (Core.setX { x.k with vcfg := ⟨BitVec.ofNat 4 (wf x.w 24 21), BitVec.ofNat 2 (wf x.w 26 25),
        BitVec.ofNat 5 (wf x.w 31 27), BitVec.ofNat 13 vl, x.k.vcfg.vflags, 0⟩ } (fD x.w)
          (BitVec.ofNat 64 (if fA x.w = 31 then 0 else x.xa.toNat - vl))) s := by
  unfold vsetcfgInsn
  exact if_neg (by simp [hp, hg, het, hscale])

section
variable {x : Ctx} {s : State} {unary : Bool} {op : Nat → Nat → Nat → Option (Nat × Nat)}
  (hgroups : x.k.groupsOk (fD x.w :: x.sources) = true) (hpred : x.k.predsOk [fn4 x.w] = true) (hop : (op 0 1 0).isSome = true)
include hgroups hpred hop

/-- An operation of two operands (R111, R112, R116). -/
theorem elementwise_two (hp : x.p = .none) (hunary : unary = true → fB x.w = 0) :
    elementwise x s false unary op = vdone (x.results op (fun _ => 0)) s := by
  have hregs : x.k.groupsOk (fD x.w :: fA x.w :: if major x.w % 2 = 1 then [] else [fB x.w]) = true := hgroups
  have hthird : x.p.third = none := by rw [hp]; rfl
  unfold elementwise
  rw [hthird]
  exact if_neg (by simpa [hp, hpred, Option.isSome_iff_ne_none.mp hop, hregs] using hunary)

/-- An operation of three operands, whose third the word OPERANDS before it names (R76, R111). -/
theorem elementwise_three {r : Nat} (hp : x.p = .operands r 0) (hr : x.k.groupsOk [r] = true) :
    elementwise x s true false op = vdone (x.results op (x.k.elem x.k.eb r)) s := by
  have hregs : x.k.groupsOk (fD x.w :: fA x.w :: ((if major x.w % 2 = 1 then [] else [fB x.w]) ++ [r])) = true :=
    (x.k.groupsOk_append (fD x.w :: x.sources) [r]).trans (by rw [hgroups, hr]; rfl)
  have hthird : x.p.third = some r := by rw [hp]; rfl
  unfold elementwise
  rw [hthird]
  exact if_neg (by simp [hpred, Option.isSome_iff_ne_none.mp hop, hregs])

end

section
variable {x : Ctx} {s : State} (hgroups : x.k.groupsOk (fD x.w :: x.sources) = true) (hpred : x.k.predsOk [fn4 x.w] = true)
include hgroups hpred

section
variable (hop : (vintOp (fn6 x.w) x.k.et x.k.vcfg.scale.toNat 0 1 0).isSome = true)
include hop

theorem vintInsn_two (hf : fn6 x.w ≠ 0x13) (hp : x.p = .none) (hunary : vintUnary (fn6 x.w) = true → fB x.w = 0) :
    vintInsn x s = vdone (x.results (vintOp (fn6 x.w) x.k.et x.k.vcfg.scale.toNat) (fun _ => 0)) s := by
  have hfused : decide (fn6 x.w = 0x13) = false := decide_eq_false hf
  simp only [vintInsn, hfused]
  exact elementwise_two hgroups hpred hop hp hunary

theorem vintInsn_three {r : Nat} (hf : fn6 x.w = 0x13) (hp : x.p = .operands r 0) (hr : x.k.groupsOk [r] = true) :
    vintInsn x s = vdone (x.results (vintOp (fn6 x.w) x.k.et x.k.vcfg.scale.toNat) (x.k.elem x.k.eb r)) s := by
  have hfused : decide (fn6 x.w = 0x13) = true := decide_eq_true hf
  have hunary : vintUnary (fn6 x.w) = false := by rw [hf]; rfl
  simp only [vintInsn, hfused, hunary]
  exact elementwise_three hgroups hpred hop hp hr

end

section
variable (hfloat : etFloat x.k.et = true) (hop : (vfloatOp (fn6 x.w) x.k.et 0 1 0).isSome = true)
include hfloat hop

theorem vfloatInsn_two (h9 : fn6 x.w ≠ 0x09) (hA : fn6 x.w ≠ 0x0A) (hp : x.p = .none)
    (hunary : vfloatUnary (fn6 x.w) = true → fB x.w = 0) :
    vfloatInsn x s = vdone (x.results (vfloatOp (fn6 x.w) x.k.et) (fun _ => 0)) s := by
  have hfused : (decide (fn6 x.w = 0x09) || decide (fn6 x.w = 0x0A)) = false := by simp [h9, hA]
  simp only [vfloatInsn, hfloat, hfused]
  exact elementwise_two hgroups hpred hop hp hunary

theorem vfloatInsn_three {r : Nat} (hf : fn6 x.w = 0x09 ∨ fn6 x.w = 0x0A) (hp : x.p = .operands r 0)
    (hr : x.k.groupsOk [r] = true) :
    vfloatInsn x s = vdone (x.results (vfloatOp (fn6 x.w) x.k.et) (x.k.elem x.k.eb r)) s := by
  have hfused : (decide (fn6 x.w = 0x09) || decide (fn6 x.w = 0x0A)) = true := by simpa using hf
  have hunary : vfloatUnary (fn6 x.w) = false := by rcases hf with h | h <;> rw [h] <;> rfl
  simp only [vfloatInsn, hfloat, hfused, hunary]
  exact elementwise_three hgroups hpred hop hp hr

end
end

/-- The compare result of element `i`, with its flags (R117). -/
def Ctx.compared (x : Ctx) (i : Nat) : Bool × Nat := vcmpOp (fn6 x.w) x.k.et (x.k.elem x.k.eb (fA x.w) i) (x.second i)

theorem vcmpInsn_next {x : Ctx} {s : State} (hp : x.p = .none) (hf : fn6 x.w ≤ 5) (hgroups : x.k.groupsOk x.sources = true)
    (hpreds : x.k.predsOk [fD x.w, fn4 x.w] = true) :
    vcmpInsn x s =
      vdone ((x.k.putPred (fD x.w) (fun i => x.k.governs x.k.eb (fn4 x.w) i && (x.compared i).1)).addVflags
        ((List.range x.k.vl).foldl (fun f i => if x.k.governs x.k.eb (fn4 x.w) i then f ||| (x.compared i).2 else f) 0)) s := by
  have hregs : x.k.groupsOk (fA x.w :: if major x.w % 2 = 1 then [] else [fB x.w]) = true := hgroups
  unfold vcmpInsn
  exact if_neg (by simp [hp, hf, hregs, hpreds])

end Sys2Proof.Machine
end

section
/-! The predicate operations, one equation for each opcode (R118). -/

namespace Sys2Proof.Machine

section
variable {x : Ctx} {s : State} (hp : x.p = .none) (hg : fn4 x.w = 0)
include hp hg

/-! The bitwise operations. -/

section
variable (hpreds : x.k.predsOk [fD x.w, fA x.w, fB x.w] = true)
include hpreds

theorem predInsn_pand (hf : fn6 x.w = 0x00) :
    predInsn x s = vdone (bitwisePred x.k (fD x.w) (fun r => x.k.preg (fA x.w + r) &&& x.k.preg (fB x.w + r))) s := by
  simp [predInsn, hp, hg, hf, hpreds]

theorem predInsn_por (hf : fn6 x.w = 0x01) :
    predInsn x s = vdone (bitwisePred x.k (fD x.w) (fun r => x.k.preg (fA x.w + r) ||| x.k.preg (fB x.w + r))) s := by
  simp [predInsn, hp, hg, hf, hpreds]

theorem predInsn_pxor (hf : fn6 x.w = 0x02) :
    predInsn x s = vdone (bitwisePred x.k (fD x.w) (fun r => x.k.preg (fA x.w + r) ^^^ x.k.preg (fB x.w + r))) s := by
  simp [predInsn, hp, hg, hf, hpreds]

theorem predInsn_pandn (hf : fn6 x.w = 0x03) :
    predInsn x s =
      vdone (bitwisePred x.k (fD x.w) (fun r => x.k.preg (fA x.w + r) &&& (2 ^ 512 - 1 - x.k.preg (fB x.w + r)))) s := by
  simp [-Nat.reducePow, predInsn, hp, hg, hf, hpreds]

theorem predInsn_pnot (hf : fn6 x.w = 0x04) (hb : fB x.w = 0) :
    predInsn x s = vdone (bitwisePred x.k (fD x.w) (fun r => 2 ^ 512 - 1 - x.k.preg (fA x.w + r))) s := by
  rw [hb] at hpreds
  simp [-Nat.reducePow, predInsn, hp, hg, hf, hpreds, hb]

end

/-! The operations that set the elements. -/

section
variable (hpreds : x.k.predsOk [fD x.w] = true)
include hpreds

theorem predInsn_psetLt (hf : fn6 x.w = 0x08) :
    predInsn x s = vdone (x.k.putPred (fD x.w) (fun i => decide (x.xa.toInt + i < x.xb.toInt))) s := by
  simp [predInsn, hp, hg, hf, hpreds]

theorem predInsn_psetLtu (hf : fn6 x.w = 0x09) :
    predInsn x s = vdone (x.k.putPred (fD x.w) (fun i => decide (x.xa.toNat + i < x.xb.toNat))) s := by
  simp [predInsn, hp, hg, hf, hpreds]

theorem predInsn_psetLe (hf : fn6 x.w = 0x0A) :
    predInsn x s = vdone (x.k.putPred (fD x.w) (fun i => decide (x.xa.toInt + i ≤ x.xb.toInt))) s := by
  simp [predInsn, hp, hg, hf, hpreds]

theorem predInsn_pfill (hf : fn6 x.w = 0x0C) (ha : fA x.w = 0) (hb : fB x.w = 0) :
    predInsn x s = vdone (x.k.putPred (fD x.w) (fun _ => true)) s := by
  simp [predInsn, hp, hg, hf, hpreds, ha, hb]

theorem predInsn_pclear (hf : fn6 x.w = 0x0D) (ha : fA x.w = 0) (hb : fB x.w = 0) :
    predInsn x s = vdone (x.k.putPred (fD x.w) (fun _ => false)) s := by
  simp [predInsn, hp, hg, hf, hpreds, ha, hb]

end

/-! The operations that count elements. -/

section
variable (hb : fB x.w = 0) (hpreds : x.k.predsOk [fA x.w] = true)
include hb hpreds

theorem predInsn_ptally (hf : fn6 x.w = 0x10) :
    predInsn x s = vdone (x.k.setX (fD x.w) (BitVec.ofNat 64 (x.k.tally (fA x.w)).length)) s := by
  simp [predInsn, hp, hg, hf, hpreds, hb]

theorem predInsn_plead (hf : fn6 x.w = 0x11) :
    predInsn x s = vdone (x.k.setX (fD x.w) (BitVec.ofNat 64 ((x.k.tally (fA x.w)).headD x.k.vl))) s := by
  simp [predInsn, hp, hg, hf, hpreds, hb]

end
end

end Sys2Proof.Machine
end

section
/-! The moves, one equation for each opcode (R119), and the conversion (R120). -/

namespace Sys2Proof.Machine

section
variable {x : Ctx} {s : State} (hp : x.p = .none)
include hp

theorem moveInsn_vextr (hf : fn6 x.w = 0x04) (hg : fn4 x.w = 0) (hgroups : x.k.groupsOk [fA x.w] = true) :
    moveInsn x s =
      vdone (x.k.setX (fD x.w)
        (if x.xb.toNat < x.k.vl then elemScalar x.k.et (x.k.elem x.k.eb (fA x.w) x.xb.toNat) else 0)) s := by
  simp [moveInsn, hp, hf, hg, hgroups]

theorem moveInsn_vins (hf : fn6 x.w = 0x05) (hg : fn4 x.w = 0) (hgroups : x.k.groupsOk [fD x.w] = true) :
    moveInsn x s =
      vdone (if x.xb.toNat < x.k.vl then x.k.putElem x.k.eb (fD x.w) x.xb.toNat (broadcast x.k.et x.xa) else x.k) s := by
  simp [moveInsn, hp, hf, hg, hgroups]

section
variable (hpred : x.k.predsOk [fn4 x.w] = true)
include hpred

theorem moveInsn_vmov (hf : fn6 x.w = 0x00) (hb : fB x.w = 0) (hgroups : x.k.groupsOk [fD x.w, fA x.w] = true) :
    moveInsn x s = vdone (x.k.mapActive x.k.eb (fn4 x.w) (fD x.w) (fun i => (x.k.elem x.k.eb (fA x.w) i, 0))) s := by
  simp [moveInsn, hp, hf, hb, hgroups, hpred]

theorem moveInsn_vsel (hf : fn6 x.w = 0x01) (hgroups : x.k.groupsOk [fD x.w, fA x.w, fB x.w] = true) :
    moveInsn x s =
      vdone ((List.range x.k.vl).foldl
        (fun c i => c.putElem x.k.eb (fD x.w) i
          (if x.k.governs x.k.eb (fn4 x.w) i then x.k.elem x.k.eb (fA x.w) i else x.k.elem x.k.eb (fB x.w) i)) x.k) s := by
  simp [moveInsn, hp, hf, hgroups, hpred]

theorem moveInsn_vbcast (hf : fn6 x.w = 0x02) (hb : fB x.w = 0) (hgroups : x.k.groupsOk [fD x.w] = true) :
    moveInsn x s = vdone (x.k.mapActive x.k.eb (fn4 x.w) (fD x.w) (fun _ => (broadcast x.k.et x.xa, 0))) s := by
  simp [moveInsn, hp, hf, hb, hgroups, hpred]

theorem moveInsn_viota (hf : fn6 x.w = 0x03) (ha : fA x.w = 0) (hb : fB x.w = 0) (hgroups : x.k.groupsOk [fD x.w] = true) :
    moveInsn x s = vdone (x.k.mapActive x.k.eb (fn4 x.w) (fD x.w) (fun i => (i, 0))) s := by
  simp [moveInsn, hp, hf, ha, hb, hgroups, hpred]

section
variable (hne : fD x.w ≠ fA x.w) (hgroups : x.k.groupsOk [fD x.w, fA x.w] = true)
include hne hgroups

theorem moveInsn_vsldn (hf : fn6 x.w = 0x06) :
    moveInsn x s =
      vdone (x.k.mapActive x.k.eb (fn4 x.w) (fD x.w)
        (fun i => (if i + x.xb.toNat < x.k.vl then x.k.elem x.k.eb (fA x.w) (i + x.xb.toNat) else 0, 0))) s := by
  simp [moveInsn, hp, hf, hne, hgroups, hpred]

theorem moveInsn_vslup (hf : fn6 x.w = 0x07) :
    moveInsn x s =
      vdone ((List.range x.k.vl).foldl
        (fun c i => if x.k.governs x.k.eb (fn4 x.w) i && decide (x.xb.toNat ≤ i) then
          c.putElem x.k.eb (fD x.w) i (x.k.elem x.k.eb (fA x.w) (i - x.xb.toNat)) else c) x.k) s := by
  simp [moveInsn, hp, hf, hne, hgroups, hpred]

end
end
end

theorem overlaps_eq_false {a n b m : Nat} (h : a + n ≤ b ∨ b + m ≤ a) : overlaps a n b m = false := by
  simp only [overlaps, Bool.and_eq_false_iff, decide_eq_false_iff_not]
  omega

/-- Bit 4 of FN6, the saturation of VCVT, where bit 5 is 0. -/
theorem testBit_four_of_lt {n : Nat} (h : n < 32) : n.testBit 4 = decide (16 ≤ n) := by
  rw [Nat.testBit_eq_decide_div_mod_eq]
  exact decide_eq_decide.mpr (by omega)

/-- VCVT over groups that suit both types (R102, R120). -/
theorem vcvtInsn_next {x : Ctx} {s : State} (hp : x.p = .none) (hb : fB x.w = 0) (hf : fn6 x.w < 32) (hdt : fn6 x.w % 16 ≤ 0xB)
    (hdec : ¬ (x.k.et = 0xA ∧ fn6 x.w % 16 = 0xA)) (hgroups : x.k.groupsOk [fA x.w] = true)
    (hpred : x.k.predsOk [fn4 x.w] = true)
    {gd : Nat} (hgd : gd = max 1 (x.k.grp * etBytes (fn6 x.w % 16) / x.k.eb)) (hle : gd ≤ 8) (hd : fD x.w % gd = 0)
    (hapart : gd = x.k.grp ∨ fD x.w + gd ≤ fA x.w ∨ fA x.w + x.k.grp ≤ fD x.w) :
    let r := cvtAll x.k s.fresh (fn6 x.w % 16) (decide (16 ≤ fn6 x.w)) (fA x.w) (fn4 x.w) (fD x.w)
    vcvtInsn x s = vdone r.1 { s with fresh := r.2 } := by
  have hbit5 : (fn6 x.w).testBit 5 = false := Nat.testBit_lt_two_pow hf
  have hdecs : (decide (x.k.et = 0xA) && decide (fn6 x.w % 16 = 0xA)) = false := by
    rw [← Bool.decide_and]
    exact decide_eq_false hdec
  have hover : (decide (¬ gd = x.k.grp) && overlaps (fD x.w) gd (fA x.w) x.k.grp) = false := by
    rcases hapart with h | h
    · rw [decide_eq_false (not_not_intro h), Bool.false_and]
    · rw [overlaps_eq_false h, Bool.and_false]
  subst hgd
  unfold vcvtInsn
  rw [← testBit_four_of_lt hf]
  exact if_neg (by
    simp only [hp, hb, hbit5, Nat.not_lt.mpr hdt, Nat.not_lt.mpr hle, hd, hgroups, hpred, hdecs, hover, ne_eq, not_true_eq_false,
      decide_false, Bool.or_false, Bool.not_true, Bool.false_eq_true, not_false_eq_true])

end Sys2Proof.Machine
end

section
/-! The vector operations together (R105 to R120). -/

namespace Sys2Proof.Machine

/-- Settles O21: each word is of its row and legal there, so its row's equation gives the core that it leaves. -/
theorem vectorArithmeticActsOnActiveElements : Obligations.VectorArithmeticActsOnActiveElements := by
  intro s c pfx w hruns hc hpfx k d a b g xa xb ends second groups
  have completes {is : Word → Bool} {f : Ctx → State → Out} {k' : Core} (hm : major w < 0x7F) (hi : is w = true)
      (hf : f (s.ctx c pfx w) s = vdone k' s) :
      done (okCore c) s (s.runRow bus c pfx w is f) = ends (k'.setVbegin 0) :=
    State.tileRow_next hruns hc hpfx hm hi hf
  have hnone (h : pfx = none) : (s.ctx c pfx w).p = .none := by rw [h]; rfl
  refine ⟨?setcfg, ?integer, ?floating, ?compare, ?predicate, ?move, ?convert⟩
  case setcfg =>
    intro hm hp hg het hscale mx vl
    exact State.tileRow_next hruns hc hpfx (by omega) (isMajor_self hm) (vsetcfgInsn_next (hnone hp) hg het hscale)
  case integer =>
    intro hm op hpred hop hgroups
    have hi : isMajor 0x20 0x21 w = true := isMajor_of (by omega) (by omega)
    refine ⟨fun hf hp hunary => ?_, fun r hf hp hr => ?_⟩ <;> refine completes (by omega) hi ?_
    · exact vintInsn_two hgroups hpred hop hf (hnone hp) hunary
    · exact vintInsn_three (x := s.ctx c pfx w) hgroups hpred hop hf hp hr
  case floating =>
    intro hm op hpred hfloat hop hgroups
    have hi : isMajor 0x22 0x23 w = true := isMajor_of (by omega) (by omega)
    refine ⟨fun h9 hA hp hunary => ?_, fun r hf hp hr => ?_⟩ <;> refine completes (by omega) hi ?_
    · exact vfloatInsn_two hgroups hpred hfloat hop h9 hA (hnone hp) hunary
    · exact vfloatInsn_three (x := s.ctx c pfx w) hgroups hpred hfloat hop hf hp hr
  case compare =>
    intro hm hp hf hgroups hpreds r fl
    refine completes (by omega) (isMajor_of (by omega) (by omega)) ?_
    exact vcmpInsn_next (hnone hp) hf hgroups hpreds
  case predicate =>
    intro hm hp hg full bitwise sets
    have hx := hnone hp
    refine ⟨fun hr => ⟨fun hf => ?_, fun hf => ?_, fun hf => ?_, fun hf => ?_, fun hf hb => ?_⟩,
      fun hr => ⟨fun hf => ?_, fun hf => ?_, fun hf => ?_, fun hf ha hb => ?_, fun hf ha hb => ?_⟩,
      fun hb hr => ⟨fun hf => ?_, fun hf => ?_⟩⟩ <;> refine completes (by omega) (isMajor_self hm) ?_
    · exact predInsn_pand hx hg hr hf
    · exact predInsn_por hx hg hr hf
    · exact predInsn_pxor hx hg hr hf
    · exact predInsn_pandn hx hg hr hf
    · exact predInsn_pnot hx hg hr hf hb
    · exact predInsn_psetLt hx hg hr hf
    · exact predInsn_psetLtu hx hg hr hf
    · exact predInsn_psetLe hx hg hr hf
    · exact predInsn_pfill hx hg hr hf ha hb
    · exact predInsn_pclear hx hg hr hf ha hb
    · exact predInsn_ptally hx hg hb hr hf
    · exact predInsn_plead hx hg hb hr hf
  case move =>
    intro hm hp lane n moves
    have hx := hnone hp
    refine ⟨fun hf hb hgroups hpred => ?_, fun hf hgroups hpred => ?_, fun hf hb hgroups hpred => ?_,
      fun hf ha hb hgroups hpred => ?_, fun hf hg hgroups => ?_, fun hf hg hgroups => ?_,
      fun hf hne hgroups hpred => ?_, fun hf hne hgroups hpred => ?_⟩ <;>
      refine completes (by omega) (isMajor_self hm) ?_
    · exact moveInsn_vmov hx hpred hf hb hgroups
    · exact moveInsn_vsel hx hpred hf hgroups
    · exact moveInsn_vbcast hx hpred hf hb hgroups
    · exact moveInsn_viota hx hpred hf ha hb hgroups
    · exact moveInsn_vextr hx hf hg hgroups
    · exact moveInsn_vins hx hf hg hgroups
    · exact moveInsn_vsldn hx hpred hne hgroups hf
    · exact moveInsn_vslup hx hpred hne hgroups hf
  case convert =>
    intro hm hp hb hf dt gd hdt hle hdec hd hgroups hpred hapart r
    exact State.tileRow_next hruns hc hpfx (by omega) (isMajor_self hm)
      (vcvtInsn_next (hnone hp) hb hf hdt hdec hgroups hpred rfl hle hd hapart)

end Sys2Proof.Machine
end

section
/-! What the analytic instructions come to where their words are legal (R128 to R138): one equation each. -/

namespace Sys2Proof.Machine

theorem isFn_iff {m lo hi : Nat} {w : Word} : isFn m lo hi w = true ↔ major w = m ∧ lo ≤ fn6 w ∧ fn6 w ≤ hi := by
  simp [isFn, and_assoc]

theorem isFn_self_iff {m u : Nat} {w : Word} : isFn m u u w = true ↔ major w = m ∧ fn6 w = u := by
  rw [isFn_iff, ← Nat.le_antisymm_iff, eq_comm (a := u)]

theorem isFn_of_self {m u lo hi : Nat} {w : Word} (h : isFn m u u w = true) (hlo : lo ≤ u) (hhi : u ≤ hi) :
    isFn m lo hi w = true := by
  obtain ⟨hm, rfl⟩ := isFn_self_iff.mp h
  exact isFn_iff.mpr ⟨hm, hlo, hhi⟩

theorem major_lt_of_isFn {m lo hi n : Nat} {w : Word} (h : isFn m lo hi w = true) (hm : m < n) : major w < n :=
  (isFn_iff.mp h).1.trans_lt hm

/-- A tile's instruction that raises `e` leaves the core as it was (R92). -/
theorem State.tileRow_trap {s : State} {c : Nat} {pfx : Option Word} {w : Word} {is : Word → Bool} {f : Ctx → State → Out}
    {e : Exc} (hruns : s.Runs c) (hc : c < 64) (hpfx : prefixOf? pfx ≠ .illegal) (hm : major w < 0x7F) (hi : is w = true)
    (hf : f (s.ctx c pfx w) s = (s.ctx c pfx w).raise s e) :
    done (okCore c) s (s.runRow bus c pfx w is f) = .next (s.seal (s.trapped c (s.core c) e)) := by
  have hexec : Executable c pfx w := ⟨hpfx, by omega, .inl (by omega)⟩
  rw [done_of hruns.1, State.runRow_trap hruns.2 hi hexec hf]
  rfl

/-- The seed of element `i` of VHASH or VHASH.X (R132). -/
def Ctx.hashSeed (x : Ctx) (i : Nat) : Nat := if fn6 x.w = 1 then x.xb.toNat else x.k.elem x.k.eb (fB x.w) i % 2 ^ 64

/-- The hash of element `i` of VA (R132). -/
def Ctx.hashed (x : Ctx) (i : Nat) : Nat :=
  if x.k.et = 0xB then
    clatanMix (x.k.elem x.k.eb (fA x.w) i / 2 ^ 64) (clatanMix (x.k.elem x.k.eb (fA x.w) i % 2 ^ 64) (x.hashSeed i))
  else clatanMix (x.k.elem x.k.eb (fA x.w) i) (x.hashSeed i) % 2 ^ (8 * x.k.eb)

/-- The active elements of the group at V`a`, under the predicate that the word names (R107). -/
def Ctx.active (x : Ctx) (a : Nat) : List Nat := x.k.activeElems (fn4 x.w) a

/-- The keys of VSORTKV with their payloads, in order (R133). -/
def Ctx.sortedPairs (x : Ctx) : List (Nat × Nat) :=
  sortBy (fun p q => sortLe x.k.et (fn6 x.w = 3) p.1 q.1) ((x.active (fA x.w)).zip (x.active (fB x.w)))

/-- The results of VSRED, segment by segment (R136). -/
def Ctx.segmentResults (x : Ctx) (ps id : Nat) (step : Nat → Nat → Nat × Nat) : List (Nat × Nat) :=
  (segments (fun i => x.k.governs x.k.eb ps i) x.k.vl).map (fun seg =>
    reduceAll step ((seg.filter (fun i => x.k.governs x.k.eb (fn4 x.w) i)).map (x.k.elem x.k.eb (fA x.w))) id)

/-- The bits of VD with the active elements of VA packed in as fields of `n` bits from offset `o` (R137). -/
def Ctx.packedBits (x : Ctx) (n o : Nat) : Nat :=
  ((x.active (fA x.w)).zip (List.range (x.active (fA x.w)).length)).foldl
    (fun q e => setBits q (o + e.2 * n + n - 1) (o + e.2 * n) e.1) (x.k.groupBits (fD x.w))

/-- The flag of an element that a field of `n` bits does not hold (R137). -/
def packExcess (et n e : Nat) : Nat :=
  if etSigned et then (if fitsSigned n (etInt et e) then 0 else flOVS) else (if e < 2 ^ n then 0 else flOVU)

/-- Field `i` of VA, of `n` bits from offset `o`, as an element (R137). -/
def Ctx.unpacked (x : Ctx) (n o i : Nat) : Nat :=
  let field := bits (x.k.groupBits (fA x.w)) (o + i * n + n - 1) (o + i * n)
  if etSigned x.k.et then wrap (8 * x.k.eb) (sext n field) else field

/-- The comparison of chunk `i` of VA with that of VB (R138). -/
def Ctx.chunk (x : Ctx) (i : Nat) : Nat := chunkResult (x.k.elem 16 (fA x.w) i) (x.k.elem 16 (fB x.w) i)

/-- Whether the VSTRCMP predicate of opcode `u` holds of an order (R138). -/
def chunkHolds (u : Nat) (o : Int) : Bool :=
  match u - 8 with
  | 0 => o = 0
  | 1 => o ≠ 0
  | 2 => decide (o < 0)
  | 3 => decide (o ≤ 0)
  | 4 => decide (0 < o)
  | _ => decide (0 ≤ o)

section
variable {x : Ctx} {s : State}

/-! Compaction and hashing. -/

section
variable (hok : plainOk x [fD x.w, fA x.w] = true) (hb : fB x.w = 0) (hapart : sharesGroup x.k (fD x.w) 1 (fA x.w) 1 = false)
include hok hb hapart

theorem vcompressInsn_next : vcompressInsn x s = vdone (x.k.putElems (fD x.w) (x.active (fA x.w))) s := by
  unfold vcompressInsn
  exact if_neg (by simp [hok, hb, hapart])

theorem vexpandInsn_next :
    let act := (List.range x.k.vl).filter (fun i => x.k.governs x.k.eb (fn4 x.w) i)
    vexpandInsn x s =
      vdone ((act.zip (List.range act.length)).foldl
        (fun c e => c.putElem x.k.eb (fD x.w) e.1 (x.k.elem x.k.eb (fA x.w) e.2)) x.k) s := by
  unfold vexpandInsn
  exact if_neg (by simp [hok, hb, hapart])

theorem vsortInsn_next :
    vsortInsn x s = vdone (x.k.putElems (fD x.w) (sortBy (sortLe x.k.et (fn6 x.w = 1)) (x.active (fA x.w)))) s := by
  unfold vsortInsn
  exact if_neg (by simp [hok, hb, hapart])

end

theorem vhashInsn_next (hu : fn6 x.w ≤ 1) (hok : plainOk x ([fD x.w, fA x.w] ++ (if fn6 x.w = 1 then [] else [fB x.w])) = true) :
    vhashInsn x s = vdone (x.k.mapActive x.k.eb (fn4 x.w) (fD x.w) (fun i => (x.hashed i, 0))) s := by
  unfold vhashInsn
  exact if_neg (by simpa [hu] using hok)

/-! Sorts of pairs and merges, into a double group. -/

section
variable (hok : plainOk x [fD x.w, fA x.w, fB x.w] = true) (hd : fD x.w + 2 * x.k.grp ≤ 32)
  (ha : sharesGroup x.k (fD x.w) 2 (fA x.w) 1 = false) (hb : sharesGroup x.k (fD x.w) 2 (fB x.w) 1 = false)
include hok hd ha hb

theorem vsortkvInsn_next :
    vsortkvInsn x s =
      vdone ((x.k.putElems (fD x.w) (x.sortedPairs.map (·.1))).putElems (fD x.w + x.k.grp) (x.sortedPairs.map (·.2))) s := by
  unfold vsortkvInsn
  exact if_neg (by simp [hok, hd, ha, hb])

theorem vmergeInsn_next :
    vmergeInsn x s =
      vdone (x.k.putElems (fD x.w)
        (mergeRuns (fun p q => !sortLe x.k.et (fn6 x.w = 5) q p) ((x.active (fA x.w)).length + (x.active (fB x.w)).length)
          (x.active (fA x.w)) (x.active (fB x.w)))) s := by
  unfold vmergeInsn
  exact if_neg (by simp [hok, hd, ha, hb])

end

/-! Reductions. -/

section
variable {id : Nat} {step : Nat → Nat → Nat × Nat} (hb : fB x.w = 0)
include hb

theorem vredInsn_next (hop : reduceOp (fn6 x.w) x.k.et = some (id, step)) (hok : plainOk x [fD x.w, fA x.w] = true) :
    let r := reduceAll step (x.active (fA x.w)) id
    vredInsn x s = vdone ((x.k.putElem x.k.eb (fD x.w) 0 r.1).addVflags r.2) s := by
  simp only [vredInsn, hop]
  exact if_neg (by simp [hok, hb])

theorem vsredInsn_next {ps : Nat} (hp : x.p = .operands 0 ps) (hu : 0x10 ≤ fn6 x.w)
    (hop : reduceOp (fn6 x.w - 0x10) x.k.et = some (id, step)) (hgroups : x.k.groupsOk [fD x.w, fA x.w] = true)
    (hpreds : x.k.predsOk [fn4 x.w, ps] = true) :
    let rs := x.segmentResults ps id step
    vsredInsn x s = vdone ((x.k.putElems (fD x.w) (rs.map (·.1))).addVflags (rs.foldl (fun f r => f ||| r.2) 0)) s := by
  simp only [vsredInsn, hp, hop]
  exact if_neg (by simp [hu, hgroups, hpreds, hb])

end

/-! Bit packing: the word first, then the width and the offset in XB. -/

section
variable (hok : plainOk x [fD x.w, fA x.w] = true) (hapart : sharesGroup x.k (fD x.w) 1 (fA x.w) 1 = false)
include hok hapart

theorem vpackInsn_raise (h : packFields x = none) : vpackInsn x s = x.raise s Exc.operand := by
  unfold vpackInsn
  rw [h]
  exact if_neg (by simp [hok, hapart])

theorem vunpackInsn_raise (h : packFields x = none) : vunpackInsn x s = x.raise s Exc.operand := by
  unfold vunpackInsn
  rw [h]
  exact if_neg (by simp [hok, hapart])

variable {n o : Nat} (h : packFields x = some (n, o))
include h

theorem vpackInsn_next :
    vpackInsn x s =
      vdone ((x.k.setGroupBits (fD x.w) (x.packedBits n o)).addVflags
        ((x.active (fA x.w)).foldl (fun f e => f ||| packExcess x.k.et n e) 0)) s := by
  unfold vpackInsn
  rw [h]
  exact if_neg (by simp [hok, hapart])

theorem vunpackInsn_next :
    vunpackInsn x s = vdone (x.k.mapActive x.k.eb (fn4 x.w) (fD x.w) (fun i => (x.unpacked n o i, 0))) s := by
  unfold vunpackInsn
  rw [h]
  exact if_neg (by simp [hok, hapart])

end

/-! String comparison. -/

section
variable (het : x.k.et = 0xB)
include het

theorem vstrcmpInsn_next (hok : plainOk x [fD x.w, fA x.w, fB x.w] = true) :
    vstrcmpInsn x s = vdone (x.k.mapActive 16 (fn4 x.w) (fD x.w) (fun i => (x.chunk i, 0))) s := by
  unfold vstrcmpInsn
  exact if_neg (by simp [het, hok])

theorem vstrcmpCInsn_next {vc : Nat} (hp : x.p = .operands vc 0) (hgroups : x.k.groupsOk [fD x.w, fA x.w, fB x.w, vc] = true)
    (hpred : x.k.predsOk [fn4 x.w] = true) :
    vstrcmpCInsn x s =
      vdone (x.k.mapActive 16 (fn4 x.w) (fD x.w)
        (fun i => (if x.k.elem 16 vc i % 2 ^ 64 ≠ 0 then x.k.elem 16 vc i else x.chunk i, 0))) s := by
  have hthird : x.p.third = some vc := by rw [hp]; rfl
  unfold vstrcmpCInsn
  rw [hthird]
  exact if_neg (by simp [het, hgroups, hpred])

theorem vstrcmpPredInsn_next (hp : x.p = .none) (hgroups : x.k.groupsOk [fA x.w, fB x.w] = true)
    (hpreds : x.k.predsOk [fD x.w, fn4 x.w] = true) :
    vstrcmpPredInsn x s =
      vdone (x.k.putPred (fD x.w) (fun i => x.k.governs x.k.eb (fn4 x.w) i &&
        chunkHolds (fn6 x.w) (chunkCompare (x.k.elem 16 (fA x.w) i) (x.k.elem 16 (fB x.w) i)).1)) s := by
  unfold vstrcmpPredInsn
  exact if_neg (by simp [het, hp, hgroups, hpreds])

end
end

end Sys2Proof.Machine
end

section
/-! The analytic instructions over the active elements together (R128 to R138). -/

namespace Sys2Proof.Machine

/-- Settles O22: each word is of its row and legal there, so its row's equation gives the core that it leaves, or the exception. -/
theorem analyticInstructionsComputeOverActiveElements : Obligations.AnalyticInstructionsComputeOverActiveElements := by
  intro s c pfx w hruns hc hpfx x k d a b g ends act
  have completes {m lo hi : Nat} {f : Ctx → State → Out} {k' : Core} (hrow : isFn m lo hi w = true) (hm : m < 0x7F)
      (hf : f x s = vdone k' s) :
      done (okCore c) s (s.runRow bus c pfx w (isFn m lo hi) f) = ends k' :=
    State.tileRow_next hruns hc hpfx (major_lt_of_isFn hrow hm) hrow hf
  have raises {m lo hi : Nat} {f : Ctx → State → Out} {e : Exc} (hrow : isFn m lo hi w = true) (hm : m < 0x7F)
      (hf : f x s = x.raise s e) :
      done (okCore c) s (s.runRow bus c pfx w (isFn m lo hi) f) = .next (s.seal (s.trapped c k e)) :=
    State.tileRow_trap hruns hc hpfx (major_lt_of_isFn hrow hm) hrow hf
  refine ⟨?compress, ?expand, ?hash, ?sort, ?double, ?reduce, ?pack, ?compare⟩
  case compress =>
    intro hi hok hb hapart
    exact completes hi (by omega) (vcompressInsn_next (x := x) hok hb hapart)
  case expand =>
    intro hi hok hb hapart _
    exact completes hi (by omega) (vexpandInsn_next (x := x) hok hb hapart)
  case hash =>
    intro u hi hu hok seed
    obtain rfl := (isFn_self_iff.mp hi).2
    exact completes (isFn_of_self hi (by omega) hu) (by omega) (vhashInsn_next (x := x) hu hok)
  case sort =>
    intro u hi hu hok hb hapart
    obtain rfl := (isFn_self_iff.mp hi).2
    exact completes (isFn_of_self hi (by omega) hu) (by omega) (vsortInsn_next (x := x) hok hb hapart)
  case double =>
    intro u hi hok hd ha hb
    obtain rfl := (isFn_self_iff.mp hi).2
    constructor
    · intro hu kv
      exact completes (isFn_of_self hi (by omega) (by omega)) (by omega) (vsortkvInsn_next (x := x) hok hd ha hb)
    · intro hu
      exact completes (isFn_of_self hi (by omega) (by omega)) (by omega) (vmergeInsn_next (x := x) hok hd ha hb)
  case reduce =>
    intro u id step hi hop
    obtain rfl := (isFn_self_iff.mp hi).2
    refine ⟨fun hu hok hb => ?_, fun ps hlo hhi hp hgroups hb hpreds => ?_⟩
    · rw [Nat.mod_eq_of_lt (by omega)] at hop
      exact completes (isFn_of_self hi (by omega) hu) (by omega) (vredInsn_next (x := x) hb hop hok)
    · rw [show fn6 w % 16 = fn6 w - 0x10 by omega] at hop
      exact completes (isFn_of_self hi hlo hhi) (by omega) (vsredInsn_next (x := x) hb hp hlo hop hgroups hpreds)
  case pack =>
    intro hok hapart
    refine ⟨fun h => ⟨fun hi => ?_, fun hi => ?_⟩, fun n o h => ⟨fun hi => ?_, fun hi => ?_⟩⟩
    · exact raises hi (by omega) (vpackInsn_raise (x := x) hok hapart h)
    · exact raises hi (by omega) (vunpackInsn_raise (x := x) hok hapart h)
    · exact completes hi (by omega) (vpackInsn_next (x := x) hok hapart h)
    · exact completes hi (by omega) (vunpackInsn_next (x := x) hok hapart h)
  case compare =>
    intro het chunk
    refine ⟨fun hi hok => ?_, fun vc hi hp hgroups hpred => ?_, fun u hi hlo hhi hp hgroups hpreds => ?_⟩
    · exact completes hi (by omega) (vstrcmpInsn_next (x := x) het hok)
    · exact completes hi (by omega) (vstrcmpCInsn_next (x := x) het hp hgroups hpred)
    · obtain rfl := (isFn_self_iff.mp hi).2
      have hnone : x.p = .none := by subst hp; rfl
      exact completes (isFn_of_self hi hlo hhi) (by omega) (vstrcmpPredInsn_next (x := x) het hnone hgroups hpreds)

end Sys2Proof.Machine
end

section
/-! INSTALL_PROGRAM and its REMOVE form (R155, R156, R273): the host's answer, the checks of the image, the slot it takes and the
slot it leaves. -/

namespace Sys2Proof.Machine

theorem exec_installProgram {tag at' : Nat} (htag : tag < 8448) (hat : at' < 281474976710656) (host : HostRead) (s : State) :
    exec (.installProgram tag host at') s = .next (s.seal (if s.catalogHeld then s else s.install tag host at')) :=
  done_of (by simp [okTag, okDpa, htag, hat]) s _

theorem exec_installProgram_free {tag at' : Nat} {s : State} (htag : tag < 8448) (hat : at' < 281474976710656)
    (hfree : s.catalogHeld = false) (host : HostRead) :
    exec (.installProgram tag host at') s = .next (s.seal (s.install tag host at')) := by
  rw [exec_installProgram htag hat, hfree, if_neg Bool.false_ne_true]

theorem exec_programRemove {tag : Nat} (htag : tag < 8448) (s : State) :
    exec (.programRemove tag) s = .next (s.seal (s.removeImage tag)) := done_of (tagOk htag) s _

/-- Slot `i` holds an installed image with the digest `d`. -/
def State.holdsDigest (s : State) (d : List Byte) (i : Nat) : Bool :=
  match s.image i with
  | some m => !m.removed && decide (imgDigest m.bytes = d)
  | none => false

/-- The lowest slot that holds an installed image with the digest `d`. -/
def State.digestSlot (s : State) (d : List Byte) : Option Nat := (List.range 256).find? (s.holdsDigest d)

/-- The lowest slot without an image. -/
def State.freeSlot (s : State) : Option Nat := (List.range 256).find? (fun i => (s.image i).isNone)

/-- The bytes that the images take. -/
def State.imageBytes (s : State) : Nat :=
  s.images.foldl (fun n e => match e.2 with | some m => n + m.bytes.length | none => n) 0

/-- Slot `i` takes an image stored at `at'`, and its generation counts on. -/
def State.takeImage (s : State) (i : Nat) (img : List Byte) (at' : Nat) : State :=
  { s with
    images := FMap.setD s.images i (some ⟨FMap.getD s.imageGens i, img, at', false⟩)
    imageGens := FMap.setD s.imageGens i ((FMap.getD s.imageGens i + 1) % 256) }

section
variable {s : State} {tag : Nat}

theorem State.install_idle (h : s.running? tag 0x45 = none) (host : HostRead) (at' : Nat) : s.install tag host at' = s := by
  unfold State.install
  rw [h]

theorem State.removeImage_idle (h : s.running? tag 0x45 = none) : s.removeImage tag = s := by
  unfold State.removeImage
  rw [h]

section
variable {c : Cmd} (hc : s.running? tag 0x45 = some c)
include hc

/-! INSTALL_PROGRAM. -/

section
variable (hform : c.flags.testBit 0 = false) (at' : Nat)
include hform

theorem State.install_denied : s.install tag .denied at' = (s.aer c.fn .readRefused).complete tag St.accessDenied 0 := by
  unfold State.install
  rw [hc]
  exact if_neg (by simp [hform])

theorem State.install_poisoned : s.install tag .poisoned at' = (s.aer c.fn .readPoisoned).complete tag St.poisonedData 0 := by
  unfold State.install
  rw [hc]
  exact if_neg (by simp [hform])

/-- A failed check gives its status, and a broken pair or digest a record of Guard besides (R155). -/
theorem State.install_failed {img : List Byte} {n st : Nat} (hcheck : s.imgCheck c.len img = some (n, st)) :
    s.install tag (.data img) at' =
      State.complete (if n = 2 ∨ n = 5 then s.report ⟨st, Tgt.headstock, 2, Mid.headstock 0, at', tag, 0⟩ else s) tag st 0 := by
  unfold State.install
  rw [hc]
  dsimp only
  rw [if_neg (by simp [hform]), hcheck]
  simp only [Bool.or_eq_true, decide_eq_true_eq]

section
variable {img : List Byte} (hcheck : s.imgCheck c.len img = none)
include hcheck

/-- An image that passes its checks is sought by its digest, and stored where no slot holds it and there is room (R156, R273). -/
theorem State.install_checked :
    s.install tag (.data img) at' =
      match s.digestSlot (imgDigest img) with
      | some i => s.complete tag St.ok (((s.image i).map (imageHandle i)).getD 0)
      | none =>
        match s.freeSlot with
        | none => s.complete tag St.tableFull 0
        | some i =>
          if 2 ^ 30 < s.imageBytes + img.length then s.complete tag St.tableFull 0
          else
            let (st, t) := s.hdsWrite at' img
            if st = St.held then t
            else if st ≠ St.ok then t.complete tag st 0
            else (t.takeImage i img at').complete tag St.ok (imageHandle i ⟨FMap.getD t.imageGens i, img, at', false⟩) := by
  unfold State.install
  rw [hc]
  dsimp only
  rw [if_neg (by simp [hform]), hcheck]
  rfl

theorem State.install_again {i : Nat} {m : Image} (hsame : s.digestSlot (imgDigest img) = some i) (hi : s.image i = some m) :
    s.install tag (.data img) at' = s.complete tag St.ok (imageHandle i m) := by
  rw [State.install_checked hc hform at' hcheck, hsame]
  dsimp only
  rw [hi]
  rfl

section
variable (hnew : s.digestSlot (imgDigest img) = none)
include hnew

theorem State.install_full (hfull : s.freeSlot = none ∨ 2 ^ 30 < s.imageBytes + img.length) :
    s.install tag (.data img) at' = s.complete tag St.tableFull 0 := by
  rw [State.install_checked hc hform at' hcheck, hnew]
  dsimp only
  split
  · rfl
  · next hfree => exact if_pos (hfull.resolve_left (by simp [hfree]))

theorem State.install_stored {i : Nat} {t : State} (hfree : s.freeSlot = some i) (hroom : s.imageBytes + img.length ≤ 2 ^ 30)
    (hwrite : s.hdsWrite at' img = (St.ok, t)) :
    s.install tag (.data img) at' =
      (t.takeImage i img at').complete tag St.ok (imageHandle i ⟨FMap.getD t.imageGens i, img, at', false⟩) := by
  rw [State.install_checked hc hform at' hcheck, hnew, hfree, hwrite]
  exact if_neg (Nat.not_lt.mpr hroom)

end
end
end

/-! REMOVE. -/

section
variable (hform : c.flags.testBit 0 = true)
include hform

theorem State.removeImage_unknown (h : s.imageOf (c.arg 0x20 2) = none) : s.removeImage tag = s.complete tag St.invalidField 0 := by
  unfold State.removeImage
  rw [hc]
  dsimp only
  rw [if_neg (by simp [hform]), h]

theorem State.removeImage_known {m : Image} (h : s.imageOf (c.arg 0x20 2) = some m) :
    s.removeImage tag =
      (State.freeImages { s with images := FMap.setD s.images (c.arg 0x20 2 % 256) (some { m with removed := true }) }).complete tag
        St.ok (c.arg 0x20 2) := by
  unfold State.removeImage
  rw [hc]
  dsimp only
  rw [if_neg (by simp [hform]), h]

end
end
end

end Sys2Proof.Machine
end

section
/-! RUN (R157 to R161, R171, R272): Headstock takes a RUN that a host or another node has submitted. -/

namespace Sys2Proof.Machine

theorem exec_run {tag : Nat} (htag : tag < 8448) (params : HostRead) (room : Option Nat) (s : State) :
    exec (.run tag params room none) s = .next (s.seal (s.runTake tag params room)) :=
  done_of (by simp [okTag, okPart, htag]) s _

/-- The part of another node's RUN, under a number that no part has (R171). -/
theorem exec_run_part {tag : Nat} {p : RunPart} {s : State} (htag : tag < 8448) (hp : okPart (some p) = true) (hpart : 8192 ≤ tag)
    (hfree : s.cmd tag = none) (params : HostRead) (room : Option Nat) :
    exec (.run tag params room (some p)) s = .next (s.seal (s.partAdmit tag p params)) := by
  have hexec : exec (.run tag params room (some p)) s =
      .next (s.seal (if 8192 ≤ tag && (s.cmd tag).isNone then s.partAdmit tag p params else s)) :=
    done_of (by simp [okTag, htag, hp]) s _
  rw [hexec, if_pos (by simp [hpart, hfree])]

/-- The RUN of the image `img` cannot be served: its tables lie in more spaces than there are windows, or a stage has too many
instances for the tiles in service (R157, R159). -/
def State.runUnfit (s : State) (b img : List Byte) : Prop :=
  8 < (blockSpaces b).length ∨ ∃ k, k < 16 ∧ s.tilesInService.length < stageMin img k

/-- The first stage of an image. -/
def firstStage (img : List Byte) : Nat := ((imgFragList img).map (·.stage)).foldl min 15

/-- The RUN of a command as Headstock takes it, with the parameter block `b` and its areas at `a`. -/
def State.newRun (s : State) (c : Cmd) (b : List Byte) (a : Nat) : Run :=
  ⟨c.arg 0x20 1, b, a, s.tilesInService.length, 0, 0, 0, .waiting, [], none, [], [], [], [], [], []⟩

section
variable {s : State} {tag : Nat}

theorem State.runTake_idle (h : s.running? tag 0x44 = none ∨ (s.run tag).isSome = true) (params : HostRead) (room : Option Nat) :
    s.runTake tag params room = s := by
  unfold State.runTake
  split
  · rfl
  · next hc => exact if_pos (h.resolve_left (by simp [hc]))

section
variable {c : Cmd} (hc : s.running? tag 0x44 = some c) (hnew : s.run tag = none) (room : Option Nat)
include hc hnew

theorem State.runTake_denied : s.runTake tag .denied room = (s.aer c.fn .readRefused).complete tag St.accessDenied 0 := by
  unfold State.runTake
  rw [hc]
  exact if_neg (by simp [hnew])

theorem State.runTake_poisoned : s.runTake tag .poisoned room = (s.aer c.fn .readPoisoned).complete tag St.poisonedData 0 := by
  unfold State.runTake
  rw [hc]
  exact if_neg (by simp [hnew])

variable {b : List Byte}

/-- The handle names no image, or one of another generation (R273). -/
theorem State.runTake_no_image (h : ∀ m, s.image (c.arg 0x20 1) = some m → m.gen ≠ c.arg 0x21 1) :
    s.runTake tag (.data b) room = s.complete tag St.invalidField 0 := by
  have hnone : (s.image (c.arg 0x20 1)).filter (fun m => m.gen = c.arg 0x21 1) = none := by
    simpa [Option.filter_eq_none_iff] using h
  unfold State.runTake
  rw [hc]
  dsimp only
  rw [if_neg (by simp [hnew]), hnone]

section
variable {m : Image} (hm : s.image (c.arg 0x20 1) = some m) (hgen : m.gen = c.arg 0x21 1) (hlen : b.length = c.len)
include hm hgen hlen

/-- A RUN whose image the handle names, with the whole of its parameter block. -/
theorem State.runTake_named :
    s.runTake tag (.data b) room =
      if 8 < (blockSpaces b).length || (List.range 16).any (fun k => decide (s.tilesInService.length < stageMin m.bytes k)) then
        s.complete tag St.invalidField 0
      else
        match room with
        | none => s.complete tag St.tableFull 0
        | some a =>
          if a % 4096 ≠ 0 then s
          else
            let peers := if tag < 8192 then s.runPeers c (s.newRun c b a) else []
            if 4096 < s.txs.length + peers.length then s
            else (s.stageWait tag (s.newRun c b a) (firstStage m.bytes)).submitParts tag c (s.newRun c b a) peers := by
  have hsome : (s.image (c.arg 0x20 1)).filter (fun m => m.gen = c.arg 0x21 1) = some m := by simp [hm, hgen]
  unfold State.runTake
  rw [hc]
  dsimp only
  rw [if_neg (by simp [hnew]), hsome]
  exact if_neg (not_not_intro hlen)

theorem State.runTake_unfit (h : s.runUnfit b m.bytes) : s.runTake tag (.data b) room = s.complete tag St.invalidField 0 := by
  rw [State.runTake_named hc hnew room hm hgen hlen]
  exact if_pos (by simpa [State.runUnfit] using h)

section
variable (hfit : ¬ s.runUnfit b m.bytes)
include hfit

theorem State.runTake_no_room : s.runTake tag (.data b) none = s.complete tag St.tableFull 0 := by
  rw [State.runTake_named hc hnew none hm hgen hlen]
  exact if_neg (by simpa [State.runUnfit] using hfit)

/-- A RUN that is taken begins to wait for tiles, and its parts go to its other nodes (R159, R171). -/
theorem State.runTake_taken {a : Nat} (ha : a % 4096 = 0) {peers : List Nat}
    (hpeers : (if tag < 8192 then s.runPeers c (s.newRun c b a) else []) = peers) (htags : s.txs.length + peers.length ≤ 4096) :
    s.runTake tag (.data b) (some a) =
      (s.stageWait tag (s.newRun c b a) (firstStage m.bytes)).submitParts tag c (s.newRun c b a) peers := by
  subst hpeers
  rw [State.runTake_named hc hnew (some a) hm hgen hlen, if_neg (by simpa [State.runUnfit] using hfit)]
  dsimp only
  rw [if_neg (not_not_intro ha)]
  exact if_neg (Nat.not_lt.mpr htags)

end
end
end

/-! The part of a RUN that another node has submitted (R70, R171). -/

/-- The entry of a part, with this node's own handle of the image that the part names by its digest. -/
def State.partEntry (s : State) (p : RunPart) : List Byte :=
  p.entry.take 0x20 ++ natLE 2 (((s.digestSlot p.digest).bind (fun i => (s.image i).map (imageHandle i))).getD 0) ++ p.entry.drop 0x22

/-- This node among the nodes of a part: its FID and its own epoch. -/
def State.partNode (s : State) (p : RunPart) (b : List Byte) : Option (Nat × Nat) :=
  (runNodesOf (s.partEntry p) b).find? (fun n => s.ownFid = some n.1)

/-- The command that stands for a part. -/
def State.partCmd (s : State) (p : RunPart) (b : List Byte) : Cmd :=
  ⟨8192, p.src, 128, s.fetches, s.partEntry p, 0, 0, 0, b, [], 0, .waiting, none, [], 0, none, none⟩

/-- A part counts as a fetched command. -/
def State.partFetched (s : State) : State := { s with fetches := s.fetches + 1 }

/-- The command of a part, at this node's epoch `e`. -/
def State.partAt (s : State) (p : RunPart) (b : List Byte) (e : Nat) : Cmd :=
  { s.partCmd p b with epoch := e, descs := s.partFetched.blockDescs b }

section
variable {p : RunPart} {b : List Byte}

theorem State.partAdmit_refused (h : s.digestSlot p.digest = none ∨ s.partNode p b = none) :
    s.partAdmit tag p (.data b) = (s.partFetched.setCmd tag (some (s.partCmd p b))).complete tag St.invalidField 0 := by
  unfold State.partAdmit
  dsimp only
  split
  · next hslot hnode =>
    rcases h with h | h
    · cases h.symm.trans hslot
    · cases h.symm.trans hnode
  · rfl

/-- A part whose image is installed, on a node that it names: its tables are checked at this node's epoch. -/
theorem State.partAdmit_named {n : Nat × Nat} (hslot : s.digestSlot p.digest ≠ none) (hnode : s.partNode p b = some n) :
    s.partAdmit tag p (.data b) =
      if s.partFetched.tablesOk (s.partAt p b n.2) b false then s.partFetched.stepSix tag (s.partAt p b n.2) 1000
      else (s.partFetched.setCmd tag (some (s.partAt p b n.2))).complete tag St.invalidField 0 := by
  unfold State.partAdmit
  dsimp only
  split
  · next hn =>
    cases hnode.symm.trans hn
    rfl
  · next hno =>
    obtain ⟨i, hi⟩ := Option.ne_none_iff_exists'.mp hslot
    exact absurd hnode (hno i n hi)

end
end

end Sys2Proof.Machine
end

section
/-! The programs together (R155 to R171, R272, R273). -/

namespace Sys2Proof.Machine

/-- Settles O26: INSTALL_PROGRAM, REMOVE, RUN and a part of a RUN each by the cases of its own lemmas above. -/
theorem programsAreInstalledRemovedAndRun : Obligations.ProgramsAreInstalledRemovedAndRun := by
  intro s tag htag
  refine ⟨?idle, ?install, ?remove, ?runIdle, ?run, ?part⟩
  case idle =>
    intro host at' hat h
    rw [exec_installProgram htag hat, exec_programRemove htag, State.install_idle h, State.removeImage_idle h, ite_self]
    exact ⟨rfl, rfl⟩
  case install =>
    intro c at' hat hfree hc hform cmd
    have hcmd (host : HostRead) : cmd host = .next (s.seal (s.install tag host at')) := exec_installProgram_free htag hat hfree host
    refine ⟨?_, ?_, fun img n st hcheck => ⟨fun h2 h5 => ?_, fun h25 => ?_⟩, ?imgChecked⟩
    · rw [hcmd, State.install_denied hc hform]
    · rw [hcmd, State.install_poisoned hc hform]
    · rw [hcmd, State.install_failed hc hform at' hcheck, if_neg (not_or_intro h2 h5)]
    · rw [hcmd, State.install_failed hc hform at' hcheck, if_pos h25]
    case imgChecked =>
      intro img hcheck same total
      refine ⟨fun i m hsame hi => ?_, fun hnew => ⟨fun hfull => ?_, fun i t hslot hroom hwrite => ?_⟩⟩
      · rw [hcmd, State.install_again hc hform at' hcheck hsame hi]
      · rw [hcmd, State.install_full hc hform at' hcheck hnew hfull]
      · rw [hcmd, State.install_stored hc hform at' hcheck hnew hslot hroom hwrite]
        rfl
  case remove =>
    intro c hc hform
    rw [exec_programRemove htag]
    exact ⟨fun h => by rw [State.removeImage_unknown hc hform h], fun m h => by rw [State.removeImage_known hc hform h]⟩
  case runIdle =>
    intro params room h
    rw [exec_run htag, State.runTake_idle h]
  case run =>
    intro c room hc hnew cmd
    have hcmd (host : HostRead) : cmd host = .next (s.seal (s.runTake tag host room)) := exec_run htag host room s
    refine ⟨?_, ?_, fun b h => ?_, ?runNamed⟩
    · rw [hcmd, State.runTake_denied hc hnew]
    · rw [hcmd, State.runTake_poisoned hc hnew]
    · rw [hcmd, State.runTake_no_image hc hnew room h]
    case runNamed =>
      intro b m hm hgen hlen bad
      refine ⟨fun h => ?_, fun h hroom => ?_, ?taken⟩
      · rw [hcmd, State.runTake_unfit hc hnew room hm hgen hlen h]
      · rw [hcmd, hroom, State.runTake_no_room hc hnew hm hgen hlen h]
      case taken =>
        intro a h hroom ha first r u
        refine ⟨fun hpeers htags => ?_, fun hown htags => ?_⟩
        · have hnone : (if tag < 8192 then s.runPeers c (s.newRun c b a) else []) = [] := by
            rcases hpeers with hpart | hnone
            · exact if_neg (Nat.not_lt.mpr hpart)
            · rw [show s.runPeers c (s.newRun c b a) = [] from hnone, ite_self]
          rw [hcmd, hroom, State.runTake_taken hc hnew hm hgen hlen h ha hnone htags]
          rfl
        · rw [hcmd, hroom, State.runTake_taken hc hnew hm hgen hlen h ha (if_pos hown) htags]
          rfl
  case part =>
    intro p b room hp hpart hfree slot handle entry own c u refused
    have hexec := exec_run_part htag hp hpart hfree (.data b) room
    refine ⟨fun h => hexec.trans ?_, fun n hslot hown => ?partNamed⟩
    · rw [State.partAdmit_refused h]
      rfl
    case partNamed =>
      have hadmit := State.partAdmit_named (tag := tag) hslot hown
      refine ⟨fun hbad => hexec.trans ?_, fun hgood => hexec.trans ?_⟩
      · rw [hadmit, if_neg (show ¬ s.partFetched.tablesOk (s.partAt p b n.2) b false = true from Bool.eq_false_iff.mp hbad)]
        rfl
      · rw [hadmit, if_pos (show s.partFetched.tablesOk (s.partAt p b n.2) b false = true from hgood)]
        rfl

end Sys2Proof.Machine
end

section
/-! Stages of a RUN are placed and started (R157 to R163, R171). -/

namespace Sys2Proof.Machine

theorem exec_stagePlace {tag : Nat} (htag : tag < 8448) (tiles : List Nat) (before after : List (Nat × List (Nat × Nat))) (s : State) :
    exec (.stagePlace tag tiles before after) s = .next (s.seal (s.stagePlace tag tiles before after)) := done_of (tagOk htag) s _

theorem exec_stageStart {tag gen : Nat} (htag : tag < 8448) (hgen : gen < 16) (s : State) :
    exec (.stageStart tag gen) s = .next (s.seal (s.stageStart tag gen)) := done_of (by simp [okTag, htag, hgen]) s _

/-- The counts of a RUN's present stage on the tiles that are free (R159). -/
def State.placeCounts (s : State) (r : Run) : List (Nat × Nat) := stageCounts (s.runImage r) r.stage s.freeTiles.length

/-- The tiles chosen for a stage are distinct, free and halted, and as many as its fragments' counts need (R159). -/
def State.placeFits (s : State) (r : Run) (tiles : List Nat) : Prop :=
  tiles.length = ((s.placeCounts r).map (·.2)).foldl (· + ·) 0 ∧ noRepeats (tiles.map (fun t => (t, 0))) = true ∧
    ∀ t, t ∈ tiles → s.freeTiles.contains t = true ∧ ∀ n, s.localTile t = some n → s.halted n = true

/-- The RUN once its stage is placed: the time that it waited does not count towards its limit (R159, R169). -/
def State.placedRun (s : State) (r : Run) (tiles : List Nat) (before after : List (Nat × List (Nat × Nat))) : Run :=
  { r with
    phase := .placed
    insts := makeInsts before after (s.placeCounts r) tiles
    deadline := r.deadline.map (fun d => d + (s.time.toNat - r.waitFrom)) }

/-- The RUN once its placed stage runs: the first stage sets its limit (R169). -/
def State.startedRun (s : State) (c : Cmd) (r : Run) : Run :=
  { r with phase := .running, deadline := some (r.deadline.getD (s.time.toNat + 1000000 * runLimitMs c (s.runImage r))) }

/-- The stage of a RUN begins to run: the shared area reads 0 at the first one (R161). -/
def State.stageBegins (s : State) (tag : Nat) (c : Cmd) (r : Run) : State :=
  let u := s.setRun tag (some (s.startedRun c r))
  if r.deadline = none then (u.hdsWrite r.room (List.replicate (mib * imgShared (s.runImage r)) 0)).2 else u

section
variable {s : State} {tag : Nat}

theorem State.stagePlace_none (h : s.run tag = none) (tiles : List Nat) (before after : List (Nat × List (Nat × Nat))) :
    s.stagePlace tag tiles before after = s := by
  unfold State.stagePlace
  rw [h]

theorem State.stageStart_none (h : s.run tag = none) (gen : Nat) : s.stageStart tag gen = s := by
  unfold State.stageStart
  rw [h]

variable {r : Run} (hrun : s.run tag = some r)
include hrun

section
variable (tiles : List Nat) (before after : List (Nat × List (Nat × Nat)))

theorem State.stagePlace_other (h : r.phase ≠ .waiting ∨ s.waitsBefore r.since = true) : s.stagePlace tag tiles before after = s := by
  unfold State.stagePlace
  rw [hrun]
  exact if_pos (by simpa using h)

section
variable (hwait : r.phase = .waiting) (hlongest : s.waitsBefore r.since = false)
include hwait hlongest

/-- The stage of a RUN that has waited longest can never fit. -/
theorem State.stagePlace_never (h : s.tilesInService.length < stageMin (s.runImage r) r.stage) :
    s.stagePlace tag tiles before after = s.runStop tag r St.invalidField := by
  unfold State.stagePlace
  rw [hrun]
  dsimp only
  rw [if_neg (by simp [hwait, hlongest]), if_pos h]

section
variable (hservice : stageMin (s.runImage r) r.stage ≤ s.tilesInService.length)
include hservice

theorem State.stagePlace_waits (h : s.freeTiles.length < stageMin (s.runImage r) r.stage) : s.stagePlace tag tiles before after = s := by
  unfold State.stagePlace
  rw [hrun]
  dsimp only
  rw [if_neg (by simp [hwait, hlongest]), if_neg (Nat.not_lt.mpr hservice), if_pos h]

theorem State.stagePlace_placed (hfree : stageMin (s.runImage r) r.stage ≤ s.freeTiles.length) (hfit : s.placeFits r tiles) :
    s.stagePlace tag tiles before after = s.setRun tag (some (s.placedRun r tiles before after)) := by
  obtain ⟨hcount, hdistinct, htiles⟩ := hfit
  have hall : tiles.all (fun t => s.freeTiles.contains t && (match s.localTile t with | some n => s.halted n | none => true)) = true := by
    refine List.all_eq_true.mpr (fun t ht => ?_)
    obtain ⟨hmem, hhalted⟩ := htiles t ht
    rw [hmem, Bool.true_and]
    split
    · next n hn => exact hhalted n hn
    · rfl
  unfold State.stagePlace
  rw [hrun]
  dsimp only
  rw [if_neg (by simp [hwait, hlongest]), if_neg (Nat.not_lt.mpr hservice), if_neg (Nat.not_lt.mpr hfree)]
  refine if_neg ?_
  simp only [Bool.not_eq_true', Bool.not_eq_false, Bool.and_eq_true, decide_eq_true_eq]
  exact ⟨⟨hcount, hall⟩, hdistinct⟩

end
end
end

section
variable {c : Cmd} (hcmd : s.cmd tag = some c) (gen : Nat)
include hcmd

theorem State.stageStart_old_gen (hplaced : r.phase = .placed) (hgen : s.genFits (s.runImage r) r gen = false) :
    s.stageStart tag gen = s := by
  unfold State.stageStart
  rw [hrun, hcmd]
  exact if_pos (by simp [hplaced, hgen])

theorem State.stageStart_placed (hplaced : r.phase = .placed) (hgen : s.genFits (s.runImage r) r gen = true) :
    s.stageStart tag gen =
      r.insts.foldl (fun x i => x.startInst c (s.startedRun c r) i)
        (((s.stageBegins tag c r).placeCode (s.runImage r) (s.startedRun c r)).configChannels (s.runImage r) tag (s.startedRun c r) gen) := by
  unfold State.stageStart
  rw [hrun, hcmd]
  dsimp only
  rw [if_neg (by simp [hgen]), if_pos hplaced]
  unfold State.stageBegins
  simp only [Option.isNone_iff_eq_none]
  rfl

theorem State.stageStart_over (hover : r.stageOver = true) :
    s.stageStart tag gen = match nextStage (s.runImage r) r.stage with | some st => s.stageWait tag r st | none => s := by
  have hphase : r.phase ≠ .placed := by
    intro hplaced
    simp [Run.stageOver, hplaced] at hover
  unfold State.stageStart
  rw [hrun, hcmd]
  exact (if_neg (by simp [hphase])).trans ((if_neg hphase).trans (if_pos hover))

end
end

end Sys2Proof.Machine
end

section
/-! The end of a RUN (R94, R168, R169, R171): what ends it, the halt of its tiles, and its time limit. -/

namespace Sys2Proof.Machine

theorem exec_runEnd {tag : Nat} (htag : tag < 8448) (st : BitVec 16) (node : Option Nat) (s : State) :
    exec (.runEnd tag st node) s = .next (s.seal (s.runEnd tag st.toNat node)) := done_of (tagOk htag) s _

theorem exec_runTimeLimit {tag : Nat} (htag : tag < 8448) (s : State) :
    exec (.runTimeLimit tag) s = .next (s.seal (s.runLimit tag)) := done_of (tagOk htag) s _

/-- The RUN once the node that reports, if one does, is counted. -/
def Run.hearNode (r : Run) : Option Nat → Run
  | some f => r.hear f
  | none => r

/-- The node that reports, if one does, is counted. -/
def State.hearNode (s : State) (tag : Nat) (r : Run) (node : Option Nat) : State :=
  match node with
  | some _ => s.setRun tag (some (r.hearNode node))
  | none => s

/-- The channels of a halted RUN's tiles are reset with a status, in either half (R168). -/
def State.endChannels (s : State) (tag : Nat) (r : Run) (st : Nat) : State :=
  let v := (s.runTiles tag r).foldl (fun u n => u.resetChannels n st) s
  (v.peerInsts r).foldl (fun u i => u.resetPeer i.tile st) v

/-- What tiles have on its way to a sink is dropped (R168). -/
def State.dropSinks (s : State) (tiles : List Nat) : State :=
  { s with noc := s.noc.filter (fun m => !((m.kind = 2 || m.kind = 3) && tiles.contains m.sender)) }

/-- A RUN has halted where its tiles here have, those of the other half are known to have, and every other node has been told and
heard from (R168, R171). -/
theorem State.runHalted_iff (s : State) (tag : Nat) (r : Run) :
    s.runHalted tag r = true ↔
      (∀ n ∈ s.runTiles tag r, s.fld (Reg.TIL_STATUS n) 3 0 ≠ 0 ∧ s.bit (Reg.TIL_CTL n) 0 = false) ∧
        (∀ i ∈ s.peerInsts r, r.halted.contains i.tile = true) ∧
        (8192 ≤ tag ∨ ∀ i ∈ r.insts, ∀ f, i.fid = some f → r.heard.contains f = true) ∧ s.untold tag r = [] := by
  have hheard (i : Inst) : (match i.fid with | some f => r.heard.contains f | none => true) = true ↔
      ∀ f, i.fid = some f → r.heard.contains f = true := by
    cases i.fid <;> simp
  unfold State.runHalted
  simp only [Bool.and_eq_true, and_assoc]
  refine and_congr ?tiles (and_congr List.all_eq_true (and_congr ?nodes List.isEmpty_iff))
  case tiles => simp
  case nodes =>
    rw [Bool.or_eq_true, decide_eq_true_eq, List.all_eq_true]
    exact or_congr_right (forall₂_congr (fun i _ => hheard i))

section
variable {s : State} {tag : Nat} {r : Run}

theorem State.runFinish_early (h : s.runHalted tag r = false) (st : Nat) :
    s.runFinish tag r st = (s.askPeers r).tellParts tag st := by
  unfold State.runFinish
  exact if_pos (by simp [h])

theorem State.runFinish_halted (h : s.runHalted tag r = true) (st : Nat) :
    s.runFinish tag r st = ((s.endChannels tag r st).dropSinks (s.runTiles tag r)).runOver tag st 0 := by
  unfold State.runFinish
  exact if_neg (by simp [h])

theorem State.runEnd_none (h : s.run tag = none) (st : Nat) (node : Option Nat) : s.runEnd tag st node = s := by
  unfold State.runEnd
  rw [h]

theorem State.runLimit_none (h : s.run tag = none) : s.runLimit tag = s := by
  unfold State.runLimit
  rw [h]

section
variable (hrun : s.run tag = some r)
include hrun

/-- A RUN that ends already goes on with the status that it ends with. -/
theorem State.runEnd_ending {x : Nat} (hend : r.phase = .ending x) (st : Nat) (node : Option Nat) :
    s.runEnd tag st node = (s.hearNode tag r node).runFinish tag (r.hearNode node) x := by
  unfold State.runEnd
  rw [hrun]
  dsimp only
  rw [hend]
  cases node <;> rfl

section
variable (hlive : ∀ x, r.phase ≠ .ending x) (st : Nat) (node : Option Nat)
include hlive

/-- A RUN that does not end yet: a stopped tile comes first, then a status other than OK, then a node's report. -/
theorem State.runEnd_live :
    s.runEnd tag st node =
      match s.stoppedTile r with
      | some n => s.runFault tag r n
      | none =>
        if st ≠ St.ok then s.runStop tag r st
        else match node with | some f => s.setRun tag (some (r.hear f)) | none => s.askPeers r := by
  unfold State.runEnd
  rw [hrun]
  dsimp only
  split
  · next hend => exact absurd hend (hlive _)
  · next hend => exact absurd hend (hlive _)
  · rfl

theorem State.runEnd_stopped {n : Nat} (hstop : s.stoppedTile r = some n) : s.runEnd tag st node = s.runFault tag r n := by
  rw [State.runEnd_live hrun hlive, hstop]

section
variable (hstop : s.stoppedTile r = none)
include hstop

theorem State.runEnd_failed {st : Nat} (hst : st ≠ St.ok) : s.runEnd tag st node = s.runStop tag r st := by
  rw [State.runEnd_live hrun hlive, hstop]
  exact if_pos hst

theorem State.runEnd_asks : s.runEnd tag St.ok none = s.askPeers r := by
  rw [State.runEnd_live hrun hlive, hstop]
  exact if_neg (not_not_intro rfl)

theorem State.runEnd_hears (f : Nat) : s.runEnd tag St.ok (some f) = s.setRun tag (some (r.hear f)) := by
  rw [State.runEnd_live hrun hlive, hstop]
  exact if_neg (not_not_intro rfl)

end
end

theorem State.runLimit_due (hphase : r.phase = .running) (hleft : r.stageOver = false ∨ r.stage ≠ lastStage (s.runImage r)) :
    s.runLimit tag = (s.atTime (r.deadline.getD 0)).runStop tag r St.programTimeout := by
  have hnot : (r.stageOver && decide (r.stage = lastStage (s.runImage r))) = false :=
    Bool.and_eq_false_iff.mpr (hleft.imp_right decide_eq_false)
  unfold State.runLimit
  rw [hrun]
  exact if_pos (by simp [hphase, hnot])

theorem State.runLimit_idle (hphase : r.phase ≠ .running) : s.runLimit tag = s := by
  unfold State.runLimit
  rw [hrun]
  exact if_neg (by simp [hphase])

end
end

end Sys2Proof.Machine
end

section
/-! The stages of a RUN together (R157 to R171). -/

namespace Sys2Proof.Machine

/-- Settles O27: each command is one of the cases of its own lemmas above, by the phase of the RUN. -/
theorem runStagesArePlacedStartedAndEnded : Obligations.RunStagesArePlacedStartedAndEnded := by
  intro s tag htag
  refine ⟨fun hnone => ⟨fun tiles before after => ?_, fun gen hgen => ?_, fun st node => ?_, ?_⟩, ?runs⟩
  · rw [exec_stagePlace htag, State.stagePlace_none hnone]
  · rw [exec_stageStart htag hgen, State.stageStart_none hnone]
  · rw [exec_runEnd htag, State.runEnd_none hnone]
  · rw [exec_runTimeLimit htag, State.runLimit_none hnone]
  case runs =>
    intro r hrun img need counts
    refine ⟨?place, ?start, s.runHalted_iff tag r, ?ends, fun hphase hleft => ?_, fun hphase => ?_⟩
    case place =>
      intro tiles before after place
      have hplace : place = .next (s.seal (s.stagePlace tag tiles before after)) := exec_stagePlace htag tiles before after s
      rw [hplace]
      refine ⟨fun h => ?_, fun hwait hlongest h => ?_, fun hwait hlongest hservice h => ?_,
        fun hwait hlongest hservice hfree hcount hdistinct htiles => ?_⟩
      · rw [State.stagePlace_other hrun _ _ _ h]
      · rw [State.stagePlace_never hrun _ _ _ hwait hlongest h]
      · rw [State.stagePlace_waits hrun _ _ _ hwait hlongest hservice h]
      · rw [State.stagePlace_placed hrun _ _ _ hwait hlongest hservice hfree ⟨hcount, hdistinct, htiles⟩]
        rfl
    case start =>
      intro c gen hcmd hgen
      rw [exec_stageStart htag hgen]
      refine ⟨fun hplaced hold => ?_, fun hplaced hnew => ?_, fun hover => ?_⟩
      · rw [State.stageStart_old_gen hrun hcmd gen hplaced hold]
      · rw [State.stageStart_placed hrun hcmd gen hplaced hnew]
        rfl
      · exact congrArg (fun t => Host.Outcome.next (s.seal t)) (State.stageStart_over hrun hcmd gen hover)
    case ends =>
      intro st node
      rw [exec_runEnd htag]
      refine ⟨fun x hend => ?ending,
        fun hlive => ⟨fun n hstop => ?stopped, fun hstop => ⟨fun hok hnode => ?_, fun f hok hnode => ?_, fun hst => ?_⟩⟩⟩
      case ending =>
        rw [State.runEnd_ending hrun hend]
        refine ⟨fun h => ?_, fun h => ?_⟩
        · rw [State.runFinish_early (s := s.hearNode tag r node) (r := r.hearNode node) h]
          rfl
        · rw [State.runFinish_halted (s := s.hearNode tag r node) (r := r.hearNode node) h]
          rfl
      case stopped =>
        rw [State.runEnd_stopped hrun hlive _ _ hstop]
        rfl
      · rw [hok, hnode, State.runEnd_asks hrun hlive hstop]
      · rw [hok, hnode, State.runEnd_hears hrun hlive hstop]
      · rw [State.runEnd_failed hrun hlive _ hstop hst]
    · rw [exec_runTimeLimit htag, State.runLimit_due hrun hphase hleft]
    · rw [exec_runTimeLimit htag, State.runLimit_idle hrun hphase]

end Sys2Proof.Machine
end

section
/-! Searches of the Gauge (R174, R175, R178, R179, R187, R191): a key matches an entry, and a lookup is refused or answers the picked
match. -/

namespace Sys2Proof.Machine

theorem State.gHits_iff (s : State) (w b j : Nat) (key : List DWord) :
    s.gHits w b j key = true ↔ ∀ i < w, (key.getD i 0 ^^^ (s.gRow b (j + i)).value) &&& (s.gRow b (j + i)).care = 0 := by
  simp only [State.gHits, List.all_eq_true, List.mem_range, beq_iff_eq]

/-- A search whose picked match has good parity is over after one pass (R179). -/
theorem State.gSearch_clean {s : State} {t : Nat} {key : List DWord} {pick : List GMatch → Option GMatch}
    (h : ∀ f, pick (s.gMatches t key) = some f → f.row.bad = false) (fuel : Nat) :
    s.gSearch t key pick (fuel + 1) =
      (⟨St.ok, gResult (pick (s.gMatches t key)) (s.gMatches t key).length, pick (s.gMatches t key)⟩, s) := by
  rw [State.gSearch]
  dsimp only
  cases hf : pick (s.gMatches t key) with
  | none => rfl
  | some f =>
    dsimp only
    rw [if_neg (by simp [h f hf])]

section
variable {s j : State} {m t : Nat} {key : List DWord} {pick : List GMatch → Option GMatch}

theorem State.gLookup_lost (hlost : s.gLost t = true) : s.gLookup m t key pick = (⟨St.halfLost, 0, none⟩, s) := by
  rw [State.gLookup, if_pos hlost]

theorem State.gLookup_denied {v : Nat} (hlost : s.gLost t = false)
    (hjudge : s.judge 0x01 m searchGranule (8 * s.gWidth t) Rights.read = (v, j)) (hv : v ≠ St.ok) :
    s.gLookup m t key pick = (⟨v, 0, none⟩, j) := by
  rw [State.gLookup, if_neg (by simp [hlost]), hjudge]
  exact if_pos hv

section
variable (hlost : s.gLost t = false) (hjudge : s.judge 0x01 m searchGranule (8 * s.gWidth t) Rights.read = (St.ok, j))
include hlost hjudge

/-- What a lookup that the access table admits comes to: the table's own range and its FAULT bit decide. -/
theorem State.gLookup_judged :
    s.gLookup m t key pick =
      if m < j.fld (Reg.GAU_TBL_ACL t) 11 0 || j.fld (Reg.GAU_TBL_ACL t) 23 12 < m then
        (⟨(j.denyAt 0x01 m searchGranule).1.status, 0, none⟩, (j.denyAt 0x01 m searchGranule).2)
      else if j.bit (Reg.GAU_TBL_CFG t) 30 then (⟨St.poisonedData, 0, none⟩, j)
      else
        let r := j.gSearch t key pick (j.gauge.length + 1)
        (r.1, if r.1.status = St.ok then r.2.countWrap (Reg.GAU_TBL_SEARCHES t) else r.2) := by
  rw [State.gLookup, if_neg (by simp [hlost]), hjudge]
  exact if_neg (not_not.mpr rfl)

theorem State.gLookup_outside (h : ¬ (j.fld (Reg.GAU_TBL_ACL t) 11 0 ≤ m ∧ m ≤ j.fld (Reg.GAU_TBL_ACL t) 23 12)) :
    s.gLookup m t key pick =
      (⟨(j.denyAt 0x01 m searchGranule).1.status, 0, none⟩, (j.denyAt 0x01 m searchGranule).2) := by
  rw [State.gLookup_judged hlost hjudge, if_pos (by simp; omega)]

section
variable (hrange : j.fld (Reg.GAU_TBL_ACL t) 11 0 ≤ m ∧ m ≤ j.fld (Reg.GAU_TBL_ACL t) 23 12)
include hrange

theorem State.gLookup_faulted (hfault : j.bit (Reg.GAU_TBL_CFG t) 30 = true) :
    s.gLookup m t key pick = (⟨St.poisonedData, 0, none⟩, j) := by
  rw [State.gLookup_judged hlost hjudge, if_neg (by simp; omega), if_pos hfault]

theorem State.gLookup_clean (hfault : j.bit (Reg.GAU_TBL_CFG t) 30 = false)
    (hgood : ∀ f, pick (j.gMatches t key) = some f → f.row.bad = false) :
    s.gLookup m t key pick =
      (⟨St.ok, gResult (pick (j.gMatches t key)) (j.gMatches t key).length, pick (j.gMatches t key)⟩,
        j.countWrap (Reg.GAU_TBL_SEARCHES t)) := by
  rw [State.gLookup_judged hlost hjudge, if_neg (by simp; omega), if_neg (by simp [hfault]), State.gSearch_clean hgood]
  rfl

end
end
end

end Sys2Proof.Machine
end

section
/-! GAUGE_SEARCH (R178, R181, R182, R190): a search arrives over the mesh, and is refused, queued or made. -/

namespace Sys2Proof.Machine

theorem State.gServe_frozen {s : State} (h : s.arbFrozen 3 = true) : s.gServe = s := by
  rw [State.gServe, if_pos h]

theorem State.gAsk_frozen {s : State} {q : GSearch} (hf : s.arbFrozen 3 = true) (hn : s.gaugeDone.find? (fun d => d.1 = q) = none) :
    s.gAsk q = (St.held, 0, s.gEnqueue q) := by
  rw [State.gAsk, State.gServe_frozen hf]
  dsimp only
  rw [hn]
  exact if_pos hf

theorem State.gAsk_idle {s : State} (h : s.GaugeIdle) (q : GSearch) :
    s.gAsk q = ((s.gMake q).1.status, (s.gMake q).1.word, (s.gMake q).2) := by
  have ⟨_, hdone, hfree, _⟩ := h
  rw [State.gAsk, State.gServe_idle h]
  dsimp only
  rw [hdone]
  exact if_neg (by simp [hfree])

/-- A parity error shows in the array alone. -/
theorem State.gaugeSpoil_arbFrozen (s : State) (t rank : Nat) (key : List DWord) (i : Nat) :
    (s.gaugeSpoil t rank key).arbFrozen i = s.arbFrozen i := by
  unfold State.gaugeSpoil
  split <;> rfl

theorem exec_gaugeSearch {m t rank : Nat} (hm : m < 4096) (ht : t < 16) (hrank : rank < 255) (key : List DWord) (parity : Bool)
    (s : State) : exec (.gaugeSearch m t rank key parity) s = .next (s.seal (s.gaugeArrive m t rank key parity)) :=
  done_of (by simp [okMaster, hm, ht, hrank]) s _

theorem State.gaugeArrive_back {s : State} (h : s.role = some true) (m t rank : Nat) (key : List DWord) (parity : Bool) :
    s.gaugeArrive m t rank key parity = s := by
  rw [State.gaugeArrive, if_pos h]

section
variable {s u : State} {m : Nat} (hrole : s.role ≠ some true)
  (hgate : s.domainGate (.reg 0x350000) m (regDpa 0x350000) = none) (hu : u = s.wakeTile (.reg 0x350000))
include hrole hgate hu

theorem State.gaugeArrive_refused {t : Nat} {key : List DWord} (h : u.gTable t = false ∨ key.length ≠ u.gWidth t) (rank : Nat)
    (parity : Bool) : s.gaugeArrive m t rank key parity = u.mcAnswer (MemAnswer.stop St.invalidField) := by
  rw [State.gaugeArrive, if_neg hrole, State.arrive_of hgate hu]
  dsimp only
  rw [if_pos (by simpa using h)]

section
variable {t : Nat} {key : List DWord} (htable : u.gTable t = true) (hkey : key.length = u.gWidth t)
include htable hkey

/-- A search of an existing table by a key of its width asks the Gauge; the operand's parity error shows first. -/
theorem State.gaugeArrive_asks (rank : Nat) (parity : Bool) :
    s.gaugeArrive m t rank key parity =
      let r := (if parity && !u.arbFrozen 3 then u.gaugeSpoil t rank key else u).gAsk ⟨t, m, some rank, key, none⟩
      r.2.2.mcAnswer ⟨r.1, if r.1 = St.ok then natLE 8 r.2.1 else [], false⟩ := by
  rw [State.gaugeArrive, if_neg hrole, State.arrive_of hgate hu]
  dsimp only
  rw [if_neg (by simp [htable, hkey])]

theorem State.gaugeArrive_frozen {rank : Nat} (hf : u.arbFrozen 3 = true)
    (hn : u.gaugeDone.find? (fun d => d.1 = ⟨t, m, some rank, key, none⟩) = none) (parity : Bool) :
    s.gaugeArrive m t rank key parity = (u.gEnqueue ⟨t, m, some rank, key, none⟩).mcAnswer (MemAnswer.stop St.held) := by
  rw [State.gaugeArrive_asks hrole hgate hu htable hkey, if_neg (by simp [hf]), State.gAsk_frozen hf hn]
  rfl

theorem State.gaugeArrive_idle (rank : Nat) (parity : Bool)
    (hidle : (if parity then u.gaugeSpoil t rank key else u).GaugeIdle) :
    s.gaugeArrive m t rank key parity =
      let l := (if parity then u.gaugeSpoil t rank key else u).gLookup m t key (fun ms => ms[rank]?)
      l.2.mcAnswer ⟨l.1.status, if l.1.status = St.ok then natLE 8 l.1.word else [], false⟩ := by
  have hfree : u.arbFrozen 3 = false := by
    obtain ⟨_, _, hfree, _⟩ := hidle
    cases parity with
    | false => exact hfree
    | true => exact (u.gaugeSpoil_arbFrozen t rank key 3).symm.trans hfree
  rw [State.gaugeArrive_asks hrole hgate hu htable hkey, hfree, Bool.not_false, Bool.and_true, State.gAsk_idle hidle]
  rfl

end
end

end Sys2Proof.Machine
end

section
/-! The slot commands of the Gauge (R189): a write of a slot's CMD takes effect where it starts the opcode, by the rule of the
opcode. -/

namespace Sys2Proof.Machine

theorem bits_7_0 (n : Nat) : bits n 7 0 = n % 256 := by
  rw [bits_eq]
  simp

/-- The state in which a slot command of opcode `op` does its work: CMD is written, the searches that wait for no freeze are made, and
the slot keeps the opcode for a NEXT (R181, R189). -/
def State.gTaken (t : State) (m slot : Nat) (v : Word) (op : Nat) : State :=
  let put := (t.plainWrite m (Reg.GAU_SLOT_CMD slot) v).gServe
  { put with gaugeLast := FMap.setD put.gaugeLast slot op }

section
variable {t : State} {m slot : Nat} {v : Word} {back : Nat}

theorem State.gCommand_busy (h : t.bit (Reg.GAU_SLOT_STATUS slot) 31 = true) :
    t.gCommand m slot v back = t.refuse m (Reg.GAU_SLOT_CMD slot) St.accessDenied := by
  rw [State.gCommand, if_pos h]

section
variable {op : Nat} (hidle : t.bit (Reg.GAU_SLOT_STATUS slot) 31 = false) (hstart : v.toNat.testBit 31 = true)
  (hop : v.toNat % 256 = op)
include hidle hstart hop

/-- A command that an idle slot takes: its opcode, its table, and whether the table has lost a half decide (R189, R191). -/
theorem State.gCommand_taken (h0 : op ≠ 0) (h9 : op ≤ 9) :
    t.gCommand m slot v back =
      let u := t.gTaken m slot v op
      let tb := bits v.toNat 11 8
      if op = 1 then u.gCreate slot back
      else if !u.gTable tb then u.gDone slot St.invalidField
      else if op = 2 then u.gDestroy slot tb
      else if u.gLost tb then u.gDone slot St.halfLost
      else if op = 3 then ((u.wr (Reg.GAU_TBL_ACL tb) (u.rd (Reg.GAU_SLOT_ACL slot))).gTell tb).gDone slot St.ok
      else if op = 4 then (if u.gMoving tb then u.gHold slot else u.gWriteEntry slot tb back)
      else if op = 5 then u.gSlotSearch m slot tb
      else if op = 6 then
        u.gNext m slot tb (FMap.getD (t.plainWrite m (Reg.GAU_SLOT_CMD slot) v).gServe.gaugeLast slot)
      else if op = 7 then u.gReload slot tb back
      else if op = 8 then u.gMove slot tb
      else u.gRead slot tb := by
  rw [State.gCommand, if_neg (by simp [hidle])]
  dsimp only
  rw [if_neg (by simp [hstart]), bits_7_0, hop, if_neg (by simp [h0, h9])]
  rfl

theorem State.gCommand_create (h : op = 1) : t.gCommand m slot v back = (t.gTaken m slot v op).gCreate slot back := by
  rw [State.gCommand_taken hidle hstart hop (by omega) (by omega)]
  exact if_pos h

theorem State.gCommand_no_table (h2 : 2 ≤ op) (h9 : op ≤ 9) (htable : (t.gTaken m slot v op).gTable (bits v.toNat 11 8) = false) :
    t.gCommand m slot v back = (t.gTaken m slot v op).gDone slot St.invalidField := by
  rw [State.gCommand_taken hidle hstart hop (by omega) h9]
  dsimp only
  rw [if_neg (by omega), if_pos (by simp [htable])]

section
variable (htable : (t.gTaken m slot v op).gTable (bits v.toNat 11 8) = true)
include htable

theorem State.gCommand_destroy (h : op = 2) :
    t.gCommand m slot v back = (t.gTaken m slot v op).gDestroy slot (bits v.toNat 11 8) := by
  rw [State.gCommand_taken hidle hstart hop (by omega) (by omega)]
  dsimp only
  rw [if_neg (by omega), if_neg (by simp [htable]), if_pos h]

theorem State.gCommand_lost (h3 : 3 ≤ op) (h9 : op ≤ 9) (hlost : (t.gTaken m slot v op).gLost (bits v.toNat 11 8) = true) :
    t.gCommand m slot v back = (t.gTaken m slot v op).gDone slot St.halfLost := by
  rw [State.gCommand_taken hidle hstart hop (by omega) h9]
  dsimp only
  rw [if_neg (by omega), if_neg (by simp [htable]), if_neg (by omega), if_pos hlost]

section
variable (hlost : (t.gTaken m slot v op).gLost (bits v.toNat 11 8) = false)
include hlost

theorem State.gCommand_setAcl (h : op = 3) :
    t.gCommand m slot v back =
      let u := t.gTaken m slot v op
      let tb := bits v.toNat 11 8
      ((u.wr (Reg.GAU_TBL_ACL tb) (u.rd (Reg.GAU_SLOT_ACL slot))).gTell tb).gDone slot St.ok := by
  subst h
  rw [State.gCommand_taken hidle hstart hop (by decide) (by decide)]
  simp [htable, hlost]

theorem State.gCommand_write (h : op = 4) :
    t.gCommand m slot v back =
      let u := t.gTaken m slot v op
      let tb := bits v.toNat 11 8
      if u.gMoving tb then u.gHold slot else u.gWriteEntry slot tb back := by
  subst h
  rw [State.gCommand_taken hidle hstart hop (by decide) (by decide)]
  simp [htable, hlost]

theorem State.gCommand_search (h : op = 5) :
    t.gCommand m slot v back = (t.gTaken m slot v op).gSlotSearch m slot (bits v.toNat 11 8) := by
  subst h
  rw [State.gCommand_taken hidle hstart hop (by decide) (by decide)]
  simp [htable, hlost]

theorem State.gCommand_next (h : op = 6) :
    t.gCommand m slot v back =
      (t.gTaken m slot v op).gNext m slot (bits v.toNat 11 8)
        (FMap.getD (t.plainWrite m (Reg.GAU_SLOT_CMD slot) v).gServe.gaugeLast slot) := by
  subst h
  rw [State.gCommand_taken hidle hstart hop (by decide) (by decide)]
  simp [htable, hlost]

theorem State.gCommand_reload (h : op = 7) :
    t.gCommand m slot v back = (t.gTaken m slot v op).gReload slot (bits v.toNat 11 8) back := by
  subst h
  rw [State.gCommand_taken hidle hstart hop (by decide) (by decide)]
  simp [htable, hlost]

theorem State.gCommand_move (h : op = 8) :
    t.gCommand m slot v back = (t.gTaken m slot v op).gMove slot (bits v.toNat 11 8) := by
  subst h
  rw [State.gCommand_taken hidle hstart hop (by decide) (by decide)]
  simp [htable, hlost]

theorem State.gCommand_read (h : op = 9) :
    t.gCommand m slot v back = (t.gTaken m slot v op).gRead slot (bits v.toNat 11 8) := by
  subst h
  rw [State.gCommand_taken hidle hstart hop (by decide) (by decide)]
  simp [htable, hlost]

end
end
end
end

/-- The status of the other half's share is an operand of the commands that write its banks or load them: CREATE, WRITE and RELOAD. -/
def gaugeShare (op : Nat) (back : BitVec 16) : Nat := if op = 1 ∨ op = 4 ∨ op = 7 then back.toNat else St.ok

theorem gaugeShare_back {op : Nat} (h : op = 1 ∨ op = 4 ∨ op = 7) (back : BitVec 16) : gaugeShare op back = back.toNat := if_pos h

/-- The slot commands, by opcode (R189). -/
def gaugeSlotCommands (m slot : Nat) (v : Word) (back : BitVec 16) : List (Nat × Instr) :=
  [(1, Instr.gaugeCreate m slot v back), (2, .gaugeDestroy m slot v), (3, .gaugeSetAcl m slot v),
    (4, .gaugeWrite m slot v back none), (5, .gaugeSlotSearch m slot v), (6, .gaugeNext m slot v),
    (7, .gaugeReload m slot v back), (8, .moveBank m slot v), (9, .gaugeRead m slot v)]

section
variable {s t : State} {m slot op : Nat} {v : Word} {back : BitVec 16} {i : Instr} (hm : m < 4096) (hslot : slot < 16)
  (hi : (op, i) ∈ gaugeSlotCommands m slot v back)
include hi

theorem gaugeSlotCommands_opcode : 1 ≤ op ∧ op ≤ 9 := by
  simp only [gaugeSlotCommands, List.mem_cons, List.not_mem_nil, or_false, Prod.mk.injEq] at hi
  omega

include hm hslot

theorem exec_gaugeSlot : exec i s = .next (s.seal (s.gaugeRow m slot op v (gaugeShare op back))) := by
  have hok : (okMaster m && decide (slot < 16)) = true := by simp [okMaster, hm, hslot]
  simp only [gaugeSlotCommands, List.mem_cons, List.not_mem_nil, or_false, Prod.mk.injEq] at hi
  rcases hi with ⟨rfl, rfl⟩ | ⟨rfl, rfl⟩ | ⟨rfl, rfl⟩ | ⟨rfl, rfl⟩ | ⟨rfl, rfl⟩ | ⟨rfl, rfl⟩ | ⟨rfl, rfl⟩ | ⟨rfl, rfl⟩ | ⟨rfl, rfl⟩
  case inr.inr.inr.inl => exact done_of (by rw [hok]; rfl) s _
  all_goals exact done_of hok s _

theorem exec_gaugeSlot_idle (h : v.toNat.testBit 31 = false ∨ v.toNat % 256 ≠ op) : exec i s = .next (s.seal s) := by
  rw [exec_gaugeSlot hm hslot hi, State.gaugeRow, if_neg (by rcases h with h | h <;> simp [h])]

theorem exec_gaugeSlot_of (hstart : v.toNat.testBit 31 = true) (hop : v.toNat % 256 = op)
    (hreach : s.Reaches m (Reg.GAU_SLOT_CMD slot) t) :
    exec i s = .next (s.seal (t.gCommand m slot v (gaugeShare op back)).acked) := by
  rw [exec_gaugeSlot hm hslot hi, State.gaugeRow, if_pos (by simp [hstart, hop]), State.regDo_of hreach]

end

end Sys2Proof.Machine
end

section
/-! SEARCH and NEXT through a slot (R179, R181, R189): refused, kept waiting while the searches are frozen, or made. -/

namespace Sys2Proof.Machine

section
variable {s : State} {m slot t : Nat}

theorem State.gSlotAsk_search (h : s.gSlotOp slot = 5) :
    s.gSlotAsk m slot t = ⟨t, m, some (s.fld (Reg.GAU_SLOT_CMD slot) 23 16), s.gUnits slot, some slot⟩ := by
  rw [State.gSlotAsk, if_pos h]

theorem State.gSlotAsk_next (h : s.gSlotOp slot = 6) : s.gSlotAsk m slot t = ⟨t, m, none, s.gUnits slot, some slot⟩ := by
  rw [State.gSlotAsk, if_neg (by omega)]

theorem State.gSlotGo_frozen (h : s.arbFrozen 3 = true) :
    s.gSlotGo m slot t = { s.gDone slot (2 ^ 31) with gaugeQueue := s.gaugeQueue ++ [s.gSlotAsk m slot t] } := by
  rw [State.gSlotGo]
  exact if_pos h

theorem State.gSlotGo_free (h : s.arbFrozen 3 = false) :
    s.gSlotGo m slot t =
      let r := s.gMake (s.gSlotAsk m slot t)
      (r.2.gStoreResult slot r.1).gDone slot r.1.status := by
  rw [State.gSlotGo]
  exact if_neg (by simp [h])

theorem State.gSlotSearch_last (h : s.fld (Reg.GAU_SLOT_CMD slot) 23 16 = 255) :
    s.gSlotSearch m slot t = s.gDone slot St.invalidField := by
  rw [State.gSlotSearch, if_pos h]

theorem State.gSlotSearch_rank (h : s.fld (Reg.GAU_SLOT_CMD slot) 23 16 ≠ 255) : s.gSlotSearch m slot t = s.gSlotGo m slot t := by
  rw [State.gSlotSearch, if_neg h]

theorem State.gNext_first {last : Nat} (h5 : last ≠ 5) (h6 : last ≠ 6) : s.gNext m slot t last = s.gDone slot St.invalidField := by
  rw [State.gNext, if_pos (by simp [h5, h6])]

theorem State.gNext_follows {last : Nat} (h : last = 5 ∨ last = 6) : s.gNext m slot t last = s.gSlotGo m slot t := by
  rw [State.gNext, if_neg (by rcases h with h | h <;> simp [h])]

end

/-- Where nothing waits for the Gauge, or nothing may be made, a slot command finds the queues as they were (R181, R361). -/
theorem State.gServe_still {s : State} (h : s.GaugeIdle ∨ s.arbFrozen 3 = true) : s.gServe = s :=
  h.elim State.gServe_idle State.gServe_frozen

end Sys2Proof.Machine
end

section
/-! The searches together (R174 to R191). -/

namespace Sys2Proof.Machine

/-- Settles O29: a lookup, a search over the mesh and a search through a slot are each one of the cases of their own lemmas. -/
theorem gaugeSearchesAnswerTheRankedMatch : Obligations.GaugeSearchesAnswerTheRankedMatch := by
  refine ⟨State.gHits_iff, ?lookup, ?arrives, ?slots⟩
  case lookup =>
    intro s j m t v key pick
    refine ⟨State.gLookup_lost, fun hlost hjudge => ⟨State.gLookup_denied hlost hjudge, ?_⟩⟩
    rintro rfl
    exact ⟨State.gLookup_outside hlost hjudge, State.gLookup_faulted hlost hjudge, State.gLookup_clean hlost hjudge⟩
  case arrives =>
    intro s u m t rank key parity hm ht hrank
    dsimp only
    rw [exec_gaugeSearch hm ht hrank]
    refine ⟨fun hback => ?_, fun hrole hgate hu =>
      ⟨fun hbad => ?_, fun htable hkey hf hn => ?_, fun htable hkey hidle => ?_, ?_⟩⟩
    · rw [State.gaugeArrive_back hback]
    · rw [State.gaugeArrive_refused hrole hgate hu hbad]
    · rw [State.gaugeArrive_frozen hrole hgate hu htable hkey hf hn]
    · rw [State.gaugeArrive_idle hrole hgate hu htable hkey rank parity hidle]
    · rintro rfl hidle hsearch
      have ⟨htable, hkey, _⟩ := hsearch
      rw [State.gaugeArrive_asks hrole hgate hu htable hkey, Bool.false_and, if_neg Bool.false_ne_true,
        State.gAsk_free hidle hsearch]
      rfl
  case slots =>
    intro s t m slot v hm hslot hreach hbusy hstart put u tb last key ends held bad hstill htable hlost
    have hserve : put.gServe = put := State.gServe_still hstill
    have htaken : t.gTaken m slot v (v.toNat % 256) = u := by
      rw [State.gTaken, hserve]
    rw [← htaken] at htable hlost
    refine ⟨fun hop hask => ?search, fun hop hask => ?next⟩
    case search =>
      have hexec : exec (.gaugeSlotSearch m slot v) s = .next (s.seal (u.gSlotSearch m slot tb).acked) := by
        rw [exec_gaugeSlot_of (back := 0) hm hslot (op := 5) (by simp [gaugeSlotCommands]) hstart hop hreach,
          State.gCommand_search hbusy hstart rfl htable hlost hop, htaken]
      refine ⟨fun hrank => ?_, fun hrank hf => ?_, fun hrank hfree => ?_⟩
      · rw [hexec, State.gSlotSearch_last hrank]
        rfl
      · rw [hexec, State.gSlotSearch_rank hrank, State.gSlotGo_frozen (s := u) hf]
        rfl
      · rw [hexec, State.gSlotSearch_rank hrank, State.gSlotGo_free (s := u) hfree, State.gSlotAsk_search hask]
        rfl
    case next =>
      have hexec : exec (.gaugeNext m slot v) s = .next (s.seal (u.gNext m slot tb last).acked) := by
        rw [exec_gaugeSlot_of (back := 0) hm hslot (op := 6) (by simp [gaugeSlotCommands]) hstart hop hreach,
          State.gCommand_next hbusy hstart rfl htable hlost hop, htaken, hserve]
      refine ⟨fun h5 h6 => ?_, fun hlast => ⟨fun hf => ?_, fun hfree => ?_⟩⟩
      · rw [hexec, State.gNext_first h5 h6]
        rfl
      · rw [hexec, State.gNext_follows hlast, State.gSlotGo_frozen (s := u) hf]
        rfl
      · rw [hexec, State.gNext_follows hlast, State.gSlotGo_free (s := u) hfree, State.gSlotAsk_next hask]
        rfl

end Sys2Proof.Machine
end

section
/-! CREATE and DESTROY (R177, R185, R189 to R191). -/

namespace Sys2Proof.Machine

/-- The banks that a slot's CREATE names. -/
def State.gNewBanks (s : State) (slot : Nat) : List Nat := (List.range 32).filter (s.rd (Reg.GAU_SLOT_BANKS slot)).toNat.testBit

/-- What R177 refuses in a CREATE. -/
def State.gCreateBad (s : State) (slot : Nat) : Prop :=
  s.fld (Reg.GAU_SLOT_CMD slot) 23 18 ≠ 0 ∨ s.fld (Reg.GAU_SLOT_CMD slot) 17 16 = 3 ∨ s.gNewBanks slot = [] ∨
    (∃ b ∈ s.gNewBanks slot, s.gUsable b = false) ∨ s.gShadowOk = false

/-- The shadows of a new table's banks are zeroed; those of a table that the print made again are not (R177, R185). -/
def State.gZeroNew (s : State) (slot : Nat) : Nat × State := if s.gRecreates then (St.ok, s) else s.gZeroBanks (s.gNewBanks slot)

/-- Table `n` is defined with a width and banks, and the slot learns its number (R177). -/
def State.gDefine (s : State) (slot n wlog mask : Nat) : State :=
  let x := ((s.gClear mask).wr (Reg.GAU_TBL_CFG n) (BitVec.ofNat 32 (2 ^ 31 + 2 ^ 16 * wlog))).wr (Reg.GAU_TBL_BANKS n)
    (BitVec.ofNat 32 mask)
  let y := (x.wr (Reg.GAU_TBL_ACL n) (x.rd (Reg.GAU_SLOT_ACL slot))).wr (Reg.GAU_TBL_SEARCHES n) 0
  (((y.setFld Reg.GAU_STATUS n n 1).gFreeBanks).gTell n).setFld (Reg.GAU_SLOT_CMD slot) 11 8 n

section
variable {s : State} {slot back : Nat}

theorem State.gCreateBad_iff :
    (s.fld (Reg.GAU_SLOT_CMD slot) 23 18 ≠ 0 || s.fld (Reg.GAU_SLOT_CMD slot) 17 16 = 3 || s.gNewBanks slot = [] ||
      (s.gNewBanks slot).any (fun b => !s.gUsable b) || !s.gShadowOk) = true ↔ s.gCreateBad slot := by
  simp [State.gCreateBad, or_assoc]

theorem State.gCreate_full (h : ∀ n < 16, s.gTable n = true) : s.gCreate slot back = s.gDone slot St.tableFull := by
  have hnone : (List.range 16).find? (fun t => !s.gTable t) = none := by simpa using h
  rw [State.gCreate, hnone]

section
variable {n : Nat} (hn : (List.range 16).find? (fun t => !s.gTable t) = some n)
include hn

theorem State.gCreate_bad (h : s.gCreateBad slot) : s.gCreate slot back = s.gDone slot St.invalidField := by
  rw [State.gCreate, hn]
  exact if_pos (State.gCreateBad_iff.mpr h)

/-- A legal CREATE zeroes the shadows, and defines the table where that has gone well in both halves (R177, R190). -/
theorem State.gCreate_legal (h : ¬ s.gCreateBad slot) :
    s.gCreate slot back =
      let r := s.gZeroNew slot
      let st := if r.1 = St.ok ∧ ∃ b ∈ s.gNewBanks slot, r.2.gOwns b = false then back else r.1
      if st ≠ St.ok then r.2.gDone slot st
      else
        (r.2.gDefine slot n (s.fld (Reg.GAU_SLOT_CMD slot) 17 16) (s.rd (Reg.GAU_SLOT_BANKS slot)).toNat).gDone slot St.ok := by
  rw [State.gCreate, hn]
  refine (if_neg (mt State.gCreateBad_iff.mp h)).trans ?_
  simp only [Bool.and_eq_true, decide_eq_true_eq, List.any_eq_true, Bool.not_eq_true']
  rfl

end

theorem State.gDestroy_waits {t : Nat} (h : ∃ q ∈ s.gaugeQueue, q.table = t) : s.gDestroy slot t = s.gHold slot := by
  rw [State.gDestroy, if_pos (by simpa using h)]

theorem State.gDestroy_done {t : Nat} (h : ∀ q ∈ s.gaugeQueue, q.table ≠ t) :
    s.gDestroy slot t =
      let y := (((s.gClear (s.rd (Reg.GAU_TBL_BANKS t)).toNat).wr (Reg.GAU_TBL_CFG t) 0).wr (Reg.GAU_TBL_BANKS t) 0).wr
        (Reg.GAU_TBL_ACL t) 0
      (((y.gTell t).setFld Reg.GAU_STATUS t t 0).gFreeBanks).gDone slot St.ok := by
  rw [State.gDestroy, if_neg (by simpa using h)]

end

end Sys2Proof.Machine
end

section
/-! The commands on the entries of a table: WRITE, RELOAD, MOVE_BANK and READ (R184, R185, R187 to R190). -/

namespace Sys2Proof.Machine

section
variable {s : State} {slot t back : Nat}

theorem State.gWriteEntry_none (h : s.gEntry t (s.fld (Reg.GAU_SLOT_ENTRY slot) 17 0) = none) :
    s.gWriteEntry slot t back = s.gDone slot St.invalidField := by
  rw [State.gWriteEntry, h]

/-- A WRITE of an entry stores its shadow records, and its rows where that has gone well in the bank's half (R184, R190). -/
theorem State.gWriteEntry_some {b e : Nat} (h : s.gEntry t (s.fld (Reg.GAU_SLOT_ENTRY slot) 17 0) = some (b, e)) :
    s.gWriteEntry slot t back =
      let w := s.gWidth t
      let wlog := s.fld (Reg.GAU_TBL_CFG t) 17 16
      let r := (List.range w).foldl (fun (a : Nat × State) k =>
        if a.1 ≠ St.ok then a else a.2.gWriteShadow b (e * w + k) (a.2.gWriteRow slot wlog k)) (St.ok, s)
      let st := if r.1 = St.ok ∧ r.2.gOwns b = false then back else r.1
      if st ≠ St.ok then r.2.gDone slot st
      else (((List.range w).foldl (fun z k => z.setGRow b (e * w + k) (z.gWriteRow slot wlog k)) r.2).gCountFaults t).gDone
        slot St.ok := by
  rw [State.gWriteEntry, h]
  simp only [Bool.and_eq_true, decide_eq_true_eq, Bool.not_eq_true']

theorem State.gReload_loaded :
    s.gReload slot t back =
      let r := s.gLoadBanks t (s.gBanks t)
      (r.2.gCountFaults t).gDone slot
        (if r.1 = St.ok ∧ ∃ b ∈ r.2.gBanks t, r.2.gOwns b = false then back else r.1) := by
  rw [State.gReload]
  simp only [Bool.and_eq_true, decide_eq_true_eq, List.any_eq_true, Bool.not_eq_true']

/-- Bank `src` of table `t` may move to bank `dst` (R188). -/
def State.gMovable (s : State) (t src dst : Nat) : Prop := (s.gBanks t).contains src = true ∧ s.gUsable dst = true

theorem State.gMove_bad
    (h : ¬ s.gMovable t (s.fld (Reg.GAU_SLOT_MOVE slot) 4 0) (s.fld (Reg.GAU_SLOT_MOVE slot) 12 8)) :
    s.gMove slot t = s.gDone slot St.invalidField := by
  rw [State.gMove]
  exact if_pos (by simpa [State.gMovable, Decidable.imp_iff_not_or] using h)

theorem State.gMove_copies
    (h : s.gMovable t (s.fld (Reg.GAU_SLOT_MOVE slot) 4 0) (s.fld (Reg.GAU_SLOT_MOVE slot) 12 8)) :
    s.gMove slot t =
      let w := s.gWidth t
      let src := s.fld (Reg.GAU_SLOT_MOVE slot) 4 0
      let dst := s.fld (Reg.GAU_SLOT_MOVE slot) 12 8
      ((List.range 8192).foldl (fun z j =>
        let r := z.gReadShadow src j
        if r.1.status ≠ St.ok ∨ r.1.poison = true then
          let z := r.2.setGRow dst j (r.2.gRow src j)
          z.setGRow dst (j / w * w) { z.gRow dst (j / w * w) with faulted := true }
        else
          let n := { GRow.ofBytes r.1.data with faulted := (r.2.gRow src j).faulted }
          ((r.2.gWriteShadow dst j n).2).setGRow dst j n) s).gDone slot (2 ^ 31) := by
  obtain ⟨hsrc, hdst⟩ := h
  rw [State.gMove]
  refine (if_neg (by rw [hsrc, hdst]; decide)).trans ?_
  simp only [Bool.or_eq_true, decide_eq_true_eq]

theorem State.gRead_none (h : s.gEntry t (s.fld (Reg.GAU_SLOT_ENTRY slot) 17 0) = none) :
    s.gRead slot t = s.gDone slot St.invalidField := by
  rw [State.gRead, h]

section
variable {b e : Nat} (h : s.gEntry t (s.fld (Reg.GAU_SLOT_ENTRY slot) 17 0) = some (b, e))
include h

theorem State.gRead_parity (hbad : ∃ k < s.gWidth t, (s.gRow b (e * s.gWidth t + k)).bad = true) :
    s.gRead slot t = s.gDone slot St.poisonedData := by
  rw [State.gRead, h]
  exact if_pos (by simpa using hbad)

theorem State.gRead_good (hgood : ∀ k < s.gWidth t, (s.gRow b (e * s.gWidth t + k)).bad = false) :
    s.gRead slot t =
      let w := s.gWidth t
      let y := (s.wr (Reg.GAU_SLOT_META slot) ((s.gRow b (e * w)).hdr &&& 0x8000FFFF)).wr (Reg.GAU_SLOT_DATA slot)
        (s.gRow b (e * w)).data
      ((List.range w).foldl (fun z k =>
        (z.wr64 (Reg.GAU_SLOT_U_VALUE_LO slot k) (z.gRow b (e * w + k)).value.toNat).wr64 (Reg.GAU_SLOT_U_CARE_LO slot k)
          (z.gRow b (e * w + k)).care.toNat) y).gDone slot St.ok := by
  rw [State.gRead, h]
  exact if_neg (by simpa using hgood)

end
end

end Sys2Proof.Machine
end

section
/-! The switch of a MOVE_BANK (R173, R187, R188, R191), and what a FRONT has the Gauge of its BACK hold (R190). -/

namespace Sys2Proof.Machine

/-- What follows a move of table `t` into bank `dst` that has ended: a bank of no table keeps no row, and the WRITEs that have waited
for the move run (R173, R188). -/
def State.gGoOn (y : State) (t dst : Nat) : State :=
  let y := if y.gOwned dst then y else y.gClear (2 ^ dst)
  let mine (k : Nat) : Bool := y.gSlotOp k = 4 && y.fld (Reg.GAU_SLOT_CMD k) 11 8 = t
  (y.gaugeWaits.filter mine).foldl (fun z k => if z.gLost t then z.gDone k St.halfLost else z.gWriteEntry k t St.ok)
    { y with gaugeWaits := y.gaugeWaits.filter (fun k => !mine k) }

/-- Table `t` has the bank `dst` for its bank `src`, and the entries that the move has faulted are reported (R187, R188). -/
def State.gReplaced (s : State) (t src dst : Nat) : State :=
  let u := s.wr (Reg.GAU_TBL_BANKS t) (BitVec.ofNat 32 (setBits (setBits (s.rd (Reg.GAU_TBL_BANKS t)).toNat src src 0) dst dst 1))
  (u.gMoveFaults src dst).foldl (fun z j => (z.raise Reg.GAU_INT_STATUS 0).gReport dst j St.poisonedData 3)
    ((((u.gClear (2 ^ src)).gCountFaults t).gFreeBanks).gTell t)

section
variable {s : State} {slot : Nat}

theorem exec_moveBankSwitch (h : slot < 16) : exec (.moveBankSwitch slot) s = .next (s.seal (s.gSwitch slot)) :=
  done_of (by simp [h]) s _

theorem State.gSwitch_idle (h : ¬ (s.bit (Reg.GAU_SLOT_STATUS slot) 31 = true ∧ s.fld (Reg.GAU_SLOT_CMD slot) 7 0 = 8)) :
    s.gSwitch slot = s := by
  rw [State.gSwitch]
  exact if_pos (by simpa [Decidable.imp_iff_not_or] using h)

section
variable (h : s.bit (Reg.GAU_SLOT_STATUS slot) 31 = true ∧ s.fld (Reg.GAU_SLOT_CMD slot) 7 0 = 8)
include h

theorem State.gSwitch_moving :
    s.gSwitch slot =
      let t := s.fld (Reg.GAU_SLOT_CMD slot) 11 8
      let src := s.fld (Reg.GAU_SLOT_MOVE slot) 4 0
      let dst := s.fld (Reg.GAU_SLOT_MOVE slot) 12 8
      State.gGoOn
        (if s.gLost t then s.gDone slot St.halfLost
        else if s.gTable t && (s.gBanks t).contains src && s.gUsable dst then (s.gReplaced t src dst).gDone slot St.ok
        else s.gDone slot St.invalidField) t dst := by
  obtain ⟨hbusy, hop⟩ := h
  rw [State.gSwitch]
  exact if_neg (by simp [hbusy, hop])

theorem State.gSwitch_lost (hlost : s.gLost (s.fld (Reg.GAU_SLOT_CMD slot) 11 8) = true) :
    s.gSwitch slot =
      (s.gDone slot St.halfLost).gGoOn (s.fld (Reg.GAU_SLOT_CMD slot) 11 8) (s.fld (Reg.GAU_SLOT_MOVE slot) 12 8) := by
  rw [State.gSwitch_moving h]
  dsimp only
  rw [if_pos hlost]

section
variable (hlost : s.gLost (s.fld (Reg.GAU_SLOT_CMD slot) 11 8) = false)
include hlost

theorem State.gSwitch_bad
    (hbad : ¬ (s.gTable (s.fld (Reg.GAU_SLOT_CMD slot) 11 8) = true ∧
      s.gMovable (s.fld (Reg.GAU_SLOT_CMD slot) 11 8) (s.fld (Reg.GAU_SLOT_MOVE slot) 4 0) (s.fld (Reg.GAU_SLOT_MOVE slot) 12 8))) :
    s.gSwitch slot =
      (s.gDone slot St.invalidField).gGoOn (s.fld (Reg.GAU_SLOT_CMD slot) 11 8) (s.fld (Reg.GAU_SLOT_MOVE slot) 12 8) := by
  rw [State.gSwitch_moving h]
  dsimp only
  rw [if_neg (by simp [hlost]), if_neg (by simpa [State.gMovable] using hbad)]

theorem State.gSwitch_legal
    (hlegal : s.gTable (s.fld (Reg.GAU_SLOT_CMD slot) 11 8) = true ∧
      s.gMovable (s.fld (Reg.GAU_SLOT_CMD slot) 11 8) (s.fld (Reg.GAU_SLOT_MOVE slot) 4 0) (s.fld (Reg.GAU_SLOT_MOVE slot) 12 8)) :
    s.gSwitch slot =
      ((s.gReplaced (s.fld (Reg.GAU_SLOT_CMD slot) 11 8) (s.fld (Reg.GAU_SLOT_MOVE slot) 4 0)
        (s.fld (Reg.GAU_SLOT_MOVE slot) 12 8)).gDone slot St.ok).gGoOn
        (s.fld (Reg.GAU_SLOT_CMD slot) 11 8) (s.fld (Reg.GAU_SLOT_MOVE slot) 12 8) := by
  obtain ⟨htable, hsrc, hdst⟩ := hlegal
  rw [State.gSwitch_moving h]
  dsimp only
  rw [if_neg (by simp [hlost]), if_pos (by rw [htable, hsrc, hdst]; decide)]

end
end

theorem exec_gaugeWrite_far {m : Nat} {f : GaugeFar} (hm : m < 4096) (hslot : slot < 16) (hf : okGaugeFar (some f) = true) (v : Word)
    (back : BitVec 16) : exec (.gaugeWrite m slot v back (some f)) s = .next (s.seal (s.gaugeCarried f)) :=
  done_of (by simp [okMaster, hm, hslot, hf]) s _

end

theorem State.gaugeCarried_other {s : State} (h : s.role ≠ some true) (f : GaugeFar) : s.gaugeCarried f = s :=
  if_pos h

theorem State.gaugeCarried_row {s : State} (h : s.role = some true) (b j : Nat) (rec : List Byte) :
    s.gaugeCarried (.row b j rec) =
      let w := s.gWriteShadow b j (GRow.ofBytes rec)
      if w.1 = St.ok then w.2.setGRow b j (GRow.ofBytes rec) else w.2 :=
  if_neg (not_not.mpr h)

theorem State.gaugeCarried_table {s : State} (h : s.role = some true) (t : Nat) (cfg banks acl : Word) :
    s.gaugeCarried (.table t cfg banks acl) =
      ((((s.wr (Reg.GAU_TBL_CFG t) cfg).wr (Reg.GAU_TBL_BANKS t) banks).wr (Reg.GAU_TBL_ACL t) acl).setFld
        Reg.GAU_STATUS t t (bit01 (cfg.toNat.testBit 31))).gFreeBanks :=
  if_neg (not_not.mpr h)

end Sys2Proof.Machine
end

section
/-! The Gauge's own registers: the scrubber (R186), GAU_BANK_RETIRED (R188) and GAU_SHADOW_BASE (R192). -/

namespace Sys2Proof.Machine

theorem exec_gaugeScrubStep (s : State) (bad : List Nat) : exec (.gaugeScrubStep bad) s = .next (s.seal (s.gScrubStep bad)) :=
  done_of rfl s _

theorem State.gScrubStep_off {s : State} (h : s.bit Reg.GAU_CTL 0 = false ∨ s.domState 9 ≠ 0) (bad : List Nat) :
    s.gScrubStep bad = s := by
  rw [State.gScrubStep, if_pos (by simpa using h)]

theorem exec_gaugeBankRetire {s t : State} {m : Nat} (hm : m < 4096) (hreach : s.Reaches m Reg.GAU_BANK_RETIRED t) (v : Word) :
    exec (.gaugeBankRetire m v) s = .next (s.seal (t.gRetire m v).acked) := by
  rw [← State.regDo_of hreach (fun s => s.gRetire m v)]
  exact done_of (by simp [okMaster, hm]) s _

section
variable {t : State} {m : Nat} {v : Word}

theorem State.gRetire_owned (h : ∃ b < 16, v.toNat.testBit b = true ∧ t.gOwned (if t.gBack then b + 16 else b) = true) :
    t.gRetire m v = t.refuse m Reg.GAU_BANK_RETIRED St.invalidField := by
  obtain ⟨b, hb, hasked, howned⟩ := h
  refine if_pos (List.any_eq_true.mpr ⟨b, List.mem_range.mpr hb, ?_⟩)
  rw [Nat.testBit_mod_two_pow, hasked, howned]
  simpa using hb

theorem State.gRetire_free (h : ∀ b < 16, v.toNat.testBit b = true → t.gOwned (if t.gBack then b + 16 else b) = false) :
    t.gRetire m v = (t.plainWrite m Reg.GAU_BANK_RETIRED v).gFreeBanks := by
  refine if_neg fun hany => ?_
  obtain ⟨b, hb, hbad⟩ := List.any_eq_true.mp hany
  rw [Nat.testBit_mod_two_pow] at hbad
  simp only [Bool.and_eq_true] at hbad
  obtain ⟨⟨_, hasked⟩, howned⟩ := hbad
  rw [h b (List.mem_range.mp hb) hasked] at howned
  exact Bool.false_ne_true howned

end

theorem exec_gaugeShadowBaseWrite {m : Nat} (hm : m < 4096) (hi : Bool) (v : Word) (s : State) :
    exec (.gaugeShadowBaseWrite m hi v) s =
      .next (s.seal (s.regPut m (if hi then Reg.GAU_SHADOW_BASE_HI else Reg.GAU_SHADOW_BASE_LO) v)) :=
  done_of (by simp [okMaster, hm]) s _

/-- A register below the TIL registers belongs to no tile. -/
theorem State.wakeTile_reg {a : Nat} (h : a < 0x800000) (s : State) : s.wakeTile (.reg a) = s := by
  have hnone : (Region.reg a).localTile = none := if_neg (by omega)
  rw [State.wakeTile, hnone]

/-- GAU_SHADOW_BASE takes no write while a table exists (R192). -/
theorem State.regShut_shadowBase {a : Nat} (h : a = Reg.GAU_SHADOW_BASE_LO ∨ a = Reg.GAU_SHADOW_BASE_HI) (s : State) (m : Nat) :
    s.regShut m a = (List.range 16).any s.gTable := by
  rcases h with rfl | rfl <;> rfl

section
variable {s : State} {m : Nat} {v : Word}

theorem State.regPut_shadowBase_shut (hgate : s.domainGate (.reg Reg.GAU_SHADOW_BASE_LO) m (regDpa Reg.GAU_SHADOW_BASE_LO) = none)
    (h : ∃ n < 16, s.gTable n = true) :
    s.regPut m Reg.GAU_SHADOW_BASE_LO v = (s.refuse m Reg.GAU_SHADOW_BASE_LO St.accessDenied).acked := by
  have hshut : s.regShut m Reg.GAU_SHADOW_BASE_LO = true := by
    rw [State.regShut_shadowBase (.inl rfl)]
    simpa using h
  rw [State.regPut_of hgate (State.wakeTile_reg (by decide) s).symm, State.regIn, if_pos hshut]

section
variable (h : ∀ n < 16, s.gTable n = false)
include h

theorem State.regShut_shadowBase_free {a : Nat} (ha : a = Reg.GAU_SHADOW_BASE_LO ∨ a = Reg.GAU_SHADOW_BASE_HI) :
    s.regShut m a = false := by
  rw [State.regShut_shadowBase ha]
  simpa using h

theorem State.regPut_shadowBase_lo (hgate : s.domainGate (.reg Reg.GAU_SHADOW_BASE_LO) m (regDpa Reg.GAU_SHADOW_BASE_LO) = none) :
    s.regPut m Reg.GAU_SHADOW_BASE_LO v =
      State.acked { s with held := FMap.setD s.held Reg.GAU_SHADOW_BASE_LO (some ⟨m, v⟩) } := by
  rw [State.regPut_of hgate (State.wakeTile_reg (by decide) s).symm,
    State.regIn_lo (State.regShut_shadowBase_free h (.inl rfl)) (by decide +kernel) (by decide +kernel),
    regKey_of_no_view (.inr (by decide))]

theorem State.regPut_shadowBase_hi (hgate : s.domainGate (.reg Reg.GAU_SHADOW_BASE_HI) m (regDpa Reg.GAU_SHADOW_BASE_HI) = none)
    {k : Tagged} (hheld : FMap.getD s.held Reg.GAU_SHADOW_BASE_LO = some k) (hk : k.master = m) :
    s.regPut m Reg.GAU_SHADOW_BASE_HI v =
      (State.pairCodes { s with held := FMap.setD s.held Reg.GAU_SHADOW_BASE_LO none } m Reg.GAU_SHADOW_BASE_LO (some k.value)
        v).acked := by
  have hlo : regKey m Reg.GAU_SHADOW_BASE_HI - 4 = Reg.GAU_SHADOW_BASE_LO := by
    rw [regKey_of_no_view (.inr (by decide))]
    rfl
  rw [State.regPut_of hgate (State.wakeTile_reg (by decide) s).symm,
    State.regIn_hi_own (State.regShut_shadowBase_free h (.inr rfl)) (by decide +kernel) (by decide) (by decide +kernel)
      (by decide +kernel) (hlo ▸ hheld) hk, hlo]
  rfl

end
end

end Sys2Proof.Machine
end

section
/-! The commands of the Gauge together (R177 to R192). -/

namespace Sys2Proof.Machine

/-- Settles O30: each command is one of the cases of its own lemmas above, a slot command after the write of its CMD. -/
theorem gaugeCommandsMaintainItsTables : Obligations.GaugeCommandsMaintainItsTables := by
  refine ⟨?slots, ?carried, ?switch, ?scrub, ?retire, ?shadow⟩
  case slots =>
    intro s t m slot op v back i hm hslot hi
    refine ⟨exec_gaugeSlot_idle hm hslot hi, fun hstart hop hreach => ?_⟩
    have hexec := exec_gaugeSlot_of hm hslot hi hstart hop hreach
    have ⟨_, h9⟩ := gaugeSlotCommands_opcode hi
    refine ⟨fun hbusy => ?_, fun hidle => ?idle⟩
    · rw [hexec, State.gCommand_busy hbusy]
    case idle =>
      intro put u tb ends w wlog
      have hends {x : State} {st : Nat} (h : t.gCommand m slot v (gaugeShare op back) = x.gDone slot st) :
          exec i s = ends x st := by
        rw [hexec, h]
        rfl
      have hholds (h : t.gCommand m slot v (gaugeShare op back) = u.gHold slot) :
          exec i s = .next (s.seal (u.gHold slot).acked) := by
        rw [hexec, h]
      refine ⟨fun h2 hnone => hends (State.gCommand_no_table hidle hstart hop h2 h9 hnone),
        fun h3 htable hlost => hends (State.gCommand_lost hidle hstart hop htable h3 h9 hlost), ?create, ?destroy, ?whole⟩
      case create =>
        intro h mask banks wl illegal
        have hcommand : t.gCommand m slot v (gaugeShare op back) = u.gCreate slot back.toNat := by
          rw [gaugeShare_back (.inl h)]
          exact State.gCommand_create hidle hstart hop h
        refine ⟨fun hfull => hends (hcommand.trans (State.gCreate_full hfull)), fun n hn =>
          ⟨fun hbad => hends (hcommand.trans (State.gCreate_bad hn hbad)), fun hlegal => ?_⟩⟩
        have hcreates := hcommand.trans (State.gCreate_legal hn hlegal)
        exact ⟨fun hst => hends (hcreates.trans (if_pos hst)), fun hst => hends (hcreates.trans (if_neg (not_not.mpr hst)))⟩
      case destroy =>
        intro h htable
        have hcommand := State.gCommand_destroy (back := gaugeShare op back) hidle hstart hop htable h
        exact ⟨fun hwait => hholds (hcommand.trans (State.gDestroy_waits hwait)),
          fun hfree => hends (hcommand.trans (State.gDestroy_done hfree))⟩
      case whole =>
        intro htable hlost
        refine ⟨fun h => hends (State.gCommand_setAcl hidle hstart hop htable hlost h), fun h => ?write, fun h => ?reload,
          fun h => ?move, fun h => ?read⟩
        case write =>
          have hcommand : t.gCommand m slot v (gaugeShare op back) =
              if u.gMoving tb then u.gHold slot else u.gWriteEntry slot tb back.toNat := by
            rw [gaugeShare_back (.inr (.inl h))]
            exact State.gCommand_write hidle hstart hop htable hlost h
          have hwrites (hstill : u.gMoving tb = false) := hcommand.trans (if_neg (Bool.eq_false_iff.mp hstill))
          refine ⟨fun hmoving => hholds (hcommand.trans (if_pos hmoving)),
            fun hstill hnone => hends ((hwrites hstill).trans (State.gWriteEntry_none hnone)),
            fun b e hstill hentry => ?_⟩
          have hstores := (hwrites hstill).trans (State.gWriteEntry_some hentry)
          exact ⟨fun hst => hends (hstores.trans (if_pos hst)), fun hst => hends (hstores.trans (if_neg (not_not.mpr hst)))⟩
        case reload =>
          have hcommand : t.gCommand m slot v (gaugeShare op back) = u.gReload slot tb back.toNat := by
            rw [gaugeShare_back (.inr (.inr h))]
            exact State.gCommand_reload hidle hstart hop htable hlost h
          exact hends (hcommand.trans State.gReload_loaded)
        case move =>
          have hcommand := State.gCommand_move (back := gaugeShare op back) hidle hstart hop htable hlost h
          exact ⟨fun hbad => hends (hcommand.trans (State.gMove_bad hbad)),
            fun hlegal => hends (hcommand.trans (State.gMove_copies hlegal))⟩
        case read =>
          have hcommand := State.gCommand_read (back := gaugeShare op back) hidle hstart hop htable hlost h
          exact ⟨fun hnone => hends (hcommand.trans (State.gRead_none hnone)), fun b e hentry =>
            ⟨fun hbad => hends (hcommand.trans (State.gRead_parity hentry hbad)),
              fun hgood => hends (hcommand.trans (State.gRead_good hentry hgood))⟩⟩
  case carried =>
    intro s m slot v back hm hslot
    refine ⟨fun f hf hrole => ?_, fun b j rec hf hrole => ?_, fun tb cfg banks acl htb hrole => ?_⟩
    · rw [exec_gaugeWrite_far hm hslot hf, State.gaugeCarried_other hrole]
    · rw [exec_gaugeWrite_far hm hslot hf, State.gaugeCarried_row hrole]
      dsimp only
      exact ⟨fun hok => by rw [if_pos hok], fun hbad => by rw [if_neg hbad]⟩
    · rw [exec_gaugeWrite_far hm hslot (by simpa [okGaugeFar] using htb), State.gaugeCarried_table hrole]
  case switch =>
    intro s slot hslot
    dsimp only
    rw [exec_moveBankSwitch hslot]
    refine ⟨fun h => ?_, fun h hlost => ?_, fun h hlost hbad => ?_, fun h hlost hlegal => ?_⟩
    · rw [State.gSwitch_idle h]
    · rw [State.gSwitch_lost h hlost]
      rfl
    · rw [State.gSwitch_bad h hlost hbad]
      rfl
    · rw [State.gSwitch_legal h hlost hlegal]
      rfl
  case scrub =>
    intro s bad
    refine ⟨fun hoff => ?_, fun hon hpower => ?_⟩
    · rw [exec_gaugeScrubStep, State.gScrubStep_off hoff]
    · rw [exec_gaugeScrubStep, State.gScrubStep, if_neg (by simp [hon, hpower])]
  case retire =>
    intro s t m v hm hreach
    refine ⟨fun howned => ?_, fun hfree => ?_⟩
    · rw [exec_gaugeBankRetire hm hreach, State.gRetire_owned howned]
    · rw [exec_gaugeBankRetire hm hreach, State.gRetire_free hfree]
  case shadow =>
    intro s m v hm
    refine ⟨fun hgate => ⟨fun htable => ?_, fun hnone => ?_⟩, fun hgate hnone k hheld hk => ?_⟩ <;>
      refine (exec_gaugeShadowBaseWrite hm _ v s).trans (congrArg (fun u => Host.Outcome.next (s.seal u)) ?_)
    · exact State.regPut_shadowBase_shut hgate htable
    · exact State.regPut_shadowBase_lo hnone hgate
    · exact State.regPut_shadowBase_hi hnone hgate hheld hk

end Sys2Proof.Machine
end

section
/-! What a Stipple job reads, makes and writes (R202, R205, R207, R208). -/

namespace Sys2Proof.Machine

/-- The input of a Stipple job: what it has read of it before, or what a read finds now (R205). -/
def State.stpInput (s : State) (j : Job) : MemAnswer × State :=
  if j.got = [] then s.readMem Mid.stipple (stpSrc j.entry) (stpSrcLen j.entry) else (⟨St.ok, j.got.headD [], false⟩, s)

/-- The sibling values of a Stipple job's rows, read after its input; `n` bytes of them (R204, R205). -/
def State.stpSibling (s : State) (j : Job) (n : Nat) : MemAnswer × State :=
  (s.stpInput j).2.readMem Mid.stipple (stpSib j.entry) n

/-- How many bytes of sibling values go with the input of a Stipple job (R204, R205). -/
def State.stpSibCount (s : State) (rev21 : Bool) (j : Job) : Nat :=
  stpSibBytes j.entry (stpRows rev21 j.entry (s.stpInput j).1.data)

section
variable {s : State} {rev21 : Bool} {j : Job}

theorem State.stpRead_eq (s : State) (rev21 : Bool) (j : Job) :
    s.stpRead rev21 j =
      let a := s.stpInput j
      let n := s.stpSibCount rev21 j
      let b := s.stpSibling j n
      if dataStatus a.1 ≠ St.ok then (.error (dataStatus a.1), a.2)
      else if n = 0 then (.ok (a.1.data, []), a.2)
      else if dataStatus b.1 = St.held then (.error St.held, b.2.setJob j { j with got := [a.1.data] })
      else if dataStatus b.1 ≠ St.ok then (.error (dataStatus b.1), b.2)
      else (.ok (a.1.data, b.1.data), b.2) := by
  unfold State.stpRead State.stpSibling State.stpSibCount State.stpInput
  cases hgot : j.got with
  | nil => rfl
  | cons src rest => rfl

theorem State.stpRead_bad_input (h : dataStatus (s.stpInput j).1 ≠ St.ok) :
    s.stpRead rev21 j = (.error (dataStatus (s.stpInput j).1), (s.stpInput j).2) :=
  (s.stpRead_eq rev21 j).trans (if_pos h)

section
variable (hinput : dataStatus (s.stpInput j).1 = St.ok)
include hinput

theorem State.stpRead_alone (hn : s.stpSibCount rev21 j = 0) :
    s.stpRead rev21 j = (.ok ((s.stpInput j).1.data, []), (s.stpInput j).2) := by
  rw [State.stpRead_eq]
  dsimp only
  rw [if_neg (not_not.mpr hinput), if_pos hn]

theorem State.stpRead_sibling (hn : s.stpSibCount rev21 j ≠ 0) :
    s.stpRead rev21 j =
      let b := s.stpSibling j (s.stpSibCount rev21 j)
      if dataStatus b.1 = St.held then (.error St.held, b.2.setJob j { j with got := [(s.stpInput j).1.data] })
      else if dataStatus b.1 ≠ St.ok then (.error (dataStatus b.1), b.2)
      else (.ok ((s.stpInput j).1.data, b.1.data), b.2) := by
  rw [State.stpRead_eq]
  dsimp only
  rw [if_neg (not_not.mpr hinput), if_neg hn]

end

/-- An engine verifies a frame where it decodes to the elements of the source (R207). -/
theorem stpVerifies_iff {c : Codec} {frame src sib : List Byte} :
    stpVerifies c rev21 frame src sib = true ↔
      decodeWhole c rev21 frame sib src.length = .ok (storedElems c.eb src (src.length / c.eb)) := by
  unfold stpVerifies
  cases decodeWhole c rev21 frame sib src.length with
  | ok vs => simp
  | error st => simp

/-- A write of a job's output ends the job, is kept with it while it is held, or fails and leaves the destination undefined
(R205). -/
theorem State.stpWrite_cases {o : Host.Outcome State Fault Refusal} {b : Bus} {x : State} {out : List Byte}
    (h : o = .next (s.seal (x.stpWrite b j out))) :
    let w := x.writeOn b Mid.stipple (stpDst j.entry) out
    (w.1 = St.ok → o = .next (s.seal (w.2.stpEnd j St.ok out.length))) ∧
    (w.1 = St.held → o = .next (s.seal (w.2.setJob j { j with out := some out }))) ∧
    (w.1 ≠ St.ok → w.1 ≠ St.held →
      o = .next (s.seal ((w.2.scramble Mid.stipple (stpDst j.entry) out.length).stpEnd j w.1 0))) := by
  intro w
  have hwrite : x.stpWrite b j out =
      if w.1 = St.held then w.2.setJob j { j with out := some out }
      else if w.1 = St.ok then w.2.stpEnd j St.ok out.length
      else (w.2.scramble Mid.stipple (stpDst j.entry) out.length).stpEnd j w.1 0 := rfl
  rw [h, hwrite]
  refine ⟨fun hok => ?_, fun hheld => ?_, fun hbad hheld => ?_⟩
  · rw [if_neg (by rw [hok]; decide), if_pos hok]
  · rw [if_pos hheld]
  · rw [if_neg hheld, if_neg hbad]

end

end Sys2Proof.Machine
end

section
/-! COMPRESS (R205 to R208), DECOMPRESS (R205) and the retirement of engines (R209). -/

namespace Sys2Proof.Machine

section
variable {s : State} {e : Nat} (he : e < 16)
include he

theorem exec_stippleCompress_idle (hnone : s.stpJob e 1 = none) (frame : List Byte) :
    exec (.stippleCompress e frame) s = .next (s.seal s) :=
  (done_of (by simpa using he) s _).trans (by rw [hnone])

theorem exec_stippleDecompress_idle (hnone : s.stpJob e 2 = none) : exec (.stippleDecompress e) s = .next (s.seal s) :=
  (done_of (by simpa using he) s _).trans (by rw [hnone])

theorem exec_stippleCompress {j : Job} (hj : s.stpJob e 1 = some j) (frame : List Byte) :
    exec (.stippleCompress e frame) s = .next (s.seal (s.stpCompress s.rev21 j frame)) :=
  (done_of (by simpa using he) s _).trans (by rw [hj])

theorem exec_stippleDecompress {j : Job} (hj : s.stpJob e 2 = some j) :
    exec (.stippleDecompress e) s = .next (s.seal (s.stpDecompress bus s.rev21 j)) :=
  (done_of (by simpa using he) s _).trans (by rw [hj])

end

section
variable {s : State} {rev21 : Bool} {j : Job} {frame : List Byte}

theorem State.stpCompress_invalid (h : stpStep1 rev21 j.entry = false) :
    s.stpCompress rev21 j frame = s.stpEnd j St.invalidField 0 :=
  if_pos (by rw [h]; rfl)

section
variable (hstep1 : stpStep1 rev21 j.entry = true)
include hstep1

theorem State.stpCompress_short (h : stpSrcLen j.entry < 33) :
    s.stpCompress rev21 j frame = s.stpEnd j St.codecNoGain 0 := by
  rw [State.stpCompress, if_neg (by simp [hstep1]), if_pos h]

section
variable (hlen : 33 ≤ stpSrcLen j.entry)
include hlen

theorem State.stpCompress_overflow (h : stpCap j.entry < stpSrcLen j.entry - 16) :
    s.stpCompress rev21 j frame = s.stpEnd j St.bufferOverflow 0 := by
  rw [State.stpCompress, if_neg (by simp [hstep1]), if_neg (not_lt.mpr hlen), if_pos h]

section
variable (hcap : stpSrcLen j.entry - 16 ≤ stpCap j.entry)
include hcap

theorem State.stpCompress_kept {out : List Byte} (h : j.out = some out) :
    s.stpCompress rev21 j frame = s.stpWrite memoryBus j out := by
  rw [State.stpCompress, if_neg (by simp [hstep1]), if_neg (not_lt.mpr hlen), if_neg (not_lt.mpr hcap), h]

section
variable (hout : j.out = none)
include hout

theorem State.stpCompress_unread {st : Nat} {u : State} (h : s.stpRead rev21 j = (.error st, u)) :
    s.stpCompress rev21 j frame = if st = St.held then u else u.stpEnd j st 0 := by
  rw [State.stpCompress, if_neg (by simp [hstep1]), if_neg (not_lt.mpr hlen), if_neg (not_lt.mpr hcap), hout, h]

/-- Of an input that is there an engine makes a frame, verifies it, and writes it where it is shorter than the input (R205, R207). -/
theorem State.stpCompress_read {src sib : List Byte} {u : State} (h : s.stpRead rev21 j = (.ok (src, sib), u)) :
    s.stpCompress rev21 j frame =
      let w := u.count64 (Reg.STP_ENG_BYTES_LO j.engine) (stpSrcLen j.entry)
      let good := stpVerifies (stpCodec j.entry) rev21 frame src sib
      let f := if good then w.stpMake rev21 j.entry src sib frame else (frame, w)
      if stpSrcLen j.entry - 16 < f.1.length then f.2.stpEnd j St.codecNoGain 0
      else if good then f.2.stpWrite memoryBus j f.1
      else f.2.stpVerifyFail j := by
  rw [State.stpCompress, if_neg (by simp [hstep1]), if_neg (not_lt.mpr hlen), if_neg (not_lt.mpr hcap), hout, h]

end
end
end
end

theorem State.stpDecompress_invalid {b : Bus} (h : stpStep1 rev21 j.entry = false) :
    s.stpDecompress b rev21 j = s.stpEnd j St.invalidField 0 :=
  if_pos (by rw [h]; rfl)

section
variable {b : Bus} (hstep1 : stpStep1 rev21 j.entry = true)
include hstep1

theorem State.stpDecompress_kept {out : List Byte} (h : j.out = some out) :
    s.stpDecompress b rev21 j = s.stpWrite b j out := by
  rw [State.stpDecompress, if_neg (by simp [hstep1]), h]

section
variable (hout : j.out = none)
include hout

theorem State.stpDecompress_unread {st : Nat} {u : State} (h : s.stpRead rev21 j = (.error st, u)) :
    s.stpDecompress b rev21 j = if st = St.held then u else u.stpEnd j st 0 := by
  rw [State.stpDecompress, if_neg (by simp [hstep1]), hout, h]

section
variable {src sib : List Byte} {u : State} (hread : s.stpRead rev21 j = (.ok (src, sib), u))
include hread

theorem State.stpDecompress_bad {st : Nat}
    (h : decodeWhole (stpCodec j.entry) rev21 src sib (stpCap j.entry) = .error st) :
    s.stpDecompress b rev21 j = (u.count64 (Reg.STP_ENG_BYTES_LO j.engine) (stpSrcLen j.entry)).stpEnd j st 0 := by
  rw [State.stpDecompress, if_neg (by simp [hstep1]), hout, hread]
  dsimp only
  rw [h]

theorem State.stpDecompress_values {vs : List Nat}
    (h : decodeWhole (stpCodec j.entry) rev21 src sib (stpCap j.entry) = .ok vs) :
    s.stpDecompress b rev21 j =
      (u.count64 (Reg.STP_ENG_BYTES_LO j.engine) (stpSrcLen j.entry)).stpWrite b j
        (vs.flatMap (natLE (stpCodec j.entry).eb)) := by
  rw [State.stpDecompress, if_neg (by simp [hstep1]), hout, hread]
  dsimp only
  rw [h]

end
end
end
end

theorem exec_stippleEngineRetire {s t : State} {m : Nat} (hm : m < 4096) (hreach : s.Reaches m Reg.STP_ENG_RETIRED t) (v : Word) :
    exec (.stippleEngineRetire m v) s = .next (s.seal (t.stpRetireWrite v).acked) := by
  rw [← State.regDo_of hreach (fun s => s.stpRetireWrite v)]
  exact done_of (by simpa [okMaster] using hm) s _

end Sys2Proof.Machine
end

section
/-! The jobs of Stipple together (R203 to R209). -/

namespace Sys2Proof.Machine

/-- Settles O31: each command is one of the cases of its own lemmas above, in the order of its checks. -/
theorem stippleJobsCompleteByTheirChecks : Obligations.StippleJobsCompleteByTheirChecks := by
  refine ⟨fun s e he => ⟨exec_stippleCompress_idle he, exec_stippleDecompress_idle he⟩, ?compress, ?read, ?make, ?decompress,
    fun s t m v hm hreach => exec_stippleEngineRetire hm hreach v⟩
  case compress =>
    intro s e frame j he hj n c cmd ends writes
    have hcmd {x : State} (h : s.stpCompress s.rev21 j frame = x) : cmd = .next (s.seal x) := h ▸ exec_stippleCompress he hj frame
    refine ⟨fun h1 => hcmd (State.stpCompress_invalid h1), fun h1 hn => hcmd (State.stpCompress_short h1 hn),
      fun h1 hn hcap => hcmd (State.stpCompress_overflow h1 hn hcap), fun h1 hn hcap =>
        ⟨fun out hout => State.stpWrite_cases (hcmd (State.stpCompress_kept h1 hn hcap hout)),
          fun hout => ⟨fun st u hread => ?unread, fun src sib u hread => ?made⟩⟩⟩
    case unread =>
      have hends := State.stpCompress_unread (frame := frame) h1 hn hcap hout hread
      exact ⟨fun hheld => hcmd (hends.trans (if_pos hheld)), fun hbad => hcmd (hends.trans (if_neg hbad))⟩
    case made =>
      intro w good
      have hends := State.stpCompress_read (frame := frame) h1 hn hcap hout hread
      refine ⟨fun hbad => ?_, fun hgood => ?_⟩
      · rw [Bool.eq_false_iff.mpr (mt stpVerifies_iff.mp hbad)] at hends
        exact ⟨fun hlong => hcmd (hends.trans (if_pos hlong)), fun hfits => hcmd (hends.trans (if_neg (not_lt.mpr hfits)))⟩
      · rw [stpVerifies_iff.mpr hgood] at hends
        exact ⟨fun hlong => hcmd (hends.trans (if_pos hlong)),
          fun hfits => State.stpWrite_cases (hcmd (hends.trans (if_neg (not_lt.mpr hfits))))⟩
  case read =>
    intro s rev21 j e a n b
    refine ⟨State.stpRead_bad_input, State.stpRead_alone, fun ha hn hheld => ?_, fun ha hn hheld hbad => ?_,
      fun ha hn hb => ?_⟩ <;>
      refine (State.stpRead_sibling ha hn).trans ?_
    · exact if_pos hheld
    · exact (if_neg hheld).trans (if_pos hbad)
    · have hheld : dataStatus b.1 ≠ St.held := by
        rw [hb]
        decide
      exact (if_neg hheld).trans (if_neg (not_not.mpr hb))
  case make =>
    intro s rev21 e src sib frame key same
    refine ⟨fun m hm => ?_, fun hnone => ?_⟩
    · rw [State.stpMake, hm]
    · rw [State.stpMake, hnone]
  case decompress =>
    intro s e j he hj n c cmd ends writes
    have hcmd {x : State} (h : s.stpDecompress bus s.rev21 j = x) : cmd = .next (s.seal x) := h ▸ exec_stippleDecompress he hj
    refine ⟨fun h1 => hcmd (State.stpDecompress_invalid h1), fun h1 =>
      ⟨fun out hout => State.stpWrite_cases (hcmd (State.stpDecompress_kept h1 hout)),
        fun hout => ⟨fun st u hread => ?unread, fun src sib u hread => ?decoded⟩⟩⟩
    case unread =>
      have hends := State.stpDecompress_unread (b := bus) h1 hout hread
      exact ⟨fun hheld => hcmd (hends.trans (if_pos hheld)), fun hbad => hcmd (hends.trans (if_neg hbad))⟩
    case decoded =>
      exact ⟨fun st hst => hcmd (State.stpDecompress_bad h1 hout hread hst),
        fun vs hvs => State.stpWrite_cases (hcmd (State.stpDecompress_values h1 hout hread hvs))⟩

end Sys2Proof.Machine
end

section
/-! A SAVE that has written its image (R217, R219) completes with the 256 bytes of an image, whatever the image is. -/

namespace Sys2Proof.Machine

section
variable {b s : State} {j : Job} {v : Slot}

theorem exec_proofSave_served {e i : Nat} (he : e < 8) (hi : i < 8) (hj : b.prfJob e i 4 = some j)
    (hserves : (b.prfPass e).prfServes e i = true) :
    exec (.proofSave e i) b = .next (b.seal ((b.prfPass e).prfSave j)) := by
  have hrun : b.prfRun e i 4 State.prfSave = (b.prfPass e).prfSave j := by
    rw [State.prfRun, hj]
    exact if_pos hserves
  exact hrun ▸ done_of (by simp [he, hi]) b _

theorem State.prfSave_written (hslot : s.slot j.eng j.slt = some v) (hcheck : prfCheck j.entry = St.ok)
    (hstatus : slotStatus j.entry v = St.ok)
    (hwrite : (s.writeMem Mid.proof (prfDst j.entry) (Machine.slotImage v)).1 = St.ok) :
    s.prfSave j = (s.writeMem Mid.proof (prfDst j.entry) (Machine.slotImage v)).2.prfEnd j St.ok 256 := by
  rw [State.prfSave, hslot]
  dsimp only
  rw [if_neg (not_not.mpr hcheck), if_neg (not_not.mpr hstatus), if_neg (by rw [hwrite]; decide), if_pos hwrite]

end

/-- The status and result of each job, where it has ended. -/
def State.jobResults (s : State) : List (Option (Nat × Nat)) := s.jobs.map (·.done)

/-! The counterexample: a slot with more state words than the 200 bytes of state in an image hold, so that what SAVE writes of it is
longer than 256 bytes. -/

/-- A closed SHA-256 stream with 51 state words. -/
def overfullSlot : Slot := ⟨0, 0, 0, true, false, false, 1, List.replicate 51 0⟩

/-- A SAVE of stream 0 to 0x20000, with room for 256 bytes. -/
def overfullEntry : List Byte :=
  natLE 4 0 ++ natLE 4 4 ++ natLE 16 (cp64 0) ++ natLE 16 (cp64 0x20000) ++ natLE 8 (cp32 0) ++ natLE 8 (cp32 256) ++ natLE 8 0

/-- That SAVE, in slot 0 of engine 0. -/
def overfullJob : Job := ⟨ringKey ⟨.prf, 0⟩, 0, 0, overfullEntry, 0, .start, none, [], none⟩

/-- The block after reset with domains 1 to 16 on, a grant that lets Proof write, and the job as its only one. -/
def overfullStore : State :=
  { State.reset with
    regs := (List.range 16).map (fun d => (Reg.STY_DOM_STATUS (d + 1), 0)) ++
      [(grantAt 0 3, 0x8FFFF000), (grantAt 0 3 + 4, 0x70000FFF), (grantAt 0 3 + 16, 0xFFFFFFFF), (grantAt 0 3 + 20, 0)]
    jobs := [overfullJob]
    slots := [(0, some overfullSlot)] }

/-- What the write of the slot's image comes to. -/
def overfullWrite : Nat × State :=
  (overfullStore.prfPass 0).writeMem Mid.proof (prfDst overfullJob.entry) (slotImage overfullSlot)

theorem overfullSlot_image_length : (slotImage overfullSlot).length = 260 := by decide +kernel

theorem overfullStore_prfJob : overfullStore.prfJob 0 0 4 = some overfullJob := by decide +kernel

theorem overfullStore_serves : (overfullStore.prfPass 0).prfServes 0 0 = true := by decide +kernel

theorem overfullStore_slot : (overfullStore.prfPass 0).slot overfullJob.eng overfullJob.slt = some overfullSlot := by decide +kernel

theorem overfullJob_check : prfCheck overfullJob.entry = St.ok := by decide +kernel

theorem overfullJob_slotStatus : slotStatus overfullJob.entry overfullSlot = St.ok := by decide +kernel

theorem overfullWrite_ok : overfullWrite.1 = St.ok := by decide +kernel

theorem overfullWrite_result_256 :
    (overfullStore.seal (overfullWrite.2.prfEnd overfullJob St.ok 256)).jobResults = [some (St.ok, 256)] := by decide +kernel

theorem overfullWrite_result_260 :
    (overfullStore.seal (overfullWrite.2.prfEnd overfullJob St.ok 260)).jobResults = [some (St.ok, 260)] := by decide +kernel

theorem exec_proofSave_overfull :
    exec (.proofSave 0 0) overfullStore = .next (overfullStore.seal (overfullWrite.2.prfEnd overfullJob St.ok 256)) := by
  rw [exec_proofSave_served (by decide) (by decide) overfullStore_prfJob overfullStore_serves,
    State.prfSave_written overfullStore_slot overfullJob_check overfullJob_slotStatus overfullWrite_ok]
  rfl

/-- Refutes O32: the statement has a SAVE complete with the length of what it writes, and the model with 256. The two are the same
where the state words of the slot fit the image's 200 bytes of state (R219), which the statement does not ask: the slot of
`overfullStore` has 51 words of 4 bytes, its image is 260 bytes, and SAVE completes with 256. -/
theorem not_proofOperationsCompleteOnTheirSlot : ¬ Obligations.ProofOperationsCompleteOnTheirSlot := by
  rintro ⟨-, onSlot, -⟩
  obtain ⟨-, -, -, -, saves⟩ := onSlot overfullStore _ 0 0 4 (.proofSave 0 0) overfullJob overfullSlot (by decide) (by decide) rfl
    overfullStore_prfJob overfullStore_serves overfullStore_slot (by simp)
  obtain ⟨written, -⟩ := saves rfl ((if_neg (not_not.mpr overfullJob_check)).trans overfullJob_slotStatus)
  have ends : exec (.proofSave 0 0) overfullStore =
      .next (overfullStore.seal (overfullWrite.2.prfEnd overfullJob St.ok 260)) :=
    overfullSlot_image_length ▸ written overfullWrite_ok
  rw [exec_proofSave_overfull] at ends
  have same : [some (St.ok, 256)] = [some (St.ok, 260)] :=
    calc [some (St.ok, 256)] = (overfullStore.seal (overfullWrite.2.prfEnd overfullJob St.ok 256)).jobResults :=
          overfullWrite_result_256.symm
      _ = (overfullStore.seal (overfullWrite.2.prfEnd overfullJob St.ok 260)).jobResults :=
          congrArg State.jobResults (Host.Outcome.next.inj ends)
      _ = [some (St.ok, 260)] := overfullWrite_result_260
  exact absurd same (by decide)

end Sys2Proof.Machine
end

section
/-! Every step of the block leaves Guard informed (R483): a command ends with Guard's look at its condition, and what Guard then sends
leaves everything that its condition reads. -/

namespace Sys2Proof.Machine

/-- Settles O1: the queue's front is the command that `step` executes. -/
theorem frontCommandIsExecuted : Obligations.FrontCommandIsExecuted := fun _ _ _ => rfl

/-- Settles O2: the step of an empty queue is the idle one. -/
theorem emptyQueuePassesOneNanosecond : Obligations.EmptyQueuePassesOneNanosecond := by
  intro s hs
  cases s
  subst hs
  rfl

/-- After Guard has looked at its condition it remembers it as it stands: its own sending changes nothing that the condition reads. -/
theorem State.guardEdge_seen (s : State) : s.guardEdge.guardSeen = true := by
  have kept : s.guardEdge.guardCondition = s.guardCondition := State.guardCondition_congr fun k hk => s.guardEdge_rd k hk
  have remembered : s.guardEdge.guardRaised = s.guardCondition := by
    unfold State.guardEdge
    dsimp only
    split
    · exact State.guardSend_raised _
    · rfl
  rw [State.guardSeen, kept, remembered, beq_self_eq_true]

/-- A command either names no part of the block and changes nothing, or its effect is sealed. -/
theorem exec_sealed_or_same (i : Instr) (s : State) : ∃ ok t, exec i s = done ok s t := by
  cases i <;> exact ⟨_, _, rfl⟩

theorem exec_guardSeen {i : Instr} {s t : State} (hs : s.guardSeen = true) (h : exec i s = .next t) : t.guardSeen = true := by
  obtain ⟨ok, u, hu⟩ := exec_sealed_or_same i s
  cases ok
  · exact Host.Outcome.next.inj (hu.symm.trans h) ▸ hs
  · exact Host.Outcome.next.inj (hu.symm.trans h) ▸ State.guardEdge_seen _

/-- Settles O5: an idle step changes no register, and a command seals its effect or changes nothing. -/
theorem everyStepLeavesGuardInformed : Obligations.EveryStepLeavesGuardInformed := by
  intro s t hs h
  unfold step at h
  split at h
  · exact Host.Outcome.next.inj h ▸ hs
  · next rest _ => exact exec_guardSeen (s := { s with pending := rest }) hs h

end Sys2Proof.Machine
end

section
/-! The flat store of HBM, benches and keep store (R441, R445, R459): what an operation leaves at each address, and that the canonical
form of a store is unique. -/

namespace Sys2Proof.Machine

section
variable {α : Type} (d : Nat → α)

theorem FMap.keep_cons (p : Nat → α → Bool) (e : Nat × α) (m : FMap α) :
    FMap.keep (e :: m) p = if p e.1 e.2 then e :: FMap.keep m p else FMap.keep m p := List.filter_cons

theorem FMap.get_keep_none {p : Nat → α → Bool} {x : Nat} (h : ∀ v, p x v = false) (m : FMap α) :
    FMap.get d (FMap.keep m p) x = d x := by
  induction m with
  | nil => rfl
  | cons e m ih =>
    rw [FMap.keep_cons]
    split
    · next hp =>
      have he : e.1 ≠ x := by rintro rfl; simp [h] at hp
      rw [FMap.get_entry, if_neg he, ih]
    · exact ih

theorem FMap.get_keep_all {p : Nat → α → Bool} {x : Nat} (m : FMap α) (h : ∀ v, (x, v) ∈ m → p x v = true) :
    FMap.get d (FMap.keep m p) x = FMap.get d m x := by
  induction m with
  | nil => rfl
  | cons e m ih =>
    have rest := ih fun v hv => h v (List.mem_cons_of_mem e hv)
    rw [FMap.keep_cons, FMap.get_entry]
    split
    · rw [FMap.get_entry, rest]
    · next hp =>
      have he : e.1 ≠ x := by rintro rfl; exact hp (h e.2 List.mem_cons_self)
      rw [if_neg he, rest]

variable [DecidableEq α]

/-- Every listed entry of a canonical map stands at or above its bound, and differs from the default. -/
theorem FMap.wfFrom_mem {d} : ∀ {m : FMap α} {b k : Nat} {v : α}, FMap.wfFrom d b m = true → (k, v) ∈ m → b ≤ k ∧ v ≠ d k
  | e :: m, b, k, v, hm, hmem => by
    simp only [FMap.wfFrom, Bool.and_eq_true, decide_eq_true_eq] at hm
    obtain ⟨⟨above, differs⟩, rest⟩ := hm
    rcases List.mem_cons.mp hmem with rfl | hrest
    · exact ⟨above, differs⟩
    · have := FMap.wfFrom_mem rest hrest
      exact ⟨by omega, this.2⟩

theorem FMap.get_below {d} : ∀ {m : FMap α} {b x : Nat}, FMap.wfFrom d b m = true → x < b → FMap.get d m x = d x
  | [], _, _, _, _ => rfl
  | e :: m, b, x, hm, hx => by
    simp only [FMap.wfFrom, Bool.and_eq_true, decide_eq_true_eq] at hm
    obtain ⟨⟨above, -⟩, rest⟩ := hm
    rw [FMap.get_entry, if_neg (by omega), FMap.get_below rest (by omega)]

/-- Canonical maps that read alike are equal. -/
theorem FMap.wfFrom_ext {d} : ∀ {m n : FMap α} {b c : Nat}, FMap.wfFrom d b m = true → FMap.wfFrom d c n = true →
    (∀ x, FMap.get d m x = FMap.get d n x) → m = n
  | [], [], _, _, _, _, _ => rfl
  | [], (k, v) :: n, _, _, _, hn, h => by
    simp only [FMap.wfFrom, Bool.and_eq_true, decide_eq_true_eq] at hn
    have := h k
    rw [FMap.get_entry, if_pos rfl] at this
    exact absurd this.symm hn.1.2
  | (k, v) :: m, [], _, _, hm, _, h => by
    simp only [FMap.wfFrom, Bool.and_eq_true, decide_eq_true_eq] at hm
    have := h k
    rw [FMap.get_entry, if_pos rfl] at this
    exact absurd this hm.1.2
  | (k, v) :: m, (k', v') :: n, _, _, hm, hn, h => by
    simp only [FMap.wfFrom, Bool.and_eq_true, decide_eq_true_eq] at hm hn
    obtain ⟨⟨-, differs⟩, restm⟩ := hm
    obtain ⟨⟨-, differs'⟩, restn⟩ := hn
    have key : k = k' := by
      rcases Nat.lt_trichotomy k k' with lt | eq | gt
      · have := h k
        rw [FMap.get_entry, if_pos rfl, FMap.get_entry, if_neg (by simp only; omega), FMap.get_below restn (by omega)] at this
        exact absurd this differs
      · exact eq
      · have := h k'
        rw [FMap.get_entry, if_neg (by simp only; omega), FMap.get_entry, if_pos rfl, FMap.get_below restm (by omega)] at this
        exact absurd this.symm differs'
    subst key
    have value : v = v' := by have := h k; rwa [FMap.get_entry, if_pos rfl, FMap.get_entry, if_pos rfl] at this
    subst value
    rw [FMap.wfFrom_ext restm restn fun x => ?_]
    rcases Nat.lt_or_ge k x with above | below
    · have := h x
      rwa [FMap.get_entry, if_neg (by simp only; omega), FMap.get_entry, if_neg (by simp only; omega)] at this
    · rw [FMap.get_below restm (by omega), FMap.get_below restn (by omega)]

end

theorem State.bytes_one (s : State) (x : Nat) : s.bytes x 1 = [FMap.get (memDefault s.haze) s.mem x] := rfl

theorem FMap.bytes_eq {d : Nat → Byte} {m : FMap Byte} : ∀ {bs : List Byte} {a : Nat},
    (∀ i < bs.length, FMap.get d m (a + i) = bs.getD i 0) → FMap.bytes d m a bs.length = bs
  | [], _, _ => rfl
  | b :: bs, a, h => by
    have hd : FMap.get d m a = b := h 0 (by simp)
    have tl : FMap.bytes d m (a + 1) bs.length = bs := FMap.bytes_eq fun i hi => by
      have := h (i + 1) (by simpa using hi)
      rwa [show a + (i + 1) = a + 1 + i by omega] at this
    rw [List.length_cons, FMap.bytes, hd, tl]

theorem State.bytes_putBytes (s : State) (a : Nat) (bs : List Byte) : (s.putBytes a bs).bytes a bs.length = bs := by
  refine FMap.bytes_eq fun i hi => ?_
  rw [State.putBytes_haze, State.byte_putBytes, if_pos (by omega), Nat.add_sub_cancel_left]

theorem foldl_keeps {α β : Type} {f : State → α → State} {g : State → β} (h : ∀ s a, g (f s a) = g s) :
    ∀ (l : List α) (s : State), g (l.foldl f s) = g s
  | [], _ => rfl
  | a :: l, s => (foldl_keeps h l (f s a)).trans (h s a)

theorem State.domainsOff_mem (s : State) : s.domainsOff.mem = s.mem := by
  unfold State.domainsOff
  rw [foldl_keeps (g := State.mem) fun _ _ => by rfl, foldl_keeps (g := State.mem) fun _ _ => by rfl]

theorem State.domainsOff_haze (s : State) : s.domainsOff.haze = s.haze := by
  unfold State.domainsOff
  rw [foldl_keeps (g := State.haze) fun _ _ => by rfl, foldl_keeps (g := State.haze) fun _ _ => by rfl]

theorem State.goDormant_mem (s : State) : s.goDormant.mem = FMap.keep s.mem (fun k b => inKeep k && b != 0) := by
  unfold State.goDormant
  rw [State.domainsOff_mem]
  rfl

theorem State.goDormant_haze (s : State) : s.goDormant.haze = [] := by
  unfold State.goDormant
  rw [State.domainsOff_haze]
  rfl

theorem FMap.get_default {α : Type} {d e : Nat → α} {x : Nat} (h : d x = e x) : ∀ m : FMap α, FMap.get d m x = FMap.get e m x
  | [] => h
  | entry :: m => by rw [FMap.get_entry, FMap.get_entry, FMap.get_default h m]

/-! Undefined and lost ranges. -/

/-- The keys outside the addresses from `a` to below `b`. -/
theorem outside_iff (a b k : Nat) : (!(decide (a ≤ k) && decide (k < b))) = true ↔ k < a ∨ b ≤ k := by
  simp

theorem inside_iff (a b k : Nat) : (!(decide (a ≤ k) && decide (k < b))) = false ↔ a ≤ k ∧ k < b := by simp

theorem State.blur_mem (s : State) (a b : Nat) :
    (s.blur a b).mem = FMap.keep s.mem (fun k _ => !(decide (a ≤ k) && decide (k < b))) := rfl

theorem State.loseBytes_mem (s : State) (a n : Nat) :
    (s.loseBytes a n).mem = FMap.keep s.mem (fun k _ => !(decide (a ≤ k) && decide (k < a + n))) := rfl

theorem State.bytes_blur_inside {s : State} {a b x : Nat} (hax : a ≤ x) (hxb : x < b) :
    (s.blur a b).bytes x 1 = [Config.haze s.fresh x] := by
  rw [State.bytes_one, State.blur_mem, FMap.get_keep_none _ fun _ => (inside_iff a b x).mpr ⟨hax, hxb⟩, State.blur, memDefault,
    if_pos (by simp [hax, hxb])]

theorem State.bytes_blur_outside {s : State} {a b x : Nat} (h : x < a ∨ b ≤ x) : (s.blur a b).bytes x 1 = s.bytes x 1 := by
  have sameDefault : memDefault (s.blur a b).haze x = memDefault s.haze x := if_neg (by simp; omega)
  rw [State.bytes_one, FMap.get_default sameDefault, State.blur_mem,
    FMap.get_keep_all _ _ fun _ _ => (outside_iff a b x).mpr h, State.bytes_one]

theorem State.bytes_loseBytes_inside {s : State} {a n x : Nat} (hax : a ≤ x) (hxb : x < a + n) :
    (s.loseBytes a n).bytes x 1 = [memDefault s.haze x] := by
  rw [State.bytes_one, State.loseBytes_mem, FMap.get_keep_none _ fun _ => (inside_iff a (a + n) x).mpr ⟨hax, hxb⟩, State.loseBytes]

theorem State.bytes_loseBytes_outside {s : State} {a n x : Nat} (h : x < a ∨ a + n ≤ x) :
    (s.loseBytes a n).bytes x 1 = s.bytes x 1 := by
  rw [State.bytes_one, State.loseBytes_mem, FMap.get_keep_all _ _ fun _ _ => (outside_iff a (a + n) x).mpr h, State.bytes_one,
    State.loseBytes]

/-! A module that goes Dormant keeps the keep store (R445, R459). -/

theorem FMap.wfFrom_keep_nonzero {d : Nat → Byte} {q : Nat → Bool} : ∀ {m : FMap Byte} {b : Nat}, FMap.wfFrom d b m = true →
    FMap.wfFrom (fun _ => 0) b (FMap.keep m (fun k v => q k && v != 0)) = true
  | [], _, _ => rfl
  | (k, v) :: m, b, hm => by
    simp only [FMap.wfFrom, Bool.and_eq_true, decide_eq_true_eq] at hm
    obtain ⟨⟨above, -⟩, rest⟩ := hm
    have ih := FMap.wfFrom_keep_nonzero (q := q) rest
    rw [FMap.keep_cons]
    split
    · next hp => simp_all [FMap.wfFrom]
    · exact FMap.wfFrom_mono _ (by omega) _ ih

theorem memDefault_nil : memDefault [] = fun _ => 0 := rfl

theorem Memory.wf_goDormant {s : State} (h : Memory.wf s = true) : Memory.wf s.goDormant = true := by
  unfold Memory.wf FMap.wf
  rw [State.goDormant_mem, State.goDormant_haze, memDefault_nil]
  exact FMap.wfFrom_keep_nonzero h

theorem State.bytes_goDormant_outside {s : State} {x : Nat} (h : inKeep x = false) : s.goDormant.bytes x 1 = [0] := by
  rw [State.bytes_one, State.goDormant_mem, State.goDormant_haze, FMap.get_keep_none _ (fun v => by simp [h])]
  rfl

theorem State.bytes_goDormant_inside {s : State} {x : Nat} (hwf : Memory.wf s = true) (h : inKeep x = true) (hz : s.haze = []) :
    s.goDormant.bytes x 1 = s.bytes x 1 := by
  have nonzero (v : Byte) (hv : (x, v) ∈ s.mem) : (v != 0) = true := by
    have := (FMap.wfFrom_mem hwf hv).2
    rwa [hz, memDefault_nil, ← bne_iff_ne] at this
  rw [State.bytes_one, State.bytes_one, State.goDormant_mem, State.goDormant_haze, hz,
    FMap.get_keep_all _ _ (fun v hv => by rw [h, nonzero v hv]; rfl)]

/-- Settles O59: each operation by what it leaves at an address; a store in canonical form is what it reads as. -/
theorem flatStoreReadsBackWhatIsPutThere : Obligations.FlatStoreReadsBackWhatIsPutThere := by
  refine ⟨fun s a x bs hwf => ⟨Memory.wf_putBytes a bs hwf, s.bytes_putBytes a bs, fun outside => ?_⟩,
    fun s a b x hwf => ⟨Memory.wf_blur a b hwf, State.bytes_blur_outside, State.bytes_blur_inside⟩,
    fun s a n x hwf => ⟨Memory.wf_loseBytes a n hwf, State.bytes_loseBytes_outside, State.bytes_loseBytes_inside⟩,
    fun s x hwf => ⟨Memory.wf_goDormant hwf, State.bytes_goDormant_outside, State.bytes_goDormant_inside hwf⟩,
    fun s t hs ht hz alike => ?_⟩
  · rw [State.bytes_one, State.putBytes_haze, State.byte_putBytes, if_neg (by omega), State.bytes_one]
  · unfold Memory.wf at ht
    rw [← hz] at ht
    refine FMap.wfFrom_ext hs ht fun x => ?_
    have := alike x
    rw [State.bytes_one, State.bytes_one, ← hz] at this
    exact (List.cons.inj this).1

end Sys2Proof.Machine
end

section
/-! SQ_FETCH (R235, R242 to R245): the arbiter grants a pair, whose context and head entry are read, and the entry is checked. -/

namespace Sys2Proof.Machine

theorem pairOk {q : Nat} (h : q < 8192) : okPair q = true := decide_eq_true h

theorem exec_sqFetch {q tag : Nat} (hq : q < 8192) (htag : tag < 8448) (entry block : HostRead) (again : Bool) (s : State) :
    exec (.sqFetch q entry block again tag) s =
      .next (s.seal (if s.arbFrozen 1 then s else s.fetchSq q entry block again tag)) :=
  done_of (by rw [pairOk hq, tagOk htag]; rfl) s _

/-- The queue engine may fetch an entry for the tag. -/
def State.MayFetch (s : State) (tag : Nat) : Prop :=
  s.bit Reg.QE_CTL 0 = true ∧ s.fetchHold = false ∧ s.cmd tag = none ∧ tag < s.tagCount

section
variable {s : State} {q tag : Nat} (entry block : HostRead) (again : Bool)

theorem State.fetchSq_shut (h : ¬ s.MayFetch tag) : s.fetchSq q entry block again tag = s := by
  unfold State.fetchSq
  refine if_pos ?_
  unfold State.MayFetch at h
  by_contra hopen
  simp only [Bool.or_eq_true, Bool.not_eq_true', decide_eq_true_eq, not_or, Bool.not_eq_false, Bool.not_eq_true,
    Option.isSome_eq_false_iff, Option.isNone_iff_eq_none] at hopen
  exact h ⟨hopen.1.1.1, hopen.1.1.2, hopen.1.2, by omega⟩

section
variable (hmay : s.MayFetch tag)
include hmay

theorem State.fetchSq_open : ¬ ((!s.bit Reg.QE_CTL 0 || s.fetchHold || (s.cmd tag).isSome || decide (s.tagCount ≤ tag)) = true) := by
  obtain ⟨hon, hfree, hnone, hlt⟩ := hmay
  simp [hon, hfree, hnone]
  omega

theorem State.fetchSq_ungranted (h : (∀ u, s.arbitrate ≠ some (q, u)) ∨ s.pair q = none) : s.fetchSq q entry block again tag = s := by
  unfold State.fetchSq
  rw [if_neg (State.fetchSq_open hmay)]
  split
  · next q' s1 p harb hpair =>
    refine if_pos fun hq => ?_
    subst hq
    rcases h with h | h
    · exact h s1 harb
    · rw [h] at hpair; cases hpair
  · rfl

variable {s1 : State} {p : Pair} (harb : s.arbitrate = some (q, s1)) (hp : s.pair q = some p)
include harb hp

theorem State.fetchSq_unread {st : Nat} {s2 : State} (hread : s1.readCtx q = (.error st, s2)) :
    s.fetchSq q entry block again tag = if st = St.held then s else s2.queueError q 6 p.head st := by
  unfold State.fetchSq
  rw [if_neg (State.fetchSq_open hmay), harb, hp]
  dsimp only
  rw [if_neg (not_not.mpr rfl), hread]

section
variable {ctx : List Byte} {s2 : State} (hread : s1.readCtx q = (.ok ctx, s2))
include hread

theorem State.fetchSq_denied : s.fetchSq q .denied block again tag =
    ((s2.setPair q (some { p with ctx := ctx })).aer (s2.pairFn q) .readRefused).queueError q 4 p.head St.accessDenied := by
  unfold State.fetchSq
  rw [if_neg (State.fetchSq_open hmay), harb, hp]
  dsimp only
  rw [if_neg (not_not.mpr rfl), hread]

theorem State.fetchSq_poisoned : s.fetchSq q .poisoned block again tag =
    ((s2.setPair q (some { p with ctx := ctx })).aer (s2.pairFn q) .readPoisoned).queueError q 5 p.head St.poisonedData := by
  unfold State.fetchSq
  rw [if_neg (State.fetchSq_open hmay), harb, hp]
  dsimp only
  rw [if_neg (not_not.mpr rfl), hread]

theorem State.fetchSq_data {e : List Byte} (hlen : e.length = 64) : s.fetchSq q (.data e) block again tag =
    if (fieldLE e 0 4).testBit 31 ≠ p.phase then s2.setPair q (some { p with ctx := ctx, pending := again })
    else s2.take q tag { p with ctx := ctx } e block := by
  unfold State.fetchSq
  rw [if_neg (State.fetchSq_open hmay), harb, hp]
  dsimp only
  rw [if_neg (not_not.mpr rfl), hread]
  dsimp only
  rw [if_neg (not_not.mpr hlen)]

end
end
end

/-! The arbiter (R242). -/

theorem State.mem_eligible (s : State) (q cls : Nat) : q ∈ s.eligible cls ↔ s.tagsHeld < s.tagCount ∧
    ∃ p, (q, some p) ∈ s.pairs ∧ s.wantsFetch q p = true ∧ (if q < 128 then 4 else qcClass p.ctx) = cls := by
  unfold State.eligible
  split
  · next full => exact ⟨fun h => absurd h List.not_mem_nil, fun h => absurd h.1 (by omega)⟩
  · next free =>
    rw [List.mem_filterMap]
    constructor
    · rintro ⟨⟨k, o⟩, hmem, hsome⟩
      obtain ⟨p, rfl, hp⟩ := Option.bind_eq_some_iff.mp hsome
      rw [Option.ite_none_right_eq_some, Option.some.injEq, Bool.and_eq_true, decide_eq_true_eq] at hp
      obtain ⟨hwants, rfl⟩ := hp
      exact ⟨by omega, p, hmem, hwants⟩
    · rintro ⟨-, p, hmem, hwants, hcls⟩
      exact ⟨(q, some p), hmem, by simp [hwants, hcls]⟩

theorem State.arbitrate_admin {s : State} {q : Nat} (h : s.nextPair 4 = some q) :
    s.arbitrate = some (q, { s with arbLast := FMap.setD s.arbLast 4 q }) := by
  unfold State.arbitrate
  rw [h]

theorem State.arbitrate_none {s : State} (hadmin : s.nextPair 4 = none) (hnone : ∀ c < 4, s.eligible c = []) :
    s.arbitrate = none := by
  unfold State.arbitrate
  rw [hadmin]
  exact if_pos (List.all_eq_true.mpr fun c hc => by rw [hnone c (List.mem_range.mp hc)]; rfl)

theorem State.arbitrate_turn {s : State} {q : Nat} (hadmin : s.nextPair 4 = none) (hsome : ∃ c < 4, s.eligible c ≠ [])
    (hnext : (State.arbTurn 5 s).nextPair (State.arbTurn 5 s).arbClass = some q) :
    s.arbitrate =
      some (q, { State.arbTurn 5 s with
        arbLast := FMap.setD (State.arbTurn 5 s).arbLast (State.arbTurn 5 s).arbClass q
        arbCredit := FMap.setD (State.arbTurn 5 s).arbCredit (State.arbTurn 5 s).arbClass
          (FMap.getD (State.arbTurn 5 s).arbCredit (State.arbTurn 5 s).arbClass - 1) }) := by
  obtain ⟨c, hc, hne⟩ := hsome
  unfold State.arbitrate
  rw [hadmin]
  dsimp only
  rw [if_neg, hnext]
  · rfl
  · intro hall
    exact hne (List.isEmpty_iff.mp (List.all_eq_true.mp hall c (List.mem_range.mpr hc)))

/-! The checks of an entry (R241). -/

theorem entryCause_eq_zero_iff (e : List Byte) : entryCause e = 0 ↔
    (bits (fieldLE e 0 4) 30 24 = 0 ∧ bits (fieldLE e 0 4) 23 16 ∈ adminOps ++ ioOps) ∧
    (pair64At e 8 = true ∧ pair32At e 0x18 = true) ∧ (fieldLE e 0x18 4 = 0 ∨ fieldLE e 8 8 + fieldLE e 0x18 4 ≤ 2 ^ 64) := by
  unfold entryCause
  dsimp only
  split
  · next h =>
    simp only [Bool.or_eq_true, decide_eq_true_eq, Bool.not_eq_true', List.contains_eq_mem, decide_eq_false_iff_not] at h
    simp only [Nat.one_ne_zero, false_iff]
    tauto
  · next h1 =>
    simp only [Bool.or_eq_true, decide_eq_true_eq, Bool.not_eq_true', List.contains_eq_mem, decide_eq_false_iff_not, not_or,
      not_not] at h1
    split
    · next h =>
      simp only [Bool.or_eq_true, Bool.not_eq_true'] at h
      simp only [OfNat.ofNat_ne_zero, false_iff]
      rcases h with h | h <;> simp [h]
    · next h2 =>
      simp only [Bool.or_eq_true, Bool.not_eq_true', not_or, Bool.not_eq_false] at h2
      split
      · next h =>
        simp only [Bool.and_eq_true, decide_eq_true_eq] at h
        simp only [OfNat.ofNat_ne_zero, false_iff]
        omega
      · next h =>
        simp only [Bool.and_eq_true, decide_eq_true_eq] at h
        exact ⟨fun _ => ⟨h1, h2, by omega⟩, fun _ => rfl⟩

/-! An entry that the pair owns is taken. -/

/-- The pair once the entry at its head is fetched: the head advances, and wraps with the phase (R235). -/
def Pair.advanced (p : Pair) : Pair :=
  { p with
    head := if p.head + 1 = qcSqDepth p.ctx then 0 else p.head + 1
    phase := if p.head + 1 = qcSqDepth p.ctx then !p.phase else p.phase }

/-- The command of entry `e` has taken `tag`. -/
def State.taken (s : State) (q tag : Nat) (e : List Byte) : State :=
  State.countWaits { (s.setCmd tag (some (s.cmdOf q e))).showTags with fetches := s.fetches + 1 }

section
variable {s : State} {q tag : Nat} {p : Pair} {e : List Byte} {block : HostRead}

theorem State.take_malformed (h : entryCause e ≠ 0) : s.take q tag p e block =
    (s.setPair q (some p.advanced)).queueError q (entryCause e) p.head
      (if entryCause e = 2 then St.complementMismatch else St.malformedEntry) := by
  unfold State.take
  dsimp only
  split
  · next h0 => exact absurd h0 h
  · rfl

section
variable (h : entryCause e = 0)
include h

theorem State.take_refused
    (hop : ((s.setPair q (some p.advanced)).taken q tag e).opAllowed q ((s.setPair q (some p.advanced)).cmdOf q e).fn
      ((s.setPair q (some p.advanced)).cmdOf q e).op = false) :
    s.take q tag p e block = ((s.setPair q (some p.advanced)).taken q tag e).complete tag St.invalidOpcode 0 := by
  unfold State.take
  rw [h]
  exact if_pos (by rw [Bool.not_eq_true']; exact hop)

theorem State.take_admitted
    (hop : ((s.setPair q (some p.advanced)).taken q tag e).opAllowed q ((s.setPair q (some p.advanced)).cmdOf q e).fn
      ((s.setPair q (some p.advanced)).cmdOf q e).op = true) :
    s.take q tag p e block =
      State.admission
        (if ((s.setPair q (some p.advanced)).cmdOf q e).op = 0x46 && !((s.setPair q (some p.advanced)).cmdOf q e).flags.testBit 0 then
          { (s.setPair q (some p.advanced)).taken q tag e with
            named := max ((s.setPair q (some p.advanced)).taken q tag e).named (((s.setPair q (some p.advanced)).cmdOf q e).arg 0x28 8) }
        else (s.setPair q (some p.advanced)).taken q tag e)
        tag ((s.setPair q (some p.advanced)).cmdOf q e) (if p.clampMs = 0 then 1000 else p.clampMs) block := by
  unfold State.take
  rw [h]
  exact if_neg (by rw [Bool.not_eq_true', Bool.not_eq_false]; exact hop)

end
end

/-! The context of a pair (R232). -/

section
variable {s : State} {q : Nat}

theorem State.readCtx_failed (h : (s.readMem Mid.qe (s.ctxDpa q) 64).1.status ≠ St.ok) :
    s.readCtx q = (.error (s.readMem Mid.qe (s.ctxDpa q) 64).1.status, (s.readMem Mid.qe (s.ctxDpa q) 64).2) := by
  unfold State.readCtx
  exact if_pos h

section
variable (h : (s.readMem Mid.qe (s.ctxDpa q) 64).1.status = St.ok)
include h

theorem State.readCtx_poisoned (hp : (s.readMem Mid.qe (s.ctxDpa q) 64).1.poison = true) :
    s.readCtx q = (.error St.poisonedData, (s.readMem Mid.qe (s.ctxDpa q) 64).2) := by
  unfold State.readCtx
  dsimp only
  rw [if_neg (not_not.mpr h), if_pos hp]

theorem State.readCtx_checked (hp : (s.readMem Mid.qe (s.ctxDpa q) 64).1.poison = false) :
    s.readCtx q =
      (if qcOk (s.readMem Mid.qe (s.ctxDpa q) 64).1.data then .ok (s.readMem Mid.qe (s.ctxDpa q) 64).1.data
        else .error St.complementMismatch, (s.readMem Mid.qe (s.ctxDpa q) 64).2) := by
  unfold State.readCtx
  dsimp only
  rw [if_neg (not_not.mpr h), if_neg (by simp [hp])]
  cases qcOk (s.readMem Mid.qe (s.ctxDpa q) 64).1.data <;> rfl

end
end

end Sys2Proof.Machine
end

section
/-! COMPLETION_POST (R237, R246, R249, R260, R276), the messages of a pair, and the Clamps and timeouts (R247, R258, R259). -/

namespace Sys2Proof.Machine

theorem exec_completionPost {tag : Nat} (htag : tag < 8448) (s : State) :
    exec (.completionPost tag) s = .next (s.seal (if s.arbFrozen 2 then s else s.post tag)) := done_of (tagOk htag) s _

/-- The collector has turned to the tag's slot, and has widened a Clamp range found broken: `t` is the state then. -/
def State.Collects (s : State) (tag : Nat) (c : Cmd) (t : State) : Prop :=
  (c.brokenRange = none ∧ t = { s with collector := tag }) ∨
    ∃ i, c.brokenRange = some i ∧ t = State.clampBreak { s with collector := tag } tag i

/-- What the collector does in `t` with the completion of the command `c` in its slot; it may leave the state `s` that it found. -/
def State.deliver (s t : State) (tag : Nat) (c : Cmd) : State :=
  if 8192 ≤ tag then t.answerPart tag c
  else if t.discards c.pair then t.release tag
  else
    match t.pair c.pair, c.done with
    | some p, some (st, result) =>
      match t.readCtx c.pair with
      | (.error e, u) => if e = St.held then s else (u.queueError c.pair 6 p.head e).release tag
      | (.ok ctx, u) => (u.postEntry c.pair p ctx c.pair p.head st c.cid result).release tag
    | _, _ => s

section
variable {s t : State} {tag : Nat} {c : Cmd}

theorem State.post_other (h : s.nextSlot ≠ some tag) : s.post tag = s := if_pos h

theorem State.post_eq_deliver {c0 : Cmd} (hslot : s.nextSlot = some tag) (h0 : s.cmd tag = some c0) (ht : s.Collects tag c0 t)
    (hc : t.cmd tag = some c) : s.post tag = s.deliver t tag c := by
  have h0' : State.cmd { s with collector := tag } tag = some c0 := h0
  unfold State.post State.deliver
  rw [if_neg (not_not.mpr hslot)]
  dsimp only
  rw [h0', Option.bind_some]
  rcases ht with ⟨hnone, rfl⟩ | ⟨i, hsome, rfl⟩
  · rw [hnone]
    dsimp only
    rw [hc] <;> rfl
  · rw [hsome]
    dsimp only
    rw [hc] <;> rfl

theorem State.deliver_part (htag : 8192 ≤ tag) : s.deliver t tag c = t.answerPart tag c := if_pos htag

section
variable (htag : tag < 8192)
include htag

theorem State.deliver_discarded (h : t.discards c.pair = true) : s.deliver t tag c = t.release tag := by
  unfold State.deliver
  rw [if_neg (by omega), if_pos h]

variable {p : Pair} {st result : Nat} (hd : t.discards c.pair = false) (hp : t.pair c.pair = some p)
  (hdone : c.done = some (st, result))
include hd hp hdone

theorem State.deliver_unread {e : Nat} {u : State} (hread : t.readCtx c.pair = (.error e, u)) :
    s.deliver t tag c = if e = St.held then s else (u.queueError c.pair 6 p.head e).release tag := by
  unfold State.deliver
  rw [if_neg (by omega), if_neg (by simp [hd]), hp, hdone]
  dsimp only
  rw [hread]

theorem State.deliver_posted {ctx : List Byte} {u : State} (hread : t.readCtx c.pair = (.ok ctx, u)) :
    s.deliver t tag c = (u.postEntry c.pair p ctx c.pair p.head st c.cid result).release tag := by
  unfold State.deliver
  rw [if_neg (by omega), if_neg (by simp [hd]), hp, hdone]
  dsimp only
  rw [hread]

end
end

/-! The entry that a completion is (R237), and the message that follows it (R248, R249). -/

theorem State.bit_setFld_set (t : State) (a : Nat) {i : Nat} (hi : i < 32) : (t.setFld a i i 1).bit a i = true := by
  unfold State.bit State.setFld
  rw [State.rd_wr_self, toNat_setBits _ _ _ _ (by omega), testBit_setBits, if_pos (by omega), Nat.sub_self]
  rfl

theorem State.msix_pair (s : State) (fn v q : Nat) : (s.msix fn v).pair q = s.pair q := by
  unfold State.msix
  split <;> rfl

theorem State.msix_sent_open {s : State} {fn v : Nat} (h : s.bit (msixWord fn v 3) 0 = false) :
    (s.msix fn v).sent = s.sent ++ [.msix fn v (s.rd64 (msixWord fn v 0)) (s.rd (msixWord fn v 2))] := by
  unfold State.msix
  rw [if_neg (by simp [h])]

theorem State.msix_masked {s : State} {fn v : Nat} (h : s.bit (msixWord fn v 3) 0 = true) :
    s.msix fn v = s.setFld (pbaWord fn v) (v % 32) (v % 32) 1 := if_pos h

/-- An entry posted under `ctx` is followed by the pair's message (R249). -/
def Pair.Fires (p : Pair) (ctx : List Byte) (status : Nat) : Prop :=
  qcIen ctx = true ∧ (max 1 (qcCoalCount ctx) ≤ p.unsent + 1 ∨ status ≠ St.ok ∨ qcClass ctx = 4)

/-- The pair once an entry is posted at its CQ tail. -/
def Pair.posted (p : Pair) (ctx : List Byte) (status time : Nat) : Pair :=
  { p with
    ctx := ctx
    ctail := if p.ctail + 1 = qcCqDepth ctx then 0 else p.ctail + 1
    cphase := if p.ctail + 1 = qcCqDepth ctx then !p.cphase else p.cphase
    unsent :=
      if !qcIen ctx || (decide (max 1 (qcCoalCount ctx) ≤ p.unsent + 1) || decide (status ≠ St.ok) || decide (qcClass ctx = 4)) then 0
      else p.unsent + 1
    firstAt := if p.unsent = 0 then time else p.firstAt }

/-- The completion written to the host (R237). -/
def State.cqEntry (s : State) (q : Nat) (p : Pair) (ctx : List Byte) (sqid head status cid result : Nat) : Sent :=
  .hostWrite (s.pairFn q) (qcCq ctx + 16 * p.ctail)
    (natLE 8 result ++ natLE 4 (2 ^ 31 * bit01 p.cphase + 2 ^ 16 * sqid + head) ++ natLE 4 (2 ^ 16 * status + cid)) false false

/-- The state once the entry is written and the pair has its new tail. -/
def State.entered (s : State) (q : Nat) (p : Pair) (ctx : List Byte) (sqid head status cid result : Nat) : State :=
  State.setPair { s with sent := s.sent ++ [s.cqEntry q p ctx sqid head status cid result] } q
    (some (p.posted ctx status s.time.toNat))

section
variable {s : State} {q sqid head status cid result : Nat} {p : Pair} {ctx : List Byte}

theorem State.postEntry_fires (h : p.Fires ctx status) :
    s.postEntry q p ctx sqid head status cid result =
      (s.entered q p ctx sqid head status cid result).msix (s.pairFn q) (qcVector ctx) := by
  obtain ⟨hien, hdue⟩ := h
  unfold State.postEntry
  exact if_pos (by simp only [hien, Bool.true_and, Bool.or_eq_true, decide_eq_true_eq]; tauto)

theorem State.postEntry_quiet (h : ¬ p.Fires ctx status) :
    s.postEntry q p ctx sqid head status cid result = s.entered q p ctx sqid head status cid result := by
  unfold State.postEntry
  refine if_neg fun hfire => h ?_
  simp only [Bool.and_eq_true, Bool.or_eq_true, decide_eq_true_eq] at hfire
  exact ⟨hfire.1, or_assoc.mp hfire.2⟩

theorem State.entered_pair : (s.entered q p ctx sqid head status cid result).pair q = some (p.posted ctx status s.time.toNat) :=
  FMap.getD_setD_self _ _ _

theorem State.postEntry_pair :
    (s.postEntry q p ctx sqid head status cid result).pair q = some (p.posted ctx status s.time.toNat) := by
  by_cases h : p.Fires ctx status
  · rw [State.postEntry_fires h, State.msix_pair, State.entered_pair]
  · rw [State.postEntry_quiet h, State.entered_pair]

end

/-! COALESCE_TIMEOUT (R249). -/

theorem exec_coalesceTimeout {q : Nat} (hq : q < 8192) (s : State) :
    exec (.coalesceTimeout q) s = .next (s.seal (s.coalesce q)) := done_of (pairOk hq) s _

theorem State.coalesce_none {s : State} {q : Nat} (h : s.pair q = none) : s.coalesce q = s := by
  unfold State.coalesce
  rw [h]

section
variable {s : State} {q : Nat} {p : Pair} (hp : s.pair q = some p)
include hp

theorem State.coalesce_idle (h : ¬ (p.unsent ≠ 0 ∧ qcCoalTime p.ctx ≠ 0 ∧ qcIen p.ctx = true)) : s.coalesce q = s := by
  unfold State.coalesce
  rw [hp]
  refine if_pos ?_
  by_contra hdue
  simp only [Bool.or_eq_true, decide_eq_true_eq, Bool.not_eq_true', not_or, Bool.not_eq_false] at hdue
  exact h ⟨hdue.1.1, hdue.1.2, hdue.2⟩

theorem State.coalesce_due (h : p.unsent ≠ 0 ∧ qcCoalTime p.ctx ≠ 0 ∧ qcIen p.ctx = true) :
    s.coalesce q =
      ((s.atTime (p.firstAt + 1000 * qcCoalTime p.ctx)).setPair q (some { p with unsent := 0 })).msix (s.pairFn q)
        (qcVector p.ctx) := by
  obtain ⟨hunsent, htime, hien⟩ := h
  unfold State.coalesce
  rw [hp]
  exact if_neg (by simp [hunsent, htime, hien])

end

/-! CLAMP_GRANT and CLAMP_TIMEOUT (R256, R258, R259). -/

theorem exec_clampGrant {tag : Nat} (h : tag < 8448) (s : State) : exec (.clampGrant tag) s = .next (s.seal (s.clampGrant tag)) :=
  done_of (tagOk h) s _

theorem exec_clampTimeout {tag : Nat} (h : tag < 8448) (s : State) :
    exec (.clampTimeout tag) s = .next (s.seal (s.clampTimeout tag)) := done_of (tagOk h) s _

/-- The command waits before Headstock (R258). -/
def Cmd.Waits (c : Cmd) : Prop := c.stage = .waiting ∧ c.done = none

section
variable {s : State} {tag : Nat} {c : Cmd}

theorem State.clampGrant_none (h : s.regrant.cmd tag = none) : s.clampGrant tag = s.regrant := by
  unfold State.clampGrant
  dsimp only
  rw [h]

theorem State.clampGrant_iff (c : Cmd) (u : State) :
    (decide (c.stage = .waiting) && c.done.isNone && c.clamps.all (·.granted) && !(decide (c.op = 0x46) && u.publishWaits c)) = true ↔
      c.Waits ∧ (∀ r ∈ c.clamps, r.granted = true) ∧ ¬ (c.op = 0x46 ∧ u.publishWaits c = true) := by
  simp only [Bool.and_eq_true, decide_eq_true_eq, Option.isNone_iff_eq_none, List.all_eq_true, Bool.not_eq_true', ← Bool.not_eq_true,
    Cmd.Waits]
  tauto

theorem State.clampGrant_some (h : s.regrant.cmd tag = some c) :
    ((c.Waits ∧ (∀ r ∈ c.clamps, r.granted = true) ∧ ¬ (c.op = 0x46 ∧ s.regrant.publishWaits c = true)) →
      s.clampGrant tag = s.regrant.passCmd tag) ∧
    (¬ (c.Waits ∧ (∀ r ∈ c.clamps, r.granted = true) ∧ ¬ (c.op = 0x46 ∧ s.regrant.publishWaits c = true)) →
      s.clampGrant tag = s.regrant) := by
  unfold State.clampGrant
  dsimp only
  rw [h, ← State.clampGrant_iff]
  exact ⟨fun hgo => if_pos hgo, fun hno => if_neg hno⟩

theorem State.clampTimeout_none (h : s.cmd tag = none) : s.clampTimeout tag = s := by
  unfold State.clampTimeout
  rw [h]

theorem Cmd.stillWaits_iff (c : Cmd) :
    (decide (c.stage = .waiting) && c.done.isNone && c.clamps.any (fun r => !r.granted)) = true ↔
      c.Waits ∧ ∃ r ∈ c.clamps, r.granted = false := by
  simp only [Bool.and_eq_true, decide_eq_true_eq, Option.isNone_iff_eq_none, List.any_eq_true, Bool.not_eq_true', Cmd.Waits]

theorem State.clampTimeout_some (h : s.cmd tag = some c) :
    ((c.Waits ∧ ∃ r ∈ c.clamps, r.granted = false) → s.clampTimeout tag =
      State.cancel { s.atTime c.due with clampTimeouts := min ((s.atTime c.due).clampTimeouts + 1) 0xFFFFFFFF } tag St.clampTimeout) ∧
    (¬ (c.Waits ∧ ∃ r ∈ c.clamps, r.granted = false) → s.clampTimeout tag = s) := by
  unfold State.clampTimeout
  rw [h, ← Cmd.stillWaits_iff]
  exact ⟨fun hgo => if_pos hgo, fun hno => if_neg hno⟩

end

/-! HOST_COMPLETION_TIMEOUT (R247). -/

theorem exec_hostCompletionTimeout {what : HostWait} (h : what.ok = true) (s : State) :
    exec (.hostCompletionTimeout what) s = .next (s.seal (s.hostTimeout bus what)) := done_of h s _

section
variable {s : State} {tag : Nat} (b : Bus)

theorem State.hostTimeout_noCommand (h : s.cmd tag = none) : s.hostTimeout b (.command tag) = s := by
  unfold State.hostTimeout
  dsimp only
  rw [h]
  rfl

variable {c : Cmd} (h : s.cmd tag = some c)
include h

theorem State.hostTimeout_fwDownload (hop : c.op = 7) : s.hostTimeout b (.command tag) = s.fwDownload tag .denied := by
  unfold State.hostTimeout
  dsimp only
  rw [h, Option.map_some, hop]
  rfl

theorem State.hostTimeout_load (hop : c.op = 0x41) : s.hostTimeout b (.command tag) = s.loadCmd tag .denied [] none := by
  unfold State.hostTimeout
  dsimp only
  rw [h, Option.map_some, hop]
  rfl

theorem State.hostTimeout_patch (hop : c.op = 0x42) : s.hostTimeout b (.command tag) = s.patchCmd tag .denied [] none := by
  unfold State.hostTimeout
  dsimp only
  rw [h, Option.map_some, hop]
  rfl

theorem State.hostTimeout_run (hop : c.op = 0x44) : s.hostTimeout b (.command tag) = s.runTake tag .denied none := by
  unfold State.hostTimeout
  dsimp only
  rw [h, Option.map_some, hop]
  rfl

theorem State.hostTimeout_install (hop : c.op = 0x45) : s.hostTimeout b (.command tag) = s.install tag .denied 0 := by
  unfold State.hostTimeout
  dsimp only
  rw [h, Option.map_some, hop]
  rfl

theorem State.hostTimeout_other (hop : c.op ∉ [0x07, 0x41, 0x42, 0x44, 0x45]) : s.hostTimeout b (.command tag) = s := by
  simp only [List.mem_cons, List.not_mem_nil, not_or, or_false] at hop
  obtain ⟨h7, h41, h42, h44, h45⟩ := hop
  unfold State.hostTimeout
  dsimp only
  rw [h, Option.map_some]
  split <;> simp_all

end

theorem State.hostTimeout_dma_list {s : State} {ch : Nat} (b : Bus) (h : FMap.getD s.dmaReg ch = none) :
    s.hostTimeout b (.dma ch) = s.dmaRun b ch [.denied] := by
  unfold State.hostTimeout
  dsimp only
  rw [h]
  rfl

theorem State.hostTimeout_dma_reg {s : State} {ch : Nat} (b : Bus) (h : FMap.getD s.dmaReg ch ≠ none) :
    s.hostTimeout b (.dma ch) = s.dmaRegRun b ch .denied := by
  unfold State.hostTimeout
  exact if_pos (Option.isSome_iff_ne_none.mpr h)

end Sys2Proof.Machine
end

section
/-! The queue engine's commands together (R232 to R260, R276). -/

namespace Sys2Proof.Machine

/-- Settles O52: each command by the cases of its own lemmas above. -/
theorem fetchPostClampsAndTimeouts : Obligations.FetchPostClampsAndTimeouts := by
  refine ⟨?fetch, ?context, ?arbiter, ?take, ?post, ?entry, ?coalesce, ?clamps, ?timeouts⟩
  case fetch =>
    intro s q entry block again tag hq htag
    rw [exec_sqFetch hq htag]
    dsimp only
    refine ⟨fun hno => ?_, fun hmay hno => ?_, fun s1 p hmay harb hp => ⟨fun st s2 hread => ?_, fun ctx s2 hread => ⟨?_, ?_, ?_⟩⟩⟩
    · by_cases hf : s.arbFrozen 1 = true
      · rw [if_pos hf]
      · rw [if_neg hf, State.fetchSq_shut _ _ _ fun h => hno ⟨by simpa using hf, h⟩]
    · rw [if_neg (by simp [hmay.1]), State.fetchSq_ungranted _ _ _ hmay.2 hno]
    · rw [if_neg (by simp [hmay.1]), State.fetchSq_unread _ _ _ hmay.2 harb hp hread]
      exact ⟨fun hst => by rw [if_pos hst], fun hst => by rw [if_neg hst]⟩
    · rintro rfl
      rw [if_neg (by simp [hmay.1]), State.fetchSq_denied _ _ hmay.2 harb hp hread]
    · rintro rfl
      rw [if_neg (by simp [hmay.1]), State.fetchSq_poisoned _ _ hmay.2 harb hp hread]
    · rintro e rfl hlen
      rw [if_neg (by simp [hmay.1]), State.fetchSq_data _ _ hmay.2 harb hp hread hlen]
      exact ⟨fun hown => by rw [if_pos hown], fun hown => by rw [if_neg (not_not.mpr hown)]⟩
  case context =>
    intro s q
    refine ⟨State.readCtx_failed, State.readCtx_poisoned, fun h hp hbad => ?_, fun h hp hgood => ?_⟩
    · rw [State.readCtx_checked h hp, if_neg (by simp [hbad])]
    · rw [State.readCtx_checked h hp, if_pos hgood]
  case arbiter =>
    exact fun s => ⟨s.mem_eligible, fun _ => State.arbitrate_admin, State.arbitrate_none, fun q => State.arbitrate_turn⟩
  case take =>
    intro s q tag p e block
    refine ⟨State.take_malformed, fun h => ⟨State.take_refused h, fun hop h46 => ?_, fun hop h46 => ?_⟩, entryCause_eq_zero_iff e⟩
    · refine (State.take_admitted h hop).trans ?_
      rw [if_neg]
      · rfl
      · simp only [Bool.and_eq_true, decide_eq_true_eq, not_and]
        exact fun h => absurd h h46
    · refine (State.take_admitted h hop).trans ?_
      congr 1
      refine if_congr ?_ rfl rfl
      rw [Bool.and_eq_true, decide_eq_true_eq, Bool.not_eq_true']
      exact and_iff_right h46
  case post =>
    intro s tag htag
    rw [exec_completionPost htag]
    dsimp only
    refine ⟨fun hno => ?_, fun c0 c s1 hf hslot h0 h1 hc => ?_⟩
    · rcases hno with hf | hslot
      · rw [if_pos hf]
      · rw [State.post_other hslot, ite_self]
    · rw [if_neg (by simp [hf]), State.post_eq_deliver hslot h0 h1 hc]
      refine ⟨fun hpart => by rw [State.deliver_part hpart], fun hown hd => by rw [State.deliver_discarded hown hd],
        fun p st result hown hd hp hdone => ⟨fun e s2 hread => ?_, fun ctx s2 hread => ?_⟩⟩
      · rw [State.deliver_unread hown hd hp hdone hread]
        exact ⟨fun he => by rw [if_pos he], fun he => by rw [if_neg he]⟩
      · rw [State.deliver_posted hown hd hp hdone hread]
  case entry =>
    intro s q sqid head status cid result p ctx
    refine ⟨fun h => ?_, fun h hopen => ?_, fun h hmask => ⟨?_, ?_⟩, _, State.postEntry_pair, rfl, rfl, fun hwrap => ?_, fun hwrap => ?_⟩
    · exact congrArg State.sent (State.postEntry_quiet h)
    · refine (congrArg State.sent (State.postEntry_fires h)).trans ?_
      rw [State.msix_sent_open (s := s.entered q p ctx sqid head status cid result) hopen]
      exact List.append_assoc _ _ _
    · refine (congrArg State.sent (State.postEntry_fires h)).trans ?_
      rw [State.msix_masked (s := s.entered q p ctx sqid head status cid result) hmask]
      rfl
    · rw [State.postEntry_fires h, State.msix_masked (s := s.entered q p ctx sqid head status cid result) hmask]
      exact State.bit_setFld_set _ _ (Nat.mod_lt _ (by decide))
    · exact ⟨if_pos hwrap, if_pos hwrap⟩
    · exact ⟨if_neg hwrap, if_neg hwrap⟩
  case coalesce =>
    intro s q hq
    rw [exec_coalesceTimeout hq]
    refine ⟨fun hnone => by rw [State.coalesce_none hnone], fun p hp => ⟨fun hidle => ?_, fun hdue => ?_⟩⟩
    · rw [State.coalesce_idle hp hidle]
    · rw [State.coalesce_due hp hdue]
  case clamps =>
    intro s tag htag
    rw [exec_clampGrant htag, exec_clampTimeout htag]
    refine ⟨fun h => by rw [State.clampGrant_none h], fun c hc => ?_, fun h => by rw [State.clampTimeout_none h], fun c hc => ?_⟩
    · obtain ⟨passes, stays⟩ := State.clampGrant_some hc
      exact ⟨fun hw hg hp => by rw [passes ⟨hw, hg, hp⟩], fun hno => by rw [stays hno]⟩
    · obtain ⟨ends, stays⟩ := State.clampTimeout_some hc
      exact ⟨fun hw hg => by rw [ends ⟨hw, hg⟩], fun hno => by rw [stays hno]⟩
  case timeouts =>
    intro s tag q ch c htag
    dsimp only
    rw [exec_hostCompletionTimeout (what := .command tag) (tagOk htag)]
    refine ⟨fun h => by rw [State.hostTimeout_noCommand _ h], fun h => ⟨fun hop => ?_, fun hop => ?_, fun hop => ?_, fun hop => ?_,
      fun hop => ?_, fun hop => ?_⟩, fun hq => ?_, fun hch hreg => ?_, fun hch hreg => ?_⟩
    · rw [State.hostTimeout_fwDownload _ h hop]
    · rw [State.hostTimeout_load _ h hop]
    · rw [State.hostTimeout_patch _ h hop]
    · rw [State.hostTimeout_run _ h hop]
    · rw [State.hostTimeout_install _ h hop]
    · rw [State.hostTimeout_other _ h hop]
    · exact exec_hostCompletionTimeout (by rw [HostWait.ok, pairOk hq, tagOk htag]; rfl) s
    · rw [exec_hostCompletionTimeout (what := .dma ch) (decide_eq_true hch), State.hostTimeout_dma_list _ hreg]
    · rw [exec_hostCompletionTimeout (what := .dma ch) (decide_eq_true hch), State.hostTimeout_dma_reg _ hreg]

end Sys2Proof.Machine
end

section
/-! IDENTIFY, GET_LOG and the features (R261 to R263): each acts on the command of its tag that Headstock has. -/

namespace Sys2Proof.Machine

/-- The command answers its host with bytes, and is complete. -/
def State.gives (s : State) (tag : Nat) (c : Cmd) (b : List Byte) : State := (s.hostPut c c.ptr b false).complete tag St.ok 0

section
variable {s : State} {tag : Nat}

theorem State.identify_idle (h : s.running? tag 1 = none) : s.identify tag = s := by
  unfold State.identify
  rw [h]

theorem State.getLog_idle (h : s.running? tag 2 = none) : s.getLog tag = s := by
  unfold State.getLog
  rw [h]

theorem State.setFeature_idle (h : s.running? tag 3 = none) : s.setFeature tag = s := by
  unfold State.setFeature
  rw [h]

theorem State.getFeature_idle (h : s.running? tag 4 = none) : s.getFeature tag = s := by
  unfold State.getFeature
  rw [h]

variable {c : Cmd}

theorem State.getLog_running (h : s.running? tag 2 = some c) : s.getLog tag =
    s.gives tag c (subBytes (s.logBytes (bits c.flags 7 0)) (c.arg 0x20 4) (c.arg 0x24 4)) := by
  unfold State.getLog
  rw [h]
  rfl

/-! IDENTIFY (R261). -/

section
variable (h : s.running? tag 1 = some c)
include h

theorem State.identify_device (hcns : bits c.flags 7 0 = 0) :
    s.identify tag = (s.identDevice c.fn).2.gives tag c (s.identDevice c.fn).1 := by
  unfold State.identify
  rw [h]
  dsimp only
  rw [hcns]
  rfl

theorem State.identify_space (hcns : bits c.flags 7 0 = 2) : s.identify tag = s.gives tag c (s.identSpace (c.arg 0x20 1)) := by
  unfold State.identify
  rw [h]
  dsimp only
  rw [hcns]
  rfl

theorem State.identify_fabric (hcns : 3 ≤ bits c.flags 7 0) : s.identify tag = s.gives tag c s.identFabric := by
  unfold State.identify
  rw [h]
  dsimp only
  split
  · omega
  · omega
  · omega
  · rfl

section
variable (hcns : bits c.flags 7 0 = 1)
include hcns

theorem State.identify_noPair (hp : s.pair (c.arg 0x20 2) = none) : s.identify tag = s.complete tag St.invalidField 0 := by
  unfold State.identify
  rw [h]
  dsimp only
  rw [hcns]
  simp only [hp]

theorem State.identify_pair {p : Pair} {a : MemAnswer} {u : State} (hp : s.pair (c.arg 0x20 2) = some p)
    (hread : s.readMem Mid.qe (s.ctxDpa (c.arg 0x20 2)) 64 = (a, u)) :
    s.identify tag =
      if a.status = St.held then s
      else if a.status ≠ St.ok then u.complete tag a.status 0
      else if a.poison then u.complete tag St.poisonedData 0
      else u.gives tag c (layout 4096 [(0, a.data), (0x40, natLE 4 (2 ^ 30 * p.state + p.clampMs))]) := by
  unfold State.identify
  rw [h]
  dsimp only
  rw [hcns]
  simp only [hp]
  rw [hread]
  rfl

end
end

/-! SET_FEATURE (R263). -/

theorem State.setFeature_running (h : s.running? tag 3 = some c) {st : Nat} {u : State}
    (hset : s.featureSet c.fn (c.flags % 65536) (c.arg 0x28 4) (c.arg 0x20 8) = (st, u)) :
    s.setFeature tag = if st = St.held then s else u.complete tag st 0 := by
  unfold State.setFeature
  rw [h]
  dsimp only
  rw [hset]

theorem State.getFeature_value (h : s.running? tag 4 = some c) {v : Nat}
    (hv : s.featureGet c.fn (c.flags % 65536) (c.arg 0x28 4) = some v) : s.getFeature tag = s.complete tag St.ok v := by
  unfold State.getFeature
  rw [h]
  dsimp only
  rw [hv]

theorem State.getFeature_noValue (h : s.running? tag 4 = some c)
    (hv : s.featureGet c.fn (c.flags % 65536) (c.arg 0x28 4) = none) : s.getFeature tag = s.complete tag St.invalidField 0 := by
  unfold State.getFeature
  rw [h]
  dsimp only
  rw [hv]

end

section
variable {s : State} {fn fid sel v : Nat}

theorem State.featureSet_unknown (h : fid = 0 ∨ 7 ≤ fid) : s.featureSet fn fid sel v = (St.invalidField, s) := by
  unfold State.featureSet
  dsimp only
  split
  · omega
  · omega
  · omega
  · omega
  · omega
  · omega
  · rfl

/-- Features 1 to 4 are the PF's alone. -/
theorem State.featureSet_foreign (hfn : fn ≠ 0) (h1 : 1 ≤ fid) (h4 : fid ≤ 4) : s.featureSet fn fid sel v = (St.invalidField, s) := by
  obtain rfl | rfl | rfl | rfl : fid = 1 ∨ fid = 2 ∨ fid = 3 ∨ fid = 4 := by omega
  · exact if_pos (by simp [hfn])
  · exact if_pos hfn
  · exact if_pos (by simp [hfn])
  · exact if_pos hfn

theorem State.featureSet_retain (h : sel = 0 ∧ v < 65536) : s.featureSet 0 1 sel v = (St.ok, { s with retain := v }) :=
  if_neg (by simp; omega)

theorem State.featureSet_retain_bad (h : ¬ (sel = 0 ∧ v < 65536)) : s.featureSet 0 1 sel v = (St.invalidField, s) :=
  if_pos (by simp; omega)

theorem State.featureSet_weight (h : sel = 0 ∧ v < 2 ^ 32) :
    s.featureSet 0 3 sel v = (St.ok, s.wr Reg.QE_ARB_WEIGHT (BitVec.ofNat 32 v)) := if_neg (by simp; omega)

theorem State.featureSet_weight_bad (h : ¬ (sel = 0 ∧ v < 2 ^ 32)) : s.featureSet 0 3 sel v = (St.invalidField, s) :=
  if_pos (by simp; omega)

/-- The pairs that the quotas of the other functions allow them. -/
def State.otherQuotas (s : State) (fn : Nat) : Nat := ((s.quotas.filter (fun e => e.1 ≠ fn)).map (·.2)).foldl (· + ·) 0

theorem State.featureSet_quota (h : sel < 128 ∧ v < 8192 ∧ s.otherQuotas sel + v ≤ 8064 ∧ s.pairsHeld sel ≤ v) :
    s.featureSet 0 2 sel v = (St.ok, { s with quotas := FMap.setD s.quotas sel v }) := by
  obtain ⟨hsel, hv, hsum, hheld⟩ := h
  show s.setQuota sel v = _
  unfold State.setQuota
  refine if_neg ?_
  simp only [Bool.or_eq_true, decide_eq_true_eq, not_or, Nat.not_le, Nat.not_lt]
  exact ⟨⟨⟨hsel, hv⟩, hsum⟩, hheld⟩

theorem State.featureSet_quota_bad (h : ¬ (sel < 128 ∧ v < 8192 ∧ s.otherQuotas sel + v ≤ 8064 ∧ s.pairsHeld sel ≤ v)) :
    s.featureSet 0 2 sel v = (St.invalidField, s) := by
  show s.setQuota sel v = _
  unfold State.setQuota
  refine if_pos ?_
  by_contra hfit
  simp only [Bool.or_eq_true, decide_eq_true_eq, not_or, Nat.not_le, Nat.not_lt] at hfit
  exact h ⟨hfit.1.1.1, hfit.1.1.2, hfit.1.2, hfit.2⟩

/-! Spaces. -/

theorem State.setSpace_bad (h : 256 ≤ sel ∨ 4 ≤ v) : s.setSpace sel v = (St.invalidField, s) := if_pos (by simpa using h)

theorem testBit_zero_of_odd (h : v % 2 = 1) : v.testBit 0 = true := by rw [Nat.testBit_zero, h]; rfl

theorem testBit_zero_of_even (h : v % 2 = 0) : v.testBit 0 = false := by rw [Nat.testBit_zero, h]; rfl

/-- Of the values that create a space, 3 asks for it to be mirrored. -/
theorem testBit_one_of_odd (hv : v < 4) (hodd : v % 2 = 1) : v.testBit 1 = decide (v = 3) := by
  obtain rfl | rfl : v = 1 ∨ v = 3 := by omega
  · rfl
  · rfl

section
variable (hsel : sel < 256) (hv : v < 4)
include hsel hv

theorem State.setSpace_new (hnone : FMap.getD s.spaces sel = none) :
    s.setSpace sel v =
      (St.ok, if v % 2 = 1 then { s with spaces := FMap.setD s.spaces sel (some ⟨decide (v = 3), false⟩) } else s) := by
  unfold State.setSpace
  rw [if_neg (by simp; omega), hnone]
  dsimp only
  rcases Nat.mod_two_eq_zero_or_one v with even | odd
  · rw [testBit_zero_of_even even, if_neg (show ¬ v % 2 = 1 by omega)]
    rfl
  · rw [testBit_zero_of_odd odd, testBit_one_of_odd hv odd, if_pos odd]
    rfl

section
variable {sp : Space} (hsome : FMap.getD s.spaces sel = some sp)
include hsome

theorem State.setSpace_again (hodd : v % 2 = 1) :
    s.setSpace sel v = if sp.mirrored = decide (v = 3) then (St.ok, s) else (St.invalidField, s) := by
  unfold State.setSpace
  rw [if_neg (by simp; omega), hsome]
  dsimp only
  rw [testBit_zero_of_odd hodd, testBit_one_of_odd hv hodd]
  rfl

theorem State.setSpace_delete (heven : v % 2 = 0) :
    s.setSpace sel v =
      if (s.tablesOf sel).any (fun e => s.floor < e.2.drop) then (St.invalidField, s)
      else (St.ok, { s with spaces := FMap.setD s.spaces sel none }) := by
  unfold State.setSpace
  rw [if_neg (by simp; omega), hsome]
  dsimp only
  rw [testBit_zero_of_even heven]
  rfl

end
end

/-! The features of an I/O pair. -/

theorem State.featureSet_pair_bad (hfid : fid = 5 ∨ fid = 6) (h : s.ownsIo fn sel = false ∨ 65536 ≤ v) :
    s.featureSet fn fid sel v = (St.invalidField, s) := by
  rcases hfid with rfl | rfl <;> exact if_pos (by simpa using h)

section
variable (hown : s.ownsIo fn sel = true) (hv : v < 65536)
include hown hv

theorem State.featureSet_coalescing : s.featureSet fn 5 sel v = s.setCoal sel (v / 256) (v % 256) := by
  have time : bits v 15 8 = v / 256 := by rw [bits_eq]; exact Nat.mod_eq_of_lt (by omega)
  have count : bits v 7 0 = v % 256 := bits_7_0 v
  rw [← time, ← count]
  exact if_neg (by simp [hown]; omega)

theorem State.featureSet_clampLimit {p : Pair} (hp : s.pair sel = some p) :
    s.featureSet fn 6 sel v = (St.ok, s.setPair sel (some { p with clampMs := if v = 0 then 1000 else v })) := by
  have hmay : ¬ ((!s.ownsIo fn sel || decide (65536 ≤ v)) = true) := by simp [hown]; omega
  unfold State.featureSet
  simp only [if_neg hmay, hp]

end
end

end Sys2Proof.Machine
end

section
/-! Queue pairs, firmware and the service of tiles (R229, R246, R264, R265, R487). -/

namespace Sys2Proof.Machine

theorem mem_rangeFrom {a n k : Nat} : k ∈ rangeFrom a n ↔ a ≤ k ∧ k < a + n := by
  unfold rangeFrom
  rw [List.mem_map]
  constructor
  · rintro ⟨i, hi, rfl⟩
    rw [List.mem_range] at hi
    omega
  · exact fun hk => ⟨k - a, by rw [List.mem_range]; omega, by omega⟩

/-- The lowest number of a range that a predicate picks. -/
theorem find?_rangeFrom {p : Nat → Bool} {a n k : Nat} (ha : a ≤ k) (hn : k < a + n) (hp : p k = true)
    (hbefore : ∀ j, a ≤ j → j < k → p j = false) : (rangeFrom a n).find? p = some k := by
  have hrange : (List.range n).find? (p ∘ (a + ·)) = some (k - a) := by
    rw [List.find?_range_eq_some]
    refine ⟨?_, List.mem_range.mpr (by omega), fun j hj => ?_⟩
    · rwa [Function.comp_apply, Nat.add_sub_cancel' ha]
    · rw [Function.comp_apply, hbefore (a + j) (by omega) (by omega)]
      rfl
  rw [rangeFrom, List.find?_map, hrange, Option.map_some, Nat.add_sub_cancel' ha]

section
variable {s : State} {tag : Nat}

theorem State.createQp_idle (h : s.running? tag 5 = none) : s.createQp tag = s := by
  unfold State.createQp
  rw [h]

theorem State.deleteQp_idle (h : s.running? tag 6 = none) : s.deleteQp tag = s := by
  unfold State.deleteQp
  rw [h]
  rfl

theorem State.fwDownload_idle (h : s.running? tag 7 = none) (d : HostRead) : s.fwDownload tag d = s := by
  unfold State.fwDownload
  rw [h]

theorem State.fwCommit_idle (h : s.running? tag 8 = none) (w : Nat) : s.fwCommit tag w = s := by
  unfold State.fwCommit
  rw [h]
  rfl

theorem State.liveUpdate_idle (h : s.running? tag 8 = none) (hlive : s.boot.live = none) (b : Bool) (w : Nat) :
    s.liveUpdate tag b w = s := by
  unfold State.liveUpdate
  rw [hlive, h]
  rfl

theorem State.abort_idle (h : s.running? tag 9 = none) : s.abort tag = s := by
  unfold State.abort
  rw [h]

theorem State.tileService_idle (h : s.running? tag 0xA = none) : s.tileService tag = s := by
  unfold State.tileService
  rw [h]

variable {c : Cmd}

/-! CREATE_QP and DELETE_QP. -/

/-- The context that a CREATE_QP gives its pair (R232). -/
def Cmd.newCtx (c : Cmd) : List Byte :=
  qcBytes c.ptr (c.arg 0x20 8) (bits (c.arg 0x30 4) 15 0) (bits (c.arg 0x30 4) 31 16) (c.arg 0x38 4)
    (setBits (setBits c.fn 31 24 (bits c.flags 31 24)) 23 16 (bits c.flags 23 16))

/-- The Clamp limit that a CREATE_QP gives its pair, in milliseconds. -/
def Cmd.newClampMs (c : Cmd) : Nat := if bits c.flags 15 0 = 0 then 1000 else bits c.flags 15 0

section
variable (h : s.running? tag 5 = some c)
include h

theorem State.createQp_noQuota (hfull : FMap.getD s.quotas c.fn ≤ s.pairsHeld c.fn) :
    s.createQp tag = s.complete tag St.tableFull 0 := by
  unfold State.createQp
  rw [h]
  exact if_pos hfull

theorem State.createQp_noNumber (hall : ∀ q, 128 ≤ q → q < 8192 → (s.pair q).isSome = true) :
    s.createQp tag = s.complete tag St.tableFull 0 := by
  have hnone : (rangeFrom 128 8064).find? (fun q => (s.pair q).isNone) = none := by
    rw [List.find?_eq_none]
    intro q hq
    obtain ⟨h1, h2⟩ := mem_rangeFrom.mp hq
    exact fun hnone => by simpa [Option.isNone_iff_eq_none.mp hnone] using hall q h1 (by omega)
  unfold State.createQp
  rw [h]
  dsimp only
  rw [hnone]
  exact ite_self _

theorem State.createQp_lowest {q : Nat} (hquota : s.pairsHeld c.fn < FMap.getD s.quotas c.fn) (h1 : 128 ≤ q) (h2 : q < 8192)
    (hfree : s.pair q = none) (hbelow : ∀ k, 128 ≤ k → k < q → (s.pair k).isSome = true) {st : Nat} {u : State}
    (hmake : s.makePair q c.newCtx c.newClampMs = (st, u)) :
    s.createQp tag = if st = St.held then s else u.complete tag st (if st = St.ok then q else 0) := by
  have hfind : (rangeFrom 128 8064).find? (fun q => (s.pair q).isNone) = some q :=
    find?_rangeFrom h1 (by omega) (by simp [hfree]) fun j hj hjq => by simp [hbelow j hj hjq]
  unfold Cmd.newCtx Cmd.newClampMs at hmake
  unfold State.createQp
  rw [h]
  dsimp only
  rw [if_neg (by omega), hfind]
  dsimp only
  rw [hmake]

end

theorem State.makePair_pair {q ms st : Nat} {ctx : List Byte} {u : State} (hmake : s.makePair q ctx ms = (st, u)) (hok : st = St.ok) :
    u.pair q = some (Pair.fresh ctx ms) := by
  unfold State.makePair at hmake
  dsimp only at hmake
  split at hmake
  · have hu := congrArg Prod.snd hmake
    dsimp only at hu
    rw [← hu]
    exact FMap.getD_setD_self _ _ _
  · next hno => exact absurd (congrArg Prod.fst hmake |>.trans hok) hno

section
variable (h : s.running? tag 6 = some c) (hpassed : c.stage = .passed)
include h hpassed

theorem State.deleteQp_gone (hp : s.pair (c.arg 0x20 2) = none) : s.deleteQp tag = s.complete tag St.ok 0 := by
  unfold State.deleteQp
  rw [h, Option.filter_some, if_pos (decide_eq_true hpassed)]
  exact if_pos (by rw [hp]; rfl)

theorem State.deleteQp_begins (hp : s.pair (c.arg 0x20 2) ≠ none) :
    s.deleteQp tag = (s.setStage tag .committed).deletePair (c.arg 0x20 2) := by
  unfold State.deleteQp
  rw [h, Option.filter_some, if_pos (decide_eq_true hpassed)]
  exact if_neg (by simpa using hp)

end

/-! FW_DOWNLOAD and FW_COMMIT (R264). -/

section
variable (h : s.running? tag 7 = some c)
include h

theorem State.fwDownload_denied : s.fwDownload tag .denied = (s.aer c.fn .readRefused).complete tag St.accessDenied 0 := by
  unfold State.fwDownload
  rw [h]

theorem State.fwDownload_poisoned : s.fwDownload tag .poisoned = (s.aer c.fn .readPoisoned).complete tag St.poisonedData 0 := by
  unfold State.fwDownload
  rw [h]

theorem State.fwDownload_data {b : List Byte} (hlen : b.length = c.len) : s.fwDownload tag (.data b) =
    State.complete { s with boot := { s.boot with buf := FMap.store (fun _ => 0) s.boot.buf (c.arg 0x20 4) b,
                                                  ranges := (c.arg 0x20 4, c.arg 0x20 4 + b.length) :: s.boot.ranges } }
      tag St.ok 0 := by
  unfold State.fwDownload
  rw [h]
  exact if_neg (not_not.mpr hlen)

end

theorem State.fwCommitCheck_slot {action slot len : Nat} (h : s.fwCommitCheck action slot len = St.ok) : slot = 1 ∨ slot = 2 := by
  by_contra hslot
  have hbad : (decide (slot = 0) || decide (2 < slot) || (decide (action = 3) && decide (s.mode = .bringUp))) = true := by
    simp
    omega
  unfold State.fwCommitCheck at h
  simp only [if_pos hbad, ite_self] at h
  split at h
  · exact absurd h (by decide)
  · exact absurd h (by decide)

section
variable (h : s.running? tag 8 = some c) (haction : bits c.flags 7 4 < 3) (w : Nat)
include h haction

theorem State.fwCommit_refused (hst : s.fwCommitCheck (bits c.flags 7 4) (c.flags % 16) (c.arg 0x20 4) ≠ St.ok) :
    s.fwCommit tag w = s.complete tag (s.fwCommitCheck (bits c.flags 7 4) (c.flags % 16) (c.arg 0x20 4)) 0 := by
  unfold State.fwCommit
  rw [h, Option.filter_some, if_pos (decide_eq_true haction)]
  exact if_pos hst

section
variable (hst : s.fwCommitCheck (bits c.flags 7 4) (c.flags % 16) (c.arg 0x20 4) = St.ok)
include hst

theorem State.fwCommit_unwritten {w : Nat} (h2 : bits c.flags 7 4 ≠ 2) (hw : w ≠ St.ok) :
    s.fwCommit tag w =
      State.complete { s with boot := s.boot.writeSlot (c.flags % 16) (c.arg 0x20 4) w } tag w 0 := by
  unfold State.fwCommit
  rw [h, Option.filter_some, if_pos (decide_eq_true haction)]
  dsimp only
  rw [if_neg (not_not.mpr hst), if_neg h2, if_pos (by simp [h2, hw])]
  rfl

theorem State.fwCommit_written (h0 : bits c.flags 7 4 = 0) :
    s.fwCommit tag St.ok =
      State.complete { s with boot := s.boot.writeSlot (c.flags % 16) (c.arg 0x20 4) St.ok } tag St.ok 0 := by
  unfold State.fwCommit
  rw [h, Option.filter_some, if_pos (decide_eq_true haction)]
  dsimp only
  rw [if_neg (not_not.mpr hst), h0]
  rfl

/-- The boot record names the slot as the one to try (R264). -/
def Boot.pendingSlot (b : Boot) (slot : Nat) : Boot := { b with waiting := slot, trials := 0, gen := b.gen + 1 }

theorem State.fwCommit_pending (h1 : bits c.flags 7 4 = 1) :
    s.fwCommit tag St.ok =
      State.complete { s with boot := (s.boot.writeSlot (c.flags % 16) (c.arg 0x20 4) St.ok).pendingSlot (c.flags % 16) }
        tag St.ok 1 := by
  unfold State.fwCommit
  rw [h, Option.filter_some, if_pos (decide_eq_true haction)]
  dsimp only
  rw [if_neg (not_not.mpr hst), h1]
  rfl

theorem State.fwCommit_activated (h2 : bits c.flags 7 4 = 2) :
    s.fwCommit tag w = State.complete { s with boot := s.boot.pendingSlot (c.flags % 16) } tag St.ok 1 := by
  unfold State.fwCommit
  rw [h, Option.filter_some, if_pos (decide_eq_true haction)]
  dsimp only
  rw [if_neg (not_not.mpr hst), h2]
  rfl

end
end

/-! LIVE_FIRMWARE_UPDATE (R487): it begins, and goes through its phases. -/

section
variable (hlive : s.boot.live = none) (h : s.running? tag 8 = some c) (h3 : bits c.flags 7 4 = 3) (hstage : c.stage ≠ .committed)
  (taken : Bool) (w : Nat)
include hlive h h3 hstage

theorem State.liveUpdate_refused (hst : s.fwCommitCheck 3 (c.flags % 16) (c.arg 0x20 4) ≠ St.ok) :
    s.liveUpdate tag taken w = s.complete tag (s.fwCommitCheck 3 (c.flags % 16) (c.arg 0x20 4)) 0 := by
  unfold State.liveUpdate
  rw [hlive, h, Option.filter_some, if_pos (by simp [h3, hstage])]
  exact if_pos hst

theorem State.liveUpdate_begins (hst : s.fwCommitCheck 3 (c.flags % 16) (c.arg 0x20 4) = St.ok) :
    s.liveUpdate tag taken w =
      if w ≠ St.ok then State.complete { s with boot := s.boot.writeSlot (c.flags % 16) (c.arg 0x20 4) w } tag w 0
      else
        State.setStage
          { s with
            fetchHold := true
            boot := { s.boot.writeSlot (c.flags % 16) (c.arg 0x20 4) w with
              live := some ⟨tag, c.flags % 16, s.time.toNat, 0⟩ } } tag .committed := by
  unfold State.liveUpdate
  rw [hlive, h, Option.filter_some, if_pos (by simp [h3, hstage])]
  exact if_neg (not_not.mpr hst)

end

section
variable {u : LiveUpdate} (hlive : s.boot.live = some u) {taken : Bool} (w : Nat)
include hlive

theorem State.liveUpdate_other (htag : u.tag ≠ tag) : s.liveUpdate tag taken w = s := by
  unfold State.liveUpdate
  rw [hlive]
  exact if_pos htag

section
variable (htag : u.tag = tag)
include htag

theorem State.liveUpdate_waits (hphase : u.phase = 0) (hothers : s.othersInFlight tag = true) :
    s.liveUpdate tag taken w = (s.atTime (u.start + 1000000000)).endUncommitted := by
  unfold State.liveUpdate
  rw [hlive]
  dsimp only
  rw [if_neg (not_not.mpr htag), if_pos hphase, if_pos hothers]

/-- The update is in its second phase. -/
def State.liveEtching (s : State) (u : LiveUpdate) : State := { s with boot := { s.boot with live := some { u with phase := 1 } } }

theorem State.liveUpdate_drained (hphase : u.phase = 0) (hothers : s.othersInFlight tag = false) :
    s.liveUpdate tag taken w =
      if (s.liveEtching u).pltState = 1 then
        State.etchGo { s.liveEtching u with plate := { (s.liveEtching u).plate with freeze := (s.liveEtching u).published } } 0x140
      else s.liveEtching u := by
  unfold State.liveUpdate
  rw [hlive]
  dsimp only
  rw [if_neg (not_not.mpr htag), if_pos hphase, if_neg (by simp [hothers])]
  rfl

theorem State.liveUpdate_etched (hphase : u.phase = 1) :
    s.liveUpdate tag taken w = if s.pltState = 4 then s else s.liveStart u := by
  unfold State.liveUpdate
  rw [hlive]
  dsimp only
  rw [if_neg (not_not.mpr htag), if_neg (by omega), if_pos hphase]

theorem State.liveUpdate_untaken (hphase : u.phase = 2) : s.liveUpdate tag false w = s := by
  unfold State.liveUpdate
  rw [hlive]
  dsimp only
  rw [if_neg (not_not.mpr htag), if_neg (by omega), if_neg (by omega)]
  rfl

/-- Plate's control and state once the new runtime has taken over. -/
def State.plateResumed (s : State) : State :=
  (s.setFld Reg.PLT_CTL 1 0 (if s.plate.regions.isEmpty then 0 else 3)).setFld Reg.PLT_STATUS 31 29 (bit01 (!s.plate.regions.isEmpty))

theorem State.liveUpdate_taken (hphase : u.phase = 2) :
    s.liveUpdate tag true w =
      State.complete { s.plateResumed.bootOk 0x140 1 with
        fetchHold := false, boot := { (s.plateResumed.bootOk 0x140 1).boot with live := none } } tag St.ok 0 := by
  unfold State.liveUpdate
  rw [hlive]
  dsimp only
  rw [if_neg (not_not.mpr htag), if_neg (by omega), if_neg (by omega)]
  rfl

end
end

/-! ABORT (R275). -/

/-- The commands in flight that an ABORT names, with their tags. -/
def State.abortHits (s : State) (c : Cmd) : List (Nat × Cmd) :=
  s.cmds.filterMap (fun e => e.2.bind (fun d => if d.pair = c.arg 0x22 2 && d.cid = c.arg 0x20 2 then some (e.1, d) else none))

/-- The earlier fetched of two commands, the one found so far where they are as old. -/
def olderHit (b : Option (Nat × Cmd)) (x : Nat × Cmd) : Option (Nat × Cmd) :=
  match b with
  | some y => if x.2.order < y.2.order then some x else some y
  | none => some x

/-- A fold that looks for the oldest keeps an element older than every other. -/
theorem foldl_olderHit_some {y : Nat × Cmd} : ∀ l : List (Nat × Cmd), (∀ x ∈ l, x ≠ y → y.2.order < x.2.order) →
    l.foldl olderHit (some y) = some y
  | [], _ => rfl
  | x :: l, h => by
    have keeps : olderHit (some y) x = some y := by
      by_cases hx : x = y
      · subst hx
        exact if_neg (Nat.lt_irrefl _)
      · exact if_neg (by have := h x List.mem_cons_self hx; omega)
    rw [List.foldl_cons, keeps]
    exact foldl_olderHit_some l fun z hz => h z (List.mem_cons_of_mem x hz)

theorem foldl_olderHit_finds {y : Nat × Cmd} : ∀ (l : List (Nat × Cmd)) (b : Option (Nat × Cmd)), y ∈ l →
    (∀ x ∈ l, x ≠ y → y.2.order < x.2.order) → (∀ x, b = some x → x ≠ y → y.2.order < x.2.order) → l.foldl olderHit b = some y
  | x :: l, b, hmem, h, hb => by
    have rest : ∀ z ∈ l, z ≠ y → y.2.order < z.2.order := fun z hz => h z (List.mem_cons_of_mem x hz)
    have picks : olderHit b y = some y := by
      cases b with
      | none => rfl
      | some z =>
        by_cases hz : z = y
        · subst hz
          exact if_neg (Nat.lt_irrefl _)
        · exact if_pos (hb z rfl hz)
    rw [List.foldl_cons]
    rcases List.mem_cons.mp hmem with rfl | hin
    · rw [picks]
      exact foldl_olderHit_some l rest
    · refine foldl_olderHit_finds l _ hin rest fun z hz hne => ?_
      cases b with
      | none => exact h z (by rw [Option.some.inj hz]; exact List.mem_cons_self) hne
      | some v =>
        unfold olderHit at hz
        dsimp only at hz
        split at hz
        · exact h z (by rw [Option.some.inj hz]; exact List.mem_cons_self) hne
        · exact hb z hz hne

/-- The ABORT is well formed, and may stop the command `d` of tag `t`. -/
def State.MayAbort (s : State) (c : Cmd) (t : Nat) (d : Cmd) : Prop :=
  c.flags = 0 ∧ c.noData = true ∧ c.spare [(0x20, 4)] = true ∧ c.arg 0x22 2 < 8192 ∧ c.cid ≠ 0xFFFF ∧
    (s.pair (c.arg 0x22 2)).isSome = true ∧ s.pairFn (c.arg 0x22 2) = c.fn ∧ s.canAbort t d = true

section
variable (h : s.running? tag 9 = some c)
include h

theorem State.abort_unnamed (hnone : s.abortHits c = []) : s.abort tag = s.complete tag St.ok 0 := by
  unfold State.abortHits at hnone
  unfold State.abort
  rw [h]
  dsimp only
  rw [hnone]
  rfl

variable {t : Nat} {d : Cmd} (hfirst : (s.abortHits c).foldl olderHit none = some (t, d))
include hfirst

theorem State.abort_named :
    (¬ s.MayAbort c t d → s.abort tag = s.complete tag St.ok 0) ∧
    (∀ e, s.MayAbort c t d → (s.cancel t St.aborted).cmd tag = some e →
      s.abort tag = ((s.cancel t St.aborted).setCmd tag (some { e with after := some d.order })).complete tag St.ok 1) := by
  have hmay : (decide (c.flags = 0) && c.noData && c.spare [(0x20, 4)] && decide (c.arg 0x22 2 < 8192) && decide (c.cid ≠ 0xFFFF) &&
      (match s.pair (c.arg 0x22 2) with | some _ => decide (s.pairFn (c.arg 0x22 2) = c.fn) | none => false) &&
      s.canAbort t d) = true ↔ s.MayAbort c t d := by
    unfold State.MayAbort
    cases s.pair (c.arg 0x22 2) <;>
      simp only [Bool.and_eq_true, decide_eq_true_eq, Option.isSome_some, Option.isSome_none, Bool.false_eq_true, and_false, false_and,
        true_and, and_assoc]
  unfold State.abort
  rw [h]
  dsimp only
  generalize hfold : List.foldl _ (none : Option (Nat × Cmd)) _ = named
  obtain rfl : named = some (t, d) := hfold.symm.trans hfirst
  refine ⟨fun hno => if_neg fun hgo => hno (hmay.mp hgo), fun e hyes he => ?_⟩
  refine (if_pos (hmay.mpr hyes)).trans ?_
  rw [he]

end

/-! TILE_SERVICE (R265). -/

/-- Bit `t` of the tiles out of service becomes `b`. -/
def State.tileOffline (s : State) (t b : Nat) : State := { s with offline := setBits s.offline t t b }

/-- The state while a TILE_SERVICE takes its tile out of service. -/
def State.tileLeaving (s : State) (tag : Nat) (c : Cmd) : State :=
  if c.stage = .staged then s else (s.tileOffline (c.arg 0x20 1) 1).setStage tag .staged

theorem State.not_other_half {t : Nat} (h : t < 64 ∨ s.role ≠ none) : ¬ ((decide (64 ≤ t) && s.role.isNone) = true) := by
  rw [Bool.and_eq_true, decide_eq_true_eq, Option.isNone_iff_eq_none]
  rintro ⟨h64, hnone⟩
  rcases h with hlt | hrole
  · omega
  · exact hrole hnone

section
variable (h : s.running? tag 0xA = some c)
include h

theorem State.tileService_bad
    (hbad : (if s.mapRole = some false then 128 else 64) ≤ c.arg 0x20 1 ∨ s.pairRetired (c.arg 0x20 1) = true) :
    s.tileService tag = s.complete tag St.invalidField 0 := by
  unfold State.tileService
  rw [h]
  exact if_pos (by simpa using hbad)

section
variable (hgood : ¬ ((if s.mapRole = some false then 128 else 64) ≤ c.arg 0x20 1 ∨ s.pairRetired (c.arg 0x20 1) = true))
include hgood

theorem State.tileService_lost (h64 : 64 ≤ c.arg 0x20 1) (hrole : s.role = none) :
    s.tileService tag = s.complete tag St.halfLost 0 := by
  unfold State.tileService
  rw [h]
  dsimp only
  rw [if_neg (by simpa using hgood), if_pos (by simp [h64, hrole])]

variable (hhere : c.arg 0x20 1 < 64 ∨ s.role ≠ none)
include hhere

theorem State.tileService_on (hon : c.flags.testBit 0 = true) :
    s.tileService tag =
      (s.tileOffline (c.arg 0x20 1) 0).complete tag St.ok (s.tileOffline (c.arg 0x20 1) 0).tilesInService.length := by
  unfold State.tileService
  rw [h]
  dsimp only
  rw [if_neg (by simpa using hgood), if_neg (State.not_other_half hhere), if_pos hon]
  rfl

theorem State.tileService_off (hoff : c.flags.testBit 0 = false) :
    s.tileService tag =
      if (s.tileLeaving tag c).tileHeld (c.arg 0x20 1) then s.tileLeaving tag c
      else (s.tileLeaving tag c).complete tag St.ok (s.tileLeaving tag c).tilesInService.length := by
  unfold State.tileService
  rw [h]
  dsimp only
  rw [if_neg (by simpa using hgood), if_neg (State.not_other_half hhere), if_neg (by simp [hoff])]
  rfl

end
end

end

end Sys2Proof.Machine
end

section
/-! The admin commands together (R261 to R265, R275, R487). -/

namespace Sys2Proof.Machine

theorem exec_setFeature_sets {s u : State} {tag : Nat} {c : Cmd} (h : s.running? tag 3 = some c)
    (hset : s.featureSet c.fn (c.flags % 65536) (c.arg 0x28 4) (c.arg 0x20 8) = (St.ok, u)) (htag : tag < 8448) :
    exec (.setFeature tag) s = .next (s.seal (u.complete tag St.ok 0)) :=
  (done_of (tagOk htag) s _).trans (by rw [State.setFeature_running h hset, if_neg (by decide)])

theorem exec_setFeature_bad {s : State} {tag : Nat} {c : Cmd} (h : s.running? tag 3 = some c)
    (hset : s.featureSet c.fn (c.flags % 65536) (c.arg 0x28 4) (c.arg 0x20 8) = (St.invalidField, s)) (htag : tag < 8448) :
    exec (.setFeature tag) s = .next (s.seal (s.complete tag St.invalidField 0)) :=
  (done_of (tagOk htag) s _).trans (by rw [State.setFeature_running h hset, if_neg (by decide)])

/-- Settles O53: each command by the cases of its own lemmas above. -/
theorem adminCommandsAnswer : Obligations.AdminCommandsAnswer := by
  refine ⟨?idle, ?identify, ?set, ?get, ?create, ?firmware, ?live, ?abort, ?tile⟩
  case idle =>
    intro s tag d b w htag
    have acts (t : State) : done (okTag tag) s t = .next (s.seal t) := done_of (tagOk htag) s t
    exact ⟨fun h => (acts _).trans (by rw [State.identify_idle h]), fun h => (acts _).trans (by rw [State.getLog_idle h]),
      fun h => (acts _).trans (by rw [State.setFeature_idle h]), fun h => (acts _).trans (by rw [State.getFeature_idle h]),
      fun h => (acts _).trans (by rw [State.createQp_idle h]), fun h => (acts _).trans (by rw [State.deleteQp_idle h]),
      fun h => (acts _).trans (by rw [State.fwDownload_idle h]), fun h => (acts _).trans (by rw [State.fwCommit_idle h]),
      fun h hlive => (acts _).trans (by rw [State.liveUpdate_idle h hlive]), fun h => (acts _).trans (by rw [State.abort_idle h]),
      fun h => (acts _).trans (by rw [State.tileService_idle h])⟩
  case identify =>
    intro s tag c htag
    have acts (t : State) : done (okTag tag) s t = .next (s.seal t) := done_of (tagOk htag) s t
    refine ⟨fun h => ⟨fun hcns => ?_, fun hcns hp => ?_, fun p a u hcns hp hread hok hclean => ?_, fun p a u hcns hp hread hbad => ?_,
      fun hcns => ?_, fun hcns => ?_⟩, fun h => ?_⟩
    · exact (acts _).trans (by rw [State.identify_device h hcns]; rfl)
    · exact (acts _).trans (by rw [State.identify_noPair h hcns hp])
    · refine (acts _).trans ?_
      rw [State.identify_pair h hcns hp hread, if_neg (by rw [hok]; decide), if_neg (not_not.mpr hok), if_neg (by simp [hclean])]
      rfl
    · refine (acts _).trans ?_
      rw [State.identify_pair h hcns hp hread]
      by_cases hheld : a.status = St.held
      · rw [if_pos hheld, if_pos hheld]
      · rw [if_neg hheld, if_neg hheld]
        by_cases hok : a.status = St.ok
        · rw [if_neg (not_not.mpr hok), if_pos (hbad.resolve_left (not_not.mpr hok)), if_pos hok]
        · rw [if_pos hok, if_neg hok]
    · exact (acts _).trans (by rw [State.identify_space h hcns]; rfl)
    · exact (acts _).trans (by rw [State.identify_fabric h hcns]; rfl)
    · exact (acts _).trans (by rw [State.getLog_running h]; rfl)
  case set =>
    intro s tag c htag h
    dsimp only
    refine ⟨fun hfn h1 h4 => exec_setFeature_bad h (State.featureSet_foreign hfn h1 h4) htag,
      fun hfid => exec_setFeature_bad h (State.featureSet_unknown hfid) htag, ?_, ?_, ?_, ?_, ?_, ?_, ?_, ?_, ?_, ?_, ?_, ?_, ?_⟩
    · intro hfid hfn hfit
      exact exec_setFeature_sets h (by rw [hfid, hfn]; exact State.featureSet_retain hfit) htag
    · intro hfid hfn hno
      exact exec_setFeature_bad h (by rw [hfid, hfn]; exact State.featureSet_retain_bad hno) htag
    · intro hfid hfn hfit
      exact exec_setFeature_sets h (by rw [hfid, hfn]; exact State.featureSet_quota hfit) htag
    · intro hfid hfn hno
      exact exec_setFeature_bad h (by rw [hfid, hfn]; exact State.featureSet_quota_bad hno) htag
    · intro hfid hfn hfit
      exact exec_setFeature_sets h (by rw [hfid, hfn]; exact State.featureSet_weight hfit) htag
    · intro hfid hfn hno
      exact exec_setFeature_bad h (by rw [hfid, hfn]; exact State.featureSet_weight_bad hno) htag
    · intro hfid hfn hno
      exact exec_setFeature_bad h (by rw [hfid, hfn]; exact State.setSpace_bad hno) htag
    · intro hfid hfn hsel hv hnone
      exact exec_setFeature_sets h (by rw [hfid, hfn]; exact State.setSpace_new hsel hv hnone) htag
    · intro sp hfid hfn hsel hv hsome
      refine ⟨fun hodd hsame => ?_, fun hodd hother => ?_, fun heven hused => ?_, fun heven hfree => ?_⟩
      · exact exec_setFeature_sets h (by
          rw [hfid, hfn]; exact (State.setSpace_again hsel hv hsome hodd).trans (if_pos hsame)) htag
      · exact exec_setFeature_bad h (by
          rw [hfid, hfn]; exact (State.setSpace_again hsel hv hsome hodd).trans (if_neg hother)) htag
      · exact exec_setFeature_bad h (by
          rw [hfid, hfn]; exact (State.setSpace_delete hsel hv hsome heven).trans (if_pos hused)) htag
      · exact exec_setFeature_sets h (by
          rw [hfid, hfn]; exact (State.setSpace_delete hsel hv hsome heven).trans (if_neg (by rw [hfree]; decide))) htag
    · intro p hfid hown hv hp
      exact exec_setFeature_sets h (by rw [hfid]; exact State.featureSet_clampLimit hown hv hp) htag
    · intro st u hfid hown hv hset hheld
      refine (done_of (tagOk htag) s _).trans ?_
      rw [State.setFeature_running h (by rw [hfid, State.featureSet_coalescing hown hv, hset]), if_neg hheld]
    · intro u hfid hown hv hset
      refine (done_of (tagOk htag) s _).trans ?_
      rw [State.setFeature_running h (by rw [hfid, State.featureSet_coalescing hown hv, hset]), if_pos rfl]
    · exact fun hfid hno => exec_setFeature_bad h (State.featureSet_pair_bad hfid hno) htag
  case get =>
    intro s tag c htag h
    refine ⟨fun x hx => (done_of (tagOk htag) s _).trans ?_, fun hnone => (done_of (tagOk htag) s _).trans ?_,
      fun hfid hfn hsel => ?_⟩
    · rw [State.getFeature_value h hx]
    · rw [State.getFeature_noValue h hnone]
    · rw [hfid, hfn, hsel]
      rfl
  case create =>
    intro s tag c htag h
    have acts (t : State) : done (okTag tag) s t = .next (s.seal t) := done_of (tagOk htag) s t
    refine ⟨fun hfull => (acts _).trans (by rw [State.createQp_noQuota h hfull]),
      fun hall => (acts _).trans (by rw [State.createQp_noNumber h hall]), fun q st u hquota h1 h2 hfree hbelow hmake => ?_⟩
    refine ⟨fun hok => ⟨(acts _).trans ?_, State.makePair_pair hmake hok⟩, fun hbad hheld => (acts _).trans ?_⟩
    · rw [State.createQp_lowest h hquota h1 h2 hfree hbelow hmake, if_neg (by rw [hok]; decide), if_pos hok, hok]
    · rw [State.createQp_lowest h hquota h1 h2 hfree hbelow hmake, if_neg hheld, if_neg hbad]
  case firmware =>
    intro s tag c d w htag
    have acts (t : State) : done (okTag tag) s t = .next (s.seal t) := done_of (tagOk htag) s t
    refine ⟨fun h hpassed => ⟨fun hp => (acts _).trans (by rw [State.deleteQp_gone h hpassed hp]),
      fun hp => (acts _).trans (by rw [State.deleteQp_begins h hpassed hp])⟩, fun h => ⟨?_, ?_, ?_⟩, fun h haction => ⟨?_, fun hst =>
        ⟨?_, ?_, ?_, ?_, State.fwCommitCheck_slot hst⟩⟩⟩
    · rintro rfl
      exact (acts _).trans (by rw [State.fwDownload_denied h])
    · rintro rfl
      exact (acts _).trans (by rw [State.fwDownload_poisoned h])
    · rintro b rfl hlen
      exact (acts _).trans (by rw [State.fwDownload_data h hlen])
    · exact fun hst => (acts _).trans (by rw [State.fwCommit_refused h haction _ hst])
    · exact fun h2 hw => (acts _).trans (by rw [State.fwCommit_unwritten h haction hst h2 hw])
    · exact fun h0 hw => (acts _).trans (by rw [hw, State.fwCommit_written h haction hst h0])
    · exact fun h1 hw => (acts _).trans (by rw [hw, State.fwCommit_pending h haction hst h1]; rfl)
    · exact fun h2 => (acts _).trans (by rw [State.fwCommit_activated h haction _ hst h2]; rfl)
  case live =>
    intro s tag taken w c htag
    have acts (t : State) : done (okTag tag) s t = .next (s.seal t) := done_of (tagOk htag) s t
    refine ⟨fun hlive h h3 hstage => ⟨fun hst => (acts _).trans (by rw [State.liveUpdate_refused hlive h h3 hstage _ _ hst]),
      fun hst => ⟨fun hw => (acts _).trans ?_, fun hw => (acts _).trans ?_⟩⟩, fun u hlive => ⟨fun htag' => (acts _).trans ?_,
        fun htag' => ⟨fun hphase hothers => (acts _).trans ?_, fun hphase hothers => ⟨fun hplt => (acts _).trans ?_,
          fun hplt => (acts _).trans ?_⟩, fun hphase hplt => (acts _).trans ?_, fun hphase hplt => (acts _).trans ?_,
            fun hphase htaken => (acts _).trans ?_, fun hphase htaken => (acts _).trans ?_⟩⟩⟩
    · rw [State.liveUpdate_begins hlive h h3 hstage _ _ hst, if_pos hw]
    · rw [State.liveUpdate_begins hlive h h3 hstage _ _ hst, if_neg (not_not.mpr hw)]
    · rw [State.liveUpdate_other hlive _ htag']
    · rw [State.liveUpdate_waits hlive _ htag' hphase hothers]
    · rw [State.liveUpdate_drained hlive _ htag' hphase hothers]
      exact congrArg _ (congrArg _ (if_pos hplt))
    · rw [State.liveUpdate_drained hlive _ htag' hphase hothers]
      exact congrArg _ (congrArg _ (if_neg hplt))
    · rw [State.liveUpdate_etched hlive _ htag' hphase, if_pos hplt]
    · rw [State.liveUpdate_etched hlive _ htag' hphase, if_neg hplt]
    · rw [htaken, State.liveUpdate_untaken hlive _ htag' hphase]
    · rw [htaken, State.liveUpdate_taken hlive _ htag' hphase]
      rfl
  case abort =>
    intro s tag c htag h
    have acts (t : State) : done (okTag tag) s t = .next (s.seal t) := done_of (tagOk htag) s t
    refine ⟨fun hnone => (acts _).trans (by rw [State.abort_unnamed h hnone]), fun t d hmem hold => ?_⟩
    obtain ⟨refuses, stops⟩ := State.abort_named h (foldl_olderHit_finds _ none hmem hold (by simp))
    exact ⟨fun hno => (acts _).trans (by rw [refuses hno]), fun e hmay he => (acts _).trans (by rw [stops e hmay he])⟩
  case tile =>
    intro s tag c htag h
    have acts (t : State) : done (okTag tag) s t = .next (s.seal t) := done_of (tagOk htag) s t
    refine ⟨fun hbad => (acts _).trans (by rw [State.tileService_bad h hbad]), fun hgood h64 hrole => (acts _).trans
      (by rw [State.tileService_lost h hgood h64 hrole]), fun hgood hhere hon => (acts _).trans
        (by rw [State.tileService_on h hgood hhere hon]; rfl), fun hgood hhere hoff => ⟨fun hheld => (acts _).trans ?_,
          fun hfree => (acts _).trans ?_⟩⟩
    · rw [State.tileService_off h hgood hhere hoff]
      exact congrArg _ (congrArg _ (if_pos hheld))
    · rw [State.tileService_off h hgood hhere hoff]
      exact congrArg _ (congrArg _ (if_neg (by rw [Bool.not_eq_true]; exact hfree)))

end Sys2Proof.Machine
end

section
/-! The hold-up bank (R423, R432, R433): its test begins, ends and completes the commands that asked for it; PLT_LIMIT and READY follow. -/

namespace Sys2Proof.Machine

/-- A bank test is due: Plate's domain is on, the input is good, and no test runs. -/
def State.TestDue (s : State) : Prop := s.domState 11 = 0 ∧ s.steady.good = true ∧ s.bit Reg.PLT_BANK_STATUS 3 = false

theorem State.testDue_iff (s : State) :
    (decide (s.domState 11 = 0) && s.steady.good && !s.bit Reg.PLT_BANK_STATUS 3) = true ↔ s.TestDue := by
  simp only [Bool.and_eq_true, decide_eq_true_eq, Bool.not_eq_true', and_assoc, State.TestDue]

section
variable {s : State}

theorem State.bankTimer_idle (h : ¬ s.TestDue) : s.bankTimer = s := if_neg (by rwa [State.testDue_iff])

theorem State.bankTimer_due (h : s.TestDue) :
    s.bankTimer =
      ((s.atTime s.plate.testDue).setPlate { (s.atTime s.plate.testDue).plate with
        testDue := (s.atTime s.plate.testDue).plate.testDue + 86400000000000 }).setFld Reg.PLT_BANK_STATUS 3 3 1 :=
  if_pos ((State.testDue_iff s).mpr h)

theorem State.atTime_plate (s : State) (t : Nat) : (s.atTime t).plate = s.plate := by
  unfold State.atTime
  split <;> rfl

/-! BANK_TEST_DONE (R433). -/

/-- The registers and the record once a test has found `usable` and `esr`, FAILED being `b`. -/
def State.testShown (s : State) (usable esr b : Nat) : State :=
  let v := (((s.setFld Reg.PLT_BANK_STATUS 3 3 0).setFld Reg.PLT_BANK_STATUS 31 16 esr).setFld Reg.PLT_BANK_USABLE 15 0 usable).setFld
    Reg.PLT_BANK_STATUS 2 2 b
  v.setPlate { v.plate with testAt := v.time.toNat, record := { v.plate.record with usable := some usable } }

variable {usable esr : Nat}

theorem State.bankTested_idle (h : s.bit Reg.PLT_BANK_STATUS 3 = false) : s.bankTested usable esr = s := if_pos (by simp [h])

section
variable (h : s.bit Reg.PLT_BANK_STATUS 3 = true)
include h

theorem State.bankTested_good (hgood : ¬ (usable < 1800 ∨ 500 < esr)) :
    s.bankTested usable esr = (s.testShown usable esr 0).showLimit.endPlateCmds 2 St.ok usable := by
  have passed : (decide (usable < 1800) || decide (500 < esr)) = false := by
    rw [← Bool.not_eq_true, Bool.or_eq_true, decide_eq_true_eq, decide_eq_true_eq]
    exact hgood
  unfold State.bankTested
  rw [if_neg (by simp [h])]
  dsimp only
  rw [passed]
  rfl

theorem State.bankTested_bad (hbad : usable < 1800 ∨ 500 < esr) :
    s.bankTested usable esr =
      (((s.testShown usable esr 1).raise Reg.PLT_INT_STATUS 3).report
        ⟨St.plateInvalid, Tgt.plate, 2, Mid.plate, 0, 0xFFFF, 0⟩).showLimit.endPlateCmds 2 St.ok usable := by
  have failed : (decide (usable < 1800) || decide (500 < esr)) = true := by simpa using hbad
  unfold State.bankTested
  rw [if_neg (by simp [h])]
  dsimp only
  rw [failed]
  rfl

end

/-! PLT_LIMIT, OVER_LIMIT and READY (R423, R432). -/

/-- The state once LIMIT is shown. -/
def State.limitShown (s : State) : State := s.setFld Reg.PLT_LIMIT 16 0 s.pltLimit

/-- The state once LIMIT, OVER_LIMIT and READY are shown. -/
def State.readyShown (s : State) : State :=
  let v := s.limitShown.setFld Reg.PLT_STATUS 27 27 (if s.pltLimit < s.resident then 1 else 0)
  v.setFld Reg.PLT_BANK_STATUS 0 0 (bit01 v.bankReady)

theorem State.limitShown_resident (s : State) : s.limitShown.resident = s.resident :=
  State.fld_setFld_reg s 16 0 s.pltLimit 16 0 (by decide)

theorem State.showLimit_eq (s : State) :
    s.showLimit =
      if s.pltLimit < s.resident ∧ s.limitShown.bit Reg.PLT_STATUS 27 = false then s.readyShown.raise Reg.PLT_INT_STATUS 2
      else s.readyShown := by
  have excess : decide (s.pltLimit < s.limitShown.resident) = decide (s.pltLimit < s.resident) := by rw [State.limitShown_resident]
  have shown : (s.limitShown.setFld Reg.PLT_STATUS 27 27 (bit01 (decide (s.pltLimit < s.resident)))) =
      s.limitShown.setFld Reg.PLT_STATUS 27 27 (if s.pltLimit < s.resident then 1 else 0) := by
    by_cases hl : s.pltLimit < s.resident <;> simp [hl, bit01]
  unfold State.showLimit
  dsimp only
  unfold State.limitShown at excess shown
  rw [excess, shown]
  refine if_congr ?_ rfl rfl
  rw [Bool.and_eq_true, decide_eq_true_eq, Bool.not_eq_true']
  rfl

theorem State.bankReady_iff (s : State) : s.bankReady = true ↔ 50 ≤ s.fld Reg.PLT_BANK_ENERGY 15 0 ∧
    200 * s.resident * 2 ^ 20 ≤ (s.fld Reg.PLT_BANK_ENERGY 15 0 - 50) * 56000000000 := by
  unfold State.bankReady
  rw [Bool.and_eq_true, decide_eq_true_eq, decide_eq_true_eq]

end

end Sys2Proof.Machine
end

section
/-! PLATE_CONTROL (R266, R424, R430, R433), and the bank and its commands together. -/

namespace Sys2Proof.Machine

section
variable {s : State} {tag : Nat} {worn : List (Bool × List Byte)}

theorem State.plateEtch_idle (h : s.plateCmd tag 1 = none) : s.plateEtch tag worn = s := by
  unfold State.plateEtch
  rw [h]

theorem State.plateBankTest_idle (h : s.plateCmd tag 2 = none) : s.plateBankTest tag = s := by
  unfold State.plateBankTest
  rw [h]

theorem State.plateInvalidate_idle (h : s.plateCmd tag 3 = none) : s.plateInvalidate tag = s := by
  unfold State.plateInvalidate
  rw [h]

theorem State.plateSanitize_idle (h : s.plateCmd tag 4 = none) : s.plateSanitize tag = s := by
  unfold State.plateSanitize
  rw [h]

variable {c : Cmd}

theorem State.plateEtch_taken (h : s.plateCmd tag 1 = some c) :
    s.plateEtch tag worn =
      if s.pltState ≠ 1 then s.complete tag St.invalidField 0
      else
        (((s.judgeSlots worn).setStage tag .committed).setPlate { ((s.judgeSlots worn).setStage tag .committed).plate with
          freeze := ((s.judgeSlots worn).setStage tag .committed).published }).etchGo 0x140 := by
  unfold State.plateEtch
  rw [h]

theorem State.plateBankTest_taken (h : s.plateCmd tag 2 = some c) :
    s.plateBankTest tag = (s.setStage tag .committed).setFld Reg.PLT_BANK_STATUS 3 3 1 := by
  unfold State.plateBankTest
  rw [h]
  rfl

theorem State.plateInvalidate_taken (h : s.plateCmd tag 3 = some c) {b : Bool} (hb : b = decide (c.arg 0x20 1 = 1)) :
    s.plateInvalidate tag =
      if (s.plate.slot b).isSome = true ∧ (s.plate.slot (!b)).isNone = true then s.complete tag St.invalidField 0
      else ((s.setPlate (s.plate.setSlot b none)).showSlots).complete tag St.ok 0 := by
  subst hb
  unfold State.plateInvalidate
  rw [h]
  exact if_congr (Bool.and_eq_true_iff) rfl rfl

theorem State.plateSanitize_taken (h : s.plateCmd tag 4 = some c) :
    s.plateSanitize tag =
      if s.mode ≠ .bringUp then s.complete tag St.invalidField 0
      else if s.storeFailed then s.complete tag St.plateInvalid 0
      else
        ((s.setPlate { s.plate with slotA := none, slotB := none, work := [], store := [], record := Record.new }).showSlots).complete
          tag St.ok 0 := by
  unfold State.plateSanitize
  rw [h]

end

/-- Settles O47: each command by the cases of its own lemmas above. -/
theorem bankIsTestedAndPlateControlActs : Obligations.BankIsTestedAndPlateControlActs := by
  refine ⟨fun s => ⟨fun hno => ?_, fun hdue => ?_⟩, fun s usable esr husable hesr => ?_, fun s joules charging hj => ?_, fun s => ?_,
    fun s tag act worn c htag hc hnone => ?_, fun s tag worn x htag => ⟨fun h => ⟨fun hst => ?_, fun hst => ?_⟩, fun h => ?_, fun h =>
      ⟨fun honly => ?_, fun hmore => ?_⟩, fun h => ⟨fun hm => ?_, fun hm hf => ?_, fun hm hf => ?_⟩⟩⟩
  · exact (done_true s _).trans (by rw [State.bankTimer_idle hno])
  · exact (done_true s _).trans (by rw [State.bankTimer_due hdue, State.atTime_plate])
  · have acts : exec (.bankTestDone usable esr) s = .next (s.seal (s.bankTested usable esr)) :=
      done_of (by rw [decide_eq_true husable, decide_eq_true hesr]; rfl) s _
    rw [acts]
    refine ⟨fun hidle => by rw [State.bankTested_idle hidle], fun hrun => ⟨fun hgood => ?_, fun hbad => ?_⟩⟩
    · rw [State.bankTested_good hrun hgood]
      rfl
    · rw [State.bankTested_bad hrun hbad]
      rfl
  · exact done_of (decide_eq_true hj) s _
  · refine ⟨fun hexcess hwas => ?_, fun hno => ?_, s.bankReady_iff⟩
    · exact s.showLimit_eq.trans (if_pos ⟨hexcess, hwas⟩)
    · refine s.showLimit_eq.trans (if_neg ?_)
      rintro ⟨hexcess, hwas⟩
      exact hno.elim (fun h => h hexcess) fun h => Bool.noConfusion (hwas.symm.trans h)
  · have acts (t : State) : done (okTag tag) s t = .next (s.seal t) := done_of (tagOk htag) s t
    simp only [List.mem_cons, Prod.mk.injEq, List.not_mem_nil, or_false] at hc
    obtain ⟨rfl, rfl⟩ | ⟨rfl, rfl⟩ | ⟨rfl, rfl⟩ | ⟨rfl, rfl⟩ := hc
    · exact (acts _).trans (by rw [State.plateEtch_idle hnone])
    · exact (acts _).trans (by rw [State.plateBankTest_idle hnone])
    · exact (acts _).trans (by rw [State.plateInvalidate_idle hnone])
    · exact (acts _).trans (by rw [State.plateSanitize_idle hnone])
  · exact (done_of (tagOk htag) s _).trans (by rw [State.plateEtch_taken h, if_pos hst])
  · exact (done_of (tagOk htag) s _).trans (by rw [State.plateEtch_taken h, if_neg (not_not.mpr hst)])
  · exact (done_of (tagOk htag) s _).trans (by rw [State.plateBankTest_taken h])
  · exact (done_of (tagOk htag) s _).trans (by rw [State.plateInvalidate_taken h rfl, if_pos honly])
  · exact (done_of (tagOk htag) s _).trans (by rw [State.plateInvalidate_taken h rfl, if_neg hmore])
  · exact (done_of (tagOk htag) s _).trans (by rw [State.plateSanitize_taken h, if_pos hm])
  · exact (done_of (tagOk htag) s _).trans (by rw [State.plateSanitize_taken h, if_neg (not_not.mpr hm), if_pos hf])
  · exact (done_of (tagOk htag) s _).trans (by rw [State.plateSanitize_taken h, if_neg (not_not.mpr hm), if_neg (by simp [hf])])

end Sys2Proof.Machine
end

section
/-! A work ring's doorbell, head write and reset (R282, R283, R285), and the round-robin pick of its engines (R208, R214, R361). -/

namespace Sys2Proof.Machine

theorem ringOk {m : Nat} {r : Ring} (hm : m < 4096) (hr : r.ok = true) : (okMaster m && r.ok) = true := by
  rw [okMaster, decide_eq_true hm, hr]
  rfl

section
variable {t : State} {r : Ring} (m : Nat)

theorem State.ringDoorbell_error (h : t.ringError r = true) : t.ringDoorbell m r = t := if_pos (by simp [h])

section
variable (hex : ringExists r = true) (herr : t.ringError r = false)
include hex herr

theorem State.ringDoorbell_registerMode (hunit : r.unit = .dma) (hmode : t.bit Reg.DMA_CTL 1 = true) :
    t.ringDoorbell m r = t.refuse m (ringReg r + 8) St.accessDenied := by
  unfold State.ringDoorbell
  rw [if_neg (by simp [hex, herr]), if_pos (by simp [hunit, hmode])]

theorem State.ringDoorbell_pends (h : r.unit ≠ .dma ∨ t.bit Reg.DMA_CTL 1 = false) :
    t.ringDoorbell m r = t.setRing r { t.ring r with pending := true } := by
  unfold State.ringDoorbell
  rw [if_neg (by simp [hex, herr]), if_neg]
  rw [Bool.and_eq_true, decide_eq_true_eq]
  rintro ⟨hunit, hmode⟩
  exact h.elim (fun h => h hunit) fun h => Bool.noConfusion (hmode.symm.trans h)

end

/-- A head that lies in the ring and releases only posted entries (R283); a ring whose context was not read takes every head. -/
def State.LegalHead (t : State) (r : Ring) (h : Nat) : Prop :=
  ∀ c, (t.ring r).ctx = some c →
    h < ctxCmpDepth c ∧ (h + ctxCmpDepth c - t.fld (ringChead r) 15 0) % ctxCmpDepth c ≤ t.unreleased r

theorem State.cheadWrite_legal {v : Word} (hctx : (t.ring r).ctx ≠ none) (h : t.LegalHead r (v.toNat % 65536)) :
    t.cheadWrite m r v = t.setFld (ringChead r) 15 0 (v.toNat % 65536) := by
  obtain ⟨c, hc⟩ := Option.ne_none_iff_exists'.mp hctx
  obtain ⟨hdepth, hposted⟩ := h c hc
  unfold State.cheadWrite
  dsimp only
  rw [hc]
  exact if_pos (by simp [hdepth, hposted])

theorem State.cheadWrite_illegal {v : Word} (h : ¬ t.LegalHead r (v.toNat % 65536)) :
    t.cheadWrite m r v = t.refuse m (ringChead r) St.invalidField := by
  unfold State.LegalHead at h
  push Not at h
  obtain ⟨c, hc, hbad⟩ := h
  unfold State.cheadWrite
  dsimp only
  rw [hc]
  refine if_neg ?_
  rw [Bool.and_eq_true, decide_eq_true_eq, decide_eq_true_eq]
  exact fun hgood => absurd hgood.2 (Nat.not_le.mpr (hbad hgood.1))

/-- Every job of the ring that has not ended is ended, and every one is posted (R285). -/
def State.ringEmptied (t : State) (r : Ring) : State :=
  let a := (t.jobs.filter (fun j => j.ring = ringKey r && j.done.isNone)).foldl (fun u j => u.jobAbort r j) t
  a.ringDrain r a.jobs.length

theorem State.ringReset_eq (hex : ringExists r = true) :
    t.ringReset r =
      ((((if r.unit = .prf then ((t.ringEmptied r).prfFreeRing r.n).prfGoOn r.n else t.ringEmptied r).setRing r RingState.reset).wr
        (ringChead r) 0).wr (ringStatus r) 0).setFld (ringCtl r) 0 0 0 := by
  unfold State.ringReset
  rw [if_neg (by simp [hex])]
  rfl

end

/-! The pick. -/

theorem State.ringOutbid_none (s : State) {r : Ring} (h1 : r.unit ≠ .stp) (h2 : r.unit ≠ .prf) : s.ringOutbid r = false := by
  unfold State.ringOutbid
  split
  · next h => exact absurd h h1
  · next h => exact absurd h h2
  · rfl

theorem State.ringOutbid_stipple (s : State) {r : Ring} (h : r.unit = .stp) :
    s.ringOutbid r = true ↔
      ∃ d < (r.n + 16 - FMap.getD s.ringNext 0) % 16, s.ringAsks ⟨.stp, (FMap.getD s.ringNext 0 + d) % 16⟩ = true := by
  unfold State.ringOutbid
  rw [h]
  simp only [List.any_eq_true, List.mem_range]

theorem State.ringOutbid_proof (s : State) {r : Ring} (h : r.unit = .prf) :
    s.ringOutbid r = true ↔
      ∃ d < (r.n + 32 - FMap.getD s.ringNext (1 + s.prfEngine r.n)) % 32,
        s.prfEngine ((FMap.getD s.ringNext (1 + s.prfEngine r.n) + d) % 32) = s.prfEngine r.n ∧
          s.ringAsks ⟨.prf, (FMap.getD s.ringNext (1 + s.prfEngine r.n) + d) % 32⟩ = true := by
  unfold State.ringOutbid
  rw [h]
  simp only [List.any_eq_true, List.mem_range, Bool.and_eq_true, decide_eq_true_eq]

end Sys2Proof.Machine
end

section
/-! RING_FETCH (R282, R284): the context is read and checked, then the entry at the head, and an owned entry whose completion slot is
free is taken. -/

namespace Sys2Proof.Machine

/-- A ring that a scan looks at: it is on, pending and without error, and its unit takes entries. -/
def State.Scans (s : State) (r : Ring) : Prop :=
  ringExists r = true ∧ s.ringOn r = true ∧ s.ringError r = false ∧ (s.ring r).pending = true ∧ s.unitTakes r = true

section
variable {s : State} {r : Ring} {again : Bool}

theorem State.ringFetch_outbid (h : s.ringOutbid r = true) : s.ringFetch r again = s := if_pos h

theorem State.ringFetch_picked (h : s.ringOutbid r = false) : s.ringFetch r again = s.ringScan r again := if_neg (by simp [h])

theorem State.scans_iff (s : State) (r : Ring) :
    ¬ ((!ringExists r || !s.ringOn r || s.ringError r || !(s.ring r).pending || !s.unitTakes r) = true) ↔ s.Scans r := by
  simp only [Bool.or_eq_true, Bool.not_eq_true', not_or, Bool.not_eq_false, Bool.not_eq_true, and_assoc, State.Scans]

theorem State.ringScan_idle (h : ¬ s.Scans r) : s.ringScan r again = s := by
  rw [← State.scans_iff, not_not] at h
  exact if_pos h

section
variable (h : s.Scans r) {a : MemAnswer} {s1 : State} (hread : s.readMem (ringMaster r.unit) (s.ringCtxAt r) 64 = (a, s1))
include h hread

theorem State.ringScan_ctxHeld (hst : dataStatus a = St.held) : s.ringScan r again = s := by
  unfold State.ringScan
  rw [if_neg ((State.scans_iff s r).mpr h)]
  dsimp only
  rw [hread]
  exact if_pos hst

theorem State.ringScan_ctxUnread (hheld : dataStatus a ≠ St.held) (hst : dataStatus a ≠ St.ok) :
    s.ringScan r again = s1.ringFail r 4 (s.ring r).head (dataStatus a) (s.ringCtxAt r) := by
  unfold State.ringScan
  rw [if_neg ((State.scans_iff s r).mpr h)]
  dsimp only
  rw [hread]
  dsimp only
  rw [if_neg hheld, if_pos hst]

section
variable (hok : dataStatus a = St.ok)
include hok

theorem State.ringScan_ctxBad (hck : s1.ctxCheck a.data (s.ring r).ctx ≠ St.ok) :
    s.ringScan r again = s1.ringFail r 5 (s.ring r).head (s1.ctxCheck a.data (s.ring r).ctx) (s.ringCtxAt r) := by
  unfold State.ringScan
  rw [if_neg ((State.scans_iff s r).mpr h)]
  dsimp only
  rw [hread]
  dsimp only
  rw [if_neg (by rw [hok]; decide), if_neg (not_not.mpr hok), if_pos hck]

/-- The ring holds the context that a scan has read. -/
def State.withCtx (s : State) (r : Ring) (c : List Byte) : State := s.setRing r { s.ring r with ctx := some c, attr := ctxAttr c }

section
variable (hck : s1.ctxCheck a.data (s.ring r).ctx = St.ok) {e : MemAnswer} {s2 : State}
  (hentry : (s1.withCtx r a.data).readMem (ringMaster r.unit) (ctxSub a.data + 64 * (s.ring r).head) 64 = (e, s2))
include hck hentry

theorem State.ringScan_entry :
    s.ringScan r again =
      if dataStatus e = St.held then s
      else if dataStatus e ≠ St.ok then s2.ringFail r 4 (s.ring r).head (dataStatus e) (ctxSub a.data + 64 * (s.ring r).head)
      else if (fieldLE e.data 0 4).testBit 31 ≠ (s.ring r).phase then s2.setRing r { s2.ring r with pending := again }
      else if ctxCmpDepth a.data - 1 ≤ s2.fetched r + s2.unreleased r then s2
      else s2.ringTake r a.data e.data (ctxSub a.data + 64 * (s.ring r).head) := by
  unfold State.withCtx at hentry
  unfold State.ringScan
  rw [if_neg ((State.scans_iff s r).mpr h)]
  dsimp only
  rw [hread]
  dsimp only
  rw [if_neg (by rw [hok]; decide), if_neg (not_not.mpr hok), if_neg (not_not.mpr hck), hentry]

theorem State.ringScan_entryHeld (hst : dataStatus e = St.held) : s.ringScan r again = s := by
  rw [State.ringScan_entry h hread hok hck hentry, if_pos hst]

theorem State.ringScan_entryUnread (hheld : dataStatus e ≠ St.held) (hst : dataStatus e ≠ St.ok) :
    s.ringScan r again = s2.ringFail r 4 (s.ring r).head (dataStatus e) (ctxSub a.data + 64 * (s.ring r).head) := by
  rw [State.ringScan_entry h hread hok hck hentry, if_neg hheld, if_pos hst]

variable (hst : dataStatus e = St.ok)
include hst

theorem State.ringScan_notOwned (hown : (fieldLE e.data 0 4).testBit 31 ≠ (s.ring r).phase) :
    s.ringScan r again = s2.setRing r { s2.ring r with pending := again } := by
  rw [State.ringScan_entry h hread hok hck hentry, if_neg (by rw [hst]; decide), if_neg (not_not.mpr hst), if_pos hown]

theorem State.ringScan_owned (hown : (fieldLE e.data 0 4).testBit 31 = (s.ring r).phase) :
    s.ringScan r again =
      if ctxCmpDepth a.data - 1 ≤ s2.fetched r + s2.unreleased r then s2
      else s2.ringTake r a.data e.data (ctxSub a.data + 64 * (s.ring r).head) := by
  rw [State.ringScan_entry h hread hok hck hentry, if_neg (by rw [hst]; decide), if_neg (not_not.mpr hst),
    if_neg (not_not.mpr hown)]

end
end
end
end

/-! An owned entry is taken (R208, R214, R217, R282). -/

section
variable {s : State} {r : Ring} {c e : List Byte} {at' : Nat}

theorem State.ringTake_malformed {cause : Nat} (h : entryMalformed r.unit e = some cause) :
    s.ringTake r c e at' =
      (s.ringAdvance r c).ringFail r cause (s.ring r).head (if cause = 2 then St.complementMismatch else St.malformedEntry) at' := by
  unfold State.ringTake
  rw [h]

section
variable (h : entryMalformed r.unit e = none)
include h

theorem State.ringTake_waits (htake : s.unitTake r e = .wait) :
    s.ringTake r c e at' = if r.unit = .prf then s.prfWait r.n else s := by
  unfold State.ringTake
  rw [h]
  dsimp only
  rw [htake]

/-- The ring has been granted, and its head waits for no slot. -/
def State.headGranted (s : State) (r : Ring) (c : List Byte) : State :=
  let w := (s.ringAdvance r c).ringGranted r
  if r.unit = .prf then w.prfGoOn r.n else w

theorem State.ringTake_engine {en : Nat} (htake : s.unitTake r e = .engine en) :
    s.ringTake r c e at' =
      State.unitBusy { s.headGranted r c with jobs := (s.headGranted r c).jobs ++ [jobOf r (s.ring r).head en e] } r en := by
  unfold State.ringTake
  rw [h]
  dsimp only
  rw [htake]
  rfl

variable {st result : Nat} (htake : s.unitTake r e = .finish st result)
include htake

theorem State.ringTake_ends (hno : ¬ (r.unit = .prf ∧ prfOp e = 2 ∧ st = St.digestNotReady)) :
    s.ringTake r c e at' =
      { s.headGranted r c with
        jobs := (s.headGranted r c).jobs ++ [{ jobOf r (s.ring r).head 0 e with done := some (st, result) }] } := by
  have zeros : (decide (r.unit = .prf) && decide (prfOp e = 2) && decide (st = St.digestNotReady)) = false := by
    rw [← Bool.not_eq_true, Bool.and_eq_true, Bool.and_eq_true, decide_eq_true_eq, decide_eq_true_eq, decide_eq_true_eq, and_assoc]
    exact hno
  unfold State.ringTake
  rw [h]
  dsimp only
  rw [htake]
  dsimp only
  rw [zeros]
  exact if_neg (show ¬ St.ok = St.held by decide)

theorem State.ringTake_zeros (hunit : r.unit = .prf) (hop : prfOp e = 2) (hst : st = St.digestNotReady) :
    s.ringTake r c e at' =
      if (s.prfZeros e).1 = St.held then (s.prfZeros e).2
      else
        let x := (s.prfZeros e).2.zerosResult e (s.prfZeros e).1
        { x.2.headGranted r c with
          jobs := (x.2.headGranted r c).jobs ++ [{ jobOf r (s.ring r).head 0 e with done := some (st, x.1) }] } := by
  have zeros : (decide (r.unit = .prf) && decide (prfOp e = 2) && decide (st = St.digestNotReady)) = true := by simp [hunit, hop, hst]
  unfold State.ringTake
  rw [h]
  dsimp only
  rw [htake]
  dsimp only
  rw [zeros]
  rfl

end
end

/-! RING_COMPLETION_POST (R283). -/

section
variable {s : State} {r : Ring} {tag : Nat}

/-- The job ended, of the ring and under the tag. -/
def Job.endedAs (r : Ring) (tag : Nat) (j : Job) : Bool := j.ring = ringKey r && j.tag = tag && j.done.isSome

theorem State.ringDone_none (h : s.jobs.find? (Job.endedAs r tag) = none) : s.ringDone r tag = s := by
  unfold Job.endedAs at h
  unfold State.ringDone
  rw [h]

theorem State.ringDone_some {j : Job} {st result : Nat} (h : s.jobs.find? (Job.endedAs r tag) = some j)
    (hdone : j.done = some (st, result)) :
    s.ringDone r tag = State.ringPost { s with jobs := s.jobs.erase j } r st result tag := by
  have htag : j.tag = tag := by
    have := List.find?_some h
    unfold Job.endedAs at this
    rw [Bool.and_eq_true, Bool.and_eq_true, decide_eq_true_eq, decide_eq_true_eq] at this
    exact this.1.2
  unfold Job.endedAs at h
  unfold State.ringDone
  rw [h]
  dsimp only
  rw [hdone, htag]
  rfl

end

/-- Settles O33: each command by the cases of its own lemmas above. -/
theorem workRingsFetchPostAndReset : Obligations.WorkRingsFetchPostAndReset := by
  intro s r hr
  have fetches (again : Bool) : exec (.ringFetch r again) s = .next (s.seal (s.ringFetch r again)) := done_of hr s _
  refine ⟨fun t m v hm hreach hex => ⟨fun herr => ?_, fun herr hunit hmode => ?_, fun herr hlist => ?_⟩, fun again hidle => ?_,
    fun again hout => by rw [fetches, State.ringFetch_outbid hout], s.ringOutbid_none, s.ringOutbid_stipple, s.ringOutbid_proof,
    fun again hin hex hon herr hpend htakes a s1 hread => ?_, fun tag => ⟨fun hnone => ?_, fun j st result hsome hdone => ?_⟩,
    fun t m v hm hreach => ⟨fun hctx hlegal => ?_, fun hillegal => ?_⟩, fun t m hm hreach hex => ?_⟩
  · exact (done_of (ringOk hm hr) s _).trans (by rw [State.regDo_of hreach, State.ringDoorbell_error m herr])
  · exact (done_of (ringOk hm hr) s _).trans (by rw [State.regDo_of hreach, State.ringDoorbell_registerMode m hex herr hunit hmode])
  · exact (done_of (ringOk hm hr) s _).trans (by rw [State.regDo_of hreach, State.ringDoorbell_pends m hex herr hlist])
  · have hno : ¬ s.Scans r := by
      rintro ⟨hex, hon, herr, hpend, htakes⟩
      simp [hex, hon, herr, hpend, htakes] at hidle
    rw [fetches]
    cases hout : s.ringOutbid r with
    | true => rw [State.ringFetch_outbid hout]
    | false => rw [State.ringFetch_picked hout, State.ringScan_idle hno]
  · have hscan : s.Scans r := ⟨hex, hon, herr, hpend, htakes⟩
    rw [fetches, State.ringFetch_picked hin]
    refine ⟨fun hst => by rw [State.ringScan_ctxHeld hscan hread hst],
      fun hheld hst => by rw [State.ringScan_ctxUnread hscan hread hheld hst],
      fun hok => ⟨fun hck => by rw [State.ringScan_ctxBad hscan hread hok hck], fun hck e s2 hentry => ?_⟩⟩
    refine ⟨fun hst => by rw [State.ringScan_entryHeld hscan hread hok hck hentry hst],
      fun hheld hst => by rw [State.ringScan_entryUnread hscan hread hok hck hentry hheld hst],
      fun hst hown => by rw [State.ringScan_notOwned hscan hread hok hck hentry hst hown],
      fun hst hown hfull => by rw [State.ringScan_owned hscan hread hok hck hentry hst hown, if_pos hfull],
      fun hst hown hfree => ⟨by rw [State.ringScan_owned hscan hread hok hck hentry hst hown, if_neg (Nat.not_le.mpr hfree)],
      fun cause => State.ringTake_malformed, fun en hwell htake => State.ringTake_engine hwell htake, State.ringTake_waits,
      fun st result hwell htake hno => State.ringTake_ends hwell htake hno, fun st result hwell htake hunit hop hst => ?_⟩⟩
    have granted (x : State) : x.headGranted r a.data = ((x.ringAdvance r a.data).ringGranted r).prfGoOn r.n := if_pos hunit
    dsimp only
    rw [State.ringTake_zeros hwell htake hunit hop hst]
    refine ⟨fun hheld => if_pos hheld, fun hheld => ?_⟩
    rw [if_neg hheld]
    dsimp only
    rw [granted]
  · exact (done_of hr s _).trans (by rw [State.ringDone_none hnone])
  · exact (done_of hr s _).trans (by rw [State.ringDone_some hsome hdone])
  · exact (done_of (ringOk hm hr) s _).trans (by rw [State.regDo_of hreach, State.cheadWrite_legal m hctx hlegal])
  · exact (done_of (ringOk hm hr) s _).trans (by rw [State.regDo_of hreach, State.cheadWrite_illegal m hillegal])
  · exact (done_of (ringOk hm hr) s _).trans (by rw [State.regDo_of hreach, State.ringReset_eq hex]; rfl)

end Sys2Proof.Machine
end

section
/-! The burst arbiter (R295, R361): which channel it picks, and which channel may go on. -/

namespace Sys2Proof.Machine

section
variable {s : State} {ch : Nat}

theorem State.dmaMay_iff :
    s.dmaMay ch = true ↔ ch ∈ s.dmaStalled ∨ (s.bit Reg.DMA_CTL 0 = true ∧ s.arbFrozen 0 = false ∧ s.dmaPick = some ch) := by
  simp [State.dmaMay, and_assoc]

theorem State.dmaPick_promoted {t : Nat} (h : s.dmaTop.find? s.dmaAsks = some t) : s.dmaPick = some t := by
  unfold State.dmaPick
  rw [h]

/-- The channels that ask for a burst, those after the last owner before the others. -/
def State.asking (s : State) : List Nat := ((rangeFrom 1 64).map (fun d => (s.dmaLast + d) % 64)).filter s.dmaAsks

/-- The asking channel of priority `p` that comes next. -/
def State.nextOfPrio (s : State) (p : Nat) : Option Nat := s.asking.find? (fun c => s.fld (Reg.DMA_CH_CFG c) 1 0 = p)

theorem State.dmaPick_byPrio (h : s.dmaTop.find? s.dmaAsks = none) : s.dmaPick = [3, 2, 1, 0].findSome? s.nextOfPrio := by
  unfold State.dmaPick
  rw [h]
  rfl

theorem State.mem_asking {c : Nat} (hc : c < 64) (h : s.dmaAsks c = true) : c ∈ s.asking := by
  refine List.mem_filter.mpr ⟨List.mem_map.mpr ⟨(c + 63 - s.dmaLast % 64) % 64 + 1, mem_rangeFrom.mpr ?_, ?_⟩, h⟩ <;> omega

theorem State.nextOfPrio_some {p c : Nat} (h : s.nextOfPrio p = some c) :
    s.dmaAsks c = true ∧ s.fld (Reg.DMA_CH_CFG c) 1 0 = p :=
  ⟨(List.mem_filter.mp (List.mem_of_find?_eq_some h)).2, by simpa using List.find?_some h⟩

theorem State.nextOfPrio_none {p c : Nat} (h : s.nextOfPrio p = none) (hc : c < 64) (hasks : s.dmaAsks c = true) :
    s.fld (Reg.DMA_CH_CFG c) 1 0 ≠ p := by
  simpa using List.find?_eq_none.mp h c (State.mem_asking hc hasks)

theorem State.prio_lt (s : State) (c : Nat) : s.fld (Reg.DMA_CH_CFG c) 1 0 < 4 := Nat.mod_lt _ (by decide)

/-- The priorities are asked from 3 downwards, so that no asking channel is above the one picked. -/
theorem State.dmaPick_highest (htop : s.dmaTop.find? s.dmaAsks = none) (hpick : s.dmaPick = some ch) :
    s.dmaAsks ch = true ∧ ∀ c < 64, s.dmaAsks c = true → s.fld (Reg.DMA_CH_CFG c) 1 0 ≤ s.fld (Reg.DMA_CH_CFG ch) 1 0 := by
  rw [State.dmaPick_byPrio htop] at hpick
  obtain ⟨above, p, below, hsplit, hp, habove⟩ := List.findSome?_eq_some_iff.mp hpick
  obtain ⟨hasks, hprio⟩ := State.nextOfPrio_some hp
  refine ⟨hasks, fun c hc hcasks => ?_⟩
  rw [hprio]
  by_contra hgt
  have hin : s.fld (Reg.DMA_CH_CFG c) 1 0 ∈ above := by
    have hlt := s.prio_lt c
    generalize s.fld (Reg.DMA_CH_CFG c) 1 0 = q at hgt hlt
    rcases above with _ | ⟨a, _ | ⟨b, _ | ⟨c', _ | ⟨d', _⟩⟩⟩⟩ <;> simp at hsplit ⊢ <;> omega
  exact State.nextOfPrio_none (habove _ hin) hc hcasks rfl

end

end Sys2Proof.Machine
end

section
/-! A channel's list (R290 to R292), a register-mode transfer (R296), the mode write (R287, R468), timers (R294) and promotion. -/

namespace Sys2Proof.Machine

section
variable {s u v : State} {p q : Progress} {b : List Byte}

theorem State.fetchDesc_held (h : p.cur = some b) : s.fetchDesc p = (.ok b, s) := by
  unfold State.fetchDesc
  rw [h]

theorem State.fetchDesc_read (h : p.cur = none) :
    s.fetchDesc p =
      let r := s.readMem Mid.dma p.next 64
      if dataStatus r.1 ≠ St.ok then (.error (4, dataStatus r.1), r.2)
      else if r.2.descCheck r.1.data ≠ St.ok then (.error (3, r.2.descCheck r.1.data), r.2)
      else (.ok r.1.data, r.2) := by
  unfold State.fetchDesc
  rw [h]

section
variable {bus : Bus} {ch fuel : Nat} {j : Job} {host : List HostRead}

theorem State.dmaList_tooLong (h : p.desc = 65536) :
    s.dmaList bus ch j (fuel + 1) host p = s.dmaEnd ch j St.invalidField (dmaResult true 65536 p.moved) := by
  unfold State.dmaList
  exact if_pos h

theorem State.dmaList_noDescriptor {cause st : Nat} (hdesc : p.desc ≠ 65536) (hfetch : s.fetchDesc p = (.error (cause, st), u)) :
    s.dmaList bus ch j (fuel + 1) host p =
      if st = St.held then u.setJob j { j with prog := p } else u.dmaBreak ch j cause st p.next := by
  unfold State.dmaList
  rw [if_neg hdesc, hfetch]

theorem State.dmaList_moves {st : Nat} (hdesc : p.desc ≠ 65536) (hfetch : s.fetchDesc p = (.ok b, u))
    (hmove : u.moveAll bus ch (Desc.ofBytes b) (host.headD (.data [])) { p with cur := some b } = (st, q, v)) :
    s.dmaList bus ch j (fuel + 1) host p =
      if st = St.held then v.setJob j { j with prog := q }
      else if st ≠ St.ok then v.dmaEnd ch j st (dmaResult true q.desc q.moved)
      else if (Desc.ofBytes b).next = 0 then
        if q.sullied then v.dmaEnd ch j St.poisonedData (dmaResult true q.desc q.moved)
        else v.dmaEnd ch j St.ok (dmaResult false 0 (q.moved + (Desc.ofBytes b).count))
      else v.dmaList bus ch j fuel (if (Desc.ofBytes b).srcHost then host.drop 1 else host) (q.past (Desc.ofBytes b)) := by
  rw [State.dmaList, if_neg hdesc, hfetch]
  dsimp only
  rw [hmove]

theorem State.dmaList_last (hdesc : p.desc ≠ 65536) (hfetch : s.fetchDesc p = (.ok b, u))
    (hmove : u.moveAll bus ch (Desc.ofBytes b) (host.headD (.data [])) { p with cur := some b } = (St.ok, q, v))
    (hlast : (Desc.ofBytes b).next = 0) (hclean : q.sullied = false) :
    s.dmaList bus ch j (fuel + 1) host p = v.dmaEnd ch j St.ok (dmaResult false 0 (q.moved + (Desc.ofBytes b).count)) := by
  rw [State.dmaList_moves hdesc hfetch hmove, if_neg (by decide), if_neg (by decide), if_pos hlast, hclean]
  rfl

end

section
variable {bus : Bus} {ch : Nat} {host : List HostRead}

theorem State.dmaRun_waits (h : s.dmaJob ch = none ∨ s.dmaMay ch = false) : s.dmaRun bus ch host = s := by
  unfold State.dmaRun
  rcases h with h | h
  · rw [h]
  · rw [h]
    cases s.dmaJob ch with
    | none => rfl
    | some j => rfl

theorem State.dmaRun_job {j : Job} (hjob : s.dmaJob ch = some j) (hmay : s.dmaMay ch = true) :
    s.dmaRun bus ch host = s.dmaList bus ch j 65537 host j.prog := by
  unfold State.dmaRun
  rw [hjob]
  exact if_pos hmay

end
end

/-! DMA_REG_GO and DMA_REG_DONE (R296). -/

/-- A register-mode transfer that GO refuses with INVALID_FIELD. -/
def State.IllegalTransfer (t : State) (d : Desc) : Prop :=
  d.count = 0 ∨ (d.srcHost = false ∧ 2 ^ 48 ≤ d.src) ∨ (d.dstHost = false ∧ 2 ^ 48 ≤ d.dst) ∨
    ((d.srcHost = true ∨ d.dstHost = true) ∧ t.fnEnabled d.fn = false)

section
variable {t : State} {m ch : Nat} {v : Word} (hgo : v.toNat.testBit 31 = true)
include hgo

theorem State.dmaGo_off (h : t.bit Reg.DMA_CTL 1 = false) :
    t.dmaGo m ch v = t.refuse m (Reg.DMA_CH_REG_CTL ch) St.accessDenied := by
  unfold State.dmaGo
  dsimp only
  rw [if_pos hgo]
  exact if_pos (by simp [h])

variable (hmode : t.bit Reg.DMA_CTL 1 = true)
include hmode

theorem State.dmaGo_illegal (h : t.IllegalTransfer (t.regDesc ch v)) :
    t.dmaGo m ch v = t.refuse m (Reg.DMA_CH_REG_CTL ch) St.invalidField := by
  unfold State.dmaGo
  dsimp only
  rw [if_pos hgo, if_neg (by simp [hmode])]
  refine if_pos ?_
  simpa [State.IllegalTransfer, or_assoc] using h

section
variable (h : ¬ t.IllegalTransfer (t.regDesc ch v))
include h

theorem State.dmaGo_legal :
    t.dmaGo m ch v =
      if t.bit (Reg.DMA_CH_REG_STATUS ch) 31 then t.refuse m (Reg.DMA_CH_REG_CTL ch) St.accessDenied
      else
        let u := (t.plainWrite m (Reg.DMA_CH_REG_CTL ch) v).setFld (Reg.DMA_CH_REG_STATUS ch) 31 31 1
        State.dmaBusy { u with dmaReg := FMap.setD u.dmaReg ch (some Progress.start) } ch true := by
  unfold State.dmaGo
  dsimp only
  rw [if_pos hgo, if_neg (by simp [hmode])]
  refine if_neg fun hill => h ?_
  simpa [State.IllegalTransfer, or_assoc] using hill

end
end

section
variable {s : State} {bus : Bus} {ch : Nat} {host : HostRead}

theorem State.dmaRegRun_waits (h : FMap.getD s.dmaReg ch = none ∨ s.dmaMay ch = false) : s.dmaRegRun bus ch host = s := by
  unfold State.dmaRegRun
  rcases h with h | h
  · rw [h]
  · cases FMap.getD s.dmaReg ch with
    | none => rfl
    | some p => exact if_pos (by simp [h])

/-- A register-mode transfer ends with a status (R296). -/
def State.regEnds (w : State) (ch st : Nat) : State :=
  (State.dmaLetGo
    { w.wr (Reg.DMA_CH_REG_STATUS ch) (BitVec.ofNat 32 (2 ^ 30 + st)) with
      dmaReg := FMap.setD (w.wr (Reg.DMA_CH_REG_STATUS ch) (BitVec.ofNat 32 (2 ^ 30 + st))).dmaReg ch none } ch).raise
    Reg.DMA_INT_STATUS 1

/-- The transfer's source or destination leaves its space. -/
def Desc.Wraps (d : Desc) : Prop := addrOk d.srcHost d.src d.count = false ∨ addrOk d.dstHost d.dst d.count = false

theorem Desc.wraps_iff (d : Desc) : (!addrOk d.srcHost d.src d.count || !addrOk d.dstHost d.dst d.count) = true ↔ d.Wraps := by
  simp [Desc.Wraps]

section
variable {p : Progress} (hreg : FMap.getD s.dmaReg ch = some p) (hmay : s.dmaMay ch = true)
include hreg hmay

theorem State.dmaRegRun_wraps (h : (s.regDesc ch (s.rd (Reg.DMA_CH_REG_CTL ch))).Wraps) :
    s.dmaRegRun bus ch host = s.regEnds ch St.invalidField := by
  unfold State.dmaRegRun
  rw [hreg]
  dsimp only
  rw [if_neg (by simp [hmay]), if_pos ((Desc.wraps_iff _).mpr h)]
  rfl

theorem State.dmaRegRun_moves {st : Nat} {q : Progress} {w : State} (h : ¬ (s.regDesc ch (s.rd (Reg.DMA_CH_REG_CTL ch))).Wraps)
    (hmove : s.moveAll bus ch (s.regDesc ch (s.rd (Reg.DMA_CH_REG_CTL ch))) host p = (st, q, w)) :
    s.dmaRegRun bus ch host =
      if st = St.held then { w with dmaReg := FMap.setD w.dmaReg ch (some q) }
      else w.regEnds ch (if st = St.ok ∧ q.sullied = true then St.poisonedData else st) := by
  unfold State.dmaRegRun
  rw [hreg]
  dsimp only
  rw [if_neg (by simp [hmay]), if_neg (fun hw => h ((Desc.wraps_iff _).mp hw)), hmove]
  dsimp only
  simp only [Bool.and_eq_true, decide_eq_true_eq]
  rfl

end
end

/-! DMA_MODE_WRITE, DMA_TIMER_EXPIRE and DMA_BURST_PROMOTE. -/

section
variable {t : State} {m : Nat} {v : Word}

/-- A channel of the engine has work or an enabled ring. -/
def State.DmaUsed (t : State) : Prop := ∃ c < 64, t.dmaIsBusy c = true ∨ t.ringOn ⟨.dma, c⟩ = true

/-- The boot forbids that master to change the engine's mode (R468). -/
def State.BootForbids (t : State) (m : Nat) (v : Word) : Prop :=
  if t.firmwareStage then m < 0x140 ∨ 0x14F < m else t.mode = .bringUp ∧ v.toNat.testBit 1 = false

theorem State.dmaUsed_iff : (List.range 64).any (fun c => t.dmaIsBusy c || t.ringOn ⟨.dma, c⟩) = true ↔ t.DmaUsed := by
  simp only [List.any_eq_true, List.mem_range, Bool.or_eq_true, State.DmaUsed]

theorem State.bootForbids_iff :
    (if t.firmwareStage then decide (m < 0x140) || decide (0x14F < m) else t.mode = .bringUp && !v.toNat.testBit 1) = true ↔
      t.BootForbids m v := by
  unfold State.BootForbids
  cases t.firmwareStage <;> simp

theorem State.dmaModeWrite_refused (hchange : v.toNat.testBit 1 ≠ t.bit Reg.DMA_CTL 1) (h : t.DmaUsed ∨ t.BootForbids m v) :
    t.dmaModeWrite m v = t.refuse m Reg.DMA_CTL St.accessDenied := by
  refine if_pos ?_
  rw [Bool.and_eq_true, Bool.or_eq_true, State.dmaUsed_iff, State.bootForbids_iff]
  exact ⟨by simpa using hchange, h⟩

theorem State.dmaModeWrite_written (h : v.toNat.testBit 1 = t.bit Reg.DMA_CTL 1 ∨ (¬ t.DmaUsed ∧ ¬ t.BootForbids m v)) :
    t.dmaModeWrite m v = t.plainWrite m Reg.DMA_CTL v := by
  refine if_neg ?_
  rw [Bool.and_eq_true, Bool.or_eq_true, State.dmaUsed_iff, State.bootForbids_iff]
  rintro ⟨hchange, hforbids⟩
  rcases h with hsame | ⟨hunused, hboot⟩
  · simp [hsame] at hchange
  · exact hforbids.elim hunused hboot

end

section
variable {s : State} {n : Nat}

theorem State.timerExpire_off (h : s.bit (Reg.DMA_TMR_CTL n) 0 = false) : s.timerExpire n = s := if_neg (by simp [h])

theorem State.timerExpire_on (h : s.bit (Reg.DMA_TMR_CTL n) 0 = true) :
    s.timerExpire n =
      let u := (s.atTime (FMap.getD s.timerDue n)).dmaTrigger 1 n
      if u.bit (Reg.DMA_TMR_CTL n) 1 then u.setFld (Reg.DMA_TMR_CTL n) 0 0 0
      else { u with timerDue := FMap.setD u.timerDue n (u.time.toNat + u.timerPeriod n) } := if_pos h

theorem State.dmaPromote_waiting (hbusy : s.dmaIsBusy n = true) (h : n ∉ s.dmaTop) :
    s.dmaPromote n = { s with dmaTop := s.dmaTop ++ [n] } := if_pos (by simp [hbusy, h])

theorem State.dmaPromote_none (h : s.dmaIsBusy n = false ∨ n ∈ s.dmaTop) : s.dmaPromote n = s := by
  refine if_neg ?_
  rw [Bool.and_eq_true, Bool.not_eq_true', List.contains_eq_mem, decide_eq_false_iff_not]
  rintro ⟨hbusy, hout⟩
  exact h.elim (fun h => Bool.noConfusion (hbusy.symm.trans h)) hout

end

theorem dmaRegOk {m ch : Nat} (hm : m < 4096) (hch : ch < 64) : (okMaster m && decide (ch < 64)) = true := by
  simp [okMaster, hm, hch]

/-- Settles O34: the arbiter's pick by its list of priorities, and each command by the cases of its own lemmas above. -/
theorem dmaRunsListsTransfersAndTimers : Obligations.DmaRunsListsTransfersAndTimers := by
  refine ⟨fun s ch host hch => ?_, fun s ch => ⟨State.dmaMay_iff, fun t => State.dmaPick_promoted, State.dmaPick_highest, rfl, ?_⟩,
    fun s p => ⟨fun b => State.fetchDesc_held, fun hcur => ?_⟩, fun s bus ch fuel j host p => ⟨State.dmaList_tooLong, fun hdesc => ?_⟩,
    fun s t m ch v hm hch hreach hgo => ?_, fun s ch host hch => ?_, fun s t m v hm hreach => ⟨fun hchange h => ?_, fun h => ?_⟩,
    fun s n hn => ?_, fun s ch hch => ⟨fun hbusy h => ?_, fun h => ?_⟩⟩
  · have runs : exec (.dmaRunList ch host) s = .next (s.seal (s.dmaRun bus ch host)) := done_of (decide_eq_true hch) s _
    rw [runs]
    refine ⟨fun h => by rw [State.dmaRun_waits h], fun j hjob hmay => ?_⟩
    rw [State.dmaRun_job hjob hmay]
    refine ⟨rfl, fun b u hdesc hfetch hlast hst hclean => ?_⟩
    rw [State.dmaList_last hdesc hfetch (Prod.ext hst rfl) hlast hclean]
  · simp [State.dmaGrant]
  · dsimp only
    rw [State.fetchDesc_read hcur]
    exact ⟨fun h => if_pos h, fun h hck => (if_neg (not_not.mpr h)).trans (if_pos hck),
      fun h hck => (if_neg (not_not.mpr h)).trans (if_neg (not_not.mpr hck))⟩
  · refine ⟨fun cause st u hfetch => ?_, fun b u hfetch st q v hmove => ?_⟩
    · rw [State.dmaList_noDescriptor hdesc hfetch]
      exact ⟨fun h => if_pos h, fun h => if_neg h⟩
    · rw [State.dmaList_moves hdesc hfetch hmove]
      refine ⟨fun h => if_pos h, fun hheld h => (if_neg hheld).trans (if_pos h), ?_, ?_, ?_⟩ <;> rintro rfl
      · exact fun hlast hclean => by rw [if_neg (by decide), if_neg (by decide), if_pos hlast, if_neg (by simp [hclean])]
      · exact fun hlast hbad => by rw [if_neg (by decide), if_neg (by decide), if_pos hlast, if_pos hbad]
      · exact fun hmore => (by rw [if_neg (by decide), if_neg (by decide), if_neg hmore]; rfl)
  · have goes : exec (.dmaRegGo m ch v) s = .next (s.seal (t.dmaGo m ch v).acked) :=
      (done_of (dmaRegOk hm hch) s _).trans (by rw [State.regDo_of hreach])
    dsimp only
    rw [goes]
    refine ⟨fun hoff => by rw [State.dmaGo_off hgo hoff], fun hmode hill => by rw [State.dmaGo_illegal hgo hmode hill],
      fun hmode hleg hbusy => by rw [State.dmaGo_legal hgo hmode hleg, if_pos hbusy],
      fun hmode hleg hbusy => by rw [State.dmaGo_legal hgo hmode hleg, if_neg (by simp [hbusy])]⟩
  · have runs : exec (.dmaRegDone ch host) s = .next (s.seal (s.dmaRegRun bus ch host)) := done_of (decide_eq_true hch) s _
    dsimp only
    rw [runs]
    refine ⟨fun h => by rw [State.dmaRegRun_waits h], fun p hreg hmay => ⟨fun hw _ => ?_, fun hw st q w hmove => ?_⟩⟩
    · rw [State.dmaRegRun_wraps hreg hmay hw]
      rfl
    · rw [State.dmaRegRun_moves hreg hmay hw hmove]
      exact ⟨fun h => by rw [if_pos h], fun h => by rw [if_neg h]; rfl⟩
  · exact (done_of (decide_eq_true hm) s _).trans (by rw [State.regDo_of hreach, State.dmaModeWrite_refused hchange h])
  · exact (done_of (decide_eq_true hm) s _).trans (by rw [State.regDo_of hreach, State.dmaModeWrite_written h])
  · have expires : exec (.dmaTimerExpire n) s = .next (s.seal (s.timerExpire n)) := done_of (decide_eq_true hn) s _
    dsimp only
    rw [expires]
    refine ⟨fun h => by rw [State.timerExpire_off h], fun h hone => ?_, fun h hper => ?_⟩
    · rw [State.timerExpire_on h]
      exact congrArg (fun x => Host.Outcome.next (s.seal x)) (if_pos hone)
    · rw [State.timerExpire_on h]
      exact congrArg (fun x => Host.Outcome.next (s.seal x)) (if_neg (by rw [hper]; decide))
  · exact (done_of (decide_eq_true hch) s _).trans (by rw [State.dmaPromote_waiting hbusy h])
  · exact (done_of (decide_eq_true hch) s _).trans (by rw [State.dmaPromote_none h])

end Sys2Proof.Machine
end

section
/-! The dispatcher's slot commands (R308 to R313), each by the cases of the state it finds. -/

namespace Sys2Proof.Machine

section
variable {u : State} {n : Nat}

theorem State.spawn_full (h : u.freeThread = none) :
    u.spawn n = (u.count Reg.HDS_SPAWN_FULL 31 0 1).slotEnd n St.threadTableFull := by
  unfold State.spawn
  rw [h]

section
variable {k : Nat} (hfree : u.freeThread = some k)
include hfree

theorem State.spawn_misaligned (h : u.rd64 (Reg.HDS_SLOT_ARG_LO n) % 64 ≠ 0) : u.spawn n = u.slotEnd n St.invalidField := by
  unfold State.spawn
  rw [hfree]
  exact if_pos h

theorem State.spawn_reads (h : u.rd64 (Reg.HDS_SLOT_ARG_LO n) % 64 = 0) :
    u.spawn n =
      let r := u.readNow (slotMaster n) (u.rd64 (Reg.HDS_SLOT_ARG_LO n)) 512
      let w := r.2.setWait n none
      let prio := bits (fieldLE r.1.data 0x1F0 4) 4 0
      if r.1.status = St.held then (w.slotEnd n (2 ^ 31)).setWait n (some (1, 0))
      else if dataStatus r.1 ≠ St.ok then w.slotEnd n (dataStatus r.1)
      else if imageCheck r.1.data ≠ St.ok then w.slotEnd n (imageCheck r.1.data)
      else if w.aboveFloor (fieldLE r.1.data 0x108 8 % 2 = 0) prio then w.slotEnd n St.invalidField
      else
        let z := w.writeNow (slotMaster n) (w.imageAt k) r.1.data
        if z.1 ≠ St.ok then z.2.slotEnd n z.1 else z.2.spawned n k prio := by
  unfold State.spawn
  rw [hfree]
  exact if_neg (not_not.mpr h)

end

/-- SETPRIO of thread `th`: a READY thread goes to the tail of its new level, a WAITING one to its place in its event's order. -/
def State.prioMoved (x : State) (th p : Nat) : State :=
  let y := x.setFld (Reg.HDS_THR_STATE th) 4 0 p
  if x.thrState th = 1 then
    let r := FMap.setD y.ready (x.thrPrio th) ((FMap.getD y.ready (x.thrPrio th)).erase th)
    { y with ready := FMap.setD r p (FMap.getD r p ++ [th]) }
  else if x.thrState th = 3 then y.placeWaiter th (x.fld (Reg.HDS_THR_STATE th) 25 16)
  else y

/-- The core that has the thread shows its priority; without one it outranks the image's. -/
def State.prioShown (x : State) (th p : Nat) : State :=
  match (List.range 16).find? (fun c => x.runsThread th c) with
  | some c => x.setFld (Reg.HDS_CORE_STATUS c) 4 0 p
  | none => { x with prioSet := x.prioSet.erase th ++ [th] }

theorem State.setPrio_eq (u : State) (n th p : Nat) :
    u.setPrio n th p =
      let x := u.userThread n th
      if x.2.aboveFloor x.1 p then x.2.slotEnd n St.invalidField else ((x.2.prioMoved th p).prioShown th p).slotEnd n St.ok := rfl

end

section
variable {m n op : Nat} {v : Word} {i : Instr}

/-- The dispatcher's commands with their opcodes. -/
def slotInstrs (m n : Nat) (v : Word) : List (Nat × Instr) :=
  [(1, .spawn m n v), (2, .wait m n v), (3, .yield m n v), (4, .exit m n v), (5, .signal m n v), (6, .kill m n v),
    (7, .setprio m n v), (8, .resume m n v)]

theorem exec_slotInstr (s : State) (hm : m < 4096) (hn : n < 17) (hi : (op, i) ∈ slotInstrs m n v) :
    exec i s = .next (s.seal (s.slotRow m n op v)) := by
  have hok : (okMaster m && decide (n < 17)) = true := by simp [okMaster, hm, hn]
  simp only [slotInstrs, List.mem_cons, List.not_mem_nil, or_false, Prod.mk.injEq] at hi
  rcases hi with ⟨rfl, rfl⟩ | ⟨rfl, rfl⟩ | ⟨rfl, rfl⟩ | ⟨rfl, rfl⟩ | ⟨rfl, rfl⟩ | ⟨rfl, rfl⟩ | ⟨rfl, rfl⟩ | ⟨rfl, rfl⟩ <;>
    exact done_of hok s _

theorem State.slotRow_other {s : State} (h : v.toNat.testBit 31 = false ∨ v.toNat % 16 ≠ op) : s.slotRow m n op v = s := by
  refine if_neg ?_
  rw [Bool.and_eq_true, decide_eq_true_eq]
  rintro ⟨hgo, hop⟩
  exact h.elim (fun h => Bool.noConfusion (hgo.symm.trans h)) fun h => h hop

section
variable (hgo : v.toNat.testBit 31 = true) (hop : v.toNat % 16 = op)
include hgo hop

theorem State.slotRow_go {s t : State} (hreach : s.Reaches m (Reg.HDS_SLOT_CMD n) t) :
    s.slotRow m n op v = (t.slotCommand m n v).acked := by
  unfold State.slotRow
  rw [if_pos (by simp [hgo, hop]), State.regDo_of hreach]

omit hgo hop in
theorem State.slotCommand_busy {t : State} (h : t.bit (Reg.HDS_SLOT_STATUS n) 31 = true) :
    t.slotCommand m n v = t.refuse m (Reg.HDS_SLOT_CMD n) St.accessDenied := if_pos h

/-- A WAIT, YIELD or EXIT waits for its core's FENCE. -/
def State.slotWaiting (u : State) (n op e : Nat) : State :=
  if n < 16 ∧ u.coreState n = 1 then (u.slotEnd n (2 ^ 31)).setWait n (some (op, e)) else u.slotEnd n St.invalidField

/-- What a slot command does in the state that holds its word. -/
def State.slotServe (u : State) (n op : Nat) (v : Word) : State :=
  let th := bits v.toNat 25 16
  let e := u.rd64 (Reg.HDS_SLOT_ARG_LO n) % 1024
  match op with
  | 1 => u.spawn n
  | 2 => u.slotWaiting n 2 e
  | 3 => u.slotWaiting n 3 0
  | 4 => u.slotWaiting n 4 0
  | 5 => (u.signal e).slotEnd n St.ok
  | 6 => if u.thrState th = 0 then u.slotEnd n St.invalidField else (u.kill th).slotEnd n St.ok
  | 7 => if u.thrState th = 0 then u.slotEnd n St.invalidField else u.setPrio n th (bits v.toNat 12 8)
  | 8 => if u.thrState th ≠ 4 then u.slotEnd n St.invalidField else u.resume n th
  | _ => u.slotEnd n St.invalidOpcode

theorem State.slotCommand_idle {t : State} (h : t.bit (Reg.HDS_SLOT_STATUS n) 31 = false) :
    t.slotCommand m n v = (t.plainWrite m (Reg.HDS_SLOT_CMD n) v).slotServe n op v := by
  have wait (u : State) (w : Option (Nat × Nat)) :
      (if (!(decide (n < 16) && decide (u.coreState n = 1))) = true then u.slotEnd n St.invalidField
        else (u.slotEnd n (2 ^ 31)).setWait n w) =
        if n < 16 ∧ u.coreState n = 1 then (u.slotEnd n (2 ^ 31)).setWait n w else u.slotEnd n St.invalidField := by
    by_cases hrun : n < 16 ∧ u.coreState n = 1 <;> simp [hrun]
  unfold State.slotCommand
  rw [if_neg (by simp [h])]
  dsimp only
  rw [if_neg (by simp [hgo]), hop]
  simp only [wait]
  rfl

end
end

section
variable {u : State} {n op : Nat} {v : Word}

theorem State.slotServe_wait (hlo : 2 ≤ op) (hhi : op ≤ 4) :
    u.slotServe n op v = u.slotWaiting n op (if op = 2 then u.rd64 (Reg.HDS_SLOT_ARG_LO n) % 1024 else 0) := by
  interval_cases op <;> rfl

theorem State.slotWaiting_notRunning {e : Nat} (h : 16 ≤ n ∨ u.coreState n ≠ 1) : u.slotWaiting n op e = u.slotEnd n St.invalidField :=
  if_neg fun hrun => h.elim (Nat.not_le.mpr hrun.1) fun h => h hrun.2

theorem State.slotWaiting_running {e : Nat} (hn : n < 16) (h : u.coreState n = 1) :
    u.slotWaiting n op e = (u.slotEnd n (2 ^ 31)).setWait n (some (op, e)) := if_pos ⟨hn, h⟩

end

end Sys2Proof.Machine
end

section
/-! Events, placement, preemption and core restart (R304 to R312). -/

namespace Sys2Proof.Machine

section
variable {s : State} {e : Nat}

theorem State.signal_waiter {t : Nat} {rest : List Nat} (h : FMap.getD s.waiters e = t :: rest) :
    s.signal e = State.makeReady { s with waiters := FMap.setD s.waiters e rest, waitOrder := s.waitOrder.erase t } t := by
  unfold State.signal
  rw [h]

theorem State.signal_count (h : FMap.getD s.waiters e = []) :
    s.signal e =
      if s.fld (Reg.HDS_EVT e) 15 0 = 0xFFFF then s.setFld Reg.HDS_STATUS 31 31 1
      else s.setFld (Reg.HDS_EVT e) 15 0 (s.fld (Reg.HDS_EVT e) 15 0 + 1) := by
  unfold State.signal
  rw [h]

theorem State.eventSourced_false : s.eventSourced e = false ↔ 64 ≤ e ∧ e < 128 ∧ s.role ≠ some false := by
  simp [State.eventSourced, and_assoc]

theorem exec_hardwareEvent (he : e < 1024) :
    exec (.hardwareEvent e) s = .next (s.seal (if s.spineOn && s.eventSourced e then (s.signal e).peerStopped e else s)) :=
  done_of (decide_eq_true he) s _

end

section
variable {s : State} {n : Nat}

theorem State.loadThread_prefetched {t : Nat} {img : List Byte} (hslot : FMap.getD s.headSlots n = some (t, St.ok, img))
    (hck : imageCheck img = St.ok) :
    s.loadThread n t =
      let u : State := { s with headSlots := FMap.setD s.headSlots n none }
      let w := u.setFld (Reg.HDS_THR_STATE t) 4 0 (u.startPrio t img)
      let x : State := { w with placements := w.placements + 1, prioSet := w.prioSet.erase t }
      (some true, ((x.setCore (128 + n) (x.coreOfImage img (x.core (128 + n)))).setThr t 2 0).setCoreStatus n 1 t) := by
  have himage : s.imageFor n t = ((St.ok, img), { s with headSlots := FMap.setD s.headSlots n none }) := by
    unfold State.imageFor
    rw [hslot]
    exact if_pos (by rw [decide_eq_true (Eq.refl t)]; decide)
  unfold State.loadThread
  rw [himage]
  dsimp only
  rw [if_neg (not_not.mpr rfl), hck, if_neg (by decide), if_neg (by decide)]

theorem State.takeThread_none {fuel : Nat} (h : s.headReady = none) : s.takeThread n (fuel + 1) = s := by
  unfold State.takeThread
  rw [h]

theorem State.takeThread_some {fuel p t : Nat} {b : Option Bool} {x : State} (h : s.headReady = some (p, t))
    (hload : (s.dropHead p).loadThread n t = (b, x)) :
    (b = some true → s.takeThread n (fuel + 1) = x) ∧
    (b = some false → s.takeThread n (fuel + 1) = x.takeThread n fuel) ∧
    (b = none → s.takeThread n (fuel + 1) = { x with ready := s.ready }) := by
  rw [State.takeThread, h]
  dsimp only
  rw [hload]
  refine ⟨?_, ?_, ?_⟩ <;> rintro rfl <;> rfl

theorem State.dispatchOn_iff : s.dispatchOn = true ↔ s.bit Reg.HDS_CTL 0 = true ∧ s.domState 3 = 0 := by
  simp [State.dispatchOn]

theorem State.threadPlace_idle (h : ¬ (s.bit Reg.HDS_CTL 0 = true ∧ s.domState 3 = 0) ∨ s.idleCore ≠ some n) : s.threadPlace n = s := by
  refine if_neg ?_
  rw [Bool.and_eq_true, decide_eq_true_eq, State.dispatchOn_iff]
  exact fun hp => h.elim (fun h => h hp.1) fun h => h hp.2

theorem State.threadPlace_takes (hon : s.bit Reg.HDS_CTL 0 = true ∧ s.domState 3 = 0) (hidle : s.idleCore = some n) :
    s.threadPlace n = s.takeThread n (1023 + 1) := by
  refine if_pos ?_
  rw [Bool.and_eq_true, decide_eq_true_eq, State.dispatchOn_iff]
  exact ⟨hon, hidle⟩

theorem State.slotFence_none (h : FMap.getD s.slotWaits n = none) : s.slotFence n = s := by
  unfold State.slotFence
  rw [h]

theorem State.preemptCore_not (h : s.givesWay ≠ some n) : s.preemptCore n = s := if_pos h

theorem State.preemptCore_fenced (h : s.givesWay = some n) :
    s.preemptCore n = if (s.slotFence n).givesWay = some n then (s.slotFence n).preempt n else s.slotFence n :=
  if_neg (not_not.mpr h)

theorem State.givesWay_iff :
    s.givesWay = some n ↔ ∃ p t, s.headReady = some (p, t) ∧ s.domState 3 = 0 ∧ s.idleCore = none ∧ s.victimCore p = some n := by
  unfold State.givesWay
  rcases s.headReady with _ | ⟨p, t⟩
  · simp
  · simp [and_assoc]

/-- The outgoing thread's image is written once the core has the next one, which `park` has not put it before. -/
theorem State.switchOut_takes {park : State → State} {w : State} {p q : Nat} (hpark : park (s.leaveCore n) = w)
    (hready : w.headReady = some (p, q)) (hother : q ≠ s.coreThread n) (hspine : w.domState 3 = 0)
    (hidle : w.bit Reg.HDS_CTL 0 = false ∨ w.idleCore = some n) {b : Option Bool} {x : State}
    (hload : (w.dropHead p).loadThread n q = (b, x)) :
    (b = some true → s.switchOut n park = x.putImage n (s.coreThread n) (s.liveImage n)) ∧
    (b = some false → s.switchOut n park = (x.putImage n (s.coreThread n) (s.liveImage n)).takeThread n 1024) ∧
    (b = none → s.switchOut n park = State.putImage { x with ready := w.ready } n (s.coreThread n) (s.liveImage n)) := by
  have takes : (decide (q ≠ s.coreThread n) && decide (w.domState 3 = 0) && (!w.bit Reg.HDS_CTL 0 || decide (w.idleCore = some n))) = true := by
    simpa [hother, hspine] using hidle
  unfold State.switchOut
  dsimp only
  rw [hpark, hready]
  dsimp only
  rw [if_pos takes, hload]
  refine ⟨?_, ?_, ?_⟩ <;> rintro rfl <;> rfl

/-- Thread `t` returns to the head of its level. -/
def State.toHead (u : State) (t : Nat) : State :=
  let v := u.setThr t 1 0
  { v with ready := FMap.setD v.ready (v.thrPrio t) (t :: FMap.getD v.ready (v.thrPrio t)) }

theorem State.preempt_eq : s.preempt n = s.switchOut n (fun u => u.toHead (s.coreThread n)) := rfl

theorem State.coreRestart_running {m : Nat} (h : s.coreState n ≠ 2) :
    s.coreRestart m n = s.refuse m (Reg.HDS_CORE_CTL n) St.invalidField := if_pos h

theorem State.coreRestart_stopped {m : Nat} (h : s.coreState n = 2) : s.coreRestart m n = s.unload n := if_neg (not_not.mpr h)

end

/-- Settles O35: each slot command by `slotServe`, and each other command by the cases of its own lemmas above. -/
theorem dispatcherServesSlotsEventsAndCores : Obligations.DispatcherServesSlotsEventsAndCores := by
  refine ⟨fun s t m n op v i hm hn hi => ⟨fun h => ?_, fun hgo hop hreach => ⟨fun hbusy => ?_, fun hidle => ?_⟩⟩,
    fun s n t prio => rfl, fun s e he => ?_, fun s n t img => State.loadThread_prefetched, fun s n hn => ?_,
    fun s n => ⟨State.givesWay_iff, fun p q hready hother hspine hidle => ?_⟩, fun s t m n hm hn hreach => ?_⟩
  · rw [exec_slotInstr s hm hn hi, State.slotRow_other h]
  · rw [exec_slotInstr s hm hn hi, State.slotRow_go hgo hop hreach, State.slotCommand_busy hbusy]
  · dsimp only
    rw [exec_slotInstr s hm hn hi, State.slotRow_go hgo hop hreach, State.slotCommand_idle hgo hop hidle]
    generalize t.plainWrite m (Reg.HDS_SLOT_CMD n) v = u
    refine ⟨?_, fun hlo hhi => ?_, ?_, ?_, ?_, ?_⟩
    · rintro rfl
      have spawns : u.slotServe n 1 v = u.spawn n := rfl
      rw [spawns]
      refine ⟨fun h => by rw [State.spawn_full h]; rfl, fun k hk => ⟨fun h => by rw [State.spawn_misaligned hk h]; rfl, fun h => ?_⟩⟩
      rw [State.spawn_reads hk h]
      dsimp only
      generalize u.readNow (slotMaster n) (u.rd64 (Reg.HDS_SLOT_ARG_LO n)) 512 = r
      refine ⟨fun hh => by rw [if_pos hh], fun hh hst => by rw [if_neg hh, if_pos hst]; rfl, fun hh hst => ⟨fun hck => ?_, fun hck hup => ?_,
        fun hck hup => ⟨fun hz => ?_, fun hz => ?_⟩⟩⟩
      · rw [if_neg hh, if_neg (not_not.mpr hst), if_pos hck]
        rfl
      · rw [if_neg hh, if_neg (not_not.mpr hst), if_neg (not_not.mpr hck), if_pos hup]
        rfl
      · rw [if_neg hh, if_neg (not_not.mpr hst), if_neg (not_not.mpr hck), if_neg (by simp [hup]), if_pos hz]
        rfl
      · rw [if_neg hh, if_neg (not_not.mpr hst), if_neg (not_not.mpr hck), if_neg (by simp [hup]), if_neg (not_not.mpr hz)]
    · rw [State.slotServe_wait hlo hhi]
      exact ⟨fun h => by rw [State.slotWaiting_notRunning h]; rfl, fun hn h => by rw [State.slotWaiting_running hn h]⟩
    · rintro rfl
      rfl
    · rintro rfl
      exact ⟨fun h => congrArg (fun x : State => Host.Outcome.next (s.seal x.acked)) (if_pos h),
        fun h => congrArg (fun x : State => Host.Outcome.next (s.seal x.acked)) (if_neg h)⟩
    · rintro rfl
      refine ⟨fun h => congrArg (fun x : State => Host.Outcome.next (s.seal x.acked)) (if_pos h), fun h => ?_⟩
      have sets : u.slotServe n 7 v = u.setPrio n (bits v.toNat 25 16) (bits v.toNat 12 8) := if_neg h
      rw [sets, State.setPrio_eq]
      dsimp only
      generalize u.userThread n (bits v.toNat 25 16) = x
      refine ⟨fun hup => by rw [if_pos hup]; rfl, fun hup => ?_⟩
      rw [if_neg (by rw [hup]; decide)]
      unfold State.prioShown State.prioMoved
      rfl
    · rintro rfl
      exact ⟨fun h => congrArg (fun x : State => Host.Outcome.next (s.seal x.acked)) (if_pos h),
        fun h => congrArg (fun x : State => Host.Outcome.next (s.seal x.acked)) (if_neg (not_not.mpr h))⟩
  · rw [exec_hardwareEvent he]
    refine ⟨fun h => ?_, State.eventSourced_false, fun hspine hsource => ?_⟩
    · rw [if_neg (by rw [Bool.and_eq_true]; rintro ⟨h1, h2⟩; simp [h1, h2] at h)]
    · rw [if_pos (by simp [hspine, hsource])]
      refine ⟨fun t rest hw => by rw [State.signal_waiter hw], fun hw hcount => ?_, fun hw hcount => ?_⟩
      · rw [State.signal_count hw, if_neg hcount]
      · rw [State.signal_count hw, if_pos hcount]
  · have places : exec (.threadPlace n) s = .next (s.seal (s.threadPlace n)) := done_of (decide_eq_true hn) s _
    have preempts : exec (.preempt n) s = .next (s.seal (s.preemptCore n)) := done_of (decide_eq_true hn) s _
    dsimp only
    rw [places, preempts]
    refine ⟨fun h => by rw [State.threadPlace_idle h],
      fun hon hidle hnone => by rw [State.threadPlace_takes hon hidle, State.takeThread_none hnone], fun p t hon hidle hready => ?_,
      fun h => by rw [State.preemptCore_not h], fun hgives => ?_⟩
    · rw [State.threadPlace_takes hon hidle]
      obtain ⟨hruns, hfails, hheld⟩ := State.takeThread_some (fuel := 1023) hready (Prod.mk.eta (p := (s.dropHead p).loadThread n t)).symm
      exact ⟨fun h => by rw [hruns h], fun h => by rw [hfails h], fun h => by rw [hheld h]⟩
    · rw [State.preemptCore_fenced hgives]
      refine ⟨fun hnone => by rw [State.slotFence_none hnone, if_pos hgives], fun _ => ⟨fun h => by rw [if_pos h], fun h => by rw [if_neg h]⟩⟩
  · rw [State.preempt_eq]
    exact State.switchOut_takes (w := (s.leaveCore n).toHead (s.coreThread n)) rfl hready hother hspine hidle
      (Prod.mk.eta (p := State.loadThread (State.dropHead ((s.leaveCore n).toHead (s.coreThread n)) p) n q)).symm
  · have restarts : exec (.coreRestart m n) s = .next (s.seal (t.coreRestart m n).acked) :=
      (done_of (by simp [okMaster, hm, hn]) s _).trans (by rw [State.regDo_of hreach])
    rw [restarts]
    exact ⟨fun h => by rw [State.coreRestart_running h], fun h => by rw [State.coreRestart_stopped h]; rfl⟩

end Sys2Proof.Machine
end

section
/-! Reads and writes at a memory controller (R321, R327 to R330), by what its state and the array show. -/

namespace Sys2Proof.Machine

section
variable {s : State} {n m dpa kind : Nat}

theorem State.mcRead_frozen (h : s.mcState n = 1) : (s.mcRead n m dpa kind).1 = MemAnswer.stop St.channelFrozen := by
  unfold State.mcRead
  rw [if_pos h]
  rfl

section
variable (h : s.mcState n ≠ 1)
include h

theorem State.mcRead_poisoned (hp : s.poisoned (s.storage dpa) = true) :
    s.mcRead n m dpa kind = (⟨St.ok, s.bytes (s.storage dpa) 64, true⟩, s) := by
  unfold State.mcRead
  rw [if_neg h]
  exact if_pos hp

theorem State.mcWrite_burst {data : List Byte} {bad : Bool} (hlen : data.length = 64) :
    s.mcWrite n m dpa 0 data bad =
      (St.ok, ((s.putBytes (s.storage dpa) data).setPoison (s.storage dpa) bad).setCells (s.storage dpa) .clean) := by
  unfold State.mcWrite
  rw [if_neg h]
  dsimp only
  rw [if_pos (by simp [hlen]), List.take_of_length_le hlen.le]

variable (hp : s.poisoned (s.storage dpa) = false)
include hp

theorem State.mcRead_clean (hc : s.cells (s.storage dpa) = .clean) :
    s.mcRead n m dpa kind = (⟨St.ok, s.bytes (s.storage dpa) 64, false⟩, s) := by
  unfold State.mcRead
  rw [if_neg h]
  dsimp only
  rw [if_neg (by rw [hp]; decide), hc]

theorem State.mcRead_corrected (hc : s.cells (s.storage dpa) = .corrected) :
    s.mcRead n m dpa kind =
      (⟨St.ok, s.bytes (s.storage dpa) 64, false⟩, (s.count (Reg.MC_CE_COUNT n) 31 0 1).mcReport n m dpa St.ok 0) := by
  unfold State.mcRead
  rw [if_neg h]
  dsimp only
  rw [if_neg (by rw [hp]; decide), hc]

theorem State.mcRead_transient (hc : s.cells (s.storage dpa) = .transient) :
    s.mcRead n m dpa kind =
      let w := ((s.setCells (s.storage dpa) .clean).count (Reg.MC_TRANSIENT_COUNT n) 31 0 1).raise (Reg.MC_INT_STATUS n) 0
      (⟨St.ok, w.bytes (s.storage dpa) 64, false⟩, w.mcReport n m dpa St.ok 1) := by
  unfold State.mcRead
  rw [if_neg h]
  dsimp only
  rw [if_neg (by rw [hp]; decide), hc]

theorem State.mcRead_uncorrectable (hc : s.cells (s.storage dpa) = .uncorrectable) :
    s.mcRead n m dpa kind = (⟨St.ok, s.bytes (s.storage dpa) 64, true⟩, s.freezeController n m dpa kind) := by
  unfold State.mcRead
  rw [if_neg h]
  dsimp only
  rw [if_neg (by rw [hp]; decide), hc]

end
end

section
variable {s : State} {m dpa : Nat} {r : Request} {found : Ecc}

theorem State.atController_on (hdpa : dpa < 0x3000000000) (hgate : s.domainGate (.hbm dpa) m dpa = none) (act : State → State) :
    s.atController m dpa act = act s := by
  unfold State.atController
  rw [if_neg (Nat.not_le.mpr hdpa), hgate]

theorem State.mcRequest_past (h : s.hbmLimit < r.dpa + max r.len 1) :
    s.mcRequest r found = (s.unmapped r.master r.dpa).mcAnswer (MemAnswer.stop St.accessDenied) := if_pos h

theorem State.mcRequest_waits (h : r.dpa + max r.len 1 ≤ s.hbmLimit) (hsw : s.switching (s.controller r.dpa / 16) = true) :
    s.mcRequest r found =
      State.mcAnswer { s with mcWaiting := s.mcWaiting ++ [⟨s.controller r.dpa, s.hbmClass r.master, s.time.toNat, r, found⟩] }
        (MemAnswer.stop St.held) :=
  (if_neg (Nat.not_lt.mpr h)).trans (if_pos hsw)

theorem State.mcRequest_served (h : r.dpa + max r.len 1 ≤ s.hbmLimit) (hsw : s.switching (s.controller r.dpa / 16) = false) :
    s.mcRequest r found = s.mcServe r found :=
  (if_neg (Nat.not_lt.mpr h)).trans (if_neg (by rw [hsw]; decide))

theorem State.burstRead_plain (hlim : dpa < s.hbmLimit) (hmov : s.moving dpa = false) (hwin : s.primaryWindow dpa = none) :
    s.burstRead m dpa = s.mcRead (s.controller dpa) m dpa 0 := by
  unfold State.burstRead
  rw [if_neg (Nat.not_le.mpr hlim), if_neg (by rw [hmov]; decide), hwin]

/-- A read of an unmirrored burst in service, whose array shows `found`, answers as its controller reads it. -/
theorem State.mcServe_read (hread : r.kind = .read) (halign : r.dpa % 64 = 0) (hlim : r.dpa < s.hbmLimit)
    (hmov : s.moving r.dpa = false) (hwin : s.primaryWindow r.dpa = none) :
    s.mcServe r found =
      let u := s.setCells (s.storage r.dpa) found
      (u.mcRead (u.controller r.dpa) r.master r.dpa 0).2.mcAnswer (u.mcRead (u.controller r.dpa) r.master r.dpa 0).1 := by
  have hside : s.readSide r.dpa = r.dpa := by
    unfold State.readSide
    rw [hwin]
  unfold State.mcServe State.show
  dsimp only
  rw [halign, Nat.sub_zero, hside, if_neg (by rw [hread]; decide),
    State.burstRead_plain (s := s.setCells (s.storage r.dpa) found) hlim hmov hwin]

end

/-- The request that HBM_READ makes. -/
def readReq (m dpa : Nat) : Request := ⟨m, dpa - dpa % 64, 64, .read, [], false⟩

/-- The request that HBM_WRITE makes. -/
def writeReq (m dpa : Nat) (data : List Byte) : Request := ⟨m, dpa, data.length, .write, data, false⟩

theorem exec_hbmRead {s : State} {m dpa : Nat} {found : Ecc} (hm : m < 4096) (hdpa : dpa < 0x3000000000)
    (hgate : s.domainGate (.hbm dpa) m dpa = none) :
    exec (.hbmRead m dpa found) s = .next (s.seal (s.mcRequest (readReq m dpa) found)) :=
  (done_of (by rw [okMaster, okDpa, decide_eq_true hm, decide_eq_true (by omega)]; rfl) s _).trans
    (by rw [State.atController_on hdpa hgate]; rfl)

theorem exec_hbmWrite {s : State} {m dpa : Nat} {data : List Byte} {found : Ecc} (hm : m < 4096) (hdpa : dpa < 0x3000000000)
    (hdata : data ≠ []) (hgate : s.domainGate (.hbm dpa) m dpa = none) :
    exec (.hbmWrite m dpa data found) s = .next (s.seal (s.mcRequest (writeReq m dpa data) found)) :=
  (done_of (by rw [okMaster, okDpa, decide_eq_true hm, decide_eq_true (by omega)]; simpa using hdata) s _).trans
    (by rw [State.atController_on hdpa hgate]; rfl)

/-! Ages, temperatures, timing banks and thaw (R321, R324 to R326, R330). -/

theorem State.agePromote_eq (s : State) (c : Nat) :
    s.agePromote c =
      { s with
        mcWaiting := s.mcWaiting.map (fun w => if w.mc = c ∧ w.since + 2000 ≤ s.time.toNat then { w with cls := 0 } else w) } := by
  unfold State.agePromote
  simp only [Bool.and_eq_true, decide_eq_true_eq]

section
variable {t : State} {m k n : Nat} {v : Word}

theorem State.stackSwitch_running (h : t.bit (Reg.MC_STACK_CTL (16 * k)) 30 = true) :
    t.stackSwitch m k = t.refuse m (Reg.MC_STACK_CTL (16 * k)) St.accessDenied := if_pos h

theorem State.stackSwitch_badShadow (h : t.bit (Reg.MC_STACK_CTL (16 * k)) 30 = false)
    (hbad : ∃ n ∈ rangeFrom (16 * k) 16, t.shadowOk n = false) :
    t.stackSwitch m k = t.refuse m (Reg.MC_STACK_CTL (16 * k)) St.invalidField := by
  refine (if_neg (by rw [h]; decide)).trans (if_pos ?_)
  rw [Bool.not_eq_true', List.all_eq_false]
  simpa using hbad

theorem State.stackSwitch_begins (h : t.bit (Reg.MC_STACK_CTL (16 * k)) 30 = false)
    (hgood : ∀ n ∈ rangeFrom (16 * k) 16, t.shadowOk n = true) :
    t.stackSwitch m k =
      let u := t.setFld (Reg.MC_STACK_CTL (16 * k)) 30 30 1
      if u.bit Reg.GLB_HBM_RETIRE_CMD 30 then { u with switchWaits := setBits u.switchWaits k k 1 } else u := by
  refine (if_neg (by rw [h]; decide)).trans (if_neg ?_)
  rw [List.all_eq_true.mpr hgood]
  decide

theorem State.stackSwitchDone_none (h : t.switching k = false) : t.stackSwitchDone k = t := if_neg (by rw [h]; decide)

theorem State.stackSwitchDone_swaps (h : t.switching k = true) :
    t.stackSwitchDone k =
      let u := (rangeFrom (16 * k) 16).foldl (fun u n => u.setFld (Reg.MC_STATUS n) 7 7 (1 - u.fld (Reg.MC_STATUS n) 7 7)) t
      let v := u.setFld (Reg.MC_STACK_CTL (16 * k)) 30 30 0
      let w := v.serveWaits k v.mcWaiting.length
      if w.retireWaits && w.fld Reg.GLB_HBM_RETIRE_CMD 21 20 = k then w.retireBegin else w := if_pos h

theorem State.mcThaw_nothing (h : t.mcState n = 2 ∨ v.toNat.testBit 0 = false) : t.mcThaw m n v = t := if_pos (by simpa using h)

theorem State.mcThaw_notFrozen (h1 : t.mcState n ≠ 1) (h2 : t.mcState n ≠ 2) (hv : v.toNat.testBit 0 = true) :
    t.mcThaw m n v = t.refuse m (Reg.MC_CTL n) St.invalidField :=
  (if_neg (by simp [h2, hv])).trans (if_pos h1)

theorem State.mcThaw_frozen (h : t.mcState n = 1) (hv : v.toNat.testBit 0 = true) :
    t.mcThaw m n v =
      let a := t.storage (t.rd64 (Reg.MC_CAP_DPA_LO n))
      (if v.toNat.testBit 1 then (t.setPoison a true).setCells a .clean else t).setFld (Reg.MC_STATUS n) 31 30 0 :=
  (if_neg (by simp [h, hv])).trans (if_neg (not_not.mpr h))

end

/-- Settles O36: what a controller answers by the cases of `mcRead`, a request by its limit and its stack's switch, and each other
command by its own lemmas above. -/
theorem controllersReadWriteFreezeAndSwitch : Obligations.ControllersReadWriteFreezeAndSwitch := by
  refine ⟨fun s n m dpa kind => ⟨State.mcRead_frozen, State.mcRead_poisoned, fun h hp => ⟨State.mcRead_clean h hp,
      State.mcRead_corrected h hp, State.mcRead_transient h hp, State.mcRead_uncorrectable h hp⟩,
      fun data bad hlen h => State.mcWrite_burst h hlen⟩,
    fun s m dpa found data hm hdpa hdata hgate => ?_, fun s mc hmc => ?_, fun s k t hk => ?_, fun s t m k hm hk hreach => ?_,
    fun s k hk => ?_, fun s t m n v hm hn hreach => ?_⟩
  · have reads := exec_hbmRead (found := found) hm hdpa hgate
    have writes := exec_hbmWrite (found := found) hm hdpa hdata hgate
    have hlen : max (writeReq m dpa data).len 1 = data.length := max_eq_left (List.length_pos_iff.mpr hdata)
    refine ⟨fun h => reads.trans ?_, fun h => writes.trans ?_,
      fun h => ⟨fun hsw => reads.trans ?_, fun hsw hmov hwin => reads.trans ?_⟩,
      fun h => ⟨fun hsw => writes.trans ?_, fun hsw => writes.trans ?_⟩⟩
    · rw [State.mcRequest_past (r := readReq m dpa) h]
      rfl
    · rw [State.mcRequest_past (r := writeReq m dpa data) (by rw [hlen]; exact h)]
      rfl
    · rw [State.mcRequest_waits (r := readReq m dpa) h hsw]
      rfl
    · rw [State.mcRequest_served (r := readReq m dpa) h hsw,
        State.mcServe_read (r := readReq m dpa) rfl (by unfold readReq; dsimp only; omega) (by unfold readReq; dsimp only; omega)
          hmov hwin]
      rfl
    · rw [State.mcRequest_waits (r := writeReq m dpa data) (by rw [hlen]; exact h) hsw]
      rfl
    · rw [State.mcRequest_served (r := writeReq m dpa data) (by rw [hlen]; exact h) hsw]
      rfl
  · exact (done_of (decide_eq_true hmc) s _).trans (by rw [State.agePromote_eq])
  · have reads := done_of (decide_eq_true hk) s (if s.domState (13 + k) = 0 then s.stackTemp k t.toNat else s)
    exact ⟨fun h => reads.trans (by rw [if_neg h]), fun h => reads.trans (by rw [if_pos h]; rfl)⟩
  · have switches : exec (.stackSwitch m k) s = .next (s.seal (t.stackSwitch m k).acked) :=
      (done_of (by simp [okMaster, hm, hk]) s _).trans (by rw [State.regDo_of hreach])
    dsimp only
    rw [switches]
    exact ⟨fun h => by rw [State.stackSwitch_running h], fun h hbad => by rw [State.stackSwitch_badShadow h hbad],
      fun h hgood => by rw [State.stackSwitch_begins h hgood]⟩
  · have ends : exec (.stackSwitchDone k) s = .next (s.seal (s.stackSwitchDone k)) := done_of (decide_eq_true hk) s _
    dsimp only
    rw [ends]
    exact ⟨fun h => by rw [State.stackSwitchDone_none h], fun h => by rw [State.stackSwitchDone_swaps h]⟩
  · have thaws : exec (.mcThaw m n v) s = .next (s.seal (t.mcThaw m n v).acked) :=
      (done_of (by simp [okMaster, hm, hn]) s _).trans (by rw [State.regDo_of hreach])
    dsimp only
    rw [thaws]
    exact ⟨fun h => by rw [State.mcThaw_nothing h], fun h1 h2 hv => by rw [State.mcThaw_notFrozen h1 h2 hv],
      fun h hv => by rw [State.mcThaw_frozen h hv]⟩

end Sys2Proof.Machine
end

section
/-! Row repair, channel retirement, mirror windows and patrol scrub (R331 to R338), each command by the cases of the state it finds. -/

namespace Sys2Proof.Machine

section
variable {s t : State} {m n : Nat} {v : Word}

theorem State.pprWrite_retired (h : t.mcState n = 2) : t.pprWrite m n v = t := if_pos h

theorem State.pprWrite_noGo (h : t.mcState n ≠ 2) (hv : v.toNat.testBit 31 = false) :
    t.pprWrite m n v =
      if t.bit (Reg.MC_PPR_STATUS n) 31 = true then t.refuse m (Reg.MC_PPR n) St.accessDenied else t.plainWrite m (Reg.MC_PPR n) v :=
  (if_neg h).trans (if_pos (by rw [hv]; rfl))

theorem State.pprWrite_refused (hv : v.toNat.testBit 31 = true)
    (h : t.mcState n = 0 ∨ t.mcState n = 3 ∨ (t.mcState n = 1 ∧ t.bit (Reg.MC_PPR_STATUS n) 31 = true)) :
    t.pprWrite m n v = (t.setFld (Reg.MC_PPR_STATUS n) 1 0 3).refuse m (Reg.MC_PPR n) St.accessDenied := by
  refine (if_neg (by omega)).trans ((if_neg (by rw [hv]; decide)).trans (if_pos ?_))
  rw [Bool.or_eq_true, decide_eq_true_eq]
  rcases h with h | h | ⟨_, h⟩
  · exact .inl (by omega)
  · exact .inl (by omega)
  · exact .inr h

theorem State.pprWrite_starts (hv : v.toNat.testBit 31 = true) (h : t.mcState n = 1) (hidle : t.bit (Reg.MC_PPR_STATUS n) 31 = false) :
    t.pprWrite m n v = (t.plainWrite m (Reg.MC_PPR n) v).setFld (Reg.MC_PPR_STATUS n) 31 31 1 :=
  (if_neg (by omega)).trans ((if_neg (by rw [hv]; decide)).trans (if_neg (by simp [h, hidle])))

theorem State.pprDone_none {result : Nat} (h : s.bit (Reg.MC_PPR_STATUS n) 31 = false ∨ 3 ≤ result) : s.pprDone n result = s := by
  refine if_neg ?_
  rw [Bool.and_eq_true, decide_eq_true_eq]
  rintro ⟨hrun, hres⟩
  exact h.elim (fun h => Bool.noConfusion (hrun.symm.trans h)) (Nat.not_le.mpr hres)

theorem State.pprDone_running {result : Nat} (h : s.bit (Reg.MC_PPR_STATUS n) 31 = true) (hres : result < 3) :
    s.pprDone n result =
      let u := (s.setFld (Reg.MC_PPR_STATUS n) 31 31 0).setFld (Reg.MC_PPR_STATUS n) 1 0 result
      if result = 0 then (u.pprRow n).foldl (fun u b => u.loseBurst b) u else u := if_pos (by simp [h, hres])

/-! CHANNEL_RETIRE and CHANNEL_RETIRE_DONE. -/

theorem State.retireWrite_running (h : t.bit Reg.GLB_HBM_RETIRE_CMD 30 = true) :
    t.retireWrite m v = t.refuse m Reg.GLB_HBM_RETIRE_CMD St.accessDenied := if_pos h

section
variable (h : t.bit Reg.GLB_HBM_RETIRE_CMD 30 = false)
include h

theorem State.retireWrite_noGo (hv : v.toNat.testBit 31 = false) : t.retireWrite m v = t.plainWrite m Reg.GLB_HBM_RETIRE_CMD v :=
  (if_neg (by rw [h]; decide)).trans (if_pos (by rw [hv]; rfl))

/-- A retirement that GLB_HBM_RETIRE_CMD names and does not begin (R332). -/
def State.IllegalRetirement (u : State) : Prop :=
  u.retired (u.fld Reg.GLB_HBM_RETIRE_CMD 21 16) = true ∨ 8 ≤ u.retiredCount 0 64 ∨ u.reachesAbove (u.hbmLimit - 3 * 2 ^ 29) = true

/-- The retirement of the channel that GLB_HBM_RETIRE_CMD names is on record and runs. -/
def State.retireRecord (u : State) : State :=
  let c := u.fld Reg.GLB_HBM_RETIRE_CMD 21 16
  (u.recordRetired (u.plate.record.retired.filter (· ≠ c) ++ [c])).setFld Reg.GLB_HBM_RETIRE_CMD 30 30 1

variable (hv : v.toNat.testBit 31 = true)
include hv

theorem State.retireWrite_illegal (hill : (t.plainWrite m Reg.GLB_HBM_RETIRE_CMD v).IllegalRetirement) :
    t.retireWrite m v = (t.plainWrite m Reg.GLB_HBM_RETIRE_CMD v).setFld Reg.GLB_HBM_RETIRE_CMD 15 0 St.invalidField := by
  refine (if_neg (by rw [h]; decide)).trans ((if_neg (by rw [hv]; decide)).trans (if_pos ?_))
  simpa [State.IllegalRetirement, or_assoc] using hill

theorem State.retireWrite_legal (hleg : ¬ (t.plainWrite m Reg.GLB_HBM_RETIRE_CMD v).IllegalRetirement) :
    t.retireWrite m v =
      let w := (t.plainWrite m Reg.GLB_HBM_RETIRE_CMD v).retireRecord
      if w.switching ((t.plainWrite m Reg.GLB_HBM_RETIRE_CMD v).fld Reg.GLB_HBM_RETIRE_CMD 21 16 / 16) then { w with retireWaits := true }
      else w.retireBegin := by
  refine (if_neg (by rw [h]; decide)).trans ((if_neg (by rw [hv]; decide)).trans (if_neg fun hill => hleg ?_))
  simpa [State.IllegalRetirement, or_assoc] using hill

end

theorem State.retireDone_none (h : s.bit Reg.GLB_HBM_RETIRE_CMD 30 = false ∨ s.retireWaits = true) : s.retireDone = s := by
  refine if_neg ?_
  rw [Bool.and_eq_true, Bool.not_eq_true']
  rintro ⟨hrun, hno⟩
  exact h.elim (fun h => Bool.noConfusion (hrun.symm.trans h)) fun h => Bool.noConfusion (hno.symm.trans h)

theorem State.retireDone_runs (h : s.bit Reg.GLB_HBM_RETIRE_CMD 30 = true) (hno : s.retireWaits = false) :
    s.retireDone = State.retireChannel { s with switchWaits := 0 } (s.fld Reg.GLB_HBM_RETIRE_CMD 21 16) := if_pos (by simp [h, hno])

/-- A state whose granules from `g` on hold only poison (R333). -/
def State.poisonedAbove (s : State) (g : Nat) : State :=
  { s with
    poison := FMap.keep s.poison (fun i _ => !(decide (g ≤ i) && decide (i < 0x60000000)))
    poisonFrom := min s.poisonFrom g
    array := FMap.keep s.array (fun i _ => decide (i < g)) }

theorem State.poisonedAbove_poisonFrom (s : State) (g : Nat) : (s.poisonedAbove g).poisonFrom = min s.poisonFrom g := rfl

theorem State.poisonedAbove_regs (s : State) (g : Nat) : (s.poisonedAbove g).regs = s.regs := rfl

theorem State.poisonedAbove_mem (s : State) (g : Nat) : (s.poisonedAbove g).mem = s.mem := rfl

theorem State.retireChannel_eq (s : State) (c : Nat) :
    s.retireChannel c =
      let limit := s.hbmLimit - 3 * 2 ^ 29
      let a := ((s.setFld (Reg.MC_STATUS c) 31 30 2).wr64 Reg.GLB_HBM_RETIRED_LO
        (setBits ((s.setFld (Reg.MC_STATUS c) 31 30 2).rd64 Reg.GLB_HBM_RETIRED_LO) c c 1)).setFld
        Reg.GLB_HBM_LIMIT 7 0 (limit / 2 ^ 29)
      (((((a.poisonedAbove (limit / 64)).setFld Reg.GLB_HBM_RETIRE_CMD 15 0 St.ok).setFld Reg.GLB_HBM_RETIRE_CMD 30 30 0).report
        ⟨St.channelRetired, Tgt.channel c, 4, Mid.none, 0, 0xFFFF, 0⟩).showLimit) := by
  have hrd : (s.setFld (Reg.MC_STATUS c) 31 30 2).rd64 Reg.GLB_HBM_RETIRED_LO = s.rd64 Reg.GLB_HBM_RETIRED_LO := by
    have hne (k : Nat) (hk : k < 0x400000) : k ≠ Reg.MC_STATUS c := by unfold Reg.MC_STATUS; omega
    unfold State.rd64
    rw [State.rd_setFld_other _ _ _ _ (hne _ (by decide)), State.rd_setFld_other _ _ _ _ (hne _ (by decide))]
  rw [hrd]
  rfl

/-! Mirror windows. -/

theorem State.mirrorWrite_outside (h : t.bringUpAdmits m = false) :
    t.mirrorWrite m n v = t.refuse m (Reg.GLB_MIR_CFG n) St.accessDenied := if_pos (by rw [h]; rfl)

theorem State.mirrorWrite_illegal (h : t.bringUpAdmits m = true) (hv : v.toNat.testBit 31 = true) (hill : t.mirrorOk n v = false) :
    t.mirrorWrite m n v = (t.setFld (Reg.GLB_MIR_CFG n) 31 31 0).refuse m (Reg.GLB_MIR_CFG n) St.invalidField :=
  (if_neg (by rw [h]; decide)).trans (if_pos (by simp [hv, hill]))

theorem State.mirrorWrite_written (h : t.bringUpAdmits m = true) (hv : v.toNat.testBit 31 = false ∨ t.mirrorOk n v = true) :
    t.mirrorWrite m n v = t.plainWrite m (Reg.GLB_MIR_CFG n) v := by
  refine (if_neg (by rw [h]; decide)).trans (if_neg ?_)
  rcases hv with hv | hv <;> simp [hv]

theorem State.mirrorSync_busy (h : t.bit (Reg.GLB_MIR_CTL n) 30 = true) :
    t.mirrorSync m n = t.refuse m (Reg.GLB_MIR_CTL n) St.accessDenied := if_pos h

theorem State.mirrorSync_starts (h : t.bit (Reg.GLB_MIR_CTL n) 30 = false) :
    t.mirrorSync m n = t.setFld (Reg.GLB_MIR_CTL n) 30 30 1 := if_neg (by rw [h]; decide)

theorem State.mirrorSyncDone_idle (h : s.bit (Reg.GLB_MIR_CTL n) 30 = false) : s.mirrorSyncDone n = s := if_neg (by rw [h]; decide)

theorem State.mirrorSyncDone_busy (h : s.bit (Reg.GLB_MIR_CTL n) 30 = true) :
    s.mirrorSyncDone n =
      let mask := s.rd64 (Reg.GLB_MIR_DEG_LO n)
      let cfg := (s.rd (Reg.GLB_MIR_CFG n)).toNat
      let granules := if mask = 0 ∨ cfg.testBit 31 = false then 0 else 2 ^ 22 * bits cfg 23 16
      let u := (List.range granules).foldl (fun u i => u.syncPair n mask (2 ^ 30 * bits cfg 7 0 + 256 * i)) s
      let left := (List.range 64).foldl (fun k c => if mask.testBit c && u.mcState c = 1 then setBits k c c 1 else k) 0
      ((u.wr64 (Reg.GLB_MIR_DEG_LO n) left).setFld (Reg.GLB_MIR_CTL n) 0 0 (if left = 0 then 0 else 1)).setFld (Reg.GLB_MIR_CTL n) 30 30 0 := by
  have hbit (k : Nat) : bit01 (k ≠ 0) = if k = 0 then 0 else 1 := by
    by_cases hk : k = 0 <;> simp [bit01, hk]
  have hnone (mask : Nat) (b : Bool) : ((decide (mask = 0) || !b) = true) = (mask = 0 ∨ b = false) := by simp
  unfold State.mirrorSyncDone
  rw [if_pos h]
  simp only [hbit, hnone]
  rfl

/-! Patrol scrub. -/

theorem State.patrolScrub_waits (h : s.mcState n ≠ 0 ∨ s.switching (n / 16) = true) {found : Ecc} : s.patrolScrub n found = s :=
  if_pos (by simpa using h)

theorem State.patrolScrub_visits (h : s.mcState n = 0) (hsw : s.switching (n / 16) = false) {found : Ecc} :
    s.patrolScrub n found =
      let pos := s.fld (Reg.MC_SCRUB_POS n) 22 0
      let dpa := Config.scrubGranule n pos - Config.scrubGranule n pos % 256
      let u := (List.range 4).foldl (fun u i => u.scrubBurst n (dpa + 64 * i)) (s.setCells (s.storage dpa) found)
      if pos + 1 < 6291456 then u.setFld (Reg.MC_SCRUB_POS n) 22 0 (pos + 1)
      else (u.setFld (Reg.MC_SCRUB_POS n) 22 0 0).countWrap (Reg.MC_SCRUB_PASSES n) := if_neg (by simp [h, hsw])

end

/-- Settles O37: each command by the cases of its own lemmas above. -/
theorem repairRetirementMirrorsAndScrub : Obligations.RepairRetirementMirrorsAndScrub := by
  refine ⟨fun s t m n v hm hn hreach => ?_, fun s n r hn => ?_, fun s t m v hm hreach => ?_, fun s => ?_,
    fun s t m n v hm hn hreach => ?_, fun s t m n hm hn hreach => ?_, fun s n hn => ?_, fun s n found hn => ?_⟩
  · have writes : exec (.ppr m n v) s = .next (s.seal (t.pprWrite m n v).acked) :=
      (done_of (by simp [okMaster, hm, hn]) s _).trans (by rw [State.regDo_of hreach])
    dsimp only
    rw [writes]
    exact ⟨fun h => by rw [State.pprWrite_retired h], fun h hv => by rw [State.pprWrite_noGo h hv],
      fun hv h => by rw [State.pprWrite_refused hv h], fun hv h hidle => by rw [State.pprWrite_starts hv h hidle]⟩
  · have ends : exec (.pprDone n r) s = .next (s.seal (s.pprDone n r.toNat)) := done_of (decide_eq_true hn) s _
    dsimp only
    rw [ends]
    refine ⟨fun h => ?_, fun h hr => ?_⟩
    · rw [State.pprDone_none (h.imp_right (by rintro rfl; decide))]
    · have hzero : (r.toNat = 0) = (r = 0) := propext ⟨fun h0 => BitVec.eq_of_toNat_eq h0, by rintro rfl; rfl⟩
      rw [State.pprDone_running h (by bv_omega)]
      simp only [hzero]
  · have writes : exec (.channelRetire m v) s = .next (s.seal (t.retireWrite m v).acked) :=
      (done_of (decide_eq_true hm) s _).trans (by rw [State.regDo_of hreach])
    dsimp only
    rw [writes]
    refine ⟨fun h => by rw [State.retireWrite_running h], fun hv h => by rw [State.retireWrite_noGo h hv],
      fun hv h => ⟨fun hill => by rw [State.retireWrite_illegal h hv hill], fun hleg => ?_⟩⟩
    rw [State.retireWrite_legal h hv hleg]
    exact ⟨fun hsw => congrArg (fun x : State => Host.Outcome.next (s.seal x.acked)) (if_pos hsw),
      fun hsw => congrArg (fun x : State => Host.Outcome.next (s.seal x.acked)) (if_neg (ne_true_of_eq_false hsw))⟩
  · have ends : exec .channelRetireDone s = .next (s.seal s.retireDone) := done_true s _
    dsimp only
    rw [ends]
    refine ⟨fun h => by rw [State.retireDone_none h], fun h hno => ⟨_, State.poisonedAbove_poisonFrom _ _, State.poisonedAbove_regs _ _,
      State.poisonedAbove_mem _ _, ?_⟩⟩
    rw [State.retireDone_runs h hno, State.retireChannel_eq]
    rfl
  · have writes : exec (.mirrorEnable m n v) s = .next (s.seal (t.mirrorWrite m n v).acked) :=
      (done_of (by simp [okMaster, hm, hn]) s _).trans (by rw [State.regDo_of hreach])
    dsimp only
    rw [writes]
    exact ⟨fun h => by rw [State.mirrorWrite_outside h], fun h hv hill => by rw [State.mirrorWrite_illegal h hv hill],
      fun h hv => by rw [State.mirrorWrite_written h hv]⟩
  · have writes : exec (.mirrorSync m n) s = .next (s.seal (t.mirrorSync m n).acked) :=
      (done_of (by simp [okMaster, hm, hn]) s _).trans (by rw [State.regDo_of hreach])
    rw [writes]
    exact ⟨fun h => by rw [State.mirrorSync_busy h], fun h => by rw [State.mirrorSync_starts h]⟩
  · have ends : exec (.mirrorSyncDone n) s = .next (s.seal (s.mirrorSyncDone n)) := done_of (decide_eq_true hn) s _
    dsimp only
    rw [ends]
    exact ⟨fun h => by rw [State.mirrorSyncDone_idle h], fun h => by rw [State.mirrorSyncDone_busy h]⟩
  · have steps := done_of (decide_eq_true hn) s (if s.domState (13 + n / 16) = 0 then s.patrolScrub n found else s)
    dsimp only
    refine ⟨fun h => steps.trans ?_, fun hon h hsw => steps.trans (by rw [if_pos hon, State.patrolScrub_visits h hsw])⟩
    rcases h with h | h
    · rw [if_neg h]
    · rw [State.patrolScrub_waits h, ite_self]

end Sys2Proof.Machine
end

section
/-! A line's read and write at its home slice (R343, R346, R350), and what the arrays show of it (R344). -/

namespace Sys2Proof.Machine

section
variable {s : State} {m ln o k : Nat} {data : List Byte} {p stream : Bool}

section
variable {w : Nat} {l : Line} (hfind : (s.slice (homeSlice (128 * ln))).find 16 (cacheSet (128 * ln)) ln = some w)
  (hat : (s.slice (homeSlice (128 * ln))).at 16 (cacheSet (128 * ln)) w = some l)
include hfind hat

theorem State.lineRead_hit :
    s.lineRead m ln o k stream =
      let u := s.countWrap (Reg.SCS_HITS (homeSlice (128 * ln)))
      (lineAnswer l o k,
        u.setSlice (homeSlice (128 * ln)) ((u.slice (homeSlice (128 * ln))).touch 16 (cacheSet (128 * ln)) w)) := by
  have hat' : ((s.countWrap (Reg.SCS_HITS (homeSlice (128 * ln)))).slice (homeSlice (128 * ln))).at 16 (cacheSet (128 * ln)) w =
    some l := hat
  unfold State.lineRead
  dsimp only
  rw [hfind]
  dsimp only
  rw [hat', Option.getD_some]

theorem State.lineWrite_hit :
    s.lineWrite m ln o data p stream =
      let u := s.countWrap (Reg.SCS_HITS (homeSlice (128 * ln)))
      (St.ok, u.setSlice (homeSlice (128 * ln)) (((u.slice (homeSlice (128 * ln))).put 16 (cacheSet (128 * ln)) w
        (some (l.merge o data p))).touch 16 (cacheSet (128 * ln)) w)) := by
  have hat' : ((s.countWrap (Reg.SCS_HITS (homeSlice (128 * ln)))).slice (homeSlice (128 * ln))).at 16 (cacheSet (128 * ln)) w =
    some l := hat
  unfold State.lineWrite
  dsimp only
  rw [hfind]
  dsimp only
  rw [hat', Option.getD_some]

end

section
variable (hmiss : (s.slice (homeSlice (128 * ln))).find 16 (cacheSet (128 * ln)) ln = none)
include hmiss

theorem State.lineRead_writeBack {l : Line}
    (h : (s.countWrap (Reg.SCS_MISSES (homeSlice (128 * ln)))).inWriteBack (homeSlice (128 * ln)) ln = some l) :
    s.lineRead m ln o k stream = (lineAnswer l o k, s.countWrap (Reg.SCS_MISSES (homeSlice (128 * ln)))) := by
  unfold State.lineRead
  dsimp only
  rw [hmiss]
  dsimp only
  rw [h]

theorem State.lineRead_fetch {st : Nat} {l : Line} {v : State}
    (h : (s.countWrap (Reg.SCS_MISSES (homeSlice (128 * ln)))).inWriteBack (homeSlice (128 * ln)) ln = none)
    (hfetch : (s.countWrap (Reg.SCS_MISSES (homeSlice (128 * ln)))).fetchLine m ln = (st, l, v)) :
    s.lineRead m ln o k stream =
      if st ≠ St.ok then (MemAnswer.stop st, v)
      else (lineAnswer l o k, if stream then v else (v.allocate m l).prefetch m ln) := by
  unfold State.lineRead
  dsimp only
  rw [hmiss]
  dsimp only
  rw [h]
  dsimp only
  rw [hfetch]
  dsimp only
  cases stream <;> rfl

end
end

section
variable {s : State} {m dpa : Nat}

section
variable {y : Nat} {l : Line} (hfind : (s.slice (homeSlice dpa)).find 16 (cacheSet dpa) (lineNo dpa) = some y)
include hfind

theorem State.cacheFault_single (w : Nat) :
    s.cacheFault m dpa (.single w) = s.count (Reg.SCS_CE_COUNT (homeSlice dpa)) 31 0 1 := by
  unfold State.cacheFault
  dsimp only
  rw [hfind]
  rfl

theorem State.cacheFault_double (w : Nat) (hat : (s.slice (homeSlice dpa)).at 16 (cacheSet dpa) y = some l) :
    s.cacheFault m dpa (.double w) =
      (s.putLine (homeSlice dpa) (cacheSet dpa * 16 + y) (some { l with
        poison := if w < 8 then [true, l.poison.getD 1 false] else [l.poison.getD 0 false, true] })).count
        (Reg.SCS_UE_COUNT (homeSlice dpa)) 31 0 1 := by
  unfold State.cacheFault
  dsimp only
  rw [hfind]
  dsimp only
  rw [hat]

end

theorem State.cacheFault_tag {way : Nat} (h : way < 16) :
    s.cacheFault m dpa (.tag way) =
      ((s.flushSlice m (homeSlice dpa) (some (cacheSet dpa * 16 + way))).setFld (Reg.SCS_STATUS (homeSlice dpa)) 1 1 1).report
        ⟨St.poisonedData, Tgt.cache, 4, m, dpa, 0xFFFF, 16 * cacheSet dpa + way⟩ := by
  unfold State.cacheFault
  dsimp only
  rw [Nat.mod_eq_of_lt h]

/-- A request that a slice looks up: it is admitted, the slice serves, and nothing holds it on its way. -/
def State.LooksUp (s : State) (r : Request) (dpa : Nat) : Prop :=
  s.verdict 0 r.master r.dpa r.len ((Region.hbm dpa).rights r) = St.ok ∧ s.sliceServes (homeSlice dpa) = true ∧
    s.wayHolds (.hbm dpa) r.master r.len = false

/-- The request's answer in the state that the lookup leaves. -/
def State.cacheAnswer (u : State) (r : Request) : State := (u.request memoryBus r false).2.mcAnswer (u.request memoryBus r false).1

theorem State.cacheRequest_elsewhere {r : Request} {err : CacheErr} (h : ∀ dpa, s.region r.dpa r.len ≠ .hbm dpa) :
    s.cacheRequest r err = s := by
  unfold State.cacheRequest
  split
  · next dpa hdpa => exact absurd hdpa (h dpa)
  · rfl

theorem State.cacheRequest_local {r : Request} {err : CacheErr} (h : s.region r.dpa r.len = .hbm dpa) :
    (s.LooksUp r dpa → s.cacheRequest r err = (s.cacheFault r.master dpa err).cacheAnswer r) ∧
    (¬ s.LooksUp r dpa → s.cacheRequest r err = s.cacheAnswer r) := by
  unfold State.LooksUp State.cacheRequest
  rw [h]
  dsimp only
  refine ⟨fun hlook => ?_, fun hno => ?_⟩
  · obtain ⟨hverdict, hserves, hway⟩ := hlook
    rw [if_pos (by simp [hverdict, hserves, hway])]
    rfl
  · rw [if_neg]
    · rfl
    · simpa [and_assoc] using hno

end

end Sys2Proof.Machine
end

section
/-! The controls of the system cache (R347), its ranges (R352), and the tiles' caches (R349). -/

namespace Sys2Proof.Machine

section
variable {t : State} {m : Nat} {v : Word}

/-- A write of SC_CTL that keeps PREFETCH and does not command INV. -/
theorem State.scCtl_noInv (hkeep : v.toNat.testBit 1 = t.bit Reg.SC_CTL 1) (hinv : v.toNat.testBit 2 = false) :
    t.scCtl m v =
      if v.toNat.testBit 0 then
        (if t.bit Reg.SC_CTL 0 then t else if t.bit Reg.SC_CTL 3 then t.setFld Reg.SC_CTL 0 0 1 else t.refuse m Reg.SC_CTL St.invalidField)
      else if t.bit Reg.SC_CTL 0 && !t.bit Reg.SC_CTL 4 then
        (List.range 64).foldl (fun u i => u.flushSlice m i none) (t.setFld Reg.SC_CTL 4 4 1)
      else t := by
  unfold State.scCtl
  dsimp only
  rw [State.putBit_same hkeep, hinv]
  rfl

/-- A write of SC_CTL that keeps EN and PREFETCH and commands INV. -/
theorem State.scCtl_inv (hon : v.toNat.testBit 0 = t.bit Reg.SC_CTL 0) (hkeep : v.toNat.testBit 1 = t.bit Reg.SC_CTL 1)
    (hinv : v.toNat.testBit 2 = true) :
    (t.bit Reg.SC_CTL 0 = true ∨ t.bit Reg.SC_CTL 4 = true →
      t.scCtl m v = t.refuse m Reg.SC_CTL St.accessDenied) ∧
    (t.bit Reg.SC_CTL 0 = false → t.bit Reg.SC_CTL 4 = false →
      t.scCtl m v = { t with slices := [], writeBacks := [], scInv := true }) := by
  unfold State.scCtl
  dsimp only
  rw [State.putBit_same hkeep, hinv, hon]
  refine ⟨fun h => ?_, fun h0 h4 => ?_⟩
  · cases h0 : t.bit Reg.SC_CTL 0 with
    | true => rfl
    | false =>
      have h4 : t.bit Reg.SC_CTL 4 = true := h.resolve_left (ne_true_of_eq_false h0)
      rw [h4]
      rfl
  · rw [h0, h4]
    rfl

/-- The word of a command of SC_CTL: EN, PREFETCH and INV. -/
theorem State.scWord (t : State) (f b : Nat) (hf : f = 0 ∨ f = 2) :
    (t.cmdWord Reg.SC_CTL 2 f f b).toNat.testBit 0 = (if f = 0 then b.testBit 0 else t.bit Reg.SC_CTL 0) ∧
    (t.cmdWord Reg.SC_CTL 2 f f b).toNat.testBit 1 = t.bit Reg.SC_CTL 1 ∧
    (t.cmdWord Reg.SC_CTL 2 f f b).toNat.testBit 2 = (if f = 2 then b.testBit 0 else false) := by
  simp only [State.cmdWord_testBit]
  rcases hf with rfl | rfl <;> simp

/-- The row of SC_RANGE_CMD in the register table. -/
def rangeRow : RegRow := ⟨0x540018, [], [⟨31, 31, .wo, 0⟩, ⟨30, 30, .ro, 0⟩, ⟨18, 16, .rw, 0⟩, ⟨15, 0, .ro, 0⟩], true⟩

theorem regRow?_rangeCmd : regRow? Reg.SC_RANGE_CMD = some rangeRow := by decide +kernel

theorem State.plainWrite_rangeCmd :
    t.plainWrite m Reg.SC_RANGE_CMD v =
      t.wr Reg.SC_RANGE_CMD (BitVec.ofNat 32 (rangeRow.write (t.rd Reg.SC_RANGE_CMD).toNat v.toNat)) :=
  State.plainWrite_row regRow?_rangeCmd (.inr (by decide)) t m v

theorem rangeRow_write_op (old v : Nat) : bits (rangeRow.write old v % 2 ^ 32) 18 16 = bits v 18 16 := by
  have hlt : rangeRow.write old v < 2 ^ 32 := by
    refine setBits_lt _ 15 0 _ 32 (setBits_lt _ 18 16 _ 32 (setBits_lt _ 30 30 _ 32 (setBits_lt _ 31 31 _ 32 ?_ ?_) ?_) ?_) ?_ <;>
      decide
  rw [Nat.mod_eq_of_lt hlt]
  refine (bits_setBits_other _ 15 0 _ 18 16 (.inr (by decide))).trans ((bits_setBits_self _ 18 16 _).trans ?_)
  exact Nat.mod_eq_of_lt (bits_lt v 18 16)

theorem State.fld_rangeCmd_op : (t.plainWrite m Reg.SC_RANGE_CMD v).fld Reg.SC_RANGE_CMD 18 16 = bits v.toNat 18 16 := by
  unfold State.fld
  rw [State.plainWrite_rangeCmd, State.rd_wr_self, BitVec.toNat_ofNat, rangeRow_write_op]

theorem State.rd64_rangeCmd {a : Nat} (h : a ≠ Reg.SC_RANGE_CMD) (h4 : a + 4 ≠ Reg.SC_RANGE_CMD) :
    (t.plainWrite m Reg.SC_RANGE_CMD v).rd64 a = t.rd64 a := by
  unfold State.rd64
  rw [State.plainWrite_rangeCmd, State.rd_wr_other _ _ h, State.rd_wr_other _ _ h4]

theorem State.hbmLimit_rangeCmd : (t.plainWrite m Reg.SC_RANGE_CMD v).hbmLimit = t.hbmLimit := by
  unfold State.hbmLimit State.fld
  rw [State.plainWrite_rangeCmd, State.rd_wr_other _ _ (by decide)]

theorem rangeWord_op {op : Nat} (h : op ∈ [1, 2, 3, 4]) : (rangeWord op).toNat.testBit 31 = true ∧ bits (rangeWord op).toNat 18 16 = op := by
  revert op
  decide

/-- A range that SC_RANGE_CMD does not run over (R352). -/
def State.BadRange (t : State) (base len : Nat) : Prop := len = 0 ∨ base % 128 ≠ 0 ∨ len % 128 ≠ 0 ∨ t.hbmLimit < base + len

section
variable {op : Nat} (hop : op ∈ [1, 2, 3, 4])
include hop

theorem State.rangeWrite_busy (h : t.bit Reg.SC_RANGE_CMD 30 = true) :
    t.rangeWrite m (rangeWord op) = t.refuse m Reg.SC_RANGE_CMD St.accessDenied := by
  unfold State.rangeWrite
  dsimp only
  rw [(rangeWord_op hop).1]
  exact if_pos h

theorem State.rangeWrite_idle (h : t.bit Reg.SC_RANGE_CMD 30 = false) :
    let base := t.rd64 Reg.SC_RANGE_BASE_LO
    let len := t.rd64 Reg.SC_RANGE_LEN_LO
    let u := t.plainWrite m Reg.SC_RANGE_CMD (rangeWord op)
    (t.BadRange base len → t.rangeWrite m (rangeWord op) = u.setFld Reg.SC_RANGE_CMD 15 0 St.invalidField) ∧
    (¬ t.BadRange base len → t.rangeWrite m (rangeWord op) = (u.setFld Reg.SC_RANGE_CMD 30 30 1).rangeRun m op base len) := by
  have h0 : op ≠ 0 := by rintro rfl; exact absurd hop (by decide)
  have h4 : ¬ 4 < op := by simp at hop; omega
  have hbad (base len : Nat) :
      (decide (len = 0) || decide (base % 128 ≠ 0) || decide (len % 128 ≠ 0) || decide (t.hbmLimit < base + len) || decide (op = 0)
        || decide (4 < op)) = true ↔ t.BadRange base len := by
    simp [State.BadRange, h0, h4, or_assoc]
  unfold State.rangeWrite
  dsimp only
  rw [(rangeWord_op hop).1, if_neg (by decide), if_neg (by rw [h]; decide), State.fld_rangeCmd_op, (rangeWord_op hop).2,
    State.rd64_rangeCmd (a := Reg.SC_RANGE_BASE_LO) (by decide) (by decide),
    State.rd64_rangeCmd (a := Reg.SC_RANGE_LEN_LO) (by decide) (by decide), State.hbmLimit_rangeCmd]
  exact ⟨fun hb => if_pos ((hbad _ _).mpr hb), fun hb => if_neg fun hb' => hb ((hbad _ _).mp hb')⟩

end
end

/-- A locked way that loses its line counts it (R352). -/
def State.lockCounted (u : State) (key : Nat) : State :=
  if u.wayLocked (key % 16) then u.count Reg.SC_LOCK_INVAL_COUNT 31 0 1 else u

section
variable {s : State} {m i key : Nat} {l : Line}

theorem State.rangeLine_dirty (h : l.dirty = true) :
    s.rangeLine m 2 i key l = (s.writeLine m l.tag l).putLine i key (some { l with dirty := false }) ∧
    s.rangeLine m 3 i key l = ((s.writeLine m l.tag l).putLine i key none).lockCounted key := by
  unfold State.rangeLine
  dsimp only
  rw [h]
  exact ⟨rfl, rfl⟩

theorem State.rangeLine_clean (h : l.dirty = false) : s.rangeLine m 3 i key l = (s.putLine i key none).lockCounted key := by
  unfold State.rangeLine
  dsimp only
  rw [h]
  rfl

end

section
variable {t : State} {m n : Nat}

/-- The word of a command of TILn_L1_CTL: EN, PREFETCH and INV. -/
theorem State.l1Word_bits (t : State) (n : Nat) (inv : Bool) :
    (t.l1Word n inv).toNat.testBit 0 = (!inv || t.bit (Reg.TIL_L1_CTL n) 0) ∧
    (t.l1Word n inv).toNat.testBit 1 = t.bit (Reg.TIL_L1_CTL n) 1 ∧ (t.l1Word n inv).toNat.testBit 2 = inv := by
  unfold State.l1Word
  cases inv <;> simp only [Bool.false_eq_true, if_true, if_false, State.cmdWord_testBit] <;> simp

theorem State.l1Write_inv :
    t.l1Write m n (t.l1Word n true) =
      if !t.halted n then t.refuse m (Reg.TIL_L1_CTL n) St.accessDenied
      else State.setCore { t with l1Inv := setBits t.l1Inv n n 1 } n { t.core n with l1d := Cache.empty, l1i := Cache.empty } := by
  obtain ⟨hon, hkeep, hinv⟩ := t.l1Word_bits n true
  unfold State.l1Write
  dsimp only
  rw [State.putBit_same hkeep, hinv, hon]
  exact if_pos rfl

theorem State.l1Write_enable :
    t.l1Write m n (t.l1Word n false) =
      if t.bit (Reg.TIL_L1_CTL n) 0 then t
      else if t.bit (Reg.TIL_L1_CTL n) 3 then t.setFld (Reg.TIL_L1_CTL n) 0 0 1
      else t.refuse m (Reg.TIL_L1_CTL n) St.invalidField := by
  obtain ⟨hon, hkeep, hinv⟩ := t.l1Word_bits n false
  unfold State.l1Write
  dsimp only
  rw [State.putBit_same hkeep, hinv, hon]
  cases t.bit (Reg.TIL_L1_CTL n) 0 <;> rfl

theorem State.onTile_local {s : State} {tile : Nat} (h : s.localTile tile = some n) (f : Nat → State) : s.onTile tile f = f n := by
  unfold State.onTile
  rw [h]

end

/-- The four range commands with their operations. -/
def rangeInstrs (m : Nat) : List (Nat × Instr) :=
  [(1, .scRangeInvalidate m), (2, .scRangeClean m), (3, .scRangeCleanInvalidate m), (4, .scRangeLockFill m)]

theorem exec_rangeInstr {s t : State} {m op : Nat} {c : Instr} (hm : m < 4096) (hreach : s.Reaches m Reg.SC_RANGE_CMD t)
    (hc : (op, c) ∈ rangeInstrs m) :
    op ∈ [1, 2, 3, 4] ∧ exec c s = .next (s.seal (t.rangeWrite m (rangeWord op)).acked) := by
  have hok : okMaster m = true := decide_eq_true hm
  simp only [rangeInstrs, List.mem_cons, List.not_mem_nil, or_false, Prod.mk.injEq] at hc
  rcases hc with ⟨rfl, rfl⟩ | ⟨rfl, rfl⟩ | ⟨rfl, rfl⟩ | ⟨rfl, rfl⟩ <;>
    exact ⟨by decide, (done_of hok s _).trans (by rw [State.regDo_of hreach])⟩

/-- Settles O38: a line by its lookup, a request by whether its slice looks it up, and each command by the word it writes. -/
theorem cachesServeInvalidateEnableAndRange : Obligations.CachesServeInvalidateEnableAndRange := by
  refine ⟨fun s m ln o k data p stream => ⟨fun w l hfind hat => ⟨State.lineRead_hit hfind hat, State.lineWrite_hit hfind hat⟩,
      fun hmiss => ⟨fun l hw => State.lineRead_writeBack hmiss hw, fun st l v hw hfetch => ?_⟩⟩,
    fun s r err hr => ?_, fun s t m hm hreach => ?_, fun s => ⟨done_true s _, done_true s _, done_true s _⟩,
    fun s t m op c hm hreach hc => ?_, fun s m i key l => ⟨rfl, State.rangeLine_dirty, State.rangeLine_clean⟩,
    fun s t m tile n hm htile hn hreach => ?_, fun s tile n htile hn => ?_⟩
  · rw [State.lineRead_fetch hmiss hw hfetch]
    exact ⟨fun h => if_pos h, fun h => if_neg (not_not.mpr h)⟩
  · have requests : exec (.cacheRequest r err) s = .next (s.seal (s.cacheRequest r err)) := done_of hr s _
    dsimp only
    rw [requests]
    refine ⟨fun h => by rw [State.cacheRequest_elsewhere h], fun dpa hdpa => ?_⟩
    obtain ⟨hlook, hno⟩ := State.cacheRequest_local (err := err) hdpa
    refine ⟨fun h => ?_, fun hserves w y l hfind hat => ⟨fun he => ?_, fun he => ?_⟩, fun hserves way hway he => ?_⟩
    · by_cases hserves : s.LooksUp r dpa
      · obtain rfl : err = .none := h.resolve_right (not_not.mpr hserves)
        rw [hlook hserves]
        rfl
      · rw [hno hserves]
        rfl
    · rw [hlook hserves, he, State.cacheFault_single hfind]
      rfl
    · rw [hlook hserves, he, State.cacheFault_double hfind w hat]
      rfl
    · rw [hlook hserves, he, State.cacheFault_tag hway]
      rfl
  · have hok : okMaster m = true := decide_eq_true hm
    obtain ⟨hinv0, hinv1, hinv2⟩ := t.scWord 2 1 (.inr rfl)
    obtain ⟨hen0, hen1, hen2⟩ := t.scWord 0 1 (.inl rfl)
    obtain ⟨hdis0, hdis1, hdis2⟩ := t.scWord 0 0 (.inl rfl)
    obtain ⟨hrefused, hempties⟩ := State.scCtl_inv (m := m) hinv0 hinv1 hinv2
    have invalidates : exec (.scInvalidate m) s = .next (s.seal (t.scCtl m (t.cmdWord Reg.SC_CTL 2 2 2 1)).acked) :=
      (done_of hok s _).trans (by rw [State.regDo_of hreach])
    have enables : exec (.scEnable m) s = .next (s.seal (t.scCtl m (t.cmdWord Reg.SC_CTL 2 0 0 1)).acked) :=
      (done_of hok s _).trans (by rw [State.regDo_of hreach])
    have disables : exec (.scDisable m) s = .next (s.seal (t.scCtl m (t.cmdWord Reg.SC_CTL 2 0 0 0)).acked) :=
      (done_of hok s _).trans (by rw [State.regDo_of hreach])
    have hen : (t.cmdWord Reg.SC_CTL 2 0 0 1).toNat.testBit 0 = true := hen0
    have hdis : ¬ (t.cmdWord Reg.SC_CTL 2 0 0 0).toNat.testBit 0 = true := ne_true_of_eq_false hdis0
    dsimp only
    rw [invalidates, enables, disables, State.scCtl_noInv hen1 hen2, State.scCtl_noInv hdis1 hdis2, if_pos hen, if_neg hdis]
    exact ⟨fun h => by rw [hrefused h], fun h0 h4 => ⟨by rw [hempties h0 h4], by rw [if_neg (by simp [h0])]⟩, fun h => by rw [if_pos h],
      fun h0 h3 => by rw [if_neg (by rw [h0]; decide), if_pos h3],
      fun h0 h3 => by rw [if_neg (by rw [h0]; decide), if_neg (by rw [h3]; decide)], fun h0 h4 => by rw [if_neg (by simp [h4])],
      fun h0 h4 => by rw [if_pos (by simp [h0, h4])]⟩
  · obtain ⟨hop, runs⟩ := exec_rangeInstr hm hreach hc
    dsimp only
    rw [runs]
    refine ⟨fun h => by rw [State.rangeWrite_busy hop h], fun h hbad => ?_, fun h hgood => ?_⟩
    · rw [(State.rangeWrite_idle hop h).1 hbad]
    · rw [(State.rangeWrite_idle hop h).2 hgood]
      rfl
  · have hok : (okMaster m && okTile tile) = true := by simp [okMaster, okTile, hm, htile]
    have invalidates : exec (.l1Invalidate m tile) s = .next (s.seal (t.l1Write m n (t.l1Word n true)).acked) :=
      (done_of hok s _).trans (by rw [State.onTile_local hn, State.regDo_of hreach])
    have enables : exec (.l1Enable m tile) s = .next (s.seal (t.l1Write m n (t.l1Word n false)).acked) :=
      (done_of hok s _).trans (by rw [State.onTile_local hn, State.regDo_of hreach])
    dsimp only
    rw [invalidates, enables, State.l1Write_inv, State.l1Write_enable]
    exact ⟨fun h => by rw [if_pos (by rw [h]; rfl)], fun h => by rw [if_neg (by rw [h]; decide)], fun h => by rw [if_pos h],
      fun h0 h3 => by rw [if_neg (by rw [h0]; decide), if_pos h3],
      fun h0 h3 => by rw [if_neg (by rw [h0]; decide), if_neg (by rw [h3]; decide)]⟩
  · exact (done_of (decide_eq_true htile) s _).trans (by rw [State.onTile_local hn]; rfl)

end Sys2Proof.Machine
end

section
/-! The mesh's links: the two ends of a link, and the marks that they carry (R357, R358, R364). -/

namespace Sys2Proof.Machine

/-- The neighbour of a router's port is one row or one column away, and that port's neighbour is the router. -/
theorem beyond_some {r p q : Nat} (hr : r < 64) (hp : p < 4) (h : beyond r p = some q) :
    q < 64 ∧ beyond q ((p + 2) % 4) = some r ∧ q = (if p = 0 then r - 8 else if p = 1 then r + 1 else if p = 2 then r + 8 else r - 1) := by
  have edge {c : Prop} [Decidable c] {x : Nat} (h : (if c then none else some x) = some q) : ¬ c ∧ x = q := by simpa using h
  have back (f : Nat → Option Nat) (p : Nat) {c : Prop} [Decidable c] {x : Nat} (hf : f p = if c then none else some x) (hc : ¬ c)
      (hx : x = r) : f p = some r := by rw [hf, if_neg hc, hx]
  interval_cases p <;> obtain ⟨hc, rfl⟩ := edge h
  · exact ⟨by omega, back (beyond (r - 8)) 2 rfl (by omega) (by omega), rfl⟩
  · exact ⟨by omega, back (beyond (r + 1)) 3 rfl (by omega) (by omega), rfl⟩
  · exact ⟨by omega, back (c := r + 8 < 8) (x := r + 8 - 8) (beyond (r + 8)) 0 rfl (by omega) (by omega), rfl⟩
  · exact ⟨by omega, back (beyond (r - 1)) 1 rfl (by omega) (by omega), rfl⟩

theorem linkKey_some {r p q o : Nat} (h : linkEnd r p = some (q, o)) : linkKey r p = min (4 * r + p) (4 * q + o) := by
  unfold linkKey
  rw [h]

theorem linkEnd_some {r p q o : Nat} (hr : r < 64) (hp : p < 4) (h : linkEnd r p = some (q, o)) :
    q < 64 ∧ o < 4 ∧ linkEnd q o = some (r, p) ∧ linkKey q o = linkKey r p ∧
      q = (if p = 0 then r - 8 else if p = 1 then r + 1 else if p = 2 then r + 8 else r - 1) := by
  obtain ⟨q', hq', hpair⟩ := Option.map_eq_some_iff.mp h
  obtain ⟨rfl, rfl⟩ := Prod.mk.injEq _ _ _ _ ▸ hpair
  obtain ⟨hlt, hback, hval⟩ := beyond_some hr hp hq'
  have hend : linkEnd q' ((p + 2) % 4) = some (r, p) := by
    unfold linkEnd
    rw [hback, Option.map_some, show ((p + 2) % 4 + 2) % 4 = p by omega]
  exact ⟨hlt, Nat.mod_lt _ (by decide), hend, by rw [linkKey_some hend, linkKey_some h, min_comm], hval⟩

section
variable {s : State} {r p lo int : Nat}

/-- One end of a link takes a mark. -/
def State.markEnd (u : State) (r p lo int : Nat) : State :=
  (u.setFld (Reg.MSH_LINK r) (lo + p) (lo + p) 1).raise (Reg.MSH_INT_STATUS r) int

theorem State.markLink_both {q o : Nat} (h : linkEnd r p = some (q, o)) :
    s.markLink r p lo int = (s.markEnd r p lo int).markEnd q o lo int := by
  unfold State.markLink
  rw [h]
  rfl

theorem State.markLink_one (h : linkEnd r p = none) : s.markLink r p lo int = s.markEnd r p lo int := by
  unfold State.markLink
  rw [h]
  rfl

theorem State.linkAck_both {q o : Nat} (h : linkEnd r p = some (q, o)) :
    s.linkAck r p = (s.setFld (Reg.MSH_LINK r) (4 + p) (4 + p) 0).setFld (Reg.MSH_LINK q) (4 + o) (4 + o) 0 := by
  unfold State.linkAck
  rw [h]

theorem State.linkAck_one (h : linkEnd r p = none) : s.linkAck r p = s.setFld (Reg.MSH_LINK r) (4 + p) (4 + p) 0 := by
  unfold State.linkAck
  rw [h]

/-- The retransmission is counted in the field of its network. -/
def State.retxCounted (s : State) (r p hi : Nat) : State :=
  s.setFld (Reg.MSH_RETX r p) hi (hi - 15) (min (s.fld (Reg.MSH_RETX r p) hi (hi - 15) + 1) 65535)

theorem State.count_retx (control : Bool) :
    (if control then s.count (Reg.MSH_RETX r p) 31 16 1 else s.count (Reg.MSH_RETX r p) 15 0 1) =
      s.retxCounted r p (if control then 31 else 15) := by
  have hsat (x : Nat) : satAdd 16 x 1 = min (x + 1) 65535 := by
    unfold satAdd
    split <;> omega
  unfold State.count State.retxCounted
  cases control
  · exact congrArg (s.setFld (Reg.MSH_RETX r p) 15 0) (hsat _)
  · exact congrArg (s.setFld (Reg.MSH_RETX r p) 31 16) (hsat _)

theorem State.retxCounted_link (hi : Nat) (h : p < 4) :
    (s.retxCounted r p hi).bit (Reg.MSH_LINK r) p = s.bit (Reg.MSH_LINK r) p := by
  have hne : Reg.MSH_LINK r ≠ Reg.MSH_RETX r p := by unfold Reg.MSH_LINK Reg.MSH_RETX; omega
  unfold State.bit State.retxCounted
  rw [State.rd_setFld_other _ _ _ _ hne]

/-- The retransmissions of a link within the last millisecond, this one with them. -/
def State.recentRetx (s : State) (r p : Nat) : List Nat :=
  (FMap.getD s.meshRetx (linkKey r p)).filter (fun t => s.time.toNat < t + 1000000) ++ [s.time.toNat]

/-- The retransmission is counted in its field and on its link. -/
def State.retxNoted (s : State) (r p hi : Nat) : State :=
  { s.retxCounted r p hi with meshRetx := FMap.setD s.meshRetx (linkKey r p) (s.recentRetx r p) }

theorem State.flitRetransmit_eq (control : Bool) (h : p < 4) :
    s.flitRetransmit r p control =
      let u := s.retxNoted r p (if control then 31 else 15)
      if 17 ≤ (s.recentRetx r p).length ∧ s.bit (Reg.MSH_LINK r) p = false then (u.markLink r p 0 0).linkReport r p else u := by
  have hlink : (s.retxNoted r p (if control then 31 else 15)).bit (Reg.MSH_LINK r) p = s.bit (Reg.MSH_LINK r) p :=
    State.retxCounted_link _ h
  rw [← hlink]
  unfold State.flitRetransmit
  rw [State.count_retx]
  dsimp only
  simp only [Bool.and_eq_true, decide_eq_true_eq, Bool.not_eq_true']
  rfl

theorem State.linkDead_again (h : s.bit (Reg.MSH_LINK r) (4 + p) = true) : s.linkDead r p = s := if_pos h

theorem State.linkDead_new (h : s.bit (Reg.MSH_LINK r) (4 + p) = false) : s.linkDead r p = (s.markLink r p 4 1).linkReport r p :=
  if_neg (by rw [h]; decide)

end

end Sys2Proof.Machine
end

section
/-! The freezing of a router (R360) and its routes (R355). -/

namespace Sys2Proof.Machine

/-- A write by access codes changes at most the register's own word. -/
theorem State.plainWrite_cases (t : State) (m off : Nat) (v : Word) :
    t.plainWrite m off v = t ∨ ∃ w, t.plainWrite m off v = t.wr (regKey m off) w := by
  unfold State.plainWrite
  cases regRow? off with
  | none => exact .inl rfl
  | some r => exact .inr ⟨_, rfl⟩

section
variable {t : State} {m r d : Nat} {v : Word}

theorem State.meshCtl_release : t.meshCtl m r 0 = (t.plainWrite m (Reg.MSH_CTL r) 0).setFld (Reg.MSH_STATUS r) 0 0 0 := rfl

theorem State.plainWrite_meshCtl :
    (t.plainWrite m (Reg.MSH_CTL r) v).bit (Reg.MSH_STATUS r) 0 = t.bit (Reg.MSH_STATUS r) 0 ∧
      (t.plainWrite m (Reg.MSH_CTL r) v).meshFroze = t.meshFroze ∧ (t.plainWrite m (Reg.MSH_CTL r) v).time = t.time := by
  rcases t.plainWrite_cases m (Reg.MSH_CTL r) v with h | ⟨w, h⟩
  · rw [h]
    exact ⟨rfl, rfl, rfl⟩
  · rw [h, regKey_of_no_view (.inr (by unfold Reg.MSH_CTL; omega))]
    refine ⟨?_, rfl, rfl⟩
    unfold State.bit
    rw [State.rd_wr_other _ _ (by unfold Reg.MSH_CTL Reg.MSH_STATUS; omega)]

theorem State.meshCtl_freeze :
    t.meshCtl m r 1 =
      let on := t.plainWrite m (Reg.MSH_CTL r) 1
      if t.bit (Reg.MSH_STATUS r) 0 then on
      else State.setFld { on with meshFroze := FMap.setD t.meshFroze r t.time.toNat } (Reg.MSH_STATUS r) 0 0 1 := by
  obtain ⟨hbit, hfroze, htime⟩ := State.plainWrite_meshCtl (t := t) (m := m) (r := r) (v := 1)
  rw [← hbit, ← hfroze, ← htime]
  rfl

theorem State.freezeExpire_none (h : t.bit (Reg.MSH_STATUS r) 0 = false) : t.freezeExpire r = t := if_neg (by rw [h]; decide)

theorem State.freezeExpire_frozen (h : t.bit (Reg.MSH_STATUS r) 0 = true) :
    t.freezeExpire r =
      ((t.atTime (FMap.getD t.meshFroze r + 2000)).setFld (Reg.MSH_STATUS r) 0 0 0).setFld (Reg.MSH_STATUS r) 1 1 1 := if_pos h

theorem State.meshRoute_running (h : t.bit (Reg.MSH_STATUS r) 0 = false) :
    t.meshRoute m r d v = t.refuse m (Reg.MSH_ROUTE r d) St.accessDenied := if_pos (by rw [h]; rfl)

section
variable (h : t.bit (Reg.MSH_STATUS r) 0 = true)
include h

theorem State.meshRoute_badMode (hmode : bits v.toNat 15 14 = 3 ∨ (bits v.toNat 15 14 ≠ 0 ∧ t.revision < 0x21)) :
    t.meshRoute m r d v = t.refuse m (Reg.MSH_ROUTE r d) St.invalidField :=
  (if_neg (by rw [h]; decide)).trans (if_pos (by simpa using hmode))

theorem State.meshRoute_written (hmode : ¬ (bits v.toNat 15 14 = 3 ∨ (bits v.toNat 15 14 ≠ 0 ∧ t.revision < 0x21))) :
    t.meshRoute m r d v = t.plainWrite m (Reg.MSH_ROUTE r d) v :=
  (if_neg (by rw [h]; decide)).trans (if_neg (by simpa using hmode))

end
end

section
variable {s : State} {r p : Nat} (hr : r < 64) (hp : p < 4)
include hr hp

theorem linkOk : (decide (r < 64) && decide (p < 4)) = true := by simp [hr, hp]

theorem exec_links_on (h : s.domState 1 = 0) (control : Bool) :
    exec (.flitRetransmit r p control) s = .next (s.seal (s.flitRetransmit r p control)) ∧
      exec (.linkDead r p) s = .next (s.seal (s.linkDead r p)) ∧
      exec (.deadLinkAcknowledge r p) s = .next (s.seal (s.linkAck r p)) := by
  have hon : s.spineOn = true := decide_eq_true h
  have hok := linkOk hr hp
  exact ⟨(done_of hok s _).trans (by rw [if_pos hon]), (done_of hok s _).trans (by rw [if_pos hon]),
    (done_of hok s _).trans (by rw [if_pos hon])⟩

theorem exec_links_off (h : s.domState 1 ≠ 0) (control : Bool) :
    exec (.flitRetransmit r p control) s = .next (s.seal s) ∧ exec (.linkDead r p) s = .next (s.seal s) ∧
      exec (.deadLinkAcknowledge r p) s = .next (s.seal s) := by
  have hoff : ¬ s.spineOn = true := by unfold State.spineOn; simpa using h
  have hok := linkOk hr hp
  exact ⟨(done_of hok s _).trans (by rw [if_neg hoff]), (done_of hok s _).trans (by rw [if_neg hoff]),
    (done_of hok s _).trans (by rw [if_neg hoff])⟩

end

/-- Settles O39: a link by its two ends, and each command by the cases of its own lemmas above. -/
theorem meshCountsRetransmissionsMarksLinksAndFreezes : Obligations.MeshCountsRetransmissionsMarksLinksAndFreezes := by
  refine ⟨fun s r p control hr hp hon => ?_, fun s r p lo int => ⟨fun q o h => State.markLink_both h, State.markLink_one⟩,
    fun r q p o => linkEnd_some, fun s r p hr hp hon => ?_, fun s r p control hr hp hoff => exec_links_off hr hp hoff control,
    fun s t m r hm hr hreach => ?_, fun s r hr => ?_, fun s t m r d v hm hr hd hreach => ?_⟩
  · obtain ⟨resends, _, _⟩ := exec_links_on hr hp hon control
    dsimp only
    rw [resends, State.flitRetransmit_eq control hp]
    exact ⟨fun h => congrArg (fun x => Host.Outcome.next (s.seal x)) (if_pos h),
      fun h => congrArg (fun x => Host.Outcome.next (s.seal x)) (if_neg h)⟩
  · obtain ⟨_, dies, acknowledges⟩ := exec_links_on hr hp hon false
    rw [dies, acknowledges]
    exact ⟨fun h => by rw [State.linkDead_again h], fun h => by rw [State.linkDead_new h], fun h => by rw [State.linkAck_one h],
      fun q o h => by rw [State.linkAck_both h]⟩
  · have hok : (okMaster m && decide (r < 64)) = true := by simp [okMaster, hm, hr]
    have freezes : exec (.routerFreeze m r) s = .next (s.seal (t.meshCtl m r 1).acked) :=
      (done_of hok s _).trans (by rw [State.regDo_of hreach])
    have thaws : exec (.routerUnfreeze m r) s = .next (s.seal (t.meshCtl m r 0).acked) :=
      (done_of hok s _).trans (by rw [State.regDo_of hreach])
    dsimp only
    rw [freezes, thaws, State.meshCtl_freeze, State.meshCtl_release]
    exact ⟨fun h => congrArg (fun x : State => Host.Outcome.next (s.seal x.acked)) (if_neg (by rw [h]; decide)),
      fun h => congrArg (fun x : State => Host.Outcome.next (s.seal x.acked)) (if_pos h), rfl⟩
  · have expires : exec (.routerFreezeExpire r) s = .next (s.seal (s.freezeExpire r)) := done_of (decide_eq_true hr) s _
    rw [expires]
    exact ⟨fun h => by rw [State.freezeExpire_none h], fun h => by rw [State.freezeExpire_frozen h]⟩
  · have writes : exec (.routeWrite m r d v) s = .next (s.seal (t.meshRoute m r d v).acked) :=
      (done_of (by simp [okMaster, hm, hr, hd]) s _).trans (by rw [State.regDo_of hreach])
    dsimp only
    rw [writes]
    refine ⟨fun h => by rw [State.meshRoute_running h], fun h => ⟨fun hmode => ?_, fun hmode hrev => ?_, fun hmode => ?_⟩⟩
    · rw [State.meshRoute_badMode h (.inl hmode)]
    · rw [State.meshRoute_badMode h (.inr ⟨by omega, hrev⟩)]
    · rw [State.meshRoute_written h (by omega)]

end Sys2Proof.Machine
end

section
/-! Codewords and flits at a port (R367 to R370). -/

namespace Sys2Proof.Machine

/-- The flits at the front of a byte stream are its consecutive pieces of 144 bytes. -/
theorem cutFlits_eq (n : Nat) (bs : List Byte) (h : 144 * n ≤ bs.length) :
    cutFlits n bs = (List.range n).map (fun i => (bs.drop (144 * i)).take 144) := by
  induction n generalizing bs with
  | zero => rfl
  | succ n ih =>
    have hlen : 144 * n ≤ (bs.drop 144).length := by rw [List.length_drop]; omega
    rw [cutFlits, if_neg (by omega), ih _ hlen, List.range_succ_eq_map, List.map_cons, List.map_map]
    refine congrArg₂ List.cons rfl (List.map_congr_left fun i _ => ?_)
    rw [Function.comp_apply, List.drop_drop, Nat.mul_succ, Nat.add_comm]

section
variable {h : HatPort} {c : Codeword}

theorem HatPort.held_one (hheld : h.rxHeld = []) :
    h.rxHeld.filter (fun e => e.1 ≠ cwNumber c) ++ [(cwNumber c, c.piece)] = [(cwNumber c, c.piece)] := by
  rw [hheld]
  rfl

/-- A codeword that is next in order joins the stream at once, where no other is held. -/
theorem HatPort.gather_next (hheld : h.rxHeld = []) (hnext : cwNumber c = h.rxNext) :
    h.gather c =
      let bytes := h.rxBytes ++ c.piece
      ({ h with rxNext := (h.rxNext + 1) % 65536, rxBytes := bytes.drop (144 * (bytes.length / 144)) },
        (List.range (bytes.length / 144)).map (fun i => (bytes.drop (144 * i)).take 144)) := by
  have hcut := cutFlits_eq ((h.rxBytes ++ c.piece).length / 144) (h.rxBytes ++ c.piece) (Nat.mul_div_le _ _)
  have hlen : (cutFlits ((h.rxBytes ++ c.piece).length / 144) (h.rxBytes ++ c.piece)).length = (h.rxBytes ++ c.piece).length / 144 := by
    rw [hcut, List.length_map, List.length_range]
  have hdeskew : HatPort.deskew { h with rxHeld := [(cwNumber c, c.piece)] } 1 =
      { h with rxNext := (h.rxNext + 1) % 65536, rxBytes := h.rxBytes ++ c.piece } := by
    simp [HatPort.deskew, hnext, hheld]
  have hahead : (cwNumber c + 65536 - h.rxNext) % 65536 < 32768 := by omega
  unfold HatPort.gather
  dsimp only
  rw [if_pos hahead, HatPort.held_one hheld]
  dsimp only [List.length_singleton]
  rw [hdeskew]
  dsimp only
  rw [hlen, hcut]

/-- A codeword ahead of the next in order is held. -/
theorem HatPort.gather_ahead (hheld : h.rxHeld = []) (hpos : 0 < (cwNumber c + 65536 - h.rxNext) % 65536)
    (hahead : (cwNumber c + 65536 - h.rxNext) % 65536 < 32768) (hbytes : h.rxBytes.length < 144) :
    h.gather c = ({ h with rxHeld := [(cwNumber c, c.piece)] }, []) := by
  have hne : cwNumber c ≠ h.rxNext := by intro he; rw [he] at hpos; omega
  have hdeskew : HatPort.deskew { h with rxHeld := [(cwNumber c, c.piece)] } 1 = { h with rxHeld := [(cwNumber c, c.piece)] } := by
    simp [HatPort.deskew, hne]
  unfold HatPort.gather
  dsimp only
  rw [if_pos hahead, HatPort.held_one hheld]
  dsimp only [List.length_singleton]
  rw [hdeskew]
  dsimp only
  rw [Nat.div_eq_of_lt hbytes]
  rfl

end

/-- A port that takes the link commands is UP or serves the hinge. -/
def State.PortWorks (s : State) (p : Nat) : Prop := s.portState p = 2 ∨ s.portState p = 5

section
variable {s : State} {p : Nat}

theorem State.portWorks_iff : (decide (s.portState p ≠ 2) && decide (s.portState p ≠ 5)) = true ↔ ¬ s.PortWorks p := by
  simp [State.PortWorks]

section
variable (h : ¬ s.PortWorks p)
include h

theorem State.codewordIn_off (c : Codeword) : s.codewordIn p c = s := if_pos (State.portWorks_iff.mpr h)

theorem State.nak_off (ack : Nat) : s.nak p ack = s := if_pos (State.portWorks_iff.mpr h)

theorem State.replayTimeout_off : s.replayTimeout p = s := if_pos (State.portWorks_iff.mpr h)

theorem State.retrain_off : s.retrain p = s := by
  refine if_neg ?_
  rw [Bool.or_eq_true, decide_eq_true_eq, decide_eq_true_eq]
  exact h

end

section
variable (h : s.PortWorks p)
include h

theorem State.codewordIn_on (c : Codeword) : s.codewordIn p c = (s.countFec p c.fec).takePiece p c :=
  if_neg fun hn => State.portWorks_iff.mp hn h

theorem State.nak_on (ack : Nat) : s.nak p ack = ((s.setHatPort p ((s.hatPort p).take ack)).replay p).flushPort p :=
  if_neg fun hn => State.portWorks_iff.mp hn h

theorem State.replayTimeout_on : s.replayTimeout p = s.replay p := if_neg fun hn => State.portWorks_iff.mp hn h

theorem State.retrain_on : s.retrain p = s.trainPort p (s.fld (Reg.HAT_PORT_STATE p) 5 4) (s.hatPort p).lanes := by
  refine if_pos ?_
  rw [Bool.or_eq_true, decide_eq_true_eq, decide_eq_true_eq]
  exact h

section
variable {f : List Byte}

theorem State.flitReceive_broken (hf : flitIntact f = false) :
    s.flitReceive p f = if flitType f = 1 then s.dropFlit p else s :=
  (if_neg fun hn => State.portWorks_iff.mp hn h).trans (if_pos (by rw [hf]; rfl))

/-- The port after the header of an intact flit: what the peer has acknowledged, and the credits it has returned. -/
def State.flitPort (s : State) (p : Nat) (f : List Byte) : HatPort :=
  let h := (s.hatPort p).take (flitAck f)
  { h with credits := h.credits.set (flitCvc f) (h.credits.getD (flitCvc f) 0 + flitCredits f) }

/-- The state after the header of an intact flit. -/
def State.flitSeen (s : State) (p : Nat) (f : List Byte) : State :=
  let u : State := { s with hat := { s.hat with
    hingeAt := if 6 ≤ p then FMap.setD s.hat.hingeAt p s.time.toNat else s.hat.hingeAt } }
  u.setHatPort p (s.flitPort p f)

variable (hf : flitIntact f = true)
include hf

theorem State.flitReceive_idle (ht : flitType f = 0) : s.flitReceive p f = (s.flitSeen p f).flushPort p := by
  unfold State.flitReceive
  rw [if_neg (fun hn => State.portWorks_iff.mp hn h), hf, ht]
  rfl

theorem State.flitReceive_data (ht : flitType f = 1) :
    s.flitReceive p f =
      (if flitSeq f = ((s.flitPort p f).rxLast + 1) % 4096 then
        State.setHatPort
          { s.flitSeen p f with sent := (s.flitSeen p f).sent ++ [Sent.linkAck p false (flitSeq f) (flitBvc f) 1] } p
          { s.flitPort p f with rxLast := flitSeq f, rxBad := false }
      else (s.flitSeen p f).dropFlit p).flushPort p := by
  unfold State.flitReceive
  rw [if_neg (fun hn => State.portWorks_iff.mp hn h), hf, ht]
  rfl

theorem State.flitReceive_nak (ht : flitType f = 2) : s.flitReceive p f = ((s.flitSeen p f).nak p (flitAck f)).flushPort p := by
  unfold State.flitReceive
  rw [if_neg (fun hn => State.portWorks_iff.mp hn h), hf, ht]
  rfl

end
end

theorem State.dropFlit_again (h : (s.hatPort p).rxBad = true) : s.dropFlit p = s := if_pos h

theorem State.dropFlit_new (h : (s.hatPort p).rxBad = false) :
    s.dropFlit p =
      State.setHatPort { s with sent := s.sent ++ [Sent.linkAck p true (s.hatPort p).rxLast 0 0] } p { s.hatPort p with rxBad := true } :=
  if_neg (by rw [h]; decide)

theorem State.placed_iff {c : Codeword} :
    s.placed p c = true ↔
      cwLane c = c.lane ∧ (s.activeLanes p)[cwNumber c % (s.activeLanes p).length]? = some c.lane := by
  simp [State.placed]

theorem State.takePiece_dropped {c : Codeword} (h : ¬ s.placed p c = true) : s.takePiece p c = s := if_pos (by simpa using h)

theorem State.takePiece_taken {c : Codeword} (h : s.placed p c = true) :
    s.takePiece p c =
      ((s.hatPort p).gather c).2.foldl (fun u f => u.flitReceive p f) (s.setHatPort p ((s.hatPort p).gather c).1) :=
  if_neg (by rw [h]; decide)

/-- The replays of a port within the last millisecond, this one with them. -/
def State.recentReplays (s : State) (p : Nat) : List Nat :=
  (s.hatPort p).replays.filter (fun t => s.time.toNat < t + 1000000) ++ [s.time.toNat]

/-- A replay is counted and asked for from ACK + 1. -/
def State.replayed (s : State) (p : Nat) : State :=
  let u := (s.setHatPort p { s.hatPort p with replays := s.recentReplays p }).count (Reg.HAT_PORT_REPLAYS p) 31 0 1
  { u with sent := u.sent ++ [.linkReplay p (((s.hatPort p).txAcked + 1) % 4096)] }

theorem State.replay_none (h : (s.hatPort p).unacked = 0) : s.replay p = s := if_pos h

theorem State.replay_some (h : (s.hatPort p).unacked ≠ 0) :
    s.replay p = if 65 ≤ (s.recentReplays p).length then (s.replayed p).retrain p else s.replayed p := if_neg h

end

end Sys2Proof.Machine
end

section
/-! Training, restoring and retiring a port (R371, R372). -/

namespace Sys2Proof.Machine

section
variable {s : State} {p : Nat}

theorem State.trainPort_eq (width lanes : Nat) :
    s.trainPort p width lanes =
      let b := if s.portState p = 0 ∨ s.portState p = 4 then
        { HatPort.new with nbr := (s.hatPort p).nbr, eventDue := (s.hatPort p).eventDue } else s.hatPort p
      let u := s.setHatPort p { b with width := width, lanes := lanes, fails := 0, replays := [], rxNext := 0, rxHeld := [], rxBytes := [] }
      let v := (u.setFld (Reg.HAT_PORT_STATE p) 2 0 (if s.steady.cables.testBit p && s.steady.href then 1 else 0)).setFld
        (Reg.HAT_PORT_STATE p) 5 4 0
      let v := if 6 ≤ p then v.setFld Reg.GLB_PAIR_STATUS (20 + p) (20 + p) 0 else v
      (v.setHatPort p { v.hatPort p with eventDue := true }).raise Reg.HAT_INT_STATUS 0 := by
  have hbase : s.linkBase p = if s.portState p = 0 ∨ s.portState p = 4 then
      { HatPort.new with nbr := (s.hatPort p).nbr, eventDue := (s.hatPort p).eventDue } else s.hatPort p := by
    unfold State.linkBase
    simp only [Bool.or_eq_true, decide_eq_true_eq]
  have hnoHinge (b : Bool) : bit01 ((if b = true then 1 else 0) = 5) = 0 := by cases b <;> rfl
  unfold State.trainPort State.setPort State.portChange
  rw [hbase]
  dsimp only
  rw [hnoHinge]
  rfl

/-- The attempt is counted, and its lanes are shown. -/
def State.attemptShown (s : State) (p lanes : Nat) : State :=
  (s.count (Reg.HAT_PORT_RETRAINS p) 31 0 1).setFld (Reg.HAT_PORT_STATE p) 11 8 lanes

theorem State.trainingEnd_off {lanes : Nat} (h : s.portState p ≠ 1) : s.trainingEnd p lanes = s := if_pos h

section
variable {lanes : Nat} (h : s.portState p = 1)
include h

theorem State.trainingEnd_up {l : Nat} (hl : lanesFor (s.hatPort p).width (lanes &&& (s.hatPort p).lanes) = some l) :
    s.trainingEnd p lanes = ((s.attemptShown p lanes).portUp p (s.hatPort p).width).helloSend p := by
  have hport : (s.attemptShown p lanes).hatPort p = s.hatPort p := rfl
  unfold State.attemptShown at hport
  unfold State.trainingEnd
  rw [if_neg (not_not.mpr h)]
  dsimp only
  rw [hport, hl]
  rfl

theorem State.trainingEnd_fails (hl : lanesFor (s.hatPort p).width (lanes &&& (s.hatPort p).lanes) = none) :
    s.trainingEnd p lanes =
      let h := s.hatPort p
      let usable := lanes &&& h.lanes
      let u := s.attemptShown p lanes
      if usable = 0 then u.portDead p
      else if h.fails < 2 && widthNeeds h.width ≤ laneCount usable then u.setHatPort p { h with fails := h.fails + 1 }
      else if h.width ≤ 1 then u.portDead p
      else u.setHatPort p { h with width := h.width - 1, lanes := usable, fails := 0 } := by
  have hport : (s.attemptShown p lanes).hatPort p = s.hatPort p := rfl
  unfold State.attemptShown at hport
  unfold State.trainingEnd
  rw [if_neg (not_not.mpr h)]
  dsimp only
  rw [hport, hl]
  rfl

end
end

/-! PORT_RESTORE and PORT_RETIRE write HAT_PORTp_CTL. -/

/-- The row of HAT_PORTp_CTL in the register table. -/
def portCtlRow : RegRow := ⟨0x700108, [(8, 0x40)], [⟨2, 2, .wo, 0⟩, ⟨1, 1, .wo, 0⟩, ⟨0, 0, .rw, 0⟩], true⟩

theorem regRow?_portCtl : ∀ p < 8, regRow? (Reg.HAT_PORT_CTL p) = some portCtlRow := by decide +kernel

theorem portCtlRow_write_held (old v : Nat) : (portCtlRow.write old v % 2 ^ 32).testBit 0 = v.testBit 0 := by
  rw [Nat.testBit_mod_two_pow, decide_eq_true (by decide), Bool.true_and]
  exact RegField.testBit_write ⟨0, 0, .rw, 0⟩ old v _ 0 (by decide)

section
variable {t : State} {m p : Nat} {v : Word} (hp : p < 8)
include hp

theorem State.plainWrite_portCtl :
    t.plainWrite m (Reg.HAT_PORT_CTL p) v =
      t.wr (Reg.HAT_PORT_CTL p) (BitVec.ofNat 32 (portCtlRow.write (t.rd (Reg.HAT_PORT_CTL p)).toNat v.toNat)) :=
  State.plainWrite_row (regRow?_portCtl p hp) (.inr (by unfold Reg.HAT_PORT_CTL; omega)) t m v

theorem State.portCtl_written :
    (t.plainWrite m (Reg.HAT_PORT_CTL p) v).bit (Reg.HAT_PORT_CTL p) 0 = v.toNat.testBit 0 ∧
      (t.plainWrite m (Reg.HAT_PORT_CTL p) v).bit Reg.HAT_CTL 0 = t.bit Reg.HAT_CTL 0 := by
  unfold State.bit
  rw [State.plainWrite_portCtl hp, State.rd_wr_self, State.rd_wr_other _ _ (by unfold Reg.HAT_PORT_CTL Reg.HAT_CTL; omega),
    BitVec.toNat_ofNat, portCtlRow_write_held]
  exact ⟨rfl, rfl⟩

/-- A write of HAT_PORTp_CTL that keeps DISABLE. -/
theorem State.portCtl_keep (hkeep : v.toNat.testBit 0 = t.bit (Reg.HAT_PORT_CTL p) 0) :
    t.portCtl m p v =
      let u := t.plainWrite m (Reg.HAT_PORT_CTL p) v
      if v.toNat.testBit 1 then u.retirePort p
      else if v.toNat.testBit 2 && !t.bit (Reg.HAT_PORT_CTL p) 0 && t.bit Reg.HAT_CTL 0 then u.trainPort p 3 15
      else u := by
  obtain ⟨hheld, hctl⟩ := State.portCtl_written (t := t) (m := m) (v := v) hp
  unfold State.portCtl
  dsimp only
  rw [hheld, hkeep, if_neg (c := (t.bit (Reg.HAT_PORT_CTL p) 0 && !t.bit (Reg.HAT_PORT_CTL p) 0) = true) (by simp), hctl,
    if_neg (c := (t.bit (Reg.HAT_PORT_CTL p) 0 && !t.bit (Reg.HAT_PORT_CTL p) 0 && t.bit Reg.HAT_CTL 0) = true) (by simp)]

end

/-- Settles O40: a codeword and a flit by the cases of their reception, and each other command by its own lemmas above. -/
theorem portsAcknowledgeReplayTrainAndRetire : Obligations.PortsAcknowledgeReplayTrainAndRetire := by
  have receives {p : Nat} {c : Codeword} (s : State) (hp : p < 8) (hc : c.ok = true) :
      exec (.linkFlitReceive p c) s = .next (s.seal (s.codewordIn p c)) := done_of (by simp [okPort, hp, hc]) s _
  have naks {p : Nat} (s : State) (hp : p < 8) (a : BitVec 12) : exec (.nak p a) s = .next (s.seal (s.nak p a.toNat)) :=
    done_of (decide_eq_true hp) s _
  have timesOut {p : Nat} (s : State) (hp : p < 8) : exec (.replayTimeout p) s = .next (s.seal (s.replayTimeout p)) :=
    done_of (decide_eq_true hp) s _
  have retrains {p : Nat} (s : State) (hp : p < 8) : exec (.portRetrain p) s = .next (s.seal (s.retrain p)) :=
    done_of (decide_eq_true hp) s _
  refine ⟨fun s p a c hp hc h2 h5 => ?_, fun s p c hp hc hworks => ?_, fun h c hheld => ⟨HatPort.gather_next hheld, HatPort.gather_ahead hheld⟩,
    fun s p f hp hworks => ⟨fun hf => ?_, fun hf => ?_⟩, fun h ack => ⟨fun hle => if_pos hle, fun hlt => if_neg (Nat.not_le.mpr hlt)⟩,
    fun s p ack hp hworks => ?_, fun s p width lanes => State.trainPort_eq width lanes, fun s p lanes hp => ?_,
    fun s t m p hm hp hreach => ?_, fun s p => rfl⟩
  · have hoff : ¬ s.PortWorks p := fun h => h.elim h2 h5
    rw [receives s hp hc, naks s hp, timesOut s hp, retrains s hp, State.codewordIn_off hoff, State.nak_off hoff,
      State.replayTimeout_off hoff, State.retrain_off hoff]
    exact ⟨rfl, rfl, rfl, rfl⟩
  · rw [receives s hp hc, State.codewordIn_on hworks]
    refine ⟨fun h => ?_, fun h => ?_⟩
    · rw [State.takePiece_dropped (s := s.countFec p c.fec) fun hplaced => h (State.placed_iff.mp hplaced)]
      rfl
    · rw [State.takePiece_taken (s := s.countFec p c.fec) (State.placed_iff.mpr h)]
      rfl
  · rw [State.flitReceive_broken hworks hf]
    refine ⟨fun h => ?_, fun ht hbad => by rw [if_pos ht, State.dropFlit_new hbad]⟩
    split
    · next ht => exact State.dropFlit_again (h.resolve_left (not_not.mpr ht))
    · rfl
  · refine ⟨fun ht => State.flitReceive_idle hworks hf ht, fun ht hseq => ?_, fun ht hseq => ?_,
      fun ht => State.flitReceive_nak hworks hf ht⟩
    · exact (State.flitReceive_data hworks hf ht).trans (congrArg (State.flushPort · p) (if_pos hseq))
    · exact (State.flitReceive_data hworks hf ht).trans (congrArg (State.flushPort · p) (if_neg hseq))
  · dsimp only
    rw [timesOut s hp, naks s hp, retrains s hp, State.replayTimeout_on hworks, State.nak_on hworks, State.retrain_on hworks]
    refine ⟨fun h => by rw [State.replay_none h], fun h hfew => ?_, fun h hmany => ?_, rfl, rfl⟩
    · rw [State.replay_some h]
      exact congrArg (fun x => Host.Outcome.next (s.seal x)) (if_neg (Nat.not_le.mpr hfew))
    · rw [State.replay_some h]
      exact congrArg (fun x => Host.Outcome.next (s.seal x)) (if_pos hmany)
  · have ends : exec (.trainingAttemptEnd p lanes) s = .next (s.seal (s.trainingEnd p lanes.toNat)) := done_of (decide_eq_true hp) s _
    dsimp only
    rw [ends]
    refine ⟨fun h => by rw [State.trainingEnd_off h], fun h => ⟨fun l hl => by rw [State.trainingEnd_up h hl]; rfl, fun hl => ?_⟩⟩
    rw [State.trainingEnd_fails h hl]
    dsimp only
    refine ⟨fun hnone => by rw [if_pos hnone]; rfl, fun hsome hfew hneeds => ?_, fun hsome hgive => ?_⟩
    · rw [if_neg hsome, if_pos (by simp [hfew, hneeds])]
      rfl
    · rw [if_neg hsome, if_neg (by simp; omega)]
      exact ⟨fun hw => by rw [if_pos hw]; rfl, fun hw => by rw [if_neg (Nat.not_le.mpr hw)]; rfl⟩
  · have hok : (okMaster m && okPort p) = true := by simp [okMaster, okPort, hm, hp]
    have restores : exec (.portRestore m p) s = .next (s.seal (t.portCtl m p (t.cmdWord (Reg.HAT_PORT_CTL p) 1 2 2 1)).acked) :=
      (done_of hok s _).trans (by rw [State.regDo_of hreach])
    have retires : exec (.portRetire m p) s = .next (s.seal (t.portCtl m p (t.cmdWord (Reg.HAT_PORT_CTL p) 1 1 1 1)).acked) :=
      (done_of hok s _).trans (by rw [State.regDo_of hreach])
    dsimp only
    rw [restores, retires, State.portCtl_keep hp (by rw [State.cmdWord_testBit]; simp),
      State.portCtl_keep hp (by rw [State.cmdWord_testBit]; simp)]
    simp only [State.cmdWord_testBit]
    refine ⟨fun h => ?_, fun h0 hctl => ?_, rfl⟩
    · rcases h with h | h <;> simp [h]
    · simp [h0, hctl]

end Sys2Proof.Machine
end

section
/-! Packets in transit (R374, R379, R382): what is never forwarded, and where a route leads. -/

namespace Sys2Proof.Machine

section
variable {s : State} {p : Nat} {k : Packet}

theorem State.transit_hello (hop : k.op = 0x20) (hgood : packetBad k = false) : s.transit p k = s := if_pos (by simp [hop, hgood])

/-- A message of the hinge that this module accepts on port `p`. -/
def State.HingeTakes (s : State) (p : Nat) (k : Packet) : Prop :=
  6 ≤ p ∧ s.pairRole ≠ 0 ∧ packetBad k = false ∧ (k.op = 0x27 → k.aux % 256 = 1 ∨ k.aux % 256 = 2)

theorem State.transit_hinge (hp : p < 8) (hop : k.op ∈ [0x25, 0x26, 0x27]) :
    (s.HingeTakes p k → s.transit p k = s) ∧ (¬ s.HingeTakes p k → s.transit p k = s.rxDiscard) := by
  have hno : ¬ (decide (k.op = 0x20) && !packetBad k) = true := by
    simp only [List.mem_cons, List.not_mem_nil, or_false] at hop
    rw [Bool.and_eq_true, decide_eq_true_eq]
    omega
  have hin : [0x25, 0x26, 0x27].contains k.op = true := List.contains_iff_mem.mpr hop
  have htakes : (s.pairAccepts p k && (k.op ≠ 0x27 || k.aux % 256 = 1 || k.aux % 256 = 2)) = true ↔ s.HingeTakes p k := by
    have himp : (k.op = 0x27 → k.aux % 256 = 1 ∨ k.aux % 256 = 2) ↔ (k.op ≠ 0x27 ∨ k.aux % 256 = 1) ∨ k.aux % 256 = 2 := by
      rw [or_assoc, imp_iff_not_or]
    simp [State.pairAccepts, State.HingeTakes, himp, hp, and_assoc]
  unfold State.transit
  rw [if_neg hno, if_pos hin]
  exact ⟨fun h => if_pos (htakes.mpr h), fun h => if_neg fun h' => h (htakes.mp h')⟩

theorem State.transit_other (hop : k.op ∉ [0x20, 0x25, 0x26, 0x27]) : s.transit p k = s.forward k := by
  simp only [List.mem_cons, List.not_mem_nil, or_false, not_or] at hop
  obtain ⟨h20, h25, h26, h27⟩ := hop
  exact (if_neg (by simp [h20])).trans (if_neg (by simp [h25, h26, h27]))

theorem State.forward_discarded (h : packetBad k = true ∨ (k.hops = 0 ∧ s.ownFid ≠ some k.dst)) : s.forward k = s.rxDiscard := by
  refine if_pos ?_
  rw [Bool.or_eq_true, Bool.and_eq_true, decide_eq_true_eq, decide_eq_true_eq]
  exact h

section
variable (hgood : packetBad k = false)
include hgood

theorem State.forward_mine (hmine : s.ownFid = some k.dst) : s.forward k = s := (if_neg (by simp [hgood, hmine])).trans (if_pos hmine)

section
variable (hhops : k.hops ≠ 0) (hother : s.ownFid ≠ some k.dst)
include hhops hother

theorem State.forward_port {q : Nat} (h : (s.route k.dst).1 = .port q ∨ (s.route k.dst).1 = .hold q) :
    s.forward k = (s.route k.dst).2.putPacket q { k with hops := k.hops - 1 } := by
  unfold State.forward
  rw [if_neg (by simp [hgood, hhops]), if_neg hother]
  generalize s.route k.dst = r at h
  obtain ⟨goal, u⟩ := r
  rcases h with h | h <;> cases h <;> rfl

theorem State.forward_unreachable (h : (s.route k.dst).1 = .unreachable) :
    s.forward k =
      if k.vc = 0 || k.vc = 3 then
        (s.route k.dst).2.replyTo k (if k.op = 1 then 0x10 else 0x11) 1 St.fabricUnreachable 0 [] false
      else (s.route k.dst).2 := by
  unfold State.forward
  rw [if_neg (by simp [hgood, hhops]), if_neg hother]
  generalize s.route k.dst = r at h
  obtain ⟨goal, u⟩ := r
  cases h
  rfl

end
end

/-- The value of a route entry is the lower half of its pair. -/
theorem bits_low_half (e : Nat) {hi lo : Nat} (h : hi < 32) : bits (e % 2 ^ 32) hi lo = bits e hi lo := by
  apply Nat.eq_of_testBit_eq
  intro i
  rw [testBit_bits, testBit_bits, Nat.testBit_mod_two_pow]
  by_cases hi' : i < hi + 1 - lo
  · rw [decide_eq_true (by omega : lo + i < 32), Bool.true_and]
  · rw [decide_eq_false hi']
    rfl

section
variable {d : Nat} (hother : s.ownFid ≠ some d)
include hother

theorem State.route_broken (h : cp32Ok (s.rd64 (s.routeAt (s.fld Reg.HAT_ROUTE_CTL 0 0) d)) = false) :
    s.route d =
      (.unreachable, (s.raise Reg.HAT_INT_STATUS 2).report
        ⟨St.complementMismatch, Tgt.hatch, 2, 0x200, regDpa (s.routeAt (s.fld Reg.HAT_ROUTE_CTL 0 0) d), 0xFFFF, d⟩) := by
  have hentry : s.routeEntry d =
      (none, (s.raise Reg.HAT_INT_STATUS 2).report
        ⟨St.complementMismatch, Tgt.hatch, 2, 0x200, regDpa (s.routeAt (s.fld Reg.HAT_ROUTE_CTL 0 0) d), 0xFFFF, d⟩) :=
    if_neg (by
      unfold State.activeBank
      rw [h]
      decide)
  unfold State.route
  rw [if_neg hother, hentry]

theorem State.route_whole {e : Nat} (he : s.rd64 (s.routeAt (s.fld Reg.HAT_ROUTE_CTL 0 0) d) = e) (h : cp32Ok e = true) :
    s.route d =
      if !e.testBit 31 then (.unreachable, s)
      else if s.portTakes (bits e 3 0) then (.port (bits e 3 0), s)
      else if e.testBit 30 && s.portTakes (bits e 7 4) then (.port (bits e 7 4), s)
      else if s.portTrains (bits e 3 0) then (.hold (bits e 3 0), s)
      else if e.testBit 30 && s.portTrains (bits e 7 4) then (.hold (bits e 7 4), s)
      else (.unreachable, s) := by
  have hentry : s.routeEntry d = (some (e % 2 ^ 32), s) := by
    unfold State.routeEntry State.activeBank
    rw [he]
    exact if_pos h
  have bit (i : Nat) (hi : i < 32) : (e % 2 ^ 32).testBit i = e.testBit i := by
    rw [Nat.testBit_mod_two_pow, decide_eq_true hi, Bool.true_and]
  unfold State.route
  rw [if_neg hother, hentry]
  dsimp only
  rw [bits_low_half e (by decide), bits_low_half e (by decide), bit 31 (by decide), bit 30 (by decide)]

end

theorem State.packetTimeout_stays (h : s.portState p = 3 ∨ k ∉ FMap.getD s.portQueue p) : s.packetTimeout p k = s := by
  refine if_pos ?_
  rw [Bool.or_eq_true, decide_eq_true_eq]
  exact h.imp_right (by simp)

theorem State.packetTimeout_drops (h : s.portState p ≠ 3) (hin : k ∈ FMap.getD s.portQueue p) :
    s.packetTimeout p k =
      State.count { s with portQueue := FMap.setD s.portQueue p ((FMap.getD s.portQueue p).erase k) } (Reg.HAT_PORT_DROPS p) 31 0 1 :=
  if_neg (by simp [h, hin])

end

end Sys2Proof.Machine
end

section
/-! Packets for this node (R385 to R390). -/

namespace Sys2Proof.Machine

section
variable {s : State} {k : Packet} {op : Nat}

theorem State.notHere_bad (h : packetBad k = true) : s.notHere k op = some s.rxDiscard := if_pos (by rw [h]; rfl)

section
variable (hop : k.op = op) (hgood : packetBad k = false)
include hop hgood

theorem State.notHere_transit (h : s.ownFid ≠ some k.dst) : s.notHere k op = some (s.forward k) :=
  (if_neg (by simp [hop, hgood])).trans (if_pos h)

theorem State.notHere_mine (h : s.ownFid = some k.dst) : s.notHere k op = none :=
  (if_neg (by simp [hop, hgood])).trans (if_neg (not_not.mpr h))

end

/-- What the row of an OP does with a packet that comes in. -/
def State.hatchServe (s : State) (op : Nat) (k : Packet) : State :=
  match op with
  | 1 => s.hatchRead k
  | 2 => s.hatchWrite k
  | 3 => s.hatchLand k 3
  | 4 => s.hatchLand k 4
  | 5 => s.hatchStream k 5
  | 6 => s.hatchStream k 6
  | 0x12 => s.hatchCredit k
  | op => s.responseIn op k

/-- The rows of the packets that are for a node's memory, queues, streams and transactions. -/
def hatchInstrs (p : Nat) (k : Packet) : List (Nat × Instr) :=
  [(1, .hatchRead p k), (2, .hatchWrite p k), (3, .hatchSubmit p k), (4, .hatchNotify p k), (5, .hatchStream p k),
    (6, .hatchStreamEnd p k), (0x10, .readData p k), (0x11, .hatchAck p k), (0x12, .streamCredit p k)]

theorem exec_hatchInstr {p : Nat} {c : Instr} (hp : p < 8) (hk : k.ok = true) (hrec : s.Receives p op k)
    (hc : (op, c) ∈ hatchInstrs p k) : exec c s = .next (s.seal (s.hatchServe op k)) := by
  simp only [hatchInstrs, List.mem_cons, List.not_mem_nil, or_false, Prod.mk.injEq] at hc
  rcases hc with ⟨rfl, rfl⟩ | ⟨rfl, rfl⟩ | ⟨rfl, rfl⟩ | ⟨rfl, rfl⟩ | ⟨rfl, rfl⟩ | ⟨rfl, rfl⟩ | ⟨rfl, rfl⟩ | ⟨rfl, rfl⟩ | ⟨rfl, rfl⟩ <;>
    exact done_packetIn hp hk hrec _

theorem hatchInstr_op {p : Nat} {c : Instr} (hc : (op, c) ∈ hatchInstrs p k) : op ∈ [1, 2, 3, 4, 5, 6, 0x10, 0x11, 0x12] :=
  List.mem_map_of_mem (f := Prod.fst) hc

theorem State.hatchServe_elsewhere {u : State} (hop : op ∈ [1, 2, 3, 4, 5, 6, 0x10, 0x11, 0x12]) (h : s.notHere k op = some u) :
    s.hatchServe op k = u := by
  simp only [List.mem_cons, List.not_mem_nil, or_false] at hop
  rcases hop with rfl | rfl | rfl | rfl | rfl | rfl | rfl | rfl | rfl <;>
    simp only [State.hatchServe, State.hatchRead, State.hatchWrite, State.hatchLand, State.hatchStream, State.hatchCredit,
      State.responseIn, h]

section
variable (h : s.notHere k op = none)
include h

theorem State.hatchServe_back (hop : op ∈ [1, 2, 3, 4]) (hrole : s.role = some true) : s.hatchServe op k = s.crossHinge k := by
  simp only [List.mem_cons, List.not_mem_nil, or_false] at hop
  rcases hop with rfl | rfl | rfl | rfl <;>
    simp only [State.hatchServe, State.hatchRead, State.hatchWrite, State.hatchLand, h, hrole, if_true]

theorem State.hatchServe_response (hop : op = 0x10 ∨ op = 0x11) : s.hatchServe op k = s.response bus k := by
  rcases hop with rfl | rfl <;> simp only [State.hatchServe, State.responseIn, h]

theorem State.hatchServe_credit {n : Nat} (hop : op = 0x12) (hn : s.localTile (bits k.aux 15 9) = some n) :
    s.hatchServe op k = s.creditArrive n (bits k.aux 8 4) (k.aux % 16) k.aux2 := by
  subst hop
  simp only [State.hatchServe, State.hatchCredit, h, hn]

/-- An inbound channel takes a remote stream's packets: those of its sender. -/
def State.StreamMine (s : State) (n ch : Nat) (k : Packet) : Prop :=
  s.ichValid n ch = true ∧ s.bit (Reg.TIL_ICH_CFG n ch) 24 = true ∧ s.fld (Reg.TIL_ICH_SRC n ch) 29 12 = k.src

theorem State.hatchServe_stream {n : Nat} (hop : op = 5 ∨ op = 6) (hn : s.localTile (bits k.aux 15 9) = some n) :
    let ch := bits k.aux 8 4
    let body : NocBody := if op = 5 then .elems (elemsOf (s.ichEb n ch) k.payload) true k.poison else .endMark
    (s.StreamMine n ch k → s.hatchServe op k = (s.streamArrive n ch (k.aux % 16) body).replyTo k 0x11 1 St.ok 0 [] false) ∧
    (¬ s.StreamMine n ch k → s.hatchServe op k = s.replyTo k 0x11 1 St.ok 0 [] false) := by
  have hserve : s.hatchServe op k = s.hatchStream k op := by rcases hop with rfl | rfl <;> rfl
  have hmine (ch : Nat) :
      (s.ichValid n ch && s.bit (Reg.TIL_ICH_CFG n ch) 24 && decide (s.fld (Reg.TIL_ICH_SRC n ch) 29 12 = k.src)) = true ↔
        s.StreamMine n ch k := by
    simp [State.StreamMine, and_assoc]
  rw [hserve]
  unfold State.hatchStream
  rw [h]
  dsimp only
  rw [hn]
  dsimp only
  exact ⟨fun hm => congrArg (State.replyTo · k 0x11 1 St.ok 0 [] false) (if_pos ((hmine _).mpr hm)),
    fun hm => congrArg (State.replyTo · k 0x11 1 St.ok 0 [] false) (if_neg fun hm' => hm ((hmine _).mp hm'))⟩

end

/-! READ and WRITE (R385). -/

section
variable (h : s.notHere k op = none) (hrole : s.role ≠ some true)
include h hrole

theorem State.hatchRead_refused {u : State} {st : Nat} (hop : op = 1) (hin : s.ingress k Rights.read = (.error st, u)) :
    s.hatchServe op k = u.replyTo k 0x10 1 st 0 [] false := by
  subst hop
  simp only [State.hatchServe, State.hatchRead, h, if_neg hrole, hin]

theorem State.hatchWrite_refused {u : State} {st : Nat} (hop : op = 2) (hin : s.ingress k Rights.write = (.error st, u)) :
    s.hatchServe op k = u.replyTo k 0x11 1 st 0 [] false := by
  subst hop
  simp only [State.hatchServe, State.hatchWrite, h, if_neg hrole, hin]

/-- The half that serves a packet's request has answered it: no answer of the hinge is kept for it. -/
def State.farTaken (v : State) (r : Request) : State := { v with far := v.far.filter (fun f => f.done.isNone || f.req ≠ r) }

theorem State.hatchRead_serves {u v : State} {dpa m : Nat} {a : MemAnswer} (hop : op = 1)
    (hin : s.ingress k Rights.read = (.ok (dpa, m), u))
    (hreq : u.request memoryBus ⟨m, dpa, k.len, .read, [], false⟩ false = (a, v)) :
    s.hatchServe op k =
      if a.status = St.held then v
      else
        let st := if a.status ≠ St.ok then a.status else if a.poison then St.poisonedData else St.ok
        (v.farTaken ⟨m, dpa, k.len, .read, [], false⟩).replyTo k 0x10 1 st 0 (if st = St.ok then a.data else []) false := by
  subst hop
  simp only [State.hatchServe, State.hatchRead, h, if_neg hrole, hin, State.arriving, hreq]
  by_cases hheld : a.status = St.held
  · rw [if_pos hheld, if_pos hheld, if_pos hheld]
  · rw [if_neg hheld, if_neg hheld, if_neg hheld]
    rfl

theorem State.hatchWrite_serves {u v : State} {dpa m : Nat} {a : MemAnswer} (hop : op = 2)
    (hin : s.ingress k Rights.write = (.ok (dpa, m), u))
    (hreq : u.request memoryBus ⟨m, dpa, k.len, .write, k.payload, false⟩ k.poison = (a, v)) :
    s.hatchServe op k =
      if a.status = St.held then v
      else (v.farTaken ⟨m, dpa, k.len, .write, k.payload, false⟩).replyTo k 0x11 1 a.status 0 [] false := by
  subst hop
  simp only [State.hatchServe, State.hatchWrite, h, if_neg hrole, hin, State.arriving, hreq]
  by_cases hheld : a.status = St.held
  · rw [if_pos hheld, if_pos hheld, if_pos hheld]
  · rw [if_neg hheld, if_neg hheld, if_neg hheld]
    rfl

/-! SUBMIT and NOTIFY (R387). -/

section
variable (hop : op = 3 ∨ op = 4)
include hop

theorem State.hatchLand_noClass {u : State} (hclass : s.sourceClass k = (none, u)) :
    s.hatchServe op k =
      (u.report ⟨St.accessDenied, Tgt.hatch, 2, 0x200, 0x800000000000 + 65536 * (k.aux % 64), k.tag, k.src⟩).replyTo k 0x11 1
        St.accessDenied 0 [] false := by
  rcases hop with rfl | rfl <;> simp only [State.hatchServe, State.hatchLand, h, if_neg hrole, hclass]

theorem State.hatchLand_judged {u w : State} {cl v : Nat} (hclass : s.sourceClass k = (some cl, u))
    (hjudge : u.judge 0x09 (0x200 + cl) (0x800000000000 + 65536 * (k.aux % 64)) 128 Rights.write = (v, w)) :
    (v ≠ St.ok → s.hatchServe op k = w.replyTo k 0x11 1 v 0 [] false) ∧
    (v = St.ok → ∀ st x, w.landing k (k.aux % 64) = (st, x) → st ≠ St.held →
      s.hatchServe op k = x.replyTo k 0x11 1 st 0 [] false) := by
  have hserve : s.hatchServe op k = if v ≠ St.ok then w.replyTo k 0x11 1 v 0 [] false else
      if (w.landing k (k.aux % 64)).1 = St.held then (w.landing k (k.aux % 64)).2
      else (w.landing k (k.aux % 64)).2.replyTo k 0x11 1 (w.landing k (k.aux % 64)).1 0 [] false := by
    rcases hop with rfl | rfl <;> simp only [State.hatchServe, State.hatchLand, h, if_neg hrole, hclass, hjudge]
  rw [hserve]
  refine ⟨fun hv => if_pos hv, fun hv st x hland hst => ?_⟩
  rw [if_neg (not_not.mpr hv), hland]
  exact if_neg hst

end
end

theorem State.response_none (hgood : packetBad k = false) (htx : s.txOf k.tag = none) : s.response bus k = s := by
  unfold State.response
  rw [if_neg (by rw [hgood]; decide), htx]

theorem State.response_some (hgood : packetBad k = false) {x : Tx} (htx : s.txOf k.tag = some x) :
    s.response bus k = s.endTx bus x k.status k.payload k.poison := by
  unfold State.response
  rw [if_neg (by rw [hgood]; decide), htx]

/-! The checks of an arriving request (R385), and a landing queue's entry (R387). -/

theorem State.ingress_classed {u : State} {n : Rights} {cl : Nat} (hclass : s.sourceClass k = (some cl, u)) :
    s.ingress k n =
      if k.len = 0 || 4096 < k.len then (.error St.invalidField, u)
      else if !u.bit (Reg.HAT_EXP_SIZE (bits k.addr 46 40)) 31
          || 65536 * u.fld (Reg.HAT_EXP_SIZE (bits k.addr 46 40)) 23 0 < bits k.addr 39 0 + k.len then
        (.error St.accessDenied,
          u.report ⟨St.accessDenied, Tgt.hatch, 2, 0x200 + cl, k.addr % 2 ^ 48, k.tag, bits k.addr 46 40⟩)
      else
        let (v, x) := u.judge 0x09 (0x200 + cl) (k.addr % 2 ^ 47) k.len n
        if v ≠ St.ok then (.error v, x)
        else (.ok (x.rd64 (Reg.HAT_EXP_BASE_LO (bits k.addr 46 40)) + bits k.addr 39 0, 0x200 + cl), x) := by
  unfold State.ingress
  dsimp only
  rw [hclass]

section
variable {q : Nat}

theorem State.landing_off (h : s.bit (Reg.HAT_LQ_CTL q) 0 = false ∨ s.bit (Reg.HAT_LQ_STATUS q) 31 = true) :
    s.landing k q = (St.invalidField, s) := if_pos (by simpa using h)

/-- The pairs of a landing queue's context match. -/
def lqWhole (c : List Byte) : Bool := pair64At c 0 && pair64At c 0x10 && pair32At c 0x20 && pair32At c 0x28

/-- The depth of a landing queue is known from its context. -/
def State.lqSized (u : State) (q d : Nat) : State := { u with hat := { u.hat with lqDepth := FMap.setD u.hat.lqDepth q d } }

section
variable (hon : s.bit (Reg.HAT_LQ_CTL q) 0 = true) (herr : s.bit (Reg.HAT_LQ_STATUS q) 31 = false) {a : MemAnswer} {u : State}
  (hread : s.readMem 0x200 (s.rd64 (Reg.HAT_LQ_CTX_LO q)) 64 = (a, u)) (hst : a.status = St.ok) (hpoison : a.poison = false)
include hon herr hread hst hpoison

theorem State.landing_broken (hbad : lqWhole a.data = false) : s.landing k q = (St.complementMismatch, u.lqMismatch k q) := by
  unfold lqWhole at hbad
  unfold State.landing
  rw [if_neg (by simp [hon, herr]), hread]
  dsimp only
  rw [if_neg (by rw [hst]; decide), if_neg (by simp [hst, hpoison]), hbad]
  rfl

section
variable (hwhole : lqWhole a.data = true)
include hwhole

theorem State.landing_outside (hctx : u.lqCtxOk a.data = false) : s.landing k q = (St.invalidField, u.lqFail q) := by
  unfold lqWhole at hwhole
  unfold State.landing
  rw [if_neg (by simp [hon, herr]), hread]
  dsimp only
  rw [if_neg (by rw [hst]; decide), if_neg (by simp [hst, hpoison]), hwhole, if_neg (by decide), hctx]
  rfl

variable (hctx : u.lqCtxOk a.data = true)
include hctx

theorem State.landing_full
    (hfull : (u.fld (Reg.HAT_LQ_STATUS q) 15 0 + 1) % ctxDepth a.data =
      (u.lqSized q (ctxDepth a.data)).fld (Reg.HAT_LQ_HEAD q) 15 0) :
    s.landing k q = (St.tableFull, u.lqSized q (ctxDepth a.data)) := by
  unfold lqWhole at hwhole
  unfold State.landing
  rw [if_neg (by simp [hon, herr]), hread]
  dsimp only
  rw [if_neg (by rw [hst]; decide), if_neg (by simp [hst, hpoison]), hwhole, if_neg (by decide), hctx, if_neg (by decide)]
  exact if_pos hfull

theorem State.landing_lands {v w : State}
    (hroom : (u.fld (Reg.HAT_LQ_STATUS q) 15 0 + 1) % ctxDepth a.data ≠
      (u.lqSized q (ctxDepth a.data)).fld (Reg.HAT_LQ_HEAD q) 15 0)
    (hinside : u.fld (Reg.HAT_LQ_STATUS q) 15 0 + 1 ≠ ctxDepth a.data) (hquiet : (ctxAttr a.data).testBit 31 = false)
    (hbody : (u.lqSized q (ctxDepth a.data)).writeMem 0x200
      (ctxSub a.data + 128 * u.fld (Reg.HAT_LQ_STATUS q) 15 0 + 4) ((lqEntry k).drop 4) = (St.ok, v))
    (hword : v.writeMem 0x200 (ctxSub a.data + 128 * u.fld (Reg.HAT_LQ_STATUS q) 15 0)
      (natLE 4 (fieldLE (lqEntry k) 0 4 + 2 ^ 31 * bit01 (v.lqPhase q))) = (St.ok, w)) :
    s.landing k q = (St.ok, w.setFld (Reg.HAT_LQ_STATUS q) 15 0 (u.fld (Reg.HAT_LQ_STATUS q) 15 0 + 1)) := by
  unfold lqWhole at hwhole
  unfold State.lqSized at hroom hbody
  unfold State.landing
  rw [if_neg (by simp [hon, herr]), hread]
  dsimp only
  rw [if_neg (by rw [hst]; decide), if_neg (by simp [hst, hpoison]), hwhole, if_neg (by decide), hctx, if_neg (by decide),
    if_neg hroom, hbody]
  dsimp only
  rw [hword]
  dsimp only
  rw [if_neg (by simp), if_neg hinside, if_neg hinside, if_neg (by rw [hquiet]; decide)]

end
end
end
end

/-- Settles O42: a packet in transit by its route, and one for this node by the row of its OP. -/
theorem packetsAreForwardedServedAndAnswered : Obligations.PacketsAreForwardedServedAndAnswered := by
  refine ⟨fun s p k hp hk hrec => ?_, fun s d hother => ?_, fun s p k hp hk => ?_, fun s p op k c hp hk hrec hc => ?_,
    fun s u k n cl hclass => ?_, fun s k q => ⟨State.landing_off, fun hon herr a u hread hst hpoison =>
      ⟨fun hbad => State.landing_broken hon herr hread hst hpoison (Bool.eq_false_iff.mpr hbad),
        State.landing_outside hon herr hread hst hpoison, State.landing_full hon herr hread hst hpoison,
        fun hgood hctx hroom hinside hquiet v w hbody hword =>
          State.landing_lands hon herr hread hst hpoison hgood hctx hroom hinside hquiet hbody hword⟩⟩⟩
  · have runs : exec (.hatchPacketForward p k) s = .next (s.seal (s.transit p k)) := done_packetIn hp hk hrec _
    dsimp only
    rw [runs]
    refine ⟨fun hop hgood => by rw [State.transit_hello hop hgood], fun hop => ?_, fun hop => ?_⟩
    · obtain ⟨htakes, hdiscards⟩ := State.transit_hinge (s := s) hp hop
      exact ⟨fun h => by rw [htakes h], fun h => by rw [hdiscards h]; rfl⟩
    · rw [State.transit_other hop]
      refine ⟨fun h => by rw [State.forward_discarded h]; rfl, fun hgood hmine => by rw [State.forward_mine hgood hmine],
        fun hgood hhops hother => ⟨fun q h => by rw [State.forward_port hgood hhops hother h], fun h => ?_⟩⟩
      rw [State.forward_unreachable hgood hhops hother h]
      exact ⟨fun hvc => by rw [if_pos (by simpa using hvc)], fun h0 h3 => by rw [if_neg (by simp [h0, h3])]⟩
  · refine ⟨State.route_broken hother, fun hwhole => ?_⟩
    rw [State.route_whole hother rfl hwhole]
    generalize s.rd64 (s.routeAt (s.fld Reg.HAT_ROUTE_CTL 0 0) d) = e
    refine ⟨?_, fun hv => by rw [if_pos (by rw [hv]; rfl)], fun hv => ?_⟩
    · split_ifs <;> rfl
    · rw [if_neg (by rw [hv]; decide)]
      refine ⟨fun hp => by rw [if_pos hp], fun hp halt ha => by rw [if_neg (by rw [hp]; decide), if_pos (by rw [halt, ha]; rfl)],
        fun hp ha => ?_⟩
      rw [if_neg (by rw [hp]; decide), if_neg (by rw [Bool.and_eq_true]; exact ha)]
      exact ⟨fun ht => by rw [if_pos ht], fun ht halt hta => by rw [if_neg (by rw [ht]; decide), if_pos (by rw [halt, hta]; rfl)],
        fun ht hta => by rw [if_neg (by rw [ht]; decide), if_neg (by rw [Bool.and_eq_true]; exact hta)]⟩
  · have times : exec (.packetPortTimeout p k) s = .next (s.seal (s.packetTimeout p k)) := done_of (by simp [okPort, hp, hk]) s _
    dsimp only
    rw [times]
    exact ⟨fun h => by rw [State.packetTimeout_stays h], fun h hin => by rw [State.packetTimeout_drops h hin]⟩
  · have hop : k.op = op := hrec.1
    have hops := hatchInstr_op hc
    rw [exec_hatchInstr hp hk hrec hc]
    refine ⟨fun hbad => by rw [State.hatchServe_elsewhere hops (State.notHere_bad hbad)],
      fun hgood hother => by rw [State.hatchServe_elsewhere hops (State.notHere_transit hop hgood hother)], fun hgood hmine => ?_⟩
    have here := State.notHere_mine hop hgood hmine
    refine ⟨fun hrole hle => ?_, fun hrole h12 => ⟨fun st u hin => ?_, fun dpa m u hin a v hreq => ?_⟩,
      fun hrole h34 => ⟨fun u hclass => by rw [State.hatchLand_noClass here hrole h34 hclass], fun cl u v w hclass hjudge => ?_⟩,
      fun h56 n hn => ?_, fun h18 n hn => by rw [State.hatchServe_credit here h18 hn], fun hresp => ?_⟩
    · have hlow : op ∈ [1, 2, 3, 4] := by
        simp only [List.mem_cons, List.not_mem_nil, or_false] at hops ⊢
        omega
      rw [State.hatchServe_back here hlow hrole]
      rfl
    · rcases h12 with rfl | rfl
      · rw [State.hatchRead_refused here hrole rfl hin]
        rfl
      · rw [State.hatchWrite_refused here hrole rfl hin]
        rfl
    · rcases h12 with rfl | rfl
      · rw [State.hatchRead_serves here hrole rfl hin hreq]
        refine ⟨fun h => by rw [if_pos h], fun h => ⟨fun _ => ?_, fun h => absurd h (by decide)⟩⟩
        rw [if_neg h]
        rfl
      · rw [State.hatchWrite_serves here hrole rfl hin hreq]
        refine ⟨fun h => by rw [if_pos h], fun h => ⟨fun h => absurd h (by decide), fun _ => ?_⟩⟩
        rw [if_neg h]
        rfl
    · obtain ⟨hrefuses, hlands⟩ := State.hatchLand_judged here hrole h34 hclass hjudge
      exact ⟨fun hv => by rw [hrefuses hv], fun hv st x hland hst => by rw [hlands hv st x hland hst]⟩
    · obtain ⟨htakes, hdiscards⟩ := State.hatchServe_stream here h56 hn
      exact ⟨fun h => by rw [htakes h], fun h => by rw [hdiscards h]⟩
    · rw [State.hatchServe_response here hresp]
      exact ⟨fun htx => by rw [State.response_none hgood htx], fun x htx => by rw [State.response_some hgood htx]⟩
  · dsimp only
    rw [State.ingress_classed hclass]
    refine ⟨fun h => if_pos (by simpa using h), fun hpos hle => ?_⟩
    rw [if_neg (by simp; omega)]
    refine ⟨fun h => if_pos (by simp [h]), fun h => if_pos (by simp [h]), fun hvalid hfits v x hjudge => ?_⟩
    rw [if_neg (by simp [hvalid]; omega), hjudge]
    exact ⟨fun hv => if_pos hv, fun hv => if_neg (not_not.mpr hv)⟩

end Sys2Proof.Machine
end

section
/-! Requests to the remote aperture (R384). -/

namespace Sys2Proof.Machine

section
variable {s : State} {r : Request} {n o : Nat}

/-- The answer that has come for a request. -/
def State.farCome (s : State) (r : Request) : Option (Nat × List Byte × Bool) :=
  (s.far.find? (fun f => f.req = r && f.done.isSome)).bind (·.done)

theorem State.farRequest_come {g : Region} {p : Bool} {st : Nat} {d : List Byte} {q : Bool} (h : s.farCome r = some (st, d, q)) :
    s.farRequest g r p = (⟨st, d, q⟩, s) := by
  unfold State.farCome at h
  unfold State.farRequest
  rw [h]

section
variable {p : Bool} (hnone : s.farCome r = none)
include hnone

theorem State.farRequest_busy {g : Region} (h : s.farBusy r = true) : s.farRequest g r p = (MemAnswer.stop St.held, s) := by
  unfold State.farCome at hnone
  unfold State.farRequest
  rw [hnone]
  exact if_pos h

section
variable (hfree : s.farBusy r = false)
include hfree

theorem State.farRequest_refused (h : (s.apertureCheck n r.master (r.kind ≠ .write) (r.kind = .write)).1 ≠ St.ok) :
    s.farRequest (.remote n o) r p =
      let st := (s.apertureCheck n r.master (r.kind ≠ .write) (r.kind = .write)).1
      (MemAnswer.stop st, s.report ⟨st, Tgt.hatch, 2, r.master, r.dpa, 0xFFFF, n⟩) := by
  unfold State.farCome at hnone
  unfold State.farRequest
  rw [hnone]
  dsimp only
  rw [if_neg (by rw [hfree]; decide)]
  generalize s.apertureCheck n r.master (r.kind ≠ .write) (r.kind = .write) = c at h ⊢
  obtain ⟨st, fid, win⟩ := c
  cases st with
  | zero => exact absurd rfl h
  | succ st => rfl

/-- An admitted request of the aperture takes a tag and leaves as a packet. -/
def State.farSend (s : State) (r : Request) (o fid win : Nat) (p : Bool) : MemAnswer × State :=
  match s.freeTag with
  | none => (MemAnswer.stop St.held, s)
  | some tag =>
    match s.sendPacket (aperturePacket s.srcFid fid win o tag r p) with
    | (.error st, u) => (MemAnswer.stop st, u)
    | (.ok port, u) => u.farLeave r tag port

theorem State.farRequest_admitted {fid win : Nat}
    (hcheck : s.apertureCheck n r.master (r.kind ≠ .write) (r.kind = .write) = (St.ok, fid, win)) :
    s.farRequest (.remote n o) r p = s.farSend r o fid win p := by
  unfold State.farCome at hnone
  unfold State.farRequest
  rw [hnone]
  dsimp only
  rw [if_neg (by rw [hfree]; decide), hcheck]
  rfl

end
end

section
variable {fid win : Nat} {p : Bool}

theorem State.farSend_noTag (htag : s.freeTag = none) : s.farSend r o fid win p = (MemAnswer.stop St.held, s) := by
  unfold State.farSend
  rw [htag]

section
variable {tag : Nat} (htag : s.freeTag = some tag) {u : State}
include htag

theorem State.farSend_unsent {st : Nat} (hsend : s.sendPacket (aperturePacket s.srcFid fid win o tag r p) = (.error st, u)) :
    s.farSend r o fid win p = (MemAnswer.stop st, u) := by
  unfold State.farSend
  rw [htag]
  dsimp only
  rw [hsend]

theorem State.farSend_sent {port : Nat} (hsend : s.sendPacket (aperturePacket s.srcFid fid win o tag r p) = (.ok port, u)) :
    s.farSend r o fid win p = u.farLeave r tag port := by
  unfold State.farSend
  rw [htag]
  dsimp only
  rw [hsend]

end
end

theorem State.farLeave_eq (u : State) (r : Request) (tag port : Nat) :
    u.farLeave r tag port =
      (MemAnswer.stop (if r.kind = .write ∧ 0x100 ≤ r.master ∧ r.master < 0x150 then St.ok else St.held),
        State.openTx { u with far := u.far ++ [⟨r, BitVec.ofNat 64 r.dpa, tag, none⟩] } tag port .access) := by
  unfold State.farLeave
  simp only [Bool.and_eq_true, decide_eq_true_eq, and_assoc]

/-- An admitted read or write of the aperture leaves for the other module. -/
theorem State.apertureRequest_leaves (hregion : s.region r.dpa r.len = .remote n o) (hkind : r.kind = .read ∨ r.kind = .write)
    (hway : s.wayHolds (.remote n o) r.master r.len = false) (hgate : s.domainGate (.remote n o) r.master r.dpa = none) :
    s.apertureRequest r = (s.farRequest (.remote n o) r false).2.mcAnswer (s.farRequest (.remote n o) r false).1 := by
  have hserve : s.serve bus (.remote n o) r false = s.farRequest (.remote n o) r false := by
    unfold State.serve
    rcases hkind with h | h <;> rw [h]
  have hrequest : s.request bus r false = s.farRequest (.remote n o) r false := by
    have hatomic : (s.request bus r false) = s.atTarget bus r false := by
      unfold State.request
      dsimp only
      rw [hregion, if_neg (by rcases hkind with h | h <;> simp [h]), if_neg (by rw [hway]; decide)]
    rw [hatomic]
    unfold State.atTarget
    dsimp only
    rw [hregion]
    dsimp only
    rw [hgate]
    exact hserve
  unfold State.apertureRequest State.targetRequest
  rw [hregion]
  dsimp only
  rw [show (decide (Ecc.clean = Ecc.uncorrectable)) = false from rfl, hrequest]
  simp

theorem State.apertureRequest_elsewhere (h : ∀ n o, s.region r.dpa r.len ≠ .remote n o) : s.apertureRequest r = s := by
  unfold State.apertureRequest
  split
  · next n o hno => exact absurd hno (h n o)
  · rfl

/-- An aperture entry admits a master's read or write. -/
def State.Admits (s : State) (n m : Nat) (wr : Bool) : Prop :=
  (s.rd64 (Reg.HAT_RAP_TGT_LO n)).testBit 31 = true ∧ bits (s.rd64 (Reg.HAT_RAP_ACL_LO n)) 11 0 ≤ m ∧
    m ≤ bits (s.rd64 (Reg.HAT_RAP_ACL_LO n)) 23 12 ∧ (s.rd64 (Reg.HAT_RAP_ACL_LO n)).testBit (if wr then 25 else 24) = true

section
variable {m : Nat} {wr : Bool}

theorem State.apertureCheck_broken (h : cp32Ok (s.rd64 (Reg.HAT_RAP_TGT_LO n)) = false ∨ cp32Ok (s.rd64 (Reg.HAT_RAP_ACL_LO n)) = false) :
    s.apertureCheck n m (!wr) wr = (St.complementMismatch, 0, 0) := if_pos (by simpa using h)

theorem State.apertureCheck_whole (h1 : cp32Ok (s.rd64 (Reg.HAT_RAP_TGT_LO n)) = true)
    (h2 : cp32Ok (s.rd64 (Reg.HAT_RAP_ACL_LO n)) = true) :
    (s.Admits n m wr → s.apertureCheck n m (!wr) wr =
      (St.ok, bits (s.rd64 (Reg.HAT_RAP_TGT_LO n)) 17 0, bits (s.rd64 (Reg.HAT_RAP_TGT_LO n)) 24 18)) ∧
    (¬ s.Admits n m wr → s.apertureCheck n m (!wr) wr = (St.accessDenied, 0, 0)) := by
  unfold State.Admits State.apertureCheck
  dsimp only
  rw [h1, h2, if_neg (c := (!true || !true) = true) (by decide)]
  cases wr <;> simp only [Bool.not_true, Bool.not_false, Bool.false_or, Bool.true_or, Bool.and_true, Bool.and_eq_true, decide_eq_true_eq,
    and_assoc, Bool.false_eq_true, if_true, if_false]
  · exact ⟨fun h => if_pos h, fun h => if_neg h⟩
  · exact ⟨fun h => if_pos h, fun h => if_neg h⟩

end
end

end Sys2Proof.Machine
end

section
/-! Hatch's jobs (R386), transactions that time out (R388), and landing queues (R387, R394). -/

namespace Sys2Proof.Machine

section
variable {s : State} {ring tag : Nat}

/-- The data that a job waits to write. -/
def State.lateOf (s : State) (ring tag : Nat) : List LateData := s.hat.late.filter (fun d => d.ring = ring && d.tag = tag)

theorem State.jobAgain_none {b : Bus} (h : s.lateOf ring tag = []) : s.jobAgain b ring tag = s := by
  unfold State.lateOf at h
  unfold State.jobAgain
  rw [h]
  rfl

theorem State.jobAgain_one {b : Bus} {d : LateData} {j : Job} (h : s.lateOf ring tag = [d]) (hj : s.hatJobOf ring tag = some j) :
    s.jobAgain b ring tag = State.jobLand { s with hat := { s.hat with late := s.hat.late.erase d } } b j d := by
  unfold State.lateOf at h
  unfold State.jobAgain
  dsimp only
  rw [h, List.foldl_cons, List.foldl_nil, hj]

/-- An earlier job of the ring has not ended. -/
def State.EarlierJob (w : State) (ring : Nat) (j : Job) : Prop :=
  ∃ k ∈ w.jobs.takeWhile (fun k => k ≠ j), k.ring = ring ∧ k.done = none

section
variable {n op : Nat} {w : State} (hagain : s.jobAgain memoryBus (ringKey ⟨.hat, n⟩) tag = w)
include hagain

theorem State.hatJob_other (h : ∀ j, w.hatJobOf (ringKey ⟨.hat, n⟩) tag = some j → hatOp j.entry ≠ op) : s.hatJob n tag op = w := by
  have hfilter : (w.hatJobOf (ringKey ⟨.hat, n⟩) tag).filter (fun j => hatOp j.entry = op) = none := by
    rw [Option.filter_eq_none_iff]
    simpa using h
  unfold State.hatJob
  dsimp only
  rw [hagain, hfilter]

theorem State.hatJob_job {j : Job} (hj : w.hatJobOf (ringKey ⟨.hat, n⟩) tag = some j) (hop : hatOp j.entry = op) :
    (hatOrder j.entry = true → w.EarlierJob (ringKey ⟨.hat, n⟩) j → s.hatJob n tag op = w) ∧
    (¬ (hatOrder j.entry = true ∧ w.EarlierJob (ringKey ⟨.hat, n⟩) j) →
      s.hatJob n tag op =
        if !hatFieldsOk j.entry then w.endJob j St.invalidField 0 else w.hatSend (ringKey ⟨.hat, n⟩) tag 4097) := by
  have hfilter : (w.hatJobOf (ringKey ⟨.hat, n⟩) tag).filter (fun j => hatOp j.entry = op) = some j := by
    rw [hj, Option.filter_some, if_pos (decide_eq_true hop)]
  have hearlier : (hatOrder j.entry &&
      (w.jobs.takeWhile (fun k => k ≠ j)).any (fun k => k.ring = ringKey ⟨.hat, n⟩ && k.done.isNone)) = true ↔
        hatOrder j.entry = true ∧ w.EarlierJob (ringKey ⟨.hat, n⟩) j := by
    simp only [State.EarlierJob, Bool.and_eq_true, List.any_eq_true, decide_eq_true_eq, Option.isNone_iff_eq_none]
  unfold State.hatJob
  dsimp only
  rw [hagain, hfilter]
  exact ⟨fun ho he => if_pos (hearlier.mpr ⟨ho, he⟩), fun h => if_neg fun h' => h (hearlier.mp h')⟩

end

section
variable {fuel : Nat} {j : Job} (hj : s.hatJobOf ring tag = some j)
include hj

/-- Every packet of a job has been sent. -/
def Job.AllSent (j : Job) : Prop :=
  (hatOp j.entry ≠ 4 ∧ hatLen j.entry - j.prog.off = 0) ∨ (hatOp j.entry = 4 ∧ j.prog.desc ≠ 0)

omit hj in
theorem Job.allSent_iff (j : Job) :
    (decide (hatLen j.entry - j.prog.off = 0) && decide (hatOp j.entry ≠ 4) || decide (hatOp j.entry = 4) && decide (j.prog.desc ≠ 0)) = true
      ↔ j.AllSent := by
  simp only [Job.AllSent, Bool.or_eq_true, Bool.and_eq_true, decide_eq_true_eq, and_comm]

theorem State.hatSend_allSent (h : j.AllSent) : s.hatSend ring tag (fuel + 1) = s := by
  unfold State.hatSend
  rw [hj]
  exact if_pos ((Job.allSent_iff j).mpr h)

section
variable (h : ¬ j.AllSent)
include h

theorem State.hatSend_noTag (htag : s.freeTag = none) : s.hatSend ring tag (fuel + 1) = s := by
  unfold State.hatSend
  rw [hj]
  dsimp only
  rw [if_neg fun h' => h ((Job.allSent_iff j).mp h'), htag]

/-- How many bytes the job's next packet carries. -/
def Job.nextLen (j : Job) : Nat :=
  if hatOp j.entry = 3 then 64 else if hatOp j.entry = 4 then 0
  else min (hatLen j.entry - j.prog.off) (4096 - (hatRemote j.entry + j.prog.off) % 4096)

/-- The bytes of the job's next packet, read where its OP sends any. -/
def State.nextBytes (s : State) (j : Job) : MemAnswer × State :=
  if hatOp j.entry = 2 ∨ hatOp j.entry = 3 then s.readMem 0x200 (hatLocal j.entry + j.prog.off) j.nextLen else (⟨St.ok, [], false⟩, s)

/-- The job's next packet is put on its way, and the others follow. -/
def State.hatPut (u : State) (ring tag fuel tx : Nat) (j : Job) (a : MemAnswer) : State :=
  match u.sendPacket (hatPacket u.srcFid tx j.entry j.prog.off j.nextLen a.data a.poison) with
  | (.error st, v) => v.hatFail j st
  | (.ok port, v) =>
    State.hatSend ((v.setProg j { j.prog with off := j.prog.off + j.nextLen, desc := j.prog.desc + 1 }).openTx tx port
      (.job ring tag (hatLocal j.entry + j.prog.off) j.nextLen (hatOp j.entry = 1))) ring tag fuel

theorem State.hatSend_packet {tx : Nat} (htag : s.freeTag = some tx) {a : MemAnswer} {u : State} (hread : s.nextBytes j = (a, u)) :
    s.hatSend ring tag (fuel + 1) =
      if a.status = St.held then u
      else if a.status ≠ St.ok then u.hatFail j a.status
      else u.hatPut ring tag fuel tx j a := by
  have hread' : (if (decide (hatOp j.entry = 2) || decide (hatOp j.entry = 3)) = true then
      s.readMem 0x200 (hatLocal j.entry + j.prog.off) j.nextLen else (⟨St.ok, [], false⟩, s)) = (a, u) := by
    rw [← hread]
    unfold State.nextBytes
    simp only [Bool.or_eq_true, decide_eq_true_eq]
  unfold Job.nextLen at hread'
  rw [State.hatSend, hj]
  dsimp only
  rw [if_neg fun h' => h ((Job.allSent_iff j).mp h'), htag]
  dsimp only
  unfold chunkLen
  rw [hread'] <;> rfl

end

section
omit hj
variable {u v : State} {tx : Nat} {a : MemAnswer}

theorem State.hatPut_unsent {st : Nat}
    (h : u.sendPacket (hatPacket u.srcFid tx j.entry j.prog.off j.nextLen a.data a.poison) = (.error st, v)) :
    u.hatPut ring tag fuel tx j a = v.hatFail j st := by
  unfold State.hatPut
  rw [h]

theorem State.hatPut_sent {port : Nat}
    (h : u.sendPacket (hatPacket u.srcFid tx j.entry j.prog.off j.nextLen a.data a.poison) = (.ok port, v)) :
    u.hatPut ring tag fuel tx j a =
      State.hatSend ((v.setProg j { j.prog with off := j.prog.off + j.nextLen, desc := j.prog.desc + 1 }).openTx tx port
        (.job ring tag (hatLocal j.entry + j.prog.off) j.nextLen (hatOp j.entry = 1))) ring tag fuel := by
  unfold State.hatPut
  rw [h]

end

/-! The answers to a job's packets. -/

theorem State.jobAnswer_fails {b : Bus} {dpa len st : Nat} (h : st ≠ St.ok) :
    s.jobAnswer b ring tag dpa len false st [] false = s.hatFail j st := by
  unfold State.jobAnswer
  rw [hj]
  have hread : (decide (st = St.ok) && false && decide (([] : List Byte).length ≠ len)) = false := by simp
  dsimp only
  rw [hread, if_neg Bool.false_ne_true, if_pos h]

theorem State.jobAnswer_moved {b : Bus} {dpa len : Nat} :
    s.jobAnswer b ring tag dpa len false St.ok [] false = s.jobMoved j len := by
  unfold State.jobAnswer
  rw [hj]
  rfl

theorem State.jobAnswer_read {b : Bus} {dpa : Nat} {data : List Byte} {poison : Bool} :
    s.jobAnswer b ring tag dpa data.length true St.ok data poison = s.jobLand b j ⟨ring, tag, dpa, data, poison⟩ := by
  unfold State.jobAnswer
  rw [hj]
  have hlen : (decide (St.ok = St.ok) && true && decide (data.length ≠ data.length)) = false := by simp
  dsimp only
  rw [hlen]
  rfl

end

theorem State.jobMoved_last {j : Job} {len : Nat} (h : j.prog.moved + len = hatLen j.entry) :
    s.jobMoved j len = s.endJob j St.ok (hatLen j.entry) := if_pos h

theorem State.jobMoved_more {j : Job} {len : Nat} (h : j.prog.moved + len ≠ hatLen j.entry) :
    s.jobMoved j len =
      { s with jobs := s.jobs.map (fun k => if k = j then { j with prog := { j.prog with moved := j.prog.moved + len } } else k) } :=
  if_neg h

theorem State.jobLand_eq {b : Bus} {j : Job} {d : LateData} {a : MemAnswer} {u : State}
    (h : s.request b ⟨0x200, d.dpa, d.data.length, .write, d.data, false⟩ d.poison = (a, u)) :
    s.jobLand b j d =
      if a.status = St.held then { u with hat := { u.hat with late := u.hat.late ++ [d] } }
      else if a.status ≠ St.ok then u.hatFail j a.status
      else u.jobMoved j d.data.length := by
  unfold State.jobLand
  rw [h]

/-! TRANSACTION_TIMEOUT. -/

/-- A transaction's packet still waits at a port that is being woken. -/
def State.Waking (s : State) (tag : Nat) (x : Tx) : Prop :=
  x.port < 8 ∧ s.portState x.port = 3 ∧ ∃ k ∈ FMap.getD s.portQueue x.port, k.tag = tag ∧ k.src = s.srcFid

theorem State.waking_iff {x : Tx} :
    (decide (x.port < 8) && decide (s.portState x.port = 3) &&
      (FMap.getD s.portQueue x.port).any (fun k => k.tag = tag && k.src = s.srcFid)) = true ↔ s.Waking tag x := by
  simp only [State.Waking, Bool.and_eq_true, List.any_eq_true, decide_eq_true_eq, and_assoc]

theorem State.txTimeout_none (h : s.txOf tag = none) : s.txTimeout tag = s := by
  unfold State.txTimeout
  rw [h]

section
variable {x : Tx} (hx : s.txOf tag = some x)
include hx

theorem State.txTimeout_spared (h : x.port = 16 ∨ s.Waking tag x) : s.txTimeout tag = s := by
  unfold State.txTimeout
  rw [hx]
  dsimp only
  rcases h with h | h
  · exact if_pos h
  · rw [if_pos (State.waking_iff.mpr h), ite_self]

theorem State.txTimeout_ends (h16 : x.port ≠ 16) (h : ¬ s.Waking tag x) :
    s.txTimeout tag =
      let u := (s.atTime (x.sentAt + 1000000)).count Reg.HAT_TIMEOUTS 31 0 1
      State.endTx { u with txDead := u.txDead.filter (fun d => u.time.toNat < d.2 + 2000000) ++ [(tag, u.time.toNat)] } memoryBus x
        St.fabricTimeout [] false := by
  unfold State.txTimeout
  rw [hx]
  dsimp only
  rw [if_neg h16, if_neg fun h' => h (State.waking_iff.mp h')]

end
end

/-! Landing queues' registers. -/

section
variable {t : State} {m q : Nat}

theorem State.lqCtl_reset :
    t.lqCtl m q (t.cmdWord (Reg.HAT_LQ_CTL q) 1 1 1 1) =
      let u := t.plainWrite m (Reg.HAT_LQ_CTL q) (t.cmdWord (Reg.HAT_LQ_CTL q) 1 1 1 1)
      let v : State := { u with hat := { u.hat with
        lqPhase := FMap.set (fun _ => true) u.hat.lqPhase q true, lqDepth := FMap.setD u.hat.lqDepth q 0 } }
      (v.wr (Reg.HAT_LQ_STATUS q) 0).wr (Reg.HAT_LQ_HEAD q) 0 := by
  have hreset : (t.cmdWord (Reg.HAT_LQ_CTL q) 1 1 1 1).toNat.testBit 1 = true := by rw [State.cmdWord_testBit]; simp
  unfold State.lqCtl
  dsimp only
  exact if_pos hreset

/-- A head of a landing queue past what is written. -/
def State.LqBeyond (t : State) (q h : Nat) : Prop :=
  FMap.getD t.hat.lqDepth q ≤ h ∨
    (t.fld (Reg.HAT_LQ_STATUS q) 15 0 + FMap.getD t.hat.lqDepth q - t.fld (Reg.HAT_LQ_HEAD q) 15 0) % FMap.getD t.hat.lqDepth q <
      (h + FMap.getD t.hat.lqDepth q - t.fld (Reg.HAT_LQ_HEAD q) 15 0) % FMap.getD t.hat.lqDepth q

theorem State.lqHead_refused {v : Word} (h : t.LqBeyond q (v.toNat % 2 ^ 16)) :
    t.lqHead m q v = t.refuse m (Reg.HAT_LQ_HEAD q) St.invalidField := by
  refine if_pos ?_
  rw [Bool.or_eq_true, decide_eq_true_eq, decide_eq_true_eq]
  exact h

theorem State.lqHead_moved {v : Word} (h : ¬ t.LqBeyond q (v.toNat % 2 ^ 16)) :
    t.lqHead m q v = t.setFld (Reg.HAT_LQ_HEAD q) 15 0 (v.toNat % 2 ^ 16) := by
  refine if_neg ?_
  rw [Bool.or_eq_true, decide_eq_true_eq, decide_eq_true_eq]
  exact h

end

/-- The rows of Hatch's jobs by OP. -/
def hatJobInstrs (n : Nat) (tag : BitVec 16) : List (Nat × Instr) :=
  [(1, .hatchJobRead n tag), (2, .hatchJobWrite n tag), (3, .hatchJobSubmit n tag), (4, .hatchJobNotify n tag)]

theorem exec_hatJobInstr {s : State} {n op : Nat} {tag : BitVec 16} {c : Instr} (hn : n < 32) (hc : (op, c) ∈ hatJobInstrs n tag) :
    exec c s = .next (s.seal (s.hatJob n tag.toNat op)) := by
  simp only [hatJobInstrs, List.mem_cons, List.not_mem_nil, or_false, Prod.mk.injEq] at hc
  rcases hc with ⟨rfl, rfl⟩ | ⟨rfl, rfl⟩ | ⟨rfl, rfl⟩ | ⟨rfl, rfl⟩ <;> exact done_of (decide_eq_true hn) s _

/-- Settles O43: an aperture request by the cases of `farRequest`, a job by its next packet, and each other command by its own lemmas
above. -/
theorem apertureRequestsJobsTimeoutsAndLandingQueues : Obligations.ApertureRequestsJobsTimeoutsAndLandingQueues := by
  refine ⟨fun s r hr => ?_, fun s n m wr => ⟨State.apertureCheck_broken, State.apertureCheck_whole⟩,
    fun s n op tag c hn hc => ?_, fun s ring tag fuel j hj => ?_, fun s b ring tag dpa len j hj => ?_, fun s tag htag => ?_,
    fun s t m q hm hq hreach => ?_, fun s t m q v hm hq hreach => ?_⟩
  · have requests : exec (.remoteApertureRequest r) s = .next (s.seal (s.apertureRequest r)) := done_of hr s _
    dsimp only
    rw [requests]
    refine ⟨fun h => by rw [State.apertureRequest_elsewhere h], fun n o hregion hkind hway hgate => ?_⟩
    rw [State.apertureRequest_leaves hregion hkind hway hgate]
    refine ⟨fun st d p h => by rw [State.farRequest_come h], fun h hbusy => by rw [State.farRequest_busy h hbusy], fun h hfree =>
      ⟨fun hck => by rw [State.farRequest_refused h hfree hck], fun hck => ?_⟩⟩
    have hcheck := Prod.ext (y := (St.ok, (s.apertureCheck n r.master (r.kind ≠ .write) (r.kind = .write)).2)) hck rfl
    rw [State.farRequest_admitted h hfree hcheck]
    refine ⟨fun htag => by rw [State.farSend_noTag htag], fun tag e u htag hsend => ⟨?_, ?_⟩⟩
    · rintro st rfl
      rw [State.farSend_unsent htag hsend]
    · rintro port rfl
      rw [State.farSend_sent htag hsend, State.farLeave_eq]
  · dsimp only
    rw [exec_hatJobInstr hn hc]
    refine ⟨State.jobAgain_none, fun d j => State.jobAgain_one, fun h => by rw [State.hatJob_other rfl h], fun j hj hop => ?_⟩
    obtain ⟨hwaits, hruns⟩ := State.hatJob_job (s := s) (n := n) rfl hj hop
    refine ⟨fun ho he => by rw [hwaits ho he], fun hno => ?_⟩
    rw [hruns hno]
    exact ⟨fun hf => by rw [hf]; rfl, fun hf => by rw [hf]; rfl⟩
  · refine ⟨State.hatSend_allSent hj, fun hno htag => State.hatSend_noTag hj hno htag, fun hno tx htag => ?_⟩
    have hstep := State.hatSend_packet (fuel := fuel) hj hno htag (Prod.mk.eta (p := s.nextBytes j)).symm
    refine ⟨fun hst => hstep.trans (if_pos hst), fun hheld hst => hstep.trans ((if_neg hheld).trans (if_pos hst)),
      fun hst x u hsend => ⟨?_, ?_⟩⟩
    · rintro st rfl
      exact hstep.trans ((if_neg (ne_of_eq_of_ne hst (by decide))).trans ((if_neg (not_not.mpr hst)).trans (State.hatPut_unsent hsend)))
    · rintro port rfl
      exact hstep.trans ((if_neg (ne_of_eq_of_ne hst (by decide))).trans ((if_neg (not_not.mpr hst)).trans (State.hatPut_sent hsend)))
  · refine ⟨fun st hst => State.jobAnswer_fails hj hst, fun hlast => ?_, fun data poison hlen => ?_, fun hmore => ?_⟩
    · rw [State.jobAnswer_moved hj, State.jobMoved_last hlast]
    · subst hlen
      refine ⟨State.jobAnswer_read hj, ?_⟩
      have hland := State.jobLand_eq (j := j) (d := ⟨ring, tag, dpa, data, poison⟩)
        (Prod.mk.eta (p := s.request b ⟨0x200, dpa, data.length, .write, data, false⟩ poison)).symm
      exact ⟨fun h => hland.trans (if_pos h), fun hheld h => hland.trans ((if_neg hheld).trans (if_pos h)),
        fun h => hland.trans ((if_neg (by rw [h]; decide)).trans (if_neg (not_not.mpr h)))⟩
    · rw [State.jobAnswer_moved hj, State.jobMoved_more hmore]
  · have times : exec (.transactionTimeout tag) s = .next (s.seal (s.txTimeout tag)) := done_of (decide_eq_true htag) s _
    rw [times]
    exact ⟨fun h => by rw [State.txTimeout_none h], fun x hx => ⟨fun h => by rw [State.txTimeout_spared hx h],
      fun h16 h => by rw [State.txTimeout_ends hx h16 h]⟩⟩
  · exact (done_of (by simp [okMaster, hm, hq]) s _).trans (by rw [State.regDo_of hreach, State.lqCtl_reset])
  · have writes : exec (.landingQueueHeadWrite m q v) s = .next (s.seal (t.lqHead m q v).acked) :=
      (done_of (by simp [okMaster, hm, hq]) s _).trans (by rw [State.regDo_of hreach])
    dsimp only
    rw [writes]
    exact ⟨fun h => by rw [State.lqHead_refused h], fun h => by rw [State.lqHead_moved h]⟩

end Sys2Proof.Machine
end

section
/-! PAIR_COMMIT and PAIR_UNPAIR (R396, R398, R410, R411). -/

namespace Sys2Proof.Machine

section
variable {t : State} {m : Nat} {v : Word}

theorem State.bringUpAdmits_of_bringUp (h : t.mode = .bringUp) : t.bringUpAdmits m = true := by
  unfold State.bringUpAdmits State.firmwareStage
  rw [h]
  rfl

theorem State.plainWrite_pairCtl_mode : (t.plainWrite m Reg.GLB_PAIR_CTL v).mode = t.mode := by
  rcases t.plainWrite_cases m Reg.GLB_PAIR_CTL v with h | ⟨w, h⟩
  · rw [h]
  · rw [h, regKey_of_no_view (.inl (by decide))]
    unfold State.mode State.fld
    rw [State.rd_wr_other _ _ (by decide)]

theorem State.pairCtl_outside (h : t.bringUpAdmits m = false) : t.pairCtl m v = t.refuse m Reg.GLB_PAIR_CTL St.accessDenied :=
  if_pos (by rw [h]; rfl)

theorem State.pairCtl_busy (h : t.bringUpAdmits m = true) (hbusy : t.bit Reg.GLB_PAIR_STATUS 25 = true) :
    t.pairCtl m v = t.plainWrite m Reg.GLB_PAIR_CTL v := (if_neg (by rw [h]; decide)).trans (if_pos hbusy)

section
variable (hmode : t.mode = .bringUp) (hbusy : t.bit Reg.GLB_PAIR_STATUS 25 = false)
include hmode hbusy

theorem State.pairCtl_unpair (hv : v.toNat.testBit 30 = true) :
    t.pairCtl m v =
      let u := t.plainWrite m Reg.GLB_PAIR_CTL v
      let x := u.setPlate { u.plate with record := { u.plate.record with role := 0, peer := 0 } }
      ((x.dropImages.setFld Reg.GLB_PAIR_STATUS 31 30 0).setFld Reg.GLB_PAIR_STATUS 15 0 St.ok).showPair :=
  (if_neg (by rw [State.bringUpAdmits_of_bringUp hmode]; decide)).trans ((if_neg (by rw [hbusy]; decide)).trans ((if_pos hv).trans
    (if_neg (not_not.mpr (State.plainWrite_pairCtl_mode.trans hmode)))))

theorem State.pairCtl_commit (hv : v.toNat.testBit 30 = false) (hc : v.toNat.testBit 31 = true) :
    t.pairCtl m v =
      let u := t.plainWrite m Reg.GLB_PAIR_CTL v
      let begun : State := { u with hat := { u.hat with commitAt := some u.time.toNat, replies := [] } }
      [6, 7].foldl (fun x p => if x.hingeUp p then x.pairAsk p else if x.portState p = 1 then x else x.trainPort p 3 15)
        (begun.setFld Reg.GLB_PAIR_STATUS 25 25 1) :=
  (if_neg (by rw [State.bringUpAdmits_of_bringUp hmode]; decide)).trans ((if_neg (by rw [hbusy]; decide)).trans
    ((if_neg (by rw [hv]; decide)).trans ((if_pos hc).trans (if_neg (not_not.mpr (State.plainWrite_pairCtl_mode.trans hmode))))))

end
end

/-! The query, its repeat, its timeout and its reply (R396, R397). -/

section
variable {s : State} {p : Nat} {k : Packet}

/-- The module wants a reply that a query on port `p` asks for. -/
def State.WantsReply (s : State) (p : Nat) : Prop :=
  6 ≤ p ∧ (s.hat.commitAt.isSome = true ∨ s.forming = true) ∧ (s.reply 6 = none ∨ s.reply 7 = none)

theorem State.wantsReply_iff :
    (decide (6 ≤ p) && (s.hat.commitAt.isSome || s.forming) && ((s.reply 6).isNone || (s.reply 7).isNone)) = true ↔ s.WantsReply p := by
  simp only [State.WantsReply, Bool.and_eq_true, Bool.or_eq_true, decide_eq_true_eq, Option.isNone_iff_eq_none, and_assoc]

theorem State.pairRepeat_asks (h : s.WantsReply p) (hup : s.hingeUp p = true) :
    s.pairRepeat p = s.pairSend p 0x25 0 0 0 (s.pairRecord p) := (if_pos (State.wantsReply_iff.mpr h)).trans (if_pos hup)

theorem State.pairRepeat_none (h : ¬ s.WantsReply p ∨ s.hingeUp p = false) : s.pairRepeat p = s := by
  unfold State.pairRepeat
  rcases h with h | h
  · exact if_neg fun h' => h (State.wantsReply_iff.mp h')
  · have hask : s.pairAsk p = s := if_neg (by rw [h]; decide)
    rw [hask, ite_self]

/-- No reply is held from either port. -/
theorem State.noReply_iff : ((s.reply 6).isNone && (s.reply 7).isNone) = true ↔ s.reply 6 = none ∧ s.reply 7 = none := by
  rw [Bool.and_eq_true, Option.isNone_iff_eq_none, Option.isNone_iff_eq_none]

theorem State.commitTimeout_none (h : s.hat.commitAt = none) : s.commitTimeout = s := by
  unfold State.commitTimeout
  rw [h]

theorem State.commitTimeout_some {t : Nat} (h : s.hat.commitAt = some t) :
    s.commitTimeout =
      (s.atTime (t + 1000000000)).commitEnd
        (if s.reply 6 = none ∧ s.reply 7 = none then St.fabricUnreachable else St.invalidField) := by
  unfold State.commitTimeout
  rw [h]
  simp only [State.noReply_iff]

/-- A message of the hinge that this module takes on port `p`. -/
theorem State.pairAccepts_iff (hp : p < 8) : s.pairAccepts p k = true ↔ 6 ≤ p ∧ s.pairRole ≠ 0 ∧ packetBad k = false := by
  simp [State.pairAccepts, hp, and_assoc]

section
variable (hp : p < 8)
include hp

theorem State.pairQuery_refused (h : ¬ (6 ≤ p ∧ s.pairRole ≠ 0 ∧ packetBad k = false)) : s.pairQuery p k = s.rxDiscard :=
  if_pos (by rw [Bool.not_eq_true', Bool.eq_false_iff]; exact fun h' => h ((State.pairAccepts_iff hp).mp h'))

theorem State.pairQuery_answered (h : 6 ≤ p ∧ s.pairRole ≠ 0 ∧ packetBad k = false) :
    s.pairQuery p k =
      let u := s.pairSend p 0x26 k.tag 0 0 (s.pairRecord p)
      if (u.reply p).isSome then (u.setReply p (some (pairRecOf k.payload))).commitCheck else u :=
  if_neg (by rw [(State.pairAccepts_iff hp).mpr h]; decide)

theorem State.pairReply_refused (h : ¬ (6 ≤ p ∧ s.pairRole ≠ 0 ∧ packetBad k = false)) : s.pairReply p k = s.rxDiscard :=
  if_pos (by rw [Bool.not_eq_true', Bool.eq_false_iff]; exact fun h' => h ((State.pairAccepts_iff hp).mp h'))

theorem State.pairReply_taken (h : 6 ≤ p ∧ s.pairRole ≠ 0 ∧ packetBad k = false) :
    s.pairReply p k = if k.status ≠ St.ok then s else (s.setReply p (some (pairRecOf k.payload))).commitCheck :=
  if_neg (by rw [(State.pairAccepts_iff hp).mpr h]; decide)

end

/-! COMMIT is judged once both replies are held (R395, R396, R398). -/

section
variable {a b : PairRec}

/-- The two replies meet the conditions of a COMMIT. -/
def State.GoodReplies (s : State) (a b : PairRec) : Prop :=
  a.serial = b.serial ∧ a.word % 8 = 6 ∧ b.word % 8 = 7 ∧ s.identOk a = true ∧
    ((s.pairRole = 1 ∧ a.role = 2) ∨ (s.pairRole = 2 ∧ a.role = 1)) ∧ s.mode = .bringUp

theorem State.goodReplies_iff :
    (wired a b && s.identOk a && (s.pairRole = 1 && a.role = 2 || s.pairRole = 2 && a.role = 1) && s.mode = .bringUp) = true ↔
      s.GoodReplies a b := by
  simp only [State.GoodReplies, wired, Bool.and_eq_true, Bool.or_eq_true, decide_eq_true_eq, and_assoc]

/-- The generation of the pair that a COMMIT records. -/
def State.pairGenAfter (s : State) (a : PairRec) : Nat :=
  if bits a.word 7 6 = 1 ∧ a.peer = Config.serial.toNat then a.gen else max s.plate.record.pairGen a.gen + 1

theorem State.commitOk_failed (h : s.storeFailed = true) : s.commitOk a = s.commitEnd St.plateInvalid := if_pos h

theorem State.commitOk_recorded (h : s.storeFailed = false) :
    s.commitOk a =
      let u := s.setPlate { s.plate with record := { s.plate.record with role := s.pairRole, peer := a.serial, pairGen := s.pairGenAfter a } }
      ((u.dropImages.showPair).setFld Reg.GLB_PAIR_STATUS 31 30 1).commitEnd St.ok := by
  unfold State.commitOk State.pairGenAfter
  rw [if_neg (by rw [h]; decide)]
  simp only [Bool.and_eq_true, decide_eq_true_eq]

section
variable {t : Nat} (hc : s.hat.commitAt = some t) (h6 : s.reply 6 = some a) (h7 : s.reply 7 = some b)
include hc h6 h7

theorem State.commitCheck_bad (h : ¬ s.GoodReplies a b) : s.commitCheck = s.commitEnd St.invalidField := by
  unfold State.commitCheck
  rw [hc, h6, h7]
  refine if_pos ?_
  rw [Bool.not_eq_true', Bool.eq_false_iff]
  exact fun h' => h (State.goodReplies_iff.mp h')

theorem State.commitCheck_good (h : s.GoodReplies a b) :
    s.commitCheck = if peerCommits a || peerCommits b then s.commitOk a else s := by
  unfold State.commitCheck
  rw [hc, h6, h7]
  refine if_neg ?_
  rw [Bool.not_eq_true', Bool.not_eq_false]
  exact State.goodReplies_iff.mpr h

end
end

/-! Forming a pair (R399). -/

theorem State.pairForm_not (h : s.forming = false) : s.pairForm = s := if_pos (by rw [h]; rfl)

theorem State.formTimeout_not (h : s.forming = false) : s.formTimeout = s := if_pos (by rw [h]; rfl)

section
variable (h : s.forming = true)
include h

theorem State.pairForm_waits (hr : s.reply 6 = none ∨ s.reply 7 = none) : s.pairForm = s := by
  unfold State.pairForm
  rw [if_neg (by rw [h]; decide)]
  rcases hr with hr | hr
  · rw [hr]
  · rw [hr]
    cases s.reply 6 <;> rfl

theorem State.pairForm_judged {a b : PairRec} (h6 : s.reply 6 = some a) (h7 : s.reply 7 = some b) :
    s.pairForm = if s.formOk a b then s.formDone else s.formFail St.invalidField := by
  unfold State.pairForm
  rw [if_neg (by rw [h]; decide), h6, h7]

theorem State.formTimeout_fails :
    s.formTimeout =
      (s.atTime (s.boot.printedAt + 10000000000)).formFail
        (if s.reply 6 = none ∧ s.reply 7 = none then St.fabricUnreachable else St.invalidField) := by
  unfold State.formTimeout
  rw [if_neg (by rw [h]; decide)]
  simp only [State.noReply_iff]

end

theorem State.formOk_iff {a b : PairRec} :
    s.formOk a b = true ↔
      (a.serial = b.serial ∧ a.word % 8 = 6 ∧ b.word % 8 = 7) ∧ a.serial = s.plate.record.peer ∧
      ((s.plate.record.role = 1 ∧ a.role = 2) ∨ (s.plate.record.role = 2 ∧ a.role = 1)) ∧ s.identOk a = true ∧
      a.gen = s.plate.record.pairGen ∧ a.published = s.imageP := by
  simp only [State.formOk, wired, Bool.and_eq_true, Bool.or_eq_true, decide_eq_true_eq, and_assoc]

end

end Sys2Proof.Machine
end

section
/-! Losing a half, and the notices (R397, R406 to R408, R421). -/

namespace Sys2Proof.Machine

section
variable {s : State} {p : Nat}

theorem State.halfLost_alone (h : s.inPair = false) : s.halfLost = s := if_pos (by rw [h]; rfl)

theorem State.halfLost_inPair (h : s.inPair = true) :
    s.halfLost = (s.atTime (max (FMap.getD s.hat.hingeAt 6) (FMap.getD s.hat.hingeAt 7) + 10000000)).declareLost :=
  if_neg (by rw [h]; decide)

theorem State.powerFailNotice_refused (h : p < 6 ∨ s.pairRole = 0) : s.powerFailNotice p = s.rxDiscard := if_pos (by simpa using h)

theorem State.powerFailNotice_taken (h6 : 6 ≤ p) (h : s.pairRole ≠ 0) : s.powerFailNotice p = s.declareLost :=
  if_neg (by simp [h]; omega)

section
variable (h : s.inPair = true)
include h

theorem State.declareLost_back (hrole : s.role = some true) : s.declareLost = s.cutHinge.forgetPeer.dropFid.leavePair .solo := by
  unfold State.declareLost
  rw [if_neg (by rw [h]; decide)]
  dsimp only
  rw [if_pos hrole]

theorem State.declareLost_other (hrole : s.role ≠ some true) :
    s.declareLost = s.cutHinge.forgetPeer.leavePair (if s.cutHinge.forgetPeer.bit Reg.HAT_FID 31 then .fabric else .solo) := by
  unfold State.declareLost
  rw [if_neg (by rw [h]; decide)]
  dsimp only
  rw [if_neg hrole]

end

theorem State.dropFid_none (h : s.bit Reg.HAT_FID 31 = false) : s.dropFid = s := if_neg (by rw [h]; decide)

theorem State.dropFid_valid (h : s.bit Reg.HAT_FID 31 = true) :
    s.dropFid = ((s.setFld Reg.HAT_FID 31 31 0).raise Reg.HAT_INT_STATUS 6).helloAll := if_pos h

theorem State.leavePair_vigil {md : Mode} (h : s.mode = .vigil) :
    s.leavePair md = { s with steady := { s.steady with vigilFrom := md.code } } := if_pos h

theorem State.leavePair_etching {md : Mode} (h : s.mode ≠ .vigil) (hplt : s.pltState = 2) : s.leavePair md = s :=
  (if_neg h).trans (if_pos hplt)

theorem State.leavePair_mode {md : Mode} (h : s.mode ≠ .vigil) (hplt : s.pltState ≠ 2) : s.leavePair md = s.setMode md :=
  (if_neg h).trans (if_neg hplt)

theorem State.freezeNotice_refused {f tag : Nat} (h : p < 6 ∨ s.pairRole ≠ 2) : s.freezeNotice p f tag = s.rxDiscard :=
  if_pos (by simpa using h)

theorem State.freezeNotice_taken {f tag : Nat} (h6 : 6 ≤ p) (h : s.pairRole = 2) :
    s.freezeNotice p f tag =
      ((s.setPlate { s.plate with freeze := f }).wr64 Reg.PLT_FREEZE_EPOCH_LO f).pairSend p 0x23 tag 0 0 [] :=
  if_neg (by simp [h]; omega)

theorem State.freezeRepeat_sends {f : Nat} (h : s.hat.freeze = some f) (hrole : s.role = some false) :
    s.freezeRepeat = (s.pairSend 6 0x27 0 2 f []).pairSend 7 0x27 0 2 f [] := by
  unfold State.freezeRepeat
  rw [h]
  exact if_pos hrole

theorem State.freezeRepeat_none (h : s.hat.freeze = none ∨ s.role ≠ some false) : s.freezeRepeat = s := by
  unfold State.freezeRepeat
  rcases h with h | h
  · rw [h]
  · cases s.hat.freeze with
    | none => rfl
    | some f => exact if_neg h

theorem State.backPresent_shows (hpair : s.inPair = false) (hmode : s.mode ≠ .dormant) (hfn : s.functions = 0) :
    s.backPresent = { s with functions := 128 } := if_pos (by simp [hpair, hmode, hfn])

theorem State.backPresent_none (h : s.inPair = true ∨ s.mode = .dormant ∨ s.functions ≠ 0) : s.backPresent = s := by
  refine if_neg ?_
  rcases h with h | h | h <;> simp [h]

end

/-- Settles O44: each command and message by the cases of its own lemmas above. -/
theorem pairsFormStartAndLoseAHalf : Obligations.PairsFormStartAndLoseAHalf := by
  refine ⟨fun s t m hm hreach => ?_, fun s p hp => ?_, fun s => ?_, fun s st => rfl, fun s p k hp hk => ⟨fun hrec => ?_, fun hrec => ?_⟩,
    fun s t a b hc h6 h7 => ?_, fun s => ?_, fun s a b => State.formOk_iff, fun s p hp => ?_, fun s hpair => ?_, fun s => rfl,
    fun s => rfl, fun s md => ⟨State.leavePair_vigil, State.leavePair_etching, State.leavePair_mode⟩, fun s p tag f hp htag => ?_,
    fun s => ?_⟩
  · have hok : okMaster m = true := decide_eq_true hm
    have commits : exec (.pairCommit m) s = .next (s.seal (t.pairCtl m (t.cmdWord Reg.GLB_PAIR_CTL 2 31 31 1)).acked) :=
      (done_of hok s _).trans (by rw [State.regDo_of hreach])
    have unpairs : exec (.pairUnpair m) s = .next (s.seal (t.pairCtl m (t.cmdWord Reg.GLB_PAIR_CTL 2 30 30 1)).acked) :=
      (done_of hok s _).trans (by rw [State.regDo_of hreach])
    dsimp only
    rw [commits, unpairs]
    refine ⟨fun h => ⟨by rw [State.pairCtl_outside h], by rw [State.pairCtl_outside h]⟩,
      fun h hbusy => ⟨by rw [State.pairCtl_busy h hbusy], by rw [State.pairCtl_busy h hbusy]⟩, fun hmode hbusy => ⟨?_, ?_⟩⟩
    · rw [State.pairCtl_commit hmode hbusy (by rw [State.cmdWord_testBit]; simp) (by rw [State.cmdWord_testBit]; simp)]
    · rw [State.pairCtl_unpair hmode hbusy (by rw [State.cmdWord_testBit]; simp)]
  · have repeats : exec (.pairQueryRepeat p) s = .next (s.seal (s.pairRepeat p)) := done_of (decide_eq_true hp) s _
    dsimp only
    rw [repeats]
    exact ⟨fun h hup => by rw [State.pairRepeat_asks h hup], fun h => by rw [State.pairRepeat_none h]⟩
  · have times : exec .pairCommitTimeout s = .next (s.seal s.commitTimeout) := done_true s _
    rw [times]
    exact ⟨fun h => by rw [State.commitTimeout_none h], fun t h => by rw [State.commitTimeout_some h]⟩
  · have queries : exec (.pairQuery p k) s = .next (s.seal (s.pairQuery p k)) := done_packetIn hp hk hrec _
    rw [queries]
    refine ⟨fun h => by rw [State.pairQuery_refused hp h], fun h => ?_⟩
    rw [State.pairQuery_answered hp h]
    dsimp only
    exact ⟨fun hnone => by rw [hnone]; rfl, fun hsome => congrArg (fun x => Host.Outcome.next (s.seal x))
      (if_pos (Option.isSome_iff_ne_none.mpr hsome))⟩
  · have replies : exec (.pairReply p k) s = .next (s.seal (s.pairReply p k)) := done_packetIn hp hk hrec _
    rw [replies]
    refine ⟨fun h => by rw [State.pairReply_refused hp h], fun h hst => ?_, fun h hst => ?_⟩
    · rw [State.pairReply_taken hp h, if_pos hst]
    · rw [State.pairReply_taken hp h, if_neg (not_not.mpr hst)]
  · refine ⟨fun h => State.commitCheck_bad hc h6 h7 h, fun h hready => ?_, fun h hready => ?_⟩
    · rw [State.commitCheck_good hc h6 h7 h, if_neg (by rw [Bool.or_eq_true]; exact hready)]
    · rw [State.commitCheck_good hc h6 h7 h, if_pos (by rw [Bool.or_eq_true]; exact hready)]
      exact ⟨State.commitOk_failed, State.commitOk_recorded⟩
  · have forms : exec .pairForm s = .next (s.seal s.pairForm) := done_true s _
    have times : exec .pairFormTimeout s = .next (s.seal s.formTimeout) := done_true s _
    dsimp only
    rw [forms, times]
    refine ⟨fun h => ⟨by rw [State.pairForm_not h], by rw [State.formTimeout_not h]⟩, fun h =>
      ⟨fun hr => by rw [State.pairForm_waits h hr], fun a b h6 h7 => ?_, by rw [State.formTimeout_fails h]; rfl⟩⟩
    rw [State.pairForm_judged h h6 h7]
    exact ⟨fun hgood => by rw [if_pos hgood], fun hbad => by rw [if_neg (by rw [hbad]; decide)]; rfl⟩
  · have loses : exec .halfLost s = .next (s.seal s.halfLost) := done_true s _
    have notices : exec (.pairNoticePowerFail p) s = .next (s.seal (s.powerFailNotice p)) := done_of (decide_eq_true hp) s _
    rw [loses, notices]
    exact ⟨fun h => by rw [State.halfLost_alone h], fun h => by rw [State.halfLost_inPair h],
      fun h => by rw [State.powerFailNotice_refused h], fun h6 h => by rw [State.powerFailNotice_taken h6 h]⟩
  · refine ⟨fun hrole hfid => ?_, fun hrole hfid => ?_, fun hrole => State.declareLost_other hpair hrole⟩
    · rw [State.declareLost_back hpair hrole, State.dropFid_none hfid]
    · rw [State.declareLost_back hpair hrole, State.dropFid_valid hfid]
  · have notices : exec (.pairNoticeFreeze p f tag) s = .next (s.seal (s.freezeNotice p f.toNat tag)) :=
      done_of (by simp [okPort, hp, htag]) s _
    rw [notices]
    exact ⟨fun h => by rw [State.freezeNotice_refused h], fun h6 h => by rw [State.freezeNotice_taken h6 h]⟩
  · have repeats : exec .freezeNoticeRepeat s = .next (s.seal s.freezeRepeat) := done_true s _
    have presents : exec .backHostLinkPresent s = .next (s.seal s.backPresent) := done_true s _
    rw [repeats, presents]
    exact ⟨fun f h hrole => by rw [State.freezeRepeat_sends h hrole], fun h => by rw [State.freezeRepeat_none h],
      fun hpair hmode hfn => by rw [State.backPresent_shows hpair hmode hfn], fun h => by rw [State.backPresent_none h]⟩

end Sys2Proof.Machine
end

section
/-! The power connector, the cables and HREFCLK (R437, R494 to R500). -/

namespace Sys2Proof.Machine

section
variable {s : State} {p : Nat} {b : Bool}

/-- The input is lost: the switch is open and the input is no longer good. -/
def State.inputOff (s : State) : State := { s with steady := { s.steady with switchOn := false, good := false } }

/-- The failure of the supply that an input loss records; a bank test ends with it (R433, R454). -/
def State.inputFails (s : State) : State :=
  ((s.inputOff.setFld Reg.STY_SUPPLY 31 31 1).raise Reg.STY_INT_STATUS 0).setFld Reg.PLT_BANK_STATUS 3 3 0

theorem State.inputLost_again (h : s.bit Reg.STY_SUPPLY 31 = true) : s.inputLost = s.inputOff := if_pos h

section
variable (h : s.bit Reg.STY_SUPPLY 31 = false)
include h

theorem State.inputLost_etches (hctl : s.inputFails.bit Reg.PLT_CTL 0 = true) (hmode : s.inputFails.mode ≠ .dormant) :
    s.inputLost = s.inputFails :=
  (if_neg (ne_true_of_eq_false h)).trans (if_pos (by rw [Bool.and_eq_true, decide_eq_true_eq]; exact ⟨hctl, hmode⟩))

theorem State.inputLost_dormant (hoff : s.inputFails.bit Reg.PLT_CTL 0 = false ∨ s.inputFails.mode = .dormant) :
    s.inputLost = s.inputFails.goDormant :=
  (if_neg (ne_true_of_eq_false h)).trans (if_neg (by
    rw [Bool.and_eq_true, decide_eq_true_eq, not_and_or, not_not, Bool.not_eq_true]
    exact hoff))

end

theorem State.removal_absent (h : s.steady.present = false) : s.removal = s := if_pos (by rw [h]; rfl)

theorem State.removal_present (h : s.steady.present = true) :
    s.removal = State.inputLost { s with steady := { s.steady with present := false } } := if_neg (by rw [h]; decide)

theorem State.overcurrent_open (h : s.steady.switchOn = false) : s.overcurrent = s := if_neg (ne_true_of_eq_false h)

theorem State.overcurrent_closed (h : s.steady.switchOn = true) : s.overcurrent = s.inputLost := if_pos h

/-! POWER_GOOD. -/

/-- POWER_GOOD counts: the module is inserted with its switch closed, and the input was not good before. -/
def State.PowerComes (s : State) : Prop := s.steady.present = true ∧ s.steady.switchOn = true ∧ s.steady.good = false

theorem State.powerComes_iff : (!s.steady.present || !s.steady.switchOn || s.steady.good) = true ↔ ¬ s.PowerComes := by
  unfold State.PowerComes
  cases s.steady.present <;> cases s.steady.switchOn <;> simp

/-- The input is good, and the bank's first test is due a minute later. -/
def State.powered (s : State) : State :=
  { s with steady := { s.steady with good := true }, plate := { s.plate with testDue := s.time.toNat + 60000000000 } }

theorem State.powerGood_not (h : ¬ s.PowerComes) : s.powerGood = s := if_pos (State.powerComes_iff.mpr h)

theorem State.powerGood_dormant (h : s.PowerComes) (hmode : s.mode = .dormant) :
    s.powerGood = (s.powered.wake 7).setFld Reg.PLT_BANK_STATUS 1 1 1 :=
  (if_neg fun h' => State.powerComes_iff.mp h' h).trans
    (congrArg (fun x : State => x.setFld Reg.PLT_BANK_STATUS 1 1 1) (if_pos hmode))

theorem State.powerGood_awake (h : s.PowerComes) (hmode : s.mode ≠ .dormant) :
    s.powerGood = s.powered.setFld Reg.PLT_BANK_STATUS 1 1 1 :=
  (if_neg fun h' => State.powerComes_iff.mp h' h).trans
    (congrArg (fun x : State => x.setFld Reg.PLT_BANK_STATUS 1 1 1) (if_neg hmode))

/-! Cables and the reference clock. -/

theorem State.cableChange_same (h : s.steady.cables.testBit p = b) : s.cableChange p b = s :=
  if_pos (by rw [decide_eq_true h, Bool.or_true])

theorem State.cableChange_changes (hp : p < 8) (h : s.steady.cables.testBit p ≠ b) :
    s.cableChange p b =
      let u : State := { s with steady := { s.steady with cables := setBits s.steady.cables p p (bit01 b) } }
      if b then u.portTry p else u.portLost p :=
  if_neg (by rw [decide_eq_false h, Bool.or_false, decide_eq_true_eq]; omega)

theorem State.hrefChange_same (h : s.steady.href = b) : s.hrefChange b = s := if_pos h

/-- The port may try to train: the Hatch and the port are enabled, it is DOWN, and its cable and clock are there. -/
def State.MayTry (s : State) (p : Nat) : Prop :=
  s.bit Reg.HAT_CTL 0 = true ∧ s.bit (Reg.HAT_PORT_CTL p) 0 = false ∧ s.portState p = 0 ∧ s.portMay p = true

theorem State.mayTry_iff :
    (s.bit Reg.HAT_CTL 0 && !s.bit (Reg.HAT_PORT_CTL p) 0 && s.portState p = 0 && s.portMay p) = true ↔ s.MayTry p := by
  simp [State.MayTry, and_assoc]

theorem State.portTry_trains (h : s.MayTry p) : s.portTry p = s.trainPort p 3 15 := if_pos (State.mayTry_iff.mpr h)

theorem State.portTry_not (h : ¬ s.MayTry p) : s.portTry p = s := if_neg fun h' => h (State.mayTry_iff.mp h')

theorem State.portLost_stays (h : s.portState p = 0 ∨ s.portState p = 4) : s.portLost p = s := if_pos (by simpa using h)

theorem State.portLost_falls (h0 : s.portState p ≠ 0) (h4 : s.portState p ≠ 4) : s.portLost p = s.portFall p 0 :=
  if_neg (by simp [h0, h4])

end

/-- Settles O55: each command by the cases of its own lemmas above. -/
theorem insertionSuppliesCablesAndClock : Obligations.InsertionSuppliesCablesAndClock := by
  refine ⟨fun s => ?_, fun s => ?_, fun s p b hp => ?_, fun s b => ?_, fun s p => ⟨State.portTry_trains, State.portTry_not,
    State.portLost_stays, State.portLost_falls⟩⟩
  · have removes : exec .removal s = .next (s.seal s.removal) := done_true s _
    have cuts : exec .overcurrentCutoff s = .next (s.seal s.overcurrent) := done_true s _
    rw [removes, cuts]
    refine ⟨done_true s _, fun b => done_true s _, fun b => done_true s _, fun h => by rw [State.removal_absent h], fun h => ?_,
      fun h => by rw [State.overcurrent_open h], fun h => ?_⟩
    · rw [State.removal_present h]
      exact ⟨_, rfl, State.inputLost_again, State.inputLost_etches, State.inputLost_dormant⟩
    · rw [State.overcurrent_closed h]
      exact ⟨_, rfl, State.inputLost_again, State.inputLost_etches, State.inputLost_dormant⟩
  · have powers : exec .powerGood s = .next (s.seal s.powerGood) := done_true s _
    dsimp only
    rw [powers]
    exact ⟨fun h => by rw [State.powerGood_not h], fun h hmode => by rw [State.powerGood_dormant h hmode]; rfl,
      fun h hmode => by rw [State.powerGood_awake h hmode]; rfl⟩
  · have changes : exec (.cablePresence p b) s = .next (s.seal (s.cableChange p b)) := done_of (decide_eq_true hp) s _
    dsimp only
    rw [changes]
    refine ⟨fun h => by rw [State.cableChange_same h], fun h hb => ?_, fun h hb => ?_⟩
    · rw [State.cableChange_changes hp (by rw [h, hb]; decide)]
      subst hb
      rfl
    · rw [State.cableChange_changes hp (by rw [h, hb]; decide)]
      subst hb
      rfl
  · have changes : exec (.hrefclkChange b) s = .next (s.seal (s.hrefChange b)) := done_true s _
    dsimp only
    rw [changes]
    refine ⟨fun h => by rw [State.hrefChange_same h], fun h hb => ?_, fun h hb => ?_⟩
    · subst hb
      unfold State.hrefChange
      rw [if_neg (by rw [h]; decide)]
      rfl
    · subst hb
      unfold State.hrefChange
      rw [if_neg (by rw [h]; decide)]
      rfl

end Sys2Proof.Machine
end

section
/-! SUPPLY_FAILURE ends a bank test (R433, R454). -/

namespace Sys2Proof.Machine

/-- A module in Solo with Plate enabled and a bank test running. -/
def State.underBankTest : State := ((State.reset.setMode .solo).wr Reg.PLT_CTL 1).wr Reg.PLT_BANK_STATUS 8

/-- The supply failure of that module as the statement has it, with its bank test left running. -/
def State.failsUnderTest (g : Bool) : State :=
  let s : State := .underBankTest
  (State.setFld { s with steady := { s.steady with good := g } } Reg.STY_SUPPLY 31 31 1).raise Reg.STY_INT_STATUS 0

/-- The model ends the test. -/
theorem State.bankTest_after_supplyFailure :
    (State.underBankTest.seal State.underBankTest.supplyFailure).bit Reg.PLT_BANK_STATUS 3 = false := by decide +kernel

theorem State.bankTest_after_failsUnderTest (g : Bool) :
    (State.underBankTest.seal (State.failsUnderTest g)).bit Reg.PLT_BANK_STATUS 3 = true := by
  revert g
  decide +kernel

theorem State.failsUnderTest_etches (g : Bool) :
    (State.failsUnderTest g).bit Reg.PLT_CTL 0 = true ∧ (State.failsUnderTest g).mode ≠ .dormant := by
  revert g
  decide +kernel

/-- Refutes O49: a supply failure ends a running bank test (PLT_BANK_STATUS bit 3, R433), and the statement's next state leaves it
running. -/
theorem not_vigilWakeSourcesAndSupplyFailure : ¬ Obligations.VigilWakeSourcesAndSupplyFailure := by
  unfold Obligations.VigilWakeSourcesAndSupplyFailure
  intro h
  obtain ⟨-, -, -, -, -, -, -, -, supply⟩ := h
  obtain ⟨-, -, -, fails⟩ := supply State.underBankTest
  obtain ⟨g, -, etches, -⟩ := fails (by decide +kernel)
  obtain ⟨hctl, hmode⟩ := State.failsUnderTest_etches g
  have model : exec .supplyFailure State.underBankTest = .next (State.underBankTest.seal State.underBankTest.supplyFailure) :=
    done_true _ _
  have same := Host.Outcome.next.inj (model.symm.trans (etches hctl hmode))
  have ended := State.bankTest_after_supplyFailure
  rw [same] at ended
  exact absurd (State.bankTest_after_failsUnderTest g) (ne_true_of_eq_false ended)

end Sys2Proof.Machine
end

section
/-! Vendor requests (R504 to R507). -/

namespace Sys2Proof.Machine

section
variable {s : State} {req : List Byte} {code n : Nat} {f : State → VendorAnswer × State}

/-- The request is answered in the row of command `code`: it is its own or a reserved one, and something answers. -/
def State.Heard (s : State) (req : List Byte) (code : Nat) : Prop :=
  vendorRequest req = true ∧ (byteAt req 4 = code ∨ byteAt req 4 = 0 ∨ 7 < byteAt req 4) ∧ s.mgtAnswers = true

/-- Steady alone cannot serve the request, with SPINE off. -/
def State.Unpowered (s : State) (req : List Byte) : Prop := s.spineOn = false ∧ (byteAt req 4 = 0 ∨ 3 < byteAt req 4)

/-- The reserved bits are 0, and the request has `n` bytes of data. -/
def VendorClean (req : List Byte) (n : Nat) : Prop := byteAt req 3 / 32 % 4 = 0 ∧ byteAt req 5 = 0 ∧ req.length = 6 + n

theorem State.heard_iff :
    (!vendorRequest req || (byteAt req 4 ≠ code && 1 ≤ byteAt req 4 && byteAt req 4 ≤ 7) || !s.mgtAnswers) = true ↔ ¬ s.Heard req code := by
  unfold State.Heard
  simp only [Bool.or_eq_true, Bool.not_eq_true', Bool.and_eq_true, decide_eq_true_eq]
  cases vendorRequest req <;> cases s.mgtAnswers <;> simp
  omega

theorem State.unpowered_iff : (!s.spineOn && (byteAt req 4 = 0 || 3 < byteAt req 4)) = true ↔ s.Unpowered req := by
  simp [State.Unpowered]

theorem vendorClean_iff :
    (byteAt req 3 / 32 % 4 ≠ 0 || byteAt req 5 ≠ 0 || req.length ≠ 6 + n) = true ↔ ¬ VendorClean req n := by
  simp only [VendorClean, Bool.or_eq_true, decide_eq_true_eq]
  tauto

theorem State.vendor_dropped (h : ¬ s.Heard req code) : s.vendor req code n f = s := if_pos (State.heard_iff.mpr h)

section
variable (h : s.Heard req code)
include h

theorem State.vendor_unpowered (hoff : s.mgtTouched.Unpowered req) :
    s.vendor req code n f = s.mgtTouched.mctpSend (vendorResponse req St.domainPoweredDown []) :=
  (if_neg fun h' => State.heard_iff.mp h' h).trans (if_pos (State.unpowered_iff.mpr hoff))

variable (hon : ¬ s.mgtTouched.Unpowered req)
include hon

theorem State.vendor_reserved (hc : byteAt req 4 = 0 ∨ 7 < byteAt req 4) :
    s.vendor req code n f = s.mgtTouched.mctpSend (vendorResponse req St.invalidOpcode []) :=
  (if_neg fun h' => State.heard_iff.mp h' h).trans ((if_neg fun h' => hon (State.unpowered_iff.mp h')).trans
    (if_pos (by simpa using hc)))

variable (hc : byteAt req 4 = code) (hcode : 0 < code ∧ code ≤ 7)
include hc hcode

theorem State.vendor_malformed (hbad : ¬ VendorClean req n) :
    s.vendor req code n f = s.mgtTouched.mctpSend (vendorResponse req St.invalidField []) :=
  (if_neg fun h' => State.heard_iff.mp h' h).trans ((if_neg fun h' => hon (State.unpowered_iff.mp h')).trans
    ((if_neg (by simp; omega)).trans (if_pos (vendorClean_iff.mpr hbad))))

variable (hclean : VendorClean req n)
include hclean

theorem State.vendor_served :
    s.vendor req code n f =
      match f s.mgtTouched with
      | (some (st, d), v) => v.mctpSend (vendorResponse req st d)
      | (none, v) => v :=
  (if_neg fun h' => State.heard_iff.mp h' h).trans ((if_neg fun h' => hon (State.unpowered_iff.mp h')).trans
    ((if_neg (by simp; omega)).trans (if_neg fun h' => vendorClean_iff.mp h' hclean)))

theorem State.vendor_answers {st : Nat} {d : List Byte} {v : State} (hf : f s.mgtTouched = (some (st, d), v)) :
    s.vendor req code n f = v.mctpSend (vendorResponse req st d) := by
  rw [State.vendor_served h hon hc hcode hclean, hf]

theorem State.vendor_waits {v : State} (hf : f s.mgtTouched = (none, v)) : s.vendor req code n f = v := by
  rw [State.vendor_served h hon hc hcode hclean, hf]

end

/-- The rule of one vendor command's row (R505, R506). -/
def ServesVendor (row : List Byte → Instr) (code n : Nat) (f : State → List Byte → VendorAnswer × State) : Prop :=
  ∀ (s : State) (req : List Byte),
    let u := s.mgtTouched
    let tells (v : State) (st : Nat) (d : List Byte) := exec (row req) s = .next (s.seal (v.mctpSend (vendorResponse req st d)))
    (¬ s.Heard req code → exec (row req) s = .next (s.seal s)) ∧
    (s.Heard req code → u.Unpowered req → tells u St.domainPoweredDown []) ∧
    (s.Heard req code → ¬ u.Unpowered req → byteAt req 4 = 0 ∨ 7 < byteAt req 4 → tells u St.invalidOpcode []) ∧
    (s.Heard req code → ¬ u.Unpowered req → byteAt req 4 = code → ¬ VendorClean req n → tells u St.invalidField []) ∧
    (s.Heard req code → ¬ u.Unpowered req → byteAt req 4 = code → VendorClean req n → ∀ a v, f u req = (a, v) →
      (∀ st d, a = some (st, d) → tells v st d) ∧ (a = none → exec (row req) s = .next (s.seal v)))

/-- A row that runs `State.vendor` keeps the rule. -/
theorem servesVendor_of {row : List Byte → Instr} {f : State → List Byte → VendorAnswer × State} (hcode : 0 < code ∧ code ≤ 7)
    (hrow : ∀ s req, exec (row req) s = .next (s.seal (s.vendor req code n (fun u => f u req)))) : ServesVendor row code n f := by
  intro s req
  dsimp only
  rw [hrow]
  refine ⟨fun h => by rw [State.vendor_dropped h], fun h hoff => by rw [State.vendor_unpowered h hoff],
    fun h hon hc => by rw [State.vendor_reserved h hon hc], fun h hon hc hbad => by rw [State.vendor_malformed h hon hc hcode hbad],
    fun h hon hc hclean a v hf => ⟨fun st d ha => ?_, fun ha => ?_⟩⟩
  · rw [State.vendor_answers h hon hc hcode hclean (hf.trans (by rw [ha]))]
  · rw [State.vendor_waits h hon hc hcode hclean (hf.trans (by rw [ha]))]

end

/-! What each row serves. -/

section
variable {s u : State} {req : List Byte}

/-- A sensor's answer: those of SPINE's domain need its power. -/
theorem State.sensorAnswer_eq (i : Nat) :
    (if !u.spineOn && 0x10 ≤ i && i < 0x24 then (some (St.domainPoweredDown, []), u)
      else (match u.sensor i with
        | some v => (some (St.ok, natLE 4 (v % (2 ^ 32 : Int)).toNat), u)
        | none => (some (St.invalidField, []), u) : VendorAnswer × State)) =
    (if u.spineOn = false ∧ 0x10 ≤ i ∧ i < 0x24 then some (St.domainPoweredDown, [])
      else match u.sensor i with
        | some v => some (St.ok, natLE 4 (v % (2 ^ 32 : Int)).toNat)
        | none => some (St.invalidField, []), u) := by
  by_cases h : u.spineOn = false ∧ 0x10 ≤ i ∧ i < 0x24
  · rw [if_pos h, if_pos (by simpa [and_assoc] using h)]
  · rw [if_neg h, if_neg (by simpa [and_assoc] using h)]
    cases u.sensor i <;> rfl

theorem State.logAnswer_eq (l off len : Nat) :
    (if l = 0 || 6 < l then (some (St.invalidField, []), u)
      else (some (rangeAnswer off len (logSize l) (fun i => (u.logBytes l).getD i 0)), u) : VendorAnswer × State) =
    (some (if l = 0 ∨ 6 < l then (St.invalidField, [])
      else rangeAnswer off len (logSize l) (fun i => (u.logBytes l).getD i 0)), u) := by
  by_cases h : l = 0 ∨ 6 < l
  · rw [if_pos h, if_pos (by simpa using h)]
  · rw [if_neg h, if_neg (by simpa using h)]

theorem State.mctpAccess_eq (o : Nat) (value : Option Word) :
    u.mctpAccess o value =
      if o % 4 ≠ 0 ∨ 0x1000000 ≤ o then (some (St.invalidField, []), u)
      else
        let r := u.debugAccess o value
        (if r.1.status = St.held then none else some (r.1.status, if value.isSome then [] else r.1.data), r.2) := by
  unfold State.mctpAccess
  by_cases h : o % 4 ≠ 0 ∨ 0x1000000 ≤ o
  · rw [if_pos h, if_pos (by simpa using h)]
  · rw [if_neg h, if_neg (by simpa using h)]

/-- Bytes `off` to `off + len - 1` of something that has them, at most 56. -/
theorem rangeAnswer_bytes {off len size : Nat} {get : Nat → Byte} (h0 : 0 < len) (h56 : len ≤ 56) (hend : off + len ≤ size) :
    rangeAnswer off len size get = (St.ok, (rangeFrom off len).map get) :=
  (if_neg (Nat.pos_iff_ne_zero.mp h0)).trans ((if_neg (Nat.not_lt.mpr h56)).trans (if_neg (Nat.not_lt.mpr hend)))

theorem getD_map_rangeFrom {off len i : Nat} {get : Nat → Byte} (hi : i < len) : ((rangeFrom off len).map get).getD i 0 = get (off + i) := by
  simp [rangeFrom, hi]

end

end Sys2Proof.Machine
end

section
/-! RESET by message: SPINE stays on while the transaction is taken note of (R451, R505). -/

namespace Sys2Proof.Machine

section
variable {s : State} {req : List Byte}

theorem State.raise_rd_calm (st b k : Nat) (hk : Calm k) (hst : k ≠ st) : (s.raise st b).rd k = s.rd k := by
  unfold State.raise
  rw [State.guardEdge_rd _ k hk, State.rd_setFld_other _ _ _ _ hst]

theorem State.mayBoot_spine (h : s.spineOn = true) : s.mayBoot = false := by
  have on : s.domState 1 = 0 := of_decide_eq_true h
  simp [State.mayBoot, on]

/-- A wake source leaves SPINE on where it is. -/
theorem State.wake_spineOn (b : Nat) (h : s.spineOn = true) : (s.wake b).spineOn = true := by
  have noted : ((s.setFld Reg.STY_WAKE_CAUSE b b 1).raise Reg.STY_INT_STATUS 1).spineOn = true := by
    unfold State.spineOn State.domState State.fld at h ⊢
    rw [State.raise_rd_calm _ _ _ (by decide) (by decide), State.rd_setFld_other _ _ _ _ (by decide)]
    exact h
  unfold State.wake
  dsimp only
  rw [State.mayBoot_spine noted]
  split
  · exact noted
  · split
    · exact noted
    · exact noted

theorem State.mgtTouched_spineOn (h : s.spineOn = true) : s.mgtTouched.spineOn = true := by
  unfold State.mgtTouched State.wakeSource
  split
  · exact h
  · split
    · exact h
    · split
      · exact h
      · exact State.wake_spineOn 5 h

/-- A well-formed RESET request to a module whose SPINE is on. -/
def State.ResetRequest (s : State) (req : List Byte) : Prop :=
  vendorRequest req = true ∧ byteAt req 4 = 7 ∧ s.spineOn = true ∧ byteAt req 3 / 32 % 4 = 0 ∧ byteAt req 5 = 0 ∧ req.length = 8

/-- The answer to RESET: its KEY must be right. -/
def resetAnswer (req : List Byte) (u : State) : VendorAnswer × State :=
  (some (if fieldLE req 6 2 = 0xD1E5 then St.ok else St.invalidField, []), u)

theorem State.resetAnswered (h : s.ResetRequest req) :
    s.vendor req 7 2 (resetAnswer req) =
      s.mgtTouched.mctpSend (vendorResponse req (if fieldLE req 6 2 = 0xD1E5 then St.ok else St.invalidField) []) := by
  obtain ⟨hreq, hc, hon, h3, h5, hlen⟩ := h
  have touched := State.mgtTouched_spineOn hon
  exact State.vendor_answers ⟨hreq, .inl hc, by rw [State.mgtAnswers, hon]; rfl⟩ (fun h => by simp [h.1] at touched) hc (by decide)
    ⟨h3, h5, hlen⟩ rfl

theorem State.mctpReset_iff :
    (decide (fieldLE req 6 2 = 0xD1E5) && vendorRequest req && byteAt req 4 = 7 && s.spineOn && byteAt req 3 / 32 % 4 = 0
      && byteAt req 5 = 0 && req.length = 8) = true ↔ fieldLE req 6 2 = 0xD1E5 ∧ s.ResetRequest req := by
  simp only [State.ResetRequest, Bool.and_eq_true, decide_eq_true_eq, and_assoc]

theorem State.mctpReset_resets (h : s.ResetRequest req) (hkey : fieldLE req 6 2 = 0xD1E5) :
    s.mctpReset req = (s.vendor req 7 2 (resetAnswer req)).orderlyReset 5 := by
  unfold State.mctpReset
  dsimp only
  rw [if_pos (State.mctpReset_iff.mpr ⟨hkey, h⟩)]
  rfl

theorem State.mctpReset_answers (h : ¬ (fieldLE req 6 2 = 0xD1E5 ∧ s.ResetRequest req)) :
    s.mctpReset req = s.vendor req 7 2 (resetAnswer req) := by
  unfold State.mctpReset
  dsimp only
  rw [if_neg fun h' => h (State.mctpReset_iff.mp h')]
  rfl

end

end Sys2Proof.Machine
end

section
/-! MCTP control messages, I3C codes and JTAG instructions (R503, R504, R506, R508). -/

namespace Sys2Proof.Machine

section
variable {s : State} {req : List Byte}

/-- An MCTP control request to a module that answers. -/
def State.ControlHeard (s : State) (req : List Byte) : Prop :=
  byteAt req 0 = 0 ∧ 128 ≤ byteAt req 1 ∧ 3 ≤ req.length ∧ s.mgtAnswers = true

theorem State.controlHeard_iff :
    (byteAt req 0 ≠ 0 || byteAt req 1 < 128 || req.length < 3 || !s.mgtAnswers) = true ↔ ¬ s.ControlHeard req := by
  unfold State.ControlHeard
  simp only [Bool.or_eq_true, decide_eq_true_eq, Bool.not_eq_true']
  cases s.mgtAnswers <;> simp
  omega

/-- The message that answers a control request with completion code `code`. -/
def controlMessage (req : List Byte) (code : Nat) (d : List Byte) : List Byte :=
  [0, BitVec.ofNat 8 (byteAt req 1 % 32), BitVec.ofNat 8 (byteAt req 2), BitVec.ofNat 8 code] ++ d

theorem State.mctpControl_dropped (h : ¬ s.ControlHeard req) : s.mctpControl req = s := if_pos (State.controlHeard_iff.mpr h)

section
variable {code : Nat} {d : List Byte} (h : s.ControlHeard req)
include h

theorem State.mctpControl_tells
    (ha : controlAnswer (s.mgtTouched.fld Reg.MGT_EID 7 0) (byteAt req 2) (req.drop 3) = (code, d, none)) :
    s.mctpControl req = s.mgtTouched.mctpSend (controlMessage req code d) := by
  unfold State.mctpControl
  rw [if_neg fun h' => State.controlHeard_iff.mp h' h]
  dsimp only
  rw [ha]
  rfl

theorem State.mctpControl_sets {e : Nat}
    (ha : controlAnswer (s.mgtTouched.fld Reg.MGT_EID 7 0) (byteAt req 2) (req.drop 3) = (code, d, some e)) :
    s.mctpControl req = (s.mgtTouched.setFld Reg.MGT_EID 7 0 e).mctpSend (controlMessage req code d) := by
  unfold State.mctpControl
  rw [if_neg fun h' => State.controlHeard_iff.mp h' h]
  dsimp only
  rw [ha]
  rfl

end

theorem byteAt_drop (i j : Nat) : byteAt (req.drop i) j = byteAt req (i + j) := by simp [byteAt]

section
variable {eid : Nat}

theorem controlAnswer_eid (hlen : req.length = 5) (hop : byteAt req 3 ≤ 1) (h8 : 8 ≤ byteAt req 4) (hff : byteAt req 4 ≠ 0xFF) :
    controlAnswer eid 1 (req.drop 3) = (0, [0, BitVec.ofNat 8 (byteAt req 4), 0], some (byteAt req 4)) := by
  simp [controlAnswer, byteAt_drop, hlen, hff, Nat.not_lt.mpr hop, Nat.not_lt.mpr h8]

theorem controlAnswer_badEid (hlen : req.length = 5) (hbad : 1 < byteAt req 3 ∨ byteAt req 4 < 8 ∨ byteAt req 4 = 0xFF) :
    controlAnswer eid 1 (req.drop 3) = (2, [], none) := by
  simp [controlAnswer, byteAt_drop, hlen]
  omega

theorem controlAnswer_getEid (hlen : req.length = 3) : controlAnswer eid 2 (req.drop 3) = (0, [BitVec.ofNat 8 eid, 0, 0], none) := by
  simp [controlAnswer, hlen]

theorem controlAnswer_types (hlen : req.length = 3) : controlAnswer eid 5 (req.drop 3) = (0, [1, 0x7E], none) := by
  simp [controlAnswer, hlen]

theorem controlAnswer_unknown {c : Nat} (hc : c = 0 ∨ 6 < c) : controlAnswer eid c req = (5, [], none) := by
  unfold controlAnswer
  dsimp only
  rw [if_neg (by omega), if_neg (by omega), if_neg (by omega), if_neg (by omega), if_neg (by omega), if_neg (by omega)]

end

/-! I3C. -/

/-- The I3C target hears a code: something answers, and with SPINE on its unit is enabled. -/
def State.I3cHears (s : State) : Prop := s.mgtAnswers = true ∧ (s.spineOn = true → s.bit Reg.MGT_CTL 0 = true)

theorem State.i3cHears_iff : (!s.mgtAnswers || (s.spineOn && !s.bit Reg.MGT_CTL 0)) = true ↔ ¬ s.I3cHears := by
  unfold State.I3cHears
  cases s.mgtAnswers <;> simp

section
variable {ccc : Nat} {d : List Byte}

theorem State.i3cCcc_deaf (h : ¬ s.I3cHears) : s.i3cCcc ccc d = s := if_pos (State.i3cHears_iff.mpr h)

theorem State.i3cCcc_unknown (h : s.I3cHears)
    (hccc : ccc ∉ [0x00, 0x80, 0x01, 0x81, 0x06, 0x07, 0x87, 0x8D, 0x8E, 0x8F, 0x90, 0x2A, 0x9A]) : s.i3cCcc ccc d = s.mgtTouched := by
  unfold State.i3cCcc
  rw [if_neg fun h' => State.i3cHears_iff.mp h' h]
  dsimp only
  split <;> simp_all

end

/-! JTAG. -/

theorem State.jtag_boundary : s.jtag .boundary = s.setTap (if s.mode = .bringUp then 3 else 1) := rfl

section
variable {off : Nat} {value : Option Word}

theorem State.jtag_debug_unaligned (h : off % 4 ≠ 0) : s.jtag (.debug off value) = s.setTap 4 := if_pos (by simp [h])

theorem State.jtag_debug (h : off % 4 = 0) (hoff : off < 0x1000000) {a : MemAnswer} {v : State}
    (hacc : (s.setTap 4).debugAccess off value = (a, v)) :
    s.jtag (.debug off value) = { v with answer := ⟨a.status, a.data, false, a.poison⟩ } := by
  unfold State.jtag
  dsimp only
  rw [if_neg (by simp [h]; omega), hacc]

end

end

/-- Settles O56: the vendor rows by `servesVendor_of`, the other rows by the cases of their lemmas above. -/
theorem managementMessagesAreAnswered : Obligations.ManagementMessagesAreAnswered := by
  unfold Obligations.ManagementMessagesAreAnswered
  intro serves access
  have rows {row : List Byte → Instr} {code n : Nat} {f : State → List Byte → VendorAnswer × State} (hcode : 0 < code ∧ code ≤ 7)
      (hrow : ∀ s req, exec (row req) s = .next (s.seal (s.vendor req code n (fun u => f u req)))) : serves row code n f :=
    servesVendor_of hcode hrow
  clear_value serves
  refine ⟨rows (by decide) fun s req => done_true s _, rows (by decide) fun s req => ?_, rows (by decide) fun s req => done_true s _,
    rows (by decide) fun s req => ?_, rows (by decide) fun s req => ?_, rows (by decide) fun s req => ?_,
    fun s req => ⟨_, done_true s _, fun hreq hc hon h3 h5 hlen => ?_, fun hnot => ?_⟩, fun off len size get => ?_,
    fun s req => ?_, fun s ccc d => ?_, fun s off value hoff => ?_⟩
  · exact congrArg (fun f => Host.Outcome.next (s.seal (s.vendor req 2 1 f))) (funext fun u => State.sensorAnswer_eq _)
  · exact congrArg (fun f => Host.Outcome.next (s.seal (s.vendor req 4 6 f))) (funext fun u => State.logAnswer_eq _ _ _)
  · exact congrArg (fun f => Host.Outcome.next (s.seal (s.vendor req 5 4 f))) (funext fun u => State.mctpAccess_eq _ _)
  · exact congrArg (fun f => Host.Outcome.next (s.seal (s.vendor req 6 8 f))) (funext fun u => State.mctpAccess_eq _ _)
  · have asked : s.ResetRequest req := ⟨hreq, hc, hon, h3, h5, hlen⟩
    refine ⟨fun hkey => ?_, fun hkey => ?_⟩
    · rw [State.mctpReset_resets asked hkey, State.resetAnswered asked, if_pos hkey]
    · rw [State.mctpReset_answers fun h => hkey h.1, State.resetAnswered asked, if_neg hkey]
  · refine State.mctpReset_answers fun h => hnot ?_
    obtain ⟨hkey, hreq, hc, hon, h3, h5, hlen⟩ := h
    exact ⟨hreq, hc, hon, h3, h5, hlen, hkey⟩
  · refine ⟨fun h => if_pos h, fun h => (if_neg (by omega)).trans (if_pos h),
      fun h0 h56 h => (if_neg (by omega)).trans ((if_neg (by omega)).trans (if_pos h)), fun h0 h56 h => ?_⟩
    exact ⟨_, rangeAnswer_bytes h0 h56 h, by simp [rangeFrom], fun i hi => getD_map_rangeFrom hi⟩
  · have controls : exec (.mctpControl req) s = .next (s.seal (s.mctpControl req)) := done_true s _
    dsimp only
    rw [controls]
    refine ⟨fun h => by rw [State.mctpControl_dropped h], fun h hcmd hlen => ⟨fun hop h8 hff => ?_, fun hbad => ?_⟩,
      fun h hcmd hlen => ?_, fun h hcmd hlen => ?_, fun h hcmd => ?_⟩
    · rw [State.mctpControl_sets h ((congrArg (controlAnswer _ · _) hcmd).trans (controlAnswer_eid hlen hop h8 hff))]
      rfl
    · rw [State.mctpControl_tells h ((congrArg (controlAnswer _ · _) hcmd).trans (controlAnswer_badEid hlen hbad))]
      rfl
    · rw [State.mctpControl_tells h ((congrArg (controlAnswer _ · _) hcmd).trans (controlAnswer_getEid hlen))]
      rfl
    · rw [State.mctpControl_tells h ((congrArg (controlAnswer _ · _) hcmd).trans (controlAnswer_types hlen))]
      rfl
    · rw [State.mctpControl_tells h (controlAnswer_unknown hcmd)]
      rfl
  · have codes : exec (.i3cCcc ccc d) s = .next (s.seal (s.i3cCcc ccc.toNat d)) := done_true s _
    dsimp only
    rw [codes]
    refine ⟨fun h => by rw [State.i3cCcc_deaf h], fun h => ?_⟩
    have heard (w : State) : (if (!s.mgtAnswers || (s.spineOn && !s.bit Reg.MGT_CTL 0)) = true then s else w) = w :=
      if_neg fun h' => State.i3cHears_iff.mp h' h
    refine ⟨?_, ?_, ?_, ?_, ?_, ?_, ?_, ?_, ?_, ?_, ?_⟩
    · rintro rfl
      exact congrArg (fun x => Host.Outcome.next (s.seal x)) (heard _)
    · rintro rfl
      exact congrArg (fun x => Host.Outcome.next (s.seal x)) (heard _)
    · rintro rfl
      exact congrArg (fun x => Host.Outcome.next (s.seal x)) (heard _)
    · rintro rfl
      exact congrArg (fun x => Host.Outcome.next (s.seal x)) (heard _)
    · rintro rfl
      exact congrArg (fun x => Host.Outcome.next (s.seal x)) (heard _)
    · rintro rfl
      exact congrArg (fun x => Host.Outcome.next (s.seal x)) (heard _)
    · rintro (rfl | rfl)
      · exact congrArg (fun x => Host.Outcome.next (s.seal x)) (heard _)
      · exact congrArg (fun x => Host.Outcome.next (s.seal x)) (heard _)
    · rintro (rfl | rfl)
      · exact congrArg (fun x => Host.Outcome.next (s.seal x)) (heard _)
      · exact congrArg (fun x => Host.Outcome.next (s.seal x)) (heard _)
    · rintro (rfl | rfl)
      · exact congrArg (fun x => Host.Outcome.next (s.seal x)) (heard _)
      · exact congrArg (fun x => Host.Outcome.next (s.seal x)) (heard _)
    · rintro rfl
      exact congrArg (fun x => Host.Outcome.next (s.seal x)) (heard _)
    · intro hccc
      rw [State.i3cCcc_unknown h]
      simpa [BitVec.toNat_eq] using hccc
  · have runs (i : JtagInsn) (hi : i.ok = true) : exec (.jtagInstruction i) s = .next (s.seal (s.jtag i)) := done_of hi s _
    dsimp only
    rw [runs .tapReset rfl, runs .bypass rfl, runs .idcode rfl, runs .boundary rfl, runs (.debug off value) (decide_eq_true hoff)]
    refine ⟨rfl, rfl, rfl, fun h => ?_, fun h => ?_, fun h => ?_, fun a v h hacc => ?_⟩
    · rw [State.jtag_boundary, if_pos h]
      rfl
    · rw [State.jtag_boundary, if_neg h]
      rfl
    · rw [State.jtag_debug_unaligned h]
      rfl
    · rw [State.jtag_debug h hoff hacc]

end Sys2Proof.Machine
end

section
/-! Power-down, drains and power-up (R439, R441 to R444, R457). -/

namespace Sys2Proof.Machine

section
variable {s : State} {m d : Nat} {drained : Bool}

theorem State.domCtl_off :
    s.domCtl m d (s.cmdWord (Reg.STY_DOM_CTL d) 1 31 31 1) drained =
      (s.plainWrite m (Reg.STY_DOM_CTL d) (s.cmdWord (Reg.STY_DOM_CTL d) 1 31 31 1)).powerDown d drained :=
  (if_neg (by simp [State.cmdWord_testBit])).trans (if_pos (by simp [State.cmdWord_testBit]))

theorem State.domCtl_on :
    s.domCtl m d (s.cmdWord (Reg.STY_DOM_CTL d) 1 30 30 1) drained =
      (s.plainWrite m (Reg.STY_DOM_CTL d) (s.cmdWord (Reg.STY_DOM_CTL d) 1 30 30 1)).powerUp d :=
  (if_neg (by simp [State.cmdWord_testBit])).trans
    ((if_neg (by simp [State.cmdWord_testBit])).trans (if_pos (by simp [State.cmdWord_testBit])))

theorem State.powerDown_always (h : d < 2) : s.powerDown d drained = s.refuseDomain d Tgt.steady 3 := if_pos h

section
variable (h2 : 2 ≤ d)
include h2

theorem State.powerDown_notOn (h : s.domState d ≠ 0) : s.powerDown d drained = s := by
  unfold State.powerDown
  rw [if_neg (Nat.not_lt.mpr h2)]
  cases hd : s.domState d with
  | zero => exact absurd hd h
  | succ n => rfl

variable (hon : s.domState d = 0)
include hon

theorem State.powerDown_etch (h : 2 ≤ s.fld Reg.PLT_STATUS 31 29) : s.powerDown d drained = s.refuseDomain d Tgt.plate 4 := by
  unfold State.powerDown
  rw [if_neg (Nat.not_lt.mpr h2), hon]
  exact if_pos h

variable (hplt : s.fld Reg.PLT_STATUS 31 29 < 2)
include hplt

theorem State.powerDown_mode (h : s.modeLetsOff d = false) : s.powerDown d drained = s.refuseDomain d Tgt.steady 3 := by
  unfold State.powerDown
  rw [if_neg (Nat.not_lt.mpr h2), hon]
  exact (if_neg (Nat.not_le.mpr hplt)).trans (if_pos (by rw [h]; rfl))

variable (hmode : s.modeLetsOff d = true)
include hmode

theorem State.powerDown_busy {x : Nat} (h : s.domainBusy d = some x) : s.powerDown d drained = s.refuseDomain d x 2 := by
  unfold State.powerDown
  rw [if_neg (Nat.not_lt.mpr h2), hon]
  refine (if_neg (Nat.not_le.mpr hplt)).trans ((if_neg (by rw [hmode]; decide)).trans ?_)
  rw [h]

theorem State.powerDown_fences (h : s.domainBusy d = none) :
    s.powerDown d drained = if drained then s.cutDomain d else s.setFld (Reg.STY_DOM_STATUS d) 31 30 1 := by
  unfold State.powerDown
  rw [if_neg (Nat.not_lt.mpr h2), hon]
  refine (if_neg (Nat.not_le.mpr hplt)).trans ((if_neg (by rw [hmode]; decide)).trans ?_)
  rw [h]

end

/-- A refusal is counted, and logged with its time (R457). -/
theorem State.refuseDomain_eq (unit reason : Nat) :
    s.refuseDomain d unit reason =
      (s.setFld (Reg.STY_DOM_STATUS d) 15 0 (min (s.fld (Reg.STY_DOM_STATUS d) 15 0 + 1) 65535)).logRefusal d unit reason := by
  have sum : satAdd 16 (s.fld (Reg.STY_DOM_STATUS d) 15 0) 1 = min (s.fld (Reg.STY_DOM_STATUS d) 15 0 + 1) 65535 := by
    unfold satAdd
    split <;> omega
  exact congrArg (fun n => (s.setFld (Reg.STY_DOM_STATUS d) 15 0 n).logRefusal d unit reason) sum

/-! What the mode and the units let be off. -/

theorem State.modeLetsOff_range (h : s.modeLetsOff d = true) : 3 ≤ d ∧ d ≠ 11 ∧ d < 13 := by
  unfold State.modeLetsOff at h
  by_contra hd
  rw [if_pos (by simp; omega)] at h
  exact absurd h (by decide)

theorem State.modeLetsOff_spine (h : s.mode ≠ .vigil) : s.modeLetsOff 3 = false := by
  simp [State.modeLetsOff, h]

theorem State.modeLetsOff_bringUp (h : s.mode = .bringUp) : s.modeLetsOff 10 = false := by
  simp [State.modeLetsOff, h]

theorem State.domainBusy_cache : s.domainBusy 8 = none ↔ s.bit Reg.SC_CTL 0 = false ∧ s.bit Reg.SC_CTL 4 = false := by
  simp [State.domainBusy]

theorem State.domainBusy_gauge : s.domainBusy 9 = none ↔ ∀ t < 16, s.gTable t = false := by
  simp [State.domainBusy]

theorem State.domainBusy_hatch : s.domainBusy 12 = none ↔ ∀ p < 8, s.portState p ≠ 2 ∧ s.portState p ≠ 5 := by
  simp [State.domainBusy]

/-! DRAIN_TIMEOUT. -/

section
variable {holder : Nat}

theorem State.drainTimeout_not (h : s.domState d ≠ 1) : s.drainTimeout d holder = s := if_pos h

theorem State.drainTimeout_cuts (h : s.domState d = 1) (hshut : s.plate.shut = true) :
    s.drainTimeout d holder =
      (s.report ⟨St.domainPoweredDown, holder, 2, Mid.steady, 0, 0xFFFF, d⟩).cutDomain d :=
  (if_neg (not_not.mpr h)).trans (if_pos hshut)

theorem State.drainTimeout_lifts (h : s.domState d = 1) (hshut : s.plate.shut = false) :
    s.drainTimeout d holder =
      let u := (s.setFld (Reg.STY_DOM_STATUS d) 31 30 0).refuseDomain d holder 1
      { u with steady := { u.steady with onLater := setBits u.steady.onLater d d 0 } } :=
  (if_neg (not_not.mpr h)).trans (if_neg (ne_true_of_eq_false hshut))

end

/-! Power-up. -/

theorem State.powerUp_steady (h : d = 0) : s.powerUp d = s.refuseDomain 0 Tgt.steady 3 := by
  subst h
  rfl

section
variable (h0 : d ≠ 0)
include h0

theorem State.powerUp_fencing (h : s.domState d = 1) :
    s.powerUp d = { s with steady := { s.steady with onLater := setBits s.steady.onLater d d 1 } } := by
  unfold State.powerUp
  rw [if_neg h0, h]
  rfl

theorem State.powerUp_off (h : s.domState d = 2) :
    s.powerUp d = if s.plate.shut then s else s.setFld (Reg.STY_DOM_STATUS d) 31 30 3 := by
  unfold State.powerUp
  rw [if_neg h0, h]
  rfl

theorem State.powerUp_else (h1 : s.domState d ≠ 1) (h2 : s.domState d ≠ 2) : s.powerUp d = s := by
  unfold State.powerUp
  rw [if_neg h0]
  split
  · contradiction
  · contradiction
  · rfl

end

theorem State.autoWake_wakes (h : s.domState d = 2) (hauto : s.bit (Reg.STY_DOM_CTL d) 0 = true) : s.autoWake d = s.powerUp d :=
  if_pos (by rw [hauto, decide_eq_true h]; rfl)

theorem State.autoWake_not (h : s.domState d ≠ 2 ∨ s.bit (Reg.STY_DOM_CTL d) 0 = false) : s.autoWake d = s := by
  refine if_neg ?_
  rcases h with h | h <;> simp [h]

theorem State.powerUpDone_not {b : Bus} (h : s.domState d ≠ 3) : s.powerUpDone b d = s := if_pos h

theorem State.powerUpDone_restores {b : Bus} (h : s.domState d = 3) :
    s.powerUpDone b d =
      let u := (s.restoreDomain b d).setFld (Reg.STY_DOM_STATUS d) 31 30 0
      if 4 ≤ d ∧ d < 8 then u.setFld (Reg.STY_QPLL (d - 4)) 31 31 1 else u := by
  unfold State.powerUpDone
  rw [if_neg (not_not.mpr h)]
  simp only [Bool.and_eq_true, decide_eq_true_eq]

section
variable {r : Request}

theorem State.heldRequest_on (h : s.domState (s.domainOf (s.region r.dpa r.len)) = 0) : s.heldRequest r = s := if_pos h

theorem State.heldRequest_answered {a : MemAnswer} {u : State} (h : s.domState (s.domainOf (s.region r.dpa r.len)) ≠ 0)
    (hreq : s.request bus r false = (a, u)) : s.heldRequest r = u.mcAnswer a := by
  unfold State.heldRequest State.targetRequest
  rw [if_neg h]
  have clean : decide (Ecc.clean = .uncorrectable) = false := by decide
  dsimp only
  rw [clean, hreq]
  simp

end

end

/-! Clocks (R446 to R448) and throttling (R455). -/

section
variable {s : State} {n k : Nat}

/-- Local tile `n` is idle, or waits on a channel only. -/
def State.TileIdle (s : State) (n : Nat) : Prop :=
  (s.bit (Reg.TIL_CTL n) 0 = false ∨ (s.core n).chWait ≠ none) ∧ s.unperformed n = false ∧
    ∀ x ∈ s.noc, ¬(s.localTile x.tile = some n ∧ x.kind < 2) ∧ x.sender ≠ n

theorem State.tileIdle_iff :
    ((!s.bit (Reg.TIL_CTL n) 0 || (s.core n).chWait.isSome) && !s.unperformed n
      && !s.noc.any (fun m => (s.localTile m.tile = some n && m.kind < 2) || m.sender = n)) = true ↔ s.TileIdle n := by
  simp only [State.TileIdle, Bool.and_eq_true, Bool.or_eq_true, Bool.not_eq_true', decide_eq_true_eq, List.any_eq_false, not_or,
    Option.isSome_iff_ne_none, and_assoc, ne_eq]

theorem State.gateTile_idle (hn : n < 64) (h : s.TileIdle n) :
    s.gateTile n = { s with steady := { s.steady with gated := setBits s.steady.gated n n 1 } } :=
  if_pos (by rw [Bool.and_eq_true]; exact ⟨decide_eq_true hn, State.tileIdle_iff.mpr h⟩)

theorem State.gateTile_not (h : ¬ s.TileIdle n) : s.gateTile n = s :=
  if_neg fun h' => h (State.tileIdle_iff.mp (Bool.and_eq_true_iff.mp h').2)

/-- Quadrant `k` is on with every tile gated, and its PLL may stop. -/
def State.QuadrantGated (s : State) (k : Nat) : Prop :=
  (∀ n ∈ quadrantTiles k, s.steady.gated.testBit n = true) ∧ s.bit (Reg.STY_QPLL k) 3 = false ∧ s.domState (4 + k) = 0

theorem State.quadrantGated_iff :
    ((quadrantTiles k).all (fun n => s.steady.gated.testBit n) && !s.bit (Reg.STY_QPLL k) 3 && s.domState (4 + k) = 0) = true ↔
      s.QuadrantGated k := by
  simp only [State.QuadrantGated, Bool.and_eq_true, Bool.not_eq_true', decide_eq_true_eq, List.all_eq_true, and_assoc]

theorem State.pllStop_stops (h : s.QuadrantGated k) :
    s.pllStop k = (s.setFld (Reg.STY_QPLL k) 30 30 1).setFld (Reg.STY_QPLL k) 31 31 0 := if_pos (State.quadrantGated_iff.mpr h)

theorem State.pllStop_not (h : ¬ s.QuadrantGated k) : s.pllStop k = s := if_neg fun h' => h (State.quadrantGated_iff.mp h')

theorem State.pllRelock_stopped (h : s.bit (Reg.STY_QPLL k) 30 = true) : s.pllRelock k = s.relockPll k := if_pos h

theorem State.pllRelock_not (h : s.bit (Reg.STY_QPLL k) 30 = false) : s.pllRelock k = s := if_neg (ne_true_of_eq_false h)

/-- The quadrant is at its temperature limit, or the module draws more than its power limit. -/
def State.Hot (s : State) (k : Nat) : Prop :=
  s.fld Reg.STY_THERM_CTL 7 0 ≤ s.quadrantTemp k ∨ s.powerLimit < s.fld Reg.STY_POWER 15 0

/-- The point the next step down imposes on quadrant `k`. -/
def State.slower (s : State) (k : Nat) : Nat := min 4 (max (s.imposed k) (s.fld (Reg.STY_QPLL k) 2 0) + 1)

/-- Quadrant `k` with point `p` imposed. -/
def State.withPoint (s : State) (k p : Nat) : State := s.setFld Reg.STY_THERM_STATUS (3 * k + 2) (3 * k) p

section
variable (h : s.Hot k)
include h

theorem State.throttleStep_hot :
    s.throttleStep k =
      if s.imposed k ≤ s.fld (Reg.STY_QPLL k) 2 0 ∧ s.fld (Reg.STY_QPLL k) 2 0 < s.slower k then
        (s.withPoint k (s.slower k)).raise Reg.STY_INT_STATUS 3
      else s.withPoint k (s.slower k) := by
  unfold State.throttleStep
  dsimp only
  rw [if_pos (by rw [Bool.or_eq_true, decide_eq_true_eq, decide_eq_true_eq]; exact h)]
  simp only [Bool.and_eq_true, decide_eq_true_eq]
  rfl

end

theorem State.throttleStep_cool (h : ¬ s.Hot k) :
    s.throttleStep k =
      if s.quadrantTemp k + 5 < s.fld Reg.STY_THERM_CTL 7 0 ∧ s.fld (Reg.STY_QPLL k) 2 0 < s.imposed k then
        s.withPoint k (s.imposed k - 1)
      else s := by
  unfold State.throttleStep
  dsimp only
  rw [if_neg (by rw [Bool.or_eq_true, decide_eq_true_eq, decide_eq_true_eq]; exact h)]
  simp only [Bool.and_eq_true, decide_eq_true_eq]
  rfl

end

/-- Settles O48: each command by the cases of its own lemmas above. -/
theorem powerDomainsClocksAndThrottling : Obligations.PowerDomainsClocksAndThrottling := by
  refine ⟨fun s m d drained hm hd => ?_, fun s d => ⟨State.modeLetsOff_range, State.modeLetsOff_spine, State.modeLetsOff_bringUp,
    State.domainBusy_cache, State.domainBusy_gauge, State.domainBusy_hatch⟩, fun s d unit reason => (s.refuseDomain_eq unit reason).trans rfl, fun s d holder hd => ?_,
    fun s t m d hm hd => ?_, fun s d hd => ?_, fun s r hr => ?_, fun s t n ht hn hlocal => ?_, fun s k hk => ?_, fun s k hk => ?_,
    fun s temps power input => done_true s _⟩
  · have downs : exec (.domainPowerDown m d drained) s = .next (s.seal
        ((s.plainWrite m (Reg.STY_DOM_CTL d) (s.cmdWord (Reg.STY_DOM_CTL d) 1 31 31 1)).powerDown d drained).acked) := by
      rw [← State.domCtl_off]
      exact done_of (by simp [okMaster, hm, hd]) s _
    dsimp only
    rw [downs]
    exact ⟨fun h => by rw [State.powerDown_always h], fun h2 h => by rw [State.powerDown_notOn h2 h], fun h2 hon =>
      ⟨fun h => by rw [State.powerDown_etch h2 hon h], fun hplt => ⟨fun h => by rw [State.powerDown_mode h2 hon hplt h], fun hmode =>
        ⟨fun x h => by rw [State.powerDown_busy h2 hon hplt hmode h],
          fun h hdr => by rw [State.powerDown_fences h2 hon hplt hmode h, if_pos hdr],
          fun h hdr => by rw [State.powerDown_fences h2 hon hplt hmode h, if_neg (ne_true_of_eq_false hdr)]⟩⟩⟩⟩
  · have times : exec (.drainTimeout d holder) s = .next (s.seal (s.drainTimeout d holder.toNat)) := done_of (decide_eq_true hd) s _
    dsimp only
    rw [times]
    exact ⟨fun h => by rw [State.drainTimeout_not h], fun h hshut => by rw [State.drainTimeout_cuts h hshut],
      fun h hshut => by rw [State.drainTimeout_lifts h hshut]⟩
  · have hok : (okMaster m && decide (d < 17)) = true := by simp [okMaster, hm, hd]
    have up (u : State) : (d = 0 → u.powerUp d = u.refuseDomain 0 Tgt.steady 3) ∧
        (d ≠ 0 → u.domState d = 1 → u.powerUp d = { u with steady := { u.steady with onLater := setBits u.steady.onLater d d 1 } }) ∧
        (d ≠ 0 → u.domState d = 2 → u.plate.shut = true → u.powerUp d = u) ∧
        (d ≠ 0 → u.domState d = 2 → u.plate.shut = false → u.powerUp d = u.setFld (Reg.STY_DOM_STATUS d) 31 30 3) ∧
        (d ≠ 0 → u.domState d ≠ 1 → u.domState d ≠ 2 → u.powerUp d = u) :=
      ⟨State.powerUp_steady, State.powerUp_fencing, fun h0 h hshut => by rw [State.powerUp_off h0 h, if_pos hshut],
        fun h0 h hshut => by rw [State.powerUp_off h0 h, if_neg (ne_true_of_eq_false hshut)], State.powerUp_else⟩
    refine ⟨fun hreach => ⟨_, ?_, up _⟩, fun h hauto => ⟨s.powerUp d, ?_, up s⟩, fun h => ?_⟩
    · rw [← State.domCtl_on (drained := true)]
      exact (done_of hok s _).trans (by rw [if_neg (by decide), State.regDo_of hreach])
    · rw [← State.autoWake_wakes h hauto]
      exact done_of hok s _
    · exact (done_of hok s _).trans (congrArg (fun x => Host.Outcome.next (s.seal x)) (State.autoWake_not h))
  · have dones : exec (.domainPowerUpDone d) s = .next (s.seal (s.powerUpDone bus d)) := done_of (decide_eq_true hd) s _
    dsimp only
    rw [dones]
    exact ⟨fun h => by rw [State.powerUpDone_not h], fun h => by rw [State.powerUpDone_restores h]⟩
  · have holds : exec (.domainRequestHeld r) s = .next (s.seal (s.heldRequest r)) := done_of hr s _
    dsimp only
    rw [holds]
    exact ⟨fun h => by rw [State.heldRequest_on h], fun h a u hreq => by rw [State.heldRequest_answered h hreq]⟩
  · have gates : exec (.tileClockGate t) s = .next (s.seal (s.gateTile n)) :=
      (done_of (decide_eq_true ht) s _).trans (by rw [State.onTile_local hlocal])
    dsimp only
    rw [gates]
    exact ⟨fun h => by rw [State.gateTile_idle hn h], fun h => by rw [State.gateTile_not h]⟩
  · have stops : exec (.quadrantPllStop k) s = .next (s.seal (s.pllStop k)) := done_of (decide_eq_true hk) s _
    have relocks : exec (.quadrantPllRelock k) s = .next (s.seal (s.pllRelock k)) := done_of (decide_eq_true hk) s _
    dsimp only
    rw [stops, relocks]
    exact ⟨fun h => by rw [State.pllStop_stops h], fun h => by rw [State.pllStop_not h], fun h => by rw [State.pllRelock_stopped h],
      fun h => by rw [State.pllRelock_not h], done_of (decide_eq_true hk) s _⟩
  · have steps : exec (.throttleStep k) s = .next (s.seal (s.throttleStep k)) := done_of (decide_eq_true hk) s _
    rw [steps]
    refine ⟨fun h hcur htop => ?_, fun h hnot => ?_, fun h hcool htop => ?_, fun h hnot => ?_⟩
    · rw [State.throttleStep_hot h, if_pos ⟨hcur, htop⟩]
      rfl
    · rw [State.throttleStep_hot h, if_neg (c := s.imposed k ≤ _ ∧ _ < s.slower k) hnot]
      rfl
    · rw [State.throttleStep_cool h, if_pos ⟨hcool, htop⟩]
      rfl
    · rw [State.throttleStep_cool h, if_neg hnot]

end Sys2Proof.Machine
end

section
/-! REGION_LOAD (R412) and BACKGROUND_COPY (R416, R419). -/

namespace Sys2Proof.Machine

section
variable {s u w : State} {m n : Nat} {v : Word} {a : MemAnswer}

/-- The entries of a region table as they were read. -/
def tableEntries (a : MemAnswer) (n : Nat) : List (List Byte) := (List.range n).map (fun i => subBytes a.data (32 * i) 32)

/-- Every pair of the table is intact. -/
def TableWhole (a : MemAnswer) (n : Nat) : Prop :=
  ∀ e ∈ tableEntries a n, (pair64At e 0 && pair32At e 0x10 && pair32At e 0x18) = true

/-- The regions of a table's valid entries. -/
def tableRegions (a : MemAnswer) (n : Nat) : List PltRegion :=
  (((tableEntries a n).map regionOf).filter (fun e => e.2.2.testBit 31)).map regionMake

theorem tableWhole_iff :
    (!(tableEntries a n).all (fun e => pair64At e 0 && pair32At e 0x10 && pair32At e 0x18)) = true ↔ ¬ TableWhole a n := by
  rw [Bool.not_eq_true', ← Bool.not_eq_true, List.all_eq_true]
  rfl

theorem State.readRegions_count (h : n = 0 ∨ 256 < n) : u.readRegions n = ((St.invalidField, []), u) := if_pos (by simpa using h)

section
variable (h0 : 0 < n) (h256 : n ≤ 256) (hread : u.readMem Mid.plate (u.rd64 Reg.PLT_REGION_BASE_LO) (32 * n) = (a, w))
include h0 h256 hread

/-- The status and the regions of a table that was read. -/
theorem State.readRegions_read :
    u.readRegions n =
      let r :=
        if a.status ≠ St.ok then a.status
        else if a.poison then St.poisonedData
        else if !(tableEntries a n).all (fun e => pair64At e 0 && pair32At e 0x10 && pair32At e 0x18) then St.complementMismatch
        else if !w.regionsOk ((tableEntries a n).map regionOf) then St.invalidField
        else St.ok
      ((r, if r = St.ok then tableRegions a n else []), w) := by
  unfold State.readRegions
  rw [if_neg (by simp; omega), hread]
  rfl

theorem State.readRegions_failed (h : a.status ≠ St.ok) : u.readRegions n = ((a.status, []), w) := by
  rw [State.readRegions_read h0 h256 hread, if_pos h]
  dsimp only
  rw [if_neg h]

variable (hok : a.status = St.ok)
include hok

theorem State.readRegions_poisoned (h : a.poison = true) : u.readRegions n = ((St.poisonedData, []), w) := by
  rw [State.readRegions_read h0 h256 hread, if_neg (not_not.mpr hok), if_pos h]
  rfl

variable (hclean : a.poison = false)
include hclean

theorem State.readRegions_broken (h : ¬ TableWhole a n) : u.readRegions n = ((St.complementMismatch, []), w) := by
  rw [State.readRegions_read h0 h256 hread, if_neg (not_not.mpr hok), if_neg (ne_true_of_eq_false hclean),
    if_pos (tableWhole_iff.mpr h)]
  rfl

variable (hwhole : TableWhole a n)
include hwhole

theorem State.readRegions_invalid (h : w.regionsOk ((tableEntries a n).map regionOf) = false) :
    u.readRegions n = ((St.invalidField, []), w) := by
  rw [State.readRegions_read h0 h256 hread, if_neg (not_not.mpr hok), if_neg (ne_true_of_eq_false hclean),
    if_neg fun h' => tableWhole_iff.mp h' hwhole, if_pos (by rw [h]; rfl)]
  rfl

theorem State.readRegions_loads (h : w.regionsOk ((tableEntries a n).map regionOf) = true) :
    u.readRegions n = ((St.ok, tableRegions a n), w) := by
  rw [State.readRegions_read h0 h256 hread, if_neg (not_not.mpr hok), if_neg (ne_true_of_eq_false hclean),
    if_neg fun h' => tableWhole_iff.mp h' hwhole, if_neg (by rw [h]; decide)]
  rfl

end

theorem State.regionLoad_write (h : v.toNat.testBit 31 = false) : s.regionLoad m v = s.plainWrite m Reg.PLT_REGION_CMD v :=
  if_pos (by rw [h]; rfl)

section
variable (hgo : v.toNat.testBit 31 = true)
include hgo

theorem State.regionLoad_ends {st : Nat} {rs : List PltRegion}
    (hread : (s.plainWrite m Reg.PLT_REGION_CMD v).readRegions (bits v.toNat 24 16) = ((st, rs), w))
    (hheld : st ≠ St.held) (hst : st ≠ St.ok) : s.regionLoad m v = w.setFld Reg.PLT_REGION_CMD 15 0 st := by
  unfold State.regionLoad
  dsimp only
  rw [if_neg (by rw [hgo]; decide), hread]
  exact (if_neg hheld).trans (if_pos hst)

theorem State.regionLoad_loads {rs : List PltRegion}
    (hread : (s.plainWrite m Reg.PLT_REGION_CMD v).readRegions (bits v.toNat 24 16) = ((St.ok, rs), w)) :
    s.regionLoad m v =
      let x := w.setFld Reg.PLT_REGION_CMD 15 0 St.ok
      let x := x.setPlate { x.plate with regions := rs }
      (x.setFld Reg.PLT_RESIDENT 16 0 ((rs.map (·.chunks)).foldl (· + ·) 0)).showLimit := by
  unfold State.regionLoad
  dsimp only
  rw [if_neg (by rw [hgo]; decide), hread]
  rfl

end

end

/-! BACKGROUND_COPY. -/

section
variable {s u : State} {k loc st : Nat} {comp : Option (List Byte)} {raw : List Byte} {ps : List Nat}

theorem State.copyChunk_not (h : s.mayCopy k = false ∨ s.plate.locFree loc = false) : s.copyChunk k loc comp = s := by
  refine if_pos ?_
  rcases h with h | h <;> simp [h]

section
variable (hmay : s.mayCopy k = true) (hfree : s.plate.locFree loc = true)
  (hread : (s.setPlate (s.plate.clean k)).readGranules (2 ^ 20 * k) (List.range 16384) = ((st, raw, ps), u))
include hmay hfree hread

theorem State.copyChunk_failed (hok : st ≠ St.ok) (hheld : st ≠ St.held) :
    s.copyChunk k loc comp = { u with plate := { u.plate with dirty := s.plate.dirty } } := by
  unfold State.copyChunk
  rw [if_neg (by rw [hmay, hfree]; decide), hread]
  exact (if_neg hheld).trans (if_pos hok)

/-- The bytes the chunk is stored as: its own, or a compressed frame of them that is shorter, where COMPRESS allows it (R416). -/
def State.StoredAs (s : State) (comp : Option (List Byte)) (raw stored : List Byte) : Prop :=
  comp = none ∧ stored = raw ∨
    (comp = some stored ∧ s.bit Reg.PLT_CTL 2 = true ∧ stored.length < 2 ^ 20 ∧ chunkRaw true stored = some raw)

/-- The copy that the working set then records. -/
def chunkCopyOf (loc : Nat) (comp : Option (List Byte)) (raw stored : List Byte) (ps : List Nat) : ChunkCopy :=
  ⟨loc, comp.isSome, stored.length, if ps.isEmpty then none else some (poisonMap ps), shaDigest 0 raw⟩

theorem State.copyChunk_copies {stored : List Byte} (hok : st = St.ok) (hstored : s.StoredAs comp raw stored) :
    s.copyChunk k loc comp =
      let c := chunkCopyOf loc comp raw stored ps
      let p := u.plate
      (u.setPlate { p with
        work := FMap.setD p.work k (some c), store := FMap.setD p.store loc stored, copied := k
        etch := p.etch.map (fun e => { e with todo := e.todo.erase k, bytes := e.bytes + stored.length }) }).putWork k (some c) := by
  subst hok
  unfold State.copyChunk
  rw [if_neg (by rw [hmay, hfree]; decide), hread]
  refine (if_neg (by decide)).trans ((if_neg (by decide)).trans ?_)
  rcases hstored with ⟨rfl, rfl⟩ | ⟨rfl, hctl, hlen, hraw⟩
  · rfl
  · have fits : (s.bit Reg.PLT_CTL 2 && decide (stored.length < 2 ^ 20) && decide (chunkRaw true stored = some raw)) = true := by
      rw [hctl, decide_eq_true hlen, decide_eq_true hraw]
      rfl
    exact if_neg (by rw [Bool.not_eq_true', Bool.not_eq_false]; exact fits)

end

section
variable (hstore : s.storeFailed = false)
include hstore

theorem State.mayCopy_service (h : s.pltState = 1) : s.mayCopy k = true ↔ s.bit Reg.PLT_CTL 1 = true ∧ s.plate.nextChunk = some k := by
  simp [State.mayCopy, hstore, h]

theorem State.mayCopy_powerFail (h : s.pltState = 2) : s.mayCopy k = true ↔ k ∈ s.plate.dirtyChunks := by
  simp [State.mayCopy, hstore, h]

theorem State.mayCopy_commanded {e : EtchRun} (h : s.pltState = 4) (he : s.plate.etch = some e) : s.mayCopy k = true ↔ k ∈ e.todo := by
  simp [State.mayCopy, hstore, h, he]

theorem State.mayCopy_disabled (h : s.pltState = 0) : s.mayCopy k = false := by
  simp [State.mayCopy, hstore, h]

end
end

end Sys2Proof.Machine
end

section
/-! Etches: their beginning, ETCH_GO, their abandonment and their end (R420 to R424). -/

namespace Sys2Proof.Machine

section
variable {s : State} {m : Nat} {worn : List (Bool × List Byte)}

/-- A power-fail etch begins: the supply has failed outside Dormant, Plate is enabled and no such etch runs. -/
def State.EtchDue (s : State) : Prop :=
  s.bit Reg.STY_SUPPLY 31 = true ∧ s.mode ≠ .dormant ∧ s.bit Reg.PLT_CTL 0 = true ∧ s.pltState ≠ 2

theorem State.etchDue_iff :
    (s.bit Reg.STY_SUPPLY 31 && s.mode ≠ .dormant && s.bit Reg.PLT_CTL 0 && s.pltState ≠ 2) = true ↔ s.EtchDue := by
  simp only [State.EtchDue, Bool.and_eq_true, decide_eq_true_eq, and_assoc]

theorem State.etchStart_not (h : ¬ s.EtchDue) : s.etchStart worn = s := by
  have same : s.powerFailEtch worn = s := if_neg fun h' => h (State.etchDue_iff.mp h')
  unfold State.etchStart
  dsimp only
  rw [same]
  exact if_neg (by simp)

theorem State.etchStart_starts (h : s.EtchDue) (hplt : (s.judgeSlots worn).startEtch.pltState = 2) :
    s.etchStart worn = (s.judgeSlots worn).startEtch.sendPowerFail := by
  have starts : s.powerFailEtch worn = (s.judgeSlots worn).startEtch := if_pos (State.etchDue_iff.mpr h)
  unfold State.etchStart
  dsimp only
  rw [starts]
  exact if_pos (by rw [Bool.and_eq_true, decide_eq_true_eq, decide_eq_true_eq]; exact ⟨h.2.2.2, hplt⟩)

/-! The judging of slots by the worn copies of their headers (R39, R417). -/

section
variable {b : Bool} {h : List Byte}

theorem State.judgeSlots_empty (hslot : s.plate.slot b = none) : s.judgeSlots ((b, h) :: worn) = s.judgeSlots worn := by
  unfold State.judgeSlots
  rw [List.foldl_cons, if_pos (by rw [hslot]; rfl)]

section
variable (hslot : s.plate.slot b ≠ none)
include hslot

theorem State.judgeSlots_worn (hpairs : headerPairsOk h = true) :
    s.judgeSlots ((b, h) :: worn) = (s.setPlate (s.plate.setSlot b none)).judgeSlots worn := by
  unfold State.judgeSlots
  rw [List.foldl_cons, if_neg (by rwa [Option.isNone_iff_eq_none])]
  dsimp only
  rw [if_pos hpairs]

theorem State.judgeSlots_broken (hpairs : headerPairsOk h = false) :
    s.judgeSlots ((b, h) :: worn) =
      State.judgeSlots ((s.setPlate (s.plate.setSlot b none)).report
        ⟨St.complementMismatch, Tgt.plate, 3, Mid.plate, 0, 0xFFFF, bit01 b⟩) worn := by
  unfold State.judgeSlots
  rw [List.foldl_cons, if_neg (by rwa [Option.isNone_iff_eq_none])]
  dsimp only
  rw [if_neg (ne_true_of_eq_false hpairs)]

end
end

/-- The state in which a power-fail etch begins: commanded work has ended, fetching has stopped. -/
def State.etchBegun (s : State) : State :=
  let u := (s.endEtchCmds St.aborted 0).endPlateCmds 2 St.aborted 0
  let n := (u.plate.etch.map (·.bytes)).getD 0
  { u with fetchHold := true, plate := { u.plate with etch := some ⟨u.time.toNat, [], n⟩, go := false }, boot := { u.boot with live := none } }

theorem State.startEtch_eq (hlive : ((s.endEtchCmds St.aborted 0).endPlateCmds 2 St.aborted 0).boot.live = none)
    (hmode : s.etchBegun.mode ≠ .vigil) :
    s.startEtch = ((s.etchBegun.setFld Reg.STY_VIGIL_CTL 30 30 0).setFld Reg.PLT_STATUS 31 29 2).endUncommitted := by
  unfold State.startEtch
  dsimp only
  rw [hlive]
  exact congrArg (fun x : State => ((x.setFld Reg.STY_VIGIL_CTL 30 30 0).setFld Reg.PLT_STATUS 31 29 2).endUncommitted) (if_neg hmode)

/-! ETCH_GO. -/

theorem State.etchGo_again (h : s.pltState = 2) (hgo : s.plate.go = true) : s.etchGo m = s := by
  unfold State.etchGo
  rw [h]
  exact if_pos hgo

theorem State.etchGo_powerFail (h : s.pltState = 2) (hgo : s.plate.go = false) :
    s.etchGo m = (s.setPlate { s.plate with go := true, shut := true }).forceOff [4, 5, 6, 7, 9, 12, 2] := by
  unfold State.etchGo
  rw [h]
  exact if_neg (ne_true_of_eq_false hgo)

theorem State.etchGo_commanded (h : s.pltState = 1) (hstore : s.storeFailed = false) :
    s.etchGo m =
      (s.setPlate { s.plate with etch := some ⟨s.time.toNat, s.plate.dirtyChunks, 0⟩ }).setFld Reg.PLT_STATUS 31 29 4 := by
  unfold State.etchGo
  rw [h]
  exact if_neg (ne_true_of_eq_false hstore)

theorem State.etchGo_failed (h : s.pltState = 1) (hstore : s.storeFailed = true) :
    s.etchGo m =
      (((s.setPlate { s.plate.setSlot s.plate.working none with etch := none }).showSlots.logEtch 2 St.plateInvalid 4).setFld
        Reg.PLT_STATUS 15 0 St.plateInvalid).endEtchCmds St.plateInvalid 0 := by
  unfold State.etchGo
  rw [h]
  exact if_pos hstore

theorem State.etchGo_refused (h1 : s.pltState ≠ 1) (h2 : s.pltState ≠ 2) : s.etchGo m = s.refuse m Reg.PLT_ETCH_GO St.invalidField := by
  unfold State.etchGo
  split
  · contradiction
  · contradiction
  · rfl

/-! The causes of an abandonment. -/

theorem State.etchGoTimeout_abandons (h : s.pltState = 2 ∧ s.plate.go = false) :
    s.etchGoTimeout = (s.atTime ((s.plate.etch.map (·.start)).getD 0 + 10000000)).abandonEtch 1 :=
  if_pos (by rw [decide_eq_true h.1, h.2]; rfl)

theorem State.etchGoTimeout_not (h : ¬ (s.pltState = 2 ∧ s.plate.go = false)) : s.etchGoTimeout = s := if_neg (by simpa using h)

theorem State.etchDeadline_abandons (h : s.pltState = 2 ∧ s.plate.dirtyChunks ≠ []) :
    s.etchDeadline =
      (s.atTime ((s.plate.etch.map (·.start)).getD 0 + 1000000 * (s.fld Reg.PLT_ETCH_DEADLINE 12 0 - 10))).abandonEtch 2 :=
  if_pos (by simp [h.1, h.2])

theorem State.etchDeadline_not (h : ¬ (s.pltState = 2 ∧ s.plate.dirtyChunks ≠ [])) : s.etchDeadline = s := if_neg (by simpa using h)

theorem State.abandonEtch_commanded {why : Nat} (h : s.pltState = 4) :
    s.abandonEtch why =
      let u := (s.logEtch 2 St.plateInvalid (if s.storeFailed then 4 else why)).setFld Reg.PLT_STATUS 15 0 St.plateInvalid
      let v := (u.setPlate { u.plate.setSlot u.plate.working none with etch := none }).showSlots
      ((v.setFld Reg.PLT_STATUS 31 29 (bit01 (v.bit Reg.PLT_CTL 0))).raise Reg.PLT_INT_STATUS 0).endEtchCmds St.plateInvalid 0 := by
  unfold State.abandonEtch
  rw [h]
  rfl

/-! ETCH_COMPLETE. -/

/-- Nothing is left to copy of the etch that runs. -/
def State.EtchReady (s : State) : Prop :=
  ∃ e, s.plate.etch = some e ∧
    ((s.pltState = 2 ∧ s.plate.go = true ∧ s.plate.dirtyChunks = []) ∨ (s.pltState = 4 ∧ e.todo = []))

/-- The check of the model for `State.EtchReady`. -/
def State.etchReady (s : State) : Bool :=
  s.plate.etch.elim false fun e =>
    if s.pltState = 2 then s.plate.go && s.plate.dirtyChunks.isEmpty else s.pltState = 4 && e.todo.isEmpty

theorem State.etchReady_iff : s.etchReady = true ↔ s.EtchReady := by
  unfold State.etchReady State.EtchReady
  cases s.plate.etch with
  | none => simp
  | some e =>
    by_cases h : s.pltState = 2
    · simp [h]
    · simp [h]

theorem State.etchComplete_eq :
    s.etchComplete = if !s.etchReady then s else if s.storeFailed then s.abandonEtch 4 else
      let v := s.slotImage
      let p := s.plate
      let maps := (v.chunks.filter (fun e => match e.2 with | some c => c.map.isSome | none => false)).length
      let laid := s.setPlate { p.setSlot p.working (some v) with
        work := v.chunks, etch := p.etch.map (fun e => { e with bytes := e.bytes + (64 * 98304 + 2048 * maps + 16384) }) }
      let w := (laid.showSlots.logEtch (if s.pltState = 2 then 1 else 2) St.ok 0).setFld Reg.PLT_STATUS 15 0 St.ok
      let x := w.setPlate { w.plate with etch := none }
      if s.pltState = 2 then x.etchOver
      else ((x.setFld Reg.PLT_STATUS 31 29 (bit01 (x.bit Reg.PLT_CTL 0))).raise Reg.PLT_INT_STATUS 0).endEtchCmds St.ok
        w.plate.etchLog.bytes := by
  unfold State.etchComplete State.etchReady
  cases s.plate.etch <;> rfl

end

/-- Settles O45: each command by the cases of its own lemmas above. -/
theorem regionsLoadChunksCopyAndEtchesRun : Obligations.RegionsLoadChunksCopyAndEtchesRun := by
  refine ⟨fun s t m v hm hreach => ?_, fun s k loc comp hk => ?_, fun s k hstore => ⟨State.mayCopy_service hstore,
    State.mayCopy_powerFail hstore, fun e => State.mayCopy_commanded hstore, State.mayCopy_disabled hstore⟩, fun s => ?_,
    fun s b h worn => ⟨rfl, State.judgeSlots_empty, fun hslot => ⟨State.judgeSlots_worn hslot, State.judgeSlots_broken hslot⟩⟩,
    fun s _ _ => State.startEtch_eq, fun s t m worn hm hreach => ?_, fun t m => ⟨State.etchGo_again, State.etchGo_powerFail,
    State.etchGo_commanded, State.etchGo_failed, State.etchGo_refused⟩, fun s => ?_, fun s why h => ?_, fun s => ?_⟩
  · have loads : exec (.regionLoad m v) s = .next (s.seal (t.regionLoad m v).acked) :=
      (done_of (decide_eq_true hm) s _).trans (by rw [State.regDo_of hreach])
    dsimp only
    rw [loads]
    refine ⟨fun h => by rw [State.regionLoad_write h], fun hgo => ⟨fun hn => ?_, fun h0 h256 a w hread hheld =>
      ⟨fun hst => ?_, fun hok hpoison => ?_, fun hok hclean => ⟨fun hbroken => ?_, fun hwhole hbad => ?_, fun hwhole hgood => ?_⟩⟩⟩⟩
    · rw [State.regionLoad_ends hgo (State.readRegions_count hn) (by decide) (by decide)]
    · rw [State.regionLoad_ends hgo (State.readRegions_failed h0 h256 hread hst) hheld hst]
    · rw [State.regionLoad_ends hgo (State.readRegions_poisoned h0 h256 hread hok hpoison) (by decide) (by decide)]
    · rw [State.regionLoad_ends hgo (State.readRegions_broken h0 h256 hread hok hclean hbroken) (by decide) (by decide)]
    · have hbad : w.regionsOk ((tableEntries a _).map regionOf) = false := hbad
      rw [State.regionLoad_ends hgo (State.readRegions_invalid h0 h256 hread hok hclean hwhole hbad) (by decide) (by decide)]
    · have hgood : w.regionsOk ((tableEntries a _).map regionOf) = true := hgood
      rw [State.regionLoad_loads hgo (State.readRegions_loads h0 h256 hread hok hclean hwhole hgood)]
      rfl
  · have copies : exec (.backgroundCopy k loc comp) s = .next (s.seal (s.copyChunk k loc comp)) := done_of (decide_eq_true hk) s _
    dsimp only
    rw [copies]
    refine ⟨fun h => by rw [State.copyChunk_not h], fun hmay hfree st raw ps u hread => ⟨fun hst hheld => ?_, fun hst stored hs => ?_⟩⟩
    · rw [State.copyChunk_failed hmay hfree hread hst hheld]
    · rw [State.copyChunk_copies hmay hfree hread hst hs]
      rfl
  · have starts (worn : List (Bool × List Byte)) : exec (.powerFailEtch worn) s = .next (s.seal (s.etchStart worn)) := done_true s _
    exact ⟨fun h worn => (starts worn).trans (by rw [State.etchStart_not h]),
      fun h worn hplt => (starts worn).trans (by rw [State.etchStart_starts h hplt])⟩
  · exact (done_of (decide_eq_true hm) s _).trans (by rw [State.regDo_of hreach])
  · have times : exec .etchGoTimeout s = .next (s.seal s.etchGoTimeout) := done_true s _
    have ends : exec .etchDeadline s = .next (s.seal s.etchDeadline) := done_true s _
    have drops : exec .bankReserveReached s = .next (s.seal s.bankReserve) := done_true s _
    dsimp only
    rw [times, ends, drops]
    exact ⟨fun h => by rw [State.etchGoTimeout_abandons h], fun h => by rw [State.etchGoTimeout_not h],
      fun h => by rw [State.etchDeadline_abandons h], fun h => by rw [State.etchDeadline_not h],
      fun h => congrArg (fun x => Host.Outcome.next (s.seal x)) (if_pos h),
      fun h => congrArg (fun x => Host.Outcome.next (s.seal x)) (if_neg h)⟩
  · rw [State.abandonEtch_commanded h]
    rfl
  · have completes : exec .etchComplete s = .next (s.seal s.etchComplete.orderlyNext) := done_true s _
    dsimp only
    rw [completes, State.etchComplete_eq]
    refine ⟨fun h => ?_, fun h hstore => ?_, fun h hstore hplt => ?_⟩
    · rw [if_pos (by rw [Bool.not_eq_true', ← Bool.not_eq_true, State.etchReady_iff]; exact h)]
    · rw [if_neg (by rw [State.etchReady_iff.mpr h]; decide), if_pos hstore]
    · rw [if_neg (by rw [State.etchReady_iff.mpr h]; decide), if_neg (ne_true_of_eq_false hstore)]
      have commanded : ¬ s.pltState = 2 := by omega
      dsimp only
      rw [if_neg commanded, if_neg commanded] <;> rfl

end Sys2Proof.Machine
end

section
/-! A die reset and a cold reset (R437, R459, R460). -/

namespace Sys2Proof.Machine

section
variable {s : State} {k d c : Nat}

theorem State.domainsOff_rd (hdom : ∀ d ∈ rangeFrom 1 16, k ≠ Reg.STY_DOM_STATUS d) (hpll : ∀ i ∈ List.range 4, k ≠ Reg.STY_QPLL i) :
    s.domainsOff.rd k = s.rd k := by
  have domains : ((rangeFrom 1 16).foldl (fun s d => s.setFld (Reg.STY_DOM_STATUS d) 31 30 2) s).rd k = s.rd k :=
    List.foldlRecOn _ _ (motive := fun u : State => u.rd k = s.rd k) rfl
      fun u hu d hd => (State.rd_setFld_other u _ _ _ (hdom d hd)).trans hu
  exact List.foldlRecOn _ _ (motive := fun u : State => u.rd k = s.rd k) domains
    fun u hu i hi => ((State.rd_setFld_other _ _ _ _ (hpll i hi)).trans (State.rd_setFld_other u _ _ _ (hpll i hi))).trans hu

theorem State.domState_setFld (e : Nat) :
    (s.setFld (Reg.STY_DOM_STATUS e) 31 30 2).domState d = if d = e then 2 else s.domState d := by
  unfold State.domState
  split
  · next h =>
    subst h
    exact State.fld_setFld_self s _ 31 30 2 (by decide)
  · next h => exact State.fld_setFld_reg s _ _ _ _ _ (by unfold Reg.STY_DOM_STATUS; omega)

theorem State.domState_fold {ds : List Nat} (hd : d ∈ ds) :
    (ds.foldl (fun u e => u.setFld (Reg.STY_DOM_STATUS e) 31 30 2) s).domState d = 2 := by
  induction ds generalizing s with
  | nil => exact absurd hd List.not_mem_nil
  | cons e ds ih =>
    rcases List.mem_cons.mp hd with rfl | hd
    · rw [List.foldl_cons]
      refine List.foldlRecOn _ _ (motive := fun u : State => u.domState d = 2) ?_ fun u hu e _ => ?_
      · rw [State.domState_setFld, if_pos rfl]
      · rw [State.domState_setFld, hu, ite_self]
    · exact ih hd

theorem State.domainsOff_domState (h1 : 1 ≤ d) (h17 : d < 17) : s.domainsOff.domState d = 2 := by
  have listed : d ∈ rangeFrom 1 16 := mem_rangeFrom.mpr (by omega)
  have apart (i : Nat) (hi : i ∈ List.range 4) : Reg.STY_DOM_STATUS d ≠ Reg.STY_QPLL i := by
    have := List.mem_range.mp hi
    unfold Reg.STY_DOM_STATUS Reg.STY_QPLL
    omega
  refine List.foldlRecOn _ _ (motive := fun u : State => u.domState d = 2) (State.domState_fold listed) fun u hu i hi => ?_
  unfold State.domState
  rw [State.fld_setFld_reg _ _ _ _ _ _ (apart i hi), State.fld_setFld_reg _ _ _ _ _ _ (apart i hi)]
  exact hu

/-- A register outside the STEADY domain has its reset word in a module that has gone Dormant. -/
theorem State.goDormant_rd (h : steadyReg k = false) : s.goDormant.rd k = regReset k := by
  have apart {off : Nat} (hoff : steadyReg off = true) : k ≠ off := fun he => by
    rw [he, hoff] at h
    exact absurd h (by decide)
  unfold State.goDormant
  rw [State.domainsOff_rd
    (fun d hd => apart ((by decide : ∀ d ∈ rangeFrom 1 16, steadyReg (Reg.STY_DOM_STATUS d) = true) d hd))
    (fun i hi => apart ((by decide : ∀ i ∈ List.range 4, steadyReg (Reg.STY_QPLL i) = true) i hi)),
    State.rd_setFld_other _ _ _ _ (apart (by decide)), State.setMode, State.rd_setFld_other _ _ _ _ (apart (by decide))]
  exact FMap.get_keep_none regReset (p := fun k _ => steadyReg k) (fun _ => h) s.regs

theorem State.goDormant_mode : s.goDormant.mode = .dormant := by
  unfold State.goDormant State.mode State.fld
  rw [State.domainsOff_rd (by decide) (by decide), State.rd_setFld_other _ _ _ _ (by decide)]
  exact congrArg Mode.ofCode (State.fld_setFld_self _ _ 2 0 _ (by decide))

theorem State.domainsOff_pending : s.domainsOff.pending = s.pending := by
  unfold State.domainsOff
  rw [foldl_keeps (g := State.pending) fun _ _ => by rfl, foldl_keeps (g := State.pending) fun _ _ => by rfl]

theorem State.domainsOff_time : s.domainsOff.time = s.time := by
  unfold State.domainsOff
  rw [foldl_keeps (g := State.time) fun _ _ => by rfl, foldl_keeps (g := State.time) fun _ _ => by rfl]

theorem State.goDormant_pending : s.goDormant.pending = s.pending := by
  unfold State.goDormant
  rw [State.domainsOff_pending]
  rfl

theorem State.goDormant_time : s.goDormant.time = s.time := by
  unfold State.goDormant
  rw [State.domainsOff_time]
  rfl

/-- The cause of a die reset is recorded, and the boot is due. -/
def State.resetFor (s : State) (cause : Nat) : State :=
  let s := s.setFld Reg.GLB_RESET_CAUSE 3 0 cause
  { s with boot := { s.boot with due := true, hold := s.bit Reg.GLB_BOOT_CTL 30 } }

theorem State.dieReset_eq : s.dieReset c = s.goDormant.resetFor c := rfl

theorem State.resetFor_rd : (s.resetFor c).rd k = (s.setFld Reg.GLB_RESET_CAUSE 3 0 c).rd k := rfl

/-- A die reset leaves what going Dormant leaves, and its cause. -/
theorem State.dieReset_rd : (s.dieReset c).rd k = (s.goDormant.setFld Reg.GLB_RESET_CAUSE 3 0 c).rd k := by
  rw [State.dieReset_eq, State.resetFor_rd]

theorem State.resetFor_pending : (s.resetFor c).pending = s.pending := rfl

theorem State.resetFor_time : (s.resetFor c).time = s.time := rfl

theorem State.dieReset_due : (s.dieReset c).boot.due = true := by
  rw [State.dieReset_eq]
  rfl

theorem State.dieReset_pending : (s.dieReset c).pending = s.pending := by
  rw [State.dieReset_eq, State.resetFor_pending, State.goDormant_pending]

theorem State.dieReset_time : (s.dieReset c).time = s.time := by
  rw [State.dieReset_eq, State.resetFor_time, State.goDormant_time]

theorem State.dieReset_rd_other (h : k ≠ Reg.GLB_RESET_CAUSE) : (s.dieReset c).rd k = s.goDormant.rd k :=
  State.dieReset_rd.trans (State.rd_setFld_other _ _ _ _ h)

theorem State.dieReset_mode : (s.dieReset c).mode = .dormant := by
  unfold State.mode State.fld
  rw [State.dieReset_rd_other (by decide)]
  exact State.goDormant_mode

theorem State.dieReset_cause (hc : c < 16) : (s.dieReset c).fld Reg.GLB_RESET_CAUSE 3 0 = c :=
  calc
    (s.dieReset c).fld Reg.GLB_RESET_CAUSE 3 0 = (s.goDormant.setFld Reg.GLB_RESET_CAUSE 3 0 c).fld Reg.GLB_RESET_CAUSE 3 0 :=
      congrArg (fun w : Word => bits w.toNat 3 0) State.dieReset_rd
    _ = c := (State.fld_setFld_self _ _ 3 0 c (by decide)).trans (Nat.mod_eq_of_lt hc)

theorem State.goDormant_domState (h1 : 1 ≤ d) (h17 : d < 17) : s.goDormant.domState d = 2 := by
  unfold State.goDormant
  exact State.domainsOff_domState h1 h17

theorem State.dieReset_domState (h1 : 1 ≤ d) (h17 : d < 17) : (s.dieReset c).domState d = 2 := by
  have apart : Reg.STY_DOM_STATUS d ≠ Reg.GLB_RESET_CAUSE := by
    unfold Reg.STY_DOM_STATUS Reg.GLB_RESET_CAUSE
    omega
  unfold State.domState State.fld
  rw [State.dieReset_rd_other apart]
  exact State.goDormant_domState h1 h17

theorem State.dieReset_rd_reset (h : steadyReg k = false) : (s.dieReset c).rd k = State.reset.rd k := by
  rw [State.dieReset_rd_other fun he => by rw [he] at h; exact absurd h (by decide), State.goDormant_rd h]
  rfl

/-! GLB_RESET. -/

section
variable {m : Nat} {v : Word}

theorem State.orderlyReset_waits {cause : Nat} (h : s.pltState = 3 ∨ s.pltState = 4) :
    s.orderlyReset cause = { s with boot := { s.boot with orderly := some cause } } :=
  (if_neg (by omega)).trans (if_pos (by rw [Bool.or_eq_true, decide_eq_true_eq, decide_eq_true_eq]; exact h))

theorem State.orderlyReset_etches {cause : Nat} (h : s.pltState = 1) (hmode : s.mode ≠ .dormant) :
    s.orderlyReset cause = State.startEtch { s with boot := { s.boot with orderly := some cause } } :=
  (if_neg (by omega)).trans ((if_neg (by rw [h]; decide)).trans (if_pos (by rw [h, decide_eq_true hmode]; rfl)))

theorem State.orderlyReset_resets {cause : Nat} (h : s.pltState = 0 ∨ (s.pltState = 1 ∧ s.mode = .dormant)) :
    s.orderlyReset cause = s.dieReset cause := by
  refine (if_neg (by omega)).trans ((if_neg ?_).trans (if_neg ?_))
  · rw [Bool.or_eq_true, decide_eq_true_eq, decide_eq_true_eq]
    omega
  · rcases h with h | ⟨h, hmode⟩ <;> simp [*]

theorem State.resetWrite_etching (hv : (bits v.toNat 31 16 ≠ 0xD1E5 || v.toNat % 4 = 0 || v.toNat % 4 = 3) = false)
    (h : s.pltState = 2) : s.resetWrite m v = s.refuse m Reg.GLB_RESET St.accessDenied :=
  (if_neg (ne_true_of_eq_false hv)).trans (if_pos h)

theorem State.resetWrite_orderly (h : s.pltState ≠ 2) : s.resetWrite m 0xD1E50001 = s.orderlyReset 2 :=
  (if_neg (by decide)).trans ((if_neg h).trans (if_pos (by decide)))

theorem State.resetWrite_immediate (h : s.pltState ≠ 2) : s.resetWrite m 0xD1E50002 = s.immediateReset :=
  (if_neg (by decide)).trans ((if_neg h).trans (if_neg (by decide)))

theorem State.immediateReset_etching (h : s.pltState = 4) :
    s.immediateReset = State.dieReset { s with plate := s.plate.setSlot s.plate.working none } 3 :=
  congrArg (fun x : State => x.dieReset 3) (if_pos h)

theorem State.immediateReset_plain (h : s.pltState ≠ 4) : s.immediateReset = s.dieReset 3 :=
  congrArg (fun x : State => x.dieReset 3) (if_neg h)

end

/-! COLD_RESET. -/

/-- All three supplies of Steady are lost. -/
def State.SuppliesLost (s : State) : Prop := s.steady.good = false ∧ s.steady.aux = false ∧ s.mode = .dormant

theorem State.suppliesLost_iff : (s.steady.good || s.steady.aux || s.mode ≠ .dormant) = true ↔ ¬ s.SuppliesLost := by
  unfold State.SuppliesLost
  cases s.steady.good <;> cases s.steady.aux <;> simp

theorem State.coldReset_not (h : ¬ s.SuppliesLost) : s.coldReset = s := if_pos (State.suppliesLost_iff.mpr h)

/-- What a cold reset leaves. -/
theorem State.coldReset_leaves (h : s.SuppliesLost) :
    (∀ off, s.coldReset.rd off = State.reset.rd off) ∧ s.coldReset.time = 0 ∧ s.coldReset.mem = [] ∧
      s.coldReset.boot.slot1 = s.boot.slot1 ∧ s.coldReset.boot.slot2 = s.boot.slot2 ∧ s.coldReset.boot.hold = false ∧
      s.coldReset.boot.wdogs = 0 ∧ s.coldReset.pending = s.pending := by
  unfold State.coldReset
  rw [if_neg fun h' => State.suppliesLost_iff.mp h' h]
  exact ⟨fun _ => rfl, rfl, rfl, rfl, rfl, rfl, rfl, rfl⟩

end

end Sys2Proof.Machine
end

section
/-! The boot: the slots are tried, an image is checked and started (R464 to R467, R471). -/

namespace Sys2Proof.Machine

section
variable {s : State} {k slot stage ms : Nat} {i : List Byte}

theorem State.bootRun_not (h : s.boot.due = false) : s.bootRun = s := if_pos (by rw [h]; rfl)

/-- The module whose boot has begun: its domains are powered, and a pending slot that was tried twice is dropped. -/
def State.bootBegun (s : State) : State :=
  let u := State.bootPower { s with boot := { s.boot with due := false, log := [] } }
  { u with boot := u.boot.dropTried }

section
variable {w : State} (h : s.boot.due = true)
include h

theorem State.bootRun_recovery (ht : s.bootBegun.trySlots s.bootBegun.boot.order = (none, w)) : s.bootRun = w.romRecovery := by
  unfold State.bootRun
  rw [if_neg (by rw [h]; decide)]
  have tried : (State.setBoot (State.bootPower (s.setBoot { s.boot with due := false, log := [] }))
      (State.bootPower (s.setBoot { s.boot with due := false, log := [] })).boot.dropTried).trySlots
      (State.setBoot (State.bootPower (s.setBoot { s.boot with due := false, log := [] }))
      (State.bootPower (s.setBoot { s.boot with due := false, log := [] })).boot.dropTried).boot.order = (none, w) := ht
  dsimp only
  rw [tried]


/-- The slot that was accepted is started, a pending one counting the trial. -/
theorem State.bootRun_starts (ht : s.bootBegun.trySlots s.bootBegun.boot.order = (some k, w)) :
    s.bootRun =
      let tried := if k = w.boot.waiting ∧ k ≠ 0 then { w.boot with trials := w.boot.trials + 1, gen := w.boot.gen + 1 } else w.boot
      let x : State := { w with boot := tried }
      let i := x.boot.image k
      ((if k = 0 then x else x.retireRecorded).storeWrite bootWindow i false).startImage i 2 k 60000 := by
  unfold State.bootRun
  rw [if_neg (by rw [h]; decide)]
  have tried : (State.setBoot (State.bootPower (s.setBoot { s.boot with due := false, log := [] }))
      (State.bootPower (s.setBoot { s.boot with due := false, log := [] })).boot.dropTried).trySlots
      (State.setBoot (State.bootPower (s.setBoot { s.boot with due := false, log := [] }))
      (State.bootPower (s.setBoot { s.boot with due := false, log := [] })).boot.dropTried).boot.order = (some k, w) := ht
  dsimp only
  rw [tried]
  by_cases hk : k = w.boot.waiting ∧ k ≠ 0
  · simp only [decide_eq_true hk.1, decide_eq_true hk.2, Bool.and_self, if_true, if_pos hk]
    rfl
  · have other : ¬ (decide (k = w.boot.waiting) && decide (k ≠ 0)) = true := by simpa using hk
    simp only [if_neg other, if_neg hk]

end

/-! The checks. -/

/-- The checks of R464 that an image of slot `k` must pass. -/
def State.FwAccepted (s : State) (i : List Byte) (k : Nat) : Prop :=
  fwHeadOk i = true ∧ fwMin i ≤ s.revision ∧
    (shaDigest 1 (fwPubkey i) = Config.fuseKey (fwKey i) ∧ Config.fusesProgrammed.getLsbD (fwKey i) = true ∧
      Config.fusesRevoked.getLsbD (fwKey i) = false) ∧
    fwSigned i = true ∧ (fwGolden i = true → k = 0) ∧ (fwGolden i = true ∨ s.minSvn ≤ fwSvn i)

/-- A chain of five checks answers 0 exactly if none fails. -/
theorem checks_eq_zero {a b c d e : Prop} [Decidable a] [Decidable b] [Decidable c] [Decidable d] [Decidable e] :
    (if a then 1 else if b then 2 else if c then 3 else if d then 4 else if e then 5 else 0) = 0 ↔ ¬a ∧ ¬b ∧ ¬c ∧ ¬d ∧ ¬e := by
  by_cases ha : a
  · simp [ha]
  · by_cases hb : b
    · simp [hb, ha]
    · by_cases hc : c
      · simp [hc, hb, ha]
      · by_cases hd : d
        · simp [hd, hc, hb, ha]
        · simp [hd, hc, hb, ha]

theorem State.fwCheck_eq_zero : s.fwCheck i k = 0 ↔ s.FwAccepted i k := by
  refine checks_eq_zero.trans ?_
  have svn : ¬ ((fwGolden i && k ≠ 0) || (fwSvn i < s.minSvn && !fwGolden i)) = true ↔
      (fwGolden i = true → k = 0) ∧ (fwGolden i = true ∨ s.minSvn ≤ fwSvn i) := by
    cases fwGolden i <;> simp
  have key : ¬ (shaDigest 1 (fwPubkey i) ≠ Config.fuseKey (fwKey i) || !Config.fusesProgrammed.getLsbD (fwKey i) ||
      Config.fusesRevoked.getLsbD (fwKey i)) = true ↔ shaDigest 1 (fwPubkey i) = Config.fuseKey (fwKey i) ∧
        Config.fusesProgrammed.getLsbD (fwKey i) = true ∧ Config.fusesRevoked.getLsbD (fwKey i) = false := by
    simp only [Bool.or_eq_true, decide_eq_true_eq, Bool.not_eq_true', not_or, not_not, Bool.not_eq_true, Bool.not_eq_false, and_assoc]
  rw [svn, key, Nat.not_lt, Bool.not_eq_true', Bool.not_eq_true', Bool.not_eq_false, Bool.not_eq_false]
  rfl

/-- The log of the check of slot `k`, and its status. -/
def State.slotLogged (s : State) (k : Nat) : State :=
  let c := s.fwCheck (s.boot.image k) k
  let u : State := { s with boot := { s.boot with log := FMap.setD s.boot.log k (some (fwLogOf (s.boot.image k) c)) } }
  u.setFld Reg.GLB_BOOT_STATUS 15 0 (fwStatus c)

theorem State.trySlots_cons {ks : List Nat} :
    s.trySlots (k :: ks) =
      if s.fwCheck (s.boot.image k) k = 0 then (some k, s.slotLogged k) else (s.slotLogged k).trySlots ks := rfl

/-! An image starts. -/

/-- Core 0 as an image finds it. -/
def bootCore (i : List Byte) : Core :=
  let k : Core := { Core.reset with pc := BitVec.ofNat 48 (bootWindow + fwEntry i), hstatus := 1 }
  (k.setX 1 (BitVec.ofNat 64 bootWindow)).setX 2 (BitVec.ofNat 64 i.length)

theorem bootCore_pc : (bootCore i).pc = BitVec.ofNat 48 (bootWindow + fwEntry i) := rfl

theorem Core.xreg_setX_self (k : Core) {n : Nat} (v : DWord) (h : n ≠ 31) : (k.setX n v).xreg n = v := by
  unfold Core.xreg Core.setX
  rw [if_neg h, if_neg h]
  exact FMap.get_set_self _ _ _ _

theorem Core.xreg_setX_other (k : Core) {n j : Nat} (v : DWord) (h : j ≠ n) : (k.setX n v).xreg j = k.xreg j := by
  unfold Core.xreg Core.setX
  split
  · rfl
  · split
    · rfl
    · exact FMap.get_set_other _ _ _ h

theorem bootCore_x1 : (bootCore i).xreg 1 = BitVec.ofNat 64 bootWindow :=
  (Core.xreg_setX_other _ _ (by decide)).trans (Core.xreg_setX_self _ _ (by decide))

theorem bootCore_x2 : (bootCore i).xreg 2 = BitVec.ofNat 64 i.length := Core.xreg_setX_self _ _ (by decide)

theorem State.setThr_core (t st e c : Nat) : (s.setThr t st e).core c = s.core c := by
  unfold State.setThr
  dsimp only
  split
  · rfl
  · split <;> rfl

theorem State.setThr_time (t st e : Nat) : (s.setThr t st e).time = s.time := by
  unfold State.setThr
  dsimp only
  split
  · rfl
  · split <;> rfl

/-- A thread reads the state that it takes. -/
theorem State.setThr_thrState (st : Nat) (hst : st < 8) : (s.setThr 0 st 0).thrState 0 = st := by
  have word : (s.wr (Reg.HDS_THR_STATE 0) (BitVec.ofNat 32 (2 ^ 29 * st + 2 ^ 16 * 0 + s.thrPrio 0))).thrState 0 = st := by
    have prio : s.thrPrio 0 < 2 ^ 5 := bits_lt _ 4 0
    unfold State.thrState State.fld
    rw [State.rd_wr_self, BitVec.toNat_ofNat, bits_eq]
    omega
  have apart : Reg.HDS_THR_STATE 0 ≠ Reg.HDS_STATUS := by decide
  unfold State.setThr
  dsimp only
  split
  · exact (State.fld_setFld_reg _ _ _ _ _ _ apart).trans word
  · split
    · exact (State.fld_setFld_reg _ _ _ _ _ _ apart).trans word
    · exact word

/-- The state in which the image's core and thread are set up. -/
def State.imageCore (s : State) (i : List Byte) : State := ((s.setCore 128 (bootCore i)).setThr 0 2 0).setCoreStatus 0 1 0

/-- The two registers that an image's start writes. -/
def State.imageRegs (s : State) (stage slot ms : Nat) : State :=
  (s.wr Reg.GLB_BOOT_STATUS (BitVec.ofNat 32 (2 ^ 28 * stage + 2 ^ 26 * slot))).wr Reg.GLB_WDOG_CTL (BitVec.ofNat 32 (2 ^ 31 + ms))

/-- What Boot records of an image that it starts, with the watchdog's period. -/
def State.imageBoot (s : State) (i : List Byte) (slot : Nat) : State :=
  (s.setBoot { s.boot with slot := slot, running := fwVersion i, raise := if fwRaise i && (slot = 1 || slot = 2) then fwSvn i else 0 }).wdogStart

theorem State.startImage_eq : s.startImage i stage slot ms = ((s.imageCore i).imageRegs stage slot ms).imageBoot i slot := rfl

theorem State.imageBoot_rd (off : Nat) : (s.imageBoot i slot).rd off = s.rd off := rfl

theorem State.imageBoot_core (c : Nat) : (s.imageBoot i slot).core c = s.core c := rfl

theorem State.imageRegs_core (c : Nat) : (s.imageRegs stage slot ms).core c = s.core c := rfl

theorem State.imageCore_core : (s.imageCore i).core 128 = bootCore i :=
  (State.setThr_core 0 2 0 128).trans (State.core_setCore_self s 128 _)

theorem State.imageCore_time : (s.imageCore i).time = s.time := State.setThr_time 0 2 0

theorem State.startImage_core : (s.startImage i stage slot ms).core 128 = bootCore i := by
  rw [State.startImage_eq, State.imageBoot_core, State.imageRegs_core, State.imageCore_core]

theorem State.startImage_status :
    (s.startImage i stage slot ms).rd Reg.GLB_BOOT_STATUS = BitVec.ofNat 32 (2 ^ 28 * stage + 2 ^ 26 * slot) := by
  rw [State.startImage_eq, State.imageBoot_rd, State.imageRegs, State.rd_wr_other _ _ (by decide), State.rd_wr_self]

theorem State.startImage_wdog : (s.startImage i stage slot ms).rd Reg.GLB_WDOG_CTL = BitVec.ofNat 32 (2 ^ 31 + ms) := by
  rw [State.startImage_eq, State.imageBoot_rd, State.imageRegs, State.rd_wr_self]

theorem State.startImage_period (h : ms < 65536) : (s.startImage i stage slot ms).fld Reg.GLB_WDOG_CTL 15 0 = ms := by
  unfold State.fld
  rw [State.startImage_wdog, BitVec.toNat_ofNat, bits_eq]
  omega

theorem State.startImage_due (h : ms < 65536) :
    (s.startImage i stage slot ms).steady.wdogDue = s.time.toNat + 1000000 * ms := by
  have period := State.startImage_period (s := s) (i := i) (stage := stage) (slot := slot) h
  rw [State.startImage_eq] at period ⊢
  calc
    _ = (s.imageCore i).time.toNat + 1000000 * ((s.imageCore i).imageRegs stage slot ms).fld Reg.GLB_WDOG_CTL 15 0 := rfl
    _ = s.time.toNat + 1000000 * ms := by
      rw [State.imageCore_time]
      exact congrArg (fun n => s.time.toNat + 1000000 * n) period

theorem State.startImage_thread : (s.startImage i stage slot ms).thrState 0 = 2 := by
  have set : ((s.setCore 128 (bootCore i)).setThr 0 2 0).thrState 0 = 2 := State.setThr_thrState 2 (by decide)
  unfold State.thrState State.fld at set ⊢
  rw [State.startImage_eq, State.imageBoot_rd, State.imageRegs, State.rd_wr_other _ _ (by decide), State.rd_wr_other _ _ (by decide),
    State.imageCore, State.setCoreStatus, State.rd_wr_other _ _ (by decide)]
  exact set

end

end Sys2Proof.Machine
end

section
/-! The watchdog, BOOT_OK, the mode write and recovery (R464 to R471). -/

namespace Sys2Proof.Machine

section
variable {s u : State} {m : Nat} {v : Word}

/-- The watchdog runs. -/
def State.WdogRunning (s : State) : Prop :=
  s.bit Reg.GLB_WDOG_CTL 31 = true ∧ s.pltState ≠ 2 ∧ s.pltState ≠ 3 ∧ s.mode ≠ .vigil

theorem State.wdogRunning_iff : s.wdogRuns = true ↔ s.WdogRunning := by
  simp only [State.wdogRuns, State.WdogRunning, State.pltState, Bool.and_eq_true, decide_eq_true_eq, and_assoc]

theorem State.wdogExpire_resets (h : s.WdogRunning) :
    s.wdogExpire =
      let u := (s.atTime s.steady.wdogDue).dieReset 4
      { u with boot := { u.boot with wdogs := min (u.boot.wdogs + 1) 0xFFFFFFFF } } := if_pos (State.wdogRunning_iff.mpr h)

theorem State.wdogExpire_not (h : ¬ s.WdogRunning) : s.wdogExpire = s := if_neg fun h' => h (State.wdogRunning_iff.mp h')

/-! BOOT_OK. -/

theorem State.bootOk_clear (h : v.toNat.testBit 0 = false) : s.bootOk m v = s.plainWrite m Reg.GLB_BOOT_OK v := if_pos (by rw [h]; rfl)

section
variable (h : v.toNat.testBit 0 = true)
include h

theorem State.bootOk_pending :
    let u := s.plainWrite m Reg.GLB_BOOT_OK v
    u.boot.waiting ≠ 0 → u.boot.slot = u.boot.waiting → s.bootOk m v =
      { u with boot :=
        { u.boot with active := u.boot.slot, waiting := 0, trials := 0, gen := u.boot.gen + 1, svn := max u.boot.svn u.boot.raise } } := by
  intro u hw hslot
  unfold State.bootOk
  rw [if_neg (by rw [h]; decide)]
  have pending : (decide (u.boot.waiting ≠ 0) && decide (u.boot.slot = u.boot.waiting)) = true := by simp [hw, hslot]
  dsimp only
  rw [if_pos pending]
  rfl

theorem State.bootOk_other :
    let u := s.plainWrite m Reg.GLB_BOOT_OK v
    ¬ (u.boot.waiting ≠ 0 ∧ u.boot.slot = u.boot.waiting) →
      s.bootOk m v = { u with boot := { u.boot with svn := max u.boot.svn u.boot.raise } } := by
  intro u hother
  unfold State.bootOk
  rw [if_neg (by rw [h]; decide)]
  have other : ¬ (decide (u.boot.waiting ≠ 0) && decide (u.boot.slot = u.boot.waiting)) = true := by simpa using hother
  dsimp only
  rw [if_neg other]
  rfl

end

/-! GLB_MODE_CTL. -/

/-- Firmware runs, has entered no mode yet, and the supply stands. -/
def State.ModeStage (s : State) : Prop :=
  s.mode = .dormant ∧ (s.fld Reg.GLB_BOOT_STATUS 31 28 = 2 ∨ s.fld Reg.GLB_BOOT_STATUS 31 28 = 4) ∧ s.bit Reg.STY_SUPPLY 31 = false

theorem State.modeStage_iff : (!s.firmwareStage || s.bit Reg.STY_SUPPLY 31) = true ↔ ¬ s.ModeStage := by
  have stage : s.ModeStage ↔ s.firmwareStage = true ∧ s.bit Reg.STY_SUPPLY 31 = false := by
    simp only [State.ModeStage, State.firmwareStage, Bool.and_eq_true, Bool.or_eq_true, decide_eq_true_eq, and_assoc]
  rw [stage]
  cases s.firmwareStage <;> simp

/-- A ready runtime asks for the one service mode `n` that is named now (R22, R468). -/
def State.MayEnter (s : State) (m md : Nat) (n : Mode) : Prop :=
  s.namedMode = some n ∧ md = n.code ∧ 0x140 ≤ m ∧ m ≤ 0x14F ∧ s.fld Reg.GLB_BOOT_STATUS 31 28 = 2 ∧
    (s.boot.slot = 1 ∨ s.boot.slot = 2) ∧ s.boot.hold = false ∧ s.boot.printed = some true

theorem State.serviceReady_iff {md : Nat} {n : Mode} (h : s.namedMode = some n) :
    (s.serviceReady m && decide (md = n.code)) = true ↔ s.MayEnter m md n := by
  simp only [State.MayEnter, State.serviceReady, h, true_and, Bool.and_eq_true, Bool.or_eq_true, Bool.not_eq_true', decide_eq_true_eq]
  tauto

theorem State.modeEnter_unstaged (h : ¬ s.ModeStage) : s.modeEnter m v = s.refuse m Reg.GLB_MODE_CTL St.invalidField :=
  if_pos (State.modeStage_iff.mpr h)

section
variable (h : s.ModeStage)
include h

theorem State.modeEnter_bringUp (hmd : v.toNat % 8 = 2) : s.modeEnter m v = s.enterBringUp s.bringUpReason :=
  (if_neg fun h' => State.modeStage_iff.mp h' h).trans (if_pos hmd)

variable (hmd : v.toNat % 8 ≠ 2)
include hmd

theorem State.modeEnter_enters {n : Mode} (hmay : s.MayEnter m (v.toNat % 8) n) :
    s.modeEnter m v = if n = .diptych then s.formDone else s.enterService n := by
  have named : s.namedMode = some n := hmay.1
  unfold State.modeEnter
  rw [if_neg fun h' => State.modeStage_iff.mp h' h, if_neg hmd, named]
  exact if_pos ((State.serviceReady_iff named).mpr hmay)

theorem State.modeEnter_refused (hmay : ∀ n, ¬ s.MayEnter m (v.toNat % 8) n) :
    s.modeEnter m v = s.refuse m Reg.GLB_MODE_CTL St.invalidField := by
  unfold State.modeEnter
  rw [if_neg fun h' => State.modeStage_iff.mp h' h, if_neg hmd]
  cases named : s.namedMode with
  | none => rfl
  | some n => exact if_neg fun h' => hmay n ((State.serviceReady_iff named).mp h')

end

theorem State.namedMode_alone (h : s.plate.record.role = 0) :
    s.namedMode = some (if s.bit Reg.HAT_FID 31 then .fabric else .solo) := by
  unfold State.namedMode
  rw [if_neg (not_not.mpr h)]
  split <;> rfl

/-! RECOVERY_GO. -/

/-- A length that an image can have. -/
def legalLength (len : Nat) : Prop := 8192 ≤ len ∧ len ≤ 2 ^ 25 ∧ len % 4096 = 0

theorem legalLength_iff {len : Nat} : (len < 8192 || 2 ^ 25 < len || len % 4096 ≠ 0) = true ↔ ¬ legalLength len := by
  simp only [legalLength, Bool.or_eq_true, decide_eq_true_eq]
  omega

theorem bits_25_0 (n : Nat) : bits n 25 0 = n % 2 ^ 26 := by rw [bits_eq, pow_zero, Nat.div_one]

theorem State.recoveryGo_write (h : v.toNat.testBit 31 = false) : s.recoveryGo m v = s.plainWrite m Reg.GLB_BOOT_CTL v :=
  if_pos (by rw [h]; rfl)

section
variable (hgo : v.toNat.testBit 31 = true)
include hgo

theorem State.recoveryGo_unstaged (h : s.fld Reg.GLB_BOOT_STATUS 31 28 ≠ 3) :
    s.recoveryGo m v = (s.plainWrite m Reg.GLB_BOOT_CTL v).refuse m Reg.GLB_BOOT_CTL St.accessDenied :=
  (if_neg (by rw [hgo]; decide)).trans (if_pos h)

variable (hstage : s.fld Reg.GLB_BOOT_STATUS 31 28 = 3)
include hstage

theorem State.recoveryGo_illegal (h : ¬ legalLength (v.toNat % 2 ^ 26)) :
    s.recoveryGo m v = s.refuse m Reg.GLB_BOOT_CTL St.invalidField := by
  rw [← bits_25_0] at h
  exact (if_neg (by rw [hgo]; decide)).trans ((if_neg (not_not.mpr hstage)).trans (if_pos (legalLength_iff.mpr h)))

/-- The check that the image in the boot window fails, 0 if none. -/
def State.windowCheck (s : State) (len : Nat) : Nat :=
  if s.anyPoison bootWindow len then 4 else s.fwCheck (s.bytes bootWindow len) 3

theorem State.recoveryGo_checked (h : legalLength (v.toNat % 2 ^ 26)) :
    s.recoveryGo m v =
      let u := s.plainWrite m Reg.GLB_BOOT_CTL v
      if u.windowCheck (v.toNat % 2 ^ 26) = 0 then u.startImage (u.bytes bootWindow (v.toNat % 2 ^ 26)) 4 3 60000
      else u.setFld Reg.GLB_BOOT_STATUS 15 0 (fwStatus (u.windowCheck (v.toNat % 2 ^ 26))) := by
  rw [← bits_25_0] at h ⊢
  exact (if_neg (by rw [hgo]; decide)).trans ((if_neg (not_not.mpr hstage)).trans (if_neg fun h' => legalLength_iff.mp h' h))

section
variable (h : legalLength (v.toNat % 2 ^ 26))
include h

theorem State.recoveryGo_starts (hc : (s.plainWrite m Reg.GLB_BOOT_CTL v).windowCheck (v.toNat % 2 ^ 26) = 0) :
    s.recoveryGo m v =
      let u := s.plainWrite m Reg.GLB_BOOT_CTL v
      u.startImage (u.bytes bootWindow (v.toNat % 2 ^ 26)) 4 3 60000 :=
  (State.recoveryGo_checked hgo hstage h).trans (if_pos hc)

theorem State.recoveryGo_broken (hc : (s.plainWrite m Reg.GLB_BOOT_CTL v).windowCheck (v.toNat % 2 ^ 26) = 1) :
    s.recoveryGo m v = (s.plainWrite m Reg.GLB_BOOT_CTL v).setFld Reg.GLB_BOOT_STATUS 15 0 St.complementMismatch := by
  refine (State.recoveryGo_checked hgo hstage h).trans ((if_neg (by omega)).trans ?_)
  rw [hc]
  rfl

theorem State.recoveryGo_invalid (hc : 2 ≤ (s.plainWrite m Reg.GLB_BOOT_CTL v).windowCheck (v.toNat % 2 ^ 26)) :
    s.recoveryGo m v = (s.plainWrite m Reg.GLB_BOOT_CTL v).setFld Reg.GLB_BOOT_STATUS 15 0 St.invalidField := by
  refine (State.recoveryGo_checked hgo hstage h).trans ((if_neg (by omega)).trans ?_)
  rw [fwStatus, if_neg (by omega), if_neg (by omega)]

end

end
end

/-- Settles O50: the resets by what they leave, the boot and the writes by the cases of their own lemmas above. -/
theorem resetsBootWatchdogAndModes : Obligations.ResetsBootWatchdogAndModes := by
  refine ⟨fun s c hc => ⟨State.dieReset_mode, State.dieReset_cause hc, State.dieReset_due, State.dieReset_pending, State.dieReset_time,
      fun off => State.dieReset_rd_reset, fun d => State.dieReset_domState⟩, fun s t m hm hreach => ?_, fun s => ?_, fun s => ?_,
    fun s k ks i => ⟨rfl, ⟨fun h => ?_, fun h => ?_⟩, State.fwCheck_eq_zero⟩, fun s i stage slot ms hstage hslot hms => ?_,
    fun s => ?_, fun s t m v hm hreach => ?_, fun s t m v hm hreach => ?_, fun s t m v hm hreach => ?_, fun s t m v hm hreach => ?_⟩
  · have orderly : exec (.orderlyReset m) s = .next (s.seal (t.resetWrite m 0xD1E50001).acked) :=
      (done_of (decide_eq_true hm) s _).trans (by rw [State.regDo_of hreach])
    have immediate : exec (.immediateReset m) s = .next (s.seal (t.resetWrite m 0xD1E50002).acked) :=
      (done_of (decide_eq_true hm) s _).trans (by rw [State.regDo_of hreach])
    dsimp only
    rw [orderly, immediate]
    refine ⟨fun h => ⟨?_, ?_⟩, fun h => ?_, fun h hmode => ?_, fun h => ?_, fun h => ?_, fun h2 h4 => ?_⟩
    · rw [State.resetWrite_etching (by decide) h]
    · rw [State.resetWrite_etching (by decide) h]
    · rw [State.resetWrite_orderly (by omega), State.orderlyReset_waits h]
    · rw [State.resetWrite_orderly (by omega), State.orderlyReset_etches h hmode]
    · rw [State.resetWrite_orderly (by omega), State.orderlyReset_resets h]
    · rw [State.resetWrite_immediate (by omega), State.immediateReset_etching h]
    · rw [State.resetWrite_immediate h2, State.immediateReset_plain h4]
  · have colds : exec .coldReset s = .next (s.seal s.coldReset) := done_true s _
    dsimp only
    rw [colds]
    exact ⟨fun h => ⟨_, rfl, State.coldReset_leaves h⟩, fun h => by rw [State.coldReset_not h]⟩
  · have boots : exec .boot s = .next (s.seal s.bootRun) := done_true s _
    refine ⟨fun h => boots.trans (by rw [State.bootRun_not h]), fun h => ?_⟩
    intro u v
    exact ⟨fun w ht => boots.trans (congrArg (fun x => Host.Outcome.next (s.seal x)) (State.bootRun_recovery h ht)),
      fun k w ht => boots.trans (congrArg (fun x => Host.Outcome.next (s.seal x)) (State.bootRun_starts h ht))⟩
  · rw [State.trySlots_cons, if_pos h]
    rfl
  · rw [State.trySlots_cons, if_neg h]
    rfl
  · have status := State.startImage_status (s := s) (i := i) (stage := stage) (slot := slot) (ms := ms)
    have wdog := State.startImage_wdog (s := s) (i := i) (stage := stage) (slot := slot) (ms := ms)
    refine ⟨?_, ?_, ?_, ?_, ?_, ?_, State.startImage_period hms, State.startImage_due hms, rfl, State.startImage_thread⟩
    · rw [State.startImage_core, bootCore_pc]
    · rw [State.startImage_core, bootCore_x1]
    · rw [State.startImage_core, bootCore_x2]
    · rw [State.fld, status, BitVec.toNat_ofNat, bits_eq]
      omega
    · rw [State.fld, status, BitVec.toNat_ofNat, bits_eq]
      omega
    · rw [State.bit, wdog, BitVec.toNat_ofNat, Nat.testBit_mod_two_pow, Nat.testBit_two_pow_add_eq,
        Nat.testBit_lt_two_pow (by omega)]
      rfl
  · have expires : exec .watchdogExpire s = .next (s.seal s.wdogExpire) := done_true s _
    dsimp only
    rw [expires]
    exact ⟨fun h => by rw [State.wdogExpire_resets h], fun h => by rw [State.wdogExpire_not h]⟩
  · exact (done_of (decide_eq_true hm) s _).trans (by rw [State.regDo_of hreach]; rfl)
  · have oks : exec (.bootOk m v) s = .next (s.seal (t.bootOk m v).acked) :=
      (done_of (decide_eq_true hm) s _).trans (by rw [State.regDo_of hreach])
    dsimp only
    rw [oks]
    exact ⟨fun h => by rw [State.bootOk_clear h], fun h hw hslot => by rw [State.bootOk_pending h hw hslot],
      fun h hother => by rw [State.bootOk_other h hother]⟩
  · have enters : exec (.modeEnter m v) s = .next (s.seal (t.modeEnter m v).acked) :=
      (done_of (decide_eq_true hm) s _).trans (by rw [State.regDo_of hreach])
    dsimp only
    rw [enters]
    refine ⟨fun h hmd => ?_, fun h hmd hmay => ?_, fun n h hmd hn hmay => ?_, fun h => ?_, State.namedMode_alone⟩
    · rw [State.modeEnter_bringUp h hmd]
    · rw [State.modeEnter_enters h hmd hmay, if_pos rfl]
    · rw [State.modeEnter_enters h hmd hmay, if_neg hn]
    · by_cases hstage : t.ModeStage
      · obtain ⟨hmd, hmay⟩ := h.resolve_left (not_not.mpr hstage)
        rw [State.modeEnter_refused hstage hmd hmay]
      · rw [State.modeEnter_unstaged hstage]
  · have goes : exec (.recoveryGo m v) s = .next (s.seal (t.recoveryGo m v).acked) :=
      (done_of (decide_eq_true hm) s _).trans (by rw [State.regDo_of hreach])
    dsimp only
    rw [goes]
    refine ⟨fun h => by rw [State.recoveryGo_write h], fun hgo h => by rw [State.recoveryGo_unstaged hgo h], fun hgo hstage =>
      ⟨fun h => by rw [State.recoveryGo_illegal hgo hstage h], fun h => ?_⟩⟩
    exact ⟨fun hc => by rw [State.recoveryGo_starts hgo hstage h hc], fun hc => by rw [State.recoveryGo_broken hgo hstage h hc],
      fun hc => by rw [State.recoveryGo_invalid hgo hstage h hc]⟩

end Sys2Proof.Machine
end

section
/-! The queue pairs are the queue engine's own: reports, packets, controllers, slices and stores leave them as they are. -/

namespace Sys2Proof.Machine

/-- What a step that answers a state keeps, it keeps in the state it is taken apart into. -/
theorem pairs_of_eq {α : Type} {s t : State} {x : α × State} {a : α} (hx : x.2.pairs = s.pairs) (h : x = (a, t)) : t.pairs = s.pairs := by
  rw [h] at hx
  exact hx

section
variable (s : State)

/-! Reports and interrupts. -/

theorem State.setFld_pairs (off hi lo v : Nat) : (s.setFld off hi lo v).pairs = s.pairs := rfl

theorem State.signal_pairs (e : Nat) : (s.signal e).pairs = s.pairs := by
  unfold State.signal
  split
  · rfl
  · split <;> rfl

theorem State.msix_pairs (f v : Nat) : (s.msix f v).pairs = s.pairs := by
  unfold State.msix
  split <;> rfl

theorem State.guardSend_pairs : s.guardSend.pairs = s.pairs := by
  have sent : (if s.bit Reg.GRD_INT_ROUTE 31 then s.msix 0 (s.fld Reg.GRD_INT_ROUTE 10 0) else s).pairs = s.pairs := by
    split
    · exact s.msix_pairs _ _
    · rfl
  unfold State.guardSend
  refine Eq.trans ?_ sent
  generalize (if s.bit Reg.GRD_INT_ROUTE 31 then s.msix 0 (s.fld Reg.GRD_INT_ROUTE 10 0) else s) = u
  dsimp only
  split
  · exact u.signal_pairs _
  · rfl

theorem State.guardEdge_pairs : s.guardEdge.pairs = s.pairs := by
  unfold State.guardEdge
  dsimp only
  split
  · exact State.guardSend_pairs _
  · rfl

theorem State.raise_pairs (st b : Nat) : (s.raise st b).pairs = s.pairs := State.guardEdge_pairs _

theorem State.wrWords_pairs (off : Nat) (ws : List Nat) : (s.wrWords off ws).pairs = s.pairs := by
  induction ws generalizing s off with
  | nil => rfl
  | cons w ws ih => exact ih _ _

theorem State.storeReport_pairs (r : Report) : (s.storeReport r).pairs = s.pairs := by
  unfold State.storeReport
  dsimp only
  split
  · rfl
  · split
    · rw [State.setFld_pairs, State.setFld_pairs, State.setFld_pairs, State.wrWords_pairs]
    · rw [State.setFld_pairs, State.setFld_pairs, State.wrWords_pairs]

theorem State.report_pairs (r : Report) : (s.report r).pairs = s.pairs := by
  unfold State.report
  refine (State.guardEdge_pairs _).trans ?_
  split
  · rfl
  · exact s.storeReport_pairs r

theorem State.reportOwn_pairs (r : Report) : (s.reportOwn r).pairs = s.pairs :=
  (State.guardEdge_pairs _).trans (s.storeReport_pairs r)

theorem State.reportDenied_pairs (r : Report) : (s.reportDenied r).pairs = s.pairs := by
  unfold State.reportDenied
  split
  · exact s.reportOwn_pairs r
  · exact s.report_pairs r

theorem State.markFaulted_pairs (t m addr g : Nat) : (s.markFaulted t m addr g).pairs = s.pairs := by
  unfold State.markFaulted
  rw [State.reportOwn_pairs]

theorem State.markAllFaulted_pairs (t m addr : Nat) (gs : List Nat) :
    (gs.foldl (fun s g => s.markFaulted t m addr g) s).pairs = s.pairs :=
  foldl_keeps (g := State.pairs) (fun u _ => u.markFaulted_pairs _ _ _ _) gs s

theorem State.judge_pairs (t m addr len : Nat) (n : Rights) : (s.judge t m addr len n).2.pairs = s.pairs := by
  unfold State.judge
  dsimp only
  split
  · exact s.markAllFaulted_pairs t m addr _
  · exact (State.reportDenied_pairs _ _).trans (s.markAllFaulted_pairs t m addr _)

theorem State.judgeQuiet_pairs (t m addr len : Nat) (n : Rights) : (s.judgeQuiet t m addr len n).2.pairs = s.pairs :=
  s.markAllFaulted_pairs t m addr _

theorem State.unmapped_pairs (m dpa : Nat) : (s.unmapped m dpa).pairs = s.pairs := State.report_pairs _ _

theorem State.refuse_pairs (m off st : Nat) : (s.refuse m off st).pairs = s.pairs := State.report_pairs _ _

/-! Packets to another node. -/

theorem State.routeEntry_pairs (d : Nat) : (s.routeEntry d).2.pairs = s.pairs := by
  unfold State.routeEntry
  dsimp only
  split
  · rfl
  · exact (State.report_pairs _ _).trans (s.raise_pairs _ _)

theorem State.route_pairs (d : Nat) : (s.route d).2.pairs = s.pairs := by
  unfold State.route
  split
  · rfl
  · have entry := s.routeEntry_pairs d
    generalize s.routeEntry d = x at entry
    obtain ⟨e, t⟩ := x
    cases e with
    | none => exact entry
    | some v =>
      dsimp only
      split
      · exact entry
      · split
        · exact entry
        · split
          · exact entry
          · split
            · exact entry
            · split <;> exact entry

theorem State.flushPort_pairs (p : Nat) : (s.flushPort p).pairs = s.pairs := by
  unfold State.flushPort
  split <;> rfl

theorem State.putPacket_pairs (p : Nat) (k : Packet) : (s.putPacket p k).pairs = s.pairs := by
  unfold State.putPacket
  dsimp only
  split
  · rfl
  · refine (State.flushPort_pairs _ _).trans ?_
    split <;> rfl

theorem State.sendPacket_pairs (k : Packet) : (s.sendPacket k).2.pairs = s.pairs := by
  have way := s.route_pairs k.dst
  unfold State.sendPacket
  generalize s.route k.dst = x at way
  obtain ⟨r, t⟩ := x
  cases r with
  | here => exact (t.putPacket_pairs _ _).trans way
  | unreachable => exact way
  | port p => exact (t.putPacket_pairs _ _).trans way
  | hold p => exact (t.putPacket_pairs _ _).trans way

theorem State.farRequest_pairs (g : Region) (r : Request) (p : Bool) : (s.farRequest g r p).2.pairs = s.pairs := by
  unfold State.farRequest
  split
  · rfl
  · split
    · rfl
    · split
      · split
        · split
          · rfl
          · next n off _ fid win _ _ tag _ =>
            have sent := s.sendPacket_pairs (aperturePacket s.srcFid fid win off tag r p)
            split
            · next h => exact pairs_of_eq sent h
            · next h =>
              have kept := pairs_of_eq sent h
              exact kept
        · exact s.report_pairs _
      · split <;> rfl

/-! Controllers. -/

theorem State.mcReport_pairs (n m dpa st sev : Nat) : (s.mcReport n m dpa st sev).pairs = s.pairs := State.report_pairs _ _

theorem State.failWaiting_pairs (n : Nat) : (s.failWaiting n).pairs = s.pairs :=
  foldl_keeps (g := State.pairs) (fun u _ => u.mcReport_pairs _ _ _ _ _) _ _

theorem State.freezeController_pairs (n m dpa k : Nat) : (s.freezeController n m dpa k).pairs = s.pairs := by
  unfold State.freezeController
  exact (State.failWaiting_pairs _ n).trans ((State.mcReport_pairs _ _ _ _ _ _).trans (State.raise_pairs _ _ _))

theorem State.mcRead_pairs (n m dpa k : Nat) : (s.mcRead n m dpa k).2.pairs = s.pairs := by
  unfold State.mcRead
  dsimp only
  split
  · exact s.mcReport_pairs _ _ _ _ _
  · split
    · rfl
    · split
      · rfl
      · exact State.mcReport_pairs _ _ _ _ _ _
      · exact (State.mcReport_pairs _ _ _ _ _ _).trans (State.raise_pairs _ _ _)
      · exact s.freezeController_pairs _ _ _ _

theorem State.mcWrite_pairs (n m dpa o : Nat) (data : List Byte) (p : Bool) : (s.mcWrite n m dpa o data p).2.pairs = s.pairs := by
  have frozen (u : State) : (u.frozenAnswer n m dpa).2.pairs = u.pairs := u.mcReport_pairs _ _ _ _ _
  unfold State.mcWrite
  split
  · exact frozen s
  · dsimp only
    split
    · rfl
    · have read := s.mcRead_pairs n m dpa 1
      generalize s.mcRead n m dpa 1 = x at read
      obtain ⟨r, t⟩ := x
      dsimp only
      split
      · exact (frozen t).trans read
      · exact read

theorem State.mirrorRead_pairs (w m a b k : Nat) : (s.mirrorRead w m a b k).2.pairs = s.pairs := by
  have side : (if s.sideOut w a then (⟨St.ok, [], true⟩, s) else s.mcRead (s.controller a) m a k : MemAnswer × State).2.pairs = s.pairs := by
    split
    · rfl
    · exact s.mcRead_pairs _ _ _ _
  unfold State.mirrorRead
  generalize (if s.sideOut w a then (⟨St.ok, [], true⟩, s) else s.mcRead (s.controller a) m a k : MemAnswer × State) = x at side
  obtain ⟨r, t⟩ := x
  dsimp only
  split
  · exact side
  · split
    · exact side
    · have read := (t.mcRead_pairs (t.controller b) m b k).trans side
      generalize t.mcRead (t.controller b) m b k = y at read
      obtain ⟨q, u⟩ := y
      dsimp only
      split
      · dsimp only
        split
        · exact read
        · exact (u.mcWrite_pairs _ _ _ _ _ _).trans read
      · exact read

theorem State.mirrorWriteSide_pairs (w m dpa o : Nat) (data : List Byte) (p : Bool) :
    (s.mirrorWriteSide w m dpa o data p).2.pairs = s.pairs := by
  unfold State.mirrorWriteSide
  split
  · rfl
  · split
    · rfl
    · have wrote := s.mcWrite_pairs (s.controller dpa) m dpa o data p
      generalize s.mcWrite (s.controller dpa) m dpa o data p = x at wrote
      obtain ⟨st, t⟩ := x
      dsimp only
      split
      · exact wrote
      · exact wrote

theorem State.burstRead_pairs (m dpa : Nat) : (s.burstRead m dpa).2.pairs = s.pairs := by
  unfold State.burstRead
  split
  · exact s.unmapped_pairs _ _
  · split
    · rfl
    · split
      · exact s.mirrorRead_pairs _ _ _ _ _
      · exact s.mcRead_pairs _ _ _ _

theorem State.burstWrite_pairs (m dpa o : Nat) (data : List Byte) (p : Bool) : (s.burstWrite m dpa o data p).2.pairs = s.pairs := by
  unfold State.burstWrite
  split
  · exact s.unmapped_pairs _ _
  · split
    · rfl
    · split
      · exact (State.mirrorWriteSide_pairs _ _ _ _ _ _ _).trans (s.mirrorWriteSide_pairs _ _ _ _ _ _)
      · exact s.mcWrite_pairs _ _ _ _ _ _

/-! The system cache. -/

theorem State.writeLine_pairs (m ln : Nat) (l : Line) : (s.writeLine m ln l).pairs = s.pairs :=
  (State.burstWrite_pairs _ _ _ _ _ _).trans (s.burstWrite_pairs _ _ _ _ _)

theorem State.drainOne_pairs (m i : Nat) : (s.drainOne m i).pairs = s.pairs := by
  unfold State.drainOne
  split
  · rfl
  · exact State.writeLine_pairs _ _ _ _

theorem State.drainAll_pairs (m i : Nat) : (s.drainAll m i).pairs = s.pairs :=
  foldl_keeps (g := State.pairs) (fun u _ => u.writeLine_pairs _ _ _) _ _

theorem State.evict_pairs (m i : Nat) (l : Line) : (s.evict m i l).pairs = s.pairs := by
  unfold State.evict
  split
  · dsimp only
    split
    · exact s.drainOne_pairs m i
    · rfl
  · rfl

theorem State.allocate_pairs (m : Nat) (l : Line) : (s.allocate m l).pairs = s.pairs := by
  unfold State.allocate
  dsimp only
  split
  · exact State.evict_pairs _ _ _ _
  · rfl

theorem State.fetchLine_pairs (m ln : Nat) : (s.fetchLine m ln).2.2.pairs = s.pairs := by
  have low := s.burstRead_pairs m (128 * ln)
  unfold State.fetchLine
  generalize s.burstRead m (128 * ln) = x at low
  obtain ⟨a, t⟩ := x
  dsimp only
  split
  · exact low
  · exact (t.burstRead_pairs _ _).trans low

theorem State.straightWrite_pairs (m dpa : Nat) (data : List Byte) (p : Bool) : (s.straightWrite m dpa data p).2.pairs = s.pairs := by
  have part (u : State) (b : Bool) (dpa o : Nat) (d : List Byte) :
      (if b then (St.ok, u) else u.burstWrite m dpa o d p : Nat × State).2.pairs = u.pairs := by
    split
    · rfl
    · exact u.burstWrite_pairs _ _ _ _ _
  unfold State.straightWrite
  exact (part _ _ _ _ _).trans (part s _ _ _ _)

theorem State.lineWrite_pairs (m ln o : Nat) (data : List Byte) (p stream : Bool) :
    (s.lineWrite m ln o data p stream).2.pairs = s.pairs := by
  unfold State.lineWrite
  dsimp only
  split
  · rfl
  · have drained : ∀ b : Bool, (if b then ((s.countWrap (Reg.SCS_MISSES (homeSlice (128 * ln)))).count
          (Reg.SCS_WB_WAITS (homeSlice (128 * ln))) 31 0 1).drainAll m (homeSlice (128 * ln))
        else s.countWrap (Reg.SCS_MISSES (homeSlice (128 * ln)))).pairs = s.pairs := by
      intro b
      split
      · exact State.drainAll_pairs _ _ _
      · rfl
    split
    · exact (State.straightWrite_pairs _ _ _ _ _).trans (drained _)
    · split
      · exact (State.allocate_pairs _ _ _).trans (drained _)
      · have fetched := (State.fetchLine_pairs _ m ln).trans (drained ((s.countWrap (Reg.SCS_MISSES (homeSlice (128 * ln)))).inWriteBack
          (homeSlice (128 * ln)) ln).isSome)
        generalize State.fetchLine _ m ln = x at fetched ⊢
        obtain ⟨st, l, u⟩ := x
        dsimp only
        split
        · exact fetched
        · exact (u.allocate_pairs _ _).trans fetched

theorem State.hbmWriteLine_pairs (m dpa : Nat) (data : List Byte) (p stream : Bool) :
    (s.hbmWriteLine m dpa data p stream).2.pairs = s.pairs := by
  unfold State.hbmWriteLine
  split
  · exact s.lineWrite_pairs _ _ _ _ _ _
  · exact s.straightWrite_pairs _ _ _ _

theorem State.soil_pairs (dpa k : Nat) : (s.soil dpa k).pairs = s.pairs := by
  unfold State.soil
  split <;> rfl

theorem State.hbmWrite_pairs (m dpa : Nat) (data : List Byte) (p stream : Bool) :
    (s.hbmWrite m dpa data p stream).2.pairs = s.pairs :=
  List.foldlRecOn _ _ (motive := fun acc : Nat × State => acc.2.pairs = s.pairs) (s.soil_pairs _ _)
    fun acc hacc _ _ => (acc.2.hbmWriteLine_pairs _ _ _ _ _).trans hacc

/-! A unit's write to memory. -/

theorem State.ungate_pairs (n : Nat) : (s.ungate n).pairs = s.pairs := by
  unfold State.ungate
  split <;> rfl

theorem State.wakeTile_pairs (g : Region) : (s.wakeTile g).pairs = s.pairs := by
  unfold State.wakeTile
  split
  · exact s.ungate_pairs _
  · rfl

theorem State.domainGate_pairs {g : Region} {m dpa st : Nat} {t : State} (h : s.domainGate g m dpa = some (st, t)) :
    t.pairs = s.pairs := by
  unfold State.domainGate at h
  dsimp only at h
  split at h
  · split at h
    · split at h
      · cases h
        rfl
      · cases h
    · cases h
  · split at h
    · cases h
      rfl
    · cases h
      exact s.report_pairs _
  · cases h
    rfl

theorem State.plainWrite_pairs (m off : Nat) (v : Word) : (s.plainWrite m off v).pairs = s.pairs := by
  unfold State.plainWrite
  split <;> rfl

theorem State.regWriteBytes_pairs (m off : Nat) (data : List Byte) : (s.regWriteBytes memoryBus m off data).pairs = s.pairs := by
  unfold State.regWriteBytes
  split
  · exact s.plainWrite_pairs _ _ _
  · split
    · exact (State.plainWrite_pairs _ _ _ _).trans (s.plainWrite_pairs _ _ _)
    · exact s.refuse_pairs _ _ _

theorem State.doorWrite_pairs (m off : Nat) (data : List Byte) : (memoryBus.door s m off data).pairs = s.pairs := by
  change (if doorOdd off data then s.doorRefuse m off else s).pairs = s.pairs
  split
  · exact s.report_pairs _
  · rfl

theorem State.storeWrite_pairs (a : Nat) (data : List Byte) (p : Bool) : (s.storeWrite a data p).pairs = s.pairs := by
  unfold State.storeWrite
  split
  · rfl
  · exact (foldl_keeps (g := State.pairs) (f := fun s g => s.setMark g _) (fun _ _ => rfl) _ _).trans rfl

theorem State.denyAt_pairs (t m dpa : Nat) : (s.denyAt t m dpa).2.pairs = s.pairs := State.report_pairs _ _

section
variable {r : Request} (hr : r.kind = .write)
include hr

theorem State.serve_write_pairs (g : Region) (p : Bool) : (s.serve memoryBus g r p).2.pairs = s.pairs := by
  unfold State.serve
  rw [hr]
  cases g with
  | hbm dpa => exact s.hbmWrite_pairs _ _ _ _ _
  | bench n off => exact (State.storeWrite_pairs _ _ _ _).trans rfl
  | reg off =>
    dsimp only
    split
    · rfl
    · exact s.regWriteBytes_pairs _ _ _
  | door off =>
    dsimp only
    split
    · rfl
    · exact s.doorWrite_pairs _ _ _
  | rom off => exact s.report_pairs _
  | keep off => exact s.storeWrite_pairs _ _ _
  | peerHbm a => exact s.farRequest_pairs _ _ _
  | peerBench => exact s.farRequest_pairs _ _ _
  | peerTil a => exact s.farRequest_pairs _ _ _
  | remote a b => exact s.farRequest_pairs _ _ _
  | lost => rfl
  | unmapped => rfl

theorem State.atTarget_write_pairs (p : Bool) : (s.atTarget memoryBus r p).2.pairs = s.pairs := by
  unfold State.atTarget
  dsimp only
  generalize s.region r.dpa r.len = g
  split
  · exact s.unmapped_pairs _ _
  · rfl
  · split
    · next h => exact s.domainGate_pairs h
    · exact s.serve_write_pairs hr _ _
  · split
    · next h => exact s.domainGate_pairs h
    · exact s.serve_write_pairs hr _ _
  · split
    · next h => exact s.domainGate_pairs h
    · exact s.serve_write_pairs hr _ _
  · split
    · next h => exact s.domainGate_pairs h
    · have judged := s.judge_pairs g.table r.master r.dpa r.len (g.rights r)
      generalize s.judge g.table r.master r.dpa r.len (g.rights r) = x at judged
      obtain ⟨v, t⟩ := x
      have woken := (t.wakeTile_pairs g).trans judged
      dsimp only
      split
      · exact judged
      · split
        · split
          · exact (State.denyAt_pairs _ _ _ _).trans woken
          · split
            · exact (State.denyAt_pairs _ _ _ _).trans woken
            · exact (State.serve_write_pairs _ hr _ _).trans woken
        · exact (State.serve_write_pairs _ hr _ _).trans woken

end

theorem State.writeNow_pairs (m dpa : Nat) (data : List Byte) : (s.writeNow m dpa data).2.pairs = s.pairs := by
  unfold State.writeNow State.runOf
  dsimp only
  split
  · exact s.atTarget_write_pairs rfl _
  · exact s.atTarget_write_pairs rfl _
  · split
    · exact s.atTarget_write_pairs rfl _
    · refine List.foldlRecOn _ _ (motive := fun x : MemAnswer × State => x.2.pairs = s.pairs) rfl fun x hx q _ => ?_
      split
      · exact hx
      · exact (State.atTarget_write_pairs _ rfl _).trans hx

/-! Commands that pass or complete. -/

theorem State.passCmd_pairs (tag : Nat) : (s.passCmd tag).pairs = s.pairs := by
  unfold State.passCmd
  split
  · rfl
  · dsimp only
    split
    · rfl
    · exact (State.signal_pairs _ _).trans (State.writeNow_pairs _ _ _ _)

theorem State.passPublish_pairs : s.passPublish.pairs = s.pairs := by
  unfold State.passPublish
  split
  · exact s.passCmd_pairs _
  · rfl

theorem State.complete_pairs (tag st res : Nat) : (s.complete tag st res).pairs = s.pairs := by
  unfold State.complete
  split
  · split
    · rfl
    · dsimp only
      split
      · exact State.passPublish_pairs _
      · split <;> rfl
  · rfl

end

end Sys2Proof.Machine
end

section
/-! The deletion of a pair (R246). -/

namespace Sys2Proof.Machine

section
variable {s : State} {q : Nat} {p : Pair}

theorem State.pair_setPair_self (v : Option Pair) : (s.setPair q v).pair q = v := FMap.get_set_self _ _ _ _

/-- With nothing of the pair in flight, no command of it is there. -/
theorem State.inFlight_none (h : s.inFlight q = 0) {e : Nat × Option Cmd} (he : e ∈ s.cmds) {c : Cmd} (hc : e.2 = some c) :
    c.pair ≠ q := by
  intro hq
  have empty := List.filter_eq_nil_iff.mp (List.length_eq_zero_iff.mp h) e he
  rw [hc] at empty
  exact empty (decide_eq_true hq)

theorem State.stopPair_idle (h : s.inFlight q = 0) : s.stopPair q = s := by
  have none : s.cmds.filterMap (fun e => e.2.bind (fun c => if c.pair = q && c.abortable then some e.1 else none)) = [] := by
    refine List.filterMap_eq_nil_iff.mpr fun e he => ?_
    cases hc : e.2 with
    | none => rfl
    | some c => exact if_neg (by rw [decide_eq_false (State.inFlight_none h he hc)]; exact Bool.false_ne_true)
  unfold State.stopPair
  rw [none]
  rfl

/-- A DELETING pair with nothing in flight is gone. -/
theorem State.endDelete_gone (hp : s.pair q = some p) (hstate : p.state = 3) (h : s.inFlight q = 0) : (s.endDelete q).pair q = none := by
  unfold State.endDelete
  rw [hp]
  dsimp only
  rw [if_pos (by rw [decide_eq_true hstate, decide_eq_true h]; rfl)]
  unfold State.pair
  rw [foldl_keeps (g := State.pairs) fun u tag => u.complete_pairs tag St.ok 0]
  exact State.pair_setPair_self none

theorem State.deletePair_missing (h : s.pair q = none) : s.deletePair q = s := by
  unfold State.deletePair
  rw [h]

theorem State.deletePair_again (hp : s.pair q = some p) (h : p.state = 3) : s.deletePair q = s := by
  unfold State.deletePair
  rw [hp]
  exact if_pos h

section
variable (hp : s.pair q = some p) (h : p.state ≠ 3)
include hp h

theorem State.deletePair_begins :
    s.deletePair q = ((s.setPair q (some { p with state := 3, pending := false })).stopPair q).endDelete q := by
  unfold State.deletePair
  rw [hp]
  exact if_neg h

theorem State.deletePair_gone (hidle : s.inFlight q = 0) : (s.deletePair q).pair q = none := by
  have idle : (s.setPair q (some { p with state := 3, pending := false })).inFlight q = 0 := hidle
  rw [State.deletePair_begins hp h, State.stopPair_idle idle]
  exact State.endDelete_gone (State.pair_setPair_self _) rfl idle

end
end

end Sys2Proof.Machine
end

section
/-! PERST#, resets of the host link, and the doorbells (R228, R235, R246, R461). -/

namespace Sys2Proof.Machine

section
variable {s : State} {m q fn off : Nat} {v : Word} {p : Pair}

theorem State.perstInput_same : s.perstInput s.steady.perst = s := if_pos rfl

theorem State.perstInput_asserted (h : s.steady.perst = false) :
    s.perstInput true = (State.linkDown { s with steady := { s.steady with perst := true } }).wake 1 :=
  if_neg (by rw [h]; decide)

theorem State.perstInput_deasserted (h : s.steady.perst = true) :
    s.perstInput false = State.wake { s with steady := { s.steady with perst := false, sris := Config.clkModeOpen } } 1 :=
  if_neg (by rw [h]; decide)

theorem State.flr_absent (h : s.functions ≤ fn) : s.flr fn = s := by
  refine if_pos ?_
  unfold State.fnEnabled
  rw [decide_eq_false (Nat.not_lt.mpr h)]
  rfl

theorem State.flr_enabled (h : fn < s.functions) :
    s.flr fn = (if fn = 0 then List.range s.functions else [fn]).foldl (fun s f => (s.deletePairsOf f).clearFnView f) s := by
  refine if_neg ?_
  unfold State.fnEnabled
  rw [decide_eq_true h]
  decide

/-- A doorbell write that its domain admits acts. -/
theorem State.doorDo_of {act : State → State} (h : s.domainGate (.door off) m (0x20001000000 + off) = none) :
    s.doorDo m off act = (act s).acked := by
  unfold State.doorDo
  rw [h]
  rfl

theorem State.door_off (h : s.bit Reg.QE_CTL 0 = false) : s.door? m q off = .error s := if_pos (by rw [h]; rfl)

section
variable (hon : s.bit Reg.QE_CTL 0 = true)
include hon

theorem State.door_denied (h : s.pair q = none ∨ m ≠ s.pairFn q) :
    s.door? m q off = .error (s.doorDeny m q off St.accessDenied) := by
  unfold State.door?
  rw [if_neg (by rw [hon]; decide)]
  cases hp : s.pair q with
  | none => rfl
  | some p => exact if_pos (h.resolve_left (by rw [hp]; exact Option.some_ne_none p))

variable (hp : s.pair q = some p) (hm : m = s.pairFn q)
include hp hm

theorem State.door_inactive (h : p.state ≠ 1) : s.door? m q off = .error s := by
  unfold State.door?
  rw [if_neg (by rw [hon]; decide), hp]
  exact (if_neg (not_not.mpr hm)).trans (if_pos h)

theorem State.door_active (h : p.state = 1) : s.door? m q off = .ok p := by
  unfold State.door?
  rw [if_neg (by rw [hon]; decide), hp]
  exact (if_neg (not_not.mpr hm)).trans (if_neg (not_not.mpr h))

end

theorem State.kick_error {t : State} (h : s.door? m q (64 * q) = .error t) : s.kick m q = t := by
  unfold State.kick
  rw [h]

theorem State.kick_ok (h : s.door? m q (64 * q) = .ok p) : s.kick m q = (s.setPair q (some { p with pending := true })).countWaits := by
  unfold State.kick
  rw [h]

theorem State.cqHead_error {t : State} (h : s.door? m q (64 * q + 8) = .error t) : s.cqHead m q v = t := by
  unfold State.cqHead
  rw [h]

/-- A head within the ring that releases only posted entries. -/
def Pair.HeadLegal (p : Pair) (n : Nat) : Prop :=
  n < qcCqDepth p.ctx ∧
    (n + qcCqDepth p.ctx - p.chead) % qcCqDepth p.ctx ≤ (p.ctail + qcCqDepth p.ctx - p.chead) % qcCqDepth p.ctx

theorem Pair.headLegal_iff {n : Nat} :
    (qcCqDepth p.ctx ≤ n || (p.ctail + qcCqDepth p.ctx - p.chead) % qcCqDepth p.ctx < (n + qcCqDepth p.ctx - p.chead) % qcCqDepth p.ctx) =
      true ↔ ¬ p.HeadLegal n := by
  rw [Pair.HeadLegal, Bool.or_eq_true, decide_eq_true_eq, decide_eq_true_eq, not_and_or, Nat.not_lt, Nat.not_le]

section
variable (hdoor : s.door? m q (64 * q + 8) = .ok p)
include hdoor

theorem State.cqHead_moves (h : p.HeadLegal v.toNat) :
    s.cqHead m q v = ((s.setPair q (some { p with chead := v.toNat })).flushNotices).countWaits := by
  unfold State.cqHead
  rw [hdoor]
  exact if_neg fun h' => Pair.headLegal_iff.mp h' h

theorem State.cqHead_refused (h : ¬ p.HeadLegal v.toNat) : s.cqHead m q v = s.doorDeny m q (64 * q + 8) St.invalidField := by
  unfold State.cqHead
  rw [hdoor]
  exact if_pos (Pair.headLegal_iff.mpr h)

end
end

end Sys2Proof.Machine
end

section
/-! The admin pair of a function (R229, R230, R232, R250). -/

namespace Sys2Proof.Machine

section
variable {t : State} {fn : Nat}

theorem State.adminDelete_enabled (h : t.bit (aqReg fn 0) 0 = true) :
    t.adminDelete fn = (t.setFld (aqReg fn 0) 0 0 0).deletePair fn := if_pos h

theorem State.adminDelete_not (h : t.bit (aqReg fn 0) 0 = false) : t.adminDelete fn = t := if_neg (ne_true_of_eq_false h)

theorem State.adminCreate_again (h : t.bit (aqReg fn 0) 0 = true) : t.adminCreate fn = t := if_pos h

section
variable (h : t.bit (aqReg fn 0) 0 = false)
include h

theorem State.adminCreate_denied (hoff : t.bit Reg.QE_CTL 0 = false ∨ t.pair fn ≠ none) :
    t.adminCreate fn = t.refuse fn 0x10000 St.accessDenied := by
  refine (if_neg (ne_true_of_eq_false h)).trans (if_pos ?_)
  rw [Bool.or_eq_true, Bool.not_eq_true', Option.isSome_iff_ne_none]
  exact hoff

variable (hon : t.bit Reg.QE_CTL 0 = true) (hpair : t.pair fn = none)
include hon hpair

theorem State.adminCreate_empty (hdepth : t.fld (aqReg fn 8) 15 0 = 0 ∨ t.fld (aqReg fn 8) 31 16 = 0) :
    t.adminCreate fn = t.refuse fn 0x10000 St.invalidField := by
  refine (if_neg (ne_true_of_eq_false h)).trans ((if_neg (by rw [hon, hpair]; decide)).trans (if_pos ?_))
  rw [Bool.or_eq_true, decide_eq_true_eq, decide_eq_true_eq]
  exact hdepth

variable (hsq : t.fld (aqReg fn 8) 15 0 ≠ 0) (hcq : t.fld (aqReg fn 8) 31 16 ≠ 0)
include hsq hcq

theorem State.adminCreate_makes :
    t.adminCreate fn =
      let r := t.makePair fn (t.aqCtx fn) 1000
      if r.1 = St.held then t
      else if r.1 = St.ok then r.2.setFld (aqReg fn 0) 0 0 1
      else r.2.refuseDetail fn 0x10000 r.1 (2 ^ 16 * fn) := by
  refine (if_neg (ne_true_of_eq_false h)).trans ((if_neg (by rw [hon, hpair]; decide)).trans ((if_neg ?_).trans rfl))
  rw [Bool.or_eq_true, decide_eq_true_eq, decide_eq_true_eq]
  exact not_or.mpr ⟨hsq, hcq⟩

variable {st : Nat} {u : State} (hwrite : t.writeMem Mid.qe (t.ctxDpa fn) (t.aqCtx fn) = (st, u))
include hwrite

theorem State.adminCreate_failed (hst : st ≠ St.ok) :
    t.adminCreate fn = if st = St.held then t else u.refuseDetail fn 0x10000 st (2 ^ 16 * fn) := by
  have made : t.makePair fn (t.aqCtx fn) 1000 = (st, u) := by
    unfold State.makePair
    rw [hwrite]
    exact if_neg hst
  rw [State.adminCreate_makes h hon hpair hsq hcq, made]
  dsimp only
  rw [if_neg hst]

theorem State.adminCreate_created (hst : st = St.ok) :
    t.adminCreate fn = (u.setPair fn (some (Pair.fresh (t.aqCtx fn) 1000))).setFld (aqReg fn 0) 0 0 1 := by
  have made : t.makePair fn (t.aqCtx fn) 1000 = (St.ok, u.setPair fn (some (Pair.fresh (t.aqCtx fn) 1000))) := by
    unfold State.makePair
    rw [hwrite, hst]
    rfl
  rw [State.adminCreate_makes h hon hpair hsq hcq, made]
  rfl

end
end

/-- Settles O51: the events and doorbells by the cases of their own lemmas, the deletion of an idle pair by the frame of
`State.complete` (`State.complete_pairs`). -/
theorem hostLinkDoorbellsAndAdminPairs : Obligations.HostLinkDoorbellsAndAdminPairs := by
  refine ⟨fun s => ?_, fun s fn hfn => ?_, fun s q => ⟨State.deletePair_missing, fun p => State.deletePair_again,
    fun p hp h => ⟨State.deletePair_begins hp h, State.deletePair_gone hp h⟩⟩, fun s m q v hm hq => ?_, fun s t fn hfn => ?_⟩
  · have changes (a : Bool) : exec (.perst a) s = .next (s.seal (s.perstInput a)) := done_true s _
    refine ⟨(changes _).trans (by rw [State.perstInput_same]), fun h => (changes _).trans (by rw [State.perstInput_asserted h]; rfl),
      fun h => (changes _).trans (by rw [State.perstInput_deasserted h]), done_true s _, done_true s _⟩
  · have resets (f : Nat) (hf : f < 128) : exec (.flr f) s = .next (s.seal (s.flr f)) := done_of (decide_eq_true hf) s _
    refine ⟨fun h => (resets fn hfn).trans (by rw [State.flr_absent h]), fun h h0 => (resets fn hfn).trans ?_,
      fun h => (resets 0 (by decide)).trans ?_⟩
    · rw [State.flr_enabled h, if_neg h0]
    · rw [State.flr_enabled h, if_pos rfl]
  · have hok : (okMaster m && okPair q) = true := by simp [okMaster, okPair, hm, hq]
    have kicks (h : s.domainGate (.door (64 * q)) m (0x20001000000 + 64 * q) = none) :
        exec (.sqKick m q) s = .next (s.seal (s.kick m q).acked) := (done_of hok s _).trans (by rw [State.doorDo_of h])
    have heads (h : s.domainGate (.door (64 * q + 8)) m (0x20001000000 + (64 * q + 8)) = none) :
        exec (.cqHead m q v) s = .next (s.seal (s.cqHead m q v).acked) := (done_of hok s _).trans (by rw [State.doorDo_of h])
    refine ⟨fun hoff => ⟨fun h => ?_, fun h => ?_⟩, fun hon hno => ⟨fun h => ?_, fun h => ?_⟩, fun p hon hp hown =>
      ⟨fun hst => ⟨fun h => ?_, fun h => ?_⟩, fun hst => ⟨fun h => ?_, fun h hlegal => ?_, fun h hlegal => ?_⟩⟩⟩
    · exact (kicks h).trans (by rw [State.kick_error (State.door_off hoff)])
    · exact (heads h).trans (by rw [State.cqHead_error (State.door_off hoff)])
    · exact (kicks h).trans (by rw [State.kick_error (State.door_denied hon hno)])
    · exact (heads h).trans (by rw [State.cqHead_error (State.door_denied hon hno)])
    · exact (kicks h).trans (by rw [State.kick_error (State.door_inactive hon hp hown hst)])
    · exact (heads h).trans (by rw [State.cqHead_error (State.door_inactive hon hp hown hst)])
    · exact (kicks h).trans (by rw [State.kick_ok (State.door_active hon hp hown hst)])
    · exact (heads h).trans (by rw [State.cqHead_moves (State.door_active hon hp hown hst) hlegal])
    · exact (heads h).trans (by rw [State.cqHead_refused (State.door_active hon hp hown hst) hlegal])
  · have hok : okFunction fn = true := decide_eq_true hfn
    refine ⟨fun hdown => ?_, fun hup hreach => ?_⟩
    · exact ⟨(done_of hok s _).trans (by rw [hdown]; rfl), (done_of hok s _).trans (by rw [hdown]; rfl)⟩
    · have creates : exec (.adminPairCreate fn) s = .next (s.seal (t.adminCreate fn).acked) :=
        (done_of hok s _).trans (by rw [if_pos hup, State.regDo_of hreach])
      have deletes : exec (.adminPairDelete fn) s = .next (s.seal (t.adminDelete fn).acked) :=
        (done_of hok s _).trans (by rw [if_pos hup, State.regDo_of hreach])
      dsimp only
      rw [creates, deletes]
      refine ⟨fun h => ⟨by rw [State.adminCreate_again h], by rw [State.adminDelete_enabled h]⟩, fun h =>
        ⟨by rw [State.adminDelete_not h], fun hoff => by rw [State.adminCreate_denied h hoff], fun hon hpair =>
          ⟨fun hdepth => by rw [State.adminCreate_empty h hon hpair hdepth], fun hsq hcq st u hwrite =>
            ⟨fun hst => ?_, fun hst => ?_, fun hheld hst => ?_⟩⟩⟩⟩
      · rw [State.adminCreate_failed h hon hpair hsq hcq hwrite (by rw [hst]; decide), if_pos hst]
      · rw [State.adminCreate_created h hon hpair hsq hcq hwrite hst]
      · rw [State.adminCreate_failed h hon hpair hsq hcq hwrite hst, if_neg hheld]

end Sys2Proof.Machine
end

section
/-! How the row of a scalar instruction of either kind of core ends (R92, R99), and the arithmetic and the jumps (R77 to R81). -/

namespace Sys2Proof.Machine

section
variable {s t : State} {c : Nat} {pfx : Option Word} {w : Word} {is : Word → Bool} {f : Ctx → State → Out} {k : Core}
  (hruns : s.Runs c) (hpfx : prefixOf? pfx ≠ .illegal) (hm : major w ≤ 0x0D) (hi : is w = true)
include hruns hpfx hm hi

theorem State.scalarRow_next (hf : f (s.ctx c pfx w) s = .next k t) :
    done (okCore c) s (s.runRow bus c pfx w is f) =
      .next (s.seal (t.retire c { k with pc := (s.core c).pc + (if pfx.isSome then 8 else 4) })) := by
  rw [done_of hruns.1, State.runRow_next hruns.2 hi ⟨hpfx, by omega, .inr (by simp [headMajor, hm])⟩ hf]

theorem State.scalarRow_goto {pc : BitVec 48} (hf : f (s.ctx c pfx w) s = .goto pc k t) :
    done (okCore c) s (s.runRow bus c pfx w is f) = .next (s.seal (t.retire c { k with pc := pc })) := by
  rw [done_of hruns.1, State.runRow_goto hruns.2 hi ⟨hpfx, by omega, .inr (by simp [headMajor, hm])⟩ hf]

theorem State.scalarRow_trap {e : Exc} (hf : f (s.ctx c pfx w) s = .trap e k t) :
    done (okCore c) s (s.runRow bus c pfx w is f) = .next (s.seal (t.trapped c k e)) := by
  rw [done_of hruns.1, State.runRow_trap hruns.2 hi ⟨hpfx, by omega, .inr (by simp [headMajor, hm])⟩ hf]

end

theorem Prefix.ne_illegal_of_immOk {p : Prefix} (h : p.immOk = true) : p ≠ .illegal := by
  rintro rfl; cases h

section
variable {x : Ctx} {s : State} {r : AluResult}

/-- The core after an ALU result (R77, R78). -/
theorem aluInsn_next (hp : x.p = .none) (hw : fn4 x.w ≤ 1) (hb : 0x18 ≤ fn6 x.w → fn6 x.w ≤ 0x1B → fB x.w = 31)
    (hr : aluOp (fn6 x.w) (fn4 x.w = 1) x.xa x.xb = some r) :
    aluInsn x s = .next { x.k.setX (fD x.w) r.value with sflags := stickyFlags x.k.sflags r } s := by
  unfold aluInsn
  rw [if_neg (by simpa [hp, Nat.not_lt.mpr hw] using hb), hr]

theorem aluiInsn_next (hp : x.p.immOk = true) (ha : fn4 x.w = 0xC → fA x.w = 0)
    (hsh : 4 ≤ fn4 x.w → fn4 x.w ≤ 7 → shiftImmOk x.p x.w = true)
    (hr : aluiOp (fn4 x.w) x.xa (immediate x.p x.w) x.k.pc = some r) :
    aluiInsn x s = .next { x.k.setX (fD x.w) r.value with sflags := stickyFlags x.k.sflags r } s := by
  unfold aluiInsn
  rw [if_neg (by simpa [hp] using ⟨ha, hsh⟩), hr]

end

/-- Settles O13: a legal word of either row completes with the operation's result and flags. -/
theorem aluInstructionsWriteResultAndStickyFlags : Obligations.AluInstructionsWriteResultAndStickyFlags := by
  intro s c w hruns
  refine ⟨fun r hm hw hb hr => ?alu, fun pfx r hm hp ha hsh hr => ?alui⟩
  case alu =>
    have hf := aluInsn_next (x := s.ctx c none w) (s := s) rfl hw hb hr
    exact (State.scalarRow_next hruns (by decide) (by omega) (isMajor_self hm) hf :)
  case alui =>
    have hf := aluiInsn_next (x := s.ctx c pfx w) (s := s) hp ha hsh hr
    exact (State.scalarRow_next hruns (Prefix.ne_illegal_of_immOk hp) (by omega) (isMajor_self hm) hf :)

/-! The jumps. -/

section
variable {x : Ctx} {s : State} {target : DWord} {k : Core}

theorem Ctx.jump_canonical (h : canonical target = true) :
    x.jump s target k = .goto (BitVec.ofNat 48 (target.toNat / 4 * 4)) k s := if_pos h

theorem Ctx.jump_faults (h : canonical target = false) : x.jump s target k = .trap (Exc.fetchFault target) (s.core x.c) s :=
  if_neg (by simp [h])

theorem brInsn_of {b : Bool} (hp : x.p.immOk = true) (hb : brTaken (fn4 x.w) x.xa x.xd = some b) :
    brInsn x s = if b then x.jump s (x.pc64 + dw (immediate x.p x.w * 4)) x.k else .next x.k s := by
  unfold brInsn
  rw [if_neg (by simp [hp])]
  change brTaken (fn4 x.w) x.xa (x.k.xreg (fD x.w)) = some b at hb
  rw [hb]
  cases b <;> rfl

section
variable (hp : x.p = .none) (hw : fn4 x.w = wf x.w 31 28)
include hp hw

theorem callInsn_eq : callInsn x s = x.jump s (x.pc64 + dw (offset21 x.w * 4)) (x.k.setX 30 x.link) :=
  if_neg (by simp [jumpWordOk, hp, hw])

theorem jumpInsn_eq : jumpInsn x s = x.jump s (x.pc64 + dw (offset21 x.w * 4)) x.k :=
  if_neg (by simp [jumpWordOk, hp, hw])

end

theorem callrInsn_eq (hp : x.p.immOk = true) (hw : fn4 x.w = 0) :
    callrInsn x s =
      x.jump s (BitVec.ofNat 64 ((x.xa + dw (immediate x.p x.w)).toNat / 4 * 4)) (x.k.setX (fD x.w) x.link) :=
  if_neg (by simp [hp, hw])

end

section
variable {s : State} {c : Nat} {pfx : Option Word} {w : Word} {is : Word → Bool} {f : Ctx → State → Out} {target : DWord} {k : Core}
  (hruns : s.Runs c) (hpfx : prefixOf? pfx ≠ .illegal) (hm : major w ≤ 0x0D) (hi : is w = true)
  (hf : f (s.ctx c pfx w) s = (s.ctx c pfx w).jump s target k)
include hruns hpfx hm hi hf

/-- A row whose instruction jumps goes to a canonical target, and faults at any other (R81, R84). -/
theorem State.scalarRow_jump :
    (canonical target = true → done (okCore c) s (s.runRow bus c pfx w is f) =
      .next (s.seal (s.retire c { k with pc := BitVec.ofNat 48 (target.toNat / 4 * 4) }))) ∧
    (canonical target = false → done (okCore c) s (s.runRow bus c pfx w is f) =
      .next (s.seal (s.trapped c (s.core c) (Exc.fetchFault target)))) :=
  ⟨fun h => State.scalarRow_goto hruns hpfx hm hi (hf.trans (Ctx.jump_canonical h)),
    fun h => State.scalarRow_trap hruns hpfx hm hi (hf.trans (Ctx.jump_faults h))⟩

end

/-- Settles O15: each legal word jumps to the target of its row, a branch that is not taken goes on. -/
theorem branchesAndJumpsReachTheirTargets : Obligations.BranchesAndJumpsReachTheirTargets := by
  intro s c pfx w hruns k next near
  have hnone (h : pfx = none) : (s.ctx c pfx w).p = .none := by rw [h]; rfl
  have hlegal (h : pfx = none) : prefixOf? pfx ≠ .illegal := by rw [h]; decide
  have hnext : next = k.pc + (if pfx.isSome then 8 else 4) := by cases pfx <;> rfl
  refine ⟨fun hm hp => ⟨fun hb => ?_, fun hb => ?_, fun hb => ?_⟩, fun hm hp hw => ?_, fun hm hp hw => ?_,
    fun hm hp hw => ?_⟩
  · rw [hnext]
    exact State.scalarRow_next hruns (Prefix.ne_illegal_of_immOk hp) (by omega) (isMajor_self hm)
      (brInsn_of (x := s.ctx c pfx w) hp hb)
  · exact (State.scalarRow_jump hruns (Prefix.ne_illegal_of_immOk hp) (by omega) (isMajor_self hm)
      (brInsn_of (x := s.ctx c pfx w) hp hb)).1
  · exact (State.scalarRow_jump hruns (Prefix.ne_illegal_of_immOk hp) (by omega) (isMajor_self hm)
      (brInsn_of (x := s.ctx c pfx w) hp hb)).2
  · exact State.scalarRow_jump hruns (hlegal hp) (by omega) (isMajor_self hm) (callInsn_eq (hnone hp) hw)
  · exact State.scalarRow_jump hruns (hlegal hp) (by omega) (isMajor_self hm) (jumpInsn_eq (hnone hp) hw)
  · exact State.scalarRow_jump hruns (Prefix.ne_illegal_of_immOk hp) (by omega) (isMajor_self hm)
      (callrInsn_eq (x := s.ctx c pfx w) hp hw)

end Sys2Proof.Machine
end

section
/-! LOAD and STORE (R80), through any window and through a tile's bench window (R86). -/

namespace Sys2Proof.Machine

section
variable {x : Ctx} {s t : State} (hp : x.p.immOk = true)
include hp

theorem loadInsn_data {d : List Byte} (hf : fn4 x.w ≤ 6) (ha : misaligned x.ea (2 ^ (fn4 x.w % 4)) = false)
    (hl : s.load x x.ea (2 ^ (fn4 x.w % 4)) = (.data d, t)) :
    loadInsn x s = .next ((t.core x.c).setX (fD x.w) (loadValue (fn4 x.w) d)) t := by
  unfold loadInsn
  dsimp only
  rw [if_neg (by simp [hp, Nat.not_lt.mpr hf]), if_neg (by simp [ha]), hl]

theorem storeInsn_done (hf : fn4 x.w ≤ 3) (ha : misaligned x.ea (2 ^ fn4 x.w) = false)
    (hs : s.store x x.ea (natLE (2 ^ fn4 x.w) x.xd.toNat) = (.done, t)) : storeInsn x s = .next (t.core x.c) t := by
  unfold storeInsn
  dsimp only
  rw [if_neg (by simp [hp, Nat.not_lt.mpr hf]), if_neg (by simp [ha]), hs]

end

/-- An aligned address whose bytes lie in the bench window (R86). -/
theorem inBench_of {ea : DWord} {k : Nat} (ha : misaligned ea k = false) (hc : canonical ea = true)
    (hlo : 0xFFFFFFE00000 ≤ ea.toNat % 2 ^ 48) (hhi : ea.toNat % 2 ^ 48 + k ≤ 2 ^ 48) : InBench ea k :=
  ⟨hc, by simpa [misaligned, hc] using ha, hlo, hhi⟩

/-- Settles O14: a load completes with the bytes that its window gives, a store once they are sent; a bench window gives the bench's. -/
theorem scalarLoadsAndStoresCompleteThroughWindows : Obligations.ScalarLoadsAndStoresCompleteThroughWindows := by
  intro s c pfx w hruns hp
  have hpfx := Prefix.ne_illegal_of_immOk hp
  refine ⟨fun hm hf => ?load, fun hm hf => ?store⟩
  case load =>
    intro ea k ha
    have loads {d : List Byte} {t : State} (hl : s.load (s.ctx c pfx w) ea k = (.data d, t)) :=
      State.scalarRow_next hruns hpfx (by omega) (isMajor_self hm) (loadInsn_data (x := s.ctx c pfx w) hp hf ha hl)
    refine ⟨fun d t hl => loads hl, fun hc hcan hlo hhi hclean => ?_, fun hc hin hclean => ?_⟩
    · exact s.load_bench (x := s.ctx c pfx w) hc (inBench_of ha hcan hlo hhi) hclean
    · exact loads (s.load_bench (x := s.ctx c pfx w) hc hin hclean)
  case store =>
    intro ea d ha
    have hlen : d.length = 2 ^ fn4 w := natLE_length _ _
    have stores {t : State} (hs : s.store (s.ctx c pfx w) ea d = (.done, t)) :=
      State.scalarRow_next hruns hpfx (by omega) (isMajor_self hm) (storeInsn_done (x := s.ctx c pfx w) hp hf ha hs)
    have inside (hc : c < 64) (hin : InBench ea (2 ^ fn4 w)) :
        s.store (s.ctx c pfx w) ea d = (.done, s.benchStore c (benchOff ea) d false) :=
      s.store_bench (x := s.ctx c pfx w) hc (hlen.symm ▸ hin)
    exact ⟨fun t hs => stores hs, fun hc hcan hlo hhi => inside hc (inBench_of ha hcan hlo hhi),
      fun hc hin => stores (inside hc hin)⟩

end Sys2Proof.Machine
end

section
/-! The system instructions without an operand (R82, R91 to R93, R309), and the return from a trap (R97). -/

namespace Sys2Proof.Machine

section
variable {x : Ctx} {s : State} (hw : sysWordOk x = true)
include hw

section
variable {i : Imprecise} (hi : (s.core x.c).imprecise = some i)
include hi

/-! The answer of an earlier store comes first (R93). -/

theorem fenceInsn_imprecise : fenceInsn x s = .trap i.exc { s.core x.c with imprecise := none } s := by
  simp [fenceInsn, Ctx.settled, hw, hi]

theorem fenceWInsn_imprecise : fenceWInsn x s = .trap i.exc { s.core x.c with imprecise := none } s := by
  simp [fenceWInsn, hw, hi]

theorem fenceXInsn_imprecise : fenceXInsn x s = .trap i.exc { s.core x.c with imprecise := none } s := by
  simp [fenceXInsn, Ctx.settled, hw, hi]

theorem endInsn_imprecise (hc : x.c < 128) : endInsn x s = .trap i.exc { s.core x.c with imprecise := none } s := by
  simp [endInsn, Ctx.settled, hw, hi, hc]

end

section
variable (hi : (s.core x.c).imprecise = none)
include hi

theorem fenceWInsn_next (hf : s.far.any (fun f => f.req.master = coreMaster x.c && f.req.kind = .write) = false) :
    fenceWInsn x s = .next (s.core x.c) s := by
  unfold fenceWInsn
  rw [if_neg (by simp [hw]), hi]
  exact if_neg (by simp [hf])

variable (hu : s.unperformed x.c = false)
include hu

theorem fenceInsn_fenced : fenceInsn x s = x.fenced (s.dropL1 x.c false) := by
  simp [fenceInsn, Ctx.settled, hw, hi, hu]

theorem fenceXInsn_next : fenceXInsn x s = .next ((s.dropL1 x.c true).core x.c) (s.dropL1 x.c true) := by
  simp [fenceXInsn, Ctx.settled, hw, hi, hu]

theorem endInsn_stop (hc : x.c < 128) : endInsn x s = .stop (s.core x.c) s := by
  simp [endInsn, Ctx.settled, hw, hi, hu, hc]

end

theorem rtcallInsn_raise : rtcallInsn x s = x.raise s ⟨0x0A, St.ok, 0, 0⟩ := if_neg (by simp [hw])

theorem dbgstopInsn_raise : dbgstopInsn x s = x.raise s (Exc.plain 0x09) := if_neg (by simp [hw])

theorem trapretInsn_goto (h : s.supervisor x.c = true) :
    trapretInsn x s =
      .goto x.k.trapret.pc x.k.trapret (s.setFld (Reg.HDS_CORE_STATUS (x.c - 128)) 5 5 (x.k.trapret.hstatus.toNat % 2)) := by
  simp [trapretInsn, hw, h]

theorem trapretInsn_privileged (h : s.supervisor x.c = false) : trapretInsn x s = x.raise s Exc.privileged := by
  simp [trapretInsn, hw, h]

end

section
variable {x : Ctx} {s : State}

theorem Ctx.fenced_tile (hc : x.c < 128) : x.fenced s = .next (s.core x.c) s := if_pos hc

theorem Ctx.fenced_headstock {t : State} (hc : 128 ≤ x.c)
    (ht : (s.setCore x.c { s.core x.c with pc := x.nextPc }).slotFence (x.c - 128) = t) :
    x.fenced s = .goto (t.core x.c).pc (t.core x.c) t := by
  subst ht
  exact if_neg (by omega)

@[simp] theorem State.ctx_c (s : State) (c : Nat) (pfx : Option Word) (w : Word) : (s.ctx c pfx w).c = c := rfl

end

theorem sysWordOk_ctx {s : State} {c : Nat} {w : Word} (h : fA w = 31 ∧ fB w = 31 ∧ fD w = 31 ∧ fn4 w = 0) :
    sysWordOk (s.ctx c none w) = true := by
  obtain ⟨ha, hb, hd, hf⟩ := h
  simp [sysWordOk, State.ctx, prefixOf?, ha, hb, hd, hf]

/-- A tile's END that completes stops it with STOP = 2 (R82). -/
theorem State.runRow_stop {s t : State} {c : Nat} {pfx : Option Word} {w : Word} {is : Word → Bool} {f : Ctx → State → Out}
    {k : Core} (hr : s.running c = true) (hi : is w = true) (h : Executable c pfx w) (hf : f (s.ctx c pfx w) s = .stop k t) :
    s.runRow bus c pfx w is f =
      ((((t.setCore c { k with pc := (s.ctx c pfx w).nextPc }).tileStop c 2 (s.core c).pc).purgeFar (coreMaster c)).afterInsn c
        false) := by
  rw [State.runRow_of hr hi h hf]
  rfl

theorem State.impreciseArrive_raises {s : State} {c : Nat} {i : Imprecise} (hr : s.running c = true)
    (hi : (s.core c).imprecise = some i) (hh : c < 64 → s.tileHalting c = false) :
    s.impreciseArrive c = s.raiseImprecise c i := by
  unfold State.impreciseArrive
  rw [hi]
  exact if_pos (by simpa [hr, imp_iff_not_or] using hh)

theorem State.impreciseArrive_halting {s : State} {c : Nat} (hc : c < 64) (hh : s.tileHalting c = true) :
    s.impreciseArrive c = s := by
  unfold State.impreciseArrive
  split
  · exact if_neg (by simp [hc, hh])
  · rfl

/-- Settles O16: a kept answer comes first, then what has not performed, then the instruction's own effect. -/
theorem fencesCallsAndEndTakeEffect : Obligations.FencesCallsAndEndTakeEffect := by
  intro s c hruns k d
  refine ⟨fun i hi => ?kept, fun hi hu => ?performed, fun hi hf => ?fenceW, ?rtcall, ?dbgstop⟩
  case kept =>
    refine ⟨?_, ?_, ?_, fun hc => ?_, fun hh => ?_, fun hc hh => ?_⟩
    · exact State.scalarRow_trap hruns (by decide) (by decide) (by decide) (fenceInsn_imprecise (sysWordOk_ctx (by decide)) hi)
    · exact State.scalarRow_trap hruns (by decide) (by decide) (by decide) (fenceWInsn_imprecise (sysWordOk_ctx (by decide)) hi)
    · exact State.scalarRow_trap hruns (by decide) (by decide) (by decide) (fenceXInsn_imprecise (sysWordOk_ctx (by decide)) hi)
    · exact State.scalarRow_trap hruns (by decide) (by decide) (by decide)
        (endInsn_imprecise (sysWordOk_ctx (by decide)) hi (show c < 128 by omega))
    · refine (done_of hruns.1 _ _).trans ?_
      rw [State.impreciseArrive_raises hruns.2 hi hh]
      rfl
    · refine (done_of hruns.1 _ _).trans ?_
      rw [State.impreciseArrive_halting hc hh]
  case performed =>
    have hdrop : (s.dropL1 c false).core c = d := s.core_setCore_self c d
    refine ⟨fun hc => ?_, fun hc => ?_, ?_, fun hc => ?_⟩
    · have hf := (fenceInsn_fenced (x := s.ctx c none 0x03FFF80C) (sysWordOk_ctx (by decide)) hi hu).trans
        (Ctx.fenced_tile (show c < 128 by omega))
      rw [State.ctx_c, hdrop] at hf
      exact (State.scalarRow_next (is := isFn 0x0C 0x00 0x00) hruns (by decide) (by decide) (by decide) hf :)
    · have hf := (fenceInsn_fenced (x := s.ctx c none 0x03FFF80C) (sysWordOk_ctx (by decide)) hi hu).trans
        (Ctx.fenced_headstock hc rfl)
      rw [State.ctx_c, hdrop] at hf
      exact (State.scalarRow_goto (is := isFn 0x0C 0x00 0x00) hruns (by decide) (by decide) (by decide) hf :)
    · have hf := fenceXInsn_next (x := s.ctx c none 0x0BFFF80C) (sysWordOk_ctx (by decide)) hi hu
      rw [State.ctx_c, show (s.dropL1 c true).core c = _ from s.core_setCore_self c _] at hf
      exact (State.scalarRow_next (is := isFn 0x0C 0x02 0x02) hruns (by decide) (by decide) (by decide) hf :)
    · refine (done_of hruns.1 _ _).trans ?_
      rw [State.runRow_stop hruns.2 (by decide) ⟨by decide, by decide, .inl (by omega)⟩
        (endInsn_stop (sysWordOk_ctx (by decide)) hi hu (show c < 128 by omega))]
      rfl
  case fenceW =>
    exact State.scalarRow_next hruns (by decide) (by decide) (by decide) (fenceWInsn_next (sysWordOk_ctx (by decide)) hi hf)
  case rtcall =>
    exact State.scalarRow_trap hruns (by decide) (by decide) (by decide) (rtcallInsn_raise (sysWordOk_ctx (by decide)))
  case dbgstop =>
    exact State.scalarRow_trap hruns (by decide) (by decide) (by decide) (dbgstopInsn_raise (sysWordOk_ctx (by decide)))

end Sys2Proof.Machine
end

section
/-! Traps of a Headstock core and the return from them (R97). -/

namespace Sys2Proof.Machine

/-! HSTATUS after a trap, and after TRAPRET, bit by bit. -/

section
variable (h : DWord)

theorem trapStatus_mode : (trapStatus h).toNat.testBit 0 = true := by
  unfold trapStatus
  generalize h.toNat.testBit 0 = a
  generalize h.toNat.testBit 2 = b
  decide +revert

theorem trapStatus_pum : (trapStatus h).toNat.testBit 1 = h.toNat.testBit 0 := by
  unfold trapStatus
  generalize h.toNat.testBit 0 = a
  generalize h.toNat.testBit 2 = b
  decide +revert

theorem trapStatus_ie : (trapStatus h).toNat.testBit 2 = false := by
  unfold trapStatus
  generalize h.toNat.testBit 0 = a
  generalize h.toNat.testBit 2 = b
  decide +revert

theorem trapStatus_pie : (trapStatus h).toNat.testBit 3 = h.toNat.testBit 2 := by
  unfold trapStatus
  generalize h.toNat.testBit 0 = a
  generalize h.toNat.testBit 2 = b
  decide +revert

/-- MODE and PUM take PUM, IE and PIE take PIE. -/
theorem trapretStatus_bits :
    (trapretStatus h).toNat.testBit 0 = h.toNat.testBit 1 ∧ (trapretStatus h).toNat.testBit 2 = h.toNat.testBit 3 ∧
      (trapretStatus h).toNat.testBit 1 = h.toNat.testBit 1 ∧ (trapretStatus h).toNat.testBit 3 = h.toNat.testBit 3 := by
  unfold trapretStatus
  generalize h.toNat.testBit 1 = a
  generalize h.toNat.testBit 3 = b
  decide +revert

end

/-- HECAUSE after a trap: {INFO, STATUS, CAUSE} (R97). -/
theorem Core.trap_hecause {k : Core} {e : Exc} (hc : e.cause < 2 ^ 16) (hs : e.status < 2 ^ 16) (hi : e.info < 2 ^ 16) :
    bits (k.trap e).hecause.toNat 15 0 = e.cause ∧ bits (k.trap e).hecause.toNat 31 16 = e.status ∧
      bits (k.trap e).hecause.toNat 47 32 = e.info := by
  have hn : (k.trap e).hecause.toNat = 2 ^ 32 * e.info + 2 ^ 16 * e.status + e.cause := by
    simp only [Core.trap, BitVec.toNat_ofNat]
    omega
  rw [hn]
  simp only [bits, Nat.shiftRight_eq_div_pow]
  omega

/-- A Headstock core that may take a trap takes it (R97, R98). -/
theorem State.except_headstock {s : State} {c : Nat} {e : Exc} (hc : 128 ≤ c)
    (h : ¬ ((s.core c).hstatus.toNat.testBit 0 = true ∧ (s.core c).hstatus.toNat.testBit 2 = false)) :
    s.except c e = (s.setCore c ((s.core c).trap e)).setFld (Reg.HDS_CORE_STATUS (c - 128)) 5 5 1 := by
  unfold State.except
  dsimp only
  rw [if_neg (by omega), if_neg (by simpa using h)]

/-- A field takes the low bits of a value only. -/
theorem State.setFld_mod (s : State) (off hi lo v : Nat) :
    s.setFld off hi lo (v % 2 ^ (hi + 1 - lo)) = s.setFld off hi lo v := by
  unfold State.setFld setBits
  rw [Nat.mod_mod]

/-- Only a core with IE = 1 is preempted (R97, R305). -/
theorem State.victimCore_ie {s : State} {p n : Nat} (h : s.victimCore p = some n) :
    (s.core (128 + n)).hstatus.toNat.testBit 2 = true := by
  have hmem := List.mem_of_find?_eq_some h
  rw [List.mem_filter] at hmem
  obtain ⟨-, hn⟩ := hmem
  simp only [Bool.and_eq_true] at hn
  exact hn.1.2

/-- Settles O18: a trap writes the trap registers of its core, TRAPRET reads them back, and a victim of preemption has IE = 1. -/
theorem headstockTrapEntryAndTrapret : Obligations.HeadstockTrapEntryAndTrapret := by
  refine ⟨fun s c e hc hcause hstatus hinfo hmay => ?trap, fun s c hruns => ?trapret, fun s p n h => State.victimCore_ie h⟩
  case trap =>
    intro k u
    have hu : u = (s.setCore c (k.trap e)).setFld (Reg.HDS_CORE_STATUS (c - 128)) 5 5 1 := State.except_headstock hc hmay
    have hcore : u.core c = k.trap e := by rw [hu]; exact s.core_setCore_self c _
    obtain ⟨hcause', hstatus', hinfo'⟩ := Core.trap_hecause (k := k) hcause hstatus hinfo
    rw [hcore]
    have hpc : (k.trap e).hepc.toNat = k.pc.toNat := by
      show (k.pc.setWidth 64).toNat = _
      rw [BitVec.toNat_setWidth]
      omega
    refine ⟨hpc, hcause', hstatus', hinfo', rfl, trapStatus_pie _, trapStatus_ie _, trapStatus_pum _, trapStatus_mode _,
      rfl, rfl, rfl, rfl, rfl, rfl, fun d hd => ?_, fun off hoff => ?_, ?_⟩ <;> rw [hu]
    · exact State.core_setCore_other s _ hd
    · exact State.rd_setFld_other _ _ _ _ hoff
    · rfl
  case trapret =>
    intro k
    refine ⟨fun h => ?_, fun h => ?_, trapretStatus_bits k.hstatus⟩
    · have hf := trapretInsn_goto (x := s.ctx c none 0x43FFF80C) (s := s) (sysWordOk_ctx (by decide)) h
      rw [← s.setFld_mod _ 5 5]
      exact (State.scalarRow_goto (is := isFn 0x0C 0x10 0x10) hruns (by decide) (by decide) (by decide) hf :)
    · exact State.scalarRow_trap hruns (by decide) (by decide) (by decide)
        (trapretInsn_privileged (x := s.ctx c none 0x43FFF80C) (sysWordOk_ctx (by decide)) h)

end Sys2Proof.Machine
end

section
/-! The system register instructions (R83): one lemma for each way one ends, and what the table gives each class of register. -/

namespace Sys2Proof.Machine

section
variable {x : Ctx} {s t : State} {f : Nat} (hp : x.p = .none) (ha : f = 0 → fA x.w = 0)
include hp ha

theorem sraInsn_unlisted (h : s.sysAccess x.c (wf x.w 31 21) = none) : sraInsn f x s = x.raise s Exc.illegal := by
  unfold sraInsn
  rw [if_neg (by simpa [hp] using ha), h]

theorem sraInsn_privileged {b : Bool} (h : s.sysAccess x.c (wf x.w 31 21) = some (false, b)) :
    sraInsn f x s = x.raise s Exc.privileged := by
  unfold sraInsn
  rw [if_neg (by simpa [hp] using ha), h]

variable {prior : DWord} (hr : s.sysRead x.c (wf x.w 31 21) = (prior, t))
include hr

theorem sraInsn_prior {b : Bool} (h : s.sysAccess x.c (wf x.w 31 21) = some (true, b)) (hro : f = 0 ∨ b = false) :
    sraInsn f x s = .next (x.k.setX (fD x.w) prior) t := by
  unfold sraInsn
  rw [if_neg (by simpa [hp] using ha), h]
  dsimp only
  rw [hr]
  exact if_pos (by simpa using hro)

section
variable (h : s.sysAccess x.c (wf x.w 31 21) = some (true, true)) (hf : f ≠ 0)
include h hf

theorem sraInsn_takes {k : Core} (hw : s.sysWrite x.c (wf x.w 31 21) (sraValue f prior x.xa) = some k) :
    sraInsn f x s = .next (k.setX (fD x.w) prior) t := by
  unfold sraInsn
  rw [if_neg (by simpa [hp] using ha), h]
  dsimp only
  rw [hr]
  dsimp only
  rw [if_neg (by simp [hf]), hw]

theorem sraInsn_refuses (hw : s.sysWrite x.c (wf x.w 31 21) (sraValue f prior x.xa) = none) :
    sraInsn f x s = x.raise s Exc.illegal := by
  unfold sraInsn
  rw [if_neg (by simpa [hp] using ha), h]
  dsimp only
  rw [hr]
  dsimp only
  rw [if_neg (by simp [hf]), hw]

end
end

/-! What the table of R83 allows. -/

/-- A core whose trap register `n`, 0x100 to 0x105, has taken `v`. -/
def Core.setTrapReg (k : Core) (n : Nat) (v : DWord) : Core :=
  if n = 0x100 then { k with hstatus := (v &&& 0xE) ||| (k.hstatus &&& 1) }
  else if n = 0x101 then { k with htvec := v &&& 0xFFFFFFFFFFFC }
  else if n = 0x102 then { k with hepc := v &&& 0xFFFFFFFFFFFC }
  else if n = 0x103 then { k with hecause := v &&& 0xFFFFFFFF00FF }
  else if n = 0x104 then { k with headdr := v } else { k with hscratch := v }

section
variable (s : State) (c : Nat) {n : Nat}

theorem State.sysAccess_sflags (h : n = 0) : s.sysAccess c n = some (true, true) := if_pos h

theorem State.sysAccess_readOnly (h1 : 1 ≤ n) (h3 : n ≤ 3) : s.sysAccess c n = some (true, false) := by
  unfold State.sysAccess
  dsimp only
  rw [if_neg (by omega), if_pos (by omega)]

theorem State.sysAccess_vector (hlo : 0x10 ≤ n) (hhi : n ≤ 0x12) : s.sysAccess c n = some (decide (c < 128), true) := by
  unfold State.sysAccess
  dsimp only
  rw [if_neg (by omega), if_neg (by omega), if_pos (by simp [hlo, hhi])]

theorem State.sysAccess_trap (hlo : 0x100 ≤ n) (hhi : n ≤ 0x105) : s.sysAccess c n = some (s.supervisor c, true) := by
  unfold State.sysAccess
  dsimp only
  rw [if_neg (by omega), if_neg (by omega), if_neg (by simp; omega), if_neg (by simp; omega), if_pos (by simp [hlo, hhi])]

theorem State.sysAccess_window (hlo : 0x120 ≤ n) (hhi : n < 0x160) :
    s.sysAccess c n = some (c < 128 || s.supervisor c, decide (c ≥ 128)) := by
  unfold State.sysAccess
  dsimp only
  rw [if_neg (by omega), if_neg (by omega), if_neg (by simp; omega), if_neg (by simp; omega), if_neg (by simp; omega),
    if_pos (by simp [hlo, hhi])]

variable (v : DWord)

theorem State.sysWrite_sflags (h : n = 0) : s.sysWrite c n v = some { s.core c with sflags := v.setWidth 3 } := if_pos h

/-- The trap registers keep the bits that R83 lists. -/
theorem State.sysWrite_trap (hlo : 0x100 ≤ n) (hhi : n ≤ 0x105) : s.sysWrite c n v = some ((s.core c).setTrapReg n v) := by
  have : n = 0x100 ∨ n = 0x101 ∨ n = 0x102 ∨ n = 0x103 ∨ n = 0x104 ∨ n = 0x105 := by omega
  rcases this with rfl | rfl | rfl | rfl | rfl | rfl <;> rfl

/-- VCFG and its two parts take a configuration that is legal (R103, R104). -/
theorem State.sysWrite_vector (hlo : 0x10 ≤ n) (hhi : n ≤ 0x12) :
    let k := s.core c
    let word := if n = 0x10 then v.toNat else if n = 0x11 then setBits k.vcfg.word 44 32 v.toNat
      else setBits k.vcfg.word 55 48 v.toNat
    vcfgOk word = true → s.sysWrite c n v = some { k with vcfg := VCfg.ofWord word } := by
  intro k word h
  have : n = 0x10 ∨ n = 0x11 ∨ n = 0x12 := by omega
  rcases this with rfl | rfl | rfl <;> exact if_pos h

/-- A window word of a Headstock core that leaves its window consistent (R85). -/
theorem State.sysWrite_window (hc : 128 ≤ c) (hlo : 0x120 ≤ n)
    (h : windowOk (fun j => s.winWord c ((n - 0x120) / 4) j) ((n - 0x120) % 4) v = true) :
    s.sysWrite c n v = some { s.core c with win := FMap.setD (s.core c).win (n - 0x120) (windowBits ((n - 0x120) % 4) v) } := by
  unfold State.sysWrite
  dsimp only
  rw [if_neg (by omega), if_neg (by omega), if_neg (by omega), if_neg (by omega), if_neg (by omega), if_neg (by omega),
    if_neg (by omega), if_neg (by omega), if_neg (by omega), if_neg (by omega), if_neg (by omega), if_neg (by omega), if_pos h,
    Nat.div_add_mod]

end

/-- Settles O17: each instruction ends in one of the five ways above, by the class of its register. -/
theorem systemRegisterInstructionsReadAndWrite : Obligations.SystemRegisterInstructionsReadAndWrite := by
  intro s c w hruns hm k n row
  have hrow : ∀ f ≤ 3, row f = done (okCore c) s (s.runRow bus c none w (isSra f) (sraInsn f)) := by
    intro f hf
    interval_cases f <;> rfl
  have hsra {f : Nat} (hf : fn4 w = f) : isSra f w = true := by simp [isSra, hm, hf]
  have prior {f : Nat} {b : Bool} {p : DWord} {t : State} (h3 : f ≤ 3) (hf : fn4 w = f) (ha : f = 0 → fA w = 0)
      (hacc : s.sysAccess c n = some (true, b)) (hr : s.sysRead c n = (p, t)) (hro : f = 0 ∨ b = false) :
      row f = .next (s.seal (t.retire c { k.setX (fD w) p with pc := k.pc + 4 })) := by
    have h := sraInsn_prior (x := s.ctx c none w) rfl ha hr hacc hro
    exact (hrow f h3).trans (State.scalarRow_next hruns (by decide) (by omega) (hsra hf) h :)
  have takes {f : Nat} {p : DWord} {t : State} {k' : Core} (h3 : f ≤ 3) (hf : fn4 w = f) (h0 : f ≠ 0)
      (hacc : s.sysAccess c n = some (true, true)) (hr : s.sysRead c n = (p, t))
      (hw : s.sysWrite c n (sraValue f p (k.xreg (fA w))) = some k') :
      row f = .next (s.seal (t.retire c { k'.setX (fD w) p with pc := k.pc + 4 })) := by
    have h := sraInsn_takes (x := s.ctx c none w) rfl (fun h => absurd h h0) hr hacc h0 hw
    exact (hrow f h3).trans (State.scalarRow_next hruns (by decide) (by omega) (hsra hf) h :)
  have traps {f : Nat} {e : Exc} (h3 : f ≤ 3) (hf : fn4 w = f) (h : sraInsn f (s.ctx c none w) s = (s.ctx c none w).raise s e) :
      row f = .next (s.seal (s.trapped c k e)) :=
    (hrow f h3).trans (State.scalarRow_trap hruns (by decide) (by omega) (hsra hf) h)
  have hvalue {f : Nat} (p a : DWord) (h3 : f ≤ 3) (h0 : f ≠ 0) :
      sraValue f p a = if f = 1 then a else if f = 2 then p ||| a else p &&& ~~~a := by
    interval_cases f <;> simp_all [sraValue]
  refine ⟨fun f writable p t h3 hf ha hacc hr => ⟨fun hro => prior h3 hf ha hacc hr hro, ?_⟩,
    fun f b h3 hf ha hacc => traps h3 hf (sraInsn_privileged (x := s.ctx c none w) rfl ha hacc),
    fun f h3 hf ha hacc => traps h3 hf (sraInsn_unlisted (x := s.ctx c none w) rfl ha hacc),
    rfl, rfl, rfl, rfl, rfl, fun r hlo hhi => s.sysAccess_trap c hlo hhi, ?_⟩
  · intro h0 hw v
    subst hw
    have hv : sraValue f p (k.xreg (fA w)) = v := hvalue p _ h3 h0
    refine ⟨fun k' hk' => takes h3 hf h0 hacc hr (hv ▸ hk'), fun hnone => traps h3 hf ?_⟩
    exact sraInsn_refuses (x := s.ctx c none w) rfl ha hr hacc h0 (hv ▸ hnone)
  · intro r after writes headMode
    have hsup (h : headMode) : s.supervisor c = true := by
      obtain ⟨hc, hb⟩ := h
      simp [State.supervisor, hc, hb, k] at hb ⊢
    have ignores (hacc : s.sysAccess c n = some (true, false)) : writes (fun _ => true) (fun _ => k) :=
      ⟨fun hf _ => prior (f := 1) (by decide) hf (by simp) hacc rfl (.inr rfl),
        fun hf _ => prior (f := 2) (by decide) hf (by simp) hacc rfl (.inr rfl),
        fun hf _ => prior (f := 3) (by decide) hf (by simp) hacc rfl (.inr rfl)⟩
    have writesOf {p : DWord → Bool} {g : DWord → Core} (hacc : s.sysAccess c n = some (true, true))
        (hw : ∀ v, p v = true → s.sysWrite c n v = some (g v)) : writes p g :=
      ⟨fun hf hp => takes (f := 1) (by decide) hf (by decide) hacc rfl (hw _ hp),
        fun hf hp => takes (f := 2) (by decide) hf (by decide) hacc rfl (hw _ hp),
        fun hf hp => takes (f := 3) (by decide) hf (by decide) hacc rfl (hw _ hp)⟩
    refine ⟨fun hf ha hn => ?_, fun h1 h3 => ignores (s.sysAccess_readOnly c h1 h3), fun hc hlo hhi => ignores ?_,
      fun h0 => ?_, fun hc hlo hhi => ?_, fun hh hlo hhi => ?_,
      fun hh hlo hhi => ?_⟩
    · have hacc : ∃ b, s.sysAccess c n = some (true, b) := by
        rcases hn with h | ⟨hc, ⟨hlo, hhi⟩ | ⟨hlo, hhi⟩⟩ | ⟨hh, ⟨hlo, hhi⟩ | ⟨hlo, hhi⟩⟩
        · rcases Nat.eq_zero_or_pos n with h0 | h0
          · exact ⟨_, s.sysAccess_sflags c h0⟩
          · exact ⟨_, s.sysAccess_readOnly c h0 h⟩
        · exact ⟨true, by rw [s.sysAccess_vector c hlo hhi, decide_eq_true hc]⟩
        · exact ⟨_, by rw [s.sysAccess_window c hlo hhi, decide_eq_true hc]; rfl⟩
        · exact ⟨true, by rw [s.sysAccess_trap c hlo hhi, hsup hh]⟩
        · exact ⟨_, by rw [s.sysAccess_window c hlo hhi, hsup hh, Bool.or_true]⟩
      obtain ⟨b, hacc⟩ := hacc
      exact prior (f := 0) (by decide) hf (fun _ => ha) hacc rfl (.inl rfl)
    · rw [s.sysAccess_window c hlo hhi, decide_eq_true hc, decide_eq_false (by omega : ¬ c ≥ 128)]
      rfl
    · exact writesOf (p := fun _ => true) (g := fun v => { k with sflags := v.setWidth 3 }) (s.sysAccess_sflags c h0)
        (fun v _ => s.sysWrite_sflags c v h0)
    · exact writesOf (by rw [s.sysAccess_vector c hlo hhi, decide_eq_true hc]) (fun v hv => s.sysWrite_vector c v hlo hhi hv)
    · exact writesOf (p := fun _ => true) (g := k.setTrapReg n) (by rw [s.sysAccess_trap c hlo hhi, hsup hh])
        (fun v _ => s.sysWrite_trap c v hlo hhi)
    · exact writesOf (p := fun v => windowOk (fun j => s.winWord c ((n - 0x120) / 4) j) ((n - 0x120) % 4) v)
        (g := fun v => { k with win := FMap.setD k.win (n - 0x120) (windowBits ((n - 0x120) % 4) v) })
        (by rw [s.sysAccess_window c hlo hhi, hsup hh, Bool.or_true, decide_eq_true hh.1])
        (fun v hv => s.sysWrite_window c v hh.1 hlo hv)

end Sys2Proof.Machine
end

section
/-! Run control of a tile (R85, R95, R96, R486), and the exception that stops one (R95). -/

namespace Sys2Proof.Machine

/-- A command at a tile of this module. -/
theorem State.onTile_of {s : State} {p n : Nat} (h : s.localTile p = some n) (f : Nat → State) : s.onTile p f = f n := by
  unfold State.onTile
  rw [h]

theorem State.tileCtl_step {t : State} {m n : Nat} (hr : t.tileRetired n = false) (hh : t.halted n = true) :
    t.tileCtl bus m n 2 =
      ((t.setFld (Reg.TIL_STATUS n) 3 0 0).setCore n { t.core n with stepping := true }).runFetched bus n := by
  have hctl : t.tileCtl bus m n 2 = t.tileStep bus m n := by
    unfold State.tileCtl
    rw [if_neg (by decide), if_pos (by rw [hh]; rfl)]
  rw [hctl]
  unfold State.tileStep
  rw [if_neg (by simp [hr]), if_neg (by simp [hh])]
  rfl

section
variable {s : State} {n : Nat} (hh : s.tileHalting n = true) (hv : (s.core n).vsent = 0) (hu : s.unperformed n = false)
include hh hv hu

theorem State.tileHalted_stops (hi : (s.core n).imprecise = none) : s.tileHalted n = s.tileStop n 1 (s.core n).pc := by
  unfold State.tileHalted
  rw [if_pos (by simp [hh, hv, hu]), hi]

theorem State.tileHalted_raises {i : Imprecise} (hi : (s.core n).imprecise = some i) :
    s.tileHalted n = s.raiseImprecise n i := by
  unfold State.tileHalted
  rw [if_pos (by simp [hh, hv, hu]), hi]

end

/-! What the signal of an event leaves, and the words of a tile that has stopped with an exception. -/

theorem State.signal_core (s : State) (e c : Nat) : (s.signal e).core c = s.core c := by
  unfold State.signal
  split
  · rfl
  · split <;> rfl

theorem State.signal_mem (s : State) (e : Nat) : (s.signal e).mem = s.mem := by
  unfold State.signal
  split
  · rfl
  · split <;> rfl

section
variable {s : State} {n stop : Nat} {pc : BitVec 48} (hn : n < 64)
include hn

/-- The registers that a tile's stop writes: STOP, RUN and EXC_PC. -/
theorem State.tileStop_rd {k : Nat} (hk : Calm k) :
    (s.tileStop n stop pc).rd k =
      (((s.setFld (Reg.TIL_STATUS n) 3 0 stop).setFld (Reg.TIL_CTL n) 0 0 0).wr64 (Reg.TIL_EXC_PC_LO n) pc.toNat).rd k := by
  unfold State.tileStop
  rw [State.signal_rd _ _ _ (by omega) hk]
  rfl

theorem State.tileStop_status {hi lo : Nat} :
    (s.tileStop n stop pc).fld (Reg.TIL_STATUS n) hi lo = (s.setFld (Reg.TIL_STATUS n) 3 0 stop).fld (Reg.TIL_STATUS n) hi lo := by
  unfold State.fld
  rw [State.tileStop_rd hn (by unfold Calm Reg.TIL_STATUS; omega),
    State.rd_wr64_other _ _ (by unfold Reg.TIL_STATUS Reg.TIL_EXC_PC_LO; omega) (by unfold Reg.TIL_STATUS Reg.TIL_EXC_PC_LO; omega),
    State.rd_setFld_other _ _ _ _ (by unfold Reg.TIL_STATUS Reg.TIL_CTL; omega)]

theorem State.tileStop_run : (s.tileStop n stop pc).bit (Reg.TIL_CTL n) 0 = false := by
  unfold State.bit
  rw [State.tileStop_rd hn (by unfold Calm Reg.TIL_CTL; omega),
    State.rd_wr64_other _ _ (by unfold Reg.TIL_CTL Reg.TIL_EXC_PC_LO; omega) (by unfold Reg.TIL_CTL Reg.TIL_EXC_PC_LO; omega)]
  exact State.bit_setFld_clear _ _ (by decide)

theorem State.tileStop_excPc : (s.tileStop n stop pc).rd64 (Reg.TIL_EXC_PC_LO n) = pc.toNat := by
  have hrd {k : Nat} (hk : Calm k) := State.tileStop_rd (s := s) (stop := stop) (pc := pc) hn hk
  unfold State.rd64
  rw [hrd (by unfold Calm Reg.TIL_EXC_PC_LO; omega), hrd (by unfold Calm Reg.TIL_EXC_PC_LO; omega)]
  exact State.rd64_wr64_self _ _ _ (by omega)

/-- EXC_ADDR and EXC_DETAIL stay as they are when a tile stops. -/
theorem State.tileStop_rd_other {k : Nat} (hlo : Reg.TIL_EXC_ADDR_LO n ≤ k) (hhi : k ≤ Reg.TIL_EXC_DETAIL n) :
    (s.tileStop n stop pc).rd k = s.rd k := by
  unfold Reg.TIL_EXC_ADDR_LO at hlo
  unfold Reg.TIL_EXC_DETAIL at hhi
  rw [State.tileStop_rd hn (by unfold Calm; omega),
    State.rd_wr64_other _ _ (by unfold Reg.TIL_EXC_PC_LO; omega) (by unfold Reg.TIL_EXC_PC_LO; omega),
    State.rd_setFld_other _ _ _ _ (by unfold Reg.TIL_CTL; omega), State.rd_setFld_other _ _ _ _ (by unfold Reg.TIL_STATUS; omega)]

end

theorem State.tileStop_core (s : State) (n stop : Nat) (pc : BitVec 48) :
    (s.tileStop n stop pc).core n = { s.core n with stepping := false, chWait := none } :=
  (State.signal_core _ _ _).trans (State.core_setCore_self _ n _)

theorem State.tileStop_mem (s : State) (n stop : Nat) (pc : BitVec 48) : (s.tileStop n stop pc).mem = s.mem :=
  State.signal_mem _ _

theorem State.tileExcept_core (s : State) (n : Nat) (e : Exc) (pc : BitVec 48) :
    (s.tileExcept n e pc).core n = { s.core n with pc := pc, stepping := false, chWait := none } :=
  (State.tileStop_core _ _ _ _).trans (by rw [State.core_setCore_self]; rfl)

/-- A tile that an exception stops: STOP, CAUSE, RUN, and the registers of the exception (R95). -/
theorem State.tileExcept_words (s : State) (e : Exc) {n : Nat} (pc : BitVec 48) (hn : n < 64) (hs : e.status < 2 ^ 16)
    (hi : e.info < 2 ^ 16) :
    let u := s.tileExcept n e pc
    u.fld (Reg.TIL_STATUS n) 3 0 = 3 ∧ u.fld (Reg.TIL_STATUS n) 15 8 = e.cause % 256 ∧ u.bit (Reg.TIL_CTL n) 0 = false ∧
      u.rd64 (Reg.TIL_EXC_PC_LO n) = pc.toNat ∧ u.rd64 (Reg.TIL_EXC_ADDR_LO n) = e.addr.toNat ∧
      (u.rd (Reg.TIL_EXC_DETAIL n)).toNat = 2 ^ 16 * e.status + e.info := by
  intro u
  let a := (s.setFld (Reg.TIL_STATUS n) 15 8 e.cause).setFld (Reg.TIL_STATUS n) 4 4 (e.info / 2 ^ 15)
  let b := a.wr64 (Reg.TIL_EXC_ADDR_LO n) e.addr.toNat
  let d := b.wr (Reg.TIL_EXC_DETAIL n) (BitVec.ofNat 32 (2 ^ 16 * e.status + e.info))
  have hu : u = (d.setCore n { d.core n with pc := pc }).tileStop n 3 pc := rfl
  have hstatus : d.rd (Reg.TIL_STATUS n) = a.rd (Reg.TIL_STATUS n) :=
    (State.rd_wr_other _ _ (by unfold Reg.TIL_STATUS Reg.TIL_EXC_DETAIL; omega)).trans
      (State.rd_wr64_other _ _ (by unfold Reg.TIL_STATUS Reg.TIL_EXC_ADDR_LO; omega)
        (by unfold Reg.TIL_STATUS Reg.TIL_EXC_ADDR_LO; omega))
  have haddr : d.rd64 (Reg.TIL_EXC_ADDR_LO n) = b.rd64 (Reg.TIL_EXC_ADDR_LO n) := by
    unfold State.rd64
    rw [State.rd_wr_other _ _ (by unfold Reg.TIL_EXC_ADDR_LO Reg.TIL_EXC_DETAIL; omega),
      State.rd_wr_other _ _ (by unfold Reg.TIL_EXC_ADDR_LO Reg.TIL_EXC_DETAIL; omega)]
  rw [hu]
  refine ⟨?_, ?_, State.tileStop_run hn, State.tileStop_excPc hn, ?_, ?_⟩
  · rw [State.tileStop_status hn]
    exact State.fld_setFld_self _ _ _ _ _ (by decide)
  · rw [State.tileStop_status hn, State.fld_setFld_other _ _ _ _ _ _ _ (by decide) (by decide)]
    show bits (d.rd _).toNat 15 8 = _
    rw [hstatus]
    exact (State.fld_setFld_other _ _ _ _ _ _ _ (by decide) (by decide)).trans (State.fld_setFld_self _ _ _ _ _ (by decide))
  · unfold State.rd64
    rw [State.tileStop_rd_other hn (le_refl _) (by unfold Reg.TIL_EXC_ADDR_LO Reg.TIL_EXC_DETAIL; omega),
      State.tileStop_rd_other hn (by unfold Reg.TIL_EXC_ADDR_LO; omega) (by unfold Reg.TIL_EXC_ADDR_LO Reg.TIL_EXC_DETAIL; omega)]
    exact haddr.trans (State.rd64_wr64_self _ _ _ e.addr.isLt)
  · rw [State.tileStop_rd_other hn (by unfold Reg.TIL_EXC_ADDR_LO Reg.TIL_EXC_DETAIL; omega) (le_refl _)]
    show (d.rd _).toNat = _
    rw [State.rd_wr_self, BitVec.toNat_ofNat]
    omega

/-- Settles O19: each register command by the unit's own case, and an exception by the words of the tile it stops. -/
theorem tileRunControlFollowsItsRegister : Obligations.TileRunControlFollowsItsRegister := by
  intro s t m p n hm hp hn
  have hok : (okMaster m && okTile p) = true := by simp [okMaster, okTile, hm, hp]
  have atTile (f : Nat → State) : done (okMaster m && okTile p) s (s.onTile p f) = .next (s.seal (f n)) := by
    rw [done_of hok, State.onTile_of hn]
  refine ⟨fun hreach => ⟨fun hr => ?run, fun hr => ?retired, ?halt, fun hr hh => ?step⟩, fun hh hv hu => ?halted,
    fun w i v off hw hi hoff hgate => ?window, fun e hs hi hlt => ?except⟩
  case run =>
    refine (atTile _).trans ?_
    rw [State.regDo_of hreach]
    unfold State.tileRun
    rw [if_neg (by simp [hr])]
    rfl
  case retired =>
    refine (atTile _).trans ?_
    rw [State.regDo_of hreach]
    unfold State.tileRun
    rw [if_pos hr]
  case halt =>
    refine (atTile _).trans ?_
    rw [State.regDo_of hreach]
    rfl
  case step =>
    refine (atTile _).trans ?_
    rw [State.regDo_of hreach, State.tileCtl_step hr hh]
  case halted =>
    have halts {u : State} (h : s.tileHalted n = u) : exec (.tileHalted p) s = .next (s.seal u) := by
      refine (done_of (by simp [okTile, hp]) _ _).trans ?_
      rw [State.onTile_of hn, h]
    exact ⟨fun hi => halts (State.tileHalted_stops hh hv hu hi), fun i hi => halts (State.tileHalted_raises hh hv hu hi)⟩
  case window =>
    have hat : Reg.TIL_WIN_PBASE_LO n w + 4 * i = off := by rw [hoff]; rfl
    refine (done_of (by simp [hok, hw, hi]) _ _).trans ?_
    rw [State.onTile_of hn, hat, State.regPut_of hgate rfl]
  case except =>
    have hu : s.except n e = s.tileExcept n e (s.core n).pc := if_pos (by omega)
    obtain ⟨hstop, hcause, hrun, hpc, haddr, hdetail⟩ := s.tileExcept_words e (s.core n).pc hlt hs hi
    rw [hu]
    refine ⟨hstop, hcause, hrun, hpc, haddr, hdetail, ?_, ?_, State.tileStop_mem _ _ _ _⟩ <;> rw [State.tileExcept_core]

end Sys2Proof.Machine
end

section
/-! Reports to Guard (R41, R43, R44, R480). -/

namespace Sys2Proof.Machine

section
variable {s : State} {r : Report}

/-- The report merges with the newest record, which is unread (R44). -/
def State.mergesNewest (s : State) (r : Report) : Bool :=
  s.fld Reg.GRD_ELOG_WR 8 0 ≠ s.fld Reg.GRD_ELOG_RD 8 0 &&
    reportMatches r (s.rd s.newestRecord) (s.rd (s.newestRecord + 4))

/-- A count that has all its ones stays there. -/
theorem State.count_one (s : State) (off hi lo : Nat) {top : Nat} (h : 2 ^ (hi + 1 - lo) - 1 = top) :
    s.count off hi lo 1 = s.setFld off hi lo (min (s.fld off hi lo + 1) top) := by
  subst h
  unfold State.count satAdd
  congr 1
  split <;> omega

theorem State.report_merges (h : s.mergesNewest r = true) :
    s.report r = (((s.count (s.newestRecord + 0x18) 31 16 1).wr64 (s.newestRecord + 0x10) s.time.toNat).setFld
      Reg.GRD_INT_STATUS 0 0 1).guardEdge :=
  congrArg State.guardEdge (if_pos h)

theorem State.report_stores (h : s.mergesNewest r = false) : s.report r = (s.storeReport r).guardEdge :=
  congrArg State.guardEdge (if_neg (Bool.not_eq_true _ ▸ h))

theorem State.storeReport_full (h : 256 ≤ (s.fld Reg.GRD_ELOG_WR 8 0 + 512 - s.fld Reg.GRD_ELOG_RD 8 0) % 512) :
    s.storeReport r = (s.count Reg.GRD_ELOG_LOST 31 0 1).setFld Reg.GRD_INT_STATUS 2 2 1 := if_pos h

theorem State.storeReport_room {w : Nat} (hw : s.fld Reg.GRD_ELOG_WR 8 0 = w)
    (h : (w + 512 - s.fld Reg.GRD_ELOG_RD 8 0) % 512 < 256) :
    let u := ((s.wrWords (Reg.GRD_ELOG_W0 (w % 256)) (reportWords r s.time.toNat)).setFld Reg.GRD_ELOG_WR 8 0
      ((w + 1) % 512)).setFld Reg.GRD_INT_STATUS 0 0 1
    s.storeReport r = if r.severity = 3 ∨ r.severity = 4 then u.setFld Reg.GRD_INT_STATUS 1 1 1 else u := by
  intro u
  subst hw
  unfold State.storeReport
  dsimp only
  rw [if_neg (by omega)]
  simp only [Bool.or_eq_true, decide_eq_true_eq]
  rfl

/-! A report that names a tile of this module. -/

theorem tile_injective {s : State} {a b : Nat} (ha : a < 64) (hb : b < 64)
    (h : Tgt.tile (s.pairTile a) = Tgt.tile (s.pairTile b)) : a = b := by
  unfold State.pairTile at h
  split at h
  · unfold Tgt.tile at h
    rw [if_neg (by omega), if_neg (by omega)] at h
    omega
  · omega

/-- The tile of this module whose target a report names. -/
theorem State.find_tile {n : Nat} (hn : n < 64) (h : Tgt.tile (s.pairTile n) = r.target) :
    (List.range 64).find? (fun n => Tgt.tile ((s.report r).pairTile n) = r.target) = some n := by
  simp only [State.report_pairTile]
  cases hfind : (List.range 64).find? (fun n => Tgt.tile (s.pairTile n) = r.target) with
  | none => exact absurd h (by simpa using List.find?_eq_none.mp hfind n (List.mem_range.mpr hn))
  | some m =>
    have hm := List.mem_range.mp (List.mem_of_find?_eq_some hfind)
    have ht : Tgt.tile (s.pairTile m) = r.target := by simpa using List.find?_some hfind
    rw [tile_injective hm hn (ht.trans h.symm)]

theorem State.guardReport_bench {n : Nat} (hn : n < 64) (ht : Tgt.tile (s.pairTile n) = r.target)
    (hst : r.status = St.poisonedData) (hsev : r.severity = 2) :
    let u := s.report r
    let now := u.time.toNat
    let hits := (FMap.getD u.boot.benchErrors n).filter (fun t => now < t + dayNs) ++ [now]
    let v := State.setMark { u with boot := { u.boot with benchErrors := FMap.setD u.boot.benchErrors n hits } }
      (benchAt n (r.address % 0x200000) / 64) true
    s.guardReport r = if 3 ≤ hits.length then
      (v.setFld (if n < 32 then Reg.GLB_TILE_FAILING_LO else Reg.GLB_TILE_FAILING_HI) (n % 32) (n % 32) 1).guardEdge
      else v := by
  intro u now hits v
  unfold State.guardReport
  dsimp only
  rw [State.find_tile hn ht]
  dsimp only
  rw [if_pos (by simp [hst, hsev])]

theorem State.guardReport_other
    (h : ¬ (r.status = St.poisonedData ∧ r.severity = 2 ∧ ∃ n, n < 64 ∧ Tgt.tile (s.pairTile n) = r.target)) :
    s.guardReport r = s.report r := by
  unfold State.guardReport
  dsimp only
  split
  · next n hfind =>
    have hn := List.mem_of_find?_eq_some hfind
    have ht := List.find?_some hfind
    rw [State.report_pairTile, decide_eq_true_eq] at ht
    exact if_neg fun hc => by
      simp only [Bool.and_eq_true, decide_eq_true_eq] at hc
      exact h ⟨hc.1, hc.2, n, List.mem_range.mp hn, ht⟩
  · rfl

end

/-- Settles O10: a bench's error by its tile, and any other report by the state of the log. -/
theorem guardMergesStoresOrCountsReports : Obligations.GuardMergesStoresOrCountsReports := by
  refine ⟨fun s r n hok hst hsev hn ht => ?bench, fun s r hok hother => ?log⟩
  case bench =>
    intro u now hits v
    exact (done_of hok _ _).trans (by rw [State.guardReport_bench hn ht hst hsev])
  case log =>
    intro w rd at' newest merges
    have enters {t : State} (h : s.report r = t) : exec (.guardReport r) s = .next (s.seal t) :=
      (done_of hok _ _).trans (by rw [State.guardReport_other hother, h])
    have hnewest : s.newestRecord = newest := by
      show Reg.GRD_ELOG_W0 ((w + 511) % 256) = Reg.GRD_ELOG_W0 ((w + 255) % 256)
      congr 1
      omega
    have hmerges : s.mergesNewest r = true ↔ merges := by
      unfold State.mergesNewest reportMatches
      rw [hnewest]
      simp [merges, w, rd]
    have hstores (h : ¬ merges) : s.report r = (s.storeReport r).guardEdge :=
      State.report_stores (Bool.eq_false_iff.mpr (fun hm => h (hmerges.mp hm)))
    refine ⟨fun h => enters ?_, fun h hfull => enters ?_, fun h hroom => enters ?_⟩
    · rw [State.report_merges (hmerges.mpr h), hnewest, State.count_one s _ 31 16 (top := 0xFFFF) rfl]
    · rw [hstores h, State.storeReport_full hfull, State.count_one s _ 31 0 (top := 0xFFFFFFFF) rfl]
    · rw [hstores h, State.storeReport_room rfl hroom]

end Sys2Proof.Machine
end

section
/-! What every command leaves of the queue, and what one out of its ranges does (log entry 1). -/

namespace Sys2Proof.Machine

theorem State.signal_pending (s : State) (e : Nat) : (s.signal e).pending = s.pending := by
  unfold State.signal
  split
  · rfl
  · split <;> rfl

theorem State.msix_pending (s : State) (fn v : Nat) : (s.msix fn v).pending = s.pending := by
  unfold State.msix
  split <;> rfl

theorem State.guardSend_pending (s : State) : s.guardSend.pending = s.pending := by
  unfold State.guardSend
  dsimp only
  split <;> split <;> simp only [State.signal_pending, State.msix_pending]

theorem State.guardEdge_pending (s : State) : s.guardEdge.pending = s.pending := by
  unfold State.guardEdge
  dsimp only
  split
  · exact State.guardSend_pending _
  · rfl

/-- A sealed effect keeps the queue. -/
theorem State.seal_pending (s t : State) : (s.seal t).pending = s.pending := State.guardEdge_pending _

/-- Settles O3: a command changes nothing or seals its effect, and either keeps the queue. -/
theorem everyCommandCompletesAndKeepsTheQueue : Obligations.EveryCommandCompletesAndKeepsTheQueue := by
  intro i s
  obtain ⟨ok, t, ht⟩ := exec_sealed_or_same i s
  cases ok with
  | false => exact ⟨s, ht, rfl⟩
  | true => exact ⟨s.seal t, ht, s.seal_pending t⟩

/-- A command has its effect exactly when its operands are in their ranges. -/
theorem exec_done_wf (i : Instr) (s : State) : ∃ t, exec i s = done i.wf s t := by
  cases i <;> exact ⟨_, rfl⟩

/-- Settles O4: a command out of its ranges is answered with the state it found. -/
theorem illFormedCommandChangesNothing : Obligations.IllFormedCommandChangesNothing := by
  intro i s hwf
  obtain ⟨t, ht⟩ := exec_done_wf i s
  rw [ht, hwf, done_false]

end Sys2Proof.Machine
end

section
/-! Host accesses through BAR0, BAR2 and BAR4 (R30 to R32, R35). -/

namespace Sys2Proof.Machine

theorem okAccess_mono {a b len : Nat} {wr : Option (List Byte)} (h : okAccess b len wr = true) (hlen : len ≤ a) :
    okAccess a len wr = true := by
  unfold okAccess at h ⊢
  simp only [Bool.and_eq_true, decide_eq_true_eq] at h ⊢
  exact ⟨⟨h.1.1, hlen⟩, h.2⟩

theorem hostRequest_read (fn dpa len : Nat) (wr : Option (List Byte)) :
    decide ((hostRequest fn dpa len wr).kind = .read) = wr.isNone := by
  cases wr <;> rfl

theorem State.verdict_ne_held (s : State) (t m addr len : Nat) (n : Rights) : s.verdict t m addr len n ≠ St.held := by
  unfold State.verdict
  split
  · decide
  · split <;> decide

theorem State.judge_admitted {s : State} {t m a n : Nat} {r : Rights} (hb : s.newlyBroken t = [])
    (hv : s.verdict t m a n r = St.ok) : s.judge t m a n r = (St.ok, s) := by
  unfold State.judge
  dsimp only
  rw [hb, if_pos hv, hv]
  rfl

/-- A host access that fails with `st`: a read is aborted and reported through AER (R35). -/
theorem State.hostAnswer_stop (s : State) (fn : Nat) (read : Bool) {st : Nat} (hok : st ≠ St.ok) (hheld : st ≠ St.held) :
    s.hostAnswer fn read (MemAnswer.stop st) =
      { if read then s.aer fn .completerAbort else s with answer := ⟨st, [], read, false⟩ } := by
  unfold State.hostAnswer
  simp only [MemAnswer.stop, hok, hheld, ne_eq, not_false_eq_true, decide_true, Bool.and_true, Bool.and_false]

section
variable {s : State} {t : Nat} {r : Request} (hb : s.newlyBroken t = [])
include hb

theorem State.hostFirst_admitted (hv : s.verdict t r.master r.dpa r.len ((s.region r.dpa r.len).rights r) = St.ok) :
    s.hostFirst t r = s.hostGo r := by
  unfold State.hostFirst
  rw [State.judge_admitted hb hv]
  rfl

theorem State.hostFirst_denied {v : Nat} (hv : s.verdict t r.master r.dpa r.len ((s.region r.dpa r.len).rights r) = v)
    (hne : v ≠ St.ok) :
    s.hostFirst t r =
      (s.reportDenied ⟨v, t, 2, r.master, r.dpa, 0xFFFF, 0⟩).hostAnswer r.master (r.kind = .read) (MemAnswer.stop v) := by
  subst hv
  unfold State.hostFirst
  rw [State.judge_denied hb hne]
  exact if_pos hne

end

/-! BAR4: the map entry stops an access, or names its target (R30 to R32). -/

section
variable {s : State} {fn off len : Nat} {wr : Option (List Byte)} (hup : s.hostUp fn = true)
include hup

theorem State.bar4_broken (h : cp32Ok (s.rd64 (Reg.GLB_B4MAP_LO (bar4Entry fn off))) = false) :
    s.bar4 fn off len wr = s.bar4Stop fn (bar4Entry fn off) St.complementMismatch wr.isNone := by
  unfold State.bar4
  dsimp only
  rw [if_neg (by simp [hup]), if_pos (by simp [h])]

section
variable {e : Nat} (he : s.rd64 (Reg.GLB_B4MAP_LO (bar4Entry fn off)) = e) (hcp : cp32Ok e = true)
include he hcp

theorem State.bar4_empty (h : e.testBit 31 = false) :
    s.bar4 fn off len wr = s.bar4Stop fn (bar4Entry fn off) St.accessDenied wr.isNone := by
  unfold State.bar4
  dsimp only
  rw [if_neg (by simp [hup]), he, if_neg (by simp [hcp]), if_pos (by simp [h])]

variable (hset : e.testBit 31 = true) {r : Request} (hr : hostRequest fn (2 ^ 30 * bits e 17 0 + off % 2 ^ 32) len wr = r)
include hset hr

theorem State.bar4_unmapped (h : s.region r.dpa len = .unmapped) : s.bar4 fn off len wr = s.hostGo r := by
  unfold State.bar4
  dsimp only
  rw [if_neg (by simp [hup]), he, if_neg (by simp [hcp]), if_neg (by simp [hset]), hr, h]

theorem State.bar4_mapped {g : Region} (hg : s.region r.dpa len = g) (h : g ≠ .unmapped) :
    s.bar4 fn off len wr =
      if g.shutToBar4 then (s.denyAt 0x08 fn r.dpa).2.hostAnswer fn wr.isNone (MemAnswer.stop St.accessDenied)
      else s.hostFirst 0x08 r := by
  unfold State.bar4
  dsimp only
  rw [if_neg (by simp [hup]), he, if_neg (by simp [hcp]), if_neg (by simp [hset]), hr, hg]
  cases g with
  | unmapped => exact absurd rfl h
  | _ => rfl

end
end

/-- Settles O9: each window's access by its map entry, its first table's verdict, and the request it makes. -/
theorem hostAccessesPassTheirTables : Obligations.HostAccessesPassTheirTables := by
  intro s fn off len wr hfn hup hacc told served failed
  have hfun : okFunction fn = true := by simp [okFunction, hfn]
  have hgo (dpa : Nat) : s.hostGo (hostRequest fn dpa len wr) = served (hostRequest fn dpa len wr) := by
    unfold State.hostGo State.hostAnswer
    rw [hostRequest_read]
    rfl
  have hfail (t : State) {st : Nat} (hok : st ≠ St.ok) (hheld : st ≠ St.held) :
      t.hostAnswer fn wr.isNone (MemAnswer.stop st) = failed t st := t.hostAnswer_stop fn wr.isNone hok hheld
  refine ⟨fun hoff hlen => ?bar2, fun hoff hlen hb => ?bar0, fun hslice hpage => ?bar4⟩
  case bar2 =>
    refine (done_of (by simp [hfun, hoff, okAccess_mono hacc hlen]) _ _).trans ?_
    rw [State.bar2, if_pos hup, hgo]
  case bar0 =>
    have goes : exec (.bar0Access fn off len wr) s =
        .next (s.seal (s.hostFirst 0x06 (hostRequest fn (0x20000000000 + off) len wr))) := by
      refine (done_of (by simp [hfun, okReg, hoff, okAccess_mono hacc hlen]) _ _).trans ?_
      rw [State.bar0, if_pos hup]
    intro r v
    refine ⟨fun hv => ?_, fun hv => ?_⟩ <;> rw [goes]
    · rw [State.hostFirst_admitted (r := r) hb hv, hgo]
    · rw [State.hostFirst_denied (r := r) hb rfl hv, hostRequest_read]
      exact congrArg _ (congrArg _ (hfail _ hv (s.verdict_ne_held _ _ _ _ _)))
  case bar4 =>
    intro n e r
    have goes {u : State} (h : s.bar4 fn off len wr = u) : exec (.bar4Access fn off len wr) s = .next (s.seal u) :=
      (done_of (by simp [hfun, hslice, hacc]; omega) _ _).trans (by rw [h])
    refine ⟨fun hcp => goes ?_, fun hcp hset => goes ?_, fun hcp hset => ⟨fun hg => goes ?_, fun hshut => goes ?_,
      fun hg hshut hb => ?_⟩⟩
    · exact (State.bar4_broken hup hcp).trans (hfail _ (by decide) (by decide))
    · exact (State.bar4_empty hup rfl hcp hset).trans (hfail _ (by decide) (by decide))
    · exact (State.bar4_unmapped hup rfl hcp hset rfl hg).trans (hgo _)
    · have hne : s.region r.dpa len ≠ .unmapped := by
        intro h
        rw [h] at hshut
        cases hshut
      exact (State.bar4_mapped hup rfl hcp hset rfl rfl hne).trans ((if_pos hshut).trans (hfail _ (by decide) (by decide)))
    · have hfirst : s.bar4 fn off len wr = s.hostFirst 0x08 r :=
        (State.bar4_mapped hup rfl hcp hset rfl rfl hg).trans (if_neg (fun h => Bool.false_ne_true (hshut.symm.trans h)))
      intro v
      refine ⟨fun hv => goes ?_, fun hv => goes ?_⟩ <;> rw [hfirst]
      · rw [State.hostFirst_admitted (r := r) hb hv, hgo]
      · rw [State.hostFirst_denied (r := r) hb rfl hv, hostRequest_read]
        exact hfail _ hv (s.verdict_ne_held _ _ _ _ _)

end Sys2Proof.Machine
end

section
/-! The ALU's operations in the arithmetic of words of `w` bits (R77, R78). -/

namespace Sys2Proof.Machine

section
variable {w : Nat} (x y : BitVec w)

theorem sext_toNat : sext w x.toNat = x.toInt := by rw [sext, BitVec.ofNat_toNat, BitVec.setWidth_eq]

/-- A result of `w` bits is the word of those bits, sign-extended. -/
theorem widen_eq {n : Nat} {v : BitVec w} (h : BitVec.ofNat w n = v) : widen w n = v.signExtend 64 := by rw [← h]; rfl

theorem ofNat_emod_toNat (i : Int) : BitVec.ofNat w (i % (2 ^ w : Int)).toNat = BitVec.ofInt w i := by
  apply BitVec.eq_of_toNat_eq
  rw [BitVec.toNat_ofNat, BitVec.toNat_ofInt, Nat.mod_eq_of_lt]
  · norm_cast
  · have := Int.emod_lt_of_pos i (show (0 : Int) < 2 ^ w by positivity)
    have := Int.emod_nonneg i (show (2 ^ w : Int) ≠ 0 by positivity)
    zify
    omega

/-! Sums, differences and products, with their flags. -/

theorem fitsSigned_add : (!fitsSigned w (x.toInt + y.toInt)) = x.saddOverflow y := by
  simp only [fitsSigned, BitVec.saddOverflow, Bool.not_and, ← decide_not, not_le, not_lt, ge_iff_le, Bool.or_comm]

theorem fitsSigned_sub : (!fitsSigned w (x.toInt - y.toInt)) = x.ssubOverflow y := by
  simp only [fitsSigned, BitVec.ssubOverflow, Bool.not_and, ← decide_not, not_le, not_lt, ge_iff_le, Bool.or_comm]

theorem fitsSigned_mul : (!fitsSigned w (x.toInt * y.toInt)) = x.smulOverflow y := by
  simp only [fitsSigned, BitVec.smulOverflow, Bool.not_and, ← decide_not, not_le, not_lt, ge_iff_le, Bool.or_comm]

theorem addFlags_word :
    addFlags w x.toNat y.toNat = ⟨(x + y).signExtend 64, x.saddOverflow y, x.uaddOverflow y, false⟩ := by
  rw [addFlags, sext_toNat, sext_toNat, fitsSigned_add, widen_eq (v := x + y) (by rw [BitVec.ofNat_add]; simp)]
  rfl

theorem subFlags_word :
    subFlags w x.toNat y.toNat = ⟨(x - y).signExtend 64, x.ssubOverflow y, x.usubOverflow y, false⟩ := by
  have hv : BitVec.ofNat w (x.toNat + 2 ^ w - y.toNat) = x - y := by
    apply BitVec.eq_of_toNat_eq
    rw [BitVec.toNat_ofNat, BitVec.toNat_sub]
    congr 1
    have := y.isLt
    omega
  rw [subFlags, sext_toNat, sext_toNat, fitsSigned_sub, widen_eq hv]
  rfl

theorem mulFlags_word :
    mulFlags w x.toNat y.toNat = ⟨(x * y).signExtend 64, x.smulOverflow y, x.umulOverflow y, false⟩ := by
  rw [mulFlags, sext_toNat, sext_toNat, fitsSigned_mul, widen_eq (v := x * y) (by rw [BitVec.ofNat_mul]; simp)]
  rfl

/-! Bitwise operations, shifts and the rotation. -/

theorem ofNat_and : BitVec.ofNat w (x.toNat &&& y.toNat) = x &&& y := by rw [BitVec.ofNat_and]; simp

theorem ofNat_or : BitVec.ofNat w (x.toNat ||| y.toNat) = x ||| y := by rw [BitVec.ofNat_or]; simp

theorem ofNat_xor : BitVec.ofNat w (x.toNat ^^^ y.toNat) = x ^^^ y := by rw [BitVec.ofNat_xor]; simp

theorem ofNat_andn : BitVec.ofNat w (x.toNat &&& (2 ^ w - 1 - y.toNat)) = x &&& ~~~y := by
  rw [← BitVec.toNat_not, ofNat_and]

theorem ofNat_shl (n : Nat) : BitVec.ofNat w (x.toNat <<< n) = x <<< n := by
  apply BitVec.eq_of_toNat_eq
  rw [BitVec.toNat_ofNat, BitVec.toNat_shiftLeft]

theorem ofNat_shr (n : Nat) : BitVec.ofNat w (x.toNat >>> n) = x >>> n := by
  rw [← BitVec.toNat_ushiftRight, BitVec.ofNat_toNat, BitVec.setWidth_eq]

theorem ofNat_sar (n : Nat) : BitVec.ofNat w ((x.toInt >>> n) % (2 ^ w : Int)).toNat = x.sshiftRight n := ofNat_emod_toNat _

theorem ofNat_rotr {n : Nat} (hn : n < w) : BitVec.ofNat w (rotr w x.toNat n) = x.rotateRight n := by
  rw [rotr, BitVec.rotateRight_def, Nat.mod_eq_of_lt hn, BitVec.ofNat_or, ofNat_shr]
  congr 1
  apply BitVec.eq_of_toNat_eq
  rw [BitVec.toNat_ofNat, Nat.mod_mod, BitVec.toNat_shiftLeft]

/-! Compares, and the least and the greatest. -/

theorem ofNat_slt : BitVec.ofNat w (bit01 (decide (x.toInt < y.toInt))) = if x.slt y then 1#w else 0#w := by
  unfold bit01 BitVec.slt
  split <;> rfl

theorem ofNat_ult : BitVec.ofNat w (bit01 (decide (x.toNat < y.toNat))) = if x.ult y then 1#w else 0#w := by
  unfold bit01 BitVec.ult
  split <;> rfl

theorem ofNat_ite_toNat {p : Prop} {b : Bool} [Decidable p] (h : p ↔ b = true) :
    BitVec.ofNat w (if p then x.toNat else y.toNat) = if b then x else y := by
  by_cases hp : p
  · rw [if_pos hp, if_pos (h.mp hp), BitVec.ofNat_toNat, BitVec.setWidth_eq]
  · rw [if_neg hp, if_neg (fun hb => hp (h.mpr hb)), BitVec.ofNat_toNat, BitVec.setWidth_eq]

theorem ofNat_minu : BitVec.ofNat w (min x.toNat y.toNat) = if x.ule y then x else y := by
  rw [Nat.min_def]
  exact ofNat_ite_toNat x y (by simp [BitVec.ule])

theorem ofNat_maxu : BitVec.ofNat w (max x.toNat y.toNat) = if x.ule y then y else x := by
  rw [Nat.max_def]
  exact ofNat_ite_toNat y x (by simp [BitVec.ule])

/-! The high half of a product. -/

theorem ofNat_mulhu :
    BitVec.ofNat w (x.toNat * y.toNat / 2 ^ w) = ((x.setWidth (2 * w) * y.setWidth (2 * w)) >>> w).setWidth w := by
  have hx := x.isLt
  have hy := y.isLt
  have hle : 2 ^ w ≤ 2 ^ (2 * w) := Nat.pow_le_pow_right (by decide) (by omega)
  have hprod : x.toNat * y.toNat < 2 ^ (2 * w) := by
    rw [Nat.two_mul, Nat.pow_add]
    exact Nat.mul_lt_mul'' hx hy
  apply BitVec.eq_of_toNat_eq
  rw [BitVec.toNat_ofNat, BitVec.toNat_setWidth, BitVec.toNat_ushiftRight, BitVec.toNat_mul, BitVec.toNat_setWidth,
    BitVec.toNat_setWidth, Nat.mod_eq_of_lt (hx.trans_le hle), Nat.mod_eq_of_lt (hy.trans_le hle), Nat.mod_eq_of_lt hprod,
    Nat.shiftRight_eq_div_pow]

/-- The high half of a number of two halves. -/
theorem emod_sq_ediv {m : Int} (hm : 0 < m) (i : Int) : i % (m * m) / m = i / m % m := by
  rw [Int.emod_def i, Int.emod_def (i / m), Int.ediv_ediv_of_nonneg hm.le, Int.mul_assoc, Int.sub_mul_ediv_left _ _ hm.ne']

theorem ofNat_mulh :
    BitVec.ofNat w ((x.toInt * y.toInt / 2 ^ w) % (2 ^ w : Int)).toNat =
      ((x.signExtend (2 * w) * y.signExtend (2 * w)) >>> w).setWidth w := by
  have hm : (0 : Int) < 2 ^ w := by positivity
  have hprod : x.signExtend (2 * w) * y.signExtend (2 * w) = BitVec.ofInt (2 * w) (x.toInt * y.toInt) := by
    rw [BitVec.ofInt_mul]
    rfl
  rw [hprod]
  generalize x.toInt * y.toInt = i
  have hq := Int.emod_nonneg i (show ((2 : Int) ^ w * 2 ^ w) ≠ 0 by positivity)
  apply BitVec.eq_of_toNat_eq
  rw [ofNat_emod_toNat, BitVec.toNat_setWidth, BitVec.toNat_ushiftRight, BitVec.toNat_ofInt, BitVec.toNat_ofInt,
    Nat.shiftRight_eq_div_pow]
  push_cast
  rw [two_mul, pow_add, ← emod_sq_ediv hm]
  zify
  rw [Int.toNat_of_nonneg hq, Int.toNat_of_nonneg (Int.ediv_nonneg hq hm.le), emod_sq_ediv hm, Int.emod_emod]

/-! Quotients and remainders. -/

theorem ofNat_sdiv : BitVec.ofNat w ((x.toInt.tdiv y.toInt) % (2 ^ w : Int)).toNat = x.sdiv y := by
  rw [ofNat_emod_toNat]
  apply BitVec.eq_of_toInt_eq
  rw [BitVec.toInt_ofInt, BitVec.toInt_sdiv]

theorem ofNat_srem : BitVec.ofNat w ((x.toInt.tmod y.toInt) % (2 ^ w : Int)).toNat = x.srem y := by
  rw [ofNat_emod_toNat, ← BitVec.toInt_srem, BitVec.ofInt_toInt]

theorem ofNat_udiv : BitVec.ofNat w (x.toNat / y.toNat) = x / y := by
  rw [← BitVec.toNat_udiv, BitVec.ofNat_toNat, BitVec.setWidth_eq]

theorem ofNat_umod : BitVec.ofNat w (x.toNat % y.toNat) = x % y := by
  rw [← BitVec.toNat_umod, BitVec.ofNat_toNat, BitVec.setWidth_eq]

/-- Only the most negative value by -1 has a quotient that does not fit (R78). -/
theorem fitsSigned_tdiv (hw : 0 < w) :
    (!fitsSigned w (x.toInt.tdiv y.toInt)) = (x == BitVec.intMin w && y == BitVec.allOnes w) := by
  by_cases h : x = BitVec.intMin w ∧ y = BitVec.allOnes w
  · obtain ⟨rfl, rfl⟩ := h
    have hmin : (BitVec.intMin w).toInt = -2 ^ (w - 1) := by
      rw [BitVec.toInt_intMin, Nat.mod_eq_of_lt (Nat.pow_lt_pow_right (by decide) (by omega))]
      push_cast
      rfl
    have hone : (BitVec.allOnes w).toInt = -1 := by rw [BitVec.toInt_allOnes, if_pos hw]
    have hpos : (0 : Int) < 2 ^ (w - 1) := by positivity
    rw [hmin, hone, Int.tdiv_neg, Int.tdiv_one, Int.neg_neg]
    simp [fitsSigned]
  · have hfits : x.toInt.tdiv y.toInt = (x.sdiv y).toInt := by
      refine (BitVec.toInt_sdiv_of_ne_or_ne x y ?_).symm
      rw [BitVec.neg_one_eq_allOnes]
      exact not_and_or.mp h
    have hlo := BitVec.le_toInt (x.sdiv y)
    have hhi := BitVec.toInt_lt (x := x.sdiv y)
    have hne : (x == BitVec.intMin w && y == BitVec.allOnes w) = false := by simpa using h
    rw [hfits, hne]
    simpa [fitsSigned] using ⟨hlo, hhi⟩

section
variable (h : y ≠ 0)
include h

theorem toNat_ne_zero_of_ne : y.toNat ≠ 0 := fun h0 => h (BitVec.eq_of_toNat_eq (by simpa using h0))

theorem divFlags_quotient (hw : 0 < w) :
    divFlags w x.toNat y.toNat false =
      ⟨(x.sdiv y).signExtend 64, x == BitVec.intMin w && y == BitVec.allOnes w, false, false⟩ := by
  unfold divFlags
  dsimp only
  rw [if_neg (toNat_ne_zero_of_ne y h), sext_toNat, sext_toNat, fitsSigned_tdiv x y hw, if_neg Bool.false_ne_true, widen_eq (ofNat_sdiv x y)]

theorem divFlags_remainder (hw : 0 < w) :
    divFlags w x.toNat y.toNat true =
      ⟨(x.srem y).signExtend 64, x == BitVec.intMin w && y == BitVec.allOnes w, false, false⟩ := by
  unfold divFlags
  dsimp only
  rw [if_neg (toNat_ne_zero_of_ne y h), sext_toNat, sext_toNat, fitsSigned_tdiv x y hw, if_pos rfl, widen_eq (ofNat_srem x y)]

theorem divuFlags_quotient : divuFlags w x.toNat y.toNat false = AluResult.quiet ((x / y).signExtend 64) := by
  rw [divuFlags, if_neg (toNat_ne_zero_of_ne y h), if_neg Bool.false_ne_true, widen_eq (ofNat_udiv x y)]

theorem divuFlags_remainder : divuFlags w x.toNat y.toNat true = AluResult.quiet ((x % y).signExtend 64) := by
  rw [divuFlags, if_neg (toNat_ne_zero_of_ne y h), if_pos rfl, widen_eq (ofNat_umod x y)]

end

end

/-! The operations of one operand, and the extensions (R77). -/

theorem ctzFrom_spec (n : Nat) : ∀ (k i : Nat),
    i ≤ ctzFrom n i k ∧ ctzFrom n i k ≤ i + k ∧ (∀ j, i ≤ j → j < ctzFrom n i k → n.testBit j = false) ∧
      (ctzFrom n i k < i + k → n.testBit (ctzFrom n i k) = true)
  | 0, i => ⟨Nat.le_refl _, Nat.le_refl _, fun j h1 h2 => absurd h2 (Nat.not_lt.mpr h1), fun h => absurd h (Nat.lt_irrefl _)⟩
  | k + 1, i => by
    unfold ctzFrom
    split
    · next hbit => exact ⟨Nat.le_refl _, by omega, fun j h1 h2 => absurd h2 (Nat.not_lt.mpr h1), fun _ => hbit⟩
    · next hbit =>
      obtain ⟨hge, hle, hzero, hone⟩ := ctzFrom_spec n k (i + 1)
      refine ⟨by omega, by omega, fun j h1 h2 => ?_, fun h => hone (by omega)⟩
      rcases Nat.eq_or_lt_of_le h1 with rfl | h1
      · exact Bool.eq_false_iff.mpr hbit
      · exact hzero j h1 h2

theorem clz64_spec {n : Nat} (hn : n < 2 ^ 64) :
    clz64 n ≤ 64 ∧ (∀ i, i < clz64 n → n.testBit (63 - i) = false) ∧ (clz64 n < 64 → n.testBit (63 - clz64 n) = true) := by
  unfold clz64
  split
  · next h0 =>
    subst h0
    exact ⟨Nat.le_refl _, fun i _ => Nat.zero_testBit _, fun h => absurd h (Nat.lt_irrefl _)⟩
  · next h0 =>
    have hlog : n.log2 < 64 := (Nat.log2_lt h0).mpr hn
    refine ⟨by omega, fun i hi => Nat.testBit_lt_two_pow ?_, fun _ => ?_⟩
    · exact (Nat.log2_lt h0).mp (by omega)
    · rw [show 63 - (63 - n.log2) = n.log2 by omega]
      exact Nat.testBit_log2 h0

theorem popCount_eq (n : Nat) : ∀ k, popCount n k = ((List.range k).filter n.testBit).length
  | 0 => rfl
  | k + 1 => by
    rw [popCount, popCount_eq n k, List.range_succ, List.filter_append, List.length_append, Nat.add_comm]
    cases h : n.testBit k <;> simp [bit01, h]

theorem natLE_getElem : ∀ (k n i : Nat) (h : i < (natLE k n).length), (natLE k n)[i] = BitVec.ofNat 8 (n / 256 ^ i)
  | k + 1, n, 0, _ => by simp [natLE]
  | k + 1, n, i + 1, h => by
    have h' : i < (natLE k (n / 256)).length := by simpa [natLE] using h
    show (natLE k (n / 256))[i] = _
    rw [natLE_getElem k (n / 256) i h', Nat.div_div_eq_div_mul, Nat.pow_succ, Nat.mul_comm]

theorem leNat_lt : ∀ bs : List Byte, leNat bs < 256 ^ bs.length
  | [] => Nat.one_pos
  | b :: bs => by
    have := leNat_lt bs
    have := b.isLt
    rw [leNat, List.length_cons, Nat.pow_succ]
    omega

/-- Byte `i` of the number that bytes make. -/
theorem leNat_div : ∀ (bs : List Byte) (i : Nat) (h : i < bs.length), leNat bs / 256 ^ i % 256 = bs[i].toNat
  | b :: bs, 0, _ => by
    have := b.isLt
    simp only [leNat, Nat.pow_zero, Nat.div_one, List.getElem_cons_zero]
    omega
  | b :: bs, i + 1, h => by
    have hb := b.isLt
    rw [leNat, Nat.pow_succ', ← Nat.div_div_eq_div_mul, show (b.toNat + 256 * leNat bs) / 256 = leNat bs by omega]
    exact leNat_div bs i (Nat.lt_of_succ_lt_succ h)

theorem widen_64 (n : Nat) : widen 64 n = BitVec.ofNat 64 n := by
  rw [widen_eq (w := 64) rfl, BitVec.signExtend_eq]

/-- BSWAP: byte `i` of the result is byte `7 - i` of the operand. -/
theorem bswap_byte (a : DWord) {i : Nat} (hi : i < 8) :
    (BitVec.ofNat 64 (leNat (natLE 8 a.toNat).reverse)).extractLsb' (8 * i) 8 = a.extractLsb' (8 * (7 - i)) 8 := by
  have hlen : (natLE 8 a.toNat).reverse.length = 8 := by rw [List.length_reverse, natLE_length]
  have hlt : leNat (natLE 8 a.toNat).reverse < 2 ^ 64 := by
    have := leNat_lt (natLE 8 a.toNat).reverse
    rwa [hlen] at this
  have hpow (j : Nat) : 2 ^ (8 * j) = 256 ^ j := by rw [Nat.pow_mul]
  apply BitVec.eq_of_toNat_eq
  rw [BitVec.extractLsb'_toNat, BitVec.extractLsb'_toNat, BitVec.toNat_ofNat, Nat.mod_eq_of_lt hlt, Nat.shiftRight_eq_div_pow,
    Nat.shiftRight_eq_div_pow, hpow, hpow]
  refine (leNat_div _ i (by omega)).trans ?_
  rw [List.getElem_reverse, natLE_getElem, BitVec.toNat_ofNat]
  congr 4

/-- SEXT: the bits above `k` copy bit `k`. -/
theorem sext_getLsbD (a : DWord) (k : Nat) (hk : k < 64) (i : Nat) (hi : i < 64) :
    (dw (sext (k + 1) a.toNat)).getLsbD i = a.getLsbD (min i k) := by
  show ((BitVec.ofNat (k + 1) a.toNat).signExtend 64).getLsbD i = _
  rw [BitVec.getLsbD_signExtend, BitVec.msb_eq_getLsbD_last, decide_eq_true hi, Bool.true_and]
  have hbit (j : Nat) (hj : j ≤ k) : (BitVec.ofNat (k + 1) a.toNat).getLsbD j = a.getLsbD j := by
    rw [BitVec.getLsbD_ofNat, decide_eq_true (by omega), Bool.true_and, BitVec.testBit_toNat]
  split
  · next h => rw [hbit i (by omega), Nat.min_eq_left (by omega)]
  · next h => rw [hbit _ (by omega), Nat.min_eq_right (by omega), Nat.add_sub_cancel]

/-- ZEXT: the bits above `k` are 0. -/
theorem zext_getLsbD (a : DWord) (k i : Nat) (hi : i < 64) :
    (BitVec.ofNat 64 (a.toNat % 2 ^ (k + 1))).getLsbD i = (decide (i ≤ k) && a.getLsbD i) := by
  rw [BitVec.getLsbD_ofNat, Nat.testBit_mod_two_pow, decide_eq_true hi, Bool.true_and, BitVec.testBit_toNat]
  simp only [Nat.lt_succ_iff]

/-- Settles O20: the operations of two operands in words of their width, those of one operand by what they count or move. -/
theorem aluOperationsComputeTheirTable : Obligations.AluOperationsComputeTheirTable := by
  refine ⟨fun narrow a b => ?two, fun f a b hlo hhi => ?one⟩
  case two =>
    intro w x y n flagged plain truth lowest
    have hw : 0 < w := by cases narrow <;> decide
    have hx : a.toNat % 2 ^ w = x.toNat := (BitVec.toNat_setWidth w a).symm
    have hy : b.toNat % 2 ^ w = y.toNat := (BitVec.toNat_setWidth w b).symm
    have hn : y.toNat % w = n := by
      rw [← hy]
      exact Nat.mod_mod_of_dvd _ (by cases narrow <;> decide)
    have hlt : n < w := Nat.mod_lt _ hw
    have flags {f : Nat} {v : BitVec w} {ovs ovu dz : Bool} (g : Nat → Nat → AluResult)
        (ho : aluOp f narrow a b = some (g (a.toNat % 2 ^ w) (b.toNat % 2 ^ w)))
        (hg : g x.toNat y.toNat = ⟨v.signExtend 64, ovs, ovu, dz⟩) : flagged f v ovs ovu dz := by
      rw [hx, hy, hg] at ho
      exact ho
    have quiet {f : Nat} {v : BitVec w} (g : Nat → Nat → Nat)
        (ho : aluOp f narrow a b = some (AluResult.quiet (widen w (g (a.toNat % 2 ^ w) (b.toNat % 2 ^ w)))))
        (hg : BitVec.ofNat w (g x.toNat y.toNat) = v) : plain f v :=
      flags (fun p q => AluResult.quiet (widen w (g p q))) ho (by rw [widen_eq hg]; rfl)
    refine ⟨flags (addFlags w) rfl (addFlags_word x y), flags (subFlags w) rfl (subFlags_word x y),
      flags (mulFlags w) rfl (mulFlags_word x y), quiet (fun p q => p &&& q) rfl (ofNat_and x y),
      quiet (fun p q => p ||| q) rfl (ofNat_or x y), quiet (fun p q => p ^^^ q) rfl (ofNat_xor x y),
      quiet (fun p q => p &&& (2 ^ w - 1 - q)) rfl (ofNat_andn x y), ?shl, ?shr, ?sar, ?ror,
      quiet (fun p q => bit01 (decide (sext w p < sext w q))) rfl ?slt, quiet (fun p q => bit01 (decide (p < q))) rfl (ofNat_ult x y),
      quiet (fun p q => if sext w p ≤ sext w q then p else q) rfl ?min, quiet (fun p q => if sext w p ≤ sext w q then q else p) rfl ?max,
      quiet (fun p q => min p q) rfl (ofNat_minu x y), quiet (fun p q => max p q) rfl (ofNat_maxu x y),
      quiet (fun p q => ((sext w p * sext w q / 2 ^ w) % (2 ^ w : Int)).toNat) rfl ?mulh,
      quiet (fun p q => p * q / 2 ^ w) rfl (ofNat_mulhu x y), fun hne => ?quotients, fun hzero => ?zero⟩
    case shl => exact quiet (fun p q => p <<< (q % w)) rfl (by rw [hn, ofNat_shl])
    case shr => exact quiet (fun p q => p >>> (q % w)) rfl (by rw [hn, ofNat_shr])
    case sar =>
      exact quiet (fun p q => ((sext w p >>> (q % w)) % (2 ^ w : Int)).toNat) rfl (by rw [hn, sext_toNat, ofNat_sar])
    case ror => exact quiet (fun p q => rotr w p (q % w)) rfl (by rw [hn, ofNat_rotr x hlt])
    case slt => rw [sext_toNat, sext_toNat, ofNat_slt]
    case min =>
      rw [sext_toNat, sext_toNat]
      exact ofNat_ite_toNat x y (by simp [BitVec.sle])
    case max =>
      rw [sext_toNat, sext_toNat]
      exact ofNat_ite_toNat y x (by simp [BitVec.sle])
    case mulh => rw [sext_toNat, sext_toNat, ofNat_mulh]
    case quotients =>
      exact ⟨flags (fun p q => divFlags w p q false) rfl (divFlags_quotient x y hne hw),
        flags (fun p q => divFlags w p q true) rfl (divFlags_remainder x y hne hw),
        flags (fun p q => divuFlags w p q false) rfl (divuFlags_quotient x y hne),
        flags (fun p q => divuFlags w p q true) rfl (divuFlags_remainder x y hne)⟩
    case zero =>
      have h0 : y.toNat = 0 := by rw [hzero]; exact BitVec.toNat_zero
      have hv : (0 : BitVec w).signExtend 64 = 0 := by
        show BitVec.ofInt 64 (0#w).toInt = 0
        rw [BitVec.toInt_zero]
        rfl
      have hdiv (rem : Bool) : divFlags w x.toNat y.toNat rem = ⟨(0 : BitVec w).signExtend 64, false, false, true⟩ := by
        rw [hv, divFlags, if_pos h0]
      have hdivu (rem : Bool) : divuFlags w x.toNat y.toNat rem = ⟨(0 : BitVec w).signExtend 64, false, false, true⟩ := by
        rw [hv, divuFlags, if_pos h0]
      exact ⟨flags (fun p q => divFlags w p q false) rfl (hdiv false), flags (fun p q => divuFlags w p q false) rfl (hdivu false),
        flags (fun p q => divFlags w p q true) rfl (hdiv true), flags (fun p q => divuFlags w p q true) rfl (hdivu true)⟩
  case one =>
    have ha : a.toNat % 2 ^ 64 = a.toNat := Nat.mod_eq_of_lt a.isLt
    have hb : b.toNat % 2 ^ 64 % 64 = b.toNat % 64 := Nat.mod_mod_of_dvd _ (by decide)
    have hk : b.toNat % 64 < 64 := Nat.mod_lt _ (by decide)
    have unary {f : Nat} (g : Nat → Nat) (ho : aluOp f false a b = some (AluResult.quiet (widen 64 (g (a.toNat % 2 ^ 64))))) :
        aluOp f false a b = some (AluResult.quiet (BitVec.ofNat 64 (g a.toNat))) := by
      rw [ho, ha, widen_64]
    have small {m : Nat} (hm : m ≤ 64) : (BitVec.ofNat 64 m).toNat = m := by
      rw [BitVec.toNat_ofNat]
      omega
    have hf : f = 0x18 ∨ f = 0x19 ∨ f = 0x1A ∨ f = 0x1B ∨ f = 0x1C ∨ f = 0x1D := by omega
    rcases hf with rfl | rfl | rfl | rfl | rfl | rfl <;> simp only [Nat.reduceEqDiff, false_implies, true_implies, true_and, and_true]
    · obtain ⟨hle, hzero, hone⟩ := clz64_spec a.isLt
      refine ⟨_, unary clz64 rfl, ?_⟩
      rw [small hle]
      exact ⟨hle, hzero, hone⟩
    · obtain ⟨-, hle, hzero, hone⟩ := ctzFrom_spec a.toNat 64 0
      rw [Nat.zero_add] at hle hone
      refine ⟨_, unary (fun p => ctzFrom p 0 64) rfl, ?_⟩
      rw [small hle]
      exact ⟨hle, fun i => hzero i (Nat.zero_le i), hone⟩
    · refine ⟨_, unary (fun p => popCount p 64) rfl, ?_⟩
      rw [small] <;> rw [popCount_eq]
      · rfl
      · exact (List.length_filter_le _ _).trans (by rw [List.length_range])
    · exact ⟨_, unary (fun p => leNat (natLE 8 p).reverse) rfl, fun i hi => bswap_byte a hi⟩
    · refine ⟨dw (sext (b.toNat % 64 + 1) a.toNat), ?_, fun i hi => sext_getLsbD a _ hk i hi⟩
      rw [← ha, ← hb]
      rfl
    · refine ⟨BitVec.ofNat 64 (a.toNat % 2 ^ (b.toNat % 64 + 1)), ?_, fun i hi => zext_getLsbD a _ i hi⟩
      rw [← widen_64, ← hb]
      conv => rhs; rw [← ha]
      rfl

end Sys2Proof.Machine
end

section
/-! The grants that reset leaves (R38). -/

namespace Sys2Proof.Machine

/-- CONTROL of grant `g` of table `t` after reset (R38). -/
def resetControl (t g : Nat) : Nat :=
  if g = 0 then 0x8F14F140
  else if g = 1 ∧ t ∈ [1, 2, 3, 4, 5, 6, 10] then 0x8B000000
  else if g = 2 ∧ t = 10 then 0x83300300
  else 0

theorem grantReset_control (t g : Nat) : grantReset t g 0 = resetControl t g := by
  have htables : ((1 ≤ t && t ≤ 6) || t = 0xA) = true ↔ t ∈ [1, 2, 3, 4, 5, 6, 10] := by
    simp only [Bool.or_eq_true, Bool.and_eq_true, decide_eq_true_eq, List.mem_cons, List.not_mem_nil, or_false]
    omega
  unfold grantReset resetControl
  simp only [Bool.and_eq_true, htables, decide_eq_true_eq]

/-- The value that a slot of a grant holds after reset: CONTROL, BASE or LIMIT. -/
def resetSlot (t g k : Nat) : Nat :=
  match k with
  | 0 => resetControl t g
  | 1 => 0
  | _ => if resetControl t g = 0 then 0 else 0xFFFFFFFF

theorem resetControl_lt (t g : Nat) : resetControl t g < 2 ^ 32 := by
  unfold resetControl
  split_ifs <;> decide

theorem resetSlot_lt (t g k : Nat) : resetSlot t g k < 2 ^ 32 := by
  unfold resetSlot
  split
  · exact resetControl_lt t g
  · decide
  · split_ifs <;> decide

/-- The two words of a slot hold its value and its complement. -/
theorem grantReset_slot {t g k : Nat} (hk : k < 3) :
    grantReset t g (2 * k) = resetSlot t g k ∧ grantReset t g (2 * k + 1) = 0xFFFFFFFF - resetSlot t g k := by
  unfold resetSlot
  rw [← grantReset_control]
  interval_cases k
  · exact ⟨rfl, rfl⟩
  · have hhi : grantReset t g 3 = 0xFFFFFFFF := rfl
    exact ⟨rfl, hhi.trans (Nat.sub_zero _).symm⟩
  · have hhi : grantReset t g 5 = if grantReset t g 0 = 0 then 0xFFFFFFFF else 0 := rfl
    refine ⟨rfl, hhi.trans ?_⟩
    split_ifs
    · exact (Nat.sub_zero _).symm
    · exact (Nat.sub_self _).symm

section
variable {t g : Nat} (ht : t < 12) (hg : g < 128)
include ht hg

theorem reset_grantWord {k : Nat} (hk : k < 6) : State.reset.rd (grantAt t g + 4 * k) = BitVec.ofNat 32 (grantReset t g k) := by
  have hat : grantAt t g + 4 * k = 0x5000 + 0xC00 * t + 0x18 * g + 4 * k := rfl
  have hview : viewOffset (grantAt t g + 4 * k) = grantAt t g + 4 * k := if_pos (by omega)
  show regReset (grantAt t g + 4 * k) = _
  unfold regReset
  rw [hview]
  dsimp only
  rw [if_pos (by simp; omega)]
  congr 2 <;> omega

theorem reset_grantSlot {k : Nat} (hk : k < 3) :
    (State.reset.rd (grantAt t g + 8 * k)).toNat = resetSlot t g k ∧
      State.reset.rd64 (grantAt t g + 8 * k) = cp32 (resetSlot t g k) := by
  obtain ⟨hlo, hhi⟩ := grantReset_slot (t := t) (g := g) hk
  have hlt := resetSlot_lt t g k
  have h0 := reset_grantWord ht hg (show 2 * k < 6 by omega)
  have h1 := reset_grantWord ht hg (show 2 * k + 1 < 6 by omega)
  rw [show 4 * (2 * k) = 8 * k by omega, hlo] at h0
  rw [show grantAt t g + 4 * (2 * k + 1) = grantAt t g + 8 * k + 4 by omega, hhi] at h1
  unfold State.rd64 cp32
  rw [h0, h1, BitVec.toNat_ofNat, BitVec.toNat_ofNat]
  omega

end

theorem cp32Ok_cp32 (v : Nat) : cp32Ok (cp32 v) = true := by
  have hlt : v % 2 ^ 32 < 2 ^ 32 := Nat.mod_lt _ (by decide)
  have hlo : bits (cp32 v) 31 0 = v % 2 ^ 32 := by
    unfold bits cp32
    rw [Nat.shiftRight_zero]
    omega
  have hhi : bits (cp32 v) 63 32 = 2 ^ 32 - (v % 2 ^ 32 + 1) := by
    unfold bits cp32
    rw [Nat.shiftRight_eq_div_pow]
    rw [Nat.add_mul_div_right _ _ (by decide), Nat.div_eq_of_lt hlt]
    omega
  unfold cp32Ok
  rw [hlo, hhi, beq_iff_eq]
  apply Nat.eq_of_testBit_eq
  intro i
  rw [Nat.testBit_xor, Nat.testBit_two_pow_sub_succ hlt, show (0xFFFFFFFF : Nat) = 2 ^ 32 - 1 from rfl, Nat.testBit_two_pow_sub_one]
  by_cases hi : i < 32
  · simp [hi]
  · rw [Nat.testBit_lt_two_pow (hlt.trans_le (Nat.pow_le_pow_right (by decide) (Nat.le_of_not_lt hi)))]
    simp [hi]

section
variable {t g : Nat} (ht : t < 12) (hg : g < 128)
include ht hg

theorem reset_grantIntact : State.reset.grantIntact t g = true := by
  have hslot {k : Nat} (hk : k < 3) : cp32Ok (State.reset.rd64 (grantAt t g + 8 * k)) = true := by
    rw [(reset_grantSlot ht hg hk).2, cp32Ok_cp32]
  unfold State.grantIntact
  dsimp only
  rw [show grantAt t g + 8 = grantAt t g + 8 * 1 from rfl, show grantAt t g + 16 = grantAt t g + 8 * 2 from rfl,
    show State.reset.rd64 (grantAt t g) = State.reset.rd64 (grantAt t g + 8 * 0) from rfl,
    hslot (by decide), hslot (by decide), hslot (by decide)]
  rfl

theorem reset_isFaulted : State.reset.isFaulted t g = false := by
  unfold State.isFaulted
  rw [reset_grantIntact ht hg]
  rfl

/-- A grant of the reset state that is not empty covers the whole address space, and admits by its masters and rights. -/
theorem reset_grantMatches {m addr len : Nat} {n : Rights} (hlen : addr + len ≤ 2 ^ 48) :
    State.reset.grantMatches t g m addr len n = true ↔
      (resetControl t g).testBit 31 = true ∧ bits (resetControl t g) 11 0 ≤ m ∧ m ≤ bits (resetControl t g) 23 12 ∧
        (n.r = true → (resetControl t g).testBit 24 = true) ∧ (n.w = true → (resetControl t g).testBit 25 = true) ∧
        (n.x = true → (resetControl t g).testBit 26 = true) ∧ (n.a = true → (resetControl t g).testBit 27 = true) := by
  have h0 : (State.reset.rd (grantAt t g)).toNat = resetControl t g := (reset_grantSlot ht hg (k := 0) (by decide)).1
  have h1 : (State.reset.rd (grantAt t g + 8)).toNat = 0 := (reset_grantSlot ht hg (k := 1) (by decide)).1
  have h2 : (State.reset.rd (grantAt t g + 16)).toNat = if resetControl t g = 0 then 0 else 0xFFFFFFFF :=
    (reset_grantSlot ht hg (k := 2) (by decide)).1
  unfold State.grantMatches
  dsimp only
  rw [h0, h1, h2]
  by_cases hc : resetControl t g = 0
  · simp [hc]
  · have htop : (addr + len - 1) / 65536 ≤ 0xFFFFFFFF := by omega
    simp [hc, htop, and_assoc, imp_iff_not_or]

/-- What each grant of the reset state admits (R38). -/
theorem reset_grantMatches_iff {m addr len : Nat} {n : Rights} (hlen : addr + len ≤ 2 ^ 48) :
    State.reset.grantMatches t g m addr len n = true ↔
      (g = 0 ∧ 0x140 ≤ m ∧ m ≤ 0x14F) ∨ (g = 1 ∧ m = 0 ∧ n.x = false ∧ t ∈ [1, 2, 3, 4, 5, 6, 10]) ∨
        (g = 2 ∧ m = 0x300 ∧ n.x = false ∧ n.a = false ∧ t = 10) := by
  rw [reset_grantMatches ht hg hlen]
  unfold resetControl
  split_ifs with h0 h1 h2
  · subst h0
    simp [bits, Nat.testBit]
  · obtain ⟨rfl, ht⟩ := h1
    simp only [List.mem_cons, List.not_mem_nil, or_false] at ht
    simp [bits, Nat.testBit, ht]
  · obtain ⟨rfl, rfl⟩ := h2
    simp [bits, Nat.testBit]
    exact ⟨fun ⟨hlo, hhi, h⟩ => ⟨by omega, h⟩, fun ⟨hm, h⟩ => ⟨by omega, by omega, h⟩⟩
  · simp only [Nat.zero_testBit, Bool.false_eq_true, false_and, false_iff, not_or]
    exact ⟨fun h => h0 h.1, fun h => h1 ⟨h.1, h.2.2.2⟩, fun h => h2 ⟨h.1, h.2.2.2.2⟩⟩

end

theorem reset_newlyBroken {t : Nat} (ht : t < 12) : State.reset.newlyBroken t = [] := by
  unfold State.newlyBroken
  rw [List.filter_eq_nil_iff]
  intro g hg
  rw [reset_grantIntact ht (List.mem_range.mp hg)]
  simp

/-- A table without a faulted grant denies a request by ACCESS_DENIED alone (R34, R36). -/
theorem State.verdict_of_intact {s : State} {t m addr len : Nat} {n : Rights} (hi : ∀ g, g < 128 → s.isFaulted t g = false)
    (hv : s.verdict t m addr len n ≠ St.ok) : s.verdict t m addr len n = St.accessDenied := by
  have hnone : ¬ (List.range 128).any (fun g => s.isFaulted t g && s.grantMatches t g m addr len n) = true := by
    rw [List.any_eq_true]
    rintro ⟨g, hg, h⟩
    rw [hi g (List.mem_range.mp hg)] at h
    cases h
  unfold State.verdict at hv ⊢
  split at hv
  · exact absurd rfl hv
  · next h => rw [if_neg h, if_neg hnone]

/-- Settles O57: a grant of the reset state is one of R38's, or empty, and the verdict of a table is that of its grants. -/
theorem resetGrantsAdmitFirmwarePfAndSteady : Obligations.ResetGrantsAdmitFirmwarePfAndSteady := by
  refine ⟨fun t g ht hg => ⟨reset_grantIntact ht hg, rfl, fun hempty k hk => ?empty⟩, fun t m addr len n ht hm hpos hlen => ?judged⟩
  case empty =>
    have hcontrol : resetControl t g = 0 := by
      unfold resetControl
      split_ifs with h0 h1 h2
      · omega
      · rcases hempty with h | h | h
        · omega
        · exact absurd h1.2 h.2
        · omega
      · omega
      · rfl
    have hslot : resetSlot t g k = 0 := by
      unfold resetSlot
      rw [hcontrol]
      split <;> rfl
    rw [(reset_grantSlot ht hg hk).2, hslot]
  case judged =>
    intro firmware pf steady
    have hb := reset_newlyBroken ht
    have hok : State.reset.verdict t m addr len n = St.ok ↔ firmware ∨ pf ∨ steady := by
      rw [State.verdict_eq_ok_iff]
      constructor
      · rintro ⟨g, hg, -, hmatch⟩
        rcases (reset_grantMatches_iff ht hg hlen).mp hmatch with ⟨-, h⟩ | ⟨-, h⟩ | ⟨-, h⟩
        · exact .inl h
        · exact .inr (.inl h)
        · exact .inr (.inr h)
      · have admits {g : Nat} (hg : g < 128) (h : State.reset.grantMatches t g m addr len n = true) :
            ∃ i, i < 128 ∧ State.reset.isFaulted t i = false ∧ State.reset.grantMatches t i m addr len n = true :=
          ⟨g, hg, reset_isFaulted ht hg, h⟩
        rintro (h | h | h)
        · exact admits (g := 0) (by decide) ((reset_grantMatches_iff ht (by decide) hlen).mpr (.inl ⟨rfl, h⟩))
        · exact admits (g := 1) (by decide) ((reset_grantMatches_iff ht (by decide) hlen).mpr (.inr (.inl ⟨rfl, h⟩)))
        · exact admits (g := 2) (by decide) ((reset_grantMatches_iff ht (by decide) hlen).mpr (.inr (.inr ⟨rfl, h⟩)))
    refine ⟨hb, fun h => State.judge_admitted hb (hok.mpr h), fun h => ?_⟩
    have hv : State.reset.verdict t m addr len n ≠ St.ok := fun hv => h (hok.mp hv)
    rw [State.judge_denied hb hv]
    exact State.verdict_of_intact (fun g hg => reset_isFaulted ht hg) hv

end Sys2Proof.Machine
end

section
/-! Vector memory accesses (R109, R121 to R126): each word's access, and the ways an access ends. -/

namespace Sys2Proof.Machine

section
variable {s t : State} {c : Nat} {pfx : Option Word} {w : Word} {is : Word → Bool} {f : Ctx → State → Out}
  (hruns : s.Runs c) (hc : c < 64) (hpfx : prefixOf? pfx ≠ .illegal) (hm : major w < 0x7F) (hi : is w = true)
include hruns hc hpfx hm hi

/-- A tile's instruction that raises `e` and leaves the core `k` (R92, R123). -/
theorem State.tileRow_trapped {k : Core} {e : Exc} (hf : f (s.ctx c pfx w) s = .trap e k t) :
    done (okCore c) s (s.runRow bus c pfx w is f) = .next (s.seal (t.trapped c k e)) := by
  rw [done_of hruns.1, State.runRow_trap hruns.2 hi ⟨hpfx, by omega, .inl (by omega)⟩ hf]

/-- A tile's instruction that waits is tried again (R109, R144). -/
theorem State.tileRow_wait (hf : f (s.ctx c pfx w) s = .wait t) :
    done (okCore c) s (s.runRow bus c pfx w is f) = .next (s.seal (t.afterInsn c true)) := by
  rw [done_of hruns.1, State.runRow_of hruns.2 hi ⟨hpfx, by omega, .inl (by omega)⟩ hf]
  rfl

end

section
variable {x : Ctx} {s : State}

section
variable (hok : vmemOk x [fD x.w] = true)
include hok

theorem vldInsn_eq (hb : fB x.w = 0) :
    vldInsn x s = x.vend (s.vload x (fn4 x.w) (fD x.w) (fun i => [x.at (i * x.k.eb)])) := if_neg (by simp [hok, hb])

theorem vstInsn_eq (hb : fB x.w = 0) :
    vstInsn x s = x.vend (s.vstore x (fn4 x.w) (fD x.w) (fun i => [x.at (i * x.k.eb)])) := if_neg (by simp [hok, hb])

theorem vldsInsn_eq :
    vldsInsn x s = x.vend (s.vload x (fn4 x.w) (fD x.w) (fun i => [x.at (i * x.xb.toNat)])) := if_neg (by simp [hok])

theorem vstsInsn_eq :
    vstsInsn x s = x.vend (s.vstore x (fn4 x.w) (fD x.w) (fun i => [x.at (i * x.xb.toNat)])) := if_neg (by simp [hok])

variable (hb : fB x.w = 0) (hf : fD x.w + fieldCount x * x.k.grp ≤ 32)
include hb hf

theorem ldfInsn_eq : ldfInsn x s = x.vend (s.vload x (fn4 x.w) (fD x.w) x.record) :=
  if_neg (by simp [hok, hb, Nat.not_lt.mpr hf])

theorem stfInsn_eq : stfInsn x s = x.vend (s.vstore x (fn4 x.w) (fD x.w) x.record) :=
  if_neg (by simp [hok, hb, Nat.not_lt.mpr hf])

end

section
variable (hok : vmemOk x [fD x.w, fB x.w] = true)
include hok

theorem gatherInsn_eq :
    gatherInsn x s = x.vend (s.vload x (fn4 x.w) (fD x.w) (fun i => [x.at (x.index i * x.k.eb)])) := if_neg (by simp [hok])

theorem scatterInsn_eq :
    scatterInsn x s = x.vend (s.vstore x (fn4 x.w) (fD x.w) (fun i => [x.at (x.index i * x.k.eb)])) := if_neg (by simp [hok])

section
variable {r : VProg × State} (hr : s.vload x (fn4 x.w) (fD x.w) (fun i => [x.at (x.index i * x.k.eb)]) = r)
include hr

/-- GATHER.F that faults at element `i` clears the predicate from there and completes (R124). -/
theorem gatherFInsn_fault {i : Nat} {e : Exc} (h : r.1 = .fault i e) :
    gatherFInsn x s = vdone (((r.2.core x.c).clearFrom (fn4 x.w) i).addVflags flFF) r.2 := by
  obtain ⟨p, t⟩ := r
  dsimp only at h
  subst h
  unfold gatherFInsn
  rw [if_neg (by simp [hok]), hr]

theorem gatherFInsn_eq (h : ∀ i e, r.1 ≠ .fault i e) : gatherFInsn x s = x.vend r := by
  obtain ⟨p, t⟩ := r
  unfold gatherFInsn
  rw [if_neg (by simp [hok]), hr]
  cases p with
  | fault i e => exact absurd rfl (h i e)
  | go => rfl
  | wait i => rfl

end
end

/-! The elements of an access, in order. -/

theorem foldl_same {α β : Type} {F : α → β → α} {a : α} : ∀ l : List β, (∀ b ∈ l, F a b = a) → l.foldl F a = a
  | [], _ => rfl
  | b :: l, h => by rw [List.foldl_cons, h b (by simp), foldl_same l (fun c hc => h c (by simp [hc]))]

theorem Core.strip_one {k : Core} {i : Nat} (hb : k.vbegin = i) (hv : k.vl = i + 1) : k.strip = [i] := by
  unfold Core.strip rangeFrom
  rw [hb, hv, Nat.add_sub_cancel_left]
  rfl

theorem Core.strip_cons {k : Core} {i : Nat} (hb : k.vbegin = i) (hv : i < k.vl) : ∃ l, k.strip = i :: l := by
  unfold Core.strip rangeFrom
  rw [hb]
  obtain ⟨n, hn⟩ : ∃ n, k.vl - i = n + 1 := ⟨k.vl - i - 1, by omega⟩
  rw [hn, List.range_succ_eq_map]
  exact ⟨_, rfl⟩

section
variable {pg vd : Nat} {eas : Nat → List DWord}

/-- With no active element nothing is accessed (R107, R109). -/
theorem State.vload_inactive (h : ∀ i, x.k.vbegin ≤ i → i < x.k.vl → x.k.governs x.k.eb pg i = false) :
    s.vload x pg vd eas = (.go, s) := by
  refine foldl_same _ fun i hi => ?_
  obtain ⟨hlo, hhi⟩ := mem_strip hi
  exact if_neg (by simp [h i hlo hhi])

theorem State.vstore_inactive (h : ∀ i, x.k.vbegin ≤ i → i < x.k.vl → x.k.governs x.k.eb pg i = false) :
    s.vstore x pg vd eas = (.go, s) := by
  refine foldl_same _ fun i hi => ?_
  obtain ⟨hlo, hhi⟩ := mem_strip hi
  exact if_neg (by simp [h i hlo hhi])

variable {i : Nat} (hb : x.k.vbegin = i) (hg : x.k.governs x.k.eb pg i = true)
include hb hg

/-- The one element of a strip is read and put into its groups (R121, R122). -/
theorem State.vload_one {vs : List Nat} {t : State} (hv : x.k.vl = i + 1) (hl : s.loadFields x x.k.eb (eas i) = (.inl vs, t)) :
    s.vload x pg vd eas = (.go, t.setCore x.c ((vs.zip (List.range vs.length)).foldl
      (fun q p => q.putElem x.k.eb (vd + p.2 * x.k.grp) i p.1) (t.core x.c))) := by
  unfold State.vload
  dsimp only
  rw [Core.strip_one hb hv]
  dsimp only [List.foldl]
  rw [if_pos hg, hl]

/-- A fault of the first element stops the access there (R123). -/
theorem State.vload_fault {e : Exc} {t : State} (hv : i < x.k.vl) (hl : s.loadFields x x.k.eb (eas i) = (.inr (.exc e), t)) :
    s.vload x pg vd eas = (.fault i e, t) := by
  obtain ⟨l, hstrip⟩ := Core.strip_cons hb hv
  unfold State.vload
  dsimp only
  rw [hstrip]
  dsimp only [List.foldl]
  rw [if_pos hg, hl]
  exact foldl_same l (fun j _ => rfl)

end
end

/-- Settles O23: each legal word comes to its access, whose progress says how the instruction ends; in the bench it goes through. -/
theorem vectorAccessesGoElementByElement : Obligations.VectorAccessesGoElementByElement := by
  intro s c w hruns hc x k d b g at' f record index ends through
  have rowThrough {m u v : Nat} {fn : Ctx → State → Out} {r : VProg × State} (hrow : isFn m u v w = true) (hm : m < 0x7F)
      (hf : fn x s = x.vend r) : done (okCore c) s (s.runRow bus c none w (isFn m u v) fn) = through r := by
    have hmajor : major w < 0x7F := major_lt_of_isFn hrow hm
    obtain ⟨p, t⟩ := r
    cases p with
    | go => exact (State.tileRow_next hruns hc (by decide) hmajor hrow hf :)
    | fault i e => exact (State.tileRow_trapped hruns hc (by decide) hmajor hrow hf :)
    | wait i => exact (State.tileRow_wait hruns hc (by decide) hmajor hrow hf :)
  have hmem {rs : List Nat} (hgroups : k.groupsOk rs = true) (hpred : k.predsOk [g] = true) : vmemOk x rs = true := by
    show (true && k.groupsOk rs && k.predsOk [g]) = true
    rw [hgroups, hpred]
    rfl
  have hpair (hd : k.groupsOk [d] = true) (hb : k.groupsOk [b] = true) : k.groupsOk [d, b] = true :=
    (k.groupsOk_append [d] [b]).trans (by rw [hd, hb]; rfl)
  have hbench {r : VProg × State} (h : r.1 = .go) : through r = ends r.2 ((r.2.core c).setVbegin 0) := by
    obtain ⟨p, t⟩ := r
    dsimp only at h
    subst h
    rfl
  refine ⟨fun hd hp => ?legal, ?bench, ?inactive, ?one, ?stopped⟩
  case legal =>
    have hone := hmem hd hp
    refine ⟨fun hrow hb => rowThrough hrow (by decide) (vldInsn_eq hone hb),
      fun hrow hb => rowThrough hrow (by decide) (vstInsn_eq hone hb),
      fun hrow => rowThrough hrow (by decide) (vldsInsn_eq hone),
      fun hrow => rowThrough hrow (by decide) (vstsInsn_eq hone),
      fun hrow hb hf => rowThrough hrow (by decide) (ldfInsn_eq hone hb hf),
      fun hrow hb hf => rowThrough hrow (by decide) (stfInsn_eq hone hb hf), fun hg => ?_⟩
    have htwo := hmem (hpair hd hg) hp
    refine ⟨fun hrow => rowThrough hrow (by decide) (gatherInsn_eq htwo),
      fun hrow => rowThrough hrow (by decide) (scatterInsn_eq htwo), fun hrow => ⟨fun i e h => ?_, fun h => ?_⟩⟩
    · exact (State.tileRow_next hruns hc (by decide) (major_lt_of_isFn hrow (by decide)) hrow (gatherFInsn_fault htwo rfl h) :)
    · exact rowThrough hrow (by decide) (gatherFInsn_eq htwo rfl h)
  case bench =>
    intro inside done hd hp
    have hone := hmem hd hp
    have loads {eas : Nat → List DWord} (h : inside false eas) : through (s.vload x g d eas) = done (s.vload x g d eas) :=
      hbench (s.vload_bench g d eas hc fun i hlo hhi hg ea he =>
        ⟨(h i hlo hhi hg ea he).1, (h i hlo hhi hg ea he).2 rfl⟩)
    have stores {eas : Nat → List DWord} (h : inside true eas) : through (s.vstore x g d eas) = done (s.vstore x g d eas) :=
      hbench (s.vstore_bench g d eas hc fun i hlo hhi hg ea he => (h i hlo hhi hg ea he).1)
    refine ⟨⟨fun hrow hb h => (rowThrough hrow (by decide) (vldInsn_eq hone hb)).trans (loads h),
        fun hrow hb h => (rowThrough hrow (by decide) (vstInsn_eq hone hb)).trans (stores h)⟩,
      ⟨fun hrow h => (rowThrough hrow (by decide) (vldsInsn_eq hone)).trans (loads h),
        fun hrow h => (rowThrough hrow (by decide) (vstsInsn_eq hone)).trans (stores h)⟩,
      fun hf => ⟨fun hrow hb h => (rowThrough hrow (by decide) (ldfInsn_eq hone hb hf)).trans (loads h),
        fun hrow hb h => (rowThrough hrow (by decide) (stfInsn_eq hone hb hf)).trans (stores h)⟩, ?_⟩
    intro eas hg
    have htwo := hmem (hpair hd hg) hp
    refine ⟨fun hrow h => (rowThrough hrow (by decide) (gatherInsn_eq htwo)).trans (loads h),
      fun hrow h => (rowThrough hrow (by decide) (scatterInsn_eq htwo)).trans (stores h), fun hrow h => ?_⟩
    have hgo : (s.vload x g d eas).1 = .go :=
      s.vload_bench g d eas hc fun i hlo hhi hg ea he => ⟨(h i hlo hhi hg ea he).1, (h i hlo hhi hg ea he).2 rfl⟩
    refine (rowThrough hrow (by decide) (gatherFInsn_eq htwo rfl fun i e hf => ?_)).trans (loads h)
    exact VProg.noConfusion (hgo.symm.trans hf)
  case inactive => exact fun eas h => ⟨State.vload_inactive h, State.vstore_inactive h⟩
  case one => exact fun eas i vs t hb hv hg hl => State.vload_one hb hg hv hl
  case stopped => exact fun eas i e t hb hv hg hl => State.vload_fault hb hg hv hl

end Sys2Proof.Machine
end

section
/-! Window words (R85), stream messages (R162, R163) and channel resets (R165) at a tile of this module. -/

namespace Sys2Proof.Machine

/-! The registers of a tile's windows. -/

/-- The place of word `k` of window `w` of tile `n` in its TIL window. -/
theorem winOff_eq (n w k : Nat) : Reg.TIL_WIN_PBASE_LO n w + 4 * k = 0x800000 + 0x10000 * n + (0x1000 + 0x20 * w + 4 * k) := by
  unfold Reg.TIL_WIN_PBASE_LO
  omega

section
variable {n w k : Nat} (hw : w < 16) (hk : k < 8)
include hw hk

theorem winOff_window : (0x1000 + 0x20 * w + 4 * k - 0x1000) / 0x20 = w := by
  omega

theorem coreStateReg_window : coreStateReg (0x1000 + 0x20 * w + 4 * k) = true := by
  have hlo : 0x1000 ≤ 0x1000 + 0x20 * w + 4 * k := by omega
  have hhi : 0x1000 + 0x20 * w + 4 * k < 0x1200 := by omega
  simp only [coreStateReg, decide_eq_true hlo, decide_eq_true hhi, Bool.and_self, Bool.or_true, Bool.true_or]

variable (hn : n < 64)
include hn

/-- The part of the TIL window, the tile, and the bounds of a window register. -/
theorem winOff_parts :
    (Reg.TIL_WIN_PBASE_LO n w + 4 * k) % 0x10000 = 0x1000 + 0x20 * w + 4 * k ∧
      (Reg.TIL_WIN_PBASE_LO n w + 4 * k - 0x800000) / 0x10000 = n ∧
      0x801000 ≤ Reg.TIL_WIN_PBASE_LO n w + 4 * k ∧ Reg.TIL_WIN_PBASE_LO n w + 4 * k < 0xC00000 := by
  rw [winOff_eq]
  omega

/-- A window word shows the core's own state: its writes are shut out while the tile is not halted (R87). -/
theorem State.regShut_window (t : State) (m : Nat) :
    t.regShut m (Reg.TIL_WIN_PBASE_LO n w + 4 * k) = !t.halted n := by
  obtain ⟨hpart, htile, hlo, hhi⟩ := winOff_parts hw hk hn
  generalize Reg.TIL_WIN_PBASE_LO n w + 4 * k = a at hpart htile hlo hhi ⊢
  unfold State.regShut
  rw [if_neg (by simp; omega), if_neg (by unfold Reg.QE_CTX_BASE_LO Reg.QE_CTX_BASE_HI; simp; omega), if_neg (by simp; omega),
    if_neg (by simp; omega), if_neg (by simp; omega), if_neg (by unfold Reg.GAU_SHADOW_BASE_LO Reg.GAU_SHADOW_BASE_HI; simp; omega),
    if_neg (by simp; omega), if_neg (by unfold Reg.PLT_WORK_BASE_LO Reg.PLT_WORK_BASE_HI; simp; omega), if_pos (by simp; omega),
    hpart, htile, coreStateReg_window hw hk, Bool.true_and]

/-- A pair of a window takes effect as the write of its window word (R7, R85). -/
theorem State.pairTake_window (hk6 : k < 6) (heven : k % 2 = 0) (t : State) (m : Nat) (h : Option Word) (v : Word) :
    t.pairTake m (Reg.TIL_WIN_PBASE_LO n w + 4 * k) h v =
      t.windowWrite m n w (k / 2)
        (BitVec.ofNat 64 ((h.getD (t.view m (Reg.TIL_WIN_PBASE_LO n w + 4 * k))).toNat + 2 ^ 32 * v.toNat)) := by
  obtain ⟨hpart, htile, hlo, hhi⟩ := winOff_parts hw hk hn
  have hwin := winOff_window hw hk
  have hword : (0x1000 + 0x20 * w + 4 * k) % 0x20 / 8 = k / 2 := by omega
  generalize Reg.TIL_WIN_PBASE_LO n w + 4 * k = a at hpart htile hlo hhi ⊢
  unfold State.pairTake
  dsimp only
  rw [if_neg (by simp; omega), if_neg (by unfold Reg.GLB_TILE_RETIRED_LO; omega), if_neg (by unfold Reg.STY_ALARM_LO; omega),
    if_neg (by unfold Reg.PLT_FREEZE_EPOCH_LO; omega), if_neg (by simp; omega), if_neg (by simp; omega), if_neg (by simp; omega),
    hpart, htile, if_pos (by rw [coreStateReg_window hw hk]; simp; omega), if_pos (by omega), hwin, hword]

/-- CTRL of a window is written as its window word (R85). -/
theorem State.wordTake_windowCtl (hk6 : k = 6) (b : Bus) (t : State) (m : Nat) (v : Word) :
    t.wordTake b m (Reg.TIL_WIN_PBASE_LO n w + 4 * k) v = t.windowWrite m n w 3 (v.setWidth 64) := by
  obtain ⟨hpart, htile, hlo, hhi⟩ := winOff_parts hw hk hn
  have hwin := winOff_window hw hk
  generalize Reg.TIL_WIN_PBASE_LO n w + 4 * k = a at hpart htile hlo hhi ⊢
  have htil : t.tilWrite b m a v = t.windowWrite m n w 3 (v.setWidth 64) := by
    unfold State.tilWrite
    dsimp only
    rw [hpart, htile, if_neg (by omega), if_neg (by omega), if_pos (by simp; omega), if_pos (by omega), hwin]
  unfold State.wordTake
  rw [if_neg (by omega), if_neg (by omega), if_neg (by omega), if_neg (by omega), if_neg (by omega), if_neg (by omega),
    ringAt_of_no_ring (by omega)]
  dsimp only
  rw [if_neg (by omega), if_neg (by omega), if_neg (by omega), if_neg (by omega), if_neg (by omega), if_neg (by omega), htil]

end

theorem State.regIn_shut {t : State} {m a : Nat} (h : t.regShut m a = true) (b : Bus) (v : Word) :
    State.regIn b t m a v = t.refuse m a St.accessDenied := by
  unfold State.regIn
  rw [if_pos h]

/-! The word itself: written, refused, or CTRL with VALID 0 (R85). -/

section
variable {s : State} {n w i : Nat} {v : DWord}

theorem State.windowWrite_last (m : Nat) (hw : w = 15) : s.windowWrite m n w i v = s := if_pos hw

theorem State.windowWrite_legal (m : Nat) (hw : w ≠ 15) (hok : windowOk (fun j => s.winWord n w j) i v = true) :
    s.windowWrite m n w i v = s.setCore n { s.core n with win := FMap.setD (s.core n).win (4 * w + i) (windowBits i v) } :=
  (if_neg hw).trans (if_pos hok)

theorem State.windowWrite_refused (m : Nat) (hw : w ≠ 15) (hok : windowOk (fun j => s.winWord n w j) i v = false) (hi : i ≠ 3) :
    s.windowWrite m n w i v = s.refuse m (Reg.TIL_WIN_PBASE_LO n w + 8 * i) St.invalidField :=
  (if_neg hw).trans ((if_neg (by simp [hok])).trans (if_neg hi))

theorem State.windowWrite_invalid (m : Nat) (hw : w ≠ 15) (hok : windowOk (fun j => s.winWord n w j) i v = false) (hi : i = 3) :
    s.windowWrite m n w i v =
      (s.setCore n { s.core n with win := FMap.setD (s.core n).win (4 * w + i) (windowBits 3 v &&& 0x1E) }).refuse m
        (Reg.TIL_WIN_PBASE_LO n w + 8 * i) St.invalidField :=
  (if_neg hw).trans ((if_neg (by simp [hok])).trans (if_pos hi))

end

theorem windowOk_iff (get : Nat → DWord) (i : Nat) (v : DWord) :
    windowOk get i v = true ↔
      let f (j : Nat) : Nat := (if j = i then windowBits i v else get j).toNat
      (f 3).testBit 0 = false ∨ (f 0 ≤ f 1 ∧ f 2 + (f 1 - f 0) ≤ 0xFFFFFFFFF000) := by
  unfold windowOk
  simp only [Bool.or_eq_true, Bool.not_eq_true', Bool.and_eq_true, decide_eq_true_eq]

/-! Stream messages: what arrives at the channel of its generation, and at another (R162, R163). -/

section
variable {s : State} {n c gen : Nat}

theorem State.streamArrive_dropped (b : NocBody) (h : (s.ungate n).ichValid n c = false ∨ (s.ungate n).ichGen n c ≠ gen) :
    s.streamArrive n c gen b = s.ungate n :=
  if_pos (by simpa using h)

section
variable (hv : (s.ungate n).ichValid n c = true) (hg : (s.ungate n).ichGen n c = gen)
include hv hg

theorem State.streamArrive_elems (es : List Nat) (last bad : Bool) :
    s.streamArrive n c gen (.elems es last bad) =
      (s.ungate n).setBuffered n c ((s.ungate n).buffered n c ++ es.map (fun e => ⟨e, false, bad⟩)) :=
  if_neg (by simp [hv, hg])

theorem State.streamArrive_endMark :
    s.streamArrive n c gen .endMark = (s.ungate n).setFld (Reg.TIL_ICH_CTL n c) 1 1 1 :=
  if_neg (by simp [hv, hg])

end

/-- A double error of the payload poisons the elements, and leaves an end marker as it is (R359). -/
theorem checkedBody_elems (payload : Ecc) (es : List Nat) (last bad : Bool) :
    checkedBody payload (.elems es last bad) = .elems es last (bad || payload = .uncorrectable) := rfl

theorem checkedBody_endMark (payload : Ecc) : checkedBody payload .endMark = .endMark := rfl

theorem State.creditArrive_dropped (k : Nat) (h : (s.ungate n).ochValid n c = false ∨ (s.ungate n).ochGen n c ≠ gen) :
    s.creditArrive n c gen k = s.ungate n :=
  if_pos (by simpa using h)

theorem satAdd_eq_min (w a b : Nat) : satAdd w a b = min (a + b) (2 ^ w - 1) := by
  unfold satAdd
  split <;> omega

theorem State.creditArrive_taken (k : Nat) (hv : (s.ungate n).ochValid n c = true) (hg : (s.ungate n).ochGen n c = gen) :
    s.creditArrive n c gen k =
      (s.ungate n).wr (Reg.TIL_OCH_CREDIT n c) (BitVec.ofNat 32 (min ((s.ungate n).ochCredit n c + k) 0xFFFFFFFF)) := by
  have htake : s.creditArrive n c gen k =
      (s.ungate n).wr (Reg.TIL_OCH_CREDIT n c) (BitVec.ofNat 32 (satAdd 32 ((s.ungate n).ochCredit n c) k)) :=
    if_neg (by simp [hv, hg])
  rw [htake, satAdd_eq_min, show 2 ^ 32 - 1 = 0xFFFFFFFF from rfl]

end

/-- The first message of the mesh that may arrive at the channel is taken from it and served (R358, R360). -/
theorem State.nocArrive_mesh {s : State} {t ch n : Nat} {p : NocMsg → Bool} {act : State → Nat → NocMsg → State} {m : NocMsg}
    (hn : s.localTile t = some n) (hp : s.pllStopped n = false) {q : NocMsg → Bool}
    (hq : q = fun m => m.kind = 0 && m.tile = t && m.ch = ch && p m && !(m.sender < 64 && s.meshHolds m.sender n))
    (hm : s.noc.find? q = some m) :
    s.nocArrive t ch none p act = act { s with noc := s.noc.eraseP q } n m := by
  subst hq
  unfold State.nocArrive
  rw [State.onTile_of hn, if_neg (by simp [hp])]
  dsimp only [State.takeNoc]
  rw [hm]

/-- A message that the other half has sent is served as it comes (R172). -/
theorem State.nocArrive_far {s : State} {t ch n : Nat} {p : NocMsg → Bool} {act : State → Nat → NocMsg → State} {m : NocMsg}
    (hn : s.localTile t = some n) (hp : s.pllStopped n = false) (hkind : m.kind = 0) (htile : m.tile = t) (hch : m.ch = ch)
    (hpm : p m = true) : s.nocArrive t ch (some m) p act = act s n m := by
  unfold State.nocArrive
  rw [State.onTile_of hn, if_neg (by simp [hp])]
  exact if_pos (by simp [hkind, htile, hch, hpm])

/-! RESET of a channel (R165). -/

/-- What a channel holds once it is reset: nothing buffered and no end marker, or no credit and not closed. -/
def State.channelEmptied (s : State) (n c : Nat) (inbound : Bool) : State :=
  if inbound then (s.setBuffered n c []).setFld (Reg.TIL_ICH_CTL n c) 1 1 0
  else (s.wr (Reg.TIL_OCH_CREDIT n c) 0).setFld (Reg.TIL_OCH_CTL n c) 1 1 0

theorem State.channelCtl_noReset {s : State} {n c : Nat} {inbound : Bool} {v : Word} (hv : v.toNat.testBit 0 = false) :
    s.channelCtl n c inbound v = s :=
  if_neg (by simp [hv])

theorem State.channelCtl_reset {s : State} {n c : Nat} {inbound : Bool} {v : Word} (hv : v.toNat.testBit 0 = true) :
    s.channelCtl n c inbound v = (s.channelEmptied n c inbound).wakeReset n c inbound (v.toNat / 2 ^ 16) :=
  if_pos hv

theorem State.wakeReset_waiting {s : State} {n c rs : Nat} {inbound : Bool} (hw : (s.core n).chWait = some (inbound, c))
    (hr : s.running n = true) :
    s.wakeReset n c inbound rs =
      (s.setCore n { s.core n with chWait := none, vsent := 0 }).except n ⟨0x26, rs, c, 0⟩ :=
  if_pos (by simp [hw, hr])

theorem State.wakeReset_idle {s : State} {n c rs : Nat} {inbound : Bool}
    (h : (s.core n).chWait ≠ some (inbound, c) ∨ s.running n = false) : s.wakeReset n c inbound rs = s :=
  if_neg (by simpa [imp_iff_not_or] using h)

/-- Settles O25: a window word by its place in a pair, a stream message by its channel's generation, a reset by its waiter. -/
theorem tileWindowsAndChannelsTakeTheirCommands : Obligations.TileWindowsAndChannelsTakeTheirCommands := by
  refine ⟨?words, ?window, ?streams, ?resets⟩
  case words =>
    intro s u m t n w k v hm ht hn hn64 hw hk off hg hu hrow
    have hexec (r : State) (h : State.regIn (busAt 65) u m off v = r) :
        exec (.windowWrite m t w k v) s = .next (s.seal r.acked) := by
      refine (done_of (by simp [okMaster, okTile, hm, ht, hw, hk]) _ _).trans ?_
      rw [State.onTile_of hn, State.regPut_of hg hu, h]
    have hkey : regKey m off = off := regKey_of_no_view (by have := winOff_eq n w k; omega)
    have hshut : u.regShut m off = !u.halted n := State.regShut_window hw (by omega) hn64 u m
    refine ⟨fun hh => hexec _ (State.regIn_shut (by simp [hshut, hh]) _ _), fun hh => ?_⟩
    have hopen : u.regShut m off = false := by simp [hshut, hh]
    refine ⟨fun hk6 heven hlo => hexec _ ?_, fun hk6 hodd hhi hlo h hheld hown => hexec _ ?_, fun hk6 hhi hlo => hexec _ ?_⟩
    · rw [State.regIn_lo hopen hrow hlo, hkey]
    · have hpair : off - 4 = Reg.TIL_WIN_PBASE_LO n w + 4 * (k - 1) := by omega
      have h4 : 4 ≤ off := by omega
      rw [State.regIn_hi_own hopen hrow h4 hhi hlo (h := h) (by rw [hkey]; exact hheld) hown, hkey, hpair,
        State.pairTake_window hw (by omega) hn64 (by omega) (by omega)]
      rw [show (k - 1) / 2 = k / 2 by omega, Option.getD_some]
    · rw [State.regIn_single hopen hrow hlo (fun _ => hhi), State.wordTake_windowCtl hw (by omega) hn64 hk6]
  case window =>
    intro s m n w i v hi word f legal put off
    have hok : windowOk (fun j => s.winWord n w j) i v = true ↔ legal := windowOk_iff _ _ _
    refine ⟨State.windowWrite_last m, fun hw hl => ?_, fun hw hl hi3 => ?_, fun hw hl hi3 => ?_⟩
    · exact State.windowWrite_legal m (by omega) (hok.mpr hl)
    · exact State.windowWrite_refused m (by omega) (Bool.eq_false_iff.mpr (mt hok.mp hl)) (by omega)
    · have hword : windowBits 3 v = word := by simp only [windowBits, word, hi3, if_true]
      have hbad := State.windowWrite_invalid m (by omega) (Bool.eq_false_iff.mpr (mt hok.mp hl)) hi3
      rw [hword] at hbad
      exact hbad
  case streams =>
    intro s t ch n payload ht hch hn hpll waits
    have hfwd : waits true =
        fun m => m.kind = 0 && m.tile = t && m.ch = ch && nocForward m && !(m.sender < 64 && s.meshHolds m.sender n) := by
      funext m
      simp only [waits, beq_true]
    have hback : waits false =
        fun m => m.kind = 0 && m.tile = t && m.ch = ch && !nocForward m && !(m.sender < 64 && s.meshHolds m.sender n) := by
      funext m
      simp only [waits, beq_false]
    have harrive (far : Option NocMsg) (hfar : okFar far = true) :
        exec (.streamElementArrive t ch far payload) s = .next (s.seal (s.elementArrive t ch far payload)) :=
      done_of (by simp [okTile, ht, hch, hfar]) _ _
    have hcredit (far : Option NocMsg) (hfar : okFar far = true) :
        exec (.streamCreditReturn t ch far) s = .next (s.seal (s.creditReturn t ch far)) :=
      done_of (by simp [okTile, ht, hch, hfar]) _ _
    refine ⟨fun m hm => ?mesh, fun m k hm hbody => ?credit, fun m hfar hkind htile hmch => ⟨fun hf => ?far, fun k hbody => ?farCredit⟩⟩
    case mesh =>
      intro u
      have htaken : s.elementArrive t ch none payload =
          State.streamArrive { s with noc := s.noc.eraseP (waits true) } n ch m.gen (checkedBody payload m.body) :=
        State.nocArrive_mesh hn hpll hfwd hm
      rw [harrive none rfl, htaken]
      refine ⟨fun hv hgen => ⟨fun es l b hb => ?_, fun hb => ?_⟩, fun hdrop => ?_⟩
      · rw [hb, checkedBody_elems, State.streamArrive_elems hv hgen]
      · rw [hb, checkedBody_endMark, State.streamArrive_endMark hv hgen]
      · rw [State.streamArrive_dropped _ hdrop]
    case credit =>
      intro u
      have htaken : s.creditReturn t ch none =
          State.creditArrive { s with noc := s.noc.eraseP (waits false) } n ch m.gen k := by
        unfold State.creditReturn
        rw [State.nocArrive_mesh hn hpll hback hm, hbody]
      rw [hcredit none rfl, htaken]
      refine ⟨fun hv hgen => ?_, fun hdrop => ?_⟩
      · rw [State.creditArrive_taken _ hv hgen]
      · rw [State.creditArrive_dropped _ hdrop]
    case far =>
      rw [harrive _ hfar, State.elementArrive, State.nocArrive_far hn hpll hkind htile hmch hf]
    case farCredit =>
      rw [hcredit _ hfar, State.creditReturn, State.nocArrive_far hn hpll hkind htile hmch (by simp [nocForward, hbody]), hbody]
  case resets =>
    intro s u m t n ch inbound v hm ht hch hn hreach
    have hexec : exec (.channelReset m t inbound ch v) s = .next (s.seal (u.channelCtl n ch inbound v).acked) := by
      refine (done_of (by simp [okMaster, okTile, hm, ht, hch]) _ _).trans ?_
      rw [State.onTile_of hn, State.regDo_of hreach]
    refine ⟨fun hv => ?_, fun hv => ?_⟩
    · rw [hexec, State.channelCtl_noReset hv]
    · intro e
      have he : u.channelEmptied n ch inbound = e := rfl
      rw [hexec, State.channelCtl_reset hv, he]
      refine ⟨fun hw hr => ?_, fun hidle => ?_⟩
      · rw [State.wakeReset_waiting hw hr]
      · rw [State.wakeReset_idle hidle]

end Sys2Proof.Machine
end

section
/-! Counters, searches, streams, decoder contexts and atomics of a tile (R139 to R151): what each instruction comes to where its word
is legal. -/

namespace Sys2Proof.Machine

/-! Counters (R139). -/

section
variable {x : Ctx} {s : State}

theorem vhistInsn_eq (hp : plainOk x [fB x.w] = true) (hd : fD x.w = 0) :
    vhistInsn x s = s.histogram x (if fn6 x.w = 0 then 4 else 8) (fun _ => 1) :=
  if_neg (by simp [hp, hd])

theorem vhistaddInsn_eq (hp : plainOk x [fD x.w, fB x.w] = true) (he : x.k.eb = 8) :
    vhistaddInsn x s = s.histogram x 8 (x.k.elem 8 (fD x.w)) :=
  if_neg (by simp [hp, he])

/-- A counter in the bench takes its weight. -/
theorem State.benchCount_bench {ea : DWord} {cb : Nat} (add i : Nat) (h : InBench ea cb)
    (hp : s.anyPoison (benchAt x.c (benchOff ea)) cb = false) :
    s.benchCount x ea cb add i =
      (.ok (decide (2 ^ (8 * cb) ≤ leNat (s.bytes (benchAt x.c (benchOff ea)) cb) + add)),
        s.benchStore x.c (benchOff ea) (natLE cb (leNat (s.bytes (benchAt x.c (benchOff ea)) cb) + add)) false) := by
  obtain ⟨hcanon, halign, hlo, hhi⟩ := h
  unfold State.benchCount
  dsimp only
  rw [if_neg (by simp [hcanon, halign]; omega)]
  exact if_neg (Bool.eq_false_iff.mp hp)

/-- The address of the counter of element `i`. -/
def Ctx.counter (x : Ctx) (cb i : Nat) : DWord := x.xa + BitVec.ofNat 64 (cb * x.k.elem x.k.eb (fB x.w) i)

theorem State.histogram_one {cb i : Nat} {weight : Nat → Nat} (hb : x.k.vbegin = i) (hv : x.k.vl = i + 1)
    (hg : x.k.governs x.k.eb (fn4 x.w) i = true) (h : InBench (x.counter cb i) cb)
    (hp : s.anyPoison (benchAt x.c (benchOff (x.counter cb i))) cb = false) :
    let n := leNat (s.bytes (benchAt x.c (benchOff (x.counter cb i))) cb) + weight i
    let t := s.benchStore x.c (benchOff (x.counter cb i)) (natLE cb n) false
    s.histogram x cb weight = vdone ((t.core x.c).addVflags (if 2 ^ (8 * cb) ≤ n then flOVU else 0)) t := by
  intro n t
  have hcount : s.benchCount x (x.counter cb i) cb (weight i) i = (.ok (decide (2 ^ (8 * cb) ≤ n)), t) :=
    State.benchCount_bench _ _ h hp
  rw [Ctx.counter] at hcount
  unfold State.histogram
  dsimp only
  rw [Core.strip_one hb hv]
  dsimp only [List.foldl]
  rw [if_neg (by simp [hg]), hcount]
  simp only [Nat.zero_or, decide_eq_true_eq]

end

/-! A search of one key (R140, R141). -/

/-- How a VGAUGE of one key ends with the Gauge's answer. -/
def Ctx.searched (x : Ctx) (a : GAnswer) (t : State) : Out :=
  if a.status = St.ok then
    vdone ((t.setCore x.c ((t.core x.c).putElem 8 (fD x.w) 0 a.word)).core x.c)
      (t.setCore x.c ((t.core x.c).putElem 8 (fD x.w) 0 a.word))
  else if a.status = St.held then .wait t
  else .trap ⟨0x23, a.status, 0, 0⟩ ((t.core x.c).setVbegin 0) t

theorem vgaugeInsn_one {x : Ctx} {s u t : State} {wd : Nat} {a : GAnswer} (het : x.k.et = 6)
    (hok : plainOk x [fD x.w, fA x.w] = true) (hv : x.xb.toNat < 2 ^ 16) (hzero : bits x.xb.toNat 7 4 = 0)
    (hrank : bits x.xb.toNat 15 8 ≠ 255) (htable : s.tileTable (bits x.xb.toNat 3 0) = (true, wd, u)) (hwd : 0 < wd)
    (hshare : 1 < wd → sharesGroup x.k (fD x.w) 1 (fA x.w) 1 = false) (hvl : x.k.vl = wd) (hb : x.k.vbegin = 0)
    (hg : x.k.governs 8 (fn4 x.w) 0 = true)
    (ha : u.tileSearch x (bits x.xb.toNat 3 0) (bits x.xb.toNat 15 8)
      ((List.range wd).map (fun i => BitVec.ofNat 64 (x.k.elem 8 (fA x.w) i))) = (a, t)) :
    vgaugeInsn x s = x.searched a t := by
  have hrange : List.range (x.k.vl / wd) = [0] := by rw [hvl, Nat.div_self hwd]; rfl
  unfold vgaugeInsn
  dsimp only
  rw [if_neg (by simp [het, hok]), if_neg (by simp [hzero, hrank]; omega), htable]
  dsimp only
  rw [if_neg (by simp), if_neg (by simpa [hvl] using hshare), hrange]
  dsimp only [List.foldl]
  rw [if_neg (by simp [hb, hg])]
  simp only [Nat.zero_mul, Nat.zero_add]
  rw [ha]
  dsimp only
  unfold Ctx.searched
  by_cases hst : a.status = St.ok
  · rw [if_neg (not_not.mpr hst), if_pos hst]
  · rw [if_pos hst, if_neg hst]
    dsimp only
    rw [Nat.zero_mul]

/-- A search of the module's own idle Gauge by a tile that its tables admit (R140, R178). -/
theorem State.tileSearch_front {x : Ctx} {s : State} {tb rank : Nat} {key : List DWord} (hrole : s.role ≠ some true)
    (hidle : s.GaugeIdle) (hsearch : s.Searches (coreMaster x.c) tb key) :
    s.tileSearch x tb rank key =
      (⟨St.ok, gResult (s.gMatches tb key)[rank]? (s.gMatches tb key).length, none⟩, s.countWrap (Reg.GAU_TBL_SEARCHES tb)) := by
  unfold State.tileSearch
  rw [if_neg hrole, State.gAsk_free hidle hsearch]

/-! Stream channels (R142 to R144). -/

section
variable {x : Ctx} {s : State}

section
variable (hok : plainOk x [fA x.w] = true) (hz : fB x.w = 0)
include hok hz

theorem vsendInsn_unconfigured (hv : s.ochValid x.c (fD x.w) = false) :
    vsendInsn x s = x.raise s (analyticExc 0x24 (fD x.w)) :=
  (if_neg (by simp [hok, hz])).trans (if_pos (by simp [hv]))

variable (hv : s.ochValid x.c (fD x.w) = true) (he : s.ochEb x.c (fD x.w) = x.k.eb)
include hv he

theorem vsendInsn_closed (hcl : s.ochClosed x.c (fD x.w) = true) :
    vsendInsn x s = x.raise s (analyticExc 0x25 (fD x.w)) :=
  (if_neg (by simp [hok, hz])).trans ((if_neg (by simp [hv, he])).trans (if_pos hcl))

/-- VSEND on an open channel of the element size: it completes where all its elements have left, else it waits. -/
theorem vsendInsn_open (hcl : s.ochClosed x.c (fD x.w) = false) :
    let rest := (x.k.activeElems (fn4 x.w) (fA x.w)).drop x.k.vsent
    let r := s.sendElems x.c (fD x.w) rest
    vsendInsn x s = if r.1 = rest.length then vdone (r.2.core x.c).settledCh r.2
      else chWaits r.2 x false (fD x.w) (x.k.vsent + r.1) :=
  (if_neg (by simp [hok, hz])).trans ((if_neg (by simp [hv, he])).trans (if_neg (by simp [hcl])))

end

/-- Elements for which there is credit leave for the mesh together (R142, R162). -/
theorem State.sendElems_mesh {n c : Nat} {es : List Nat} (hpos : 0 < es.length) (hcr : es.length ≤ s.ochCredit n c)
    (hk : s.ochKind n c ≠ 1) (hx : s.crosses (s.ochMsg n c (.elems es true false)) = false) :
    s.sendElems n c es = (es.length, State.wr { s with noc := s.noc ++ [s.ochMsg n c (.elems es true false)] }
      (Reg.TIL_OCH_CREDIT n c) (BitVec.ofNat 32 (s.ochCredit n c - es.length))) := by
  have hnonempty : es.isEmpty = false := by cases es <;> simp at hpos ⊢
  have hsend : s.sendStream (s.ochMsg n c (.elems es true false)) =
      (true, { s with noc := s.noc ++ [s.ochMsg n c (.elems es true false)] }) := by
    unfold State.sendStream State.sendNoc
    rw [if_neg (by simp [hx]), if_neg (by simp [hx])]
  have htrue : decide (es.length = es.length) = true := decide_eq_true rfl
  unfold State.sendElems
  simp only [hk, if_false]
  rw [List.take_of_length_le hcr, hnonempty, htrue, hsend]
  rfl

section
variable (hok : plainOk x [fD x.w] = true) (hz : fB x.w = 0)
include hok hz

theorem vrecvInsn_unconfigured (hv : s.ichValid x.c (fA x.w) = false) :
    vrecvInsn x s = x.raise s (analyticExc 0x24 (fA x.w)) :=
  (if_neg (by simp [hok, hz])).trans (if_pos (by simp [hv]))

variable (hv : s.ichValid x.c (fA x.w) = true) (he : s.ichEb x.c (fA x.w) = x.k.eb)
include hv he

theorem vrecvInsn_short (hq : (s.buffered x.c (fA x.w)).length < x.k.vl) (hend : s.ichEnd x.c (fA x.w) = false) :
    vrecvInsn x s = chWaits s x true (fA x.w) 0 :=
  (if_neg (by simp [hok, hz])).trans ((if_neg (by simp [hv, he])).trans (if_pos (by simp [hq, hend])))

variable (hq : x.k.vl ≤ (s.buffered x.c (fA x.w)).length ∨ s.ichEnd x.c (fA x.w) = true)
include hq

theorem vrecvInsn_poisoned
    (hbad : ∃ e ∈ (s.buffered x.c (fA x.w)).take (min x.k.vl (s.buffered x.c (fA x.w)).length), e.bad = true) :
    vrecvInsn x s = .trap (Exc.ofStatus St.poisonedData 0) (s.core x.c).settledCh s :=
  (if_neg (by simp [hok, hz])).trans ((if_neg (by simp [hv, he])).trans ((if_neg (by simpa [imp_iff_not_or] using hq)).trans
    (if_pos (List.any_eq_true.mpr hbad))))

theorem vrecvInsn_taken
    (hgood : ∀ e ∈ (s.buffered x.c (fA x.w)).take (min x.k.vl (s.buffered x.c (fA x.w)).length), e.bad = false) :
    let n := min x.k.vl (s.buffered x.c (fA x.w)).length
    let r := takeElems x.k.eb s.fresh ((s.buffered x.c (fA x.w)).take n)
    let t := (State.setBuffered { s with fresh := r.2 } x.c (fA x.w) ((s.buffered x.c (fA x.w)).drop n)).returnCredit x.c (fA x.w) n
    vrecvInsn x s = vdone ((((t.core x.c).putElems (fD x.w) r.1).putPred (fn4 x.w) (fun i => decide (i < n))).settledCh) t :=
  (if_neg (by simp [hok, hz])).trans ((if_neg (by simp [hv, he])).trans ((if_neg (by simpa [imp_iff_not_or] using hq)).trans
    (if_neg (by simpa using hgood))))

end

section
variable (hp : x.p = .none) (ha : fA x.w = 0) (hz : fB x.w = 0) (hg : fn4 x.w = 0)
include hp ha hz hg

theorem scloseInsn_unconfigured (hv : s.ochValid x.c (fD x.w) = false) :
    scloseInsn x s = x.raise s (analyticExc 0x24 (fD x.w)) :=
  (if_neg (by simp [hp, ha, hz, hg])).trans (if_pos (by simp [hv]))

variable (hv : s.ochValid x.c (fD x.w) = true)
include hv

theorem scloseInsn_closed (hcl : s.ochClosed x.c (fD x.w) = true) :
    scloseInsn x s = x.raise s (analyticExc 0x25 (fD x.w)) :=
  (if_neg (by simp [hp, ha, hz, hg])).trans ((if_neg (by simp [hv])).trans (if_pos hcl))

/-- SCLOSE completes once the end marker has left. -/
theorem scloseInsn_open {left : Bool} {t : State} (hcl : s.ochClosed x.c (fD x.w) = false)
    (h : s.closeChannel x.c (fD x.w) = (left, t)) :
    scloseInsn x s = if left = true then vdone (t.core x.c) t else .wait t := by
  unfold scloseInsn
  rw [if_neg (by simp [hp, ha, hz, hg]), if_neg (by simp [hv]), if_neg (by simp [hcl]), h]

end

/-- An end marker leaves for the mesh and closes the channel (R144). -/
theorem State.closeChannel_mesh {n c : Nat} (hk : s.ochKind n c ≠ 1) (hx : s.crosses (s.ochMsg n c .endMark) = false) :
    s.closeChannel n c = (true, State.setFld { s with noc := s.noc ++ [s.ochMsg n c .endMark] } (Reg.TIL_OCH_CTL n c) 1 1 1) := by
  have hsend : s.sendStream (s.ochMsg n c .endMark) = (true, { s with noc := s.noc ++ [s.ochMsg n c .endMark] }) := by
    unfold State.sendStream State.sendNoc
    rw [if_neg (by simp [hx]), if_neg (by simp [hx])]
  unfold State.closeChannel
  rw [if_neg hk, hsend]
  rfl

/-! The state words of channels and contexts (R144, R146). -/

section
variable (hs : statOk x = true)
include hs

theorem sstatOutInsn_eq :
    sstatOutInsn x s = vdone (x.k.setX (fD x.w) (BitVec.ofNat 64
      (2 ^ 63 * bit01 (s.ochClosed x.c (fA x.w)) + 2 ^ 62 * bit01 (s.ochValid x.c (fA x.w)) + s.ochCredit x.c (fA x.w)))) s :=
  if_neg (by simp [hs])

theorem sstatInInsn_eq :
    sstatInInsn x s = vdone (x.k.setX (fD x.w) (BitVec.ofNat 64
      (2 ^ 63 * bit01 (s.ichEnd x.c (fA x.w)) + 2 ^ 62 * bit01 (s.ichValid x.c (fA x.w)) + (s.buffered x.c (fA x.w)).length))) s :=
  if_neg (by simp [hs])

theorem vdstatInsn_eq (ha : fA x.w ≤ 1) :
    let dc := x.k.dec (fA x.w)
    vdstatInsn x s = vdone (x.k.setX (fD x.w) (BitVec.ofNat 64 (if dc.opened then
      2 ^ 62 * (if dc.error.isSome then 3 else if dc.delivered = dc.count then 2 else 1) + 2 ^ 32 * dc.error.getD 0
        + (dc.count - dc.delivered) else 0))) s := by
  intro dc
  have hdc : x.k.dec (fA x.w) = dc := rfl
  unfold vdstatInsn
  dsimp only
  rw [if_neg (by simp [hs]; omega), hdc]
  cases dc.opened <;> rfl

theorem vdcloseInsn_eq (hd : fD x.w = 0) (ha : fA x.w ≤ 1) :
    vdcloseInsn x s = vdone (x.k.setDec (fA x.w) { x.k.dec (fA x.w) with opened := false, error := none }) s :=
  if_neg (by simp [hs, hd]; omega)

end

/-! Decoder contexts (R145 to R148). -/

/-- The operands XB and XC of a VDOPEN that a context can be opened with. -/
structure OpenOperands (x : Ctx) (cw : DWord) : Prop where
  base : x.xa.toNat % 64 = 0
  word : x.xb.toNat < 2 ^ 57
  elems : 0 < bits x.xb.toNat 56 32
  most : bits x.xb.toNat 56 32 ≤ 16777216
  length : 0 < bits x.xb.toNat 31 0
  codec : cw.toNat < 2 ^ 17
  ok : (Codec.ofWord cw.toNat).ok = true

theorem vdopenInsn_eq {xc : Nat} (hp : x.p = .operands xc 0) (hd : fD x.w ≤ 1) (hg : fn4 x.w = 0)
    (ho : OpenOperands x (x.k.xreg xc))
    (hsib : (Codec.ofWord (x.k.xreg xc).toNat).sibEn = true → fD x.w = 1 ∧ x.k.dec0.opened = true ∧ x.k.dec0.error = none ∧
      x.k.dec0.count = bits x.xb.toNat 56 32 ∧ x.k.dec0.delivered ≤ siblingReach x.k.dec0 ∧
      x.k.dec0.fields.width = (Codec.ofWord (x.k.xreg xc).toNat).sibWidth) :
    vdopenInsn x s = vdone (x.k.setDec (fD x.w)
      { Decoder.closed with
        opened := true, base := x.xa, count := bits x.xb.toNat 56 32, length := bits x.xb.toNat 31 0, codec := x.k.xreg xc }) s := by
  have hthird : x.p.third = some xc := by rw [hp]; rfl
  obtain ⟨hbase, hword, helems, hmost, hlen, hcodec, hok⟩ := ho
  unfold vdopenInsn
  dsimp only
  rw [hthird]
  dsimp only
  rw [if_neg (by simp [hg]; omega), if_neg (by simp [hbase, hok]; omega)]
  refine if_neg ?_
  cases he : (Codec.ofWord (x.k.xreg xc).toNat).sibEn with
  | false => simp
  | true =>
    obtain ⟨hd1, hopen, herr, hcount, hreach, hwidth⟩ := hsib he
    simp [hd1, hopen, herr, hcount, Nat.not_lt.mpr hreach, hwidth]

section
variable (hok : plainOk x [fD x.w] = true) (hz : fB x.w = 0) (ha : fA x.w ≤ 1)
include hok hz ha

theorem vdecodeInsn_closed (ho : (x.k.dec (fA x.w)).opened = false) : vdecodeInsn x s = x.raise s (decodeState (fA x.w)) :=
  (if_neg (by simp [hok, hz]; omega)).trans (if_pos (by simp [ho]))

variable (ho : (x.k.dec (fA x.w)).opened = true) (herr : (x.k.dec (fA x.w)).error = none)
  (he : (x.k.dec (fA x.w)).fields.eb = x.k.eb)
include ho herr he

section
variable {n : Nat} (hn : n = min x.k.vl ((x.k.dec (fA x.w)).count - (x.k.dec (fA x.w)).delivered))
  (hstep : siblingInStep x.k (fA x.w) n = true) {t : State}
include hn hstep

theorem vdecodeInsn_waits (ht : s.decodeAhead x (fA x.w) ((x.k.dec (fA x.w)).delivered + n) = (false, t)) :
    vdecodeInsn x s = .wait t := by
  subst hn
  unfold vdecodeInsn
  dsimp only
  rw [if_neg (by simp [hok, hz]; omega), if_neg (by simp [ho, herr, he]), if_neg (by simp [hstep]), ht]
  rfl

variable (ht : s.decodeAhead x (fA x.w) ((x.k.dec (fA x.w)).delivered + n) = (true, t))
include ht

theorem vdecodeInsn_fails (hlen : ((t.core x.c).dec (fA x.w)).values.length < (x.k.dec (fA x.w)).delivered + n) :
    let dd := (t.core x.c).dec (fA x.w)
    let e := dd.fail.getD (St.lengthMismatch, dd.base.toNat)
    vdecodeInsn x s = .trap ⟨0x27, e.1, fA x.w, BitVec.ofNat 64 e.2⟩ ((t.core x.c).setDec (fA x.w) { dd with error := some e.1 }) t := by
  intro dd e
  subst hn
  unfold vdecodeInsn
  dsimp only
  rw [if_neg (by simp [hok, hz]; omega), if_neg (by simp [ho, herr, he]), if_neg (by simp [hstep]), ht]
  exact (if_neg (by simp)).trans (if_pos hlen)

/-- The core that VDECODE leaves: `n` more values of the context in the active elements of VD. -/
def Ctx.delivered (x : Ctx) (q : Core) (n : Nat) : Core :=
  let dd := q.dec (fA x.w)
  ((((dd.values.drop (x.k.dec (fA x.w)).delivered).take n).zip (List.range n)).foldl
    (fun q e => if x.k.governs x.k.eb (fn4 x.w) e.2 then q.putElem x.k.eb (fD x.w) e.2 e.1 else q) q).setDec (fA x.w)
      { dd with delivered := (x.k.dec (fA x.w)).delivered + n }

theorem vdecodeInsn_delivers (hlen : (x.k.dec (fA x.w)).delivered + n ≤ ((t.core x.c).dec (fA x.w)).values.length) :
    vdecodeInsn x s = vdone (x.delivered (t.core x.c) n) t := by
  subst hn
  unfold vdecodeInsn
  dsimp only
  rw [if_neg (by simp [hok, hz]; omega), if_neg (by simp [ho, herr, he]), if_neg (by simp [hstep]), ht]
  exact (if_neg (by simp)).trans (if_neg (Nat.not_lt.mpr hlen))

end
end

theorem Core.setDec_dec (k : Core) (i : Nat) : k.setDec i (k.dec i) = k := by
  unfold Core.setDec Core.dec
  split <;> rfl

/-- A context that holds the values wanted needs no decoding ahead (R146). -/
theorem State.decodeAhead_held {i want : Nat} (hfree : i = 1 → (s.core x.c).dec1.fields.sibEn = false)
    (hlen : want ≤ ((s.core x.c).dec i).values.length) : s.decodeAhead x i want = (true, s.setCore x.c (s.core x.c)) := by
  have hto : s.decodeTo x (s.core x.c).dec0 want (want + 1) ((s.core x.c).dec i) = (true, (s.core x.c).dec i, s) := by
    rw [State.decodeTo, if_pos (by simp [hlen])]
  have hbound : (decide (i = 1) && (s.core x.c).dec1.fields.sibEn) = false := by simpa using hfree
  unfold State.decodeAhead
  simp only [hbound, Bool.false_eq_true, if_false, Bool.not_true]
  rw [hto]
  dsimp only
  rw [Core.setDec_dec]

/-! Atomics (R149, R151). -/

/-- VAMO at element `i`, after what the elements before it have come to (R109, R151). -/
def Ctx.amoAt (x : Ctx) (op : Nat) (new : Nat → Nat) (acc : VProg × State) (i : Nat) : VProg × State :=
  match acc.1 with
  | .go =>
    if x.k.governs x.k.eb (fn4 x.w) i then
      let ea := x.xa + BitVec.ofNat 64 (x.index i * x.k.eb)
      if misaligned ea x.k.eb then (.fault i (Exc.misaligned ea), acc.2)
      else
        match acc.2.atomic x op ea x.k.eb (BitVec.ofNat 64 (x.k.elem x.k.eb (fD x.w) i)) (BitVec.ofNat 64 (new i)) with
        | (.data d, s) => (.go, s.setCore x.c ((s.core x.c).putElem x.k.eb (fD x.w) i (leNat d)))
        | (.exc e, s) => (.fault i e, s)
        | (.wait, s) => (.wait i, s)
    else acc
  | _ => acc

section
variable {op : Nat} {new : Nat → Nat}

theorem vamoInsn_eq (hop : vamoOp (fn6 x.w) (etSigned x.k.et) = some op) (hsize : x.k.eb = 4 ∨ x.k.eb = 8)
    (hgroups : x.k.groupsOk [fD x.w, fB x.w] = true) (hpred : x.k.predsOk [fn4 x.w] = true)
    (hplain : fn6 x.w ≠ 6 → x.p = .none ∧ ∀ i, new i = 0)
    (hcas : fn6 x.w = 6 → ∃ r, x.p = .operands r 0 ∧ x.k.groupsOk [r] = true ∧ ∀ i, new i = x.k.elem x.k.eb r i) :
    vamoInsn x s = x.vend (x.k.strip.foldl (x.amoAt op new) (.go, s)) := by
  have heb : (decide (x.k.eb ≠ 4) && decide (x.k.eb ≠ 8)) = false := by
    rcases hsize with h | h <;> simp [h]
  unfold vamoInsn
  dsimp only
  rw [hop]
  dsimp only
  by_cases hf : fn6 x.w = 6
  · obtain ⟨r, hp, hr, hnew⟩ := hcas hf
    have hthird : x.p.third = some r := by rw [hp]; rfl
    have hall : x.k.groupsOk ([fD x.w, fB x.w] ++ [r]) = true := by rw [Core.groupsOk_append, hgroups, hr]; rfl
    have hnew' : new = x.k.elem x.k.eb r := funext hnew
    subst hnew'
    rw [hthird, if_neg (by rw [heb, Option.toList_some, hall, hpred]; simp [hf])]
    rfl
  · obtain ⟨hp, hnew⟩ := hplain hf
    have hthird : x.p.third = none := by rw [hp]; rfl
    have hnew' : new = fun _ => 0 := funext hnew
    subst hnew'
    rw [hthird, if_neg (by rw [heb, Option.toList_none, List.append_nil, hgroups, hpred]; simp [hf, hp])]
    rfl

theorem amoAll_inactive (h : ∀ i, x.k.vbegin ≤ i → i < x.k.vl → x.k.governs x.k.eb (fn4 x.w) i = false) :
    x.k.strip.foldl (x.amoAt op new) (.go, s) = (.go, s) := by
  refine foldl_same _ fun i hi => ?_
  obtain ⟨hlo, hhi⟩ := mem_strip hi
  exact if_neg (by simp [h i hlo hhi])

variable {i : Nat} (hg : x.k.governs x.k.eb (fn4 x.w) i = true)
include hg

theorem amoAt_misaligned (hm : misaligned (x.xa + BitVec.ofNat 64 (x.index i * x.k.eb)) x.k.eb = true) :
    x.amoAt op new (.go, s) i = (.fault i (Exc.misaligned (x.xa + BitVec.ofNat 64 (x.index i * x.k.eb))), s) :=
  (if_pos hg).trans (if_pos hm)

theorem amoAt_done {o : List Byte} {t : State} (hm : misaligned (x.xa + BitVec.ofNat 64 (x.index i * x.k.eb)) x.k.eb = false)
    (ha : s.atomic x op (x.xa + BitVec.ofNat 64 (x.index i * x.k.eb)) x.k.eb (BitVec.ofNat 64 (x.k.elem x.k.eb (fD x.w) i))
      (BitVec.ofNat 64 (new i)) = (.data o, t)) :
    x.amoAt op new (.go, s) i = (.go, t.setCore x.c ((t.core x.c).putElem x.k.eb (fD x.w) i (leNat o))) := by
  unfold Ctx.amoAt
  dsimp only
  rw [if_pos hg, if_neg (by simp [hm]), ha]

end

/-- An address in the bench is aligned. -/
theorem InBench.not_misaligned {ea : DWord} {n : Nat} (h : InBench ea n) : misaligned ea n = false := by
  obtain ⟨_, halign, _, _⟩ := h
  simp [misaligned, halign]

section
variable {new : DWord} (hg : fn4 x.w = 0) (hlo : 2 ≤ fn6 x.w % 4) (hhi : fn6 x.w / 4 ≤ 6)
  (hplain : fn6 x.w / 4 ≠ 6 → x.p = .none ∧ new = 0)
  (hcas : fn6 x.w / 4 = 6 → ∃ r, x.p = .operands r 0 ∧ new = x.k.xreg r)
include hg hlo hhi hplain hcas

/-- An AMO is legal, and its new value is the operand that the prefix names. -/
theorem amo_legal :
    (decide (fn6 x.w % 4 < 2) || decide (6 < fn6 x.w / 4) || decide (fn4 x.w ≠ 0)
      || (if fn6 x.w / 4 = 6 then x.p.third.isNone else decide (x.p ≠ Prefix.none))) = false ∧
    (x.p.third = none ∧ new = 0 ∨ ∃ r, x.p.third = some r ∧ new = x.k.xreg r) := by
  by_cases hf : fn6 x.w / 4 = 6
  · obtain ⟨r, hp, rfl⟩ := hcas hf
    have hthird : x.p.third = some r := by rw [hp]; rfl
    exact ⟨by simp [hf, hg, hthird]; omega, .inr ⟨r, hthird, rfl⟩⟩
  · obtain ⟨hp, rfl⟩ := hplain hf
    exact ⟨by simp [hf, hg, hp]; omega, .inl ⟨by rw [hp]; rfl, rfl⟩⟩

theorem amoInsn_misaligned (hm : misaligned x.xa (2 ^ (fn6 x.w % 4)) = true) :
    amoInsn x s = x.raise s (Exc.misaligned x.xa) :=
  (if_neg (by simp only [(amo_legal hg hlo hhi hplain hcas).1, Bool.false_eq_true, not_false_eq_true])).trans (if_pos hm)

variable (hm : misaligned x.xa (2 ^ (fn6 x.w % 4)) = false) {t : State} {r : Loaded}
  (ha : s.atomic x (fn6 x.w / 4) x.xa (2 ^ (fn6 x.w % 4)) x.xb new = (r, t))
include hm ha

/-- An aligned AMO ends as its access does (R149). -/
theorem amoInsn_aligned :
    (∀ o, r = .data o → amoInsn x s =
      vdone ((t.core x.c).setX (fD x.w) (dw (sext (8 * 2 ^ (fn6 x.w % 4)) (leNat o)))) t) ∧
    (∀ e, r = .exc e → amoInsn x s = x.raise t e) ∧ (r = .wait → amoInsn x s = .wait t) := by
  obtain ⟨hlegal, hnew⟩ := amo_legal hg hlo hhi hplain hcas
  unfold amoInsn
  dsimp only
  rw [if_neg (by simp only [hlegal, Bool.false_eq_true, not_false_eq_true]), if_neg (by simp [hm])]
  rcases hnew with ⟨hthird, rfl⟩ | ⟨q, hthird, rfl⟩ <;> rw [hthird] <;> dsimp only <;> rw [ha] <;>
  exact ⟨fun o h => by subst h; rfl, fun e h => by subst h; rfl, fun h => by subst h; rfl⟩

end
end

/-- Settles O24: each legal word comes to its unit's case, and a row of the table makes that the answer of the command. -/
theorem countersStreamsDecodersAndAtomicsComplete : Obligations.CountersStreamsDecodersAndAtomicsComplete := by
  intro s c pfx w hruns hpfx x k d a b g xa v ends traps waits
  have noPrefix (h : pfx = none) : x.p = .none := by subst h; rfl
  refine ⟨fun hc => ?tile, ?amo⟩
  case tile =>
    have rowEnds {m u lo hi : Nat} {f : Ctx → State → Out} {k' : Core} {t : State} (hrow : isFn m u u w = true) (hm : m < 0x7F)
        (hlo : lo ≤ u) (hhi : u ≤ hi) (hf : f x s = vdone k' t) :
        done (okCore c) s (s.runRow bus c pfx w (isFn m lo hi) f) = ends t k' :=
      State.tileRow_next hruns hc hpfx (major_lt_of_isFn hrow hm) (isFn_of_self hrow hlo hhi) hf
    have rowTraps {m u lo hi : Nat} {f : Ctx → State → Out} {k' : Core} {t : State} {e : Exc} (hrow : isFn m u u w = true)
        (hm : m < 0x7F) (hlo : lo ≤ u) (hhi : u ≤ hi) (hf : f x s = .trap e k' t) :
        done (okCore c) s (s.runRow bus c pfx w (isFn m lo hi) f) = traps t k' e :=
      State.tileRow_trapped hruns hc hpfx (major_lt_of_isFn hrow hm) (isFn_of_self hrow hlo hhi) hf
    have rowWaits {m u lo hi : Nat} {f : Ctx → State → Out} {t : State} (hrow : isFn m u u w = true)
        (hm : m < 0x7F) (hlo : lo ≤ u) (hhi : u ≤ hi) (hf : f x s = .wait t) :
        done (okCore c) s (s.runRow bus c pfx w (isFn m lo hi) f) = waits t :=
      State.tileRow_wait hruns hc hpfx (major_lt_of_isFn hrow hm) (isFn_of_self hrow hlo hhi) hf
    have count {u : Nat} (hrow : isFn 0x46 u u w = true) (hp : plainOk x [b] = true) (hd : d = 0) :
        vhistInsn x s = s.histogram x (if u = 0 then 4 else 8) (fun _ => 1) := by
      obtain ⟨_, rfl⟩ := isFn_self_iff.mp hrow
      exact vhistInsn_eq hp hd
    refine ⟨?counted, ?countFails, ?counter, ?countOne, ?gauge, ?send, ?receive, ?close, ?status, ?vdopen, ?decode, ?vamo⟩
    case counted =>
      intro k' t
      refine ⟨fun u hrow hu hp hd hh => rowEnds hrow (by decide) (Nat.zero_le _) hu ((count hrow hp hd).trans hh),
        fun hrow hp he hh => rowEnds hrow (by decide) (le_refl _) (le_refl _) ((vhistaddInsn_eq hp he).trans hh)⟩
    case countFails =>
      intro k' t e
      refine ⟨fun u hrow hu hp hd hh => rowTraps hrow (by decide) (Nat.zero_le _) hu ((count hrow hp hd).trans hh),
        fun hrow hp he hh => rowTraps hrow (by decide) (le_refl _) (le_refl _) ((vhistaddInsn_eq hp he).trans hh)⟩
    case counter =>
      intro cb weight i hb hv hg ea off hcanon halign hlo hhi hp
      exact State.histogram_one hb hv hg ⟨hcanon, halign, hlo, hhi⟩ hp
    case countOne =>
      intro i hb hv hg ea counts free
      have one {cb : Nat} {weight : Nat → Nat} (hfree : free cb) :=
        State.histogram_one (s := s) (weight := weight) (x := x) hb hv hg hfree.1 hfree.2
      refine ⟨fun hrow hp hd hfree => ?_, fun hrow hp hd hfree => ?_, fun hrow hp he hfree => ?_⟩
      · exact rowEnds hrow (by decide) (Nat.zero_le _) (by decide) ((count hrow hp hd).trans (one hfree))
      · exact rowEnds hrow (by decide) (Nat.zero_le _) (le_refl _) ((count hrow hp hd).trans (one hfree))
      · exact rowEnds hrow (by decide) (le_refl _) (le_refl _) ((vhistaddInsn_eq hp he).trans (one hfree))
    case gauge =>
      intro hrow het hp hv hzero hrank wd u0 htable hwd hshare hvl hb hg key
      have hone {r : GAnswer} {t : State} (h : u0.tileSearch x (bits v 3 0) (bits v 15 8) key = (r, t)) :
          vgaugeInsn x s = x.searched r t :=
        vgaugeInsn_one het hp hv hzero hrank htable hwd hshare hvl hb hg h
      have hok {r : GAnswer} {t : State} (h : u0.tileSearch x (bits v 3 0) (bits v 15 8) key = (r, t)) (hst : r.status = St.ok) :
          exec (.vgauge c pfx w) s =
            (let t' := t.setCore c ((t.core c).putElem 8 d 0 r.word); ends t' (t'.core c)) :=
        rowEnds hrow (by decide) (le_refl _) (le_refl _) ((hone h).trans (if_pos hst))
      refine ⟨fun r t h => ⟨hok h, fun hst hheld => ?_, fun hheld => ?_⟩, fun hrole hidle hsearch => ?_⟩
      · exact rowTraps hrow (by decide) (le_refl _) (le_refl _) ((hone h).trans ((if_neg hst).trans (if_neg hheld)))
      · exact rowWaits hrow (by decide) (le_refl _) (le_refl _)
          ((hone h).trans ((if_neg (by rw [hheld]; decide)).trans (if_pos hheld)))
      · have hfront : s.tileTable (bits v 3 0) = (s.gTable (bits v 3 0), s.gWidth (bits v 3 0), s) := if_neg hrole
        obtain ⟨_, _, rfl⟩ : true = s.gTable (bits v 3 0) ∧ wd = s.gWidth (bits v 3 0) ∧ u0 = s := by
          simpa using htable.symm.trans hfront
        intro ms t t'
        exact (hok (State.tileSearch_front (x := x) hrole hidle hsearch) rfl :)
    case send =>
      intro hrow hp hz
      refine ⟨fun hv => rowTraps hrow (by decide) (le_refl _) (le_refl _) (vsendInsn_unconfigured hp hz hv), fun hv he =>
        ⟨fun hcl => rowTraps hrow (by decide) (le_refl _) (le_refl _) (vsendInsn_closed hp hz hv he hcl), fun hcl => ?_⟩⟩
      have hopen := vsendInsn_open (x := x) hp hz hv he hcl
      intro rest r
      have hall (h : r.1 = rest.length) : exec (.vsend c pfx w) s = ends r.2 { r.2.core c with chWait := none, vsent := 0 } :=
        rowEnds hrow (by decide) (le_refl _) (le_refl _) (hopen.trans (if_pos h))
      refine ⟨hall, fun h => rowWaits hrow (by decide) (le_refl _) (le_refl _) (hopen.trans (if_neg h)), ?_⟩
      intro m hpos hcr hkind hx
      have hr : r = (rest.length, State.wr { s with noc := s.noc ++ [m] } (Reg.TIL_OCH_CREDIT c d)
          (BitVec.ofNat 32 (s.ochCredit c d - rest.length))) := State.sendElems_mesh hpos hcr hkind hx
      rw [hall (by rw [hr]), hr]
      rfl
    case receive =>
      intro hrow hp hz
      refine ⟨fun hv => rowTraps hrow (by decide) (le_refl _) (le_refl _) (vrecvInsn_unconfigured hp hz hv), fun hv he => ?_⟩
      intro q
      refine ⟨fun hq hend => rowWaits hrow (by decide) (le_refl _) (le_refl _) (vrecvInsn_short hp hz hv he hq hend),
        fun hq hbad => rowTraps hrow (by decide) (le_refl _) (le_refl _) (vrecvInsn_poisoned hp hz hv he hq hbad),
        fun hq hgood => ?_⟩
      exact rowEnds hrow (by decide) (le_refl _) (le_refl _) (vrecvInsn_taken hp hz hv he hq hgood)
    case close =>
      intro hrow hp ha hz hg
      have hplain := noPrefix hp
      have hends {left : Bool} {t : State} (hv : s.ochValid c d = true) (hcl : s.ochClosed c d = false)
          (h : s.closeChannel c d = (left, t)) : exec (.sclose c pfx w) s = if left then ends t (t.core c) else waits t := by
        have hclose := scloseInsn_open (x := x) hplain ha hz hg hv hcl h
        cases left with
        | true => exact rowEnds hrow (by decide) (le_refl _) (le_refl _) hclose
        | false => exact rowWaits hrow (by decide) (le_refl _) (le_refl _) hclose
      refine ⟨fun hv => rowTraps hrow (by decide) (le_refl _) (le_refl _) (scloseInsn_unconfigured hplain ha hz hg hv),
        fun hv hcl => rowTraps hrow (by decide) (le_refl _) (le_refl _) (scloseInsn_closed hplain ha hz hg hv hcl),
        fun hv hcl left t h => hends hv hcl h, ?_⟩
      intro m hv hcl hkind hx
      exact hends hv hcl (State.closeChannel_mesh hkind hx)
    case status =>
      intro hp hz hg
      have hplain := noPrefix hp
      have hs : statOk x = true := by
        show (decide (x.p = .none) && decide (b = 0) && decide (g = 0)) = true
        rw [decide_eq_true hplain, decide_eq_true hz, decide_eq_true hg]
        rfl
      refine ⟨fun hrow => rowEnds hrow (by decide) (le_refl _) (le_refl _) (sstatOutInsn_eq hs),
        fun hrow => rowEnds hrow (by decide) (le_refl _) (le_refl _) (sstatInInsn_eq hs), ?_,
        fun hrow hd ha => rowEnds hrow (by decide) (le_refl _) (le_refl _) (vdcloseInsn_eq hs hd ha)⟩
      intro hrow ha dc
      exact rowEnds hrow (by decide) (le_refl _) (le_refl _) (vdstatInsn_eq hs ha)
    case vdopen =>
      intro xc hrow hp hd hg cw cd hbase hword hsome hmost hlen hcodec hok hsib
      exact rowEnds hrow (by decide) (le_refl _) (le_refl _)
        (vdopenInsn_eq hp hd hg ⟨hbase, hword, hsome, hmost, hlen, hcodec, hok⟩ hsib)
    case decode =>
      intro hrow hp hz ha dc
      refine ⟨fun ho => rowTraps hrow (by decide) (le_refl _) (le_refl _) (vdecodeInsn_closed hp hz ha ho), fun ho herr he => ?_⟩
      intro n
      refine ⟨fun hstep ready t ht => ⟨fun hr => ?_, fun hr => ?_⟩, fun hstep hfree hlen => ?_⟩
      · subst hr
        exact rowWaits hrow (by decide) (le_refl _) (le_refl _) (vdecodeInsn_waits hp hz ha ho herr he rfl hstep ht)
      · subst hr
        refine ⟨fun hlen => ?_, fun hlen => ?_⟩
        · exact rowTraps hrow (by decide) (le_refl _) (le_refl _) (vdecodeInsn_fails hp hz ha ho herr he rfl hstep ht hlen)
        · exact rowEnds hrow (by decide) (le_refl _) (le_refl _) (vdecodeInsn_delivers hp hz ha ho herr he rfl hstep ht hlen)
      · have hfree1 (h1 : a = 1) : (s.core x.c).dec1.fields.sibEn = false := by
          rw [← hfree h1, show dc = k.dec1 from if_neg (by omega)]
          rfl
        have hahead : s.decodeAhead x a (dc.delivered + n) = (true, s.setCore c k) := State.decodeAhead_held hfree1 hlen
        have hcore : (s.setCore c k).core c = k := State.core_setCore_self _ _ _
        have hdone := vdecodeInsn_delivers (x := x) hp hz ha ho herr he rfl hstep hahead
          (by rw [show x.c = c from rfl, hcore]; exact hlen)
        rw [show x.c = c from rfl, hcore] at hdone
        exact rowEnds hrow (by decide) (le_refl _) (le_refl _) hdone
    case vamo =>
      intro op new hmajor hop hsize hgroups hpred hplain hcas
      have hlt : major w < 0x7F := by omega
      have hamo : vamoInsn x s = x.vend (k.strip.foldl (x.amoAt op new) (.go, s)) :=
        vamoInsn_eq hop hsize hgroups hpred (fun h => ⟨noPrefix (hplain h).1, (hplain h).2⟩) hcas
      refine ⟨fun hnone => ?_, fun i hb hv hg => ?_⟩
      · have hgo : vamoInsn x s = x.vend (.go, s) := hamo.trans (congrArg x.vend (amoAll_inactive (x := x) hnone))
        exact (State.tileRow_next hruns hc hpfx hlt (isMajor_self hmajor) hgo :)
      · have hstrip : k.strip = [i] := Core.strip_one hb hv
        rw [hstrip] at hamo
        have hdone {o : List Byte} {t : State} (hm : misaligned (xa + BitVec.ofNat 64 (k.elem k.eb b i % 2 ^ 64 * k.eb)) k.eb = false)
            (hat : s.atomic x op (xa + BitVec.ofNat 64 (k.elem k.eb b i % 2 ^ 64 * k.eb)) k.eb (BitVec.ofNat 64 (k.elem k.eb d i))
              (BitVec.ofNat 64 (new i)) = (.data o, t)) :
            exec (.vamo c pfx w) s =
              (let t' := t.setCore c ((t.core c).putElem k.eb d i (leNat o)); ends t' (t'.core c)) :=
          (State.tileRow_next hruns hc hpfx hlt (isMajor_self hmajor)
            (hamo.trans (congrArg x.vend (amoAt_done (x := x) hg hm hat))) :)
        refine ⟨fun hm => ?_, fun o t hm hat => hdone hm hat, fun hbench hpoison => ?_⟩
        · exact (State.tileRow_trapped hruns hc hpfx hlt (isMajor_self hmajor)
            (hamo.trans (congrArg x.vend (amoAt_misaligned (x := x) hg hm))) :)
        · exact hdone hbench.not_misaligned (s.atomic_bench (x := x) hc hbench hpoison)
  case amo =>
    intro hmajor hg hlo hhi n new hplain hcas
    have hexec : Executable c pfx w := ⟨hpfx, by omega, .inr (by simp [headMajor, hmajor])⟩
    have hplain' (h : fn6 x.w / 4 ≠ 6) : x.p = .none ∧ new = 0 := ⟨noPrefix (hplain h).1, (hplain h).2⟩
    have hrow {t : State} (h : s.runRow bus c pfx w (isMajor 0x4B 0x4B) amoInsn = t) :
        exec (.amo c pfx w) s = .next (s.seal t) := (done_of hruns.1 _ _).trans (by rw [h])
    have hends {k' : Core} {t : State} (hf : amoInsn x s = vdone k' t) : exec (.amo c pfx w) s = ends t k' :=
      hrow (State.runRow_next hruns.2 (isMajor_self hmajor) hexec hf)
    have htraps {k' : Core} {t : State} {e : Exc} (hf : amoInsn x s = .trap e k' t) : exec (.amo c pfx w) s = traps t k' e :=
      hrow (State.runRow_trap hruns.2 (isMajor_self hmajor) hexec hf)
    have hwaits {t : State} (hf : amoInsn x s = .wait t) : exec (.amo c pfx w) s = waits t :=
      hrow (State.runRow_of hruns.2 (isMajor_self hmajor) hexec hf)
    have haligned (hm : misaligned xa n = false) {r : Loaded} {t : State} (hat : s.atomic x (fn6 w / 4) xa n (k.xreg b) new = (r, t)) :=
      amoInsn_aligned (x := x) hg hlo hhi hplain' hcas hm hat
    refine ⟨fun hm => htraps (amoInsn_misaligned hg hlo hhi hplain' hcas hm), fun hm => ⟨fun o t hat => ?_, fun e t hat => ?_,
      fun t hat => ?_⟩, fun hc hbench hpoison => ?_⟩
    · exact hends ((haligned hm hat).1 o rfl)
    · exact htraps ((haligned hm hat).2.1 e rfl)
    · exact hwaits ((haligned hm hat).2.2 rfl)
    · have hat := s.atomic_bench (x := x) (op := fn6 w / 4) (v := k.xreg b) (new := new) hc hbench hpoison
      exact hends ((haligned hbench.not_misaligned hat).1 _ rfl)

end Sys2Proof.Machine
end

section
/-! The boot's print, REPRINT and VERIFY, and the plate devices (R425 to R431). -/

namespace Sys2Proof.Machine

/-! The print of a boot (R22, R425, R426). -/

/-- Plate's part of a print that succeeds (R425). -/
def State.printGood (s : State) : State := (s.setFld Reg.PLT_STATUS 15 0 St.ok).printEnd true

/-- A print that fails with status `st` (R426). -/
def State.printFailed (s : State) (st : Nat) : State :=
  let v := (s.setFld Reg.PLT_STATUS 15 0 st).raise Reg.PLT_INT_STATUS 1
  (v.setPlate { v.plate with printLog := ⟨0xFFFF, st, 0⟩ }).printEnd false

section
variable {s v : State} {bad : List Nat} {worn : List (Bool × List Byte)}

theorem State.bootPrint_notDue (h : s.printDue = false) : s.bootPrint bad worn = s := if_pos (by simp [h])

section
variable (hdue : s.printDue = true)
include hdue

/-- A print that has failed does nothing more. -/
theorem State.bootPrint_failed {st : Nat} (h : s.print bad worn = v.printFailed st) : s.bootPrint bad worn = v.printFailed st := by
  unfold State.bootPrint
  rw [if_neg (by simp [hdue]), h]
  exact if_pos (show some false ≠ some true by decide)

/-- After a successful print Hatch's configuration is restored, and a configured half trains the hinge (R378, R399). -/
theorem State.bootPrint_good (h : s.print bad worn = v.printGood) :
    (v.printGood.restoreHatch.plate.record.role = 0 → s.bootPrint bad worn = v.printGood.restoreHatch) ∧
    (v.printGood.restoreHatch.plate.record.role ≠ 0 →
      s.bootPrint bad worn = (v.printGood.restoreHatch.trainPort 6 3 15).trainPort 7 3 15) := by
  have hboot : s.bootPrint bad worn =
      if v.printGood.restoreHatch.plate.record.role = 0 then v.printGood.restoreHatch
      else [6, 7].foldl (fun s p => s.trainPort p 3 15) v.printGood.restoreHatch := by
    unfold State.bootPrint
    rw [if_neg (by simp [hdue]), h]
    exact if_neg (show ¬some true ≠ some true by decide)
  exact ⟨fun hr => hboot.trans (if_pos hr), fun hr => hboot.trans (if_neg hr)⟩

theorem State.print_empty (hnew : (s.judgeSlots worn).plate.newest = none) :
    s.print bad worn = (s.judgeSlots worn).printGood := by
  unfold State.print
  rw [if_neg (by simp [hdue])]
  dsimp only
  rw [hnew]
  rfl

variable {b : Bool} (hnew : (s.judgeSlots worn).plate.newest = some b)
include hnew

theorem State.print_storeFailed (hf : (s.judgeSlots worn).storeFailed = true) :
    s.print bad worn = (s.judgeSlots worn).printFailed St.plateInvalid := by
  unfold State.print
  rw [if_neg (by simp [hdue])]
  dsimp only
  rw [hnew]
  exact if_pos hf

variable (hf : (s.judgeSlots worn).storeFailed = false)
include hf

theorem State.print_newest (hp : (s.judgeSlots worn).printSlot bad b = some v) : s.print bad worn = v.printGood := by
  unfold State.print
  rw [if_neg (by simp [hdue])]
  dsimp only
  rw [hnew]
  dsimp only
  rw [if_neg (by simp [hf]), hp]
  rfl

variable (hp : (s.judgeSlots worn).printSlot bad b = none)
include hp

theorem State.print_other (ho : (s.judgeSlots worn).printSlot bad (!b) = some v) : s.print bad worn = v.printGood := by
  unfold State.print
  rw [if_neg (by simp [hdue])]
  dsimp only
  rw [hnew]
  dsimp only
  rw [if_neg (by simp [hf]), hp]
  dsimp only
  rw [ho]
  rfl

theorem State.print_mismatch (ho : (s.judgeSlots worn).printSlot bad (!b) = none) :
    s.print bad worn = (s.judgeSlots worn).printFailed St.plateDigestMismatch := by
  unfold State.print
  rw [if_neg (by simp [hdue])]
  dsimp only
  rw [hnew]
  dsimp only
  rw [if_neg (by simp [hf]), hp]
  dsimp only
  rw [ho]
  rfl

end
end

/-! Chunks and their words (R426, R427). -/

section
variable {s : State} {bad : List Nat} {v : PltSlot} {k : Nat} {c : ChunkCopy} {r : List (Nat × Option ChunkCopy)}

theorem State.printChunks_unreadable (h : s.plate.copyBytes bad c = none) : s.printChunks bad v ((k, some c) :: r) = none := by
  unfold State.printChunks
  rw [h]

theorem State.printChunks_readable {raw : List Byte} (h : s.plate.copyBytes bad c = some raw) :
    let u := s.printChunk k (c.map.getD []) (v.raw k raw)
    s.printChunks bad v ((k, some c) :: r) = (u.setPlate (u.plate.clean k)).printChunks bad v r := by
  simp only [State.printChunks, h]

end

theorem capWords_kept {e n : Nat} {bs : List Byte} (h : leNat (bs.take 8) ≤ e) :
    capWords e (n + 1) bs = bs.take 8 ++ capWords e n (bs.drop 8) := by
  rw [capWords, if_neg (Nat.not_lt.mpr h)]

theorem natLE_never : natLE 8 never = List.replicate 8 0xFF := by decide

theorem capWords_never {e n : Nat} {bs : List Byte} (h : e < leNat (bs.take 8)) :
    capWords e (n + 1) bs = List.replicate 8 0xFF ++ capWords e n (bs.drop 8) := by
  rw [← natLE_never, capWords, if_pos h]

/-! A granule of a REPRINT (R429): `x` is what its read answers, and `u` the state after it. -/

section
variable {s u : State} {bad : List Nat} {good left st a : Nat} {broken : Bool} {x : MemAnswer}
  (hread : s.readMem Mid.plate (s.ownDpa a) 256 = (x, u))
include hread

theorem State.reprintGranule_failed (h : x.status ≠ St.ok) :
    s.reprintGranule bad (good, left, broken, st) a = ((good, left, broken, if st = St.ok then x.status else st), u) := by
  unfold State.reprintGranule
  dsimp only
  rw [hread]
  exact if_pos h

variable (hok : x.status = St.ok)
include hok

theorem State.reprintGranule_clean (hp : x.poison = false) :
    s.reprintGranule bad (good, left, broken, st) a = ((good, left, broken, st), u) := by
  unfold State.reprintGranule
  dsimp only
  rw [hread]
  exact (if_neg (not_not.mpr hok)).trans (if_pos (by simp [hp]))

variable (hp : x.poison = true)
include hp

/-- A granule written since its chunk was copied, or with a failed store, is left poisoned. -/
theorem State.reprintGranule_dirty (h : FMap.getD u.plate.dirty (a / 65536) = true ∨ u.storeFailed = true) :
    s.reprintGranule bad (good, left, broken, st) a = ((good, left + 1, broken, st), u) := by
  unfold State.reprintGranule
  dsimp only
  rw [hread]
  exact (if_neg (not_not.mpr hok)).trans ((if_neg (by simp [hp])).trans (if_pos (by simpa using h)))

variable (hd : FMap.getD u.plate.dirty (a / 65536) = false) (hf : u.storeFailed = false)
include hd hf

theorem State.reprintGranule_uncopied (hc : FMap.getD u.plate.work (a / 2 ^ 20) = none) :
    s.reprintGranule bad (good, left, broken, st) a = ((good, left + 1, broken, st), u) := by
  unfold State.reprintGranule
  dsimp only
  rw [hread]
  dsimp only
  rw [if_neg (not_not.mpr hok), if_neg (by simp [hp]), if_neg (by simp [hd, hf]), hc]

variable {c : ChunkCopy} (hc : FMap.getD u.plate.work (a / 2 ^ 20) = some c)
include hc

theorem State.reprintGranule_broken (hb : u.plate.copyBytes bad c = none) :
    s.reprintGranule bad (good, left, broken, st) a = ((good, left + 1, true, st), u) := by
  unfold State.reprintGranule
  dsimp only
  rw [hread]
  dsimp only
  rw [if_neg (not_not.mpr hok), if_neg (by simp [hp]), if_neg (by simp [hd, hf]), hc]
  dsimp only
  rw [hb]

/-- A granule whose copy is read is restored, unless the copy was poisoned there. -/
theorem State.reprintGranule_copied {raw : List Byte} (hb : u.plate.copyBytes bad c = some raw) :
    s.reprintGranule bad (good, left, broken, st) a =
      if (rangeFrom (a % 2 ^ 20 / 64) 4).any (fun g => mapBit (c.map.getD []) g) then ((good, left + 1, broken, st), u)
      else ((good + 1, left, broken, st), u.printWrite a (subBytes raw (a % 2 ^ 20) 256) false) := by
  unfold State.reprintGranule
  dsimp only
  rw [hread]
  dsimp only
  rw [if_neg (not_not.mpr hok), if_neg (by simp [hp]), if_neg (by simp [hd, hf]), hc]
  dsimp only
  rw [hb]

end

/-! The jobs REPRINT and VERIFY (R429). -/

section
variable {s : State} {ring tag : Nat} {bad : List Nat}

theorem State.reprint_none (h : s.pltJob ring tag 1 = none) : s.reprint ring tag bad = s := by
  unfold State.reprint
  rw [h]

theorem State.verifyJob_none (h : s.pltJob ring tag 2 = none) : s.verifyJob ring tag bad = s := by
  unfold State.verifyJob
  rw [h]

/-- The status of a REPRINT whose granules have come to these counts. -/
def reprintStatus (left : Nat) (broken : Bool) (st : Nat) : Nat :=
  if st ≠ St.ok then st else if broken then St.plateDigestMismatch else if left ≠ 0 then St.plateInvalid else St.ok

theorem State.reprint_ends {u : State} {j : Job} {good left st : Nat} {broken : Bool} (hj : s.pltJob ring tag 1 = some j)
    (hfold : (rangeFrom 0 (pltLen j.entry / 256)).foldl (fun (acc : (Nat × Nat × Bool × Nat) × State) i =>
      acc.2.reprintGranule bad acc.1 (pltDpa j.entry + 256 * i)) ((0, 0, false, St.ok), s) = ((good, left, broken, st), u))
    (hst : st ≠ St.held) : s.reprint ring tag bad = u.endJob j (reprintStatus left broken st) (good + 2 ^ 32 * left) := by
  unfold State.reprint
  rw [hj]
  dsimp only
  rw [hfold]
  exact if_neg hst

end

/-! Plate devices (R430, R431). -/

section
variable {s : State} {d : Nat}

theorem State.nvmeDone_notUp (h : s.fld (Reg.PLT_DEV_STATUS d) 31 30 ≠ 1) (ok : Bool) : s.nvmeDone d ok = s := if_pos h

theorem State.smartPoll_notUp (h : s.fld (Reg.PLT_DEV_STATUS d) 31 30 ≠ 1) (warn used spare : BitVec 8)
    (units errors : BitVec 128) : s.smartPoll d warn used spare units errors = s := if_pos h

section
variable (h : s.fld (Reg.PLT_DEV_STATUS d) 31 30 = 1)
include h

theorem State.nvmeDone_good : s.nvmeDone d true = s.setPlate { s.plate with retried := setBits s.plate.retried d d 0 } :=
  (if_neg (not_not.mpr h)).trans (if_pos rfl)

theorem State.nvmeDone_retry (hr : s.plate.retried.testBit d = false) :
    s.nvmeDone d false = s.setPlate { s.plate with retried := setBits s.plate.retried d d 1 } :=
  (if_neg (not_not.mpr h)).trans ((if_neg (by decide)).trans (if_neg (by simp [hr])))

theorem State.nvmeDone_fails (hr : s.plate.retried.testBit d = true) :
    s.nvmeDone d false = (s.setPlate { s.plate with retried := setBits s.plate.retried d d 0 }).devFail d :=
  (if_neg (not_not.mpr h)).trans ((if_neg (by decide)).trans (if_pos hr))

end
end

/-- Settles O46: PRINT by the slot it prints, a granule of a REPRINT by what its read and its copy give, and a device by its retry. -/
theorem printsRestoreImagesAndPlateJobsCheckCopies : Obligations.PrintsRestoreImagesAndPlateJobsCheckCopies := by
  refine ⟨?print, ?chunks, ?words, ?granule, ?jobs, ?devices⟩
  case print =>
    intro s bad worn runs u failed good
    have hruns {v : State} (h : s.bootPrint bad worn = v) : runs v := (done_of rfl _ _).trans (by rw [h])
    have hgood {v : State} (hdue : s.printDue = true) (h : s.print bad worn = v.printGood) :
        ((good v).plate.record.role = 0 → runs (good v)) ∧
        ((good v).plate.record.role ≠ 0 → runs (((good v).trainPort 6 3 15).trainPort 7 3 15)) :=
      ⟨fun hr => hruns ((State.bootPrint_good hdue h).1 hr), fun hr => hruns ((State.bootPrint_good hdue h).2 hr)⟩
    refine ⟨fun h => hruns (State.bootPrint_notDue h), fun hdue => ⟨fun hnew _ hr => ?_, fun b hnew => ⟨fun hf => ?_, fun hf =>
      ⟨fun v hp hr => ?_, fun v hp hr => ?_, fun hp => ⟨fun v ho hr => ?_, fun ho => ?_⟩⟩⟩⟩⟩
    · exact (hgood hdue (State.print_empty hdue hnew)).1 hr
    · exact hruns (State.bootPrint_failed hdue (State.print_storeFailed hdue hnew hf))
    · exact (hgood hdue (State.print_newest hdue hnew hf hp)).1 hr
    · exact (hgood hdue (State.print_newest hdue hnew hf hp)).2 hr
    · exact (hgood hdue (State.print_other hdue hnew hf hp ho)).1 hr
    · exact hruns (State.bootPrint_failed hdue (State.print_mismatch hdue hnew hf hp ho))
  case chunks =>
    intro s bad v k c r
    refine ⟨rfl, fun hc => by subst hc; rfl, fun x hc => ?_⟩
    subst hc
    exact ⟨State.printChunks_unreadable, fun raw h => State.printChunks_readable h⟩
  case words => exact fun e n bs => ⟨rfl, capWords_kept, capWords_never⟩
  case granule =>
    intro s bad good left st a broken x u hread
    refine ⟨State.reprintGranule_failed hread, State.reprintGranule_clean hread, fun hok hp =>
      ⟨State.reprintGranule_dirty hread hok hp, fun hd hf => ⟨State.reprintGranule_uncopied hread hok hp hd hf, fun c hc =>
        ⟨State.reprintGranule_broken hread hok hp hd hf hc, fun raw hb => ?_⟩⟩⟩⟩
    have hcopied := State.reprintGranule_copied (good := good) (left := left) (st := st) (broken := broken)
      hread hok hp hd hf hc hb
    exact ⟨fun hm => hcopied.trans (if_pos (List.any_eq_true.mpr hm)), fun hm => hcopied.trans (if_neg (mt List.any_eq_true.mp hm))⟩
  case jobs =>
    intro s ring tag bad hring
    have hok : decide (ring < 4) = true := decide_eq_true hring
    refine ⟨fun h => (done_of hok _ _).trans (by rw [State.reprint_none h]),
      fun h => (done_of hok _ _).trans (by rw [State.verifyJob_none h]), fun j hj good left broken st u hfold => ?_, fun j hj => ?_⟩
    · intro ends
      have hends (hst : st ≠ St.held) : ends (reprintStatus left broken st) :=
        (done_of hok _ _).trans (by rw [State.reprint_ends hj hfold hst])
      refine ⟨fun hst hb hl => ?_, fun hst hb hl => ?_, fun hst hb => ?_, fun hst hheld => ?_⟩
      · subst hst hb hl
        exact hends (by decide)
      · subst hst hb
        have hstatus : reprintStatus left false St.ok = St.plateInvalid := if_pos hl
        exact hstatus ▸ hends (by decide)
      · subst hst hb
        exact hends (by decide)
      · have hstatus : reprintStatus left broken st = st := if_pos hst
        exact hstatus ▸ hends hheld
    · intro a r
      refine (done_of hok _ _).trans ?_
      rw [State.verifyJob, hj]
  case devices =>
    intro s d warn used spare units errors hd up tried
    have hok : decide (d < 4) = true := decide_eq_true hd
    have hdone {ok : Bool} {t : State} (h : s.nvmeDone d ok = t) : exec (.nvmeCommandComplete d ok) s = .next (s.seal t) :=
      (done_of hok _ _).trans (by rw [h])
    have htimeout {t : State} (h : s.nvmeDone d false = t) : exec (.nvmeCommandTimeout d) s = .next (s.seal t) :=
      (done_of hok _ _).trans (by rw [h])
    have hpoll {t : State} (h : s.smartPoll d warn used spare units errors = t) :
        exec (.smartPoll d warn used spare units errors) s = .next (s.seal t) := (done_of hok _ _).trans (by rw [h])
    have hbad {t : State} (h : s.nvmeDone d false = t) :
        ∀ c ∈ [Instr.nvmeCommandComplete d false, .nvmeCommandTimeout d], exec c s = .next (s.seal t) := by
      intro c hc
      rcases List.mem_pair.mp hc with rfl | rfl
      · exact hdone h
      · exact htimeout h
    refine ⟨fun hup => ⟨hdone (State.nvmeDone_notUp hup true), htimeout (State.nvmeDone_notUp hup false),
      hpoll (State.smartPoll_notUp hup _ _ _ _ _)⟩, fun hup => ⟨hdone (State.nvmeDone_good hup), fun c hc =>
        ⟨fun hr => hbad (State.nvmeDone_retry hup hr) c hc, fun hr => hbad (State.nvmeDone_fails hup hr) c hc⟩, ?_⟩⟩
    intro u v
    exact ⟨fun hw => hpoll ((if_neg (not_not.mpr hup)).trans (if_pos hw)), fun hw => hpoll ((if_neg (not_not.mpr hup)).trans (if_neg hw))⟩

end Sys2Proof.Machine
end
